-- ==== Sys2Proof/Word.lean ====
section
/-!
DEFINITION. The word types of the module: bytes, 32-bit setup words, 64-bit scalars, the 32-byte pattern record and the
128-bit roster word (R4, R10, Table 04-4, Table 04-7), and the numberings of its units (R12, R60, R89, Tables 00-3, 03-1).
-/

namespace Sys2Proof

abbrev Byte := BitVec 8
abbrev Word := BitVec 32
abbrev DWord := BitVec 64
abbrev RosterWord := BitVec 128
abbrev PatternRecord := BitVec 256

/-- Logical cores 0 to 511 (R13, R45). -/
abbrev CoreId := Fin 512
/-- Panels 0 to 7. -/
abbrev PanelId := Fin 8
/-- Cuffs 0 to 11. -/
abbrev CuffId := Fin 12
/-- Physical cores and physical Pocket columns, numbered 68 p + c (R12, Table 00-3). -/
abbrev PhysId := Fin 544
/-- Ring pairs SQ q and CQ q (R301). -/
abbrev RingQ := Fin 64
/-- Seam ports S(p, s), numbered 2 p + s. -/
abbrev PortId := Fin 16
/-- Scalar registers s0 to s31 and vector registers v0 to v31 (04). -/
abbrev RegId := BitVec 5

end Sys2Proof
end

