-- ==== Sys2Proof/Machine/Map.lean ====
section
/-!
DEFINITION. Sparse maps as plain data: a list of key and value pairs with strictly rising keys. A key that is not listed
holds the value that the reader of the map names (the reset value of that piece of state).
-/

namespace Sys2Proof.Machine

/-- The value at key `k`, or `d` where the map lists none. -/
def mapGet {α : Type} (d : α) (m : List (Nat × α)) (k : Nat) : α :=
  match m with
  | [] => d
  | e :: r => if e.1 = k then e.2 else mapGet d r k

/-- The map with `v` at key `k`, kept in rising order of its keys. -/
def mapPut {α : Type} (m : List (Nat × α)) (k : Nat) (v : α) : List (Nat × α) :=
  match m with
  | [] => [(k, v)]
  | e :: r =>
    if k < e.1 then (k, v) :: e :: r
    else if k = e.1 then (k, v) :: r
    else e :: mapPut r k v

/-- The map without an entry for key `k`. -/
def mapErase {α : Type} (m : List (Nat × α)) (k : Nat) : List (Nat × α) :=
  m.filter fun e => e.1 ≠ k

/-- Whether the map lists key `k`. -/
def mapHas {α : Type} (m : List (Nat × α)) (k : Nat) : Bool :=
  m.any fun e => e.1 = k

/-- The listed keys rise strictly. -/
def keysRise {α : Type} (m : List (Nat × α)) : Bool :=
  match m with
  | [] => true
  | [_] => true
  | e :: f :: r => decide (e.1 < f.1) && keysRise (f :: r)

end Sys2Proof.Machine
end

