-- ==== Sys2Proof/Machine/Bits.lean ====
section
/-!
DEFINITION. Bit fields, sign extension and the little-endian byte order of every structure in memory (R10), and the
saturating and wrapping counters that the setup registers use.
-/

namespace Sys2Proof.Machine

/-- Bits [lo + len - 1 : lo] of a value. -/
abbrev field {w : Nat} (v : BitVec w) (lo len : Nat) : BitVec len := v.extractLsb' lo len

/-- One bit of a value. -/
abbrev bit {w : Nat} (v : BitVec w) (i : Nat) : Bool := v.getLsbD i

/-- `v` with bits [lo + len - 1 : lo] replaced by `x`. -/
def setField {w : Nat} (v : BitVec w) (lo len : Nat) (x : Nat) : BitVec w :=
  BitVec.ofNat w (v.toNat - (v.toNat >>> lo) % 2 ^ len * 2 ^ lo + x % 2 ^ len * 2 ^ lo)

/-- The little-endian value of a run of bytes (R10). -/
def leNat (bs : List Byte) : Nat :=
  match bs with
  | [] => 0
  | b :: r => b.toNat + 256 * leNat r

/-- The `n` little-endian bytes of a value (R10). -/
def leBytes (n : Nat) (v : Nat) : List Byte :=
  match n with
  | 0 => []
  | k + 1 => BitVec.ofNat 8 v :: leBytes k (v / 256)

/-- The signed value of a two's complement field. -/
abbrev signed {w : Nat} (v : BitVec w) : Int := v.toInt

/-- A counter that stops at its largest value. -/
def satAdd {w : Nat} (v : BitVec w) (k : Nat) : BitVec w :=
  BitVec.ofNat w (min (v.toNat + k) (2 ^ w - 1))

/-- A counter that wraps modulo its width. -/
def wrapAdd {w : Nat} (v : BitVec w) (k : Nat) : BitVec w :=
  BitVec.ofNat w (v.toNat + k)

/-- A list cut into runs of `n` (the last may be shorter). -/
def chunks {α : Type} (n : Nat) (fuel : Nat) (l : List α) : List (List α) :=
  match fuel, l with
  | 0, _ => []
  | _, [] => []
  | f + 1, l => l.take n :: chunks n f (l.drop n)

/-- The numbers of the set bits of a value, lowest first. -/
def setBits {w : Nat} (v : BitVec w) : List Nat :=
  (List.range w).filter fun i => v.getLsbD i

/-- `v` clamped to the range lo to hi (R8, Table 03-9). -/
def clampNat (lo hi v : Nat) : Nat := max lo (min hi v)

/-- Sets or clears bit `i` of a flag word. -/
def putBit {w : Nat} (v : BitVec w) (i : Nat) (b : Bool) : BitVec w :=
  if b then v ||| BitVec.ofNat w (2 ^ i) else v &&& ~~~(BitVec.ofNat w (2 ^ i))

/-- `f` applied to the `i`-th item of a list (nothing where there is none). -/
def modifyNth {α : Type} (l : List α) (i : Nat) (f : α → α) : List α :=
  match l, i with
  | [], _ => []
  | a :: r, 0 => f a :: r
  | a :: r, k + 1 => a :: modifyNth r k f

end Sys2Proof.Machine
end

