-- ==== Sys2Proof/Machine/Num.lean ====
section
/-!
DEFINITION. Exact binary numbers and the floating-point encodings of Table 06-2 (R113 to R115): every value is a signed
dyadic number, an infinity or NaN; every operation is exact; rounding is to nearest, ties to even, once.
-/

namespace Sys2Proof.Machine

/-- An exact value: (−1)^neg × mag × 2^exp (a zero keeps its sign), an infinity, or NaN. -/
inductive FVal where
  | fin (neg : Bool) (mag : Nat) (exp : Int)
  | inf (neg : Bool)
  | nan
deriving DecidableEq, Repr

/-- How a floating-point encoding spends its top codes (the Infinity and NaN columns of Table 06-2). -/
inductive TopCodes where
  | ieee | nanOnly | none
deriving DecidableEq, Repr

/-- A floating-point encoding of Table 06-2: exponent bits, mantissa bits, bias. -/
structure FpFmt where
  eb : Nat
  mb : Nat
  bias : Nat
  top : TopCodes
deriving DecidableEq, Repr

def fp32 : FpFmt := ⟨8, 23, 127, .ieee⟩
def bf16 : FpFmt := ⟨8, 7, 127, .ieee⟩
def fp16 : FpFmt := ⟨5, 10, 15, .ieee⟩
def e5m2 : FpFmt := ⟨5, 2, 15, .ieee⟩
def e4m3 : FpFmt := ⟨4, 3, 7, .nanOnly⟩
def e3m2 : FpFmt := ⟨3, 2, 3, .none⟩
def e2m3 : FpFmt := ⟨2, 3, 1, .none⟩
def e2m1 : FpFmt := ⟨2, 1, 1, .none⟩

/-- The value of an encoding's bits (R113). -/
def fpDecode (f : FpFmt) (v : Nat) : FVal :=
  let neg := (v >>> (f.eb + f.mb)) % 2 = 1
  let e := (v >>> f.mb) % 2 ^ f.eb
  let m := v % 2 ^ f.mb
  if f.top = .ieee ∧ e = 2 ^ f.eb - 1 then (if m = 0 then .inf neg else .nan)
  else if f.top = .nanOnly ∧ e = 2 ^ f.eb - 1 ∧ m = 2 ^ f.mb - 1 then .nan
  else if e = 0 then .fin neg m (1 - (f.bias : Int) - f.mb)
  else .fin neg (2 ^ f.mb + m) ((e : Int) - f.bias - f.mb)

/-- A natural number divided by 2^k, rounded to nearest, ties to even. -/
def rneShift (m k : Nat) : Nat :=
  let q := m >>> k
  let r := m % 2 ^ k
  if 2 * r < 2 ^ k then q else if 2 * r > 2 ^ k then q + 1 else q + q % 2

/-- `mag × 2^exp` in units of 2^q, rounded to nearest, ties to even. -/
def quantise (mag : Nat) (exp q : Int) : Nat :=
  if q ≤ exp then mag <<< (exp - q).toNat else rneShift mag (q - exp).toNat

/-- The exponent and mantissa fields, read as one number, of `mag × 2^exp` rounded to nearest, ties to even, with no upper
limit on the exponent. -/
def fpRoundMag (f : FpFmt) (mag : Nat) (exp : Int) : Nat :=
  if mag = 0 then 0
  else
    let least : Int := 1 - (f.bias : Int) - f.mb
    let q := max ((mag.log2 : Int) + exp - f.mb) least
    (q - least).toNat * 2 ^ f.mb + quantise mag exp q

/-- The sign bit of an encoding. -/
def signBits (f : FpFmt) (neg : Bool) : Nat := if neg then 2 ^ (f.eb + f.mb) else 0

/-- The canonical NaN of R114 (formats with infinities, and E4M3). -/
def canonicalNan (f : FpFmt) : Nat :=
  if f.top = .ieee then (2 ^ f.eb - 1) * 2 ^ f.mb + 2 ^ (f.mb - 1) else 2 ^ (f.eb + f.mb) - 1

/-- An exact value rounded once into a format with infinities, a finite value beyond its range becoming an infinity
(R114, R115, R126). -/
def fpRound (f : FpFmt) (v : FVal) : Nat :=
  let top := (2 ^ f.eb - 1) * 2 ^ f.mb
  match v with
  | .nan => canonicalNan f
  | .inf neg => signBits f neg + top
  | .fin neg mag exp => signBits f neg + min (fpRoundMag f mag exp) top

/-- FP32 bits of an exact value. -/
def roundFp32 (v : FVal) : Word := BitVec.ofNat 32 (fpRound fp32 v)

/-- The value of FP32 bits. -/
def ofFp32 (w : Word) : FVal := fpDecode fp32 w.toNat

/-- The BF16 lane form of an exact value: BF16 in bits [31:16], bits [15:0] zero (Table 06-1). -/
def roundBf16Lane (v : FVal) : Word := BitVec.ofNat 32 (fpRound bf16 v * 2 ^ 16)

/-- The value of a signed integer times a power of two. -/
def fvOfInt (n : Int) (exp : Int) : FVal := .fin (decide (n < 0)) n.natAbs exp

/-- Whether a value is a zero of either sign. -/
def FVal.isZero : FVal → Bool
  | .fin _ 0 _ => true
  | _ => false

/-- The signed integer of a finite value in units of 2^q, for q at most its exponent. -/
def scaledInt (neg : Bool) (mag : Nat) (exp q : Int) : Int :=
  let m : Int := (mag <<< (exp - q).toNat : Nat)
  if neg then -m else m

/-- Exact sum, with the IEEE 754-2019 cases of R115 and R125. -/
def fvAdd (a b : FVal) : FVal :=
  match a, b with
  | .nan, _ => .nan
  | _, .nan => .nan
  | .inf s, .inf t => if s = t then .inf s else .nan
  | .inf s, .fin _ _ _ => .inf s
  | .fin _ _ _, .inf t => .inf t
  | .fin s m e, .fin t n f =>
    if m = 0 ∧ n = 0 then .fin (s && t) 0 0
    else
      let q := min e f
      let x := scaledInt s m e q + scaledInt t n f q
      fvOfInt x q

/-- Exact product, with the IEEE 754-2019 cases of R125. -/
def fvMul (a b : FVal) : FVal :=
  match a, b with
  | .nan, _ => .nan
  | _, .nan => .nan
  | .inf s, .inf t => .inf (s != t)
  | .inf s, .fin t n _ => if n = 0 then .nan else .inf (s != t)
  | .fin s m _, .inf t => if m = 0 then .nan else .inf (s != t)
  | .fin s m e, .fin t n f => .fin (s != t) (m * n) (e + f)

/-- The value with its sign reversed. -/
def fvNeg : FVal → FVal
  | .nan => .nan
  | .inf s => .inf (!s)
  | .fin s m e => .fin (!s) m e

/-- The magnitude of a value. -/
def fvAbs : FVal → FVal
  | .nan => .nan
  | .inf _ => .inf false
  | .fin _ m e => .fin false m e

/-- Ordered `a < b` of IEEE 754-2019: false with a NaN, zeros of either sign equal (R140). -/
def fvLt (a b : FVal) : Bool :=
  match a, b with
  | .nan, _ => false
  | _, .nan => false
  | .inf s, .inf t => s && !t
  | .inf s, .fin _ _ _ => s
  | .fin _ _ _, .inf t => !t
  | .fin s m e, .fin t n f =>
    let q := min e f
    decide (scaledInt s m e q < scaledInt t n f q)

/-- Ordered equality (R140). -/
def fvEq (a b : FVal) : Bool :=
  match a, b with
  | .nan, _ => false
  | _, .nan => false
  | a, b => !fvLt a b && !fvLt b a

/-- The sign of a value, with −0 negative. -/
def FVal.neg : FVal → Bool
  | .fin s _ _ => s
  | .inf s => s
  | .nan => false

/-- Maximum with −0 below +0 and any NaN giving NaN (R140). -/
def fvMax (a b : FVal) : FVal :=
  match a, b with
  | .nan, _ => .nan
  | _, .nan => .nan
  | a, b => if fvLt a b then b else if fvLt b a then a else if a.neg then b else a

/-- Minimum with −0 below +0 and any NaN giving NaN (R140). -/
def fvMin (a b : FVal) : FVal :=
  match a, b with
  | .nan, _ => .nan
  | _, .nan => .nan
  | a, b => if fvLt a b then a else if fvLt b a then b else if a.neg then a else b

/-- The largest integer at or below a finite value. -/
def fvFloor (neg : Bool) (mag : Nat) (exp : Int) : Int :=
  if 0 ≤ exp then scaledInt neg mag exp 0
  else
    let k := (-exp).toNat
    let q : Int := ((mag >>> k : Nat) : Int)
    if neg then (if mag % 2 ^ k = 0 then -q else -q - 1) else q

/-- A finite value rounded to an integer, to nearest with ties to even. -/
def fvRoundInt (neg : Bool) (mag : Nat) (exp : Int) : Int :=
  let m : Int := (quantise mag exp 0 : Nat)
  if neg then -m else m

/-- A finite value rounded to an integer, toward zero. -/
def fvTrunc (neg : Bool) (mag : Nat) (exp : Int) : Int :=
  let m : Int := (if 0 ≤ exp then mag <<< exp.toNat else mag >>> (-exp).toNat : Nat)
  if neg then -m else m

/-- An integer clamped to a range, with whether it was clamped. -/
def clampInt (lo hi n : Int) : Int × Bool :=
  if n < lo then (lo, true) else if hi < n then (hi, true) else (n, false)

/-- ⌊log₂⌋ of a nonzero magnitude `mag × 2^exp`. -/
def log2Floor (mag : Nat) (exp : Int) : Int := (mag.log2 : Int) + exp

end Sys2Proof.Machine
end

