-- ==== Sys2Proof/Machine/Format.lean ====
section
/-!
DEFINITION. The FORMAT codes of Table 06-1, how the elements and scale bytes of one run are packed (R112), what they mean
(R113, R117 to R119), and the conversions on load and store (R128 to R131).
-/

namespace Sys2Proof.Machine

/-- The formats of Table 06-1. -/
inductive Format where
  | raw | fp32 | bf16 | fp16 | int32 | int8 | int4
  | mxfp8e4m3 | mxfp8e5m2 | mxfp6e2m3 | mxfp6e3m2 | mxfp4 | mxint8 | mxint4 | t2
deriving DecidableEq, Repr

/-- Table 06-1: the code of the FORMAT field. -/
def formatOf (code : BitVec 8) : Option Format :=
  match code.toNat with
  | 0x00 => some .raw
  | 0x01 => some .fp32
  | 0x02 => some .bf16
  | 0x03 => some .fp16
  | 0x04 => some .int32
  | 0x08 => some .int8
  | 0x09 => some .int4
  | 0x10 => some .mxfp8e4m3
  | 0x11 => some .mxfp8e5m2
  | 0x12 => some .mxfp6e2m3
  | 0x13 => some .mxfp6e3m2
  | 0x14 => some .mxfp4
  | 0x18 => some .mxint8
  | 0x19 => some .mxint4
  | 0x20 => some .t2
  | _ => none

/-- Table 06-1: element width in bits. -/
def fmtWidth : Format → Nat
  | .raw => 8
  | .fp32 => 32
  | .bf16 => 16
  | .fp16 => 16
  | .int32 => 32
  | .int8 => 8
  | .int4 => 4
  | .mxfp8e4m3 => 8
  | .mxfp8e5m2 => 8
  | .mxfp6e2m3 => 6
  | .mxfp6e3m2 => 6
  | .mxfp4 => 4
  | .mxint8 => 8
  | .mxint4 => 4
  | .t2 => 2

/-- Table 06-1: block-scaled formats, one E8M0 byte per 32 elements. -/
def fmtScaled : Format → Bool
  | .mxfp8e4m3 | .mxfp8e5m2 | .mxfp6e2m3 | .mxfp6e3m2 | .mxfp4 | .mxint8 | .mxint4 | .t2 => true
  | .raw | .fp32 | .bf16 | .fp16 | .int32 | .int8 | .int4 => false

/-- The plain integer formats. -/
def fmtInt : Format → Bool
  | .int32 | .int8 | .int4 => true
  | _ => false

/-- Bytes of `n` packed elements (R112). -/
def elemBytes (f : Format) (n : Nat) : Nat := (n * fmtWidth f + 7) / 8

/-- Bytes of a run of `n` elements with its scale bytes (R79, R112). -/
def runBytes (f : Format) (n : Nat) : Nat := elemBytes f n + if fmtScaled f then n / 32 else 0

/-- The raw codes of `n` packed elements of `w` bits (R112). -/
def unpackCodes (w n v : Nat) : List Nat :=
  match n with
  | 0 => []
  | k + 1 => v % 2 ^ w :: unpackCodes w k (v >>> w)

/-- Packed elements as one number (R112). -/
def packCodes (w : Nat) (l : List Nat) : Nat :=
  match l with
  | [] => 0
  | c :: r => c % 2 ^ w + packCodes w r <<< w

/-- The value of one element before its block scale (R113, R118, R119). -/
def elemValue (f : Format) (code : Nat) : FVal :=
  match f with
  | .raw => .fin false code 0
  | .fp32 => fpDecode Machine.fp32 code
  | .bf16 => fpDecode Machine.bf16 code
  | .fp16 => fpDecode Machine.fp16 code
  | .int32 => fvOfInt (BitVec.ofNat 32 code).toInt 0
  | .int8 => fvOfInt (BitVec.ofNat 8 code).toInt 0
  | .int4 => fvOfInt (BitVec.ofNat 4 code).toInt 0
  | .mxfp8e4m3 => fpDecode e4m3 code
  | .mxfp8e5m2 => fpDecode e5m2 code
  | .mxfp6e2m3 => fpDecode e2m3 code
  | .mxfp6e3m2 => fpDecode e3m2 code
  | .mxfp4 => fpDecode e2m1 code
  | .mxint8 => fvOfInt (BitVec.ofNat 8 code).toInt (-6)
  | .mxint4 => fvOfInt (BitVec.ofNat 4 code).toInt (-2)
  | .t2 => if code = 1 then .fin false 1 0 else if code = 3 then .fin true 1 0 else .fin false 0 0

/-- The value of an E8M0 scale byte (R117). -/
def scaleValue (e : Byte) : FVal :=
  if e = 0xFF then .nan else .fin false 1 ((e.toNat : Int) - 127)

/-- The elements of one run before scaling, and its scale bytes. -/
structure RunData where
  elems : List FVal
  scales : List Byte
deriving DecidableEq, Repr

/-- One run of `n` elements read from its bytes (R79, R112). -/
def decodeRun (f : Format) (n : Nat) (bytes : List Byte) : RunData :=
  let eb := elemBytes f n
  ⟨(unpackCodes (fmtWidth f) n (leNat (bytes.take eb))).map (elemValue f),
   if fmtScaled f then (bytes.drop eb).take (n / 32) else []⟩

/-- How many elements of a T2 run hold the reserved code 0b10 (R119). -/
def t2Reserved (n : Nat) (bytes : List Byte) : Nat :=
  ((unpackCodes 2 n (leNat (bytes.take (elemBytes .t2 n)))).filter (· = 2)).length

/-- The values of a run, each element times the scale of its block (R117). -/
def runValues (f : Format) (d : RunData) : List FVal :=
  if fmtScaled f then
    d.elems.mapIdx fun i v => fvMul (scaleValue ((d.scales[i / 32]?).getD 0xFF)) v
  else d.elems

/-- The lane form of an element value (Table 06-1, R128). -/
def laneOf (f : Format) (v : FVal) : Word :=
  match f, v with
  | .bf16, v => roundBf16Lane v
  | .int32, .fin s m e => BitVec.ofInt 32 (fvRoundInt s m e)
  | .int8, .fin s m e => BitVec.ofInt 32 (fvRoundInt s m e)
  | .int4, .fin s m e => BitVec.ofInt 32 (fvRoundInt s m e)
  | _, v => roundFp32 v

/-- A store's bytes with the clamps and the NaN blocks that it counts (R129 to R131, R134). -/
structure StoreResult where
  bytes : List Byte
  clamps : Nat
  nanBlocks : Nat
deriving DecidableEq, Repr

/-- The element encoding of a block-scaled floating format. -/
def mxElemFmt : Format → FpFmt
  | .mxfp8e4m3 => e4m3
  | .mxfp8e5m2 => e5m2
  | .mxfp6e2m3 => e2m3
  | .mxfp6e3m2 => e3m2
  | _ => e2m1

/-- Table 06-10. -/
def eMax : Format → Int
  | .mxfp8e4m3 => 8
  | .mxfp8e5m2 => 15
  | .mxfp6e2m3 => 2
  | .mxfp6e3m2 => 4
  | .mxfp4 => 2
  | _ => 0

/-- The code and value of the largest element that a store produces (Table 06-2, Table 06-5). -/
def maxElem : Format → Nat × FVal
  | .mxfp8e4m3 => (0x7E, fpDecode e4m3 0x7E)
  | .mxfp8e5m2 => (0x7B, fpDecode e5m2 0x7B)
  | .mxfp6e2m3 => (0x1F, fpDecode e2m3 0x1F)
  | .mxfp6e3m2 => (0x1F, fpDecode e3m2 0x1F)
  | .mxfp4 => (0x7, fpDecode e2m1 0x7)
  | .mxint8 => (127, .fin false 127 (-6))
  | .mxint4 => (7, .fin false 7 (-2))
  | _ => (0, .fin false 0 0)

/-- One lane of a block quantised to an element, with whether it was clamped (R130 steps 3 and 4). The quotient is
`(−1)^neg × mag × 2^exp`. -/
def quantElem (f : Format) (neg : Bool) (mag : Nat) (exp : Int) : Nat × Bool :=
  let top := maxElem f
  let high := fvLt top.2 (.fin false mag exp)
  match f with
  | .mxint8 =>
    let n : Nat := if high then 127 else quantise mag exp (-6)
    ((BitVec.ofInt 8 (if neg then -(n : Int) else n)).toNat, high)
  | .mxint4 =>
    let n : Nat := if high then 7 else quantise mag exp (-2)
    ((BitVec.ofInt 4 (if neg then -(n : Int) else n)).toNat, high)
  | f =>
    let fmt := mxElemFmt f
    let c := if high then top.1 else fpRoundMag fmt mag exp
    (signBits fmt neg + c, high)

/-- The larger of two finite magnitudes. -/
def absMax (a b : FVal) : FVal := if fvLt a b then b else a

/-- The shared exponent of a block of finite lanes (R130 step 2), none where every lane is zero. -/
def sharedExp (f : Format) (block : List FVal) : Option Int :=
  match (block.map fvAbs).foldl absMax (.fin false 0 0) with
  | .fin _ 0 _ => none
  | .fin _ m e => some (max (-127) (min 127 (log2Floor m e - eMax f)))
  | _ => none

/-- One block of 32 lanes quantised: element codes, scale byte, clamps (R130); a NaN or infinity gives the NaN block of
R131. -/
def quantBlock (f : Format) (block : List FVal) : List Nat × Byte × Nat × Nat :=
  if block.any (fun v => match v with | .fin _ _ _ => false | _ => true) then
    (block.map fun _ => 0, 0xFF, 0, 1)
  else
    let x := (sharedExp f block).getD (-127)
    let q := block.map fun v =>
      match v with
      | .fin s m e => quantElem f s m (e - x)
      | _ => (0, false)
    (q.map (·.1), BitVec.ofInt 8 (x + 127), (q.filter (·.2)).length, 0)

/-- An INT32 lane clamped to an integer format (Table 06-9). -/
def intElem (f : Format) (lane : Word) : Nat × Bool :=
  let w := fmtWidth f
  let r := clampInt (-(2 ^ (w - 1) : Nat)) ((2 ^ (w - 1) : Nat) - 1) lane.toInt
  ((BitVec.ofInt w r.1).toNat, r.2)

/-- The lanes of one run converted to a store format (R129 to R131). -/
def encodeRun (f : Format) (lanes : List Word) : StoreResult :=
  let n := lanes.length
  match f with
  | .fp32 => ⟨leBytes (elemBytes f n) (packCodes 32 (lanes.map fun l => fpRound Machine.fp32 (ofFp32 l))), 0, 0⟩
  | .bf16 => ⟨leBytes (elemBytes f n) (packCodes 16 (lanes.map fun l => fpRound Machine.bf16 (ofFp32 l))), 0, 0⟩
  | .fp16 => ⟨leBytes (elemBytes f n) (packCodes 16 (lanes.map fun l => fpRound Machine.fp16 (ofFp32 l))), 0, 0⟩
  | .int32 => ⟨leBytes (elemBytes f n) (packCodes 32 (lanes.map (·.toNat))), 0, 0⟩
  | .int8 =>
    let q := lanes.map (intElem f)
    ⟨leBytes (elemBytes f n) (packCodes 8 (q.map (·.1))), (q.filter (·.2)).length, 0⟩
  | .int4 =>
    let q := lanes.map (intElem f)
    ⟨leBytes (elemBytes f n) (packCodes 4 (q.map (·.1))), (q.filter (·.2)).length, 0⟩
  | .raw => ⟨[], 0, 0⟩
  | .t2 => ⟨[], 0, 0⟩
  | f =>
    let bs := (chunks 32 n lanes).map fun b => quantBlock f (b.map ofFp32)
    ⟨leBytes (elemBytes f n) (packCodes (fmtWidth f) (bs.flatMap (·.1))) ++ bs.map (·.2.1),
     (bs.map (·.2.2.1)).sum, (bs.map (·.2.2.2)).sum⟩

end Sys2Proof.Machine
end

