-- ==== Sys2Proof/Machine/SlotOps.lean ====
section
/-!
DEFINITION. The operations of the four slots of a roster word, as data: C slot (Tables 04-8, 04-9), M slot (Tables 04-10,
04-11), A slot (Tables 04-12, 04-13) and V slot (Tables 04-14, 04-15).
-/

namespace Sys2Proof.Machine

/-- The issuing units of Table 04-5. -/
inductive UnitCode where
  | move | array | attention | vector
deriving DecidableEq, Repr

/-- The three-register scalar operations of Table 04-9. -/
inductive AluOp where
  | add | sub | and | or | xor | shl | shr | sra | mul | mulhu | slt | sltu
deriving DecidableEq, Repr

/-- The immediate scalar operations of Table 04-9. -/
inductive AluImmOp where
  | addi | andi | ori | xori | shli | shri | srai
deriving DecidableEq, Repr

/-- The comparisons of the conditional branches of Table 04-9. -/
inductive Cond where
  | eq | ne | lt | ge | ltu | geu
deriving DecidableEq, Repr

/-- One C-slot operation. Loop counts, body lengths and PAT_LOAD's number hold the encoded value minus 1, as encoded. -/
inductive COp where
  | nop
  | endRoster
  | lapMark
  | privateBegin
  | privateEnd
  | stepMark
  | wait (u : UnitCode) (count : BitVec 16)
  | loop (count : BitVec 12) (body : BitVec 14)
  | loopr (sa : RegId) (body : BitVec 14)
  | jmp (off : BitVec 16)
  | branch (c : Cond) (sa sb : RegId) (off : BitVec 16)
  | alu (o : AluOp) (sd sa sb : RegId)
  | alui (o : AluImmOp) (sd sa : RegId) (imm : BitVec 16)
  | lih (sd : RegId) (q : BitVec 2) (imm : BitVec 16)
  | ldw (sd sa : RegId) (imm : BitVec 16)
  | ldd (sd sa : RegId) (imm : BitVec 16)
  | stw (sd sa : RegId) (imm : BitVec 16)
  | std (sd sa : RegId) (imm : BitVec 16)
  | patLoad (sa : RegId) (first number : BitVec 8)
  | rdctr (sd : RegId) (counter : BitVec 16)
deriving DecidableEq, Repr

/-- One M-slot operation. -/
inductive MOp where
  | nop
  | moveIn (tl sy : Bool) (sa : RegId) (patS patF : BitVec 8)
  | moveOut (tl sy : Bool) (sa : RegId) (patS patF : BitVec 8)
  | moveRemote (tl sy : Bool) (sa : RegId) (patS : BitVec 8) (win : BitVec 4)
  | creditTake (tl sy : Bool) (sa : RegId) (win : BitVec 4)
  | creditGive (tl sy : Bool) (sa : RegId) (win : BitVec 4)
  | turnEnd (sa : RegId) (cls : BitVec 8)
  | fetchRoster (tl sy : Bool) (sa : RegId) (block : BitVec 4)
  | atomicAdd (tl sy : Bool) (sa : RegId) (patS patF : BitVec 8)
  | nearOp (tl sy : Bool) (sa : RegId) (patS : BitVec 8)
  | bankOff (tl sy : Bool) (sa : RegId)
  | regionOn (sy : Bool) (mask : BitVec 4)
  | regionOff (sy : Bool) (mask : BitVec 4)
deriving DecidableEq, Repr

/-- One A-slot operation. -/
inductive AOp where
  | nop
  | wload (sy : Bool) (x : BitVec 8) (packed : Bool)
  | pass (sy : Bool) (x y : BitVec 8) (acc : Bool)
  | gcfg (threshold : BitVec 6) (timeout : BitVec 14)
  | gather (sy : Bool) (x y : BitVec 8)
  | attMode (sy : Bool) (x : BitVec 8)
  | attQ (sy : Bool) (x y : BitVec 8)
  | attKv (sy : Bool) (x y : BitVec 8)
  | attWalk (sy : Bool) (x : BitVec 8)
  | attOut (sy : Bool) (x y : BitVec 8)
deriving DecidableEq, Repr

/-- The two-source arithmetic operations of the vector unit. -/
inductive VecOp2 where
  | add | sub | mul | max | min
deriving DecidableEq, Repr

/-- One V-slot operation. -/
inductive VOp where
  | nop
  | vld (sy bf : Bool) (vd : RegId) (pat : BitVec 8)
  | vst (sy bf : Bool) (va : RegId) (pat : BitVec 8)
  | arith (o : VecOp2) (sy bf : Bool) (vd va vb : RegId)
  | vfma (sy bf : Bool) (vd va vb vc : RegId)
  | vsf (sy bf : Bool) (vd va : RegId) (fn : BitVec 4)
  | vtbl (sy bf : Bool) (vd va : RegId) (fn : BitVec 4)
  | vred (sy bf : Bool) (vd va : RegId) (fn : BitVec 4)
  | vcvt (sy bf : Bool) (vd va : RegId) (fn : BitVec 4)
  | vcmp (sy bf : Bool) (vd va vb : RegId) (fn : BitVec 4)
  | vsel (sy bf : Bool) (vd va vb vc : RegId)
  | vsplat (sy bf : Bool) (vd sa : RegId) (fn : BitVec 4)
  | vtload (sy bf : Bool) (pat : BitVec 8)
deriving DecidableEq, Repr

/-- A decoded roster word (Table 04-4). -/
structure Slots where
  c : COp
  m : MOp
  a : AOp
  v : VOp
deriving DecidableEq, Repr

end Sys2Proof.Machine
end

