-- ==== Sys2Proof/Config.lean ====
section
/-!
DEFINITION. What an implementation fixes and what the spec leaves open: constants with no body, so that no proof can see a
value of theirs (log entries 2, 11, 14 to 18, 26, 27 and 50).
-/

namespace Sys2Proof

/-- The result that a part picks for a special function, within the bound of R141: feature level, FN code, input bits. -/
opaque Config.vsfChoice : Nat → Nat → Word → Word

/-- The k-th free value of a run, 64 bits: a value that the spec leaves open (log entry 2). -/
opaque Config.freeValue : Nat → DWord

/-- Beats beyond the one of a word that pass before a core issues its next one: core, time, beats so far (R29, R33) (DESIGN
CHOICE, log entry 26). -/
opaque Config.extraBeats : Nat → Nat → Nat → Nat

/-- Which round of an operation in progress meets a round of another port of the crossbar: core, beats so far, port (R203) (DESIGN
CHOICE, log entry 50). -/
opaque Config.scratchRound : Nat → Nat → Nat → Nat

/-- CRC-32 of a Cuff link flit, whose polynomial the spec does not give (R252) (DESIGN CHOICE, log entry 18). -/
opaque Config.cuffCrc : List Byte → Word

/-- The bytes of the vendor identity record that come from manufacture: SERIAL, MFG_TIME and the steppings (R380) (DESIGN CHOICE, log
entry 16). -/
opaque Config.identityByte : Nat → Byte

/-- IDCODE of the module's dies, and what an instrument of a chain position reads where the spec does not say (Tables 18-10, 18-11)
(DESIGN CHOICE, log entry 55). -/
opaque Config.idcode : Word
opaque Config.instrument : Nat → Nat → List Byte

/-- What PCI Express configuration space reads at an offset after the writes given, which the spec leaves to PCI Express (R295,
R337) (DESIGN CHOICE, log entry 14). -/
opaque Config.configSpace : Nat → List (Nat × Word) → Word

/-- Whether an ML-DSA-87 signature over a message verifies under the key whose SHA3-512 digest is given (R376) (DESIGN
CHOICE, log entry 15). -/
opaque Config.signatureValid : List Byte → List Byte → List Byte → Bool

/-- The device's ML-DSA-87 signature over a message (R379) (DESIGN CHOICE, log entry 15). -/
opaque Config.deviceSignature : List Byte → List Byte

/-- The certificate chain of a slot (R379) (DESIGN CHOICE, log entry 15). -/
opaque Config.certificateChain : Nat → List Byte

/-- The SHA3-512 digests of the keys that verify firmware, burnt at manufacture (R376) (DESIGN CHOICE, log entry 15). -/
opaque Config.keyDigest : Nat → List Byte

/-- The code that names a reader of Table 11-3 in a POCKET_UNCORRECTABLE record, by the reader's row (Table 17-7) (DESIGN
CHOICE, log entry 11). -/
opaque Config.readerCode : Nat → BitVec 4

/-- The symbol-code syndrome fields of a poisoned or uncorrectable unit's record that the spec leaves open (Table 17-7)
(DESIGN CHOICE, log entry 11). -/
opaque Config.poisonSyndrome : Nat → BitVec 16

/-- The LOCATION code of a Collar sensor for which Table 17-7 states none, by the model's sensor key (DESIGN CHOICE, log
entry 11). -/
opaque Config.sensorCode : Nat → BitVec 12

/-- The header of a firmware image as bytes, whose layout the spec does not give: COMPONENT, VERSION, SVN, KEY_SLOT and the
payload digest (18, Firmware) (DESIGN CHOICE, log entry 27). -/
opaque Config.firmwareHeader : Nat → Nat → Nat → Nat → List Byte → List Byte

/-- The body of an SPDM answer, whose layout the spec leaves to SPDM 1.4: the request and the fields that the device puts
into it (R379) (DESIGN CHOICE, log entry 27). -/
opaque Config.spdmBody : Nat → List Byte → List Byte

/-- How two values share one field of a record whose packing the spec does not state: both readings of THERMAL_DISAGREE, both
levels of FEATURE_LEVEL (Table 17-7) (DESIGN CHOICE, log entry 11). -/
opaque Config.pairField : Int → Int → BitVec 48

/-- What a register field holds for a reading that its stated coding has no code for: a temperature below 0 °C in an 8-bit field
(Tables 16-12, 16-16), a thermal resistance outside 16 bits (Table 16-11) (DESIGN CHOICE, log entry 11). -/
opaque Config.noCode : Int → BitVec 16

end Sys2Proof
end

