-- ==== Sys2Proof/Machine/SpecialFn.lean ====
section
/-!
DEFINITION. The special functions of VSF (R141, Tables 07-2 and 07-3): the exact results of the special inputs, and for every
other input the part's own result (`Config.vsfChoice`), held to the stated bound around an approximation with 128 bits after
the point. A choice outside the bound is replaced by the rounded approximation (log entry 17).
-/

namespace Sys2Proof.Machine

/-- Bits after the point of the fixed-point approximations. -/
def fixBits : Nat := 128

/-- ln 2 in units of 2^−128. -/
def ln2Fix : Int := 235865763225513294137944142764154484399

/-- The Taylor sum 1 + r + r²/2! + …, in units of 2^−128. -/
def expSeries (n : Nat) (i : Nat) (r term acc : Int) : Int :=
  match n with
  | 0 => acc
  | k + 1 =>
    let t := term * r / (2 ^ fixBits : Nat) / (i : Int)
    expSeries k (i + 1) r t (acc + t)

/-- exp of x·2^−128 as mantissa and binary exponent: the value is mantissa × 2^(exponent − 128). -/
def expFix (x : Int) : Int × Int :=
  let k := x / ln2Fix
  let r := x - k * ln2Fix
  (expSeries 40 1 r (2 ^ fixBits : Nat) (2 ^ fixBits : Nat), k)

/-- The series z + z³/3 + z⁵/5 + …, in units of 2^−128. -/
def atanhSeries (n : Nat) (i : Nat) (z2 term acc : Int) : Int :=
  match n with
  | 0 => acc
  | k + 1 =>
    let t := term * z2 / (2 ^ fixBits : Nat)
    atanhSeries k (i + 2) z2 t (acc + t / (i : Int))

/-- The integer square root by digits, from bit `n − 1` down. -/
def isqrtFrom (n : Nat) (v root : Nat) : Nat :=
  match n with
  | 0 => root
  | k + 1 =>
    let r := root + 2 ^ k
    isqrtFrom k v (if r * r ≤ v then r else root)

/-- x·2^128 rounded down, for x = (−1)^neg × mag × 2^exp. -/
def toFix (neg : Bool) (mag : Nat) (exp : Int) : Int := fvFloor neg mag (exp + fixBits)

/-- exp(x), for finite nonzero x of moderate size (DEDUCED, log entry 17). A positive x is at least one unit of 2^−128, so the
approximation stands on the exact value's side of 1. -/
def approxExp (neg : Bool) (mag : Nat) (exp : Int) : FVal :=
  let x := toFix neg mag exp
  let r := expFix (if neg then x else max 1 x)
  fvOfInt r.1 (r.2 - fixBits)

/-- log(x), for finite x above 0. -/
def approxLog (mag : Nat) (exp : Int) : FVal :=
  let e := log2Floor mag exp
  let m : Int := toFix false mag (exp - e)
  let one : Int := (2 ^ fixBits : Nat)
  let z := (m - one) * one / (m + one)
  let s := atanhSeries 45 3 (z * z / one) z z
  fvOfInt (2 * s + e * ln2Fix) (-(fixBits : Int))

/-- 1 ÷ x, for finite nonzero x. -/
def approxRecip (neg : Bool) (mag : Nat) (exp : Int) : FVal :=
  let k := mag.log2 + fixBits
  .fin neg (2 ^ k / mag) (-(k : Int) - exp)

/-- 1 ÷ √x, for finite x above 0. -/
def approxRsqrt (mag : Nat) (exp : Int) : FVal :=
  let m := if exp % 2 = 0 then mag else 2 * mag
  let e := if exp % 2 = 0 then exp else exp - 1
  let k := m.log2 / 2 + fixBits
  .fin false (isqrtFrom (fixBits + 2) (2 ^ (2 * k) / m) 0) (-(k : Int) - e / 2)

/-- tanh(x), for finite nonzero x below 9.01 in magnitude. A small x takes x·(1 − x²/3 + 2x⁴/15 − 17x⁶/315), at most
x·(1 − 2^−128): the exact value is less than x in magnitude. -/
def approxTanh (neg : Bool) (mag : Nat) (exp : Int) : FVal :=
  let one : Int := (2 ^ fixBits : Nat)
  if log2Floor mag exp < -12 then
    let y := toFix false (mag * mag) (2 * exp)
    let y2 := y * y / one
    let less := y / 3 - 2 * y2 / 15 + 17 * (y2 * y / one) / 315
    .fin neg (mag * (one - max 1 less).toNat) (exp - fixBits)
  else
    let r := expFix (toFix false mag (exp + 1))
    let n := r.1 * (2 ^ r.2.toNat : Nat)
    .fin neg ((n - one) * one / (n + one)).toNat (-(fixBits : Int))

/-- One unit in the last place of FP32 at the binade of a value (R141). -/
def ulpExp (v : FVal) : Int :=
  match v with
  | .fin _ 0 _ => -149
  | .fin _ m e => max (log2Floor m e - 23) (-149)
  | _ => -149

/-- Whether a finite `c` lies within `bound` ulp of `a`, the 128-bit approximation of the exact result (DEDUCED, log entry 17). -/
def withinUlps (bound : Nat) (c a : FVal) : Bool :=
  match c, fvAdd c (fvNeg a) with
  | .fin _ _ _, .fin s m e => !fvLt (.fin false bound (ulpExp a)) (fvAbs (.fin s m e))
  | _, _ => false

/-- `a` rounded to FP32; where that overflows though `a` has a finite value within the bound, the largest finite value. -/
def roundFinite (bound : Nat) (a : FVal) : Word :=
  let r := roundFp32 a
  let top : Word := if r.getLsbD 31 then 0xFF7FFFFF#32 else 0x7F7FFFFF#32
  match ofFp32 r with
  | .inf _ => if withinUlps bound (ofFp32 top) a then top else r
  | _ => r

/-- The part's result for an input whose exact result is close to `a` (R141) (DEDUCED, log entry 17). -/
def vsfPick (level fn : Nat) (x : Word) (bound : Nat) (a : FVal) : Word :=
  let c := Config.vsfChoice level fn x
  if withinUlps bound (ofFp32 c) a then c else roundFinite bound a

def posInf : Word := 0x7F800000#32
def negInf : Word := 0xFF800000#32
def nanWord : Word := 0x7FC00000#32
def oneWord : Word := 0x3F800000#32

/-- exp (Tables 07-2, 07-3). -/
def vsfExp (level : Nat) (x : Word) : Word :=
  match ofFp32 x with
  | .nan => nanWord
  | .inf s => if s then 0#32 else posInf
  | .fin _ 0 _ => oneWord
  | .fin s m e =>
    if fvLt (ofFp32 0x42B17217#32) (.fin s m e) then posInf
    else if fvLt (.fin s m e) (.fin true 200 0) then vsfPick level 0 x 2 (.fin false 1 (-280))
    else vsfPick level 0 x 2 (approxExp s m e)

/-- Natural logarithm (Tables 07-2, 07-3). -/
def vsfLog (level : Nat) (x : Word) : Word :=
  match ofFp32 x with
  | .nan => nanWord
  | .inf s => if s then nanWord else posInf
  | .fin _ 0 _ => negInf
  | .fin s m e => if s then nanWord else vsfPick level 1 x 2 (approxLog m e)

/-- Reciprocal (Tables 07-2, 07-3): magnitudes below 2^−128 give an infinity. -/
def vsfRecip (level : Nat) (x : Word) : Word :=
  match ofFp32 x with
  | .nan => nanWord
  | .inf s => if s then 0x80000000#32 else 0#32
  | .fin s 0 _ => if s then negInf else posInf
  | .fin s m e =>
    if log2Floor m e < -128 then (if s then negInf else posInf)
    else vsfPick level 2 x 1 (approxRecip s m e)

/-- Reciprocal square root (Tables 07-2, 07-3). -/
def vsfRsqrt (level : Nat) (x : Word) : Word :=
  match ofFp32 x with
  | .nan => nanWord
  | .inf s => if s then nanWord else 0#32
  | .fin s 0 _ => if s then negInf else posInf
  | .fin s m e => if s then nanWord else vsfPick level 3 x 2 (approxRsqrt m e)

/-- tanh (Tables 07-2, 07-3): magnitudes of 9.01 and above give ±1 exactly. -/
def vsfTanh (level : Nat) (x : Word) : Word :=
  match ofFp32 x with
  | .nan => nanWord
  | .inf s => if s then 0xBF800000#32 else oneWord
  | .fin s 0 _ => if s then 0x80000000#32 else 0#32
  | .fin s m e =>
    if fvLt (.fin false (m * 100) e) (.fin false 901 0) then vsfPick level 4 x 2 (approxTanh s m e)
    else if s then 0xBF800000#32 else oneWord

/-- VSF by its FN code (Table 07-2). -/
def vsf (level fn : Nat) (x : Word) : Word :=
  match fn with
  | 0 => vsfExp level x
  | 1 => vsfLog level x
  | 2 => vsfRecip level x
  | 3 => vsfRsqrt level x
  | _ => vsfTanh level x

end Sys2Proof.Machine
end

