-- ==== Sys2Proof/Machine/VectorAlu.lean ====
section
/-!
DEFINITION. The lane arithmetic of the vector unit (R138 to R145): pure functions on lanes of 32 bits.
-/

namespace Sys2Proof.Machine

/-- The number of lanes of a vector register. -/
def laneCount : Nat := 512

/-- An exact result rounded once, to FP32, or to BF16 in its lane form with BF = 1 (R138, R139). -/
def roundLane (bf : Bool) (v : FVal) : Word := if bf then roundBf16Lane v else roundFp32 v

/-- An FP32 result rounded to BF16 with BF = 1 (R139, second sentence). -/
def narrowLane (bf : Bool) (w : Word) : Word := if bf then roundBf16Lane (ofFp32 w) else w

/-- VADD, VSUB, VMUL, VMAX and VMIN on one lane (R138 to R140). -/
def vecLane2 (o : VecOp2) (bf : Bool) (a b : Word) : Word :=
  match o with
  | .add => roundLane bf (fvAdd (ofFp32 a) (ofFp32 b))
  | .sub => roundLane bf (fvAdd (ofFp32 a) (fvNeg (ofFp32 b)))
  | .mul => roundLane bf (fvMul (ofFp32 a) (ofFp32 b))
  | .max => roundLane bf (fvMax (ofFp32 a) (ofFp32 b))
  | .min => roundLane bf (fvMin (ofFp32 a) (ofFp32 b))

/-- VFMA on one lane, rounded once (R138). -/
def vecLaneFma (bf : Bool) (a b c : Word) : Word :=
  roundLane bf (fvAdd (fvMul (ofFp32 a) (ofFp32 b)) (ofFp32 c))

/-- VCMP on one lane (R140, Table 04-15). -/
def vecLaneCmp (fn : Nat) (a b : Word) : Word :=
  let x := ofFp32 a
  let y := ofFp32 b
  let t := match fn with
    | 0 => fvEq x y
    | 1 => fvLt x y
    | _ => fvLt x y || fvEq x y
  if t then 0xFFFFFFFF#32 else 0#32

/-- VSEL on one lane (R140). -/
def vecLaneSel (a b c : Word) : Word := if c ≠ 0#32 then a else b

/-- VCVT on one lane, with whether it was clamped (R132, Table 06-11). -/
def vecLaneCvt (fn : Nat) (a : Word) : Word × Bool :=
  let toInt (round : Bool → Nat → Int → Int) : Word × Bool :=
    match ofFp32 a with
    | .nan => (0#32, false)
    | .inf s => (if s then 0x80000000#32 else 0x7FFFFFFF#32, true)
    | .fin s m e =>
      let r := clampInt (-(2 ^ 31 : Nat)) ((2 ^ 31 : Nat) - 1) (round s m e)
      (BitVec.ofInt 32 r.1, r.2)
  match fn with
  | 0 => (roundBf16Lane (ofFp32 a), false)
  | 1 => toInt fvRoundInt
  | 2 => toInt fvTrunc
  | _ => (roundFp32 (fvOfInt a.toInt 0), false)

/-- VSPLAT's value (R145, R139). -/
def vecSplat (bf : Bool) (fn : Nat) (s : DWord) : Word :=
  if fn = 0 then narrowLane bf (s.setWidth 32) else narrowLane bf (roundFp32 (fvOfInt s.toInt 0))

/-- One level of the reduction tree (R144). -/
def redLevel (f : Word → Word → Word) : List Word → List Word
  | a :: b :: r => f a b :: redLevel f r
  | l => l

/-- The remaining levels of the reduction tree. -/
def redTree (f : Word → Word → Word) (n : Nat) (l : List Word) : Word :=
  match n with
  | 0 => l.headD 0#32
  | k + 1 => redTree f k (redLevel f l)

/-- VRED of the 512 lanes in nine levels (R144). -/
def vecReduce (fn : Nat) (lanes : List Word) : Word :=
  let sum (a b : Word) := roundFp32 (fvAdd (ofFp32 a) (ofFp32 b))
  match fn with
  | 0 => redTree sum 9 lanes
  | 1 => redTree (fun a b => roundFp32 (fvMax (ofFp32 a) (ofFp32 b))) 9 lanes
  | 2 => redTree (fun a b => roundFp32 (fvMin (ofFp32 a) (ofFp32 b))) 9 lanes
  | _ =>
    redTree sum 8 (redLevel (fun a b =>
      roundFp32 (fvAdd (fvMul (ofFp32 a) (ofFp32 a)) (fvMul (ofFp32 b) (ofFp32 b)))) lanes)

/-- The user table (R142): four quarter descriptors of 128 bits and 256 entries of 64 bits. -/
structure UserTable where
  descriptors : List (BitVec 128)
  entries : List DWord
deriving DecidableEq, Repr

/-- The table that reads zero (R135). -/
def UserTable.zero : UserTable := ⟨List.replicate 4 0, List.replicate 256 0⟩

/-- The table that a 2,112-byte image holds (R142, Table 07-4). -/
def tableOfImage (bytes : List Byte) : UserTable :=
  ⟨(chunks 16 4 bytes).map fun b => BitVec.ofNat 128 (leNat b),
   (chunks 8 256 (bytes.drop 64)).map fun b => BitVec.ofNat 64 (leNat b)⟩

/-- The first entry and the number of entries of a VTBL segment (Table 07-5). -/
def tableSegment (fn : Nat) : Option (Nat × Nat) :=
  match fn with
  | 0x0 => some (0, 256)
  | 0x4 => some (0, 128)
  | 0x5 => some (128, 128)
  | 0x8 => some (0, 64)
  | 0x9 => some (64, 64)
  | 0xA => some (128, 64)
  | 0xB => some (192, 64)
  | _ => none

/-- VTBL on one lane: linear interpolation in a segment of the user table (R143). t − i is the IEEE 754 difference, so it is −0
for t = −0 and i = 0 (R115). CLAMP keeps a −0 (DESIGN CHOICE, log entry 56). -/
def vecLaneTbl (t : UserTable) (fn : Nat) (x : Word) : Word :=
  let seg := (tableSegment fn).getD (0, 256)
  let b := seg.1
  let n := seg.2
  let d := (t.descriptors[b / 64]?).getD 0
  let clampMode := field d 64 2 ≠ 1#2
  let y (i : Nat) : FVal := ofFp32 (((t.entries[b + i]?).getD 0).setWidth 32)
  let slope (i : Nat) : FVal := ofFp32 (field ((t.entries[b + i]?).getD 0) 32 32)
  let diff := roundFp32 (fvAdd (ofFp32 x) (fvNeg (ofFp32 (field d 0 32))))
  let tw := roundFp32 (fvMul (ofFp32 diff) (ofFp32 (field d 32 32)))
  match ofFp32 tw with
  | .nan => nanWord
  | .inf s =>
    let i := if s then 0 else n - 1
    if clampMode then
      (if s then roundFp32 (y i) else roundFp32 (fvAdd (y i) (slope i)))
    else roundFp32 (fvAdd (y i) (fvMul (.inf s) (slope i)))
  | .fin s m e =>
    let i := (max 0 (min ((n : Int) - 1) (fvFloor s m e))).toNat
    let f0 := ofFp32 (roundFp32 (fvAdd (.fin s m e) (fvNeg (fvOfInt (i : Int) 0))))
    let zero : FVal := .fin false 0 0
    let one : FVal := .fin false 1 0
    let f := if clampMode then (if fvLt f0 zero then zero else if fvLt one f0 then one else f0) else f0
    roundFp32 (fvAdd (y i) (fvMul f (slope i)))

end Sys2Proof.Machine
end

