-- ==== Sys2Proof/Machine/CoreState.lean ====
section
/-!
DEFINITION. The state of one logical core as plain data: roster sequencer (03, 04), matrix array and gather queue (05),
numeric counters (06), vector unit (07), attention pipeline and walk (08, 09), scratchpad and credits (10). Values after
reset are those of the Reset columns of those chapters.
-/

namespace Sys2Proof.Machine

/-- An access pattern as an operation captured it (Table 04-7). Extents are COUNT + 1. -/
structure Pattern where
  format : BitVec 8
  far : Bool
  base : Int
  s1 : Int
  s2 : Int
  s3 : Int
  n0 : Nat
  n1 : Nat
  n2 : Nat
  n3 : Nat
deriving DecidableEq, Repr

/-- A loop in execution (R81): its first and last word and how many times the body is still to be executed. -/
structure LoopFrame where
  first : Nat
  last : Nat
  left : Nat
deriving DecidableEq, Repr

/-- One of the two marks of the mark register (R70). -/
structure Mark where
  lap : BitVec 32
  word : BitVec 28
deriving DecidableEq, Repr

/-- One block of the roster cache (R85, R86): its words and the positions of poisoned words. -/
structure CacheBlock where
  tag : Nat
  filling : Bool
  words : List RosterWord
  poisoned : List Nat
deriving DecidableEq, Repr

/-- Where a core stands in its set (R42, R59). -/
inductive RunState where
  | idle | running | ended | stopped
deriving DecidableEq, Repr

/-- The register CO_ROSTER_FAULT with CO_FAULT_WORD (Tables 03-12, 03-13). -/
structure RosterFault where
  faulted : Bool
  slot : BitVec 2
  kind : BitVec 8
  word : BitVec 28
deriving DecidableEq, Repr

/-- What the core records of the array's issue logic (R95, R97): FORMAT, packed flag, K, N and S of the current load. -/
structure LoadRecord where
  format : Format
  packed : Bool
  k : Nat
  n : Nat
  segments : Nat
deriving DecidableEq, Repr

/-- One weight row as the array holds it: per input the weight (none contributes nothing) and the scale per 32 inputs. -/
structure WeightRow where
  weights : List (Option FVal)
  scales : List Byte
deriving DecidableEq, Repr

/-- One load in a half of the weight store (R95). -/
structure WeightLoad where
  load : LoadRecord
  rows : List WeightRow
deriving DecidableEq, Repr

/-- The gather settings of R105. -/
structure GatherCfg where
  threshold : Nat
  timeout : Nat
deriving DecidableEq, Repr

/-- One sequence in the gather queue (R106). -/
structure GatherEntry where
  sy : Bool
  x : Pattern
  y : Pattern
  rows : Nat
deriving DecidableEq, Repr

/-- An operation in the ARRAY queue: loads and passes, a gather flush running as one pass (R108). A `gather` waits there for
its region (R91), with the settings (`gcfg`) and the forced flushes (`force`) that come behind it; `off` and `gatherOff` are the
places of a REGION_OFF behind the operations issued before it. -/
inductive ArrOp where
  | wload (sy : Bool) (x : Pattern) (packed : Bool)
  | pass (sy : Bool) (x y : Pattern) (acc : Bool)
  | flush (batch : List GatherEntry)
  | gather (e : GatherEntry)
  | gcfg (c : GatherCfg)
  | force
  | off
  | gatherOff
deriving DecidableEq, Repr

/-- A switchable region's state (Table 05-2). -/
inductive RegionState where
  | off | ramping | on
deriving DecidableEq, Repr

/-- The four switchable regions, in REGION_ON's bit order, and the switch-ons requested but not yet started. -/
structure Regions where
  array : RegionState
  attention : RegionState
  vector : RegionState
  gather : RegionState
  requested : BitVec 4
  offRequested : BitVec 4
  autoWakes : BitVec 16
deriving DecidableEq, Repr

/-- The matrix array with its stores, gather queue and counters (05, 06). `cells` gives for each cell row the segment of the
newest load that it holds, and `nextCell` the cell row that is dealt next (R99); `frontEnd` is the core's beat at which the
front has placed its segments; `activations` is the activation store: the rows of the running pass, per X pattern, where they
fit (Table 05-1, R102); `loadsBehind` counts SY loads in the store behind a running SY operation (R75). -/
structure ArrayState where
  queue : List ArrOp
  current : Option LoadRecord
  halves : List WeightLoad
  placed : Nat
  front : Bool
  frontEnd : Nat
  cells : List (Nat × Nat)
  nextCell : Nat
  activations : List (List (List Byte))
  loadsBehind : Nat
  running : Option (ArrOp × WeightLoad)
  gather : List GatherEntry
  gatherCfg : GatherCfg
  gatherStart : Nat
  metaErrors : BitVec 15
  work : BitVec 32
  workRest : Nat
  passes : BitVec 32
  reuse : BitVec 32
  flushForced : BitVec 10
  flushTimeout : BitVec 10
  flushThreshold : BitVec 10
  gatherRows : BitVec 32
  saturations : BitVec 16
  nanBlocks : BitVec 8
  t2Reserved : BitVec 8
deriving DecidableEq, Repr

/-- An operation in the VECTOR queue with what it captured at issue (R74, R136); `clear` is the clear of R147, `off` the place of
a REGION_OFF. -/
inductive VecOp where
  | op (v : VOp) (pat : Option Pattern) (scalar : DWord)
  | clear
  | off
deriving DecidableEq, Repr

/-- The vector unit (07). A register that `regs` does not list holds zero in every lane. -/
structure VectorState where
  queue : List VecOp
  regs : List (Nat × List Word)
  table : UserTable
  tableValid : Bool
  ops : BitVec 32
deriving DecidableEq, Repr

/-- Issue state of the attention pipeline (R150). -/
inductive AttIssue where
  | idle | moded | opened
deriving DecidableEq, Repr

/-- The row state of one query row (Table 08-1, R156, R166). -/
structure RowState where
  m : Word
  l : Word
  o : List Word
  poisoned : Bool
deriving DecidableEq, Repr

/-- The query rows and context of the open sequence (R156, R157). -/
structure Sequence where
  queries : List RunData
  narrowed : Bool
  rows : Nat
  qPos : Nat
  kvPos : Nat
  kBlocks : Nat
  bitmap : List (List Byte)
  error : Bool
  state : List RowState
deriving DecidableEq, Repr

/-- One key with its value row and position (R158). -/
structure KeyRow where
  pos : Nat
  key : RunData
  value : RunData
deriving DecidableEq, Repr

/-- A walk record (Table 09-4). -/
structure WalkRecord where
  table : Nat
  reportWord : Nat
  probeWord : Nat
  probes : Nat
  lambda : BitVec 16
  firstPage : Nat
  pageCount : Nat
  kTop : Nat
  sink : Nat
  recent : Nat
  turnsPocket : Nat
  turnsHub : Nat
  turnsScore : Nat
  reservedZero : Bool
deriving DecidableEq, Repr

/-- A page-table header (Table 09-1). -/
structure TableHeader where
  valOffset : Nat
  headDim : Nat
  vFormat : Nat
  kFormat : Nat
  cSlots : Nat
  version : Nat
  pageCount : Nat
  generation : BitVec 32
  reservedZero : Bool
deriving DecidableEq, Repr

/-- A candidate page as the walk read it (R185, R186). -/
structure Candidate where
  index : Nat
  basePos : Nat
  frame : Nat
  validKeys : Nat
  capTier : Bool
  forced : Bool
  summarised : Bool
  score : Word
deriving DecidableEq, Repr

/-- One probe of a walk: its norm ν_p and its elements (R182, R186). -/
structure Probe where
  norm : Word
  elems : List FVal
deriving DecidableEq, Repr

/-- The phases of Table 09-7; `done` once the last read has been served. -/
inductive WalkPhase where
  | header | scan | score | merge | recheck | deliver | done
deriving DecidableEq, Repr

/-- Walk status (Table 09-8). -/
inductive WalkStatus where
  | ok | walkError | sequenceError | memoryError
deriving DecidableEq, Repr

/-- One ring unit of 64 bytes of a transfer: the ring of its memory (0 once that ring has served a read), its address and length, its
place in the stream, and the rings that it has still to cross, in order: a read's behind its memory, a write's before it. -/
structure MemUnit where
  ring : Nat
  addr : Nat
  len : Nat
  off : Nat
  route : List Nat := []
deriving DecidableEq, Repr

/-- A read that a walk has issued: the page that it reads, or none for a header or an entry; the units that are still on their way, the
units of a Cuff's list by ring, the bytes that the units carried when the memory's ring served them (R192); whether one of them could not
be read correctly. -/
structure WalkRead where
  page : Option Candidate
  units : List MemUnit
  list : List (Nat × Nat)
  got : List Host.Cell
  failed : Bool
deriving DecidableEq, Repr

/-- The owner slots that a walk record counts (R190): the walk's number, its record, lap tag and word, the counted slots used by ring, the
units of its scoring command that are left by ring, the Cuffs that have had the command, and those that have counted TURNS_SCORE for it.
`again` is whether a re-executed step has still to run the walk again (R210). -/
structure WalkTurns where
  serial : Nat
  record : WalkRecord
  lap : BitVec 2
  word : BitVec 28
  used : List (Nat × Nat)
  sends : List (Nat × Nat)
  taken : List Nat
  counted : List Nat
  again : Bool
deriving DecidableEq, Repr

/-- A walk in progress (R189); `scores` are the Cuffs' reads of their entries with the lists that they return, `selected` the pages
still to read, `reads` the reads in flight, oldest first. -/
structure Walk where
  record : WalkRecord
  header : Option TableHeader
  probes : List Probe
  phase : WalkPhase
  status : WalkStatus
  startNs : Nat
  endNs : Nat
  genEnd : BitVec 32
  next : Nat
  scores : List (Nat × WalkRead)
  lists : List (Nat × List Candidate)
  candidates : Nat
  forced : Nat
  unsummarised : Nat
  nanScores : Nat
  badPages : Nat
  kth : Word
  selected : List Candidate
  reads : List WalkRead
  delivered : Nat
  keysDelivered : Nat
deriving DecidableEq, Repr

/-- An operation in the ATTENTION queue with the patterns it captured; `off` is the place of a REGION_OFF. -/
inductive AttOp where
  | mode (sy : Bool) (x : Pattern)
  | query (sy : Bool) (x : Pattern) (y : Option Pattern)
  | kv (sy : Bool) (x y : Pattern)
  | walk (sy : Bool) (x : Pattern) (lap : BitVec 2) (word : BitVec 28)
  | out (sy : Bool) (x : Pattern) (y : Option Pattern)
  | off
deriving DecidableEq, Repr

/-- The attention pipeline (08). `seq` is the open sequence in its half of the query store, and `next` the queries of the next
one, loaded into the free half (R156). `keysTaken` counts the keys of the operation at the head of the queue that have entered
the score stage; `tiles` are pages delivered to a walk that wait for it, `staged` tiles between the two stages (R171);
`walkSerial` counts the walks that have retired (R196), and `turns` are the owner slots that walks count, oldest walk first (R190). -/
structure AttState where
  queue : List AttOp
  issue : AttIssue
  issueRows : Nat
  mode : DWord
  modeError : Bool
  seq : Option Sequence
  next : Option Sequence
  nextKv : Nat
  keysTaken : Nat
  tiles : List (List KeyRow)
  staged : List (List KeyRow)
  walk : Option Walk
  walkRetired : Bool
  walkSerial : Nat
  turns : List WalkTurns
  saturations : BitVec 16
  nanRows : BitVec 8
  modeErrors : BitVec 8
  tileCount : BitVec 32
  skipped : BitVec 32
  walks : BitVec 16
  walkBadPages : BitVec 8
  walkErrors : BitVec 8
  walkPages : BitVec 32
deriving DecidableEq, Repr

/-- An operation of the MOVE unit in its queue or in progress (R73, R76, R78). `units` are the units not yet at their end, `transit`
the units left on each Seam and crossbar ring of the path, and `data` the bytes that units on their way carry, by place in the stream. -/
structure MoveOp where
  op : MOp
  sy : Bool
  tl : Bool
  lap : BitVec 2
  sVal : DWord
  patS : Option Pattern
  patF : Option Pattern
  stepIndex : Nat
  word : BitVec 28
  started : Bool
  halted : Bool
  judged : Bool
  resp : Option Bool
  units : List MemUnit
  transit : List (Nat × Nat)
  data : List (Nat × List Byte × Bool)
deriving DecidableEq, Repr

/-- What one M-slot operation of a step had still to present when the step was re-executed (Table 10-5). -/
structure Presented where
  units : List MemUnit
  transit : List (Nat × Nat)
  data : List (Nat × List Byte × Bool)
  complete : Bool
deriving DecidableEq, Repr

/-- The state that a core records at a step's first word (Table 10-5, R175). -/
structure StepRecord where
  word : Nat
  regs : List (Nat × DWord)
  patterns : List (Nat × PatternRecord)
  loops : List LoopFrame
  priv : Bool
  privDepth : Nat
  current : Option LoadRecord
  gatherCfg : GatherCfg
  attIssue : AttIssue
  attIssueRows : Nat
  attMode : DWord
  attModeError : Bool
  attSeq : Option Sequence
  attNextKv : Nat
  attWalks : Nat
deriving DecidableEq, Repr

/-- Who holds a credit window (R213). -/
inductive WindowHolder where
  | free | core (n : Nat)
deriving DecidableEq, Repr

/-- The scratchpad's own state and the credit windows (10). Its words are in the device memory. -/
structure ScratchState where
  badParity : List Nat
  spareFor : BitVec 8
  pendingBank : BitVec 8
  darkPending : Bool
  bankErrors : List (Nat × Nat)
  errors : BitVec 16
  reexecutions : BitVec 8
  hostReadErrors : BitVec 8
  lastErr : BitVec 32
  waits : BitVec 32
  hostGroups : BitVec 8
  hostGroupsNow : BitVec 8
  windows : List (Nat × BitVec 8)
  windowsNow : List (Nat × BitVec 8)
  holders : List (Nat × WindowHolder)
  granted : List (Nat × Nat × BitVec 8)
  misuse : BitVec 8
deriving DecidableEq, Repr

/-- The roster sequencer (03, 04). `stoppedByFault` says that a roster fault stopped the core, whether or not software has cleared
FAULTED since (R59). `windowBeats` and `windowNs` are the beat count and the time at the end of the latest window of R33. -/
structure Sequencer where
  regionReg : BitVec 32
  regionNow : BitVec 32
  run : RunState
  stoppedByFault : Bool
  position : BitVec 28
  lastIssued : BitVec 28
  wordCount : Nat
  entry : BitVec 28
  regs : List (Nat × DWord)
  patterns : List (Nat × PatternRecord)
  loops : List LoopFrame
  priv : Bool
  privDepth : Nat
  lap : BitVec 32
  markNew : Mark
  markOld : Mark
  markTime : Nat
  lapRecordDue : Bool
  wordsIssued : BitVec 32
  cache : List (Nat × CacheBlock)
  fault : RosterFault
  clashFault : Bool
  clashFaultNow : Bool
  replayMark : Bool
  beats : Nat
  beatRate : BitVec 16
  windowBeats : Nat
  windowNs : Nat
deriving DecidableEq, Repr

/-- The step bookkeeping of R208 to R211. -/
structure StepState where
  record : Option StepRecord
  opCount : Nat
  log : List (Nat × Presented)
  parity : Bool
  retrying : Bool
  treatMarkAsNop : Bool
deriving DecidableEq, Repr

/-- The core's control registers, each as written and as in effect from the last ring boundary (R43, R110, R148, R176,
R198, R216). -/
structure CoreCtrl where
  arrayCtrl : BitVec 32
  arrayCtrlNow : BitVec 32
  arrayExpert : BitVec 32
  arrayExpertNow : BitVec 32
  vectorCtrl : BitVec 32
  vectorCtrlNow : BitVec 32
  vectorExpert : BitVec 32
  vectorExpertNow : BitVec 32
  attCtrl : BitVec 32
  attCtrlNow : BitVec 32
  attExpert : BitVec 32
  attExpertNow : BitVec 32
  walkCtrl : BitVec 32
  walkCtrlNow : BitVec 32
  walkExpert : BitVec 32
  walkExpertNow : BitVec 32
  scratchCtrl : BitVec 32
  scratchCtrlNow : BitVec 32
  scratchExpert : BitVec 32
  scratchExpertNow : BitVec 32
deriving DecidableEq, Repr

/-- The core's supply gate and minimum-voltage capture (R323, R328). -/
structure SupplyState where
  gateClosed : Bool
  gateSince : Nat
  gateEvents : BitVec 16
  minMv : BitVec 10
  minTime : BitVec 64
deriving DecidableEq, Repr

/-- One logical core. -/
structure Core where
  seq : Sequencer
  step : StepState
  moveQ : List MoveOp
  /-- Rings on which a request that the core has presented waits for its turn (R46). -/
  shown : List Nat
  arr : ArrayState
  vec : VectorState
  att : AttState
  regions : Regions
  scr : ScratchState
  ctrl : CoreCtrl
  supply : SupplyState
deriving DecidableEq, Repr

/-! ### Values after reset -/

def GatherCfg.launch : GatherCfg := ⟨64, 0⟩

def Regions.reset : Regions := ⟨.on, .on, .on, .on, 0, 0, 0⟩

def ArrayState.reset : ArrayState :=
  { queue := [], current := none, halves := [], placed := 0, front := false, frontEnd := 0, cells := [], nextCell := 0,
    activations := [], loadsBehind := 0, running := none, gather := [],
    gatherCfg := GatherCfg.launch, gatherStart := 0, metaErrors := 0, work := 0, workRest := 0, passes := 0, reuse := 0,
    flushForced := 0, flushTimeout := 0, flushThreshold := 0, gatherRows := 0, saturations := 0, nanBlocks := 0,
    t2Reserved := 0 }

def VectorState.reset : VectorState := ⟨[], [], UserTable.zero, false, 0⟩

def AttState.reset : AttState :=
  { queue := [], issue := .idle, issueRows := 0, mode := 0, modeError := false, seq := none, next := none, nextKv := 0, keysTaken := 0,
    tiles := [], staged := [], walk := none, walkRetired := false, walkSerial := 0, turns := [],
    saturations := 0, nanRows := 0, modeErrors := 0,
    tileCount := 0, skipped := 0, walks := 0, walkBadPages := 0, walkErrors := 0, walkPages := 0 }

def ScratchState.reset : ScratchState :=
  { badParity := [], spareFor := 0xFF, pendingBank := 0xFF, darkPending := false, bankErrors := [], errors := 0,
    reexecutions := 0, hostReadErrors := 0, lastErr := 0, waits := 0, hostGroups := 0, hostGroupsNow := 0, windows := [],
    windowsNow := [], holders := [], granted := [], misuse := 0 }

def Sequencer.reset : Sequencer :=
  { regionReg := 0x00100000, regionNow := 0x00100000, run := .idle, stoppedByFault := false, position := 0, lastIssued := 0, wordCount := 0, entry := 0,
    regs := [], patterns := [], loops := [], priv := false, privDepth := 0, lap := 0, markNew := ⟨0, 0⟩, markOld := ⟨0, 0⟩, markTime := 0,
    lapRecordDue := false, wordsIssued := 0, cache := [], fault := ⟨false, 0, 0, 0⟩, clashFault := false,
    clashFaultNow := false, replayMark := false, beats := 0, beatRate := 0,
    windowBeats := 0, windowNs := 0 }

def StepState.reset : StepState := ⟨none, 0, [], false, false, false⟩

def CoreCtrl.reset : CoreCtrl :=
  { arrayCtrl := 1, arrayCtrlNow := 1, arrayExpert := 2, arrayExpertNow := 2, vectorCtrl := 0, vectorCtrlNow := 0,
    vectorExpert := 0x201, vectorExpertNow := 0x201, attCtrl := 0, attCtrlNow := 0, attExpert := 0x201,
    attExpertNow := 0x201, walkCtrl := 1, walkCtrlNow := 1, walkExpert := 2, walkExpertNow := 2, scratchCtrl := 3,
    scratchCtrlNow := 3, scratchExpert := 4, scratchExpertNow := 4 }

def SupplyState.reset : SupplyState := ⟨false, 0, 0, 0x3FF, 0⟩

/-- A core after reset. -/
def Core.reset : Core :=
  { seq := Sequencer.reset, step := StepState.reset, moveQ := [], shown := [], arr := ArrayState.reset, vec := VectorState.reset,
    att := AttState.reset, regions := Regions.reset, scr := ScratchState.reset, ctrl := CoreCtrl.reset,
    supply := SupplyState.reset }

end Sys2Proof.Machine
end

