-- ==== Sys2Proof/Machine/Memory.lean ====
section
/-!
DEFINITION. Byte-addressed memory as a list of (address, byte) pairs in one canonical form: addresses strictly rising and no
listed byte equal to `unlistedByte`. Used for the 48-bit device space of R21 and for the bytes written to host memory.
-/

namespace Sys2Proof.Machine

/-- What a byte that memory does not list reads as: the fill value of Pocket, capacity tier and scratchpad (R202, R235,
R266, R336 step 8). -/
def unlistedByte : Byte := 0

/-- The canonical form: addresses rise strictly and no entry holds `unlistedByte` (DESIGN CHOICE, log entry 28). -/
def Memory.wf (m : List Host.Cell) : Bool :=
  keysRise m && m.all fun e => e.2 ≠ unlistedByte

/-- The byte at address `a` (DESIGN CHOICE, log entry 28). -/
def memGet (m : List Host.Cell) (a : Nat) : Byte := mapGet unlistedByte m a

/-- Memory with byte `b` at address `a` (DESIGN CHOICE, log entry 28). -/
def memPut (m : List Host.Cell) (a : Nat) (b : Byte) : List Host.Cell :=
  if b = unlistedByte then mapErase m a else mapPut m a b

/-- The `n` bytes from address `a` upward. -/
def memRead (m : List Host.Cell) (a n : Nat) : List Byte :=
  match n with
  | 0 => []
  | k + 1 => memGet m a :: memRead m (a + 1) k

/-- Memory with the bytes `bs` written from address `a` upward. -/
def memWrite (m : List Host.Cell) (a : Nat) (bs : List Byte) : List Host.Cell :=
  match bs with
  | [] => m
  | b :: r => memWrite (memPut m a b) (a + 1) r

/-- Memory with the `n` bytes from address `a` back at `unlistedByte`. -/
def memClear (m : List Host.Cell) (a n : Nat) : List Host.Cell :=
  m.filter fun e => e.1 < a || a + n ≤ e.1

end Sys2Proof.Machine
end

