-- ==== Sys2Proof/Operand.lean ====
section
/-!
DEFINITION. Operand types of the commands: access paths, host memory as a command sees it, flits, start-up results, firmware
images and test-chain accesses. What the module reads from its surroundings is an operand (log entries 5 and 7).
-/

namespace Sys2Proof

/-- The access path of a setup access (R40, R395). -/
inductive Path where
  | pcie | collar
deriving DecidableEq, Repr

/-- The transport of an SPDM request (R379). -/
inductive Transport where
  | mctp | doe
deriving DecidableEq, Repr

/-- What a read of host memory returned: its bytes, and whether the read failed or was poisoned after them (R306, R307). -/
structure HostRead where
  bytes : List Byte
  failed : Bool
deriving DecidableEq, Repr

/-- How a write to host memory went: `none` where every byte was accepted, else the bytes accepted before it failed. -/
abbrev HostWrite := Option Nat

/-- A Seam flit as it arrives: its port and direction (`up` toward the Yoke), its module, its sideband fields with the KIND that the
receiver reads, and its payload (Table 13-2); `fresh` is the payload of the sender's new flit, where none waits to be sent first. -/
structure SeamFlit where
  port : PortId
  up : Bool
  module : Fin 16
  seq : Byte
  ackSeq : BitVec 4
  crc : BitVec 16
  payload : List Byte
  kind : BitVec 4
  fresh : List Byte
deriving DecidableEq, Repr

/-- Causes of a port retirement (R283). -/
inductive RetireCause where
  | replays | laneTest
deriving DecidableEq, Repr

/-- Kinds of host reset (Table 15-5). -/
inductive HostResetKind where
  | perst | hotReset | linkDown
deriving DecidableEq, Repr

/-- What powers the module on: standby 12 V on J3, or J1 coming into range. -/
inductive PowerSource where
  | standby | j1
deriving DecidableEq, Repr

/-- What self test, training and measurement of one start-up found (R336): the step that failed, the measured duration, the
feature levels reported (0 for none), and the parts that failed their tests, the comparators under the test current of step 1 (R349) among
them. Unlisted parts passed. -/
structure StartupReport where
  failedStep : Option Nat
  durationMs : Nat
  yokeLevel : BitVec 2
  panelLevels : List (BitVec 2)
  fused : List PhysId
  failedCores : List PhysId
  failedBanks : List (PhysId × BitVec 7)
  failedTiles : List (PhysId × BitVec 16)
  failedChannels : List (CuffId × Fin 20)
  failedPorts : List (PortId × Fin 16)
  failedComparators : List (Fin 36)
deriving DecidableEq, Repr

/-- The tile that leaves regulation or fails its check (R326, R327). -/
inductive TileSite where
  | core (phys : PhysId) (tile : Fin 16)
  | yoke
  | cuff (k : CuffId)
deriving DecidableEq, Repr

/-- One bump group's measured drop in mV at the calibration current: groups of Panel p are 288 p + g, of the Yoke 2304 + g. -/
structure BumpDrop where
  group : Nat
  mv : Nat
  neighbours : List Nat
deriving DecidableEq, Repr

/-- A firmware image as PLDM delivers it (18, Firmware). -/
structure FirmwareImage where
  component : Nat
  version : BitVec 32
  svn : BitVec 16
  keySlot : BitVec 2
  digest : List Byte
  key : List Byte
  payload : List Byte
  signature : List Byte
deriving DecidableEq, Repr

/-- What a DRAM repair fuse replaces: a row of one bank, or a column group of a layer (R238). -/
inductive DramRepair where
  | row (bank : Fin 64) (row : BitVec 15)
  | columnGroup (layer : Fin 8) (position : Fin 32)
deriving DecidableEq, Repr

/-- Test-chain accesses by the classes of Table 18-11; instrument writes with the effects that R238 and R276 give. -/
inductive ChainAccess where
  | idcode
  | bypass
  | identification
  | readInstrument (position : Fin 22)
  | repairLogClear (phys : PhysId) (entry : Fin 8)
  | dramRepair (phys : PhysId) (unit : DramRepair)
  | packageRepair (k : CuffId) (slot : Fin 16) (row : BitVec 22) (done : Bool)
  | margin (position : Fin 22)
  | scan
deriving DecidableEq, Repr

/-- An error that arises in a stored word of a Pocket column: the symbols that change, each with its error value, and whether it is a
hard one, which returns when the word is written again (R219, R229). -/
structure WordError where
  word : BitVec 26
  symbols : List (Fin 68 × BitVec 8)
  hard : Bool
deriving DecidableEq, Repr

/-- What happens to a unit of a capacity channel: a single-bit error in the stored unit or its check bits, an error that the in-line code
only detects, or a single-bit error of its next transfer; each with its syndrome (R247, R250). -/
inductive UnitUpset where
  | single (syn : BitVec 16)
  | wide (syn : BitVec 16)
  | transfer (syn : BitVec 16)
deriving DecidableEq, Repr

/-- An error that arises in a data unit of a capacity channel (R245); `hard` as for a Pocket word. -/
structure UnitError where
  unit : BitVec 27
  upset : UnitUpset
  hard : Bool
deriving DecidableEq, Repr

/-- A refresh that falls due on a Pocket column, with the errors that have arisen in its words since the last one. -/
structure ColumnRefresh where
  col : PhysId
  errors : List WordError
deriving DecidableEq, Repr

/-- A refresh that falls due on a channel of a Cuff, by its slot or, from 16 on, a spare of package 4, with the errors that have arisen
in the channel's units since the last one. -/
structure ChannelRefresh where
  slot : Fin 20
  errors : List UnitError
deriving DecidableEq, Repr

/-- A flit on a Cuff's link: the flit that the sender adds, if any, and the bytes that the receiver reads of the oldest one that it
has not taken (R252). -/
structure LinkFlit where
  fresh : Option (List Byte)
  received : List Byte
deriving DecidableEq, Repr

/-- A core that reaches a word, and whether its roster cache finds an uncorrectable error in that word (R86). -/
structure ReachedWord where
  core : CoreId
  cacheError : Bool
deriving DecidableEq, Repr

/-- The refresh-rate field of a package (Table 12-3): its row, or none where the field cannot be read. -/
abbrev TempField := Option (Fin 7)

/-- How a port of a Panel fared in one attempt at the training of a rejoin (R286). -/
inductive PortTraining where
  | trained | failedLaneTest (module : Fin 16) | notTrained
deriving DecidableEq, Repr

/-- What the device finds where a register write starts a rejoin or a darkening: the attempts to train the Panel's two ports, the level
that it reports, its cores that fail self test, each with whether the crossover core passes, and the self test of a crossover core
(R286, R362). -/
structure WriteEnv where
  attempts : List (PortTraining × PortTraining)
  level : BitVec 2
  failed : List (CoreId × Bool)
  selfTest : Bool
deriving DecidableEq, Repr

end Sys2Proof
end

