-- ==== Sys2Proof/Machine/Blocks.lean ====
section
/-!
DEFINITION. The state of the blocks around the cores as plain data: order rings (03), Pocket columns and scrub passes (11),
Cuffs (12), Panels and Seam ports (13), the host interface (14). Values after reset are those of the Reset columns.
-/

namespace Sys2Proof.Machine

/-! ### Order rings (03) -/

/-- Slot kinds (Table 03-5). -/
inductive SlotKind where
  | owner | host | refresh | switchOn | scrub | log
deriving DecidableEq, Repr

/-- One slot of a ring image: LENGTH + 1 units (Table 03-4). -/
structure RingSlot where
  kind : SlotKind
  owner : Nat
  units : Nat
deriving DecidableEq, Repr

/-- A ring image (Table 03-3). -/
structure RingImage where
  buildId : BitVec 32
  reqFl : Nat
  mult : Nat
  replayable : Bool
  cool : Bool
  slots : List RingSlot
deriving DecidableEq, Repr

/-- The image in use. -/
inductive ImageUse where
  | opened | normal | cool
deriving DecidableEq, Repr

/-- One explicit order ring (R42 to R66). `clashes` are the waiting requests of R58 (a walk's request as 4096 + owner code). In an owner slot `begun` says
that its start has passed (R56), `paid` that it has paid a refresh while it waits (R53), `copied` that a mirror has copied a unit in it (R262). `coolSince` and `coolSince2` are the first
samples of the runs that meet R55's swap-in condition for a 1× and for a 2× image, `hot` whether a sample has reached the swap-out
threshold, `coolNow` YK_COOL_EXPERT as the ring's last boundary took it (R9, R43). -/
structure Ring where
  normal : Option RingImage
  cool : Option RingImage
  normalLoaded : Bool
  coolLoaded : Bool
  use : ImageUse
  toOpen : Bool
  lap : Nat
  laps : BitVec 32
  slot : Nat
  used : Nat
  atEnd : Bool
  begun : Bool
  paid : Bool
  copied : Bool
  waitSince : Nat
  stalled : Bool
  usedCounts : List (Nat × BitVec 16)
  idleCounts : List (Nat × BitVec 16)
  clashes : List Nat
  coolSince : Option Nat
  coolSince2 : Option Nat
  hot : Bool
  coolNow : BitVec 32
deriving DecidableEq, Repr

def Ring.reset : Ring :=
  { normal := none, cool := none, normalLoaded := false, coolLoaded := false, use := .opened, toOpen := false, lap := 0,
    laps := 0, slot := 0, used := 0, atEnd := false, begun := false, paid := false, copied := false, waitSince := 0, stalled := false, usedCounts := [], idleCounts := [],
    clashes := [], coolSince := none, coolSince2 := none, hot := false, coolNow := 0x00640301 }

/-- The active roster set (R41, R42); `sq` and `order` name the descriptor of its LAUNCH. -/
structure ActiveSet where
  running : Bool
  buildId : BitVec 32
  replayable : Bool
  cores : List Nat
  launchNs : Nat
  sq : Nat
  order : Nat
deriving DecidableEq, Repr

def ActiveSet.none : ActiveSet := ⟨false, 0, false, [], 0, 0, 0⟩

/-! ### Pocket columns (11) -/

/-- What a stored Pocket word's code reports (R220 to R222). -/
inductive PocketFault where
  | correctable (symbol : BitVec 7) (pattern : Byte)
  | uncorrectable
  | poison
deriving DecidableEq, Repr

/-- A faulty stored word: whether it holds the poison marker, the symbols in error with their error values, and those of its hard faults,
which return when the word is written again (R229). -/
structure WordFault where
  poison : Bool
  errors : List (Nat × Byte)
  stuck : List (Nat × Byte)
deriving DecidableEq, Repr

/-- What the code reports of it: an error confined to one symbol is corrected, and any further one is only detected (R219) (DESIGN CHOICE,
log entry 12). -/
def WordFault.found (f : WordFault) : Option PocketFault :=
  if f.poison then some .poison
  else
    match f.errors with
    | [] => none
    | [(s, p)] => some (.correctable (BitVec.ofNat 7 s) p)
    | _ => some .uncorrectable

/-- Error values added to those of a word; equal ones cancel. -/
def addErrors (errors : List (Nat × Byte)) (more : List (Nat × Byte)) : List (Nat × Byte) :=
  more.foldl (fun l e =>
    let p := ((l.find? fun x => x.1 == e.1).map (·.2)).getD 0 ^^^ e.2
    let r := l.filter fun x => x.1 != e.1
    if p = 0 then r else r ++ [(e.1, p)]) errors

/-- One remap entry (Table 11-14). -/
structure RemapEntry where
  state : BitVec 2
  spare : BitVec 3
  word : BitVec 26
deriving DecidableEq, Repr

/-- One physical Pocket column with its controller's state. Words are numbered u within the slot (R217); the merge buffer
lists its entries oldest first, each a word and its byte mask (R223). `logCleared` are remap entries cleared in the repair log
and `repairs` repairs whose fuses are programmed, both for the next cold reset; `fused` are the repairs in effect, and `capture` the
failing rows captured, each a bank and a row (R238). -/
structure Column where
  faults : List (Nat × WordFault)
  merge : List (Nat × BitVec 64)
  debt : Nat
  counts : List Nat
  mult : BitVec 2
  sensorFailed : Bool
  sensorC : BitVec 8
  refreshGroup : BitVec 3
  remap : List RemapEntry
  retired : List Nat
  logCleared : List Nat
  repairs : List DramRepair
  fused : List DramRepair
  capture : List (Nat × Nat)
  retiredCount : BitVec 16
  lastPage : BitVec 11
  banksOff : BitVec 64
  wakes : BitVec 32
  rmw : BitVec 16
  merged : BitVec 16
  corrected : BitVec 16
  uncorrectable : BitVec 8
  verifyFails : BitVec 8
  lastWord : BitVec 26
  lastSyndrome : BitVec 32
  ctrl : BitVec 32
  ctrlNow : BitVec 32
  expert : BitVec 32
  expertNow : BitVec 32
deriving DecidableEq, Repr

def Column.reset : Column :=
  { faults := [], merge := [], debt := 0, counts := [0, 0, 0, 0, 0, 0, 0, 0], mult := 0, sensorFailed := false, sensorC := 0,
    refreshGroup := 0, remap := List.replicate 8 ⟨0, 0, 0⟩, retired := [], logCleared := [], repairs := [], fused := [], capture := [],
    retiredCount := 0, lastPage := 0,
    banksOff := 0, wakes := 0, rmw := 0, merged := 0, corrected := 0, uncorrectable := 0, verifyFails := 0, lastWord := 0,
    lastSyndrome := 0, ctrl := 3, ctrlNow := 3, expert := 2, expertNow := 2 }

/-- One part of a scrub pass: the Pocket of a logical core, or a Cuff channel, with the steps still to run. -/
structure ScrubPart where
  ring : Nat
  next : Nat
  stop : Nat
deriving DecidableEq, Repr

/-- A running scrub pass with the counts of its summary (R228, R260, Table 11-6); `sq` and `order` name its descriptor. -/
structure ScrubPass where
  sq : Nat
  order : Nat
  parts : List ScrubPart
  startNs : Option Nat
  endNs : Nat
  firstUncorr : Option Nat
  steps : Nat
  corrected : Nat
  uncorrectable : Nat
  verifyFails : Nat
  remapped : Nat
  retired : Nat
  wakes : Nat
  status : Byte
deriving DecidableEq, Repr

/-! ### Cuffs (12) -/

/-- What a stored capacity-tier unit's check reports (R250, R251). -/
inductive CapFault where
  | correctable (syndrome : BitVec 16)
  | uncorrectable (syndrome : BitVec 16)
  | poison
deriving DecidableEq, Repr

/-- Channel states (Table 12-17). -/
inductive ChanState where
  | active | mirroring | switched | returning | spared | failing | dead | mappedOut
deriving DecidableEq, Repr

/-- One package of a Cuff: its own multiplier and temperature by its last reading, and whether its field could not be read since cold
reset (R255). -/
structure Package where
  mult : BitVec 2
  tempC : BitVec 8
  failed : Bool
deriving DecidableEq, Repr

/-- The refresh state of a physical channel that serves no slot (R259). -/
structure SpareRefresh where
  debt : Nat
  pairCounts : List Nat
deriving DecidableEq, Repr

/-- A retraining sequence in progress (R262): its slot, the spare that it took and the physical channel that it retrains, whether the
retraining of step 4 passes, the units that the mirror or the return has still to copy, the rows that a write has reached since the switch,
when step 4 ends, and the original channel's hard errors, which the spare does not have. -/
structure Retrain where
  slot : Nat
  spare : Nat
  pkg : BitVec 3
  ch : BitVec 2
  passes : Bool
  left : Nat
  dirty : List Nat
  ends : Nat
  aside : List (Nat × CapFault)
deriving DecidableEq, Repr

/-- What a command of a core has still to do on a ring in its Cuff's owner slots: the command's roster-word slot, lap tag and word, the
counted slots that are left, and the units that are left to serve in them (R190, R272); `host` where a re-executed walk has used its
counted slots up, so that a host opening serves the units (R210). -/
structure TurnWork where
  core : Nat
  slot : Nat
  lap : BitVec 2
  word : BitVec 28
  turns : Nat
  units : Nat
  host : Bool
deriving DecidableEq, Repr

/-- One logical channel of a Cuff (R241 to R265). `errors` are the times of its errors that the trigger window still holds, newest first
(R261), `turns` what commands have still to do in its Cuff's owner slots, oldest first, and `capture` its failing rows captured (R276).
`holdUntil` is when the latest stall of a switch ends (R262), `displaced` the original channel's refresh while a spare serves the slot. -/
structure Channel where
  state : ChanState
  pkg : BitVec 3
  ch : BitVec 2
  retrains : BitVec 8
  corrected : BitVec 16
  uncorrectable : BitVec 8
  linkCorrected : BitVec 8
  errors : List Nat
  debt : Nat
  pairCounts : List Nat
  turns : List TurnWork
  capture : List Nat
  holdUntil : Nat
  displaced : Option SpareRefresh
deriving DecidableEq, Repr

/-- Slot n = 4j + ch of a Cuff as delivered: served by its own channel of packages 0 to 3. -/
def Channel.reset (n : Nat) : Channel :=
  { state := .active, pkg := BitVec.ofNat 3 (n / 4), ch := BitVec.ofNat 2 (n % 4),
    retrains := 0, corrected := 0, uncorrectable := 0, linkCorrected := 0, errors := [],
    debt := 0, pairCounts := [0, 0, 0, 0, 0, 0, 0, 0], turns := [], capture := [], holdUntil := 0, displaced := none }

/-- A near-memory command in a Cuff's queue: the issuing core, its lap tag, its word, s[SA] and the record (R267, R272). -/
structure NearCommand where
  core : Nat
  lap : BitVec 2
  word : BitVec 28
  base : Nat
  record : List Byte
deriving DecidableEq, Repr

/-- What a Cuff does in one unit of a command (R268, R249): a read of a source, the read half of a partial write, or a write of what
some rows give. -/
inductive NearKind where
  | source | merge | result (rows : List Nat)
deriving DecidableEq, Repr

/-- One unit of a near-memory command on a channel ring. -/
structure NearUnit where
  kind : NearKind
  unit : MemUnit
deriving DecidableEq, Repr

/-- The command that a Cuff runs, with the units that its rings have still to serve, in order (R272). -/
structure NearRun where
  command : NearCommand
  units : List NearUnit
deriving DecidableEq, Repr

/-- A near-memory command that some Cuffs have taken (R267): the bytes that its source units carried when their rings served them, those
among them that could not be read, the units that each Cuff has sent on the Cuff bus, and the Cuffs that contribute nothing more and
those that have completed it. -/
structure NearTaken where
  command : NearCommand
  cuffs : List Nat
  got : List (Nat × List Byte)
  bad : List Nat
  sent : List (Nat × Nat)
  lost : List Nat
  done : List Nat
deriving DecidableEq, Repr

/-- One Cuff. `packages` are its packages 0 to 4, `spares` the refresh of the spare channels, `seq` its retraining sequence, `retry` the
flits in its link's retry buffer, oldest first (R252), `near` the commands that wait at its near-memory unit and `running` the one that it
runs, and `busTurns` what commands have still to do in its slots of the Cuff bus. -/
structure Cuff where
  ctrl : BitVec 32
  rateNow : BitVec 2
  linkEccNow : Bool
  expert : BitVec 32
  channels : List Channel
  packages : List Package
  spares : List SpareRefresh
  sparesBad : List Nat
  waiting : List Nat
  seq : Option Retrain
  lastErrUnit : BitVec 27
  lastErrInfo : BitVec 32
  atomicWraps : BitVec 16
  saturations : BitVec 8
  nearErrors : BitVec 8
  linkRetries : BitVec 16
  busRetries : BitVec 8
  width : BitVec 2
  replays : Nat
  linkSeq : Nat
  retry : List (List Byte)
  near : List NearCommand
  running : Option NearRun
  busTurns : List TurnWork
deriving DecidableEq, Repr

def Cuff.reset : Cuff :=
  { ctrl := 0xC7, rateNow := 3, linkEccNow := true, expert := 0x00406400,
    channels := (List.range 16).map Channel.reset, packages := List.replicate 5 ⟨0, 0, false⟩,
    spares := List.replicate 4 ⟨0, [0, 0, 0, 0, 0, 0, 0, 0]⟩, sparesBad := [], waiting := [], seq := none,
    lastErrUnit := 0, lastErrInfo := 0, atomicWraps := 0, saturations := 0, nearErrors := 0, linkRetries := 0, busRetries := 0,
    width := 2, replays := 0, linkSeq := 0, retry := [], near := [], running := none, busTurns := [] }

/-! ### Panels and Seam ports (13) -/

/-- Panel states (Table 13-12). -/
inductive PanelState where
  | present | isolated | rejoining | lost
deriving DecidableEq, Repr

/-- One Panel as the Yoke sees it, with its power and reset. `feature` is the level it reported at cold reset. -/
structure Panel where
  state : PanelState
  isolations : BitVec 4
  feature : BitVec 2
  powered : Bool
  clashCount : BitVec 32
deriving DecidableEq, Repr

/-- Port states (Table 13-16). -/
inductive PortState where
  | active | retired | down | training
deriving DecidableEq, Repr

/-- One module of a Seam port in one direction (R282, R283): the SEQ that the receiver takes next and the SEQ of the sender's next new
flit, the retry buffer (the kind and payload of the last flits sent, oldest first), how many of its last flits are to be sent again,
flits of the retired sibling to be sent before any new one, a NAK to be sent for the reverse link, and the consecutive failures of
the flit at hand. -/
structure SeamModule where
  expect : BitVec 8
  next : BitVec 8
  buffer : List (Nat × List Byte)
  resend : Nat
  held : List (Nat × List Byte)
  nak : Bool
  failures : Nat
deriving DecidableEq, Repr

def SeamModule.reset : SeamModule := ⟨0, 0, [], 0, [], false, 0⟩

/-- One Seam port. Its modules are keyed 2 × module + direction. `otherNext` are the directions in which the next slot that its
sequencer serves is one of its retired sibling's image (R63). -/
structure SeamPort where
  state : PortState
  module : BitVec 4
  cause : BitVec 2
  replays : BitVec 16
  modules : List (Nat × SeamModule)
  otherNext : List Nat
deriving DecidableEq, Repr

def SeamPort.reset : SeamPort := ⟨.active, 0, 0, 0, [], []⟩

/-- A PAGE_RELEASE_FENCE in progress (R196): the Panels whose report is awaited, the Seam ports that its marker has been
sent on, the Panels that it has reached, and the cores whose walk it waits for, each with its count of retired walks at the marker. -/
structure FenceWait where
  sq : Nat
  order : Nat
  panels : List Nat
  sent : List Nat
  noted : List Nat
  cores : List (Nat × Nat)
  walks : Nat
  isolated : BitVec 8
  startNs : Nat
deriving DecidableEq, Repr

/-! ### The host interface (14) -/

/-- A fetched descriptor: its entry of the ring, its place in the order of fetches, which names it, and, once started, its place in
that of starts; `ro` is DATA_RO as its fetch found it (R319). -/
structure Desc where
  index : Nat
  raw : BitVec 512
  order : Nat
  fetchNs : Nat
  started : Bool
  startNo : Nat
  ro : Bool
deriving DecidableEq, Repr

/-- A DRAIN in progress (R316): its descriptor, the rings that it stops, and whether a HALT ended a descriptor that it awaits. -/
structure DrainWait where
  sq : Nat
  order : Nat
  mask : BitVec 64
  aborted : Bool
deriving DecidableEq, Repr

/-- SQ states (Table 14-7). -/
inductive SqState where
  | disabled | running | stopped | error
deriving DecidableEq, Repr

/-- One submission ring. `descs` are the fetched descriptors that have not completed, oldest first. -/
structure Sq where
  base : BitVec 64
  enable : Bool
  cq : BitVec 6
  log2 : BitVec 5
  state : SqState
  head : Nat
  tail : Nat
  descs : List Desc
  disabling : Bool
deriving DecidableEq, Repr

def Sq.reset : Sq := ⟨0, false, 0, 6, .disabled, 0, 0, [], false⟩

/-- A completion that waits for space in its CQ. -/
structure HeldEntry where
  entry : BitVec 128
  irq : Bool
deriving DecidableEq, Repr

/-- One completion ring. `irqNs` is the time limit in effect at the last entry written (R319). -/
structure Cq where
  base : BitVec 64
  enable : Bool
  irqEnable : Bool
  vector : BitVec 6
  log2 : BitVec 5
  full : Bool
  phase : Bool
  tail : Nat
  head : Nat
  held : List HeldEntry
  irqPending : Nat
  irqSince : Nat
  irqNs : Nat
deriving DecidableEq, Repr

def Cq.reset : Cq := ⟨0, false, false, 0, 6, false, false, 0, 0, [], 0, 0, 0⟩

/-- A BAR4 request that waits for its service (R299): its deadline (R300, R319), the bytes of a write and the operands of a write
that lies in setup space, the rings left on its path with the units left on each, and the bytes read so far of a read. -/
structure Bar4Request where
  addr : Nat
  len : Nat
  deadline : Nat
  data : Option (List Byte)
  env : WriteEnv
  path : List (Nat × Nat)
  reply : Option (List Byte)
deriving DecidableEq, Repr

/-- What waits at the host queue engine in the order of its arrival (R299, R303): BAR4 requests, and the doorbell writes behind a BAR4
write. A doorbell names its ring pair, its page offset, and the width and value of the write. -/
inductive HostRequest where
  | access (r : Bar4Request)
  | doorbell (q off width value : Nat)
deriving DecidableEq, Repr

/-- A unit of at most 64 bytes of a transfer: its address, its place in the transfer, the rings that it has still to cross, and the
bytes that it carries, none before its source has been read. -/
structure HubUnit where
  addr : Nat
  len : Nat
  off : Nat
  route : List Nat
  data : Option (List Byte)
deriving DecidableEq, Repr

/-- A transfer of a COPY by its hub DMA engine, or of a LOAD_ROSTER's roster by the host queue engine (R289, R290, R308). `agent` is the
owner code, `read`, `whole` and `wrote` what host memory gives and takes. `off` is where the chunk at hand begins: it is read whole, up to 64 KiB
into `got`, and then written. `fail` is the first byte that was not moved, with its status. An orphan's descriptor was lost to a host reset
(R334). -/
structure Transfer where
  q : Nat
  desc : Desc
  agent : Nat
  orphan : Bool
  dst : Nat
  read : List Byte
  whole : Bool
  wrote : HostWrite
  off : Nat
  writing : Bool
  units : List HubUnit
  got : List (Nat × List Byte)
  fail : Option (Nat × Nat)
deriving DecidableEq, Repr

/-- A host write of part of a Pocket word that cannot be read, while it waits in the merge buffer (R224): the owner code, whether it came
by BAR4, its address, and what the bytes were. -/
structure PartialWrite where
  owner : Nat
  bar4 : Bool
  addr : Nat
  old : List Byte
deriving DecidableEq, Repr

/-- The host queue engine, the hub DMA engines and the PCI Express port. `transfers` are under way, `partials` wait for the end of a host
opening; `orphans` are COPY descriptors started before a host
reset, whose transfers have not begun and complete without a completion (R334); `configWrites`
are the writes to configuration space since its reset, newest first. -/
structure HostIf where
  sqs : List (Nat × Sq)
  cqs : List (Nat × Cq)
  window : BitVec 18
  hqCtrl : BitVec 32
  hqExpert : BitVec 32
  cqFullWaits : BitVec 16
  fetchErrors : BitVec 8
  doorbellErrors : BitVec 8
  requests : List HostRequest
  nextRing : Nat
  fetchOrder : Nat
  drains : List DrainWait
  fences : List FenceWait
  busy : BitVec 8
  halted : BitVec 8
  linkUp : Bool
  linkWidth : Nat
  linkRate : Nat
  perst : Bool
  msixTable : List (Nat × BitVec 128)
  msixPending : BitVec 128
  orphans : List (Nat × Desc)
  transfers : List Transfer
  partials : List PartialWrite
  configWrites : List (Nat × BitVec 32)
deriving DecidableEq, Repr

def HostIf.reset : HostIf :=
  { sqs := [], cqs := [], window := 0, hqCtrl := 0x0000000A, hqExpert := 0x00000001, cqFullWaits := 0, fetchErrors := 0,
    doorbellErrors := 0, requests := [], nextRing := 0, fetchOrder := 0, drains := [], fences := [], busy := 0, halted := 0,
    linkUp := false, linkWidth := 0, linkRate := 0, perst := true, msixTable := [], msixPending := 0, orphans := [], transfers := [], partials := [], configWrites := [] }

end Sys2Proof.Machine
end

