-- ==== Sys2Proof/Machine/Module.lean ====
section
/-!
DEFINITION. The rest of the module's state as plain data: core map (01), timebase and latches (02), setup registers of the
Yoke, power (15), thermal control (16), error log (17), management, firmware, attestation and fingerprint (18), and what the
device put out. Values after reset are those of the Reset columns; log entry 9 names the others.
-/

namespace Sys2Proof.Machine

/-! ### Core map (01) -/

/-- State of a physical core (R12, R13, R361). -/
inductive PhysState where
  | active | inactive | dark | fusedDark
deriving DecidableEq, Repr

/-- STATE of a core map entry (Table 01-3). -/
inductive MapState where
  | own | crossover | absent | substituting
deriving DecidableEq, Repr

/-- One core map entry: the physical core and the column within the Panel (0 to 67, or 0x7F for none). -/
structure MapEntry where
  state : MapState
  column : Nat
  phys : Nat
deriving DecidableEq, Repr

/-- The core map. `unreachable` lists columns that no core can reach (R18), `keptSlots` the logical numbers whose Pocket
slots the hub DMA engines keep (R397), `tiles` the failed tiles of each physical core (CO_TILES), `failedBanks` the one
scratchpad bank of a physical core that failed its start-up self test (R212). -/
structure CoreMap where
  phys : List (Nat × PhysState)
  entries : List (Nat × MapEntry)
  unreachable : List Nat
  keptSlots : List Nat
  tiles : List (Nat × BitVec 16)
  failedBanks : List (Nat × BitVec 8)
deriving DecidableEq, Repr

def CoreMap.reset : CoreMap := ⟨[], [], [], [], [], []⟩

/-- The state of physical core 68p + c as delivered: the crossover core of each quadrant is inactive (R12). -/
def physDefault (k : Nat) : PhysState := if k % 68 % 17 = 16 then .inactive else .active

/-- The entry of logical core n as delivered: rank 16q + i on physical core 17q + i of its Panel (Table 00-3). -/
def entryDefault (n : Nat) : MapEntry := ⟨.own, n % 64 / 16 * 17 + n % 16, n % 64 / 16 * 17 + n % 16⟩

/-- The Seam port 2p + s of logical core `n` whose map entry is `e`: s by the quadrant of the physical core (R281). -/
def entryPort (n : Nat) (e : MapEntry) : Nat := 2 * (n / 64) + min 1 (e.phys / 17 / 2)

/-! ### Time and latches (02) -/

/-- The HI latches of one access path (R40, R386). -/
structure Latches where
  timebase : Word
  beats : List (Nat × Word)
  minVolt : List (Nat × Word)
  fprint : List Word
deriving DecidableEq, Repr

def Latches.reset : Latches := ⟨0, [], [], []⟩

/-- The timebase (R37 to R39): the counter, the PLL and reference status, when each Panel's follower was last corrected, and
the latches of the PCI Express and Collar paths. -/
structure TimeState where
  now : Nat
  locked : Bool
  refLost : Bool
  refLosses : BitVec 16
  synced : List (Nat × Nat)
  pcie : Latches
  collar : Latches
deriving DecidableEq, Repr

def TimeState.reset : TimeState := ⟨0, false, false, 0, [], Latches.reset, Latches.reset⟩

/-! ### Yoke setup registers -/

/-- Setup registers of the Yoke block that hold a written value (Tables 00-5, 01-2, 03-8, 03-9, 03-15, 03-18, 03-19, 09-14,
09-15, 13-10, 13-11, 18-13). -/
structure YokeRegs where
  expertEnable : BitVec 32
  lockedWrites : BitVec 32
  mapIndex : BitVec 32
  clashCount : BitVec 32
  ringSelect : BitVec 32
  coolMode : BitVec 32
  coolExpert : BitVec 32
  turnStall : BitVec 32
  fenceIsolated : BitVec 8
  fenceLastNs : BitVec 32
  seamCtrl : BitVec 32
  seamExpert : BitVec 32
  level : Nat
  yokeLevel : BitVec 2
deriving DecidableEq, Repr

def YokeRegs.reset : YokeRegs :=
  { expertEnable := 0, lockedWrites := 0, mapIndex := 0, clashCount := 0, ringSelect := 0x01020000, coolMode := 1,
    coolExpert := 0x00640301, turnStall := 0x000F4240, fenceIsolated := 0, fenceLastNs := 0, seamCtrl := 1,
    seamExpert := 0x308, level := 0, yokeLevel := 0 }

/-! ### Capacity tier (12) -/

/-- The tier as a whole: the channel list (R244), the populated size (R246), the counters of YK_CAP_STATUS, what stored units'
checks report by device address, the units whose fault returns at a rewrite, the units whose next transfer has a single-bit error, each
with its syndrome, and the near-memory commands that some Cuffs have taken. -/
structure CapTier where
  list : List Nat
  populatedMib : BitVec 21
  active : BitVec 8
  discarded : BitVec 8
  faults : List (Nat × CapFault)
  hard : List Nat
  linkErrors : List (Nat × BitVec 16)
  near : List NearTaken
deriving DecidableEq, Repr

/-- The full-health channel list: entry i is Cuff i mod 12, slot ⌊i ÷ 12⌋ (R244), as ring instances. -/
def fullChannelList : List Nat := (List.range 192).map fun i => 20 * (i % 12) + i / 12

def CapTier.reset : CapTier := ⟨fullChannelList, 0, 0, 0, [], [], [], []⟩

/-! ### Credit messages on their way (R213, R215) -/

/-- What a message from a target to a taker says (Table 10-8). -/
inductive CreditKind where
  | grant | refuse
deriving DecidableEq, Repr

/-- A credit message on its way, with the fields of its header (Table 10-8): the target's lap counter modulo 4, and for a GRANT
the window's groups as CO_CREDIT_WINn gives them. -/
structure CreditMessage where
  kind : CreditKind
  target : Nat
  other : Nat
  window : Nat
  lap : BitVec 2
  groups : BitVec 8
deriving DecidableEq, Repr

/-! ### Power (15) -/

/-- STATE of PW_FOLD (Table 15-13). -/
inductive FoldState where
  | running | entering | folded | waking
deriving DecidableEq, Repr

/-- Power, reset and start-up. `expertActs` is whether PW_SUPPLY_EXPERT governs the supplies since the last CAP_PERIOD (R9), `jIn` whether J1 is in range, `stage` the power stage's enable, `barred` whether a fault
holds the module off (R327, R377). -/
structure Power where
  standby : Bool
  jIn : Bool
  stage : Bool
  barred : Bool
  step : Nat
  ready : Bool
  everReady : Bool
  failed : Bool
  lastReset : Byte
  durationMs : BitVec 16
  ctrl : BitVec 32
  hostCap : BitVec 16
  expert : BitVec 32
  expertNow : BitVec 32
  supplyExpert : BitVec 32
  supplyNow : BitVec 32
  expertActs : Bool
  fold : FoldState
  folds : BitVec 16
  lastWakeUs : BitVec 16
  foldBy : Option (Nat × Nat)
  wakeAsked : Bool
  deferred : List Nat
  inputW : BitVec 16
  inputV : BitVec 16
  supplyMv : Nat
  yokeMv : Nat
  cuffMv : Nat
  duty : Nat
  bumpCal : List (Nat × Nat)
  bumpFlagged : List Nat
  bumpGroups : BitVec 16
  bumpDies : BitVec 9
  yokeTiles : Nat
  cuffTiles : List (Nat × Nat)
deriving DecidableEq, Repr

def Power.reset : Power :=
  { standby := true, jIn := false, stage := false, barred := false, step := 0, ready := false, everReady := false,
    failed := false, lastReset := 1, durationMs := 0, ctrl := 4, hostCap := 0, expert := 0x000A0A05,
    expertNow := 0x000A0A05, supplyExpert := 0x00141414, supplyNow := 0x00141414, expertActs := false, fold := .running, folds := 0,
    lastWakeUs := 0, foldBy := none, wakeAsked := false, deferred := [], inputW := 0, inputV := 0, supplyMv := 750,
    yokeMv := 750, cuffMv := 750, duty := 16, bumpCal := [], bumpFlagged := [], bumpGroups := 0, bumpDies := 0,
    yokeTiles := 0, cuffTiles := [] }

/-! ### Thermal control (16) -/

/-- One sensor: its last reading, its validity, its rate (0 10 ms, 1 1 ms, 2 100 µs) and the consecutive samples that met a
slower rate's condition. -/
structure Sensor where
  value : Int
  invalid : Bool
  rate : Nat
  slow : Nat
  slowest : Nat
deriving DecidableEq, Repr

def Sensor.reset : Sensor := ⟨0, false, 0, 0, 0⟩

/-- An exact quotient: a resistance in K/W as tenths of K over W, a cap in W as its numerator over tenths of K. -/
structure Ratio where
  num : Int
  den : Nat
deriving DecidableEq, Repr

/-- Cycle counting of one Panel (R355). -/
structure Cycles where
  started : Bool
  extreme : Int
  dir : Int
  valley : Int
  total : BitVec 32
  bin40 : BitVec 16
  bin60 : BitVec 16
deriving DecidableEq, Repr

def Cycles.reset : Cycles := ⟨false, 0, 0, 0, 0, 0, 0⟩

/-- Conditions that ask for the clamp (Table 16-3): temperature, computed cap, flow; since when the temperature has met its release rule,
and how many samples in a row the flow has. -/
structure Clamp where
  temp : Bool
  cap : Bool
  flow : Bool
  tempClear : Option Nat
  flowClear : Nat
deriving DecidableEq, Repr

/-- A restart after a hardware shutdown that waits to be recorded (R350). -/
structure Restart where
  diode : Nat
  peak : Nat
  offMs : Nat
deriving DecidableEq, Repr

/-- Thermal sensing and cooling. Sensors are keyed by diode code, 0x100 + 2 × physical core + s, 0x1000 + column, 0x2000 + i
for the Yoke, 0x3000 inlet, 0x3001 outlet, 0x3002 flow. -/
structure Thermal where
  ctrl : BitVec 32
  expert : BitVec 32
  expertNow : BitVec 32
  sensors : List (Nat × Sensor)
  invalidCount : BitVec 8
  disagree : BitVec 8
  excursion : Bool
  clamp : Clamp
  lowFlow : Nat
  thermalW : BitVec 16
  computedW : Option Nat
  limiting : BitVec 4
  thetaL : List (Nat × Ratio)
  thetaD : List (Nat × Ratio)
  capP : List (Nat × Ratio)
  baseL : List (Nat × Ratio)
  baseD : List (Nat × Ratio)
  warn : BitVec 8
  cycles : List (Nat × Cycles)
  saved : List (Nat × Cycles)
  lastSave : Nat
  shutdowns : BitVec 16
  lastDiode : BitVec 6
  latched : Bool
  tripPeak : Nat
  trips : List Nat
  held : Bool
  restart : Option Restart
  inletOut : Bool
  flowOut : Bool
deriving DecidableEq, Repr

def Clamp.reset : Clamp := ⟨false, false, false, none, 0⟩

def Thermal.reset : Thermal :=
  { ctrl := 1, expert := 0x00027D0A, expertNow := 0x00027D0A, sensors := [], invalidCount := 0, disagree := 0,
    excursion := false, clamp := Clamp.reset, lowFlow := 0, thermalW := 0xFFFF, computedW := none, limiting := 0xF,
    thetaL := [], thetaD := [], capP := [], baseL := [], baseD := [], warn := 0, cycles := [], saved := [], lastSave := 0,
    shutdowns := 0, lastDiode := 0x3F, latched := false, tripPeak := 0, trips := [], held := false, restart := none,
    inletOut := false, flowOut := false }

/-! ### Error log (17) -/

/-- One error record (Table 17-5); PHASE is added when it is written. -/
structure ErrRecord where
  cls : BitVec 8
  source : BitVec 8
  location : BitVec 12
  detail : BitVec 48
  aux : BitVec 16
  count : BitVec 16
  firstNs : BitVec 64
  lastNs : BitVec 64
  lost : Bool
deriving DecidableEq, Repr

/-- One entry of a coalescing table (R367): its key, the pending record, when its hold ends, and whether its record has been
released and waits for the release queue. -/
structure LogEntry where
  cls : BitVec 8
  location : BitVec 12
  detail : BitVec 48
  pending : Option ErrRecord
  holdEnd : Nat
  waits : Bool
deriving DecidableEq, Repr

/-- One source group: its table, its release queue, by class the times of the dropped reports that its lost count still counts, oldest
first, the classes whose next record carries LOST, and how many records of the queue have crossed to the Yoke. -/
structure LogSource where
  entries : List LogEntry
  queue : List ErrRecord
  lost : List (Nat × List Nat)
  flag : List Nat
  crossed : Nat
deriving DecidableEq, Repr

def LogSource.reset : LogSource := ⟨[], [], [], [], 0⟩

/-- The error log engine. `listed` is whether the retired pages of the repair log have been reported since cold reset (R233). -/
structure LogState where
  sources : List (Nat × LogSource)
  writes : List ErrRecord
  base : BitVec 64
  ctrl : BitVec 32
  expert : BitVec 32
  full : Bool
  phase : Bool
  tail : Nat
  head : BitVec 16
  lostSelect : BitVec 32
  lostCounts : List (Nat × BitVec 32)
  sinceSignal : Nat
  listed : Bool
deriving DecidableEq, Repr

def LogState.reset : LogState :=
  { sources := [], writes := [], base := 0, ctrl := 0x0000100A, expert := 0x64, full := false, phase := false, tail := 0,
    head := 0, lostSelect := 0, lostCounts := [], sinceSignal := 0, listed := false }

/-! ### Management, security and test (18) -/

/-- One firmware bank: its verified image, none where it holds no verified image. -/
structure FwImage where
  version : BitVec 32
  svn : BitVec 16
  digest : List Byte
deriving DecidableEq, Repr

/-- One firmware component (R376 to R378): banks A and B, the bank tried first, the running bank, whether a verified bank
awaits the next cold reset, and the anti-rollback counter. -/
structure Firmware where
  bankA : Option FwImage
  bankB : Option FwImage
  activeB : Bool
  running : Option Bool
  pending : Bool
  counter : Nat
deriving DecidableEq, Repr

/-- A component as delivered: a verified image in bank A. -/
def Firmware.reset : Firmware := ⟨some ⟨0, 0, []⟩, none, false, none, false, 0⟩

/-- Event names of R373 and of the other chapters. -/
inductive EventName where
  | inputFault | thermalShutdown | coolantRange | resistanceWarn | thermalClamp | fwVerifyFail | fprintChanged
  | tagUnlockRefused | startupWait | startupFailed | restartHeld | noHostLink | channelFault | moduleFault
deriving DecidableEq, Repr

/-- An event that the Collar sent: its name, its source and the state it carries. -/
structure Event where
  name : EventName
  source : Nat
  state : Nat
deriving DecidableEq, Repr

/-- A holdoff in progress (R374): what was sent last and what holds now. -/
structure Holdoff where
  name : EventName
  source : Nat
  until_ : Nat
  sent : Nat
  current : Nat
deriving DecidableEq, Repr

/-- CHAIN_OWNER (Table 18-18). -/
inductive ChainOwner where
  | collar | collarBusy | external
deriving DecidableEq, Repr

/-- The SPDM connection of one responder (R379). -/
structure Spdm where
  version : Bool
  algorithms : Bool
deriving DecidableEq, Repr

/-- What the Collar holds of the last time the Yoke was powered (R379): image digests of components 2 to 5, the fingerprint digest and
the record that it was computed from, the feature level. -/
structure Held where
  images : List (Nat × List Byte)
  digest : List Byte
  record : List Byte
  level : Nat
deriving DecidableEq, Repr

/-- The Collar and the fingerprint engine. `scanned` is whether a scan has destroyed logic state since cold reset (R391). -/
structure Mgmt where
  serviceCtrl : BitVec 32
  expert : BitVec 32
  debugLocked : Bool
  testMode : Bool
  scanned : Bool
  strap : Bool
  chain : ChainOwner
  tagBytes : List Host.Cell
  tagLocked : Bool
  tagWrites : BitVec 16
  firmware : List (Nat × Firmware)
  revoked : BitVec 4
  recovery : Bool
  mctp : Spdm
  doe : Spdm
  holdoffs : List Holdoff
  digest : List Byte
  valid : Bool
  busy : Bool
  unstable : Bool
  computations : BitVec 8
  recordBytes : BitVec 18
  record : List Byte
  gen : BitVec 32
  genDone : BitVec 32
  fprintCtrl : BitVec 32
  held : Option Held
deriving DecidableEq, Repr

def Mgmt.reset : Mgmt :=
  { serviceCtrl := 7, expert := 5, debugLocked := false, testMode := false, scanned := false, strap := false, chain := .collar, tagBytes := [],
    tagLocked := false, tagWrites := 0, firmware := [], revoked := 0, recovery := false, mctp := ⟨false, false⟩,
    doe := ⟨false, false⟩, holdoffs := [], digest := List.replicate 64 0, valid := false, busy := false, unstable := false,
    computations := 0, recordBytes := 0, record := [], gen := 0, genDone := 0, fprintCtrl := 1, held := none }

/-! ### What the device put out -/

/-- What an access of the test chain returns: nothing, bytes, whether a package repair succeeded, a Panel's instruments (each column's
remap entries and retired pages in the repair log, and its failing rows), or a Cuff's (each channel's failing rows). -/
inductive ChainResult where
  | none
  | content (data : List Byte)
  | repaired (done : Bool)
  | panel (columns : List (Nat × List RemapEntry × List Nat × List (Nat × Nat)))
  | cuff (channels : List (Nat × List Nat))
deriving DecidableEq, Repr

/-- An answer to a read, a configuration request or a management command. -/
inductive Answer where
  | setup (offset : Nat) (data : List Byte)
  | bar4 (addr : Nat) (data : List Byte)
  | config (offset : Nat) (data : Option Word)
  | command (code : Nat) (accepted : Bool) (data : List Byte)
  | unavailable (code : Nat)
  | spdm (request : Nat) (accepted : Bool) (data : List Byte)
  | busy (request : Nat)
  | firmware (component : Nat) (verified : Bool)
  | chain (accepted : Bool) (result : ChainResult)
deriving DecidableEq, Repr

/-- What the device wrote to host memory; the writes that it sent there, each with its address, its bytes and its relaxed-ordering attribute
(R310); the host address at which it last read a descriptor (R301); the events it sent, with the Panel and the values that each
RESISTANCE_WARN names (R353), the MSI-X vectors it signalled and its answers; the lists newest first. -/
structure Outputs where
  hostMem : List Host.Cell
  writes : List (Nat × Nat × Bool)
  fetchAt : Nat
  events : List Event
  thetas : List (Nat × Ratio × Ratio)
  msix : List Nat
  answers : List Answer
deriving DecidableEq, Repr

def Outputs.reset : Outputs := ⟨[], [], 0, [], [], [], []⟩

end Sys2Proof.Machine
end

