-- ==== Sys2Proof/Syntax.lean ====
section
/-!
DEFINITION. The commands of the module: one constructor per row of spec/opcode_table.json, in the order of the table. A row of
a roster slot names the core whose next word holds that operation; the other rows name the unit, ring or register that they
act on and carry what the module reads from its surroundings (log entries 4, 5 and 7).
-/

namespace Sys2Proof

/-- The commands. -/
inductive Instr where
  /-- NOP, R72. -/
  | nop (n : CoreId)
  /-- END, R42. -/
  | endRoster (n : CoreId)
  /-- LAP_MARK, R70. -/
  | lapMark (n : CoreId)
  /-- PRIVATE_BEGIN, R62. -/
  | privateBegin (n : CoreId)
  /-- PRIVATE_END, R62. -/
  | privateEnd (n : CoreId)
  /-- STEP_MARK, R208. -/
  | stepMark (n : CoreId)
  /-- WAIT, R75. -/
  | wait (n : CoreId) (u : Machine.UnitCode) (count : BitVec 16)
  /-- LOOP, R81. -/
  | loop (n : CoreId) (count : BitVec 12) (body : BitVec 14)
  /-- LOOPR, R81. -/
  | loopr (n : CoreId) (sa : RegId) (body : BitVec 14)
  /-- JMP, R81. -/
  | jmp (n : CoreId) (off : BitVec 16)
  /-- BEQ, R81. -/
  | beq (n : CoreId) (sa sb : RegId) (off : BitVec 16)
  /-- BNE, R81. -/
  | bne (n : CoreId) (sa sb : RegId) (off : BitVec 16)
  /-- BLT, R81. -/
  | blt (n : CoreId) (sa sb : RegId) (off : BitVec 16)
  /-- BGE, R81. -/
  | bge (n : CoreId) (sa sb : RegId) (off : BitVec 16)
  /-- BLTU, R81. -/
  | bltu (n : CoreId) (sa sb : RegId) (off : BitVec 16)
  /-- BGEU, R81. -/
  | bgeu (n : CoreId) (sa sb : RegId) (off : BitVec 16)
  /-- ADD, R74. -/
  | add (n : CoreId) (sd sa sb : RegId)
  /-- SUB, R74. -/
  | sub (n : CoreId) (sd sa sb : RegId)
  /-- AND, R74. -/
  | and (n : CoreId) (sd sa sb : RegId)
  /-- OR, R74. -/
  | or (n : CoreId) (sd sa sb : RegId)
  /-- XOR, R74. -/
  | xor (n : CoreId) (sd sa sb : RegId)
  /-- SHL, R74. -/
  | shl (n : CoreId) (sd sa sb : RegId)
  /-- SHR, R74. -/
  | shr (n : CoreId) (sd sa sb : RegId)
  /-- SRA, R74. -/
  | sra (n : CoreId) (sd sa sb : RegId)
  /-- MUL, R74. -/
  | mul (n : CoreId) (sd sa sb : RegId)
  /-- MULHU, R74. -/
  | mulhu (n : CoreId) (sd sa sb : RegId)
  /-- SLT, R74. -/
  | slt (n : CoreId) (sd sa sb : RegId)
  /-- SLTU, R74. -/
  | sltu (n : CoreId) (sd sa sb : RegId)
  /-- ADDI, R74. -/
  | addi (n : CoreId) (sd sa : RegId) (imm : BitVec 16)
  /-- ANDI, R74. -/
  | andi (n : CoreId) (sd sa : RegId) (imm : BitVec 16)
  /-- ORI, R74. -/
  | ori (n : CoreId) (sd sa : RegId) (imm : BitVec 16)
  /-- XORI, R74. -/
  | xori (n : CoreId) (sd sa : RegId) (imm : BitVec 16)
  /-- SHLI, R74. -/
  | shli (n : CoreId) (sd sa : RegId) (imm : BitVec 16)
  /-- SHRI, R74. -/
  | shri (n : CoreId) (sd sa : RegId) (imm : BitVec 16)
  /-- SRAI, R74. -/
  | srai (n : CoreId) (sd sa : RegId) (imm : BitVec 16)
  /-- LIH, R74. -/
  | lih (n : CoreId) (sd : RegId) (q : BitVec 2) (imm : BitVec 16)
  /-- LDW, R74. -/
  | ldw (n : CoreId) (sd sa : RegId) (imm : BitVec 16)
  /-- LDD, R74. -/
  | ldd (n : CoreId) (sd sa : RegId) (imm : BitVec 16)
  /-- STW, R74. -/
  | stw (n : CoreId) (sd sa : RegId) (imm : BitVec 16)
  /-- STD, R74. -/
  | std (n : CoreId) (sd sa : RegId) (imm : BitVec 16)
  /-- PAT_LOAD, R80. -/
  | patLoad (n : CoreId) (sa : RegId) (first number : BitVec 8)
  /-- RDCTR, R82. -/
  | rdctr (n : CoreId) (sd : RegId) (counter : BitVec 16)
  /-- MOVE_IN, R127. -/
  | moveIn (n : CoreId) (tl sy : Bool) (sa : RegId) (patS patF : BitVec 8)
  /-- MOVE_OUT, R127. -/
  | moveOut (n : CoreId) (tl sy : Bool) (sa : RegId) (patS patF : BitVec 8)
  /-- MOVE_REMOTE, R214. -/
  | moveRemote (n : CoreId) (tl sy : Bool) (sa : RegId) (patS : BitVec 8) (win : BitVec 4)
  /-- CREDIT_TAKE, R213. -/
  | creditTake (n : CoreId) (tl sy : Bool) (sa : RegId) (win : BitVec 4)
  /-- CREDIT_GIVE, R213. -/
  | creditGive (n : CoreId) (tl sy : Bool) (sa : RegId) (win : BitVec 4)
  /-- TURN_END, R46. -/
  | turnEnd (n : CoreId) (sa : RegId) (cls : BitVec 8)
  /-- FETCH_ROSTER, R85. -/
  | fetchRoster (n : CoreId) (tl sy : Bool) (sa : RegId) (block : BitVec 4)
  /-- ATOMIC_ADD, R273. -/
  | atomicAdd (n : CoreId) (tl sy : Bool) (sa : RegId) (patS patF : BitVec 8)
  /-- NEAR_OP, R267. -/
  | nearOp (n : CoreId) (tl sy : Bool) (sa : RegId) (patS : BitVec 8)
  /-- BANK_OFF, R234. -/
  | bankOff (n : CoreId) (tl sy : Bool) (sa : RegId)
  /-- REGION_ON, R90. -/
  | regionOn (n : CoreId) (sy : Bool) (mask : BitVec 4)
  /-- REGION_OFF, R92. -/
  | regionOff (n : CoreId) (sy : Bool) (mask : BitVec 4)
  /-- ARR_WLOAD, R95. -/
  | arrWload (n : CoreId) (sy : Bool) (x : BitVec 8) (packed : Bool)
  /-- ARR_PASS, R96. -/
  | arrPass (n : CoreId) (sy : Bool) (x y : BitVec 8) (acc : Bool)
  /-- ARR_GCFG, R105. -/
  | arrGcfg (n : CoreId) (threshold : BitVec 6) (timeout : BitVec 14)
  /-- ARR_GATHER, R106. -/
  | arrGather (n : CoreId) (sy : Bool) (x y : BitVec 8)
  /-- ATT_MODE, R152. -/
  | attMode (n : CoreId) (sy : Bool) (x : BitVec 8)
  /-- ATT_Q, R156. -/
  | attQ (n : CoreId) (sy : Bool) (x y : BitVec 8)
  /-- ATT_KV, R158. -/
  | attKv (n : CoreId) (sy : Bool) (x y : BitVec 8)
  /-- ATT_WALK, R189. -/
  | attWalk (n : CoreId) (sy : Bool) (x : BitVec 8)
  /-- ATT_OUT, R167. -/
  | attOut (n : CoreId) (sy : Bool) (x y : BitVec 8)
  /-- VLD, R145. -/
  | vld (n : CoreId) (sy bf : Bool) (vd : RegId) (pat : BitVec 8)
  /-- VST, R129. -/
  | vst (n : CoreId) (sy bf : Bool) (va : RegId) (pat : BitVec 8)
  /-- VADD, R138. -/
  | vadd (n : CoreId) (sy bf : Bool) (vd va vb : RegId)
  /-- VSUB, R138. -/
  | vsub (n : CoreId) (sy bf : Bool) (vd va vb : RegId)
  /-- VMUL, R138. -/
  | vmul (n : CoreId) (sy bf : Bool) (vd va vb : RegId)
  /-- VFMA, R138. -/
  | vfma (n : CoreId) (sy bf : Bool) (vd va vb vc : RegId)
  /-- VMAX, R140. -/
  | vmax (n : CoreId) (sy bf : Bool) (vd va vb : RegId)
  /-- VMIN, R140. -/
  | vmin (n : CoreId) (sy bf : Bool) (vd va vb : RegId)
  /-- VSF, R141. -/
  | vsf (n : CoreId) (sy bf : Bool) (vd va : RegId) (fn : BitVec 4)
  /-- VTBL, R143. -/
  | vtbl (n : CoreId) (sy bf : Bool) (vd va : RegId) (fn : BitVec 4)
  /-- VRED, R144. -/
  | vred (n : CoreId) (sy bf : Bool) (vd va : RegId) (fn : BitVec 4)
  /-- VCVT, R132. -/
  | vcvt (n : CoreId) (sy bf : Bool) (vd va : RegId) (fn : BitVec 4)
  /-- VCMP, R140. -/
  | vcmp (n : CoreId) (sy bf : Bool) (vd va vb : RegId) (fn : BitVec 4)
  /-- VSEL, R140. -/
  | vsel (n : CoreId) (sy bf : Bool) (vd va vb vc : RegId)
  /-- VSPLAT, R145. -/
  | vsplat (n : CoreId) (sy bf : Bool) (vd sa : RegId) (fn : BitVec 4)
  /-- VTLOAD, R142. -/
  | vtload (n : CoreId) (sy bf : Bool) (pat : BitVec 8)
  /-- VECTOR_DISPATCH, R136. -/
  | vectorDispatch (n : CoreId)
  /-- ARRAY_FRONT_START, R100. -/
  | arrayFrontStart (n : CoreId)
  /-- ARRAY_PASS_START, R100. -/
  | arrayPassStart (n : CoreId)
  /-- ARRAY_PASS_END, R100. -/
  | arrayPassEnd (n : CoreId)
  /-- GATHER_TIMEOUT, R107. -/
  | gatherTimeout (n : CoreId)
  /-- ATT_SCORE_STAGE, R171. -/
  | attScoreStage (n : CoreId)
  /-- ATT_VALUE_STAGE, R171. -/
  | attValueStage (n : CoreId)
  /-- WALK_SCORE_COMMAND, R189. -/
  | walkScoreCommand (n : CoreId) (k : CuffId)
  /-- WALK_MERGE, R189. -/
  | walkMerge (n : CoreId)
  /-- WALK_RETIRE, R195. -/
  | walkRetire (n : CoreId)
  /-- STEP_REEXECUTION, R210. -/
  | stepReexecution (n : CoreId)
  /-- BANK_RETIRE, R212. -/
  | bankRetire (n : CoreId) (selfTest : Bool)
  /-- TAKE, R213. -/
  | take (target taker : CoreId) (window : BitVec 4) (upset : BitVec 128)
  /-- GRANT, R213. -/
  | grant (target taker : CoreId) (window : BitVec 4) (upset : BitVec 128)
  /-- REFUSE, R213. -/
  | refuse (target taker : CoreId) (window : BitVec 4) (upset : BitVec 128)
  /-- GIVE, R213. -/
  | give (target giver : CoreId) (window : BitVec 4) (upset : BitVec 128)
  /-- WRITE, R215. -/
  | write (target sender : CoreId) (window : BitVec 4) (upset : BitVec 128)
  /-- OWNER_REQUEST, R46. -/
  | ownerRequest (cls inst owner : Nat) (walk : Bool)
  /-- HOST_OPENING, R52. -/
  | hostOpening (cls inst : Nat)
  /-- REFRESH_OPENING, R53. -/
  | refreshOpening (cls inst : Nat)
  /-- SWITCH_ON_OPENING, R52. -/
  | switchOnOpening (n : CoreId)
  /-- REGION_RAMP_END, R325. -/
  | regionRampEnd (n : CoreId)
  /-- SCRUB_OPENING, R229. -/
  | scrubOpening (cls inst : Nat)
  /-- LOG_OPENING, R369. -/
  | logOpening (cls inst : Nat)
  /-- RING_BOUNDARY, R43. -/
  | ringBoundary (cls inst : Nat)
  /-- TURN_STALL, R64. -/
  | turnStall (cls inst : Nat)
  /-- POCKET_REFRESH_DUE, R53. -/
  | pocketRefreshDue (due : ColumnRefresh)
  /-- CUFF_REFRESH_DUE, R256. -/
  | cuffRefreshDue (k : CuffId) (due : ChannelRefresh)
  /-- SCRUB_PASS_END, R228. -/
  | scrubPassEnd (wrote : HostWrite)
  /-- PACKAGE_TEMP_READ, R255. -/
  | packageTempRead (k : CuffId) (pkg : Fin 5) (reading : TempField)
  /-- CUFF_LINK_FLIT, R252. -/
  | cuffLinkFlit (k : CuffId) (flit : LinkFlit) (crc : Word)
  /-- LINK_LANE_TEST, R253. -/
  | linkLaneTest (k : CuffId) (low high : Bool)
  /-- RETRAIN_TRIGGER, R261. -/
  | retrainTrigger (k : CuffId) (slot : Fin 16) (drift : Bool)
  /-- RETRAIN_START, R262. -/
  | retrainStart (k : CuffId) (passes : Bool)
  /-- CHANNEL_DEAD, R265. -/
  | channelDead (k : CuffId) (slot : Fin 16)
  /-- NEAR_OP_COMMAND, R267. -/
  | nearOpCommand (k : CuffId)
  /-- CUFF_BUS_TRANSFER, R275. -/
  | cuffBusTransfer (k : CuffId) (resends : Nat)
  /-- DATA, R282. -/
  | data (flit : SeamFlit)
  /-- IDLE, R282. -/
  | idle (flit : SeamFlit)
  /-- ACK, R282. -/
  | ack (flit : SeamFlit)
  /-- NAK, R282. -/
  | nak (flit : SeamFlit)
  /-- TIME_SYNC, R38. -/
  | timeSync (flit : SeamFlit)
  /-- TRAIN, R286. -/
  | train (flit : SeamFlit)
  /-- SEAM_PORT_RETIRE, R283. -/
  | seamPortRetire (port : PortId) (module : Fin 16) (cause : RetireCause)
  /-- STROBE_LOSS, R283. -/
  | strobeLoss (port : PortId) (module : Fin 16)
  /-- SEAM_PLL_LOSS, R284. -/
  | seamPllLoss (p : PanelId)
  /-- PANEL_REJOIN, R286. -/
  | panelRejoin (p : PanelId) (port0 port1 : List PortTraining) (level : BitVec 2) (failed : List (CoreId × Bool))
  /-- FENCE_MARKER, R196. -/
  | fenceMarker (p : PanelId)
  /-- REF_LOSS, R39. -/
  | refLoss
  /-- BEAT_RATE_WINDOW, R33. -/
  | beatRateWindow (n : CoreId) (beats : Nat)
  /-- BAR4_READ, R299. -/
  | bar4Read (off : Nat) (len : Nat)
  /-- BAR4_WRITE, R299. -/
  | bar4Write (off : Nat) (bytes : List Byte) (poisoned : Bool) (env : WriteEnv)
  /-- BAR4_TIMEOUT, R300. -/
  | bar4Timeout
  /-- SQ_TAIL, R302. -/
  | sqTail (q : RingQ) (off : BitVec 12) (value : Word) (width : Nat)
  /-- CQ_HEAD, R302. -/
  | cqHead (q : RingQ) (value : Word) (width : Nat)
  /-- DESCRIPTOR_FETCH, R304. -/
  | descriptorFetch (q : RingQ) (read : HostRead)
  /-- DESCRIPTOR_START, R312. -/
  | descriptorStart (q : RingQ) (index : BitVec 16)
  /-- COPY, R306. -/
  | copy (q : RingQ) (index : BitVec 16) (read : HostRead) (wrote : HostWrite)
  /-- LOAD_ROSTER, R308. -/
  | loadRoster (q : RingQ) (index : BitVec 16) (read : HostRead)
  /-- LAUNCH, R309. -/
  | launch (q : RingQ) (index : BitVec 16) (read : HostRead)
  /-- FENCE, R311. -/
  | fence (q : RingQ) (index : BitVec 16)
  /-- PAGE_RELEASE_FENCE, R196. -/
  | pageReleaseFence (q : RingQ) (index : BitVec 16)
  /-- SCRUB, R228. -/
  | scrub (q : RingQ) (index : BitVec 16)
  /-- CONFIG_FINGERPRINT, R386. -/
  | configFingerprint (q : RingQ) (index : BitVec 16) (unstable : Bool) (wrote : HostWrite)
  /-- SET_POWER_CAP, R330. -/
  | setPowerCap (q : RingQ) (index : BitVec 16)
  /-- FOLD, R338. -/
  | fold (q : RingQ) (index : BitVec 16)
  /-- DRAIN, R316. -/
  | drain (q : RingQ) (index : BitVec 16)
  /-- HALT, R317. -/
  | halt (q : RingQ) (index : BitVec 16)
  /-- TAG_WRITE, R382. -/
  | tagWrite (q : RingQ) (index : BitVec 16) (read : HostRead)
  /-- CAP_REMAP, R266. -/
  | capRemap (q : RingQ) (index : BitVec 16)
  /-- NOP_DESCRIPTOR, R305. -/
  | nopDescriptor (q : RingQ) (index : BitVec 16)
  /-- MSIX_COALESCE_TIMEOUT, R315. -/
  | msixCoalesceTimeout (q : RingQ)
  /-- HOST_RESET, R334. -/
  | hostReset (kind : HostResetKind)
  /-- FUNCTION_LEVEL_RESET, R334. -/
  | functionLevelReset
  /-- POWER_ON, R336. -/
  | powerOn (source : PowerSource)
  /-- POWER_STAGE_ENABLE, R336. -/
  | powerStageEnable (report : StartupReport)
  /-- INPUT_EXCURSION, R320. -/
  | inputExcursion
  /-- INPUT_FAULT_RECOVERY, R320. -/
  | inputFaultRecovery
  /-- FEED_SWITCH_TRIP, R321. -/
  | feedSwitchTrip (p : PanelId)
  /-- UNDERVOLTAGE_GATE, R323. -/
  | undervoltageGate (n : CoreId) (mv : BitVec 10)
  /-- GATE_TIMEOUT, R323. -/
  | gateTimeout (n : CoreId) (selfTest : Bool)
  /-- TILE_FAIL, R326. -/
  | tileFail (site : TileSite) (selfTest : Bool)
  /-- CAP_PERIOD, R331. -/
  | capPeriod (watts volts : BitVec 16)
  /-- BUMP_CHECK, R329. -/
  | bumpCheck (drops : List BumpDrop)
  /-- SENSOR_SAMPLE, R344. -/
  | sensorSample (key : Nat) (reading : Option Int)
  /-- LIMIT_EXCURSION, R347. -/
  | limitExcursion (watts : Nat)
  /-- THERMAL_CAP_COMPUTE, R352. -/
  | thermalCapCompute (powers : List Nat) (watts : Nat)
  /-- FLOW_SAMPLE, R354. -/
  | flowSample (reading : Option Nat)
  /-- COMPARATOR_TRIP, R349. -/
  | comparatorTrip (diode : Fin 36) (peak : BitVec 8) (collarMs : Nat)
  /-- THERMAL_RESTART, R350. -/
  | thermalRestart (collarMs : Nat)
  /-- CYCLE_SAMPLE, R355. -/
  | cycleSample
  /-- COALESCE_HOLD_END, R367. -/
  | coalesceHoldEnd (group : Fin 23) (cls : Byte) (location : BitVec 12) (detail : BitVec 48)
  /-- EVENT_HOLDOFF_END, R374. -/
  | eventHoldoffEnd (name : Machine.EventName) (source : Nat)
  /-- FPRINT_COMPUTE, R385. -/
  | fprintCompute (unstable : Bool)
  /-- REG_READ, R375. -/
  | regRead (off : BitVec 28)
  /-- REG_WRITE, R375. -/
  | regWrite (off : BitVec 28) (value : Word) (env : WriteEnv)
  /-- COLD_RESET, R333. -/
  | coldReset
  /-- PANEL_RESET, R335. -/
  | panelReset (p : PanelId)
  /-- PANEL_CYCLE, R335. -/
  | panelCycle (p : PanelId)
  /-- RESTART, R350. -/
  | restart
  /-- WAKE, R340. -/
  | wake
  /-- RECALIBRATE, R329. -/
  | recalibrate (scope : BitVec 2) (drops : List BumpDrop)
  /-- TAG_WRITE_COMMAND, R382. -/
  | tagWriteCommand (off : BitVec 12) (bytes : List Byte)
  /-- TAG_LOCK, R382. -/
  | tagLock
  /-- TAG_UNLOCK, R382. -/
  | tagUnlock (strap : Bool)
  /-- FPRINT_READ, R386. -/
  | fprintRead (off : Option Nat) (unstable : Bool)
  /-- CHAIN_OP, R390. -/
  | chainOp (access : ChainAccess)
  /-- TEST_MODE, R391. -/
  | testMode (strap : Bool)
  /-- DEBUG_LOCK, R392. -/
  | debugLock (strap : Bool)
  /-- PLDM_FIRMWARE_UPDATE, R377. -/
  | pldmFirmwareUpdate (image : FirmwareImage)
  /-- GET_VERSION, R379. -/
  | getVersion (t : Transport)
  /-- GET_CAPABILITIES, R379. -/
  | getCapabilities (t : Transport)
  /-- NEGOTIATE_ALGORITHMS, R379. -/
  | negotiateAlgorithms (t : Transport)
  /-- GET_DIGESTS, R379. -/
  | getDigests (t : Transport)
  /-- GET_CERTIFICATE, R379. -/
  | getCertificate (t : Transport) (slot : Fin 8)
  /-- CHALLENGE, R379. -/
  | challenge (t : Transport) (slot : Fin 8) (nonce : List Byte)
  /-- GET_MEASUREMENTS, R379. -/
  | getMeasurements (t : Transport) (slot : Fin 8) (block : Byte) (nonce : List Byte)
  /-- EXTERNAL_CHAIN_TAKE, R388. -/
  | externalChainTake (strap : Bool)
  /-- CHAIN_ACCESS, R389. -/
  | chainAccess (access : ChainAccess)
  /-- YK_EXPERT_ENABLE, R9. -/
  | ykExpertEnable (path : Path) (value : Word)
  /-- CO_ROSTER_FAULT, R59. -/
  | coRosterFault (path : Path) (n : CoreId) (value : Word)
  /-- YK_DMA_STATUS, R291. -/
  | ykDmaStatus (path : Path) (value : Word)
  /-- CF_RETRAIN, R261. -/
  | cfRetrain (path : Path) (k : CuffId) (value : Word)
  /-- YK_PANEL_REJOIN, R286. -/
  | ykPanelRejoin (path : Path) (value : Word) (env : WriteEnv)
  /-- YK_CORE_DARKEN, R361. -/
  | ykCoreDarken (path : Path) (value : Word) (env : WriteEnv)
  /-- PW_FOLD, R340. -/
  | pwFold (path : Path) (value : Word)
  /-- RESET_PANEL, R335. -/
  | resetPanel (path : Path) (value : Word)
  /-- CYCLE_PANEL, R335. -/
  | cyclePanel (path : Path) (value : Word)
  /-- CO_MIN_VOLT, R328. -/
  | coMinVolt (path : Path) (n : CoreId) (value : Word)
  /-- CL_TAG_CTRL, R382. -/
  | clTagCtrl (path : Path) (value : Word)
  /-- SQ_ENABLE, R301. -/
  | sqEnable (path : Path) (q : RingQ) (value : Word)
  /-- SQ_RESUME, R301. -/
  | sqResume (path : Path) (q : RingQ) (value : Word)
  /-- CQ_ENABLE, R301. -/
  | cqEnable (path : Path) (q : RingQ) (value : Word)
  /-- LOG_ENABLE, R370. -/
  | logEnable (path : Path) (value : Word)
  /-- YK_LOG_HEAD, R370. -/
  | ykLogHead (path : Path) (value : Word)
  /-- YK_BAR4_WINDOW, R299. -/
  | ykBar4Window (path : Path) (value : Word)
  /-- YK_TIMEBASE_LO, R40. -/
  | ykTimebaseLo (path : Path)
  /-- CO_BEAT_COUNT_LO, R34. -/
  | coBeatCountLo (path : Path) (n : CoreId)
  /-- CO_MIN_VOLT_NS_LO, R328. -/
  | coMinVoltNsLo (path : Path) (n : CoreId)
  /-- YK_FPRINT0, R386. -/
  | ykFprint0 (path : Path)
  /-- CO_ROSTER_REGION, R67. -/
  | coRosterRegion (path : Path) (n : CoreId) (value : Word)
  /-- CO_CREDIT_WIN, R216. -/
  | coCreditWin (path : Path) (n : CoreId) (w : Fin 16) (value : Word)
  /-- SETUP_REGISTER_WRITE, R7. -/
  | setupRegisterWrite (path : Path) (off : BitVec 28) (width : Nat) (value : DWord) (env : WriteEnv)
  /-- ILLEGAL_WORD, R86, R87. -/
  | illegalWord (word : ReachedWord)
  /-- SETUP_REGISTER_READ, R5. -/
  | setupRegisterRead (path : Path) (off : BitVec 28) (width : Nat)
  /-- PERST_DEASSERTION, R340. -/
  | perstDeassertion
  /-- PCIE_LINK_TRAINING, R296. -/
  | pcieLinkTraining (lanes16 lanes8 lanes4 : Bool) (rate : Fin 7)
  /-- CONFIGURATION_REQUEST, R337. -/
  | configurationRequest (off : BitVec 12) (write : Option Word)
  /-- LOSS_OF_STANDBY_POWER, R355. -/
  | lossOfStandbyPower
deriving DecidableEq, Repr

end Sys2Proof
end

