-- ==== Sys2Proof/Decode.lean ====
section
/-!
DEFINITION. Command words: spec/opcode_table.json gives no row any bits, so no word spells a command (log entry 8). The 128-bit
roster words that cores fetch are decoded in Machine/RosterWord.lean.
-/

namespace Sys2Proof

/-- The command that a word spells by the table's bits: none. -/
def decodeTableWord (_nbits _w : Nat) : Option Instr := none

end Sys2Proof
end

