-- ==== Sys2Proof/Machine/ArrayMath.lean ====
section
/-!
DEFINITION. The arithmetic of the matrix array as pure functions: rate classes (R94), pairings (R121), weight rows with 2:4
packing (R103, R104), the accumulations of R122 to R125 and result writing (R126).
-/

namespace Sys2Proof.Machine

/-- W_f of Table 05-3 by weight format, dense; 2:4 packing doubles it (R94). -/
def segmentInputs (f : Format) (packed : Bool) : Nat :=
  let w := match f with
    | .t2 => 256
    | .mxfp4 | .mxint4 | .int4 => 128
    | _ => 64
  if packed then 2 * w else w

/-- b_f of Table 05-3 by weight format. -/
def segmentBeats : Format → Nat
  | .bf16 | .fp16 => 2
  | _ => 1

/-- The eight-bit and six-bit microscaling floating formats. -/
def isMx8 : Format → Bool
  | .mxfp8e4m3 | .mxfp8e5m2 | .mxfp6e2m3 | .mxfp6e3m2 => true
  | _ => false

/-- Table 06-7: weight formats of the array. -/
def weightFormat : Format → Bool
  | .raw | .fp32 | .int32 => false
  | _ => true

/-- Table 06-7: which activations pair with which weights. -/
def pairs (w a : Format) : Bool :=
  match w with
  | .t2 => a == .mxfp8e4m3 || a == .int8
  | .raw | .fp32 | .int32 => false
  | w => w == a || (isMx8 w && isMx8 a)

/-- Table 06-7: which result formats a weight format permits. -/
def resultFormat (w y : Format) : Bool :=
  match w with
  | .int4 | .int8 => y == .int32
  | .fp16 => y == .fp32 || y == .fp16
  | _ => y == .fp32 || y == .bf16

/-- Bytes of one packed run of `k` logical weights (R103). -/
def packedRunBytes (f : Format) (k : Nat) : Nat :=
  elemBytes f (k / 2) + (if fmtScaled f then k / 32 else 0) + k / 8

/-- Bytes of one run of a weight pattern. -/
def weightRunBytes (f : Format) (packed : Bool) (k : Nat) : Nat :=
  if packed then packedRunBytes f k else runBytes f k

/-- One group of four logical weights (R103, R104): metadata nibble and two stored values. -/
def unpackGroup (nib : Nat) (v0 v1 : FVal) : List (Option FVal) :=
  let i0 := nib % 4
  let i1 := nib / 4 % 4
  if i0 < i1 then
    (List.range 4).map fun i => if i = i0 then some v0 else if i = i1 then some v1 else none
  else List.replicate 4 (some (.fin false 0 0))

/-- The logical weights of a packed run. -/
def unpackGroups (vals : List FVal) (nibs : List Nat) : List (Option FVal) :=
  match vals, nibs with
  | a :: b :: r, n :: t => unpackGroup n a b ++ unpackGroups r t
  | _, _ => []

/-- The metadata nibbles of a packed run, group by group. -/
def metaNibbles (bytes : List Byte) : List Nat :=
  bytes.flatMap fun b => [b.toNat % 16, b.toNat / 16]

/-- A malformed group: i0 ≥ i1 (R104). -/
def malformed (nib : Nat) : Bool := decide (nib / 4 % 4 ≤ nib % 4)

/-- One weight row read from its run, with its malformed groups and T2 reserved codes (R103, R104, R119). -/
def decodeWeights (f : Format) (packed : Bool) (k : Nat) (bytes : List Byte) : WeightRow × Nat × Nat :=
  if packed then
    let stored := k / 2
    let eb := elemBytes f stored
    let sb := if fmtScaled f then k / 32 else 0
    let nibs := metaNibbles ((bytes.drop (eb + sb)).take (k / 8))
    let vals := (unpackCodes (fmtWidth f) stored (leNat (bytes.take eb))).map (elemValue f)
    (⟨unpackGroups vals nibs, (bytes.drop eb).take sb⟩, (nibs.filter malformed).length,
     if f = .t2 then t2Reserved stored bytes else 0)
  else
    let d := decodeRun f k bytes
    (⟨d.elems.map some, d.scales⟩, 0, if f = .t2 then t2Reserved k bytes else 0)

/-- The exact sum of the products of one block (R122, R125); +0 where every product is −0 (DESIGN CHOICE, log entry 56). -/
def blockSum (ws : List (Option FVal)) (as : List FVal) : FVal :=
  match ws, as with
  | some w :: r, a :: t => fvAdd (fvMul a w) (blockSum r t)
  | none :: r, _ :: t => blockSum r t
  | _, _ => .fin false 0 0

/-- acc ← round_fp32(acc + x). -/
def accFp32 (acc : Word) (x : FVal) : Word := roundFp32 (fvAdd (ofFp32 acc) x)

/-- R122: block sums of 32 inputs scaled and accumulated in ascending order, each addition rounded once. -/
def dotScaled (n : Nat) (ws : List (Option FVal)) (as : List FVal) (sw sa : List FVal) (acc : Word) : Word :=
  match n with
  | 0 => acc
  | k + 1 =>
    let s := fvMul (fvMul (sw.headD (.fin false 1 0)) (sa.headD (.fin false 1 0))) (blockSum (ws.take 32) (as.take 32))
    dotScaled k (ws.drop 32) (as.drop 32) (sw.drop 1) (sa.drop 1) (accFp32 acc s)

/-- R123: products accumulated one by one. -/
def dotPlain (ws : List (Option FVal)) (as : List FVal) (acc : Word) : Word :=
  match ws, as with
  | some w :: r, a :: t => dotPlain r t (accFp32 acc (fvMul a w))
  | none :: r, _ :: t => dotPlain r t acc
  | _, _ => acc

/-- The integer that a finite value holds. -/
def fvInt : FVal → Int
  | .fin s m e => fvRoundInt s m e
  | _ => 0

/-- An INT32 addition that saturates (R124). -/
def satInt32 (n : Int) : Int × Bool := clampInt (-(2 ^ 31 : Nat)) ((2 ^ 31 : Nat) - 1) n

/-- R124: exact block sums added to an INT32 accumulator that saturates; the count of saturations. -/
def dotInt (n : Nat) (ws : List (Option FVal)) (as : List FVal) (acc : Int) (sats : Nat) : Int × Nat :=
  match n with
  | 0 => (acc, sats)
  | k + 1 =>
    let r := satInt32 (acc + fvInt (blockSum (ws.take 32) (as.take 32)))
    dotInt k (ws.drop 32) (as.drop 32) r.1 (sats + if r.2 then 1 else 0)

/-- One result r of a weight row and an activation row: its FP32 bits, or its INT32 value as bits, and the saturations. -/
def dotRow (wf : Format) (k : Nat) (w : WeightRow) (act : RunData) : Word × Nat :=
  let blocks := (k + 31) / 32
  if fmtInt wf then
    let r := dotInt blocks w.weights act.elems 0 0
    (BitVec.ofInt 32 r.1, r.2)
  else if fmtScaled wf then
    (dotScaled blocks w.weights act.elems (w.scales.map scaleValue) (act.scales.map scaleValue) 0#32, 0)
  else (dotPlain w.weights act.elems 0#32, 0)

/-- Table 06-8: the code written to Y for result r, with y the code that Y held where ACC = 1, and the saturations. -/
def resultCode (yf : Format) (r : Word) (y : Option Nat) : Nat × Nat :=
  match yf, y with
  | .int32, none => (r.toNat, 0)
  | .int32, some c =>
    let s := satInt32 (r.toInt + (BitVec.ofNat 32 c).toInt)
    ((BitVec.ofInt 32 s.1).toNat, if s.2 then 1 else 0)
  | .fp32, none => (r.toNat, 0)
  | .fp32, some c => ((roundFp32 (fvAdd (elemValue .fp32 c) (ofFp32 r))).toNat, 0)
  | .fp16, none => (fpRound Machine.fp16 (ofFp32 r), 0)
  | .fp16, some c => (fpRound Machine.fp16 (ofFp32 (roundFp32 (fvAdd (elemValue .fp16 c) (ofFp32 r)))), 0)
  | .bf16, none => (fpRound Machine.bf16 (ofFp32 r), 0)
  | .bf16, some c => (fpRound Machine.bf16 (ofFp32 (roundFp32 (fvAdd (elemValue .bf16 c) (ofFp32 r)))), 0)
  | _, _ => (0, 0)

/-- Activation rows: the elements and scale bytes of the X runs, cut into rows of `k` elements (R96). -/
def activationRows (k : Nat) (runs : List RunData) : List RunData :=
  let es := runs.flatMap (·.elems)
  let ss := runs.flatMap (·.scales)
  (List.range (es.length / max 1 k)).map fun j =>
    ⟨(es.drop (j * k)).take k, (ss.drop (j * (k / 32))).take (k / 32)⟩

end Sys2Proof.Machine
end

