-- ==== Sys2Proof/Machine/AttentionMath.lean ====
section
/-!
DEFINITION. The attention mode word (Tables 08-4 to 08-6), eligibility (R159) and the arithmetic of the score and value stages
(R161 to R167) as pure functions.
-/

namespace Sys2Proof.Machine

/-- MASK_KIND of Table 08-4. -/
inductive MaskKind where
  | none | causal | sliding | bitmap
deriving DecidableEq, Repr

/-- Table 08-4: MASK_KIND. -/
def maskKind (m : DWord) : MaskKind :=
  match (field m 49 2).toNat with
  | 0 => .none
  | 1 => .causal
  | 2 => .sliding
  | _ => .bitmap

/-- Table 08-5: the query pattern's FORMAT and whether the query is narrowed. -/
def queryFormat (m : DWord) : Option (Format × Bool) :=
  match (field m 61 3).toNat with
  | 0 => some (.bf16, false)
  | 1 => some (.fp16, false)
  | 2 => some (.mxfp8e4m3, false)
  | 3 => some (.mxfp8e5m2, false)
  | 4 => some (.bf16, true)
  | 5 => some (.fp16, true)
  | _ => Option.none

/-- Table 08-6. -/
def kvFormat (code : Nat) : Option Format :=
  match code with
  | 0 => some .bf16
  | 1 => some .fp16
  | 2 => some .mxfp8e4m3
  | 3 => some .mxfp8e5m2
  | 4 => some .mxfp6e2m3
  | 5 => some .mxfp6e3m2
  | 6 => some .mxfp4
  | 7 => some .mxint8
  | 8 => some .mxint4
  | _ => Option.none

/-- K_FORMAT's code. -/
def keyCode (m : DWord) : Nat := (field m 57 4).toNat
/-- V_FORMAT's code. -/
def valueCode (m : DWord) : Nat := (field m 53 4).toNat
/-- The key format; codes 0x4 and 0x5 are reserved at FL1 (R153). -/
def keyFormat (level : Nat) (m : DWord) : Option Format :=
  if level < 2 ∧ (keyCode m = 4 ∨ keyCode m = 5) then Option.none else kvFormat (keyCode m)
/-- The value format. -/
def valueFormat (m : DWord) : Option Format := kvFormat (valueCode m)

/-- OUT_FORMAT of Table 08-4. -/
def outFormat (m : DWord) : Format :=
  match (field m 51 2).toNat with
  | 0 => .fp32
  | 1 => .bf16
  | 2 => .fp16
  | _ => .mxfp8e4m3

/-- RETRIEVAL. -/
def retrieval (m : DWord) : Bool := bit m 48
/-- SCALE_SRC. -/
def scaleSrc (m : DWord) : Nat := (field m 46 2).toNat
/-- Grouping factor G. -/
def groupFactor (m : DWord) : Nat := (field m 43 3).toNat + 1
/-- Head dimension D. -/
def headDim (m : DWord) : Nat := (field m 35 8).toNat + 1
/-- W of SLIDING. -/
def windowTokens (m : DWord) : Nat := ((field m 24 11).toNat + 1) * 64
/-- LOGIT_CAP. -/
def logitCap (m : DWord) : Nat := (field m 16 8).toNat

/-- Elements of a row of dimension D stored in a format (R154). -/
def rowElems (f : Format) (d : Nat) : Nat := if fmtScaled f then (d + 31) / 32 * 32 else d

/-- The mode word itself is in error (Table 08-7, first row; R153). -/
def modeWordError (level : Nat) (m : DWord) : Bool :=
  (queryFormat m).isNone || (keyFormat level m).isNone || (valueFormat m).isNone || scaleSrc m == 3

/-- Position of query row r (R156). -/
def rowPos (m : DWord) (s : Sequence) (r : Nat) : Nat := s.qPos + r / groupFactor m

/-- The bitmap bit of key block b in the row of a query block (R157). -/
def bitmapBit (s : Sequence) (queryBlock b : Nat) : Bool :=
  let row := (s.bitmap[queryBlock - s.qPos / 64]?).getD []
  ((row[b / 8]?).getD 0).getLsbD (b % 8)

/-- R159, Table 08-9. -/
def eligible (m : DWord) (s : Sequence) (k p : Nat) : Bool :=
  match maskKind m with
  | .none => true
  | .causal => decide (k ≤ p)
  | .sliding => decide (k ≤ p) && decide (p < k + windowTokens m)
  | .bitmap =>
    bitmapBit s (p / 64) (k / 64) && decide (k / 64 < s.kBlocks) && (!bit m 24 || decide (k ≤ p))

/-- Whether a key is eligible for any row of the sequence (R160, R170). -/
def eligibleAny (m : DWord) (s : Sequence) (k : Nat) : Bool :=
  (List.range s.rows).any fun r => eligible m s k (rowPos m s r)

/-- The elements of a row that take part in arithmetic, with their values (R154, R161). -/
def rowValues (f : Format) (d : Nat) (r : RunData) : List FVal := (runValues f r).take d

/-- The raw score of R163. -/
def rawScore (d : Nat) (qScaled : Bool) (qf kf : Format) (q key : RunData) : Word :=
  if qScaled && fmtScaled kf then
    dotScaled ((d + 31) / 32) ((key.elems.take d).map some) (q.elems.take d) (key.scales.map scaleValue)
      (q.scales.map scaleValue) 0#32
  else dotPlain ((rowValues kf d key).map some) (rowValues qf d q) 0#32

/-- σ of R163 applied. -/
def scaledScore (m : DWord) (r : Word) : Word :=
  match scaleSrc m with
  | 0 => roundFp32 (fvMul (ofFp32 r) (ofFp32 (roundFp32 (approxRsqrt (headDim m) 0))))
  | 2 => roundFp32 (fvMul (ofFp32 r) (fpDecode bf16 (field m 0 16).toNat))
  | _ => r

/-- The logit cap of R164. -/
def cappedScore (level : Nat) (m : DWord) (x : Word) : Word :=
  let c := logitCap m
  if c = 0 then x
  else
    let inv := roundFp32 (approxRecip false c 0)
    let t := vsfTanh level (roundFp32 (fvMul (ofFp32 x) (ofFp32 inv)))
    roundFp32 (fvMul (.fin false c 0) (ofFp32 t))

/-- The score x_j of a key for a query row. -/
def keyScore (level : Nat) (m : DWord) (qf kf : Format) (q key : RunData) : Word :=
  cappedScore level m (scaledScore m (rawScore (headDim m) (fmtScaled qf) qf kf q key))

/-- round_p of R165. -/
def roundP (vf : Format) (w : Word) : FVal :=
  match vf, ofFp32 w with
  | .bf16, v => fpDecode bf16 (fpRound bf16 v)
  | .fp16, v => fpDecode bf16 (fpRound bf16 v)
  | _, .fin s mag e => fpDecode e4m3 (signBits e4m3 s + fpRoundMag e4m3 mag e)
  | _, v => v

/-- Exact sums are folded before their one rounding. -/
def exactSum (l : List FVal) : FVal := l.foldl fvAdd (.fin false 0 0)

/-- The maximum of the finite scores of a tile, −infinity if none (R165), with −0 below +0 as IEEE 754 and R140 order them
(DEDUCED, log entry 33). -/
def tileMax (xs : List Word) : FVal :=
  xs.foldl (fun a w => match ofFp32 w with
    | .fin s m e => fvMax a (.fin s m e)
    | _ => a) (.inf true)

/-- The update of one row by the eligible keys of one tile (R165, R166). -/
def rowUpdate (level : Nat) (vf : Format) (d : Nat) (xs : List Word) (vals : List (List FVal)) (r : RowState) :
    RowState :=
  if r.poisoned then r
  else if xs.any (fun w => match ofFp32 w with | .nan => true | .inf s => !s | _ => false) then
    { r with poisoned := true }
  else
    let mNew := fvMax (ofFp32 r.m) (tileMax xs)
    match mNew with
    | .inf true => r
    | _ =>
      let alpha := ofFp32 (vsfExp level (roundFp32 (fvAdd (ofFp32 r.m) (fvNeg mNew))))
      let ps := xs.map fun w => roundP vf (vsfExp level (roundFp32 (fvAdd (ofFp32 w) (fvNeg mNew))))
      let scaled (w : Word) : FVal := ofFp32 (roundFp32 (fvMul alpha (ofFp32 w)))
      { m := roundFp32 mNew,
        l := roundFp32 (fvAdd (scaled r.l) (exactSum ps)),
        o := (List.range d).map fun i =>
          roundFp32 (fvAdd (scaled ((r.o[i]?).getD 0#32))
            (exactSum (List.zipWith (fun p v => fvMul p ((v[i]?).getD (.fin false 0 0))) ps vals))),
        poisoned := false }

/-- The row state that ATT_Q sets (R156). -/
def RowState.start : RowState := ⟨negInf, 0#32, List.replicate 256 0#32, false⟩

/-- A finished row before its conversion: element d is O[d] × rcp(l), or +0 where l = +0 (R167). -/
def rowOutput (level : Nat) (d : Nat) (r : RowState) : List Word :=
  if r.l = 0#32 then List.replicate d 0#32
  else
    let inv := ofFp32 (vsfRecip level r.l)
    (List.range d).map fun i => roundFp32 (fvMul (ofFp32 ((r.o[i]?).getD 0#32)) inv)

/-- A row of NaN in the output format (R155, R166, Table 08-10). -/
def nanRow (f : Format) (d : Nat) : List Byte :=
  match f with
  | .fp32 => (List.replicate d (leBytes 4 (canonicalNan Machine.fp32))).flatten
  | .bf16 => (List.replicate d (leBytes 2 (canonicalNan Machine.bf16))).flatten
  | .fp16 => (List.replicate d (leBytes 2 (canonicalNan Machine.fp16))).flatten
  | f => List.replicate (rowElems f d) 0 ++ List.replicate (rowElems f d / 32) 0xFF

/-- A row converted to OUT_FORMAT (R167), a last block filled with zeros. -/
def outRow (f : Format) (d : Nat) (ws : List Word) : StoreResult :=
  encodeRun f (ws ++ List.replicate (rowElems f d - d) 0#32)

/-- A query row narrowed to MXFP8 E4M3 in blocks of 32 dimensions, with its clamps (R156, R130). -/
def narrowRow (vals : List FVal) : RunData × Nat :=
  let padded := vals ++ List.replicate ((32 - vals.length % 32) % 32) (FVal.fin false 0 0)
  let bs := (chunks 32 padded.length padded).map (quantBlock .mxfp8e4m3)
  (⟨bs.flatMap fun b => b.1.map (elemValue .mxfp8e4m3), bs.map (·.2.1)⟩, (bs.map (·.2.2.1)).sum)

end Sys2Proof.Machine
end

