-- ==== Sys2Proof/Machine/Local.lean ====
section
/-!
DEFINITION. What a unit of one core can see and change: its own core, the device memory, the error reports it makes and the
scratchpad clashes it counts. Access patterns (R79), the scratchpad with its parity (R199 to R207), roster faults (R59).
-/

namespace Sys2Proof.Machine

/-- One error report (R364, R367). -/
structure Report where
  cls : BitVec 8
  source : BitVec 8
  location : BitVec 12
  detail : BitVec 48
  aux : BitVec 16
deriving DecidableEq, Repr

/-- What a core reads of the rest of the module: its number, Panel and physical core, the timebase, the feature level, the
active set, the channel list and the populated capacity (R244, R246), and the absent cores (R14, R17),
the lowest lap of the set's rings (R49), the 64-byte units that cannot be read correctly (R221, R251) and the Cuff channels
that do not answer (R254, R265), and whether the CO_ expert registers are in effect (R8). -/
structure CoreEnv where
  n : Nat
  panel : Nat
  phys : Nat
  now : Nat
  level : Nat
  setActive : Bool
  replayable : Bool
  buildId : BitVec 32
  capList : List Nat
  capBytes : Nat
  absent : List Nat
  ports : List (Nat × Nat)
  minRingLap : Nat
  duty : Nat
  badUnits : List Nat
  deadChans : List Nat
  expert : Bool
deriving DecidableEq, Repr

/-- A core with the memory it reaches, what it reports, its scratchpad clashes and the INT32 wraps of its atomic adds. -/
structure Local where
  env : CoreEnv
  core : Core
  mem : List Host.Cell
  reports : List Report
  clashes : Nat
  wraps : Nat
deriving DecidableEq, Repr

/-! ### Access patterns -/

/-- The record's fields (Table 04-7). BASE is a word address for SPACE = 0 and a signed byte offset for SPACE = 1. -/
def decodePattern (r : PatternRecord) : Pattern :=
  let far := bit r 193
  { format := field r 194 8, far := far,
    base := if far then (field r 160 32).toInt else ((field r 160 32).toNat : Int),
    s1 := (field r 64 32).toInt, s2 := (field r 96 32).toInt, s3 := (field r 128 32).toInt,
    n0 := (field r 0 16).toNat + 1, n1 := (field r 16 16).toNat + 1, n2 := (field r 32 16).toNat + 1,
    n3 := (field r 48 16).toNat + 1 }

/-- VALID of a record. -/
def patternValid (r : PatternRecord) : Bool := bit r 192

/-- ADVANCE of a record. -/
def patternAdvance (r : PatternRecord) : BitVec 32 := field r 202 32

/-- Whether the record's reserved bits are zero. -/
def patternReservedZero (r : PatternRecord) : Bool := field r 234 22 == 0

/-- A record after a use: ADVANCE added to BASE (R80). -/
def advancePattern (r : PatternRecord) : PatternRecord :=
  setField r 160 32 (field r 160 32 + patternAdvance r).toNat

/-- The number of runs. -/
def patRunCount (p : Pattern) : Nat := p.n1 * p.n2 * p.n3

/-- The number of elements. -/
def patElems (p : Pattern) : Nat := p.n0 * patRunCount p

/-- The starts of the runs in visiting order, dimension 1 innermost (R79). -/
def patRuns (p : Pattern) : List Int :=
  (List.range p.n3).flatMap fun i3 => (List.range p.n2).flatMap fun i2 => (List.range p.n1).map fun i1 =>
    p.base + i1 * p.s1 + i2 * p.s2 + i3 * p.s3

/-- The format of a pattern whose code is defined; RAW otherwise (a word that names such a pattern is illegal, R111). -/
def patFormat (p : Pattern) : Format := (formatOf p.format).getD .raw

/-- Bytes of one run. -/
def patRunBytes (p : Pattern) : Nat := runBytes (patFormat p) p.n0

/-- Bytes of the whole pattern. -/
def patBytes (p : Pattern) : Nat := patRunBytes p * patRunCount p

/-- The extent of one dimension below and above its start. -/
def dimLow (n : Nat) (s : Int) : Int := min 0 (((n : Int) - 1) * s)
def dimHigh (n : Nat) (s : Int) : Int := max 0 (((n : Int) - 1) * s)

/-- The lowest and highest unit of a pattern, where a run covers `len` units. -/
def patSpan (p : Pattern) (len : Nat) : Int × Int :=
  (p.base + dimLow p.n1 p.s1 + dimLow p.n2 p.s2 + dimLow p.n3 p.s3,
   p.base + dimHigh p.n1 p.s1 + dimHigh p.n2 p.s2 + dimHigh p.n3 p.s3 + len - 1)

/-- The words that a scratchpad pattern spans, scale bytes included (R200, R204). -/
def patWords (p : Pattern) : Int × Int := patSpan p ((patRunBytes p + 3) / 4)

/-- Words in a core's scratchpad (R199). -/
def scratchWords : Nat := 1572864

/-- Words of one bank group (Table 10-1). -/
def groupWords : Nat := 196608

/-- Whether a range of words lies in the scratchpad. -/
def wordsInside (r : Int × Int) : Bool := decide (0 ≤ r.1) && decide (r.2 < (scratchWords : Int))

/-- The bank groups that a span of words meets (R204). -/
def groupsOf (r : Int × Int) : List Nat :=
  (List.range 8).filter fun g =>
    decide (r.1 < ((g + 1) * groupWords : Nat)) && decide (((g * groupWords : Nat) : Int) ≤ r.2)

/-- The logical bank of a word (R199). -/
def bankOf (w : Nat) : Nat := 8 * (w / groupWords) + (w % groupWords) / 16 % 8

/-! ### Device addresses (R21, R199, R217, R244, R245) -/

def pocketSlotBytes : Nat := 0xC0000000
def capBase : Nat := 0x020000000000
def scratchBase : Nat := 0x040000000000
def scratchStride : Nat := 0x800000
def setupBase : Nat := 0x050000000000

/-- The byte address of scratchpad byte `off` of logical core `n`. -/
def scratchAddr (n off : Nat) : Nat := scratchBase + n * scratchStride + off

/-- The key of a ring: its class and its instance (Table 03-1). -/
def ringKey (cls inst : Nat) : Nat := cls * 65536 + inst

/-- The Cuff channel ring instance that holds a capacity-tier byte (R244, R245). -/
def capInstance (capList : List Nat) (addr : Nat) : Nat :=
  (capList[(addr - capBase) / 4096 % (max 1 capList.length)]?).getD 0

/-- The ring of the memory that holds a device address: a Pocket ring or a Cuff channel ring. -/
def ringOfAddr (capList : List Nat) (addr : Nat) : Nat :=
  if addr < capBase then ringKey 2 (addr / pocketSlotBytes) else ringKey 5 (capInstance capList addr)

/-- Whether bytes addr to addr + len − 1 lie in Pocket slots of cores that are not absent, or in the populated capacity tier
(Table 01-5). -/
def pocketMapped (absent : List Nat) (addr len : Nat) : Bool :=
  let n := addr / pocketSlotBytes
  let last := (addr + len - 1) / pocketSlotBytes
  decide (n < 512) && decide (last < 512) && !absent.any fun m => decide (n ≤ m) && decide (m ≤ last)

def capMapped (capBytes addr len : Nat) : Bool :=
  decide (capBase ≤ addr) && decide (addr + len ≤ capBase + capBytes)

/-- Whether an address lies behind a Cuff channel that does not answer (R254, R265). -/
def unitDead (e : CoreEnv) (addr : Nat) : Bool := decide (capBase ≤ addr) && e.deadChans.contains (capInstance e.capList addr)

/-- Whether the 64-byte unit of an address cannot be read correctly (R221, R251, R265). -/
def unitBad (e : CoreEnv) (addr : Nat) : Bool := e.badUnits.contains (addr / 64 * 64) || unitDead e addr

/-! ### Faults and reports of a core -/

/-- A report added behind the earlier ones. -/
def Local.report (l : Local) (r : Report) : Local := { l with reports := l.reports ++ [r] }

/-- The physical core of a record's LOCATION. -/
def Local.location (l : Local) : BitVec 12 := BitVec.ofNat 12 l.env.phys

/-- A roster fault stops the core at the word boundary and writes the ROSTER_FAULT record; a core that has already stopped
reports nothing more (R59). -/
def Local.rosterFault (l : Local) (kind : Nat) (slot : Nat) (word : BitVec 28) : Local :=
  if l.core.seq.stoppedByFault then l
  else
    let f : RosterFault := ⟨true, BitVec.ofNat 2 slot, BitVec.ofNat 8 kind, word⟩
    { l with core := { l.core with seq := { l.core.seq with fault := f, run := .stopped, stoppedByFault := true } } }.report
      { cls := 0x10, source := BitVec.ofNat 8 l.env.panel, location := l.location,
        detail := BitVec.ofNat 48 (l.env.n + word.toNat * 2 ^ 20), aux := BitVec.ofNat 16 (kind * 256 + slot) }

/-! ### The scratchpad -/

/-- The core with its scratchpad state changed. -/
def Local.scrUpd (l : Local) (f : ScratchState → ScratchState) : Local :=
  { l with core := { l.core with scr := f l.core.scr } }

/-- The bytes at a scratchpad byte offset. -/
def Local.scr (l : Local) (off len : Nat) : List Byte := memRead l.mem (scratchAddr l.env.n off) len

/-- The words of a byte range with wrong parity. -/
def badWords (bad : List Nat) (off len : Nat) : List Nat :=
  bad.filter fun w => decide (off / 4 ≤ w) && decide (4 * w < off + len)

/-- The physical bank that serves a logical bank (R212): bank 64 is the spare. -/
def physBank (s : ScratchState) (b : Nat) : Nat := if s.spareFor.toNat = b then 64 else b

/-- The error limit of R212: 0 acts as 1 (Table 10-10). -/
def retireLimit (c : CoreCtrl) : Nat := max 1 (field c.scratchExpertNow 0 8).toNat

/-- The lowest logical bank whose physical bank has reached RETIRE_LIMIT (R212). -/
def worstBank (c : Core) : Option Nat :=
  (List.range 64).find? fun b => decide (retireLimit c.ctrl ≤ mapGet 0 c.scr.bankErrors (physBank c.scr b))

/-- The retirement mark of R212: set with SPARE_AUTO = 1, one bank at a time, whenever a count or the limit changes. -/
def markBank (c : Core) : Core :=
  if bit c.ctrl.scratchCtrlNow 1 && c.scr.pendingBank == 0xFF then
    match worstBank c with
    | some b => { c with scr := { c.scr with pendingBank := BitVec.ofNat 8 b, darkPending := c.scr.spareFor != 0xFF } }
    | none => c
  else c

/-- One parity error found on a port: CO_SCRATCH_LAST_ERR, ERRORS, the bank's count, and the retirement mark (R207, R212). -/
def countParity (c : Core) (port w : Nat) : Core :=
  let b := bankOf w
  let pb := physBank c.scr b
  markBank { c with scr := { c.scr with
      lastErr := BitVec.ofNat 32 (port * 2 ^ 27 + b * 2 ^ 21 + w), errors := satAdd c.scr.errors 1,
      bankErrors := mapPut c.scr.bankErrors pb (mapGet 0 c.scr.bankErrors pb + 1) } }

/-- The SCRATCH_PARITY record of one error (Table 17-7). -/
def parityReport (l : Local) (port w : Nat) : Report :=
  { cls := 0x13, source := BitVec.ofNat 8 l.env.panel, location := l.location, detail := BitVec.ofNat 48 w,
    aux := BitVec.ofNat 16 (port * 256 + bankOf w) }

/-- A parity error on ports 0 to 14 asks for re-execution of the step, or raises SCRATCH_PARITY: with STEP_RETRY = 0, or as
the second error of the step (R207, R210). -/
def Local.stepParity (l : Local) : Local :=
  if bit l.core.ctrl.scratchCtrlNow 0 && !l.core.step.parity && !l.core.step.retrying then
    { l with core := { l.core with step := { l.core.step with parity := true } } }
  else l.rosterFault 7 0 l.core.seq.lastIssued

/-- Every bad word of a read, found on `port` (R207). -/
def Local.findParity (l : Local) (port : Nat) (bad : List Nat) : Local :=
  match bad with
  | [] => l
  | w :: r =>
    let l1 := { l with core := countParity l.core port w }.report (parityReport l port w)
    (if port < 15 then l1.stepParity else l1).findParity port r

/-- A read of scratchpad bytes through a port: the bytes as stored, and what the read found (R207). -/
def Local.readScr (l : Local) (port off len : Nat) : List Byte × Local :=
  (l.scr off len, l.findParity port (badWords l.core.scr.badParity off len))

/-- A write of whole words, a part of a last word filled with zero (R201); written words have valid parity. -/
def Local.writeScr (l : Local) (off : Nat) (bytes : List Byte) : Local :=
  let pad := (4 - bytes.length % 4) % 4
  let bs := bytes ++ List.replicate pad 0
  { l with
    mem := memWrite l.mem (scratchAddr l.env.n off) bs,
    core := { l.core with scr := { l.core.scr with
      badParity := l.core.scr.badParity.filter fun w => !(decide (off / 4 ≤ w) && decide (4 * w < off + bs.length)) } } }

/-- The bytes of runs of `len` bytes at the given words, in visiting order (DESIGN CHOICE, log entry 48). -/
def Local.readRuns (l : Local) (port len : Nat) (starts : List Int) : List (List Byte) × Local :=
  match starts with
  | [] => ([], l)
  | s :: r =>
    let a := l.readScr port (4 * s.toNat) len
    let b := a.2.readRuns port len r
    (a.1 :: b.1, b.2)

/-- Bytes written to the runs of a scratchpad pattern, in visiting order (R201) (DESIGN CHOICE, log entry 48). -/
def Local.writeRuns (l : Local) (starts : List Int) (runs : List (List Byte)) : Local :=
  match starts, runs with
  | s :: r, b :: t => (l.writeScr (4 * s.toNat) b).writeRuns r t
  | _, _ => l

end Sys2Proof.Machine
end

