-- ==== Sys2Proof/Machine/Crossbar.lean ====
section
/-!
DEFINITION. The scratchpad crossbar (R78, R203): the lines that a port presents, its rounds, and the lines that wait behind another port's.
No data depend on it. Which rounds of two operations coincide the spec leaves to timing; the model draws it (DESIGN CHOICE, log entry 50).
-/

namespace Sys2Proof.Machine

/-- The most lines that a port presents in one round (Table 10-3). -/
def portWidth (port : Nat) : Nat :=
  if port = 0 then 5
  else if port = 10 ∨ port = 11 ∨ port = 15 ∨ port = 16 then 4
  else if port = 13 ∨ port = 14 then 1
  else 8

/-- The lines of 16 words that a range of words meets; a partial line counts whole. -/
def linesOf (word len : Nat) : List Nat :=
  (List.range ((word + len + 15) / 16 - word / 16)).map (· + word / 16)

/-- The lines of runs of `len` bytes at the given words. -/
def runLines (starts : List Int) (len : Nat) : List Nat := starts.flatMap fun s => linesOf s.toNat ((len + 3) / 4)

/-- The lines of a pattern in visiting order. -/
def patLines (p : Pattern) : List Nat := runLines (patRuns p) (patRunBytes p)

/-- The bank that serves a line (R199). -/
def lineBank (line : Nat) : Nat := bankOf (16 * line)

/-- The rounds of a port: its lines in order, at most its width in one round, and no two of one bank (DESIGN CHOICE, log
entry 50). -/
def roundsOf (width : Nat) (acc : List Nat) (lines : List Nat) : List (List Nat) :=
  match lines with
  | [] => if acc.isEmpty then [] else [acc]
  | x :: r =>
    if acc.length < width ∧ !(acc.map lineBank).contains (lineBank x) then roundsOf width (acc ++ [x]) r
    else acc :: roundsOf width [x] r

/-- The first round of a port's lines, and the lines that follow it. -/
def firstRound (width : Nat) (acc lines : List Nat) : List Nat × List Nat :=
  match lines with
  | [] => (acc, [])
  | x :: r =>
    if acc.length < width ∧ !(acc.map lineBank).contains (lineBank x) then firstRound width (acc ++ [x]) r else (acc, x :: r)

/-- Whether a line meets one of another port, given with its lines in the round. -/
def lineMeets (line : Nat) (t : Nat × List Nat) : Bool := (t.2.map lineBank).contains (lineBank line)

/-- Lines that wait while a port presents its own: in each round a bank serves the line of the lowest port, and one of each other port waits
behind it; a line of this port that waits is presented again in the next round. -/
def crossWaits (fuel port : Nat) (others : Nat → List (Nat × List Nat)) (round : Nat) (lines : List Nat) : Nat :=
  match fuel, lines with
  | k + 1, x :: r =>
    let a := firstRound (portWidth port) [] (x :: r)
    let ts := others round
    let blocked := a.1.filter fun y => ts.any fun t => decide (t.1 < port) && lineMeets y t
    (a.1.filter fun y => ts.any (lineMeets y)).length + crossWaits k port others (round + 1) (blocked ++ a.2)
  | _, _ => 0

/-- The ports that an array operation uses, with its patterns (Table 04-6); a gather flush writes through port 12 (Table 05-8). -/
def arrPorts : ArrOp → List (Nat × Pattern)
  | .wload _ x _ => [(0, x)]
  | .pass _ x y acc => (1, x) :: (if acc then [(2, y)] else []) ++ [(3, y)]
  | .flush b => (b.map fun g => (1, g.x)) ++ b.map fun g => (12, g.y)
  | _ => []

/-- The ports of an attention operation. -/
def attPorts : AttOp → List (Nat × Pattern)
  | .mode _ x | .walk _ x _ _ => [(4, x)]
  | .query _ x y => (4, x) :: y.toList.map fun p => (4, p)
  | .kv _ x y => [(5, x), (6, y)]
  | .out _ x y => (7, x) :: y.toList.map fun p => (7, p)
  | .off => []

/-- The ports of a vector operation with the pattern that it captured. -/
def vecPorts (v : VOp) (pat : Option Pattern) : List (Nat × Pattern) :=
  match v, pat with
  | .vld _ _ _ _, some p | .vtload _ _ _, some p => [(8, p)]
  | .vst _ _ _ _, some p => [(9, p)]
  | _, _ => []

/-- The port and the pattern of a move-engine operation. -/
def movePorts (o : MoveOp) : List (Nat × Pattern) :=
  match o.op, o.patS with
  | .moveIn _ _ _ _ _, some p => [(10, p)]
  | .moveOut _ _ _ _ _, some p | .moveRemote _ _ _ _ _, some p | .atomicAdd _ _ _ _ _, some p | .nearOp _ _ _ _, some p => [(11, p)]
  | _, _ => []

/-- The ports in use by operations in progress. -/
def busyPorts (c : Core) : List (Nat × Pattern) :=
  (match c.arr.running with
    | some r => arrPorts r.1
    | none => [])
  ++ (if c.regions.attention = .on then (c.att.queue.head?.map attPorts).getD [] else [])
  ++ (c.moveQ.filter (·.started)).flatMap movePorts

/-- The token of a port in use in a round: one of its operation's rounds (DESIGN CHOICE, log entry 50). -/
def tokenOf (l : Local) (round : Nat) (q : Nat × Pattern) : List Nat :=
  let rs := roundsOf (portWidth q.1) [] (patLines q.2)
  (rs[(Config.scratchRound l.env.n l.core.seq.beats q.1 + round) % max 1 rs.length]?).getD []

/-- Ports that one operation uses together (R57, Table 04-6): those of an array pass or a gather flush, and those of an ATT_KV. -/
def samePorts (a b : Nat) : Bool :=
  let pass (p : Nat) : Bool := p == 1 || p == 2 || p == 3 || p == 12
  let kv (p : Nat) : Bool := p == 5 || p == 6
  a == b || (pass a && pass b) || (kv a && kv b)

/-- Lines presented through a port beside those of the other operations in progress: CO_SCRATCH_WAITS counts the lines that wait. -/
def Local.cross (l : Local) (port : Nat) (lines : List Nat) : Local :=
  match (busyPorts l.core).filter fun q => !samePorts q.1 port with
  | [] => l
  | q :: r =>
    let n := crossWaits (4 * lines.length) port (fun i => (q :: r).map fun p => (p.1, tokenOf l i p)) 0 lines
    l.scrUpd fun s => { s with waits := wrapAdd s.waits n }

/-- Every pattern of an operation presented through its port. -/
def Local.crossAll (l : Local) (ps : List (Nat × Pattern)) : Local := ps.foldl (fun t p => t.cross p.1 (patLines p.2)) l

end Sys2Proof.Machine
end

