-- ==== Sys2Proof/Machine/Vector.lean ====
section
/-!
DEFINITION. The vector unit as a unit of the core: what each queued operation does when it dispatches (R135 to R147). The
dispatch beat and the write a fixed latency later (R136) are one step of the model: no later operation reads before it.
-/

namespace Sys2Proof.Machine

/-- The core with its vector state changed. -/
def Local.vecUpd (l : Local) (f : VectorState → VectorState) : Local :=
  { l with core := { l.core with vec := f l.core.vec } }

/-- The 512 lanes of a vector register. -/
def vecGet (s : VectorState) (r : RegId) : List Word := mapGet (List.replicate laneCount 0#32) s.regs r.toNat

/-- The vector state with the lanes of one register written. -/
def vecPut (s : VectorState) (r : RegId) (lanes : List Word) : VectorState :=
  { s with regs := mapPut s.regs r.toNat lanes }

/-- Lanes 0 to E − 1 from a pattern, the others zero (R128, R145). -/
def lanesOfRuns (f : Format) (n0 : Nat) (runs : List (List Byte)) : List Word :=
  let l := runs.flatMap fun b => (runValues f (decodeRun f n0 b)).map (laneOf f)
  l ++ List.replicate (laneCount - l.length) 0#32

/-- The registers zero and the user table zero (R135, R147). -/
def vecClear (s : VectorState) : VectorState :=
  { s with regs := [], table := UserTable.zero, tableValid := false }

/-- A switch-off loses the registers and the table (R92); TABLE_VALID stands until the table is cleared (Table 07-11). -/
def vecOff (s : VectorState) : VectorState := { s with regs := [], table := UserTable.zero }

/-- Entries of the VECTOR queue that operations take. -/
def vecTaken (s : VectorState) : Nat := (s.queue.filter fun o => o != .off).length

/-- VLD (R145). -/
def Local.runVld (l : Local) (vd : RegId) (p : Pattern) : Local :=
  let a := l.readRuns 8 (patRunBytes p) (patRuns p)
  a.2.vecUpd fun s => vecPut s vd (lanesOfRuns (patFormat p) p.n0 a.1)

/-- Clamps and NaN blocks counted in CO_NUMERIC_STATUS (R134). -/
def Local.countNumeric (l : Local) (clamps nans : Nat) : Local :=
  { l with core := { l.core with arr := { l.core.arr with
      saturations := satAdd l.core.arr.saturations clamps, nanBlocks := satAdd l.core.arr.nanBlocks nans } } }

/-- VST (R129 to R131, R145). -/
def Local.runVst (l : Local) (va : RegId) (p : Pattern) : Local :=
  let lanes := (vecGet l.core.vec va).take (patElems p)
  let runs := (chunks p.n0 lanes.length lanes).map (encodeRun (patFormat p))
  (l.writeRuns (patRuns p) (runs.map (·.bytes))).countNumeric ((runs.map (·.clamps)).sum) ((runs.map (·.nanBlocks)).sum)

/-- VTLOAD (R142). -/
def Local.runVtload (l : Local) (p : Pattern) : Local :=
  let a := l.readRuns 8 (patRunBytes p) (patRuns p)
  a.2.vecUpd fun s => { s with table := tableOfImage a.1.flatten, tableValid := true }

/-- VCVT, with its clamps counted (R132). -/
def Local.runVcvt (l : Local) (vd va : RegId) (fn : Nat) : Local :=
  let r := (vecGet l.core.vec va).map (vecLaneCvt fn)
  (l.vecUpd fun s => vecPut s vd (r.map (·.1))).countNumeric ((r.filter (·.2)).length) 0

/-- One lane-wise result written to a register. -/
def Local.setLanes (l : Local) (vd : RegId) (lanes : List Word) : Local := l.vecUpd fun s => vecPut s vd lanes

/-- What a vector operation does when it dispatches, with the pattern and the scalar that it captured at issue. -/
def Local.runVec (l : Local) (v : VOp) (pat : Option Pattern) (scalar : DWord) : Local :=
  let g (r : RegId) : List Word := vecGet l.core.vec r
  match v, pat with
  | .vld _ _ vd _, some p => l.runVld vd p
  | .vst _ _ va _, some p => l.runVst va p
  | .vtload _ _ _, some p => l.runVtload p
  | .arith o _ bf vd va vb, _ => l.setLanes vd (List.zipWith (vecLane2 o bf) (g va) (g vb))
  | .vfma _ bf vd va vb vc, _ =>
    l.setLanes vd (List.zipWith (fun ab c => vecLaneFma bf ab.1 ab.2 c) ((g va).zip (g vb)) (g vc))
  | .vsf _ bf vd va fn, _ => l.setLanes vd ((g va).map fun x => narrowLane bf (vsf l.env.level fn.toNat x))
  | .vtbl _ bf vd va fn, _ =>
    l.setLanes vd ((g va).map fun x => narrowLane bf (vecLaneTbl l.core.vec.table fn.toNat x))
  | .vred _ bf vd va fn, _ => l.setLanes vd (List.replicate laneCount (narrowLane bf (vecReduce fn.toNat (g va))))
  | .vcvt _ _ vd va fn, _ => l.runVcvt vd va fn.toNat
  | .vcmp _ _ vd va vb fn, _ => l.setLanes vd (List.zipWith (vecLaneCmp fn.toNat) (g va) (g vb))
  | .vsel _ _ vd va vb vc, _ =>
    l.setLanes vd (List.zipWith (fun ab c => vecLaneSel ab.1 ab.2 c) ((g va).zip (g vb)) (g vc))
  | .vsplat _ bf vd _ fn, _ => l.setLanes vd (List.replicate laneCount (vecSplat bf fn.toNat scalar))
  | _, _ => l

/-- VECTOR_DISPATCH: the head of the VECTOR queue dispatches, where the vector region is on. A clear takes one dispatch and is
not counted (R136, R147, Table 07-12). -/
def Local.vecDispatch (l : Local) : Local :=
  match l.core.vec.queue, l.core.regions.vector with
  | .op v p x :: r, .on =>
    ((({ l with core := { l.core with vec := { l.core.vec with queue := r } } }).crossAll (vecPorts v p)).runVec v p x).vecUpd fun s =>
      { s with ops := wrapAdd s.ops 1 }
  | .clear :: r, .on => l.vecUpd fun s => vecClear { s with queue := r }
  | _, _ => l

/-- SY of a vector operation. -/
def vecSy : VOp → Bool
  | .nop => false
  | .vld sy _ _ _ => sy
  | .vst sy _ _ _ => sy
  | .arith _ sy _ _ _ _ => sy
  | .vfma sy _ _ _ _ _ => sy
  | .vsf sy _ _ _ _ => sy
  | .vtbl sy _ _ _ _ => sy
  | .vred sy _ _ _ _ => sy
  | .vcvt sy _ _ _ _ => sy
  | .vcmp sy _ _ _ _ _ => sy
  | .vsel sy _ _ _ _ _ => sy
  | .vsplat sy _ _ _ _ => sy
  | .vtload sy _ _ => sy

/-- SY operations of unit VECTOR not yet complete (R75). -/
def vecSyCount (s : VectorState) : Nat :=
  (s.queue.filter fun o => match o with | .op v _ _ => vecSy v | .clear | .off => false).length

end Sys2Proof.Machine
end

