-- ==== Sys2Proof/Machine/Attention.lean ====
section
/-!
DEFINITION. The attention pipeline as a unit of the core: ATT_MODE, ATT_Q, ATT_OUT, the tiles of ATT_KV and of walks through
the score and value stages (R150 to R176). Errors in data put a sequence in error and are contained in its outputs (R155).
-/

namespace Sys2Proof.Machine

/-- The core with its attention state changed. -/
def Local.attUpd (l : Local) (f : AttState → AttState) : Local :=
  { l with core := { l.core with att := f l.core.att } }

/-- The open sequence put in error, counted once per sequence (R155). -/
def seqError (s : AttState) : AttState :=
  match s.seq with
  | some q =>
    if q.error then s else { s with seq := some { q with error := true }, modeErrors := satAdd s.modeErrors 1 }
  | none => s

/-- The open sequence changed. -/
def seqUpd (s : AttState) (f : Sequence → Sequence) : AttState := { s with seq := s.seq.map f }

/-- ATT_MODE (R152, R172). -/
def Local.runAttMode (l : Local) (x : Pattern) : Local :=
  let a := (l.cross 4 (patLines x)).readRuns 4 (patRunBytes x) (patRuns x)
  let w : DWord := BitVec.ofNat 64 (leNat a.1.flatten)
  a.2.attUpd fun s => { s with mode := w, modeError := modeWordError l.env.level w }

/-- The bytes of bitmap that the context record must hold (R157). -/
def bitmapRowBytes (kBlocks : Nat) : Nat := (kBlocks + 31) / 32 * 4

/-- The number of bitmap rows (R157). -/
def bitmapRowCount (qPos positions : Nat) : Nat := (qPos + positions - 1) / 64 - qPos / 64 + 1

/-- ATT_Q: query rows, context record and fresh row state into the free half of the query store (R156, R157), with the conditions
of Table 08-7. The error of a sequence counts once it is open; a query block that becomes
NaN adds to no counter (DESIGN CHOICE, log entry 54). -/
def Local.loadQueries (l : Local) (x : Pattern) (y : Option Pattern) : Local :=
  let m := l.core.att.mode
  let d := headDim m
  let qf := queryFormat m
  let r := patRunCount x
  let a := (l.crossAll (attPorts (.query false x y))).readRuns 4 (patRunBytes x) (patRuns x)
  let c := match y with
    | some p => a.2.readRuns 4 (patRunBytes p) (patRuns p)
    | none => ([List.replicate 16 0], a.2)
  let rec' := c.1.flatten
  let header : BitVec 128 := BitVec.ofNat 128 (leNat (rec'.take 16))
  let qPos := (field header 0 32).toNat
  let kBlocks := (field header 64 17).toNat
  let rows := if maskKind m = .bitmap ∧ y.isSome then bitmapRowCount qPos (r / groupFactor m) else 0
  let fmt := (qf.map (·.1)).getD .bf16
  let bad := l.core.att.modeError || patFormat x != fmt || x.n0 != rowElems fmt d || r % groupFactor m != 0
    || field header 81 47 != 0 || decide (65536 < kBlocks) || rec'.length != 16 + rows * bitmapRowBytes kBlocks
  let raw := a.1.map (decodeRun (patFormat x) x.n0)
  let narrow := (qf.map (·.2)).getD false
  let narrowed := raw.map fun q => narrowRow (rowValues fmt d q)
  let queries := if narrow then narrowed.map (·.1) else raw
  let sats := if narrow then (narrowed.map (·.2)).sum else 0
  c.2.attUpd fun s =>
    { s with
      next := some { queries := queries, narrowed := narrow, rows := r, qPos := qPos,
                     kvPos := (field header 32 32).toNat, kBlocks := kBlocks,
                     bitmap := chunks (bitmapRowBytes kBlocks) rows (rec'.drop 16), error := bad,
                     state := List.replicate r RowState.start },
      saturations := if bad then s.saturations else satAdd s.saturations sats }

/-- The sequence in the other half of the query store becomes the open one. -/
def openNext (s : AttState) : AttState :=
  match s.next with
  | some q =>
    { s with seq := some q, next := none, nextKv := q.kvPos, keysTaken := 0,
             modeErrors := if q.error then satAdd s.modeErrors 1 else s.modeErrors }
  | none => s

/-- The ATT_Q that stands behind the rest of the open sequence in the queue, with no ATT_MODE between them. -/
def nextQuery : List AttOp → Option (Pattern × Option Pattern)
  | .kv _ _ _ :: r | .walk _ _ _ _ :: r => nextQuery r
  | .out _ _ _ :: .query _ x y :: _ => some (x, y)
  | _ => none

/-- The format that the queries of the open sequence have in arithmetic (Table 08-5). -/
def queryFormatUsed (m : DWord) : Format :=
  match queryFormat m with
  | some (f, n) => if n then .mxfp8e4m3 else f
  | none => .bf16

/-- Whether the patterns of an ATT_KV break a condition of Table 08-7. -/
def kvMismatch (level : Nat) (m : DWord) (x y : Pattern) : Bool :=
  let d := headDim m
  match keyFormat level m, valueFormat m with
  | some kf, some vf =>
    patFormat x != kf || patFormat y != vf || x.n0 != rowElems kf d || y.n0 != rowElems vf d
  | _, _ => true

/-- Up to 64 keys of an ATT_KV from key `i` on, read through ports 5 and 6 (R158, R170). -/
def Local.readKeys (l : Local) (x y : Pattern) (i : Nat) : List KeyRow × Local :=
  let xs := ((patRuns x).drop i).take 64
  let ys := ((patRuns y).drop i).take 64
  let a := ((l.cross 5 (runLines xs (patRunBytes x))).cross 6 (runLines ys (patRunBytes y))).readRuns 5 (patRunBytes x) xs
  let b := a.2.readRuns 6 (patRunBytes y) ys
  ((List.zipWith (fun k v => (decodeRun (patFormat x) x.n0 k, decodeRun (patFormat y) y.n0 v)) a.1 b.1).mapIdx
     fun j kv => ⟨l.core.att.nextKv + j, kv.1, kv.2⟩,
   b.2)

/-- A tile enters the score stage, or is skipped where no key is eligible for any row (R170, TILE_SKIP). -/
def enterTile (s : AttState) (tile : List KeyRow) : AttState :=
  match s.seq with
  | some q =>
    if q.error then s
    else if tile.any fun k => eligibleAny s.mode q k.pos then { s with staged := s.staged ++ [tile] }
    else { s with skipped := wrapAdd s.skipped 1 }
  | none => s

/-- ATT_SCORE_STAGE: the next tile of the operation at the head of the ATTENTION queue starts its score stage (R171). -/
def Local.scoreStage (l : Local) : Local :=
  match l.core.regions.attention, l.core.att.queue with
  | .on, .kv _ x y :: _ =>
    if 2 ≤ l.core.att.staged.length || decide (patRunCount x ≤ l.core.att.keysTaken) then l
    else
      let a := l.readKeys x y l.core.att.keysTaken
      a.2.attUpd fun s =>
        enterTile { s with keysTaken := s.keysTaken + a.1.length, nextKv := s.nextKv + a.1.length } a.1
  | .on, .walk _ _ _ _ :: _ =>
    match l.core.att.tiles with
    | t :: r => if 2 ≤ l.core.att.staged.length then l else l.attUpd fun s => enterTile { s with tiles := r } t
    | [] => l
  | _, _ => l

/-- One row's update by a tile: only the keys eligible for its position take part (R159, R165). -/
def tileRow (level : Nat) (m : DWord) (q : Sequence) (qf kf vf : Format) (tile : List KeyRow) (r : Nat) (query : RunData)
    (row : RowState) : RowState :=
  let d := headDim m
  let ks := tile.filter fun k => eligible m q k.pos (rowPos m q r)
  rowUpdate level vf d (ks.map fun k => keyScore level m qf kf query k.key) (ks.map fun k => rowValues vf d k.value) row

/-- Every row's update by a tile. -/
def tileRows (level : Nat) (m : DWord) (q : Sequence) (tile : List KeyRow) : List RowState :=
  let kf := (keyFormat level m).getD .bf16
  let vf := (valueFormat m).getD .bf16
  (q.queries.zip q.state).mapIdx fun i qs => tileRow level m q (queryFormatUsed m) kf vf tile i qs.1 qs.2

/-- Rows newly poisoned by a tile (R166). -/
def newlyPoisoned (before after : List RowState) : Nat :=
  ((before.zip after).filter fun p => !p.1.poisoned && p.2.poisoned).length

/-- ATT_VALUE_STAGE: the oldest tile in the stages ends its value stage and updates the row state (R165, R171). -/
def Local.valueStage (l : Local) : Local :=
  match l.core.att.staged, l.core.att.seq with
  | t :: r, some q =>
    let rows := tileRows l.env.level l.core.att.mode q t
    l.attUpd fun s =>
      { s with
        staged := r, seq := some { q with state := if q.error then q.state else rows },
        nanRows := satAdd s.nanRows (if q.error then 0 else newlyPoisoned q.state rows),
        tileCount := wrapAdd s.tileCount 1 }
  | _, _ => l

/-- The statistics m and l of the rows as FP32 elements 2r and 2r + 1 of Y (R155, R166, R167). -/
def rowStats (rows : List RowState) (error : Bool) : List Word :=
  rows.flatMap fun r => if error || r.poisoned then [nanWord, nanWord] else [r.m, r.l]

/-- Words laid out as bytes (R10). -/
def wordsToBytes (ws : List Word) : List Byte := ws.flatMap fun w => leBytes 4 w.toNat

/-- ATT_OUT: the rows normalised, converted and written (R155, R166, R167). -/
def Local.runAttOut (l : Local) (x : Pattern) (y : Option Pattern) : Local :=
  match l.core.att.seq with
  | none => l
  | some q =>
    let m := l.core.att.mode
    let d := headDim m
    let f := outFormat m
    let mismatch := patFormat x != f || x.n0 != rowElems f d
    let l1 := if mismatch then l.attUpd seqError else l
    let written :=
      if mismatch then l1
      else
        let rows := q.state.map fun r =>
          if q.error || r.poisoned then StoreResult.mk (nanRow f d) 0 0 else outRow f d (rowOutput l.env.level d r)
        let l2 := (l1.crossAll (attPorts (.out false x y))).writeRuns (patRuns x) (rows.map (·.bytes))
        let l3 := match y with
          | some p =>
            l2.writeRuns (patRuns p)
              ((chunks p.n0 (2 * q.rows) (rowStats q.state q.error)).map wordsToBytes)
          | none => l2
        (l3.attUpd fun s => { s with saturations := satAdd s.saturations ((rows.map (·.clamps)).sum) }).countNumeric 0
          ((rows.map (·.nanBlocks)).sum)
    written.attUpd fun s => { s with seq := none, keysTaken := 0 }

/-- SY of an attention operation. -/
def attSy : AttOp → Bool
  | .mode sy _ => sy
  | .query sy _ _ => sy
  | .kv sy _ _ => sy
  | .walk sy _ _ _ => sy
  | .out sy _ _ => sy
  | .off => false

/-- SY operations of unit ATTENTION not yet complete (R75). -/
def attSyCount (s : AttState) : Nat := (s.queue.filter attSy).length

/-- Entries of the ATTENTION queue that operations take. -/
def attTaken (s : AttState) : Nat := (s.queue.filter fun o => o != .off).length

/-- The head of the ATTENTION queue completed and left the queue. -/
def attPop (s : AttState) : AttState := { s with queue := s.queue.drop 1, keysTaken := 0, walkRetired := false }

/-- What a switch-off of the attention region discards and a switch-on clears (R173). The issue state went to IDLE when the
REGION_OFF issued (R150). -/
def attClear (s : AttState) : AttState :=
  { s with mode := 0, modeError := false, seq := none, next := none, keysTaken := 0, tiles := [], staged := [], walk := none,
           walkRetired := false }

/-- The pipeline at LAUNCH and at the restart of a lap replay (R174). -/
def attStart (s : AttState) : AttState :=
  { attClear s with queue := [], issue := .idle, issueRows := 0, turns := [] }

/-- The counters that restart at LAUNCH (R176, R198). -/
def attCountersZero (s : AttState) : AttState :=
  { s with saturations := 0, nanRows := 0, modeErrors := 0, tileCount := 0, skipped := 0, walks := 0, walkBadPages := 0,
           walkErrors := 0, walkPages := 0 }

end Sys2Proof.Machine
end

