-- ==== Sys2Proof/Machine/Walk.lean ====
section
/-!
DEFINITION. Page walks (R177 to R197): walk record and page table, candidates and scores, selection, delivery of pages as
tiles, retirement and report. A ring unit of a walk is served by the ring's own step; the functions here say what the walk
does with it.
-/

namespace Sys2Proof.Machine

/-- Bits [lo + len − 1 : lo] of a number. -/
def natField (v lo len : Nat) : Nat := v >>> lo % 2 ^ len

/-- The Seam port 2p + s of a logical core (R281): by the core map, or by rank where every quadrant delivers 16 cores. -/
def CoreEnv.seamPort (e : CoreEnv) (n : Nat) : Nat := mapGet (2 * (n / 64) + n % 64 / 32) e.ports n

/-- The ring instance of Seam port 2p + s in direction d (Table 03-1). -/
def seamRing (port d : Nat) : Nat := ringKey 4 (2 * port + d)

/-- The Seam and crossbar rings that one unit read from memory crosses on its way to a core (R281, Table 09-7). -/
def CoreEnv.readPath (e : CoreEnv) (addr : Nat) : List Nat :=
  if addr < capBase then
    let m := addr / pocketSlotBytes
    if m = e.n then [] else [seamRing (e.seamPort m) 1, ringKey 3 (e.seamPort e.n), seamRing (e.seamPort e.n) 0]
  else [ringKey 3 (e.seamPort e.n), seamRing (e.seamPort e.n) 0]

/-- The rings that one unit written by a core crosses before the memory (R281, R280). -/
def CoreEnv.writePath (e : CoreEnv) (addr : Nat) : List Nat :=
  if addr < capBase then
    let m := addr / pocketSlotBytes
    if m = e.n then [] else [seamRing (e.seamPort e.n) 1, ringKey 3 (e.seamPort m), seamRing (e.seamPort m) 0]
  else [seamRing (e.seamPort e.n) 1, ringKey 3 (16 + capInstance e.capList addr / 20)]

/-- The 64-byte units that a byte range touches, with their rings and their places in a stream. -/
def unitsOfRange (capList : List Nat) (addr len off : Nat) : List MemUnit :=
  let first := addr / 64
  let last := (addr + len + 63) / 64
  (List.range (last - first)).map fun i =>
    let a := max addr (64 * (first + i))
    let e := min (addr + len) (64 * (first + i) + 64)
    ⟨ringOfAddr capList a, a, e - a, off + (a - addr), []⟩

/-- The ring that a unit of a read waits for: its memory's, then those of its route. -/
def MemUnit.readRing (u : MemUnit) : Nat := if u.ring ≠ 0 then u.ring else u.route.headD 0

/-- A unit of a read after the service of the ring that it waited for; none once it has arrived. -/
def MemUnit.readOn (u : MemUnit) : Option MemUnit :=
  let v : MemUnit := if u.ring ≠ 0 then { u with ring := 0 } else { u with route := u.route.drop 1 }
  if v.route.isEmpty then none else some v

/-- A unit replaced by what is left of it. -/
def replaceUnit (us : List MemUnit) (u : MemUnit) (v : Option MemUnit) : List MemUnit :=
  match us with
  | [] => []
  | x :: r => if x = u then v.toList ++ r else x :: replaceUnit r u v

/-- Units added to a count per ring. -/
def addCounts (counts : List (Nat × Nat)) (rings : List Nat) : List (Nat × Nat) :=
  rings.foldl (fun c r => mapPut c r (mapGet 0 c r + 1)) counts

/-- Counts for units that all take one path each. -/
def pathCounts (path : Nat → List Nat) (us : List MemUnit) : List (Nat × Nat) :=
  us.foldl (fun c u => addCounts c (path u.addr)) []

/-- No unit left on any ring. -/
def countsDone (counts : List (Nat × Nat)) : Bool := counts.all fun e => e.2 == 0

/-! ### The walk record and the page table -/

/-- Table 09-4. -/
def parseWalkRecord (bytes : List Byte) : WalkRecord :=
  let v := leNat bytes
  { table := natField v 464 48, reportWord := natField v 440 24, probeWord := natField v 416 24,
    probes := natField v 412 3 + 1, lambda := BitVec.ofNat 16 (natField v 384 16), firstPage := natField v 352 32,
    pageCount := natField v 320 32, kTop := natField v 304 16, sink := natField v 288 16, recent := natField v 272 16,
    turnsPocket := natField v 240 16, turnsHub := natField v 224 16, turnsScore := natField v 208 16,
    reservedZero := natField v 415 1 == 0 && natField v 400 12 == 0 && natField v 256 16 == 0 && natField v 0 208 == 0 }

/-- Table 09-1. -/
def parseTableHeader (bytes : List Byte) : TableHeader :=
  let v := leNat bytes
  { valOffset := natField v 176 16, headDim := natField v 168 8 + 1, vFormat := natField v 164 4,
    kFormat := natField v 160 4, cSlots := natField v 144 2, version := natField v 136 8,
    pageCount := natField v 64 32, generation := BitVec.ofNat 32 (natField v 0 32),
    reservedZero := natField v 192 320 == 0 && natField v 146 14 == 0 && natField v 96 40 == 0 && natField v 32 32 == 0 }

/-- S_ENT of R178. -/
def entryBytes (d cSlots : Nat) : Nat := if cSlots = 0 then 16 else 64 * ((32 + 2 * d * cSlots + 63) / 64)

/-- The address of entry `i` (R178). -/
def entryAddr (table d cSlots i : Nat) : Nat :=
  let n := 4096 / entryBytes d cSlots
  table + 4096 * (1 + i / n) + i % n * entryBytes d cSlots

/-- The selection limits of Table 09-6. -/
def withinLimits (level : Nat) (r : WalkRecord) : Bool :=
  decide (r.kTop ≤ if level < 2 then 256 else 512) && decide (r.kTop + r.sink + r.recent ≤ 1024)

/-- The walk is in error by its record alone (Table 09-5). -/
def recordError (l : Local) (r : WalkRecord) : Bool :=
  let m := l.core.att.mode
  let inCap := capMapped l.env.capBytes r.table 4096
  let inPocket := decide (r.table / pocketSlotBytes = l.env.n)
  !r.reservedZero || r.table % 4096 != 0 || !(inCap || inPocket)
    || decide (scratchWords < r.probeWord + 8 + r.probes * ((headDim m + 1) / 2))
    || decide (scratchWords < r.reportWord + 16)
    || (retrieval m && (!inCap || !withinLimits l.env.level r))

/-- The walk is in error by the table's header (Table 09-5). -/
def headerError (level : Nat) (m : DWord) (r : WalkRecord) (h : TableHeader) : Bool :=
  !h.reservedZero || h.version != 1 || h.headDim != headDim m || h.kFormat != keyCode m || h.vFormat != valueCode m
    || h.cSlots == 3 || (h.cSlots == 2 && decide (level < 2)) || decide (h.pageCount < r.firstPage + r.pageCount)
    || (retrieval m && h.cSlots == 0)

/-- One key or value row's bytes (R179). -/
def rowBytes (f : Format) (d : Nat) : Nat := runBytes f (rowElems f d)

/-- A bad frame (R179). -/
def badFrame (l : Local) (h : TableHeader) (c : Candidate) : Bool :=
  let m := l.core.att.mode
  let d := headDim m
  let k := c.validKeys * rowBytes ((keyFormat l.env.level m).getD .bf16) d
  let v := c.validKeys * rowBytes ((valueFormat m).getD .bf16) d
  let va := c.frame + 64 * h.valOffset
  let ok (a n : Nat) : Bool :=
    if c.capTier then capMapped l.env.capBytes a n
    else decide (a / pocketSlotBytes = l.env.n) && decide ((a + n - 1) / pocketSlotBytes = l.env.n)
  !(ok c.frame k && ok va v)

/-- What reading one entry yields: a candidate or none, and whether it failed only on a reserved field (R185). -/
def filterEntry (l : Local) (r : WalkRecord) (i : Nat) (bytes : List Byte) : Option Candidate × Bool :=
  let v := leNat (bytes.take 16)
  let c : Candidate :=
    { index := i, basePos := natField v 96 32, frame := natField v 50 42 * 64, validKeys := natField v 32 7,
      capTier := natField v 1 1 == 1,
      forced := decide (i < r.firstPage + r.sink) || decide (r.firstPage + r.pageCount ≤ i + r.recent),
      summarised := false, score := negInf }
  let reserved := natField v 92 4 == 0 && natField v 39 11 == 0 && natField v 2 30 == 0
  let anyKey := match l.core.att.seq with
    | some q => (List.range c.validKeys).any fun s => eligibleAny l.core.att.mode q (c.basePos + s)
    | none => false
  let rest := natField v 0 1 == 1 && decide (1 ≤ c.validKeys) && anyKey
  (if rest && reserved then some c else none, rest && !reserved)

/-- BF16 elements from bytes. -/
def bf16Elems (n : Nat) (bytes : List Byte) : List FVal := (unpackCodes 16 n (leNat (bytes.take (2 * n)))).map (fpDecode bf16)

/-- s_pc of R186 for one probe and one centroid. -/
def pairScore (lambda maxNorm : FVal) (p : Probe) (centroid : List FVal) : Word :=
  let bound := roundFp32 (fvMul lambda (ofFp32 (roundFp32 (fvMul (ofFp32 p.norm) maxNorm))))
  roundFp32 (fvAdd (exactSum (List.zipWith fvMul p.elems centroid)) (ofFp32 bound))

/-- Whether a page is unsummarised, by CENTROIDS_USED of its summary record (R180, Table 09-3). -/
def unsummarised (cSlots : Nat) (summary : List Byte) : Bool :=
  let used := natField (leNat (summary.take 16)) 0 2
  used == 0 || used == 3 || decide (cSlots < used)

/-- The score of a candidate with its summary record (R180, R186). -/
def scoreEntry (d cSlots : Nat) (r : WalkRecord) (probes : List Probe) (c : Candidate) (bytes : List Byte) : Candidate :=
  let s := leNat ((bytes.drop 16).take 16)
  let used := natField s 0 2
  if unsummarised cSlots (bytes.drop 16) then { c with summarised := false, score := posInf }
  else
    let maxNorm := fpDecode bf16 (natField s 32 16)
    let cs := (List.range used).map fun j => bf16Elems d (bytes.drop (32 + 2 * d * j))
    let all := probes.flatMap fun p => cs.map (pairScore (fpDecode bf16 r.lambda.toNat) maxNorm p)
    let best := all.foldl (fun a w => fvMax a (ofFp32 w)) (.inf true)
    { c with summarised := true, score := roundFp32 best }

/-- Ranking of R187: by score, NaN below every number, then the lower index. -/
def ranksBefore (a b : Candidate) : Bool :=
  match ofFp32 a.score, ofFp32 b.score with
  | .nan, .nan => decide (a.index < b.index)
  | .nan, _ => false
  | _, .nan => true
  | x, y => if fvLt y x then true else if fvLt x y then false else decide (a.index < b.index)

/-- Insertion by an order. -/
def insertBy {α : Type} (before : α → α → Bool) (x : α) : List α → List α
  | [] => [x]
  | y :: r => if before x y then x :: y :: r else y :: insertBy before x r

/-- Insertion sort by an order. -/
def sortBy {α : Type} (before : α → α → Bool) (l : List α) : List α := l.foldr (insertBy before) []

/-- The forced candidates and the best `k` others (R187). -/
def selectPages (k : Nat) (l : List Candidate) : List Candidate :=
  l.filter (·.forced) ++ (sortBy ranksBefore (l.filter fun c => !c.forced)).take k

/-- Ascending entry index (R188). -/
def byIndex (l : List Candidate) : List Candidate := sortBy (fun a b => decide (a.index < b.index)) l

/-! ### Phases -/

/-- The attention state with the walk changed. -/
def walkUpd (s : AttState) (f : Walk → Walk) : AttState := { s with walk := s.walk.map f }

/-- The one unit that holds a header or an entry. -/
def lineUnit (capList : List Nat) (addr : Nat) : List MemUnit := [⟨ringOfAddr capList addr, addr / 64 * 64, 64, 0, []⟩]

/-- A read of the given units along the read path, nothing of it served. -/
def newRead (l : Local) (page : Option Candidate) (us : List MemUnit) : WalkRead :=
  { page := page, units := us.map fun u => { u with route := l.env.readPath u.addr }, list := [], got := [], failed := false }

/-- A walk issues a read of the given units: a header or an entry. -/
def setUnits (l : Local) (w : Walk) (us : List MemUnit) : Walk := { w with reads := [newRead l none us] }

/-- Every unit of a read, and of the list that it returns, has arrived. -/
def readDone (r : WalkRead) : Bool := r.units.isEmpty && countsDone r.list

/-- The Seam and crossbar rings that a walk's scoring command crosses on its way to the 12 Cuffs (Table 09-7). -/
def commandRings (e : CoreEnv) : List Nat := seamRing (e.seamPort e.n) 1 :: (List.range 12).map fun k => ringKey 3 (16 + k)

/-- The walk's scoring command of `units` units is on its way; a walk sends one. -/
def sendCommand (e : CoreEnv) (s : AttState) (units : Nat) : AttState :=
  { s with turns := s.turns.map fun t =>
      if t.serial = s.walkSerial ∧ t.sends = [] then { t with sends := (commandRings e).map fun k => (k, units) } else t }

/-- The units of a scoring command (Table 09-7): 64 B, the probes and the bitmap rows. -/
def commandUnits (s : AttState) (w : Walk) : Nat :=
  let rows := match s.seq with
    | some q => (q.bitmap.map (·.length)).sum
    | none => 0
  (64 + w.record.probes * (4 + 2 * headDim s.mode) + rows + 63) / 64

/-- A walk ends reading with a status; an error puts the sequence in error (R183, R197), and a walk that retrieves pages still sends its
scoring command, marked empty (R190). -/
def endWalk (e : CoreEnv) (s : AttState) (st : WalkStatus) : AttState :=
  let s1 := walkUpd (if st = .ok then s else seqError s) fun w => { w with phase := .done, status := st, reads := [], scores := [] }
  if (s.walk.any fun w => decide (0 < w.record.turnsScore)) then sendCommand e s1 1 else s1

/-- The probes of the walk, read through port 4 (R182). -/
def readProbes (l : Local) (r : WalkRecord) : List Probe × Local :=
  let d := headDim l.core.att.mode
  let words := 8 + r.probes * ((d + 1) / 2)
  let a := (l.cross 4 (linesOf r.probeWord words)).readScr 4 (4 * r.probeWord) (4 * words)
  ((List.range r.probes).map fun p =>
    ⟨BitVec.ofNat 32 (leNat ((a.1.drop (4 * p)).take 4)), bf16Elems d (a.1.drop (32 + p * (4 * ((d + 1) / 2))))⟩, a.2)

/-- The counted slots of a walk that starts: those of its first run in a re-executed step, else new ones (R190, R210). -/
def enterTurns (s : AttState) (retrying : Bool) (r : WalkRecord) (lap : BitVec 2) (word : BitVec 28) : List WalkTurns :=
  match (if retrying then s.turns.findIdx? (·.again) else none) with
  | some i => modifyNth s.turns i fun t => { t with serial := s.walkSerial, again := false }
  | none => s.turns ++ [⟨s.walkSerial, r, lap, word, [], [], [], [], false⟩]

/-- The walk engine accepts an ATT_WALK from the ATTENTION queue (R195): it reads the record and asks for the header. -/
def Local.startWalk (l : Local) (x : Pattern) (lap : BitVec 2) (word : BitVec 28) : Local :=
  let a := (l.cross 4 (patLines x)).readRuns 4 (patRunBytes x) (patRuns x)
  let r := parseWalkRecord a.1.flatten
  let w : Walk :=
    { record := r, header := none, probes := [], phase := .header, status := .ok, startNs := l.env.now, endNs := l.env.now,
      genEnd := 0, next := r.firstPage, scores := [], lists := [], candidates := 0, forced := 0, unsummarised := 0, nanScores := 0,
      badPages := 0, kth := negInf, selected := [], reads := [], delivered := 0, keysDelivered := 0 }
  let start (s : AttState) (w : Walk) : AttState :=
    { s with walk := some w, turns := enterTurns s l.core.step.retrying r lap word }
  let inError := match a.2.core.att.seq with
    | some q => q.error
    | none => true
  if inError then a.2.attUpd fun s => endWalk l.env (start s w) .sequenceError
  else if recordError a.2 r then a.2.attUpd fun s => endWalk l.env (start s w) .walkError
  else
    let p := if retrieval a.2.core.att.mode then readProbes a.2 r else ([], a.2)
    p.2.attUpd fun s => start s (setUnits l { w with probes := p.1 } (lineUnit l.env.capList r.table))

/-- The units of one page's frame (R179, Table 09-7 phase 5). -/
def pageUnits (l : Local) (h : TableHeader) (c : Candidate) : List MemUnit :=
  let m := l.core.att.mode
  let d := headDim m
  let k := c.validKeys * rowBytes ((keyFormat l.env.level m).getD .bf16) d
  let v := c.validKeys * rowBytes ((valueFormat m).getD .bf16) d
  unitsOfRange l.env.capList c.frame k 0 ++ unitsOfRange l.env.capList (c.frame + 64 * h.valOffset) v k

/-- A row of NaN elements (R188). -/
def nanRun (n : Nat) : RunData := ⟨List.replicate n .nan, List.replicate (n / 32) 0xFF⟩

/-- The tile that a page gives from the bytes read: its keys at BASE_POS + s, or NaN keys and values (R188, R197). -/
def pageTile (l : Local) (h : TableHeader) (c : Candidate) (got : List Host.Cell) (asNan : Bool) : List KeyRow :=
  let m := l.core.att.mode
  let d := headDim m
  let kf := (keyFormat l.env.level m).getD .bf16
  let vf := (valueFormat m).getD .bf16
  (List.range c.validKeys).map fun s =>
    if asNan then ⟨c.basePos + s, nanRun (rowElems kf d), nanRun (rowElems vf d)⟩
    else
      ⟨c.basePos + s,
       decodeRun kf (rowElems kf d) (memRead got (c.frame + s * rowBytes kf d) (rowBytes kf d)),
       decodeRun vf (rowElems vf d) (memRead got (c.frame + 64 * h.valOffset + s * rowBytes vf d) (rowBytes vf d))⟩

/-- The oldest read in flight delivered as a tile (R188). -/
def deliverPage (s : AttState) (now : Nat) (c : Candidate) (tile : List KeyRow) (bad : Bool) : AttState :=
  walkUpd { s with tiles := s.tiles ++ [tile], walkPages := wrapAdd s.walkPages 1 } fun w =>
    { w with reads := w.reads.drop 1, delivered := w.delivered + 1, keysDelivered := w.keysDelivered + c.validKeys,
             badPages := w.badPages + (if bad then 1 else 0), endNs := now }

/-- Pages held: reads issued and tiles that have not ended their value stage (R189). -/
def pagesHeld (s : AttState) : Nat :=
  s.tiles.length + s.staged.length + match s.walk with
    | some w => w.reads.length
    | none => 0

/-- A page's read is issued; a bad frame is never read (R179). -/
def issuePage (l : Local) (w : Walk) (h : TableHeader) (c : Candidate) : Walk :=
  { w with selected := w.selected.drop 1,
           reads := w.reads ++ [newRead l (some c) (if badFrame l h c then [] else pageUnits l h c)] }

/-- Delivery goes on in delivery order: a page whose read is complete becomes a tile, the next page's read is issued while fewer than
4 pages are held, and the walk ends its reads when no page is left (R188, R189). The fuel bounds the pages that one call can issue and
deliver. -/
def Local.deliverNext (fuel : Nat) (l : Local) : Local :=
  match fuel, l.core.att.walk with
  | k + 1, some w =>
    match w.phase, w.header with
    | .deliver, some h =>
      match w.reads, w.selected with
      | [], [] => l.attUpd fun s => endWalk l.env s .ok
      | r :: _, sel =>
        match r.page, sel with
        | some c, c' :: _ =>
          if readDone r then
            let bad := badFrame l h c
            (l.attUpd fun s => deliverPage s l.env.now c (pageTile l h c r.got (bad || r.failed)) bad).deliverNext k
          else if pagesHeld l.core.att < 4 then (l.attUpd fun s => walkUpd s fun w => issuePage l w h c').deliverNext k
          else l
        | some c, [] =>
          if readDone r then
            let bad := badFrame l h c
            (l.attUpd fun s => deliverPage s l.env.now c (pageTile l h c r.got (bad || r.failed)) bad).deliverNext k
          else l
        | none, _ => l
      | [], c :: _ =>
        if pagesHeld l.core.att < 4 then (l.attUpd fun s => walkUpd s fun w => issuePage l w h c).deliverNext k
        else l
    | _, _ => l
  | _, _ => l

/-- GEN_RECHECK in effect (R192). -/
def genRecheck (l : Local) : Bool := bit l.core.ctrl.walkCtrlNow 0

/-- The selection is made: the recheck or the delivery begins (Table 09-7). -/
def Local.beginDelivery (l : Local) (w : Walk) : Local :=
  if genRecheck l then
    l.attUpd fun s => { s with walk := some (setUnits l { w with phase := .recheck } (lineUnit l.env.capList w.record.table)) }
  else (l.attUpd fun s => { s with walk := some { w with phase := .deliver, reads := [] } }).deliverNext 10

/-- The counts that a read entry adds to the report, with its summary record where the table has one (R180). -/
def noteEntry (cSlots : Nat) (w : Walk) (e : Option Candidate × Bool) (summary : List Byte) : Walk :=
  match e.1 with
  | some c => { w with candidates := w.candidates + 1, forced := w.forced + (if c.forced then 1 else 0),
                       unsummarised := w.unsummarised + (if cSlots ≠ 0 ∧ unsummarised cSlots summary then 1 else 0),
                       selected := w.selected ++ [c] }
  | none => { w with badPages := w.badPages + (if e.2 then 1 else 0) }

/-- What a walk does when the header or the entry that it read has arrived with the bytes `got` (Table 09-7); GEN_END is GEN_START
unless the header is read again (Table 09-8). -/
def Local.walkArrived (l : Local) (w : Walk) (got : List Host.Cell) (failed : Bool) : Local :=
  let m := l.core.att.mode
  let r := w.record
  match w.phase with
  | .header =>
    let h := parseTableHeader (memRead got r.table 64)
    let w1 := { w with header := some h, genEnd := if genRecheck l then w.genEnd else h.generation, reads := [] }
    let l1 := l.attUpd fun s => { s with walk := some w1 }
    if failed then l1.attUpd fun s => endWalk l.env s .memoryError
    else if headerError l.env.level m r h then l1.attUpd fun s => endWalk l.env s .walkError
    else if r.pageCount = 0 then
      (if retrieval m then l1.attUpd fun s => sendCommand l.env s 1 else l1).beginDelivery w1
    else if retrieval m then
      l1.attUpd fun s => sendCommand l.env (walkUpd s fun w => { w with phase := .score }) (commandUnits s w1)
    else
      l1.attUpd fun s => walkUpd s fun w =>
        setUnits l { w with phase := .scan } (lineUnit l.env.capList (entryAddr r.table (headDim m) h.cSlots r.firstPage))
  | .scan =>
    let c := match w.header with | some h => h.cSlots | none => 0
    let a := entryAddr r.table (headDim m) c w.next
    let w1 := { noteEntry c w (filterEntry l r w.next (memRead got a 16)) (memRead got (a + 16) 16) with
                next := w.next + 1, reads := [] }
    if failed then (l.attUpd fun s => { s with walk := some w1 }).attUpd fun s => endWalk l.env s .memoryError
    else if w1.next < r.firstPage + r.pageCount then
      l.attUpd fun s =>
        { s with walk := some (setUnits l w1 (lineUnit l.env.capList (entryAddr r.table (headDim m) c w1.next))) }
    else l.beginDelivery w1
  | .recheck =>
    let g := (parseTableHeader (memRead got r.table 64)).generation
    if failed then l.attUpd fun s => endWalk l.env s .memoryError
    else (l.attUpd fun s => { s with walk := some { w with phase := .deliver, genEnd := g, reads := [] } }).deliverNext 10
  | _ => l

/-- One unit of a read served by the memory's ring, whose bytes it carries from then on, or by the next ring of its route. -/
def WalkRead.serve (r : WalkRead) (l : Local) (ring : Nat) : WalkRead :=
  match r.units.find? (fun u => u.readRing == ring) with
  | some u =>
    let r1 := { r with units := replaceUnit r.units u u.readOn }
    if u.ring ≠ 0 then { r1 with failed := r.failed || unitBad l.env u.addr, got := memWrite r.got u.addr (memRead l.mem u.addr u.len) }
    else r1
  | none => r

/-- Whether a read has a unit for a ring. -/
def WalkRead.wants (r : WalkRead) (ring : Nat) : Bool := r.units.any fun u => u.readRing == ring

/-- Entries of the range whose bytes Cuff `k` holds (R178: an entry lies behind one Cuff). -/
def cuffEntries (l : Local) (r : WalkRecord) (h : TableHeader) (k : Nat) : List Nat :=
  ((List.range r.pageCount).map (· + r.firstPage)).filter fun i =>
    capInstance l.env.capList (entryAddr r.table (headDim l.core.att.mode) h.cSlots i) / 20 == k

/-- Cuff `k`'s list has arrived (R186, R187, R189): the entries that it read, filtered and scored; an entry that could not be read
correctly puts the sequence in error (R197). -/
def Local.listArrived (l : Local) (w : Walk) (h : TableHeader) (k : Nat) (r : WalkRead) : Local :=
  let d := headDim l.core.att.mode
  let addr (i : Nat) : Nat := entryAddr w.record.table d h.cSlots i
  let read := (cuffEntries l w.record h k).map fun i =>
    (filterEntry l w.record i (memRead r.got (addr i) 16), memRead r.got (addr i) (entryBytes d h.cSlots))
  let cands := read.filterMap fun e => e.1.1.map fun c => scoreEntry d h.cSlots w.record w.probes c e.2
  let w1 : Walk := { w with
    lists := mapPut w.lists k (selectPages w.record.kTop cands),
    candidates := w.candidates + cands.length, forced := w.forced + (cands.filter (·.forced)).length,
    unsummarised := w.unsummarised + (cands.filter fun c => !c.summarised).length,
    nanScores := w.nanScores + (cands.filter fun c => ofFp32 c.score == .nan).length,
    badPages := w.badPages + (read.filter fun e => e.1.2).length }
  let w2 := if w1.lists.length = 12 then { w1 with phase := .merge } else w1
  let l1 := l.attUpd fun s => { s with walk := some w2 }
  if r.failed then l1.attUpd fun s => endWalk l.env s .memoryError else l1

/-- The Cuffs' reads that have come to their end: their lists are at the core. -/
def Local.takeLists (l : Local) (ks : List Nat) : Local :=
  ks.foldl (fun t k =>
    match t.core.att.walk with
    | some w =>
      match w.header, w.scores.find? fun e => e.1 == k && readDone e.2 with
      | some h, some e => if w.phase = .score ∧ !mapHas w.lists k then t.listArrived w h k e.2 else t
      | _, _ => t
    | none => t) l

/-- Whether a unit of a Cuff's list waits for a ring: of the crossbar once the Cuff has read its entries, then of the Seam port. -/
def WalkRead.listWants (r : WalkRead) (ring : Nat) : Bool :=
  r.units.isEmpty && decide (0 < mapGet 0 r.list ring)
    && (ring / 65536 == 3 || r.list.all fun e => decide (e.1 / 65536 ≠ 3) || decide (e.2 < mapGet 0 r.list ring))

/-- One unit of a Cuff's list on its way to the core. -/
def Local.listServe (l : Local) (w : Walk) (ring : Nat) : Local :=
  match w.scores.findIdx? fun e => e.2.listWants ring with
  | some i =>
    (l.attUpd fun s => walkUpd s fun w =>
      { w with scores := modifyNth w.scores i fun e => (e.1, { e.2 with list := mapPut e.2.list ring (mapGet 0 e.2.list ring - 1) }) }).takeLists
      (w.scores.map (·.1))
  | none => l

/-- One unit of a scoring command served on a ring. -/
def Local.commandServe (l : Local) (i ring : Nat) : Local :=
  l.attUpd fun s => { s with turns := modifyNth s.turns i fun t => { t with sends := mapPut t.sends ring (mapGet 0 t.sends ring - 1) } }

/-- A ring serves one unit of a walk: of its scoring command, of its oldest read that has one for the ring, or of a Cuff's list (R46,
R189). The header's service at its memory is START_NS (Table 09-8). -/
def Local.walkServe (l : Local) (ring : Nat) : Local :=
  match l.core.att.turns.findIdx? fun t => decide (0 < mapGet 0 t.sends ring), l.core.att.walk with
  | some i, _ => l.commandServe i ring
  | none, none => l
  | none, some w =>
    match w.reads.findIdx? fun r => r.wants ring with
    | none => l.listServe w ring
    | some i =>
      let header := w.phase == .header && w.reads.any fun r => r.units.any fun u => u.ring == ring && u.ring != 0
      let w1 : Walk := { w with reads := modifyNth w.reads i fun r => r.serve l ring,
                                startNs := if header then l.env.now else w.startNs, endNs := if header then l.env.now else w.endNs }
      let l1 := l.attUpd fun s => { s with walk := some w1 }
      match w1.phase, w1.reads with
      | .deliver, _ => l1.deliverNext 10
      | _, r :: _ => if readDone r then l1.walkArrived w1 r.got r.failed else l1
      | _, [] => l1

/-- Whether the walk in progress has a unit for a ring: of a read, or of a Cuff's list. -/
def walkReads (s : AttState) (ring : Nat) : Bool :=
  match s.walk with
  | some w => (w.reads.any fun r => r.wants ring)
      || w.scores.any fun e => e.2.listWants ring
  | none => false

/-- Whether a walk has a unit for a ring, of its scoring command or of the walk in progress. -/
def walkWants (s : AttState) (ring : Nat) : Bool := (s.turns.any fun t => decide (0 < mapGet 0 t.sends ring)) || walkReads s ring

/-- The owner slots that the walk record counts on a ring (R190). -/
def walkTurns (r : WalkRecord) (ring : Nat) : Nat :=
  if ring / 65536 = 2 then r.turnsPocket else if ring / 65536 = 1 ∨ ring / 65536 = 6 ∨ ring / 65536 = 7 then 0 else r.turnsHub

/-- Whether the walk has nothing more to present on a ring whose slots the record counts, beside what it asks for now (R190). -/
def walkOver (l : Local) (t : WalkTurns) (ring : Nat) : Bool :=
  match l.core.att.walk with
  | some w =>
    t.serial != l.core.att.walkSerial
      || match w.phase, w.header with
        | .done, _ => true
        | .deliver, some h => !(w.selected.any fun c =>
            !badFrame l h c && (pageUnits l h c).any fun u => u.ring == ring || (l.env.readPath u.addr).contains ring)
        | _, _ => (commandRings l.env).contains ring && (!t.sends.isEmpty || !retrieval l.core.att.mode)
  | none => true

/-- The units of the entries that Cuff `k` holds, in ascending index (Table 09-7). -/
def scoreUnits (l : Local) (w : Walk) (h : TableHeader) (k : Nat) : List MemUnit :=
  let d := headDim l.core.att.mode
  ((cuffEntries l w.record h k).flatMap fun i =>
    let a := entryAddr w.record.table d h.cSlots i
    (List.range (max 1 (entryBytes d h.cSlots / 64))).flatMap fun j => lineUnit l.env.capList (a + 64 * j)).eraseDups

/-- The units of a list of L entries of 32 B on its way to the core (Table 09-7). -/
def listTransit (e : CoreEnv) (r : WalkRecord) : List (Nat × Nat) :=
  let n := ((r.kTop + r.sink + r.recent) * 32 + 63) / 64
  [(ringKey 3 (e.seamPort e.n), n), (seamRing (e.seamPort e.n) 0, n)]

/-- WALK_SCORE_COMMAND: Cuff `k` begins to read its entries, to filter and score them and to return its list (R189, R190); `gone` where
it cannot be reached, so that none of its entries can be read. -/
def Local.walkScore (l : Local) (k : Nat) (gone : Bool) : Local :=
  match l.core.att.walk with
  | some w =>
    match w.phase, w.header with
    | .score, some h =>
      let us := scoreUnits l w h k
      let r : WalkRead := ⟨none, if gone then [] else us, if gone then [] else listTransit l.env w.record, [], gone && !us.isEmpty⟩
      (l.attUpd fun s => walkUpd s fun w => { w with scores := mapPut w.scores k r }).takeLists [k]
    | _, _ => l
  | none => l

/-- One unit of Cuff `k`'s entries served on a channel ring, whose bytes the read carries from then on (R192). -/
def Local.scoreServe (l : Local) (k ring : Nat) : Local :=
  (l.attUpd fun s => walkUpd s fun w =>
    { w with scores := w.scores.map fun e => if e.1 = k then (k, e.2.serve l ring) else e }).takeLists [k]

/-- WALK_MERGE: the twelve lists merged into the selection (R187, R189). -/
def Local.walkMerge (l : Local) : Local :=
  match l.core.att.walk with
  | some w =>
    if w.phase = .merge then
      let all := w.lists.flatMap (·.2)
      let sel := selectPages w.record.kTop all
      let best := (sortBy ranksBefore (all.filter fun c => !c.forced)).take w.record.kTop
      l.beginDelivery { w with selected := byIndex sel, kth := (match best.getLast? with | some c => c.score | none => negInf) }
    else l
  | none => l

/-- The walk report of Table 09-8. -/
def walkReport (w : Walk) : List Byte :=
  let st := match w.status with
    | .ok => 0
    | .walkError => 1
    | .sequenceError => 2
    | .memoryError => 3
  let sat16 (n : Nat) : Nat := min n 0xFFFF
  let g := match w.header with | some h => h.generation.toNat | none => 0
  leBytes 1 st ++ leBytes 13 0 ++ leBytes 2 (sat16 w.badPages) ++ leBytes 2 (sat16 w.nanScores)
    ++ leBytes 2 (sat16 w.unsummarised) ++ leBytes 4 w.keysDelivered ++ leBytes 4 w.delivered ++ leBytes 4 w.forced
    ++ leBytes 4 w.candidates ++ leBytes 4 w.kth.toNat ++ leBytes 4 w.genEnd.toNat ++ leBytes 4 g
    ++ leBytes 8 w.endNs ++ leBytes 8 w.startNs

/-- The counters of a retired walk (R195, Table 09-12). -/
def countWalk (s : AttState) (w : Walk) (reported : Bool) : AttState :=
  { s with
    walk := none, walkRetired := true, walkSerial := s.walkSerial + 1, walks := wrapAdd s.walks 1,
    walkBadPages := satAdd s.walkBadPages (if reported then w.badPages else 0),
    walkErrors := satAdd s.walkErrors (if reported && w.status != .ok then 1 else 0) }

/-- WALK_RETIRE at the last served read: the report is written to REPORT_WORD and the walk retires (R191, R195). -/
def Local.walkRetire (l : Local) : Local :=
  match l.core.att.walk with
  | some w =>
    if w.phase = .done then
      let l1 := if w.record.reportWord + 16 ≤ scratchWords then (l.cross 7 (linesOf w.record.reportWord 16)).writeScr (4 * w.record.reportWord) (walkReport w) else l
      l1.attUpd fun s => countWalk s w true
    else l
  | none => l

/-- Whether the walk at the head of the ATTENTION queue has nothing left to read: its last read has been served, or it has
retired and its pages are held. -/
def walkServed (s : AttState) : Bool :=
  s.walkRetired || match s.walk with
    | some w => w.phase == .done
    | none => false

/-- An abandoned walk retires without a report (R195). -/
def walkAbandon (s : AttState) : AttState :=
  match s.walk with
  | some w => countWalk s w false
  | none => s

end Sys2Proof.Machine
end

