-- ==== Sys2Proof/Machine/NearMath.lean ====
section
/-!
DEFINITION. Near-memory commands (12): the record of Table 12-5, the errors of R271, the operations of Table 12-6 on one row
and the two-level sums of R270.
-/

namespace Sys2Proof.Machine

/-- The command record (Table 12-5); counts are the field plus 1, offsets in bytes from s[SA]. -/
structure NearRec where
  dst : Int
  src2 : Int
  rows : Nat
  len : Nat
  stride : Nat
  a : Word
  b : Word
  op : Nat
  srcFormat : BitVec 8
  dstFormat : BitVec 8
  src2Format : BitVec 8
  turnsChannel : Nat
  turnsBus : Nat
  reservedZero : Bool
deriving DecidableEq, Repr

/-- The record as 64 little-endian bytes. -/
def parseNear (bytes : List Byte) : NearRec :=
  let v : BitVec 512 := BitVec.ofNat 512 (leNat (bytes.take 64))
  { dst := (field v 464 48).toInt, src2 := (field v 416 48).toInt, rows := (field v 384 32).toNat + 1,
    len := (field v 352 32).toNat + 1, stride := (field v 320 32).toNat, a := field v 288 32, b := field v 256 32,
    op := (field v 248 8).toNat, srcFormat := field v 240 8, dstFormat := field v 232 8, src2Format := field v 224 8,
    turnsChannel := (field v 208 16).toNat, turnsBus := (field v 192 16).toNat, reservedZero := field v 0 192 == 0 }

/-- Source formats of R269. -/
def nearSource (code : BitVec 8) : Option Format :=
  match formatOf code with
  | some .fp32 => some .fp32
  | some .bf16 => some .bf16
  | some .fp16 => some .fp16
  | some .int32 => some .int32
  | some .mxfp8e4m3 => some .mxfp8e4m3
  | some .mxfp8e5m2 => some .mxfp8e5m2
  | some .mxint8 => some .mxint8
  | _ => none

/-- Destination formats of R269: FP32, BF16, FP16 and every MX format. T2 is block-scaled but no MX format (Table 06-4). -/
def nearDest (code : BitVec 8) : Option Format :=
  match formatOf code with
  | some .fp32 => some .fp32
  | some .bf16 => some .bf16
  | some .fp16 => some .fp16
  | some f => if fmtScaled f && f != .t2 then some f else none
  | none => none

/-- Operations that read a second source row by row (AXPBY, MUL). -/
def nearUsesRow2 (op : Nat) : Bool := op == 2 || op == 3
/-- Operations that read a gain row where SRC2_FORMAT names one. -/
def nearUsesGain (op : Nat) : Bool := op == 8 || op == 9
/-- Reductions: one FP32 value per row. -/
def nearReduces (op : Nat) : Bool := op == 5 || op == 6 || op == 7
/-- Operations that each Cuff can do by itself on the elements that it holds. -/
def nearElementwise (op : Nat) : Bool := decide (1 ≤ op) && decide (op ≤ 4)

/-- Whether `len` bytes at an address lie in the populated tier. -/
def inTier (capBytes : Nat) (a : Int) (len : Nat) : Bool :=
  decide ((capBase : Int) ≤ a) && decide (a + len ≤ (capBase + capBytes : Nat))

/-- Whether every row of a set of rows lies in the populated tier, at a multiple of 64. -/
def rowsFit (capBytes : Nat) (start : Int) (rows stride len : Nat) : Bool :=
  inTier capBytes start len && inTier capBytes (start + ((rows - 1) * stride : Nat)) len && decide (start % 64 = 0)

/-- A row length that a format admits. -/
def lenFits (f : Format) (n : Nat) : Bool := !fmtScaled f || n % 32 == 0

/-- Whether a command is in error (R271). -/
def nearError (capBytes base : Nat) (r : NearRec) : Bool :=
  let src := nearSource r.srcFormat
  let dst := nearDest r.dstFormat
  let src2 := nearSource r.src2Format
  let needs2 := nearUsesRow2 r.op || r.src2Format != 0
  let sf := src.getD .fp32
  let df := dst.getD .fp32
  let f2 := src2.getD .fp32
  let b : Int := base
  !r.reservedZero || r.op == 0 || decide (10 < r.op) || src.isNone || dst.isNone || (needs2 && src2.isNone)
    || r.stride % 64 != 0 || !lenFits sf r.len || !lenFits df r.len
    || (nearReduces r.op && df != .fp32)
    || !rowsFit capBytes b r.rows r.stride (runBytes sf r.len)
    || (if nearReduces r.op then !inTier capBytes (b + r.dst) (4 * r.rows)
        else !rowsFit capBytes (b + r.dst) r.rows r.stride (runBytes df r.len))
    || (nearUsesRow2 r.op && (!lenFits f2 r.len || !rowsFit capBytes (b + r.src2) r.rows r.stride (runBytes f2 r.len)))
    || (nearUsesGain r.op && r.src2Format != 0
        && (!lenFits f2 r.len || !rowsFit capBytes (b + r.src2) 1 0 (runBytes f2 r.len)))

/-- The values of a row of `n` elements at an address; an element that depends on a unit that cannot be read correctly is
NaN (Table 12-2). -/
def nearRow (e : CoreEnv) (mem : List Host.Cell) (f : Format) (addr n : Nat) : List FVal :=
  let vals := runValues f (decodeRun f n (memRead mem addr (runBytes f n)))
  let eb := elemBytes f n
  if e.badUnits = [] ∧ e.deadChans = [] then vals
  else vals.mapIdx fun i v =>
    if unitBad e (addr + i * fmtWidth f / 8) || (fmtScaled f && unitBad e (addr + eb + i / 32)) then .nan else v

/-- The FP32 value nearest to 1 ÷ n. -/
def invCount (n : Nat) : Word :=
  let q := 2 ^ 160 / n
  roundFp32 (.fin false (2 * q + if 2 ^ 160 % n = 0 then 0 else 1) (-161))

/-- One granule's partial: terms added in ascending index, each addition rounded once (R270). `term` gives what an element
adds. -/
def granulePart (term : FVal → FVal) (l : List FVal) : Word :=
  match l with
  | [] => 0
  | x :: r => r.foldl (fun acc y => roundFp32 (fvAdd (ofFp32 acc) (term y))) (roundFp32 (term x))

/-- The elements of a row cut at the granule boundaries of their addresses. -/
def byGranule (f : Format) (addr : Nat) (l : List FVal) : List (List FVal) :=
  let w := fmtWidth f / 8
  let first := (4096 - addr % 4096) / w
  if l.length ≤ first then [l] else l.take first :: chunks (4096 / w) l.length (l.drop first)

/-- A row sum of terms in two levels (R270). -/
def rowSum (term : FVal → FVal) (f : Format) (addr : Nat) (l : List FVal) : Word :=
  match (byGranule f addr l).map (granulePart term) with
  | [] => 0
  | p :: r => r.foldl (fun acc q => roundFp32 (fvAdd (ofFp32 acc) (ofFp32 q))) p

def sumOf (f : Format) (addr : Nat) (l : List FVal) : Word := rowSum id f addr l
def sumSqOf (f : Format) (addr : Nat) (l : List FVal) : Word := rowSum (fun x => fvMul x x) f addr l

/-- The largest value of a row, NaN under R140. -/
def rowMax (l : List FVal) : FVal := l.foldl fvMax (.inf true)

/-- The product of values, rounded once. -/
def mulOnce (l : List FVal) : FVal := ofFp32 (roundFp32 (l.foldl fvMul (.fin false 1 0)))

/-- One row through an operation that writes a row (Table 12-6): the source at `addr`, the second source or gains. -/
def nearOut (level : Nat) (r : NearRec) (f : Format) (addr : Nat) (x y : List FVal) : List FVal :=
  let a := ofFp32 r.a
  let b := ofFp32 r.b
  let inv := ofFp32 (invCount r.len)
  let gain := if r.src2Format = 0 then x.map fun _ => FVal.fin false 1 0 else y
  match r.op with
  | 1 => x
  | 2 => x.zipWith (fun p q => ofFp32 (roundFp32 (fvAdd (fvMul a p) (fvMul b q)))) y
  | 3 => x.zipWith (fun p q => mulOnce [a, p, q]) y
  | 4 => x.map fun p => ofFp32 (roundFp32 (fvAdd (fvMul a p) b))
  | 8 =>
    let g := ofFp32 (vsfRsqrt level (roundFp32 (fvAdd (fvMul (ofFp32 (sumSqOf f addr x)) inv) b)))
    x.zipWith (fun p q => mulOnce [p, g, a, q]) gain
  | 9 =>
    let mu := ofFp32 (roundFp32 (fvMul (ofFp32 (sumOf f addr x)) inv))
    let v := roundFp32 (fvAdd (fvMul (ofFp32 (sumSqOf f addr x)) inv) (fvNeg (fvMul mu mu)))
    let g := ofFp32 (vsfRsqrt level (roundFp32 (fvAdd (ofFp32 v) b)))
    x.zipWith (fun p q => mulOnce [fvAdd p (fvNeg mu), g, a, q]) gain
  | _ =>
    let t := x.map fun p => ofFp32 (roundFp32 (fvMul a p))
    let m := rowMax t
    let e := t.map fun p => ofFp32 (vsfExp level (roundFp32 (fvAdd p (fvNeg m))))
    let d := ofFp32 (vsfRecip level (sumOf f addr e))
    e.map fun p => mulOnce [p, d]

/-- One row through a reduction. -/
def nearValue (r : NearRec) (f : Format) (addr : Nat) (x : List FVal) : Word :=
  match r.op with
  | 5 => sumOf f addr x
  | 6 => roundFp32 (rowMax x)
  | _ => sumSqOf f addr x

/-- The bytes of a destination row with the clamps of each group of 32 elements (R269, R130, R131); a block that becomes NaN adds
to no counter (DESIGN CHOICE, log entry 54). -/
def encodeValues (f : Format) (vals : List FVal) : List Byte × List Nat :=
  let n := vals.length
  match f with
  | .fp32 => (leBytes (4 * n) (packCodes 32 (vals.map (fpRound Machine.fp32))), [])
  | .bf16 => (leBytes (2 * n) (packCodes 16 (vals.map (fpRound Machine.bf16))), [])
  | .fp16 => (leBytes (2 * n) (packCodes 16 (vals.map (fpRound Machine.fp16))), [])
  | f =>
    let bs := (chunks 32 n vals).map (quantBlock f)
    (leBytes (elemBytes f n) (packCodes (fmtWidth f) (bs.flatMap (·.1))) ++ bs.map (·.2.1), bs.map (·.2.2.1))

/-- The Cuff that holds a capacity-tier byte. -/
def cuffOfAddr (capList : List Nat) (addr : Nat) : Nat := capInstance capList addr / 20

/-- Bytes written from an address on, only those that one of the named Cuffs holds. -/
def writeHeld (mem : List Host.Cell) (holds : Nat → Bool) (addr : Nat) (bs : List Byte) : List Host.Cell :=
  match bs with
  | [] => mem
  | b :: r => writeHeld (if holds addr then memPut mem addr b else mem) holds (addr + 1) r

/-- Row `i` of a command applied, writing the bytes for which `holds` answers, with the clamps of the groups whose first
element it holds, each with that element's address (DEDUCED, log entry 19). -/
def nearApplyRow (e : CoreEnv) (holds : Nat → Bool) (base : Nat) (r : NearRec) (i : Nat) (mem : List Host.Cell) :
    List Host.Cell × List (Nat × Nat) :=
  let sf := (nearSource r.srcFormat).getD .fp32
  let f2 := (nearSource r.src2Format).getD .fp32
  let df := (nearDest r.dstFormat).getD .fp32
  let at_ (o : Int) (k : Nat) : Nat := ((base : Int) + o + (k * r.stride : Nat)).toNat
  let x := nearRow e mem sf (at_ 0 i) r.len
  if nearReduces r.op then
    (writeHeld mem holds (((base : Int) + r.dst).toNat + 4 * i) (leBytes 4 (nearValue r sf (at_ 0 i) x).toNat), [])
  else
    let y := if nearUsesRow2 r.op then nearRow e mem f2 (at_ r.src2 i) r.len
             else if nearUsesGain r.op && r.src2Format != 0 then nearRow e mem f2 (at_ r.src2 0) r.len
             else []
    let out := encodeValues df (nearOut e.level r sf (at_ 0 i) x y)
    let d := at_ r.dst i
    let group (j : Nat) : Nat := d + j * (32 * fmtWidth df / 8)
    (writeHeld mem holds d out.1, (out.2.mapIdx fun j c => (group j, c)).filter fun p => holds p.1 && p.2 != 0)

/-- Rows of a command applied in turn (DEDUCED, log entry 19). -/
def nearApplyRows (e : CoreEnv) (holds : Nat → Bool) (base : Nat) (r : NearRec) (rows : List Nat) (mem : List Host.Cell) :
    List Host.Cell × List (Nat × Nat) :=
  rows.foldl (fun a i =>
    let b := nearApplyRow e holds base r i a.1
    (b.1, a.2 ++ b.2)) (mem, [])

/-! ### Where a command's data lie -/

/-- The runs that row `i` of a command reads: its source row, and its row of a second source. -/
def rowReads (base : Nat) (r : NearRec) (i : Nat) : List (Nat × Nat) :=
  let at_ (o : Int) : Nat := ((base : Int) + o + (i * r.stride : Nat)).toNat
  (at_ 0, runBytes ((nearSource r.srcFormat).getD .fp32) r.len)
    :: if nearUsesRow2 r.op then [(at_ r.src2, runBytes ((nearSource r.src2Format).getD .fp32) r.len)] else []

/-- The gain row, where a command reads one. -/
def gainRun (base : Nat) (r : NearRec) : List (Nat × Nat) :=
  if nearUsesGain r.op && r.src2Format != 0 then
    [(((base : Int) + r.src2).toNat, runBytes ((nearSource r.src2Format).getD .fp32) r.len)]
  else []

/-- The runs that a command reads (DEDUCED, log entry 19). -/
def nearSrcRuns (base : Nat) (r : NearRec) : List (Nat × Nat) := (List.range r.rows).flatMap (rowReads base r) ++ gainRun base r

/-- The run that row `i` of a command writes: one FP32 value of a reduction, or a row. -/
def rowWrite (base : Nat) (r : NearRec) (i : Nat) : Nat × Nat :=
  let dst : Int := (base : Int) + r.dst
  if nearReduces r.op then ((dst + (4 * i : Nat)).toNat, 4)
  else ((dst + (i * r.stride : Nat)).toNat, runBytes ((nearDest r.dstFormat).getD .fp32) r.len)

/-- The Cuffs of the granules of a range, one for each granule. -/
def granuleCuffs (capList : List Nat) (run : Nat × Nat) : List Nat :=
  (List.range ((run.1 % 4096 + run.2 + 4095) / 4096)).map fun j => cuffOfAddr capList ((run.1 / 4096 + j) * 4096)

/-- The units of the sources of some rows, by address. -/
def rowSources (capList : List Nat) (base : Nat) (r : NearRec) (rows : List Nat) : List Nat :=
  (rows.flatMap (rowReads base r) ++ gainRun base r).flatMap fun run =>
    (unitsOfRange capList run.1 run.2 0).map fun u => u.addr / 64 * 64

/-- The Cuffs whose granules hold a row's source. -/
def rowCuffs (capList : List Nat) (base : Nat) (r : NearRec) (i : Nat) : List Nat :=
  (granuleCuffs capList (base + i * r.stride, runBytes ((nearSource r.srcFormat).getD .fp32) r.len)).eraseDups

/-- How often an operation reads its source: once for its statistics and once for its result, three times for ROW_SOFTMAX (R268)
(DESIGN CHOICE, log entry 19). -/
def nearPasses (op : Nat) : Nat := if op = 10 then 3 else if op = 8 ∨ op = 9 then 2 else 1

/-- The units that Cuff `k` serves for a command on its channel rings, in order: those of its sources, once for each pass, then those of
its results, of which a partial one counts two (R249) (DESIGN CHOICE, log entry 19). -/
def nearUnits (capList : List Nat) (k base : Nat) (r : NearRec) : List NearUnit :=
  let own (run : Nat × Nat) : List MemUnit := (unitsOfRange capList run.1 run.2 0).filter fun u => cuffOfAddr capList u.addr == k
  let sources := ((nearSrcRuns base r).flatMap own).map fun u => ⟨.source, u⟩
  let write (rows : List Nat) (u : MemUnit) : List NearUnit :=
    (if u.len = 64 then [] else [⟨.merge, u⟩]) ++ [⟨.result rows, u⟩]
  let meets (u : MemUnit) (i : Nat) : Bool :=
    let w := rowWrite base r i
    decide (w.1 < u.addr + u.len) && decide (u.addr < w.1 + w.2)
  let results :=
    if nearReduces r.op then
      (own (((base : Int) + r.dst).toNat, 4 * r.rows)).flatMap fun u => write ((List.range r.rows).filter (meets u)) u
    else (List.range r.rows).flatMap fun i => (own (rowWrite base r i)).flatMap (write [i])
  (List.replicate (nearPasses r.op) sources).flatten ++ results

/-- The statistics that a row operation forms for each row: two sums for LAYER_NORM, a largest value and a sum for ROW_SOFTMAX. -/
def nearStats (op : Nat) : Nat := if op < 5 then 0 else if op = 9 ∨ op = 10 then 2 else 1

/-- The partials of a command that Cuff `k` sends to the rows' home Cuffs, up to 8 per unit (R270, R275) (DESIGN CHOICE, log entry 19). -/
def nearPartialUnits (capList : List Nat) (k base : Nat) (r : NearRec) : Nat :=
  let parts := (List.range r.rows).map fun i =>
    let cs := granuleCuffs capList (base + i * r.stride, runBytes ((nearSource r.srcFormat).getD .fp32) r.len)
    if cs.head? = some k then 0 else nearStats r.op * cs.count k
  (parts.sum + 7) / 8

/-- The units that Cuff `k` sends on the Cuff bus for a command: its partials, and the statistics of the rows that it is home to and that
other Cuffs also write (R270, R275) (DESIGN CHOICE, log entry 19). -/
def nearBusUnits (capList : List Nat) (k base : Nat) (r : NearRec) : Nat :=
  let back := if nearReduces r.op then 0
    else ((List.range r.rows).filter fun i =>
      let cs := granuleCuffs capList (base + i * r.stride, runBytes ((nearSource r.srcFormat).getD .fp32) r.len)
      cs.head? == some k && cs.any (· != k)).length * nearStats r.op
  nearPartialUnits capList k base r + (back + 7) / 8

end Sys2Proof.Machine
end

