-- ==== Sys2Proof/Machine/ColumnOps.lean ====
section
/-!
DEFINITION. One Pocket column (11): what a read of a word finds (R220, R221), writes and the merge buffer (R222 to R224),
refresh and its multiplier (R53, R225 to R227), scrub steps with remap and retirement (R229 to R232), bank power-down (R234).
-/

namespace Sys2Proof.Machine

/-- Where a column stands: its Panel, its number on the Panel, and the device address of the slot that it serves. -/
structure ColSite where
  panel : Nat
  col : Nat
  base : Nat
deriving DecidableEq, Repr

/-- The device address of word u. -/
def ColSite.addr (s : ColSite) (u : Nat) : Nat := s.base + 64 * u

/-- A record of the column (Table 17-7). -/
def ColSite.report (s : ColSite) (cls addr aux : Nat) : Report :=
  ⟨BitVec.ofNat 8 cls, BitVec.ofNat 8 s.panel, BitVec.ofNat 12 s.col, BitVec.ofNat 48 addr, BitVec.ofNat 16 aux⟩

/-- The bank of word u, 8g + b (R217). -/
def bankOfWord (u : Nat) : Nat := 8 * (u % 8) + u / 256 % 8

/-- The DRAM row of word u in its bank, and its position within the row (R217). -/
def rowOfWord (u : Nat) : Nat := u / 2048
def posOfWord (u : Nat) : Nat := u / 8 % 32

/-- A fused repair replaces a row of one bank, or a column group of a layer: one position in every row of the layer's banks, layer i
being bank group i (R217, R238) (DESIGN CHOICE, log entry 55). -/
def repairCovers (d : DramRepair) (u : Nat) : Bool :=
  match d with
  | .row b r => bankOfWord u == b.val && rowOfWord u == r.toNat
  | .columnGroup l p => u % 8 == l.val && posOfWord u == p.val

/-- The spare resource that a repair takes: 32 rows in each bank, 8 column groups in each layer. -/
def sameSpares (a b : DramRepair) : Bool :=
  match a, b with
  | .row x _, .row y _ => x == y
  | .columnGroup x _, .columnGroup y _ => x == y
  | _, _ => false

/-- A spare remains for a repair (DESIGN CHOICE, log entry 55). -/
def Column.spareLeft (c : Column) (d : DramRepair) : Bool :=
  let used := (c.fused ++ c.repairs).countP (sameSpares d)
  match d with
  | .row _ _ => decide (used < 32)
  | .columnGroup _ _ => decide (used < 8)

/-- CORRECTED_RECORDS and REMAP_AUTO in effect (Table 11-8). -/
def Column.records (c : Column) : Bool := bit c.ctrlNow 0
def Column.remapAuto (c : Column) : Bool := bit c.ctrlNow 1

/-- An access to a bank that is off wakes it (R234). -/
def Column.wake (c : Column) (u : Nat) : Column :=
  if bit c.banksOff (bankOfWord u) then
    { c with banksOff := putBit c.banksOff (bankOfWord u) false, wakes := wrapAdd c.wakes 1 }
  else c

/-- PK_LAST_SYNDROME for a fault (Table 11-13). -/
def syndromeWord (f : PocketFault) : BitVec 32 :=
  match f with
  | .correctable s p => BitVec.ofNat 32 (s.toNat * 65536 + p.toNat)
  | .uncorrectable => 0x807F0000
  | .poison => 0xC07F0000

/-- AUX of a POCKET_UNCORRECTABLE record: bit 15, POISONED, and the reader (Table 17-7). -/
def uncorrAux (f : PocketFault) (reader : Nat) : Nat :=
  0x8000 + (if f = .poison then 0x4000 else 0) + (Config.readerCode reader).toNat

/-- The fault of a stored word, none where it is sound (DESIGN CHOICE, log entry 12). -/
def Column.faultAt (c : Column) (u : Nat) : Option PocketFault := (c.faults.find? fun e => e.1 == u).bind (·.2.found)

/-- What is wrong with a stored word; nothing where it is sound. -/
def Column.faultOf (c : Column) (u : Nat) : WordFault := ((c.faults.find? fun e => e.1 == u).map (·.2)).getD ⟨false, [], []⟩

/-- What is wrong with a stored word from now on. -/
def Column.setFault (c : Column) (u : Nat) (f : WordFault) : Column :=
  if f = ⟨false, [], []⟩ then { c with faults := c.faults.filter fun e => e.1 != u } else { c with faults := mapPut c.faults u f }

/-- Whether a read of the word delivers correct data. -/
def Column.readable (c : Column) (u : Nat) : Bool :=
  match c.faultAt u with
  | some .uncorrectable | some .poison => false
  | _ => true

/-- A column with the records that an event makes. -/
abbrev ColStep := Column × List Report

/-- Symbols of a stored word change: their error values add to those that it has, and those of a hard fault to what returns at each write
(R219, R229) (DESIGN CHOICE, log entry 12). -/
def upsetFault (f : WordFault) (symbols : List (Nat × Byte)) (hard : Bool) : WordFault :=
  { f with errors := addErrors f.errors symbols, stuck := if hard then addErrors f.stuck symbols else f.stuck }

/-- An error arises in a stored word (DESIGN CHOICE, log entry 12). -/
def Column.upset (c : Column) (e : WordError) : Column :=
  let u := e.word.toNat
  c.setFault u (upsetFault (c.faultOf u) (e.symbols.map fun x => (x.1.val, x.2)) e.hard)

/-- A failing row is captured once (DESIGN CHOICE, log entry 55). -/
def Column.captureRow (c : Column) (u : Nat) : Column :=
  let r := (bankOfWord u, rowOfWord u)
  if c.capture.contains r then c else { c with capture := c.capture ++ [r] }

/-- What a read of the stored word finds, counted and recorded; the stored copy is unchanged (R220, R221). `reader` is the
row of Table 11-3. -/
def Column.noteRead (c : Column) (s : ColSite) (u reader : Nat) : ColStep :=
  match c.faultAt u with
  | none => (c, [])
  | some (.correctable sym pat) =>
    ({ c.captureRow u with
       corrected := satAdd c.corrected 1, lastWord := BitVec.ofNat 26 u,
       lastSyndrome := syndromeWord (.correctable sym pat) },
     if c.records then [s.report 0x20 (s.addr u) (sym.toNat * 256 + pat.toNat)] else [])
  | some f =>
    ({ c.captureRow u with uncorrectable := satAdd c.uncorrectable 1, lastWord := BitVec.ofNat 26 u, lastSyndrome := syndromeWord f },
     [s.report 0x21 (s.addr u) (uncorrAux f reader)])

/-- The word's stored copy after a whole write: sound but for the symbols of a hard fault (R222, R229) (DESIGN CHOICE, log entry 12). -/
def Column.rewrite (c : Column) (u : Nat) : Column :=
  let k := (c.faultOf u).stuck
  c.setFault u ⟨false, k, k⟩

/-- The poison marker written to a word (R222, R224, R229). -/
def Column.poisonWord (c : Column) (u : Nat) : Column :=
  let k := (c.faultOf u).stuck
  c.setFault u ⟨true, k, k⟩

/-- A merge-buffer entry leaves: as one word write, or as a read-modify-write (R223, R224). -/
def Column.evict (c : Column) (s : ColSite) (u : Nat) (mask : BitVec 64) : ColStep :=
  let c1 := (c.wake u)
  if mask = BitVec.allOnes 64 then ({ c1.rewrite u with merged := wrapAdd c.merged 1 }, [])
  else
    let a := c1.noteRead s u 4
    let c2 := if a.1.readable u then a.1.rewrite u else a.1.poisonWord u
    ({ c2 with rmw := wrapAdd c.rmw 1 }, a.2)

/-- Every entry leaves, oldest first (R223 event 4). -/
def evictAll (c : Column) (s : ColSite) (es : List (Nat × BitVec 64)) : ColStep :=
  match es with
  | [] => (c, [])
  | e :: r =>
    let a := c.evict s e.1 e.2
    let b := evictAll a.1 s r
    (b.1, a.2 ++ b.2)

/-- The owner slot or opening ends: the merge buffer empties. -/
def Column.drain (c : Column) (s : ColSite) : ColStep := evictAll { c with merge := [] } s c.merge

/-- The entry for one word leaves (R223 event 3). -/
def Column.evictWord (c : Column) (s : ColSite) (u : Nat) : ColStep :=
  match c.merge.find? fun e => e.1 == u with
  | some e => ({ c with merge := c.merge.filter fun e => e.1 != u } : Column).evict s u e.2
  | none => (c, [])

/-- A read of one word by an agent: its bank wakes, its pending bytes leave first, and what it finds is noted. -/
def Column.read (c : Column) (s : ColSite) (u reader : Nat) : ColStep :=
  let a := (c.wake u).evictWord s u
  let b := a.1.noteRead s u reader
  (b.1, a.2 ++ b.2)

/-- The byte mask of `len` bytes from byte `o` of a word. -/
def byteMask (o len : Nat) : BitVec 64 := BitVec.ofNat 64 ((2 ^ len - 1) * 2 ^ o)

/-- A write of `len` bytes at byte `o` of word u (R223). -/
def Column.write (c : Column) (s : ColSite) (u o len : Nat) : ColStep :=
  let c0 := c.wake u
  let m := byteMask o len
  match c0.merge.find? fun e => e.1 == u with
  | some e =>
    let m1 := e.2 ||| m
    if m1 = BitVec.allOnes 64 then
      ({ c0 with merge := c0.merge.filter fun x => x.1 != u } : Column).evict s u m1
    else ({ c0 with merge := c0.merge.map fun x => if x.1 = u then (u, m1) else x }, [])
  | none =>
    if m = BitVec.allOnes 64 then (c0.rewrite u, [])
    else if c0.merge.length < 16 then ({ c0 with merge := c0.merge ++ [(u, m)] }, [])
    else
      match c0.merge with
      | [] => (c0, [])
      | e :: r => 
        let a := ({ c0 with merge := r } : Column).evict s e.1 e.2
        ({ a.1 with merge := a.1.merge ++ [(u, m)] }, a.2)

/-! ### Refresh (R53, R225 to R227) -/

/-- The group with the smallest count, the lowest-numbered on a tie. -/
def leastIndex (l : List Nat) : Nat :=
  let m := l.foldl min (l.headD 0)
  (l.findIdx? fun x => x == m).getD 0

/-- The group that a used opening refreshes (R225). -/
def refreshTarget (counts : List Nat) (named : Nat) : Nat :=
  let m := counts.foldl min (counts.headD 0)
  if (counts[named]?).getD 0 < m + 2 then named else leastIndex counts

/-- The group that self-refresh takes next: the one after the group refreshed last, group 0 at first (R227) (DESIGN CHOICE, log entry
24). -/
def Column.nextGroup (c : Column) : Nat := if c.counts.all (· == 0) then 0 else (c.refreshGroup.toNat + 1) % 8

/-- One refresh paid to group `g`. -/
def Column.pay (c : Column) (g : Nat) : Column :=
  { c with debt := c.debt - 1, counts := modifyNth c.counts g (· + 1), refreshGroup := BitVec.ofNat 3 g }

/-- Every due refresh performed at once, in group rotation (R227). -/
def Column.payAll (c : Column) : Column := (List.range c.debt).foldl (fun a _ => a.pay a.nextGroup) c

/-- The multiplier floor in effect: 0b11 acts as 0b10 (Table 11-9). -/
def multFloor (v : BitVec 2) : BitVec 2 := if v = 3 then 2 else v

/-- The threshold above which a multiplier holds, in °C. -/
def multFor (t : Nat) : BitVec 2 := if t ≤ 85 then 0 else if t ≤ 95 then 1 else 2

/-- REFRESH_HYST: 0 acts as 1 (Table 11-9). -/
def refreshHyst (c : Column) : Nat := max 1 (field c.expertNow 0 3).toNat

/-- The readings' own multiplier after a sample (R226): it rises above a threshold at once, and falls at the first sample at or below the
threshold minus REFRESH_HYST. -/
def multAfter (c : Column) (t : Nat) : BitVec 2 :=
  let up := multFor t
  let down := multFor (t + refreshHyst c)
  if c.mult < up then up else if down < c.mult then down else c.mult

/-- A multiplier held at MULT_FLOOR or above (R226, R255). -/
def atFloor (floor m : BitVec 2) : BitVec 2 := if m < multFloor floor then multFloor floor else m

/-- The multiplier in effect: the readings' own, never below MULT_FLOOR of PK_EXPERT (R226). -/
def Column.multNow (c : Column) : BitVec 2 := atFloor (field c.expertNow 8 2) c.mult

/-- A DRAM-layer sample reaches the controller; an invalid sensor sets 4× until cold reset (R226). -/
def Column.sample (c : Column) (t : Nat) (valid : Bool) : Column :=
  if !valid || c.sensorFailed then { c with sensorFailed := true, mult := 2 }
  else { c with sensorC := BitVec.ofNat 8 t, mult := multAfter c t }

/-! ### Scrub steps (R229 to R232) -/

/-- What a scrub step counts for its pass's summary. -/
structure ScrubCounts where
  corrected : Nat
  uncorrectable : Nat
  verifyFails : Nat
  remapped : Nat
  retired : Nat
  wakes : Nat
  firstUncorr : Option Nat
deriving DecidableEq, Repr

def ScrubCounts.zero : ScrubCounts := ⟨0, 0, 0, 0, 0, 0, none⟩

/-- The ACTIVE remap entry of a word. -/
def Column.remapOf (c : Column) (u : Nat) : Option Nat :=
  c.remap.findIdx? fun e => e.state == 1 && e.word == BitVec.ofNat 26 u

/-- The lowest-numbered unused spare of a group: one that no ACTIVE or DEAD entry of the group names (R230, R231). -/
def Column.freeSpare (c : Column) (g : Nat) : Option Nat :=
  (List.range 8).find? fun k =>
    !c.remap.any fun e => e.state != 0 && e.word.toNat % 8 == g && e.spare.toNat == k

/-- The page of a word within its slot. -/
def pageOf (u : Nat) : Nat := 64 * u / 0x200000

/-- R232: the page retires, unless it already is. -/
def Column.retire (c : Column) (s : ColSite) (u : Nat) : ColStep × Nat :=
  let p := pageOf u
  if c.retired.contains p then ((c, []), 0)
  else
    let n := satAdd c.retiredCount 1
    (({ c with retired := c.retired ++ [p], retiredCount := n, lastPage := BitVec.ofNat 11 p },
      [s.report 0x24 (s.base + p * 0x200000) n.toNat]), 1)

/-- R230, R231: the word moves to a spare of its group, an ACTIVE entry that already names it going DEAD. The repair log holds every
change of an entry anew (R233). -/
def Column.remapWord (c : Column) (s : ColSite) (u : Nat) (poison : Bool) (n : ScrubCounts) : ColStep × ScrubCounts :=
  let dead := match c.remapOf u with
    | some i => ({ c with remap := modifyNth c.remap i fun e => { e with state := 2 }, logCleared := c.logCleared.erase i },
                 [s.report 0x23 (s.addr u) (i * 256 + 2)])
    | none => (c, [])
  let c1 := dead.1
  match c1.remap.findIdx? (fun e => e.state == 0), c1.freeSpare (u % 8) with
  | some i, some k =>
    let c2 := { c1 with remap := modifyNth c1.remap i fun _ => ⟨1, BitVec.ofNat 3 k, BitVec.ofNat 26 u⟩,
                        logCleared := c1.logCleared.erase i,
                        faults := c1.faults.filter fun e => e.1 != u }
    (((if poison then c2.poisonWord u else c2), dead.2 ++ [s.report 0x23 (s.addr u) (i * 256 + 1)]),
     { n with remapped := n.remapped + 1 })
  | _, _ =>
    let r := c1.retire s u
    ((r.1.1, dead.2 ++ r.1.2), { n with retired := n.retired + r.2 })

/-- One word of a scrub step: the corrected word or the poison marker written back, and the verify read (R229). -/
def Column.scrubWord (c : Column) (s : ColSite) (u : Nat) (n : ScrubCounts) : ColStep × ScrubCounts :=
  let woke := bit c.banksOff (bankOfWord u)
  let n0 := if woke then { n with wakes := n.wakes + 1 } else n
  let a := c.read s u 5
  match c.faultAt u with
  | none => (a, n0)
  | some f =>
    let bad := match f with
      | .correctable _ _ => false
      | _ => true
    let n1 := if bad then { n0 with uncorrectable := n0.uncorrectable + 1,
                                    firstUncorr := some (n0.firstUncorr.getD (s.addr u)) }
              else { n0 with corrected := n0.corrected + 1 }
    let c1 := if bad then a.1.poisonWord u else a.1.rewrite u
    if (c.faultOf u).stuck ≠ [] then
      let c2 := { c1 with verifyFails := satAdd c1.verifyFails 1 }
      let sym := match c1.faultAt u with
        | some (.correctable y p) => y.toNat * 256 + p.toNat
        | _ => 0x7F00
      let v := [s.report 0x22 (s.addr u) sym]
      let n2 := { n1 with verifyFails := n1.verifyFails + 1 }
      if c2.remapAuto then
        let r := c2.remapWord s u bad n2
        ((r.1.1, a.2 ++ v ++ r.1.2), r.2)
      else ((c2, a.2 ++ v), n2)
    else ((c1, a.2), n1)

/-- The 32 words of a 2 KiB step, from word u on (R229). -/
def Column.scrubWords (k : Nat) (c : Column) (s : ColSite) (u : Nat) (n : ScrubCounts) : ColStep × ScrubCounts :=
  match k with
  | 0 => ((c, []), n)
  | j + 1 =>
    let a := c.scrubWord s u n
    let b := scrubWords j a.1.1 s (u + 1) a.2
    ((b.1.1, a.1.2 ++ b.1.2), b.2)

/-! ### Bank power-down and fill -/

/-- BANK_OFF served: the named banks turn off, after the merge entries of their words have left (R234, Table 11-7). -/
def Column.bankOff (c : Column) (s : ColSite) (mask : BitVec 64) : ColStep :=
  let named (e : Nat × BitVec 64) : Bool := bit mask (bankOfWord e.1)
  let a := evictAll { c with merge := c.merge.filter fun e => !named e } s (c.merge.filter named)
  ({ a.1 with banksOff := a.1.banksOff ||| mask }, a.2)

/-- LAST_PAGE as the repair log gives it: the last of the pages that it keeps (R233, Table 11-15). -/
def lastKept (retired : List Nat) : BitVec 11 := BitVec.ofNat 11 (((retired.take 32).getLast?).getD 0)

/-- The power-on fill of a Panel power cycle or cold reset: every word valid, markers cleared, banks on, counters zero; the
remap table and the retired pages come back from the repair log (R233, R235). A sensor that has failed holds 4× until cold reset
(R226). -/
def Column.fill (c : Column) : Column :=
  { Column.reset with
    remap := c.remap, retired := c.retired.take 32, retiredCount := BitVec.ofNat 16 (min 32 c.retired.length),
    logCleared := c.logCleared, repairs := c.repairs, fused := c.fused, capture := c.capture,
    sensorFailed := c.sensorFailed, mult := if c.sensorFailed then 2 else 0,
    lastPage := lastKept c.retired, ctrl := c.ctrl, ctrlNow := c.ctrl, expert := c.expert, expertNow := c.expertNow,
    faults := (c.faults.filter fun e => e.2.stuck != []).map fun e => (e.1, ⟨false, e.2.stuck, e.2.stuck⟩) }

/-- Remap entries that the repair log no longer holds return as FREE. -/
def clearEntries (m : List RemapEntry) (is : List Nat) : List RemapEntry :=
  m.mapIdx fun i e => if is.contains i then ⟨0, 0, 0⟩ else e

/-- Cold reset of a column: the fill, setup registers at their reset values, and the repairs of R238 in effect. -/
def Column.cold (c : Column) : Column :=
  let f := c.fill
  { f with
    remap := clearEntries c.remap c.logCleared, logCleared := [], repairs := [], fused := c.fused ++ c.repairs,
    sensorFailed := false, mult := 0, capture := [],
    faults := f.faults.filter fun e => !c.repairs.any fun d => repairCovers d e.1,
    ctrl := Column.reset.ctrl, ctrlNow := Column.reset.ctrl, expert := Column.reset.expert, expertNow := Column.reset.expert }

end Sys2Proof.Machine
end

