-- ==== Sys2Proof/Machine/Array.lean ====
section
/-!
DEFINITION. The matrix array and its gather queue as a unit of the core: loads, weight fronts, passes, gather flushes
(R93 to R109) and what REGION_OFF discards (R92).
-/

namespace Sys2Proof.Machine

/-- The core with its array state changed. -/
def Local.arrUpd (l : Local) (f : ArrayState → ArrayState) : Local :=
  { l with core := { l.core with arr := f l.core.arr } }

/-- The record that the issue logic makes of an ARR_WLOAD (R95). -/
def loadRecordOf (x : Pattern) (packed : Bool) : LoadRecord :=
  let f := patFormat x
  let k := x.n0
  let w := segmentInputs f packed
  ⟨f, packed, k, patRunCount x, patRunCount x * ((k + w - 1) / w)⟩

/-- All rows of a load decoded, with the malformed groups and reserved codes counted. -/
def decodeLoad (r : LoadRecord) (runs : List (List Byte)) : List WeightRow × Nat × Nat :=
  let d := runs.map (decodeWeights r.format r.packed r.k)
  (d.map (·.1), (d.map (·.2.1)).sum, (d.map (·.2.2)).sum)

/-- SY operations among the one that occupies the array: one of a pass, one of each gather of a batch. -/
def opSyCount : ArrOp → Nat
  | .wload sy _ _ => if sy then 1 else 0
  | .pass sy _ _ _ => if sy then 1 else 0
  | .flush b => (b.filter (·.sy)).length
  | .gather e => if e.sy then 1 else 0
  | .gcfg _ | .force | .off | .gatherOff => 0

def runningSy (s : ArrayState) : Nat :=
  match s.running with
  | some r => opSyCount r.1
  | none => 0

/-- ARR_WLOAD: the load read through port 0 into a half of the weight store. The half of the load that the running pass uses
is kept (R95). A load with SY counts until the SY operation that runs before it has completed (R75). -/
def Local.runWload (l : Local) (sy : Bool) (x : Pattern) (packed : Bool) : Local :=
  let rec' := loadRecordOf x packed
  let a := (l.cross 0 (patLines x)).readRuns 0 (weightRunBytes rec'.format packed rec'.k) (patRuns x)
  let d := decodeLoad rec' a.1
  a.2.arrUpd fun s =>
    { s with
      halves := ⟨rec', d.1⟩ :: (match s.running with | some r => [r.2] | none => []),
      placed := 0, front := false,
      loadsBehind := s.loadsBehind + (if sy && decide (0 < runningSy s) then 1 else 0),
      metaErrors := satAdd s.metaErrors d.2.1, t2Reserved := satAdd s.t2Reserved d.2.2 }

/-- Segments `first` to `first + count - 1` dealt to the cell rows in ring order (R99). -/
def dealSegments (s : ArrayState) (first count : Nat) : ArrayState :=
  { s with
    cells := (List.range count).foldl (fun m i => mapPut m ((s.nextCell + i) % 128) (first + i)) s.cells,
    nextCell := (s.nextCell + count) % 128 }

/-- FRONT_SEGMENTS in effect (Table 05-10). -/
def frontSegments (expert : BitVec 32) : Nat := if (field expert 0 2).toNat = 1 then 1 else 2

/-- A load's front: at most 128 segments placed; segments of earlier loads serve no pass any more. -/
def placeFront (s : ArrayState) (h : WeightLoad) (beats rate : Nat) : ArrayState :=
  let n := min 128 h.load.segments
  { dealSegments { s with cells := [] } 0 n with front := true, placed := n, frontEnd := beats + (n + rate - 1) / rate }

/-- ARRAY_FRONT_START: the front of the newest load starts once no pass occupies the array, and places at most 128 segments
ahead of its first pass (R99, R100) (DEDUCED, log entry 33). -/
def Local.frontStart (l : Local) : Local :=
  match l.core.arr.running, l.core.arr.halves with
  | none, h :: _ =>
    if l.core.arr.front then l
    else l.arrUpd fun s => placeFront s h l.core.seq.beats (frontSegments l.core.ctrl.arrayExpertNow)
  | _, _ => l

/-- The X patterns whose rows an operation applies. -/
def opPatterns : ArrOp → List Pattern
  | .pass _ x _ _ => [x]
  | .flush b => b.map (·.x)
  | _ => []

/-- The bytes of an operation's activation rows, each at its full K elements (R102). -/
def activationBytes (k : Nat) (o : ArrOp) : Nat :=
  ((opPatterns o).map fun x => patElems x / max 1 k * runBytes (patFormat x) k).sum

/-- Whether the activation rows of an operation fit in the 64 KiB of the activation store. -/
def rowsHeld (k : Nat) (o : ArrOp) : Bool := decide (activationBytes k o ≤ 65536)

/-- The runs of X patterns read through port 1, pattern by pattern. -/
def Local.readActivations (l : Local) (xs : List Pattern) : List (List (List Byte)) × Local :=
  match xs with
  | [] => ([], l)
  | x :: r =>
    let a := l.readRuns 1 (patRunBytes x) (patRuns x)
    let b := a.2.readActivations r
    (a.1 :: b.1, b.2)

/-- The activation store filled with the rows of an operation, where they fit (Table 05-1). -/
def Local.fillActivations (l : Local) (k : Nat) (o : ArrOp) : Local :=
  if rowsHeld k o then
    let a := l.readActivations (opPatterns o)
    a.2.arrUpd fun s => { s with activations := a.1 }
  else l.arrUpd fun s => { s with activations := [] }

/-- The operations that occupy the array. -/
def occupies : ArrOp → Bool
  | .pass _ _ _ _ | .flush _ => true
  | _ => false

/-- ARRAY_PASS_START: the pass or flush at the head of the ARRAY queue starts its occupancy on the load in the store
(R99, R100) (DEDUCED, log entry 33). -/
def Local.passStart (l : Local) : Local :=
  match l.core.arr.running, l.core.arr.queue, l.core.arr.halves with
  | none, o :: r, h :: _ =>
    if occupies o then
      let a := l.frontStart.fillActivations h.load.k o
      a.arrUpd fun s => { s with queue := r, running := some (o, h) }
    else l
  | _, _, _ => l

/-- The slices reused between the rows of one X pattern in one reading (R102). -/
def reusedSlices (rec' : LoadRecord) (x : Pattern) : Nat :=
  let f := patFormat x
  let w := segmentInputs rec'.format rec'.packed
  let n := x.n0 / w
  let bits := x.s2 * 32
  let d := bits / ((fmtWidth f * w : Nat) : Int)
  if !fmtScaled f && x.n0 * x.n1 == rec'.k && x.n0 % w == 0 && bits % ((fmtWidth f * w : Nat) : Int) == 0
      && decide (0 < d) && decide (d < n) then
    (n - d.toNat) * x.n1 * ((x.n2 - 1) * x.n3)
  else 0

/-- How often the activation rows of an operation are read: once where they fit in the 64 KiB store, else once per set of up to
128 segments. -/
def readings (rec' : LoadRecord) (o : ArrOp) : Nat := if rowsHeld rec'.k o then 1 else (rec'.segments + 127) / 128

/-- The codes of an already written result pattern (port 2, ACC = 1). -/
def Local.readResults (l : Local) (y : Pattern) : List Nat × Local :=
  let a := l.readRuns 2 (patRunBytes y) (patRuns y)
  (a.1.flatMap fun b => unpackCodes (fmtWidth (patFormat y)) y.n0 (leNat b), a.2)

/-- The N results of each activation row in turn (R96, R98). -/
def passResults (h : WeightLoad) (rows : List RunData) : List (Word × Nat) :=
  rows.flatMap fun a => h.rows.map fun w => dotRow h.load.format h.load.k w a

/-- Result codes packed into the runs of a Y pattern. -/
def resultRuns (y : Pattern) (codes : List Nat) : List (List Byte) :=
  let f := patFormat y
  (chunks y.n0 codes.length codes).map fun c => leBytes (elemBytes f c.length) (packCodes (fmtWidth f) c)

/-- The runs of an X pattern: those that the activation store holds, else read again through port 1. -/
def Local.activationRuns (l : Local) (x : Pattern) (held : Option (List (List Byte))) : List (List Byte) × Local :=
  match held with
  | some runs => (runs, l)
  | none => l.readRuns 1 (patRunBytes x) (patRuns x)

/-- The results of one X against a load written to one Y (R96, R126). -/
def Local.applyLoad (l : Local) (h : WeightLoad) (x y : Pattern) (acc : Bool) (held : Option (List (List Byte))) (times : Nat) :
    Local :=
  let a := l.activationRuns x held
  let rows := activationRows h.load.k (a.1.map (decodeRun (patFormat x) x.n0))
  let res := passResults h rows
  let old := if acc then a.2.readResults y else ([], a.2)
  let yf := patFormat y
  let codes := res.mapIdx fun i r => resultCode yf r.1 (if acc then some ((old.1[i]?).getD 0) else none)
  let sats := (res.map (·.2)).sum + (codes.map (·.2)).sum
  (old.2.writeRuns (patRuns y) (resultRuns y (codes.map (·.1)))).arrUpd fun s =>
    { s with
      saturations := satAdd s.saturations sats,
      reuse := wrapAdd s.reuse
        (if bit old.2.core.ctrl.arrayCtrlNow 0 then reusedSlices h.load x * times else 0) }

/-- The results of a flush's sequences, each to its own Y (R106, R108). -/
def Local.applyBatch (l : Local) (h : WeightLoad) (batch : List GatherEntry) (held : List (List (List Byte))) (times : Nat) :
    Local :=
  match batch with
  | [] => l
  | g :: r => (l.applyLoad h g.x g.y false held.head? times).applyBatch h r (held.drop 1) times

/-- Activation rows of an operation on a load. -/
def opRows (k : Nat) : ArrOp → Nat
  | .pass _ x _ _ => patElems x / max 1 k
  | .flush b => (b.map (·.rows)).sum
  | _ => 0

/-- CO_ARRAY_WORK, CO_ARRAY_PASSES and the placed segments at the end of an occupancy (Tables 05-12, 05-13). -/
def countPass (s : ArrayState) (h : WeightLoad) (rows : Nat) : ArrayState :=
  let beats := s.workRest + h.load.segments * rows * segmentBeats h.load.format
  let dealt := if h.load.segments ≤ 128 then s else dealSegments s s.placed (h.load.segments - s.placed)
  { dealt with
    running := none, activations := [], loadsBehind := 0, passes := wrapAdd s.passes 1, work := wrapAdd s.work (beats / 128),
    workRest := beats % 128,
    front := if h.load.segments ≤ 128 then s.front else false,
    placed := if h.load.segments ≤ 128 then s.placed else 0,
    halves := s.halves.take 1 }

/-- ARRAY_PASS_END: the occupancy ends and every result is written (R76, R100). -/
def Local.passEnd (l : Local) : Local :=
  match l.core.arr.running with
  | some (.pass sy x y acc, h) =>
    ((l.crossAll (arrPorts (.pass sy x y acc))).applyLoad h x y acc l.core.arr.activations.head? (readings h.load (.pass sy x y acc))).arrUpd fun s =>
      countPass s h (opRows h.load.k (.pass sy x y acc))
  | some (.flush b, h) =>
    ((l.crossAll (arrPorts (.flush b))).applyBatch h b l.core.arr.activations (readings h.load (.flush b))).arrUpd fun s =>
      countPass s h (opRows h.load.k (.flush b))
  | _ => l

/-- The causes of Table 05-7. -/
inductive FlushCause where
  | threshold | timeout | forced
deriving DecidableEq, Repr

/-- Whether an entry of the ARRAY queue is a gather that waits for its region, or came behind one. -/
def behindGather : ArrOp → Bool
  | .gather _ | .gcfg _ | .force => true
  | _ => false

/-- Whether gathers wait in the ARRAY queue. -/
def gathersWait (s : ArrayState) : Bool := s.queue.any behindGather

/-- A batch placed into the ARRAY queue behind every operation issued before it. -/
def putFlush (q : List ArrOp) (b : List GatherEntry) : List ArrOp :=
  (q.takeWhile fun o => !behindGather o) ++ .flush b :: q.dropWhile fun o => !behindGather o

/-- GATHER_FLUSH: the batch becomes one pass in the ARRAY queue, ahead of whatever forced it (R107, R108). An empty
queue does not flush. -/
def flushGather (s : ArrayState) (c : FlushCause) : ArrayState :=
  if s.gather = [] then s
  else
    { s with
      queue := putFlush s.queue s.gather, gather := [],
      gatherRows := wrapAdd s.gatherRows ((s.gather.map (·.rows)).sum),
      flushForced := if c = .forced then wrapAdd s.flushForced 1 else s.flushForced,
      flushTimeout := if c = .timeout then wrapAdd s.flushTimeout 1 else s.flushTimeout,
      flushThreshold := if c = .threshold then wrapAdd s.flushThreshold 1 else s.flushThreshold }

/-- Rows in the gather queue. -/
def gatherCount (s : ArrayState) : Nat := (s.gather.map (·.rows)).sum

/-- ARR_GATHER (R106): a sequence that does not fit flushes the queue first; the queue flushes at its threshold. -/
def addGather (s : ArrayState) (e : GatherEntry) (beats : Nat) : ArrayState :=
  let s1 := if 64 < gatherCount s + e.rows then flushGather s .forced else s
  let s2 := { s1 with gather := s1.gather ++ [e], gatherStart := if s1.gather = [] then beats else s1.gatherStart }
  if s2.gatherCfg.threshold ≤ s2.gather.length then flushGather s2 .threshold else s2

/-- A forced flush: of the gather queue now, and of the gathers that wait for their region once they have entered it. -/
def forceFlush (s : ArrayState) : ArrayState :=
  let s1 := flushGather s .forced
  if gathersWait s1 && s1.queue.getLast? != some .force then { s1 with queue := s1.queue ++ [.force] } else s1

/-- ARR_GATHER at issue: into the gather queue, or behind the gathers that wait for the region (R91, R106). -/
def issueGather (s : ArrayState) (on : Bool) (e : GatherEntry) (beats : Nat) : ArrayState :=
  if on && !gathersWait s then addGather s e beats else { s with queue := s.queue ++ [.gather e] }

/-- ARR_GCFG (R105): the queue flushes, and the next batch has the new settings. -/
def setGather (s : ArrayState) (threshold : BitVec 6) (timeout : BitVec 14) : ArrayState :=
  let s1 := forceFlush s
  let cfg : GatherCfg := ⟨threshold.toNat + 1, timeout.toNat⟩
  if gathersWait s1 then { s1 with queue := s1.queue ++ [.gcfg cfg] } else { s1 with gatherCfg := cfg }

/-- The timeout in effect, in units of 16 beats: a nonzero timeout below GATHER_TIMEOUT_MIN acts as that minimum (R105). -/
def timeoutNow (cfg : GatherCfg) (expert : BitVec 32) : Nat :=
  if cfg.timeout = 0 then 0 else max cfg.timeout (field expert 16 8).toNat

/-- What a switch-off of the matrix array discards (R92). The issue logic has dropped its record of the current load when the
REGION_OFF issued, so that a word's legality depends on the words before it alone (DEDUCED, log entry 49). -/
def arrayOff (s : ArrayState) : ArrayState :=
  { s with halves := [], placed := 0, front := false, cells := [], activations := [] }

/-- The array at LAUNCH and at the restart of a lap replay (R105, R109); its counters restart at LAUNCH only. -/
def arrayStart (s : ArrayState) : ArrayState :=
  { s with queue := [], current := none, halves := [], placed := 0, front := false, frontEnd := 0, cells := [],
           activations := [], loadsBehind := 0, running := none, gather := [], gatherCfg := GatherCfg.launch,
           gatherStart := 0 }

/-- The counters that restart at each LAUNCH (R110, R134); CO_GATHER_ROWS is none of them. -/
def arrayCountersZero (s : ArrayState) : ArrayState :=
  { s with metaErrors := 0, work := 0, workRest := 0, passes := 0, reuse := 0, flushForced := 0, flushTimeout := 0,
           flushThreshold := 0, saturations := 0, nanBlocks := 0, t2Reserved := 0 }

/-- SY operations of unit ARRAY not yet complete (R75), gathers in the queue and loads behind a running operation included. -/
def arrSyCount (s : ArrayState) : Nat :=
  (s.queue.map opSyCount).sum + runningSy s + s.loadsBehind + (s.gather.filter (·.sy)).length

/-- Entries of the ARRAY queue that operations take. -/
def arrTaken (s : ArrayState) : Nat :=
  (s.queue.filter fun o => match o with
    | .force | .off | .gatherOff => false
    | _ => true).length

end Sys2Proof.Machine
end

