-- ==== Sys2Proof/Machine/RosterWord.lean ====
section
/-!
DEFINITION. Decoding of a 128-bit roster word into the operations of its four slots (R72, Tables 04-4 to 04-15). A slot whose
opcode, sub-function or unit code is reserved, or whose reserved field is not zero, does not decode: its word is illegal
(Table 04-18, R146, R399).
-/

namespace Sys2Proof.Machine

/-- Table 04-5: the unit codes. -/
def unitOf (code : BitVec 4) : Option UnitCode :=
  match code.toNat with
  | 0 => some .move
  | 1 => some .array
  | 2 => some .attention
  | 3 => some .vector
  | _ => none

/-- Table 04-9: codes 0x11 to 0x1C. -/
def aluOf (code : Nat) : Option AluOp :=
  match code with
  | 0x11 => some .add
  | 0x12 => some .sub
  | 0x13 => some .and
  | 0x14 => some .or
  | 0x15 => some .xor
  | 0x16 => some .shl
  | 0x17 => some .shr
  | 0x18 => some .sra
  | 0x19 => some .mul
  | 0x1A => some .mulhu
  | 0x1B => some .slt
  | 0x1C => some .sltu
  | _ => none

/-- Table 04-9: codes 0x20 to 0x26. -/
def aluImmOf (code : Nat) : Option AluImmOp :=
  match code with
  | 0x20 => some .addi
  | 0x21 => some .andi
  | 0x22 => some .ori
  | 0x23 => some .xori
  | 0x24 => some .shli
  | 0x25 => some .shri
  | 0x26 => some .srai
  | _ => none

/-- Table 04-9: codes 0x0B to 0x10. -/
def condOf (code : Nat) : Option Cond :=
  match code with
  | 0x0B => some .eq
  | 0x0C => some .ne
  | 0x0D => some .lt
  | 0x0E => some .ge
  | 0x0F => some .ltu
  | 0x10 => some .geu
  | _ => none

/-- `some x` where the condition holds. -/
def when? {α : Type} (b : Bool) (x : α) : Option α := if b then some x else none

/-- The operations of form C0, which have no operand. -/
def noOperandOf (code : Nat) : Option COp :=
  match code with
  | 0x01 => some .nop
  | 0x02 => some .endRoster
  | 0x03 => some .lapMark
  | 0x04 => some .privateBegin
  | 0x05 => some .privateEnd
  | 0x06 => some .stepMark
  | _ => none

/-- The C slot (Tables 04-8, 04-9). -/
def decodeC (w : BitVec 32) : Option COp :=
  let op := (field w 26 6).toNat
  let d : RegId := field w 21 5
  let a : RegId := field w 16 5
  let b : RegId := field w 11 5
  let imm : BitVec 16 := field w 0 16
  match noOperandOf op, aluOf op, aluImmOf op, condOf op with
  | some o, _, _, _ => when? (field w 0 26 == 0) o
  | _, some o, _, _ => when? (field w 0 11 == 0) (.alu o d a b)
  | _, _, some o, _ =>
    let shift := op ≥ 0x24
    when? (!shift || field w 6 10 == 0) (.alui o d a imm)
  | _, _, _, some c => some (.branch c d a imm)
  | none, none, none, none =>
    match op with
    | 0x07 => (unitOf (field w 22 4)).bind fun u => when? (field w 16 6 == 0) (.wait u imm)
    | 0x08 => some (.loop (field w 14 12) (field w 0 14))
    | 0x09 => when? (d == 0 && field w 14 2 == 0) (.loopr a (field w 0 14))
    | 0x0A => when? (d == 0 && a == 0) (.jmp imm)
    | 0x27 => when? (field w 18 3 == 0) (.lih d (field w 16 2) imm)
    | 0x28 => some (.ldw d a imm)
    | 0x29 => some (.ldd d a imm)
    | 0x2A => some (.stw d a imm)
    | 0x2B => some (.std d a imm)
    | 0x2C => when? (d == 0) (.patLoad a (field w 8 8) (field w 0 8))
    | 0x2D => when? (a == 0 && imm.toNat ≤ 4) (.rdctr d imm)
    | _ => none

/-- The M slot (Tables 04-10, 04-11, R399). -/
def decodeM (w : BitVec 32) : Option MOp :=
  let tl := bit w 25
  let sy := bit w 24
  let sa : RegId := field w 19 5
  let ps : BitVec 8 := field w 8 8
  let pf : BitVec 8 := field w 0 8
  let hi : BitVec 4 := field w 4 4
  let lo : BitVec 4 := field w 0 4
  let res := field w 16 3 == 0
  match (field w 26 6).toNat with
  | 0x00 => when? (field w 0 26 == 0) .nop
  | 0x01 => when? res (.moveIn tl sy sa ps pf)
  | 0x02 => when? res (.moveOut tl sy sa ps pf)
  | 0x03 => when? (res && lo == 0) (.moveRemote tl sy sa ps hi)
  | 0x04 => when? (res && lo == 0 && ps == 0) (.creditTake tl sy sa hi)
  | 0x05 => when? (res && lo == 0 && ps == 0) (.creditGive tl sy sa hi)
  | 0x06 => when? (res && !tl && !sy && pf == 0 && 1 ≤ ps.toNat && ps.toNat ≤ 7) (.turnEnd sa ps)
  | 0x07 => when? (res && ps == 0 && hi == 0) (.fetchRoster tl sy sa lo)
  | 0x08 => when? res (.atomicAdd tl sy sa ps pf)
  | 0x09 => when? (res && pf == 0) (.nearOp tl sy sa ps)
  | 0x0A => when? (res && ps == 0 && pf == 0) (.bankOff tl sy sa)
  | 0x0B => when? (res && !tl && sa == 0 && ps == 0 && hi == 0) (.regionOn sy lo)
  | 0x0C => when? (res && !tl && sa == 0 && ps == 0 && hi == 0) (.regionOff sy lo)
  | _ => none

/-- The A slot (Tables 04-12, 04-13; ATT_MODE, ATT_Q and ATT_WALK take Y as Table 08-3 says). -/
def decodeA (w : BitVec 32) : Option AOp :=
  let sy := bit w 25
  let x : BitVec 8 := field w 16 8
  let y : BitVec 8 := field w 8 8
  let z : BitVec 8 := field w 0 8
  let res := !bit w 24
  match (field w 26 6).toNat with
  | 0x00 => when? (field w 0 26 == 0) .nop
  | 0x01 => when? (res && y == 0 && field z 1 7 == 0) (.wload sy x (bit z 0))
  | 0x02 => when? (res && field z 1 7 == 0) (.pass sy x y (bit z 0))
  | 0x03 => when? (!sy && field w 20 5 == 0) (.gcfg (field w 14 6) (field w 0 14))
  | 0x04 => when? (res && z == 0) (.gather sy x y)
  | 0x08 => when? (res && z == 0 && y == 0xFF) (.attMode sy x)
  | 0x09 => when? (res && z == 0) (.attQ sy x y)
  | 0x0A => when? (res && z == 0) (.attKv sy x y)
  | 0x0B => when? (res && z == 0 && y == 0xFF) (.attWalk sy x)
  | 0x0C => when? (res && z == 0) (.attOut sy x y)
  | _ => none

/-- The two-source operations of codes 0x03 to 0x05, 0x07 and 0x08 (Table 04-15). -/
def vec2Of (code : Nat) : Option VecOp2 :=
  match code with
  | 0x03 => some .add
  | 0x04 => some .sub
  | 0x05 => some .mul
  | 0x07 => some .max
  | 0x08 => some .min
  | _ => none

/-- The V slot (Tables 04-14, 04-15, 07-6, 06-11). -/
def decodeV (w : BitVec 32) : Option VOp :=
  let vd : RegId := field w 21 5
  let va : RegId := field w 16 5
  let vb : RegId := field w 11 5
  let vc : RegId := field w 6 5
  let pat : BitVec 8 := field w 8 8
  let bf := bit w 5
  let sy := bit w 4
  let fn : BitVec 4 := field w 0 4
  let op := (field w 26 6).toNat
  match vec2Of op with
  | some o => when? (vc == 0 && fn == 0) (.arith o sy bf vd va vb)
  | none =>
    match op with
    | 0x00 => when? (field w 0 26 == 0) .nop
    | 0x01 => when? (va == 0 && field w 6 2 == 0 && !bf && fn == 0) (.vld sy bf vd pat)
    | 0x02 => when? (vd == 0 && field w 6 2 == 0 && !bf && fn == 0) (.vst sy bf va pat)
    | 0x06 => when? (fn == 0) (.vfma sy bf vd va vb vc)
    | 0x09 => when? (vb == 0 && vc == 0 && fn.toNat ≤ 4) (.vsf sy bf vd va fn)
    | 0x0A => when? (vb == 0 && vc == 0 && (tableSegment fn.toNat).isSome) (.vtbl sy bf vd va fn)
    | 0x0B => when? (vb == 0 && vc == 0 && fn.toNat ≤ 3) (.vred sy bf vd va fn)
    | 0x0C => when? (vb == 0 && vc == 0 && !bf && fn.toNat ≤ 3) (.vcvt sy bf vd va fn)
    | 0x0D => when? (vc == 0 && !bf && fn.toNat ≤ 2) (.vcmp sy bf vd va vb fn)
    | 0x0E => when? (!bf && fn == 0) (.vsel sy bf vd va vb vc)
    | 0x0F => when? (vb == 0 && vc == 0 && fn.toNat ≤ 1) (.vsplat sy bf vd va fn)
    | 0x10 => when? (vd == 0 && va == 0 && field w 6 2 == 0 && !bf && fn == 0) (.vtload sy bf pat)
    | _ => none

/-- A roster word (R72, Table 04-4), none where any slot is illegal by its encoding alone. -/
def decodeWord (w : RosterWord) : Option Slots :=
  match decodeC (field w 0 32), decodeM (field w 32 32), decodeA (field w 64 32), decodeV (field w 96 32) with
  | some c, some m, some a, some v => some ⟨c, m, a, v⟩
  | _, _, _, _ => none

end Sys2Proof.Machine
end

