-- ==== Sys2Proof/Machine/Operands.lean ====
section
/-!
DEFINITION. The operand forms of a roster word: scalar registers (R74), the scalar arithmetic of Table 04-9, scratchpad
addresses of the C slot, pattern operands by their index (R79, R80), and transfers of control (R81).
-/

namespace Sys2Proof.Machine

/-- The core with its sequencer changed. -/
def Local.seqr (l : Local) (f : Sequencer → Sequencer) : Local := { l with core := { l.core with seq := f l.core.seq } }

/-- s[r]; s0 reads as zero. -/
def regGet (regs : List (Nat × DWord)) (r : RegId) : DWord := if r = 0 then 0 else mapGet 0 regs r.toNat

/-- s[r] written; a write to s0 is discarded. -/
def regPut (regs : List (Nat × DWord)) (r : RegId) (v : DWord) : List (Nat × DWord) :=
  if r = 0 then regs else mapPut regs r.toNat v

/-- The scalar operations of form CR (Table 04-9). -/
def alu (o : AluOp) (a b : DWord) : DWord :=
  let sh := (field b 0 6).toNat
  match o with
  | .add => a + b
  | .sub => a - b
  | .and => a &&& b
  | .or => a ||| b
  | .xor => a ^^^ b
  | .shl => a <<< sh
  | .shr => a >>> sh
  | .sra => a.sshiftRight sh
  | .mul => a * b
  | .mulhu => BitVec.ofNat 64 (a.toNat * b.toNat / 2 ^ 64)
  | .slt => if a.slt b then 1 else 0
  | .sltu => if a.ult b then 1 else 0

/-- The scalar operations of form CI (Table 04-9). -/
def aluImm (o : AluImmOp) (a : DWord) (imm : BitVec 16) : DWord :=
  let sh := (field imm 0 6).toNat
  match o with
  | .addi => a + imm.signExtend 64
  | .andi => a &&& imm.setWidth 64
  | .ori => a ||| imm.setWidth 64
  | .xori => a ^^^ imm.setWidth 64
  | .shli => a <<< sh
  | .shri => a >>> sh
  | .srai => a.sshiftRight sh

/-- LIH: bits [16 q + 15 : 16 q] replaced (Table 04-9). -/
def insertQuarter (a : DWord) (q : BitVec 2) (imm : BitVec 16) : DWord := setField a (16 * q.toNat) 16 imm.toNat

/-- The comparisons of the conditional branches. -/
def condHolds (c : Cond) (a b : DWord) : Bool :=
  match c with
  | .eq => a == b
  | .ne => a != b
  | .lt => a.slt b
  | .ge => !a.slt b
  | .ltu => a.ult b
  | .geu => !a.ult b

/-- The scratchpad word address s[sa] + IMM, sign-extended (Table 04-9). -/
def wordAddr (a : DWord) (imm : BitVec 16) : Nat := (a + imm.signExtend 64).toNat

/-- The scalar registers of a core. -/
def Local.s (l : Local) (r : RegId) : DWord := regGet l.core.seq.regs r

/-- A record of the pattern table; one that nothing has loaded has VALID = 0. -/
def Local.record (l : Local) (i : BitVec 8) : PatternRecord := mapGet 0 l.core.seq.patterns i.toNat

/-- The pattern that an operand names. -/
def Local.pat (l : Local) (i : BitVec 8) : Pattern := decodePattern (l.record i)

/-- An optional pattern operand: 0xFF stands for none. -/
def Local.pat? (l : Local) (i : BitVec 8) : Option Pattern := if i = 0xFF then none else some (l.pat i)

/-- A record that a word may name: VALID, a defined FORMAT (R111), reserved bits zero (R11), and, for a block-scaled FORMAT, a
run length that is a multiple of 32 (Table 04-18). -/
def Local.namable (l : Local) (i : BitVec 8) : Bool :=
  let r := l.record i
  let p := decodePattern r
  i != 0xFF && patternValid r && patternReservedZero r && (formatOf p.format).isSome
    && (!fmtScaled (patFormat p) || p.n0 % 32 == 0)

/-- A pattern operand that lies in the scratchpad (SPACE = 0, Table 10-2). -/
def Local.scratchPat (l : Local) (i : BitVec 8) : Bool :=
  l.namable i && !(l.pat i).far && wordsInside (patWords (l.pat i))

/-- A pattern operand on the far side (SPACE = 1). -/
def Local.farPat (l : Local) (i : BitVec 8) : Bool := l.namable i && (l.pat i).far

/-! ### Where the word after this one lies -/

/-- The loop frames and the next word after the word at `pos` has issued without a jump: the back-edge of the loops that end
there (R81). -/
def afterWord (loops : List LoopFrame) (pos : Nat) : List LoopFrame × Nat :=
  match loops with
  | [] => ([], pos + 1)
  | f :: r =>
    if f.last = pos then
      if 1 < f.left then ({ f with left := f.left - 1 } :: r, f.first) else afterWord r pos
    else (f :: r, pos + 1)

/-- The target of a jump: this word + OFF, signed words. -/
def jumpTarget (pos : Nat) (off : BitVec 16) : Int := (pos : Int) + off.toInt

/-- The word index as a 28-bit field. -/
def wordIndex (n : Nat) : BitVec 28 := BitVec.ofNat 28 n

/-- The loop frames and the next word after a word issues, from its C slot (R81) (DEDUCED, log entry 34). -/
def nextWord (l : Local) (c : COp) : List LoopFrame × Nat :=
  let pos := l.core.seq.position.toNat
  let loops := l.core.seq.loops
  match c with
  | .loop count body => (⟨pos + 1, pos + body.toNat + 1, count.toNat + 1⟩ :: loops, pos + 1)
  | .loopr sa body =>
    let n := (l.s sa).toNat
    if n = 0 then afterWord loops (pos + body.toNat + 1) else (⟨pos + 1, pos + body.toNat + 1, n⟩ :: loops, pos + 1)
  | .jmp off => (loops, (jumpTarget pos off).toNat)
  | .branch k sa sb off =>
    if condHolds k (l.s sa) (l.s sb) then (loops, (jumpTarget pos off).toNat) else afterWord loops pos
  | _ => afterWord loops pos

/-- The first roster word of a core's region and the number of roster words (R68). -/
def firstWord (s : Sequencer) : Nat := (field s.regionNow 0 16).toNat * 4096 + 5

/-- Whether a word index lies within the roster words. -/
def inRoster (s : Sequencer) (w : Int) : Bool :=
  decide ((firstWord s : Int) ≤ w) && decide (w < ((firstWord s + s.wordCount : Nat) : Int))

end Sys2Proof.Machine
end

