-- ==== Sys2Proof/Machine/Legality.lean ====
section
/-!
DEFINITION. Which roster words are illegal (R87, Tables 04-18, 05-5, 07-6, 08-2, 08-3, 10-2; R81, R111, R120, R127, R182,
R273, R400), which raise PRIVATE_RING or UNMAPPED (R62, R83, R22), and which clash (R57, R204). Each condition is judged from
the captured patterns and the scalar registers before any slot issues.
-/

namespace Sys2Proof.Machine

/-- The region's first word index and the first beyond it (R67). -/
def regionFirst (s : Sequencer) : Nat := (field s.regionNow 0 16).toNat * 4096
def regionEnd (s : Sequencer) : Nat := regionFirst s + (field s.regionNow 16 16).toNat * 4096

/-- The tag of the block that holds a word: a multiple of 256 (R84). -/
def tagOf (w : Nat) : Nat := w / 256 * 256

/-- The cache block with a tag, and its number: of two with one tag, the lower-numbered (DESIGN CHOICE, log entry 54). -/
def blockOf (s : Sequencer) (tag : Nat) : Option (Nat × CacheBlock) := s.cache.find? fun e => e.2.tag == tag

/-- The private flag after a C operation. -/
def privAfter (priv : Bool) (c : COp) : Bool :=
  match c with
  | .privateBegin => true
  | .privateEnd => false
  | _ => priv

/-- Whether a loop body that was open when the private segment began would end inside the segment (R81). -/
def overlapsPrivate (s : Sequencer) (c : COp) : Bool :=
  let depth := if c = .privateBegin then s.loops.length else s.privDepth
  privAfter s.priv c && (s.loops.drop (s.loops.length - depth)).any fun f => f.last == s.position.toNat

/-- A new loop's body may open: at most four nest, and it ends at or before the end of the body around it (R81). -/
def loopFits (s : Sequencer) (body : BitVec 14) : Bool :=
  decide (s.loops.length < 4) &&
    match s.loops with
    | [] => true
    | f :: _ => decide (s.position.toNat + body.toNat + 1 ≤ f.last)

/-- A jump's target lies within the roster words and within every active loop body (Table 04-18). -/
def targetFits (s : Sequencer) (off : BitVec 16) : Bool :=
  let t := jumpTarget s.position.toNat off
  inRoster s t && s.loops.all fun f => decide ((f.first : Int) ≤ t) && decide (t ≤ (f.last : Int))

/-- The words of a C-slot load or store lie in the scratchpad; pairs start at an even address (Tables 04-18, 10-2). -/
def wordFits (l : Local) (sa : RegId) (imm : BitVec 16) (pair : Bool) : Bool :=
  let a := wordAddr (l.s sa) imm
  if pair then a % 2 == 0 && decide (a + 1 < scratchWords) else decide (a < scratchWords)

/-- Conditions on the C slot's own operands. -/
def legalC (l : Local) (c : COp) : Bool :=
  let s := l.core.seq
  let closed := decide (l.core.att.issue ≠ .opened)
  match c with
  | .nop | .wait _ _ | .stepMark | .alu _ _ _ _ | .alui _ _ _ _ | .lih _ _ _ | .rdctr _ _ => true
  | .endRoster => !s.priv && closed
  | .lapMark => !s.priv && closed && (!l.env.replayable || s.loops.isEmpty)
  | .privateBegin => !s.priv
  | .privateEnd => s.priv && s.loops.length == s.privDepth
  | .loop _ body => loopFits s body
  | .loopr _ body => s.priv && loopFits s body
  | .jmp off => targetFits s off
  | .branch _ _ _ off => s.priv && targetFits s off
  | .ldw _ sa imm | .stw _ sa imm => wordFits l sa imm false
  | .ldd _ sa imm | .std _ sa imm => wordFits l sa imm true
  | .patLoad sa first number =>
    decide (first.toNat + number.toNat < 255) && decide ((l.s sa).toNat + 8 * (number.toNat + 1) ≤ scratchWords)

/-- The word after this one lies within the roster words (Table 04-18); END has none. -/
def nextFits (l : Local) (c : COp) : Bool :=
  match c with
  | .endRoster => true
  | c => inRoster l.core.seq ((nextWord l c).2 : Int)

/-- Formats that the move engine may pair (R127). -/
def moveFormats (a b : Format) : Bool := a == b || a == .raw || b == .raw

/-- The formats of an atomic add (R273). -/
def atomicFormat (a b : Format) : Bool := a == b && (a == .fp32 || a == .bf16 || a == .int32)

/-- A ring class and instance that Table 03-1 numbers. -/
def ringExists (cls inst : Nat) : Bool :=
  match cls with
  | 1 | 2 => decide (inst < 512)
  | 3 => decide (inst < 30)
  | 4 => decide (inst < 32)
  | 5 => decide (inst < 240)
  | 6 | 7 => decide (inst = 0)
  | _ => false

/-- Conditions on the M slot; `pos` is the word's index. -/
def legalM (l : Local) (m : MOp) : Bool :=
  let s := l.core.seq
  match m with
  | .nop => true
  | .moveIn _ _ _ ps pf | .moveOut _ _ _ ps pf =>
    l.scratchPat ps && l.farPat pf && moveFormats (patFormat (l.pat ps)) (patFormat (l.pat pf))
  | .moveRemote _ _ _ ps _ => l.scratchPat ps
  | .creditTake _ _ _ _ | .creditGive _ _ _ _ | .bankOff _ _ _ | .regionOn _ _ => true
  | .turnEnd sa cls => ringExists cls.toNat (field (l.s sa) 0 16).toNat
  | .fetchRoster _ _ sa block =>
    let w := (l.s sa).toNat
    w % 256 == 0 && decide (regionFirst s ≤ w) && decide (w + 256 ≤ regionEnd s) &&
      (blockOf s (tagOf s.position.toNat)).all fun b => b.1 != block.toNat
  | .atomicAdd _ _ _ ps pf =>
    l.scratchPat ps && l.farPat pf && atomicFormat (patFormat (l.pat ps)) (patFormat (l.pat pf))
  | .nearOp _ _ _ ps => l.scratchPat ps && patFormat (l.pat ps) == .raw && patElems (l.pat ps) == 64
  | .regionOff _ mask => !(bit mask 1 && decide (l.core.att.issue = .opened))

/-- The 257th M-slot operation of a step (Table 10-2); a LAP_MARK begins a new step with its own word. -/
def stepHasRoom (l : Local) (c : COp) (m : MOp) : Bool :=
  m == .nop || (c == .lapMark && !l.core.seq.replayMark && !l.core.step.treatMarkAsNop)
    || decide (l.core.step.opCount < 256)

/-- Conditions on an ARR_WLOAD (Tables 05-5, 06-7, 10-2; R103). A weight format that stands in no pairing of R121 makes the load illegal
(DESIGN CHOICE, log entry 54). -/
def legalWload (l : Local) (x : BitVec 8) (packed : Bool) : Bool :=
  let p := l.pat x
  let bytes := weightRunBytes (patFormat p) packed p.n0
  l.namable x && !p.far && weightFormat (patFormat p) && (!packed || p.n0 % 32 == 0)
    && wordsInside (patSpan p ((bytes + 3) / 4)) && decide ((loadRecordOf p packed).segments ≤ 512)

/-- Conditions shared by ARR_PASS and ARR_GATHER: the load, the counts and the formats (Table 05-5, R121). -/
def legalPass (l : Local) (x y : BitVec 8) : Bool :=
  match l.core.arr.current with
  | none => false
  | some r =>
    let px := l.pat x
    let py := l.pat y
    l.scratchPat x && l.scratchPat y && pairs r.format (patFormat px) && resultFormat r.format (patFormat py)
      && patElems px % r.k == 0 && patElems py == r.n * (patElems px / r.k)

/-- The number of activation rows of a pattern against the current load. -/
def rowsOf (l : Local) (x : BitVec 8) : Nat :=
  match l.core.arr.current with
  | some r => patElems (l.pat x) / max 1 r.k
  | none => 0

/-- Conditions on the A slot (Tables 05-5, 08-2, 08-3; R182). -/
def legalA (l : Local) (a : AOp) : Bool :=
  let st := l.core.att.issue
  match a with
  | .nop | .gcfg _ _ => true
  | .wload _ x packed => legalWload l x packed
  | .pass _ x y _ => legalPass l x y
  | .gather _ x y => legalPass l x y && decide (rowsOf l x ≤ 64)
  | .attMode _ x =>
    decide (st ≠ .opened) && l.scratchPat x && patFormat (l.pat x) == .raw && patElems (l.pat x) == 8
  | .attQ _ x y =>
    decide (st = .moded) && l.scratchPat x && decide (patRunCount (l.pat x) ≤ 64)
      && (y == 0xFF || (l.scratchPat y && patFormat (l.pat y) == .raw))
  | .attKv _ x y =>
    decide (st = .opened) && l.scratchPat x && l.scratchPat y && patRunCount (l.pat x) == patRunCount (l.pat y)
  | .attWalk _ x =>
    decide (st = .opened) && l.scratchPat x && patFormat (l.pat x) == .raw && patElems (l.pat x) == 64
  | .attOut _ x y =>
    decide (st = .opened) && l.scratchPat x && patRunCount (l.pat x) == l.core.att.issueRows
      && (y == 0xFF || (l.scratchPat y && patFormat (l.pat y) == .fp32 && patElems (l.pat y) == 2 * l.core.att.issueRows))

/-- Conditions on the V slot (Table 07-6, R120). -/
def legalV (l : Local) (v : VOp) : Bool :=
  match v with
  | .vld _ _ _ p | .vst _ _ _ p =>
    l.scratchPat p && decide (patElems (l.pat p) ≤ 512) && patFormat (l.pat p) != .raw && patFormat (l.pat p) != .t2
  | .vtload _ _ p => l.scratchPat p && patFormat (l.pat p) == .raw && patElems (l.pat p) == 2112
  | _ => true

/-! ### Records named in a word -/

/-- The pattern records that the M slot names. -/
def namesM : MOp → List (BitVec 8)
  | .moveIn _ _ _ ps pf | .moveOut _ _ _ ps pf | .atomicAdd _ _ _ ps pf => [ps, pf]
  | .moveRemote _ _ _ ps _ | .nearOp _ _ _ ps => [ps]
  | _ => []

/-- The pattern records that the A slot names. -/
def namesA : AOp → List (BitVec 8)
  | .nop | .gcfg _ _ => []
  | .wload _ x _ | .attMode _ x | .attWalk _ x => [x]
  | .pass _ x y _ | .gather _ x y | .attKv _ x y => [x, y]
  | .attQ _ x y | .attOut _ x y => if y = 0xFF then [x] else [x, y]

/-- The pattern record that the V slot names. -/
def namesV : VOp → List (BitVec 8)
  | .vld _ _ _ p | .vst _ _ _ p | .vtload _ _ p => [p]
  | _ => []

/-- The records with a nonzero ADVANCE among those named. -/
def advancing (l : Local) (ns : List (BitVec 8)) : List (BitVec 8) := ns.filter fun i => patternAdvance (l.record i) != 0

/-- Whether a slot names a record with a nonzero ADVANCE that the word names twice (R80). -/
def namesTwice (l : Local) (all slot : List (BitVec 8)) : Bool :=
  (advancing l slot).any fun i => decide (2 ≤ (advancing l all).count i)

/-! ### Illegal words -/

/-- The slots of a word as far as each decodes alone. -/
structure RawSlots where
  c : Option COp
  m : Option MOp
  a : Option AOp
  v : Option VOp
deriving DecidableEq, Repr

def rawSlots (w : RosterWord) : RawSlots :=
  ⟨decodeC (field w 0 32), decodeM (field w 32 32), decodeA (field w 64 32), decodeV (field w 96 32)⟩

/-- All records that a word names. -/
def namesOf (r : RawSlots) : List (BitVec 8) :=
  (r.m.map namesM).getD [] ++ (r.a.map namesA).getD [] ++ (r.v.map namesV).getD []

/-- An END or STEP_MARK whose other slots are not all NOPs (Tables 04-18, 10-2). -/
def aloneBroken (r : RawSlots) : Bool :=
  (r.c == some .endRoster || r.c == some .stepMark) && (r.m != some .nop || r.a != some .nop || r.v != some .nop)

/-- Whether the C slot makes the word illegal. -/
def badC (l : Local) (r : RawSlots) : Bool :=
  match r.c with
  | none => true
  | some c => !legalC l c || aloneBroken r || overlapsPrivate l.core.seq c || !nextFits l c

/-- Whether the M slot makes the word illegal. -/
def badM (l : Local) (r : RawSlots) : Bool :=
  match r.m with
  | none => true
  | some m => !legalM l m || !stepHasRoom l (r.c.getD .nop) m || namesTwice l (namesOf r) (namesM m)

/-- The issue logic as the A slot's word is judged: a LAP_MARK of a replayable set drops the current load and returns the
attention state to IDLE with its own word, so that the word is legal in the first run exactly when it is at a replay (R109,
R174). -/
def markView (l : Local) (c : Option COp) : Local :=
  if c = some .lapMark ∧ l.env.replayable = true ∧ l.core.step.treatMarkAsNop = false then
    { l with core := { l.core with arr := { l.core.arr with current := none }, att := { l.core.att with issue := .idle } } }
  else l

/-- Whether the A slot makes the word illegal. A walk inside a private segment faults by R62 instead (Table 08-3). -/
def badA (l : Local) (r : RawSlots) : Bool :=
  match r.a with
  | none => true
  | some a => !legalA (markView l r.c) a || namesTwice l (namesOf r) (namesA a)

/-- Whether the V slot makes the word illegal. -/
def badV (l : Local) (r : RawSlots) : Bool :=
  match r.v with
  | none => true
  | some v => !legalV l v || namesTwice l (namesOf r) (namesV v)

/-- The first slot, in the order C, M, A, V, that makes a word illegal (R87, R88). -/
def illegalSlot (l : Local) (w : RosterWord) : Option Nat :=
  let r := rawSlots w
  if badC l r then some 0 else if badM l r then some 1 else if badA l r then some 2 else if badV l r then some 3 else none

/-! ### What the core finds at its next word -/

/-- What stands at the core's position (R85, R86). -/
inductive Found where
  | word (w : RosterWord)
  | filling
  | absent
  | poisoned
deriving DecidableEq, Repr

/-- The lookup by tag (R85, R86). -/
def lookup (s : Sequencer) : Found :=
  let pos := s.position.toNat
  match blockOf s (tagOf pos) with
  | none => .absent
  | some (_, b) =>
    if b.filling then .filling
    else if b.poisoned.contains (pos % 256) then .poisoned
    else match b.words[pos % 256]? with
      | some w => .word w
      | none => .absent

/-! ### PRIVATE_RING and UNMAPPED -/

/-- The runs of a far pattern as absolute addresses: the base register plus the run's offset. -/
def farRuns (l : Local) (sa : RegId) (p : Pattern) : List Int := (patRuns p).map fun o => (l.s sa).toNat + o

/-- Whether one run of `len` bytes lies in mapped Pocket or capacity tier (R22, R83, Table 01-5). -/
def runMapped (e : CoreEnv) (len : Nat) (a : Int) : Bool :=
  decide (0 ≤ a) && (pocketMapped e.absent a.toNat len || capMapped e.capBytes a.toNat len)

/-- Whether a run meets the core's own roster region (R83). -/
def runInRegion (l : Local) (len : Nat) (a : Int) : Bool :=
  let base : Int := l.env.n * pocketSlotBytes
  let r0 := base + 16 * regionFirst l.core.seq
  let r1 := base + 16 * regionEnd l.core.seq
  decide (a < r1) && decide (r0 < a + len)

/-- The scratchpad window address that a MOVE_REMOTE names: its core and its first byte in the window. -/
def remoteTarget (addr : Nat) : Nat × Nat := ((addr - scratchBase) / scratchStride, (addr - scratchBase) % scratchStride)

/-- Whether the M slot raises UNMAPPED (R22, R83, Table 10-7 row 3). -/
def unmappedM (l : Local) (m : MOp) : Bool :=
  match m with
  | .moveIn _ _ sa _ pf =>
    let p := l.pat pf
    !(farRuns l sa p).all (runMapped l.env (patRunBytes p))
  | .moveOut _ _ sa _ pf =>
    let p := l.pat pf
    !(farRuns l sa p).all fun a => runMapped l.env (patRunBytes p) a && !runInRegion l (patRunBytes p) a
  | .atomicAdd _ _ sa _ pf =>
    let p := l.pat pf
    !(farRuns l sa p).all fun a => decide (0 ≤ a) && capMapped l.env.capBytes a.toNat (patRunBytes p)
  | .nearOp _ _ sa _ => !capMapped l.env.capBytes (l.s sa).toNat 1
  | .moveRemote _ _ sa _ _ =>
    let a := (l.s sa).toNat
    let t := remoteTarget a
    decide (a < scratchBase) || decide (512 ≤ t.1) || l.env.absent.contains t.1
  | .creditTake _ _ sa _ | .creditGive _ _ sa _ => l.env.absent.contains (field (l.s sa) 0 9).toNat
  | _ => false

/-- M-slot operations that present requests to an explicit ring (04). -/
def presentsRing : MOp → Bool
  | .nop | .regionOn _ _ | .regionOff _ _ => false
  | _ => true

/-- Whether the M slot raises PRIVATE_RING (R62). The M slot of a PRIVATE_BEGIN's own word is judged as outside the segment, and that of a
PRIVATE_END's own word as inside it (DESIGN CHOICE, log entry 56). -/
def privateM (l : Local) (m : MOp) : Bool := l.core.seq.priv && presentsRing m

/-- Whether the A slot raises PRIVATE_RING (Table 08-3). -/
def privateA (l : Local) (a : AOp) : Bool :=
  l.core.seq.priv &&
    match a with
    | .attWalk _ _ => true
    | _ => false

/-! ### Clashes -/

/-- The bank groups of scratchpad patterns that operations name (R204). -/
def groupsOfPats (l : Local) (ns : List (BitVec 8)) : List Nat := ns.flatMap fun i => groupsOf (patWords (l.pat i))

/-- The bank groups of the C slot's access. -/
def groupsC (l : Local) (c : COp) : List Nat :=
  match c with
  | .ldw _ sa imm | .stw _ sa imm => [wordAddr (l.s sa) imm / groupWords]
  | .ldd _ sa imm | .std _ sa imm => [wordAddr (l.s sa) imm / groupWords]
  | .patLoad sa _ number =>
    let a : Int := (l.s sa).toNat
    groupsOf (a, a + 8 * (number.toNat + 1) - 1)
  | _ => []

/-- The bank groups of the M slot's operation: its scratchpad side. -/
def groupsM (l : Local) (m : MOp) : List Nat := groupsOfPats l ((namesM m).take 1)

/-- The bank groups of the A slot's operation. -/
def groupsA (l : Local) (a : AOp) : List Nat :=
  match a with
  | .wload _ x packed =>
    let p := l.pat x
    groupsOf (patSpan p ((weightRunBytes (patFormat p) packed p.n0 + 3) / 4))
  | a => groupsOfPats l (namesA a)

/-- The bank groups of the V slot's operation. -/
def groupsV (l : Local) (v : VOp) : List Nat := groupsOfPats l (namesV v)

/-- The groups of a window configuration (Table 10-16). -/
def windowGroups (w : BitVec 8) : List Nat :=
  (List.range ((field w 4 3).toNat + 1)).map (· + (field w 0 3).toNat)

/-- The groups reserved for remote writers or the host: those of windows that the core does not hold, and, while a set is
active, those of HOST_GROUPS (R204, R214). -/
def reservedGroups (l : Local) : List Nat :=
  let s := l.core.scr
  (s.windowsNow.flatMap fun e =>
      if bit e.2 7 && mapGet (.core l.env.n) s.holders e.1 != .core l.env.n then windowGroups e.2 else [])
    ++ (if l.env.setActive then setBits s.hostGroupsNow else [])

/-- Two lists share an element. -/
def meets (a b : List Nat) : Bool := a.any fun x => b.contains x

/-- The first slot, in the order C, M, A, V, whose bank set meets another operation's or a reserved group (R204). The groups
of an operation that does not issue are given empty. -/
def clashSlot (l : Local) (c m a v : List Nat) : Option Nat :=
  let r := reservedGroups l
  if meets c (m ++ a ++ v ++ r) then some 0
  else if meets m (a ++ v ++ r) then some 1
  else if meets a (v ++ r) then some 2
  else if meets v r then some 3
  else none

end Sys2Proof.Machine
end

