-- ==== Sys2Proof/Machine/Move.lean ====
section
/-!
DEFINITION. The move engine (R76, R127, R213 to R215, R267, R273): the ring units that an M-slot operation presents, what the
service of one unit does to the scratchpad and to memory, credit judgement (Table 10-7) and completion.
-/

namespace Sys2Proof.Machine

/-- The core with its MOVE queue changed. -/
def Local.movUpd (l : Local) (f : List MoveOp → List MoveOp) : Local :=
  { l with core := { l.core with moveQ := f l.core.moveQ } }

/-- The core with its regions changed. -/
def Local.regUpd (l : Local) (f : Regions → Regions) : Local :=
  { l with core := { l.core with regions := f l.core.regions } }

/-- The start of run `k` (R79). -/
def patRunAt (p : Pattern) (k : Nat) : Int :=
  p.base + (k % p.n1 : Nat) * p.s1 + (k / p.n1 % p.n2 : Nat) * p.s2 + (k / (p.n1 * p.n2) : Nat) * p.s3

/-! ### The units of an operation -/

/-- The units of a far pattern, in the order of its runs. -/
def farUnits (l : Local) (sa : RegId) (p : Pattern) : List MemUnit :=
  let rb := patRunBytes p
  ((farRuns l sa p).mapIdx fun j a => unitsOfRange l.env.capList a.toNat rb (j * rb)).flatten

/-- The WRITE messages of a MOVE_REMOTE (R215): each names its target core in `ring`, its first target word, its words and
the place of its first byte in the source. -/
def writeMessages (target word0 : Nat) (p : Pattern) : List MemUnit :=
  let rb := patRunBytes p
  let words := (rb + 3) / 4
  (List.range (patRunCount p)).flatMap fun k => (List.range ((words + 1023) / 1024)).map fun j =>
    ⟨target, word0 + k * words + 1024 * j, min 1024 (words - 1024 * j), k * rb + 4096 * j, []⟩

/-- The 64-byte data flits of WRITE messages (R215). -/
def dataFlits (us : List MemUnit) : Nat := (us.map fun u => (4 * u.len + 63) / 64).sum

/-- The rings of a remote write's path (R214). -/
def CoreEnv.remotePath (e : CoreEnv) (target : Nat) : List Nat :=
  [seamRing (e.seamPort e.n) 1, ringKey 3 (e.seamPort target), seamRing (e.seamPort target) 0]

/-- The key that stands for what a near-memory command waits for at Cuff `k`. -/
def nearKey (k : Nat) : Nat := ringKey 15 k

/-- A unit with no memory side of its own. -/
def bareUnit (ring : Nat) : MemUnit := ⟨ring, 0, 0, 0, []⟩

/-- The memory-side units and the units on the path that an M-slot operation presents. -/
def presents (l : Local) (m : MOp) : List MemUnit × List (Nat × Nat) :=
  let n := l.env.n
  match m with
  | .moveIn _ _ sa _ pf =>
    let us := farUnits l sa (l.pat pf)
    (us.map fun u => { u with route := l.env.readPath u.addr }, pathCounts l.env.readPath us)
  | .moveOut _ _ sa _ pf | .atomicAdd _ _ sa _ pf =>
    let us := farUnits l sa (l.pat pf)
    (us.map fun u => { u with route := l.env.writePath u.addr }, pathCounts l.env.writePath us)
  | .moveRemote _ _ sa ps _ =>
    let t := remoteTarget (l.s sa).toNat
    let us := writeMessages t.1 (t.2 / 4) (l.pat ps)
    (us, (l.env.remotePath t.1).foldl (fun c r => mapPut c r (mapGet 0 c r + dataFlits us)) [])
  | .creditTake _ _ sa _ => ([bareUnit (ringKey 1 (field (l.s sa) 0 9).toNat)], [])
  | .turnEnd sa cls => ([bareUnit (ringKey cls.toNat (field (l.s sa) 0 16).toNat)], [])
  | .fetchRoster _ _ sa _ =>
    (unitsOfRange l.env.capList (n * pocketSlotBytes + 16 * (l.s sa).toNat) 4096 0, [])
  | .nearOp _ _ _ _ =>
    ((List.range 12).map fun k => bareUnit (nearKey k),
     addCounts [] (seamRing (l.env.seamPort n) 1 :: (List.range 12).map fun k => ringKey 3 (16 + k)))
  | .bankOff _ _ _ => ([bareUnit (ringKey 2 n)], [])
  | _ => ([], [])

/-- SY of an M-slot operation. -/
def moveSy : MOp → Bool
  | .moveIn _ sy _ _ _ | .moveOut _ sy _ _ _ | .moveRemote _ sy _ _ _ | .creditTake _ sy _ _ | .creditGive _ sy _ _
  | .fetchRoster _ sy _ _ | .atomicAdd _ sy _ _ _ | .nearOp _ sy _ _ | .bankOff _ sy _ => sy
  | .regionOn sy _ | .regionOff sy _ => sy
  | .nop | .turnEnd _ _ => false

/-- TL of an M-slot operation. -/
def moveTl : MOp → Bool
  | .moveIn tl _ _ _ _ | .moveOut tl _ _ _ _ | .moveRemote tl _ _ _ _ | .creditTake tl _ _ _ | .creditGive tl _ _ _
  | .fetchRoster tl _ _ _ | .atomicAdd tl _ _ _ _ | .nearOp tl _ _ _ | .bankOff tl _ _ => tl
  | .nop | .turnEnd _ _ | .regionOn _ _ | .regionOff _ _ => false

/-- The scalar operand that an M-slot operation captures. -/
def moveScalar (l : Local) (m : MOp) : DWord :=
  match m with
  | .moveIn _ _ sa _ _ | .moveOut _ _ sa _ _ | .moveRemote _ _ sa _ _ | .creditTake _ _ sa _ | .creditGive _ _ sa _
  | .turnEnd sa _ | .fetchRoster _ _ sa _ | .atomicAdd _ _ sa _ _ | .nearOp _ _ sa _ | .bankOff _ _ sa => l.s sa
  | .nop | .regionOn _ _ | .regionOff _ _ => 0

/-- The operation as the MOVE queue holds it, captured when its word issues (R74, R80), with the lap tag of R48. -/
def captureMove (l : Local) (m : MOp) (lap : BitVec 32) (index : Nat) : MoveOp :=
  let ns := namesM m
  let pr := presents l m
  { op := m, sy := moveSy m, tl := moveTl m, lap := field lap 0 2, sVal := moveScalar l m,
    patS := ns.head?.map l.pat, patF := (ns.drop 1).head?.map l.pat, stepIndex := index, word := l.core.seq.position,
    started := false, halted := false, judged := false, resp := none, units := pr.1, transit := pr.2, data := [] }

/-! ### Completion (R75, R76) -/

/-- The mask of regions that are ramping. -/
def rampingMask (r : Regions) : BitVec 4 :=
  (if r.array = .ramping then 1 else 0) ||| (if r.attention = .ramping then 2 else 0)
    ||| (if r.vector = .ramping then 4 else 0) ||| (if r.gather = .ramping then 8 else 0)

/-- The mask of regions that are on. -/
def onMask (r : Regions) : BitVec 4 :=
  (if r.array = .on then 1 else 0) ||| (if r.attention = .on then 2 else 0)
    ||| (if r.vector = .on then 4 else 0) ||| (if r.gather = .on then 8 else 0)

/-- Whether an operation of the MOVE queue has completed. -/
def moveDone (r : Regions) (o : MoveOp) : Bool :=
  match o.op with
  | .regionOn _ mask => mask &&& (r.requested ||| rampingMask r) == 0
  | .regionOff _ mask => mask &&& r.offRequested == 0
  | .creditTake _ _ _ _ | .creditGive _ _ _ _ => o.resp.isSome
  | .moveRemote _ _ _ _ _ => o.judged && o.units.isEmpty && countsDone o.transit
  | _ => o.units.isEmpty && countsDone o.transit

/-- The SY count of unit MOVE: an operation counts until every earlier SY operation of the unit has completed (R75). -/
def moveSyCount (c : Core) : Nat := ((c.moveQ.filter (·.sy)).dropWhile (moveDone c.regions)).length

/-- Entries of the MOVE issue queue that are taken: operations none of whose units has been served. -/
def moveTaken (c : Core) : Nat := (c.moveQ.filter fun o => !o.started && !moveDone c.regions o).length

/-! ### Credit windows (R213, R214, Table 10-7) -/

/-- The core and window that a credit operation names. -/
def creditOf (o : MoveOp) : Option (Nat × Nat) :=
  match o.op with
  | .moveRemote _ _ _ _ w => some ((remoteTarget o.sVal.toNat).1, w.toNat)
  | .creditTake _ _ _ w | .creditGive _ _ _ w => some ((field o.sVal 0 9).toNat, w.toNat)
  | _ => none

/-- The KIND codes of Table 10-8. -/
def kindTake : BitVec 4 := 1
def kindGrant : BitVec 4 := 2
def kindRefuse : BitVec 4 := 3
def kindGive : BitVec 4 := 4
def kindWrite : BitVec 4 := 5

/-- The header fields from KIND to LAP, the rest zero (Table 10-8). -/
def creditHeader (kind : BitVec 4) (source target window : Nat) (lap : BitVec 2) : BitVec 128 :=
  kind ++ BitVec.ofNat 9 source ++ BitVec.ofNat 9 target ++ BitVec.ofNat 4 window ++ lap ++ 0#100

/-- The header of a WRITE: its words minus 1 and its first target word (Table 10-8). -/
def writeHeader (source target window : Nat) (lap : BitVec 2) (words word : Nat) : BitVec 128 :=
  creditHeader kindWrite source target window lap ||| BitVec.ofNat 128 ((words - 1) * 2 ^ 48 + word)

/-- The reserved fields of a header (Table 10-8). -/
def creditReserved : BitVec 128 := 0xF_03FF_FFFF_0000_FFFF_FFE0_0000#128

/-- A receiver discards a header with a reserved KIND or a nonzero reserved field (R215). -/
def creditDiscards (h : BitVec 128) : Bool :=
  let k := field h 124 4
  k == 0 || decide (5 < k.toNat) || (h &&& creditReserved) != 0

/-- The window that a GRANT's header names, in the layout of CO_CREDIT_WINn with VALID = 1 (Tables 10-8, 10-16). -/
def grantedWindow (h : BitVec 128) : BitVec 8 := 1#1 ++ field h 90 3 ++ 0#1 ++ field h 93 3

/-- The configuration of a window of this core in effect (Table 10-16). -/
def windowNow (s : ScratchState) (w : Nat) : BitVec 8 := mapGet 0 s.windowsNow w

/-- Who holds a window of core `n` (R213). -/
def holderOf (n : Nat) (s : ScratchState) (w : Nat) : WindowHolder := mapGet (.core n) s.holders w

/-- The configuration of a window that this core holds, its own or one granted to it. -/
def heldWindow (l : Local) (t w : Nat) : Option (BitVec 8) :=
  let s := l.core.scr
  if t = l.env.n then
    if bit (windowNow s w) 7 && holderOf t s w == .core t then some (windowNow s w) else none
  else (s.granted.find? fun e => e.1 == t && e.2.1 == w).map (·.2.2)

/-- One misuse of Table 10-7 counted and recorded. -/
def Local.misuse (l : Local) (t w row : Nat) : Local :=
  (l.scrUpd fun s => { s with misuse := satAdd s.misuse 1 }).report
    { cls := 0x15, source := BitVec.ofNat 8 l.env.panel, location := l.location, detail := BitVec.ofNat 48 t,
      aux := BitVec.ofNat 16 (row * 256 + w) }

/-- Whether a MOVE_REMOTE writes only words of the granted groups. -/
def writesGranted (cfg : BitVec 8) (us : List MemUnit) : Bool :=
  us.all fun u => decide (u.addr + u.len ≤ scratchWords)
    && (groupsOf ((u.addr : Int), (u.addr + u.len - 1 : Nat))).all fun g => (windowGroups cfg).contains g

/-- An earlier operation of the kind, on the same window, that has not completed. -/
def waitsFor (r : Regions) (before : List MoveOp) (o : MoveOp) (kind : MOp → Bool) : Bool :=
  before.any fun b => kind b.op && creditOf b == creditOf o && !moveDone r b

def isTake : MOp → Bool
  | .creditTake _ _ _ _ => true
  | _ => false

def isRemote : MOp → Bool
  | .moveRemote _ _ _ _ _ => true
  | _ => false

def isGive : MOp → Bool
  | .creditGive _ _ _ _ => true
  | _ => false

/-- A remote write that a CREDIT_GIVE of core and window `w` waits for: one before it that has not completed; one that a parity error has
halted holds its own window alone (R210, Table 10-4). -/
def heldBy (r : Regions) (w : Option (Nat × Nat)) (b : MoveOp) : Bool :=
  isRemote b.op && !moveDone r b && (!b.halted || creditOf b == w)

/-- A credit operation is judged at its sender once the operations it waits for have completed (Table 10-7 rows 1, 2, 4, 5): a
CREDIT_GIVE waits for every remote write before it (R213). -/
def judgeOp (l : Local) (before : List MoveOp) (o : MoveOp) : Local × MoveOp :=
  let r := l.core.regions
  match creditOf o with
  | none => (l, o)
  | some (t, w) =>
    if o.judged then (l, o)
    else if isRemote o.op then
      if waitsFor r before o isTake then (l, o)
      else match heldWindow l t w with
        | none => (l.misuse t w 1, { o with judged := true, units := [], transit := [] })
        | some cfg =>
          if writesGranted cfg o.units then (l, { o with judged := true })
          else (l.misuse t w 2, { o with judged := true, units := [], transit := [] })
    else if isTake o.op then
      if waitsFor r before o isGive then (l, o)
      else (if (heldWindow l t w).isSome then l.misuse t w 4 else l, { o with judged := true })
    else if (before.any (heldBy r (creditOf o))) || waitsFor r before o isTake then (l, o)
    else match heldWindow l t w with
      | none => (l.misuse t w 5, { o with judged := true, resp := some false })
      | some _ =>
        (l.scrUpd fun s => { s with granted := s.granted.filter fun e => !(e.1 == t && e.2.1 == w) },
         { o with judged := true })

/-- Every operation of the queue judged, oldest first. -/
def judgeAll (l : Local) (before rest : List MoveOp) : Local × List MoveOp :=
  match rest with
  | [] => (l, before)
  | o :: r =>
    let a := judgeOp l before o
    judgeAll a.1 (before ++ [a.2]) r

/-- The credit operations of the MOVE queue judged, and completed operations at its head removed (R75). -/
def Local.movePump (l : Local) : Local :=
  let a := judgeAll l [] l.core.moveQ
  a.1.movUpd fun _ => a.2.dropWhile (moveDone a.1.core.regions)

/-! ### Service of one unit -/

/-- Bytes of a stream placed into the runs of a scratchpad pattern, from stream offset `off` on; the rest of a run's last word
is zero (R201). Gives also the words touched (DESIGN CHOICE, log entry 48). -/
def Local.placeBytes (fuel : Nat) (l : Local) (p : Pattern) (off : Nat) (bytes : List Byte) (bad : Bool) : Local :=
  match fuel with
  | 0 => l
  | f + 1 =>
    let rb := max 1 (patRunBytes p)
    let k := off / rb
    if bytes.isEmpty || decide (patRunCount p ≤ k) then l
    else
      let here := bytes.take (rb - off % rb)
      let a := 4 * (patRunAt p k).toNat + off % rb
      let pad := if off % rb + here.length = rb then (4 - rb % 4) % 4 else 0
      let bs := here ++ List.replicate pad 0
      let words := (List.range ((a + bs.length + 3) / 4 - a / 4)).map (· + a / 4)
      let fresh := words.filter fun w => decide (a ≤ 4 * w)
      let l1 := { l with mem := memWrite l.mem (scratchAddr l.env.n a) bs }
      let l2 := l1.scrUpd fun s =>
        { s with badParity :=
            if bad then s.badParity ++ words.filter fun w => !s.badParity.contains w
            else s.badParity.filter fun w => !fresh.contains w }
      l2.placeBytes f p (off + here.length) (bytes.drop here.length) bad

/-- Bytes of a scratchpad pattern's stream from offset `off` on, read through port 11. -/
def Local.streamBytes (fuel : Nat) (l : Local) (p : Pattern) (off len : Nat) : List Byte × List Nat :=
  match fuel with
  | 0 => ([], [])
  | f + 1 =>
    let rb := max 1 (patRunBytes p)
    let k := off / rb
    if len = 0 ∨ patRunCount p ≤ k then ([], [])
    else
      let n := min len (rb - off % rb)
      let a := 4 * (patRunAt p k).toNat + off % rb
      let r := l.streamBytes f p (off + n) (len - n)
      (l.scr a n ++ r.1, badWords l.core.scr.badParity a n ++ r.2)

/-- One atomic add: the code that the target takes, and whether an INT32 sum wrapped (R273). -/
def atomicSum (f : Format) (t a : Nat) : Nat × Bool :=
  match f with
  | .int32 =>
    let x := (BitVec.ofNat 32 t).toInt + (BitVec.ofNat 32 a).toInt
    (((BitVec.ofInt 32 x).toNat), decide (x < -2147483648) || decide (2147483647 < x))
  | .bf16 => (fpRound bf16 (fvAdd (fpDecode bf16 t) (fpDecode bf16 a)), false)
  | _ => ((roundFp32 (fvAdd (ofFp32 (BitVec.ofNat 32 t)) (ofFp32 (BitVec.ofNat 32 a)))).toNat, false)

/-- The elements of one target unit added in ascending order. -/
def Local.addElems (l : Local) (f : Format) (addr : Nat) (addends : List Nat) : Local :=
  match addends with
  | [] => l
  | a :: r =>
    let w := fmtWidth f / 8
    let s := atomicSum f (leNat (memRead l.mem addr w)) a
    let l1 := { l with mem := memWrite l.mem addr (leBytes w s.1), wraps := l.wraps + if s.2 then 1 else 0 }
    l1.addElems f (addr + w) r

/-- A MOVE operation changed in its place in the queue. -/
def Local.setMove (l : Local) (i : Nat) (f : MoveOp → MoveOp) : Local := l.movUpd fun q => modifyNth q i f

/-- The lines of the part of a pattern's stream that a unit carries. -/
def unitLines (p : Pattern) (off len : Nat) : List Nat :=
  let rb := max 1 (patRunBytes p)
  (List.range ((off + len - 1) / rb + 1 - off / rb)).flatMap fun i =>
    let k := off / rb + i
    let lo := max off (k * rb) - k * rb
    let hi := min (off + len) (k * rb + rb) - k * rb
    linesOf ((patRunAt p k).toNat + lo / 4) ((hi + 3) / 4 - lo / 4)

/-- A unit leaves an operation, with the bytes that it carried. -/
def dropUnit (u : MemUnit) (o : MoveOp) : MoveOp :=
  { o with started := true, units := o.units.erase u, data := o.data.filter fun e => e.1 != u.off }

/-- Whether an operation writes memory over a route that its units cross first. -/
def writesOut : MOp → Bool
  | .moveOut _ _ _ _ _ | .atomicAdd _ _ _ _ _ => true
  | _ => false

/-- Whether the units of an operation name the rings of their route; those of any other one stand in `transit` alone. -/
def routed : MOp → Bool
  | .moveIn _ _ _ _ _ | .moveOut _ _ _ _ _ | .atomicAdd _ _ _ _ _ => true
  | _ => false

/-- The ring that a unit of an operation waits for. -/
def unitRing (m : MOp) (u : MemUnit) : Nat := if writesOut m then u.route.headD u.ring else u.readRing

/-- The units of an operation that have been presented and have not come to their end. -/
def MoveOp.onItsWay (o : MoveOp) : List MemUnit :=
  if routed o.op then o.units.filter fun u => o.data.any fun e => e.1 == u.off else []

/-- The words of a fetched unit, from byte `off` of the transfer, appended to the cache block that the operation fills (R84, R86).
A block that a later FETCH_ROSTER has taken holds none of them (R85). -/
def fillBlock (s : Sequencer) (block tag off : Nat) (bytes : List Byte) (bad : Bool) : Sequencer :=
  match s.cache.find? fun e => e.1 == block && e.2.tag == tag && e.2.filling && 16 * e.2.words.length == off with
  | none => s
  | some (_, b) =>
    let n := b.words.length
    let b1 := { b with words := b.words ++ (chunks 16 4 bytes).map fun x => BitVec.ofNat 128 (leNat x),
                       poisoned := b.poisoned ++ if bad then [n, n + 1, n + 2, n + 3] else [] }
    { s with cache := mapPut s.cache block { b1 with filling := decide (b1.words.length < 256) } }

/-- A store stopped by a port-11 parity error before its unit is presented (R207, R210). -/
def Local.haltStore (l : Local) (i : Nat) (bad : List Nat) : Local :=
  (l.setMove i fun o => { o with halted := true }).findParity 11 bad

/-- A unit of an operation passes one ring of its route: what is left of it, and the ring's count. -/
def crossUnit (u : MemUnit) (v : Option MemUnit) (ring : Nat) (o : MoveOp) : MoveOp :=
  { o with started := true, units := replaceUnit o.units u v, transit := mapPut o.transit ring (mapGet 0 o.transit ring - 1) }

/-- The elements of an atomic add whose targets begin in a unit: the first one and their number, with an element's width. -/
def addRange (pf : Pattern) (u : MemUnit) : Nat × Nat × Nat :=
  let w := fmtWidth (patFormat pf) / 8
  let first := (u.off + w - 1) / w
  (first, (u.off + u.len + w - 1) / w - first, w)

/-- The bytes that a unit of a store takes from the scratchpad through port 11 as it is first presented, with its words in error (R207). -/
def Local.storeBytes (l : Local) (o : MoveOp) (u : MemUnit) : Local × List Byte × List Nat :=
  match o.op, o.patS, o.patF with
  | .atomicAdd _ _ _ _ _, some p, some pf =>
    let a := addRange pf u
    let l1 := l.cross 11 (unitLines p (a.1 * a.2.2) (a.2.1 * a.2.2))
    (l1, l1.streamBytes 65 p (a.1 * a.2.2) (a.2.1 * a.2.2))
  | _, some p, _ =>
    let l1 := l.cross 11 (unitLines p u.off u.len)
    (l1, l1.streamBytes 65 p u.off u.len)
  | _, none, _ => (l, [], [])

/-- The bytes of a unit of a store at its memory. -/
def Local.storeUnit (l : Local) (i : Nat) (o : MoveOp) (u : MemUnit) (bs : List Byte) : Local :=
  match o.op, o.patF with
  | .atomicAdd _ _ _ _ _, some pf =>
    let a := addRange pf u
    (if unitBad l.env u.addr then l
     else l.addElems (patFormat pf) (u.addr + (a.1 * a.2.2 - u.off)) ((chunks a.2.2 64 bs).map leNat)).setMove i (dropUnit u)
  | _, _ => ({ l with mem := if unitDead l.env u.addr then l.mem else memWrite l.mem u.addr bs }).setMove i (dropUnit u)

/-- One unit of a store served by the ring that it waits for (R46, R76): it takes its bytes as the first ring serves it, crosses its route,
and reaches the memory. -/
def Local.serveStore (l : Local) (i : Nat) (o : MoveOp) (u : MemUnit) : Local :=
  match o.data.find? fun e => e.1 == u.off with
  | some e =>
    match u.route with
    | k :: r => l.setMove i (crossUnit u (some { u with route := r }) k)
    | [] => l.storeUnit i o u e.2.1
  | none =>
    let a := l.storeBytes o u
    if !a.2.2.isEmpty then a.1.haltStore i a.2.2
    else
      match u.route with
      | k :: r => a.1.setMove i fun o => crossUnit u (some { u with route := r }) k { o with data := o.data ++ [(u.off, a.2.1, false)] }
      | [] => a.1.storeUnit i o u a.2.1

/-- One unit of a MOVE_IN served by the ring that it waits for (R46, R76): its memory's, whose bytes it carries from then on, then those of
its route; the bytes reach the scratchpad with the last one. -/
def Local.serveLoad (l : Local) (i : Nat) (o : MoveOp) (u : MemUnit) (p : Pattern) : Local :=
  let read := (memRead l.mem u.addr u.len, unitBad l.env u.addr)
  let bs := if u.ring ≠ 0 then read else ((o.data.find? fun e => e.1 == u.off).map (·.2)).getD read
  match u.readOn with
  | some v =>
    if u.ring ≠ 0 then
      l.setMove i fun o => { o with started := true, units := replaceUnit o.units u (some v), data := o.data ++ [(u.off, bs.1, bs.2)] }
    else l.setMove i (crossUnit u (some v) u.readRing)
  | none =>
    let l1 := (l.cross 10 (unitLines p u.off u.len)).placeBytes 65 p u.off bs.1 bs.2
    if u.ring ≠ 0 then l1.setMove i (dropUnit u) else l1.setMove i fun o => dropUnit u { o with
      transit := mapPut o.transit u.readRing (mapGet 0 o.transit u.readRing - 1) }

/-- One unit of an operation served (R46, R76): the bytes move. -/
def Local.serveUnit (l : Local) (i : Nat) (o : MoveOp) (u : MemUnit) : Local :=
  match o.op, o.patS, o.patF with
  | .moveIn _ _ _ _ _, some p, _ => l.serveLoad i o u p
  | .moveOut _ _ _ _ _, some _, _ => l.serveStore i o u
  | .atomicAdd _ _ _ _ _, some _, some _ => l.serveStore i o u
  | .fetchRoster _ _ _ block, _, _ =>
    (l.seqr fun s => fillBlock s block.toNat o.sVal.toNat u.off (memRead l.mem u.addr 64) (unitBad l.env u.addr)).setMove i
      (dropUnit u)
  | _, _, _ => l.setMove i (dropUnit u)

/-- The units of an operation without routes that have still to pass the ring before a ring of their path: the Seam port toward the Yoke
before the crossbar's ports, and those before the Seam port toward a Panel. -/
def unitsBefore (o : MoveOp) (ring : Nat) : Nat :=
  let left (f : Nat → Bool) : Nat := ((o.transit.filter fun e => f e.1).map (·.2)).sum
  if ring / 65536 = 3 then left fun k => k / 65536 == 4 && k % 2 == 1
  else if ring / 65536 = 4 ∧ ring % 2 = 0 then left fun k => k / 65536 == 3
  else 0

/-- Whether an operation has a unit for a ring: a store that a parity error has halted presents no more, and what it has presented goes on. -/
def moveWants (ring : Nat) (o : MoveOp) : Bool :=
  if routed o.op then
    (if o.halted then o.onItsWay else o.units).any fun u => unitRing o.op u == ring
  else
    (!isRemote o.op || o.judged)
      && ((!o.halted && !isRemote o.op && o.units.any fun u => u.ring == ring)
        || (decide (unitsBefore o ring < mapGet 0 o.transit ring)
          && (!o.halted || decide (ring / 65536 = 3) || decide (ring / 65536 = 4 ∧ ring % 2 = 0))))

/-- The oldest operation with a unit for a ring, with its place in the queue. -/
def nextMove (q : List MoveOp) (ring : Nat) : Option (Nat × MoveOp) :=
  (q.zipIdx.find? fun e => moveWants ring e.1).map fun e => (e.2, e.1)

/-- The place in the source and the length of data flit `i` of WRITE messages. -/
def flitAt (us : List MemUnit) (i : Nat) : Option (Nat × Nat) :=
  match us with
  | [] => none
  | u :: r =>
    let f := (4 * u.len + 63) / 64
    if i < f then some (u.off + 64 * i, min 64 (4 * u.len - 64 * i)) else flitAt r (i - f)

/-- The bad source words that the next unit on a path ring would carry: read as the unit leaves the core (R207, R210). -/
def Local.pathBad (l : Local) (o : MoveOp) (ring : Nat) : List Nat :=
  if ring ≠ seamRing (l.env.seamPort l.env.n) 1 then []
  else match o.op, o.patS with
    | .nearOp _ _ _ _, some p => (l.streamBytes 65 p 0 64).2
    | .moveRemote _ _ _ _ _, some p =>
      match flitAt o.units (dataFlits o.units - mapGet 0 o.transit ring) with
      | some (off, len) =>
        let rb := max 1 (patRunBytes p)
        (l.streamBytes 65 p off (min len (rb - off % rb))).2
      | none => []
    | _, _ => []

/-- One unit on a ring of an operation's path passes. -/
def passUnit (ring : Nat) (o : MoveOp) : MoveOp :=
  { o with started := true, transit := mapPut o.transit ring (mapGet 0 o.transit ring - 1) }

/-- One unit of a ring served for the move engine: the oldest operation that wants the ring (R46). -/
def Local.moveServe (l : Local) (ring : Nat) : Local :=
  match nextMove l.core.moveQ ring with
  | none => l
  | some (i, o) =>
    match if isRemote o.op then none else (if o.halted then o.onItsWay else o.units).find? fun u => unitRing o.op u == ring with
    | some u => l.serveUnit i o u
    | none =>
      let bad := l.pathBad o ring
      if bad.isEmpty then l.setMove i (passUnit ring) else l.haltStore i bad

/-! ### Remote writes at their target (R214, R215) -/

/-- The oldest WRITE message of this core for a target and window whose data flits have crossed its path. -/
def readyWrite (l : Local) (target w : Nat) : Option (Nat × MoveOp × MemUnit) :=
  (l.core.moveQ.zipIdx.find? fun e =>
      isRemote e.1.op && e.1.judged && !e.1.halted && creditOf e.1 == some (target, w) && !e.1.units.isEmpty).bind fun e =>
    match e.1.units with
    | u :: r => if e.1.transit.all (fun t => decide (t.2 ≤ dataFlits r)) then some (e.2, e.1, u) else none
    | [] => none

/-- The bytes that a WRITE message carries: whole words, the rest of a run's last word zero (R215). -/
def writeBytes (l : Local) (o : MoveOp) (u : MemUnit) : List Byte :=
  match o.patS with
  | some p =>
    let rb := max 1 (patRunBytes p)
    let bs := (l.streamBytes 65 p u.off (min (4 * u.len) (rb - u.off % rb))).1
    bs ++ List.replicate (4 * u.len - bs.length) 0
  | none => []

/-! ### The lap record (R70, R71) -/

/-- The 64 bytes of Table 04-3. -/
def lapRecordBytes (s : Sequencer) (buildId : BitVec 32) : List Byte :=
  leBytes 4 s.markNew.lap.toNat ++ leBytes 4 s.markNew.word.toNat ++ leBytes 4 s.markOld.lap.toNat
    ++ leBytes 4 s.markOld.word.toNat ++ leBytes 8 s.markTime ++ leBytes 4 buildId.toNat ++ leBytes 36 0

/-- The lap record written at the start of the roster region. -/
def Local.writeLapRecord (l : Local) : Local :=
  let a := l.env.n * pocketSlotBytes + 16 * regionFirst l.core.seq
  ({ l with mem := memWrite l.mem a (lapRecordBytes l.core.seq l.env.buildId) }).seqr fun s => { s with lapRecordDue := false }

end Sys2Proof.Machine
end

