-- ==== Sys2Proof/Machine/Issue.lean ====
section
/-!
DEFINITION. Issue of a roster word (R72 to R77): what holds it, what it does when it reaches the issue logic, what its four
slots do when it issues; the progress that a core's units make by themselves between steps; roster faults at issue (R59,
R87, R88); marks and steps (R70, R208, R400) and step re-execution (R210).
-/

namespace Sys2Proof.Machine

/-! ### Regions (R90 to R92) -/

/-- Whether any of the queues of Table 04-5 would act on a region that is off, and asks for it (R91). -/
def wants (state : RegionState) (asks : Bool) : Bool := asks && state == .off

/-- The region, as a mask bit, that an entry at the head of the ARRAY queue needs. -/
def arrNeeds : ArrOp → BitVec 4
  | .wload _ _ _ | .pass _ _ _ _ | .flush _ => 1
  | .gather _ => 8
  | .gcfg _ | .force | .off | .gatherOff => 0

/-- The mask of regions that the heads of the queues need. The clear of a LAP_MARK at the head of the VECTOR queue is an operation of the
vector region (DESIGN CHOICE, log entry 49). -/
def headMask (c : Core) : BitVec 4 :=
  (c.arr.queue.head?.map arrNeeds).getD 0 ||| (if c.att.queue.head?.any fun o => o != .off then 2 else 0)
    ||| (if c.vec.queue.head?.any fun o => o != .off then 4 else 0)

/-- The mask of regions that a waiting operation needs and that are off; a LAP_MARK's clear at the head of the VECTOR queue needs the vector
region as an operation does (DESIGN CHOICE, log entry 56). -/
def neededMask (c : Core) : BitVec 4 :=
  let head := headMask c
  let a := wants c.regions.array (bit head 0)
  let t := wants c.regions.attention (bit head 1)
  let v := wants c.regions.vector (bit head 2)
  let g := wants c.regions.gather (bit head 3)
  (if a then 1 else 0) ||| (if t then 2 else 0) ||| (if v then 4 else 0) ||| (if g then 8 else 0)

/-- AUTO_WAKE: switch-ons that units request by themselves, counted in AUTO_WAKES (R91). -/
def autoWake (c : Core) : Regions :=
  let r := c.regions
  let new := neededMask c &&& ~~~r.requested
  { r with requested := r.requested ||| new, autoWakes := satAdd r.autoWakes (setBits new).length }

/-- Which switch-offs take effect: those whose place has come to the head of its queue, every operation issued before it having
completed (Table 04-11) (DEDUCED, log entry 49). -/
def offReady (c : Core) : BitVec 4 :=
  let head := c.arr.queue.head?
  let idle := c.arr.running.isNone
  let a := head == some .off && idle && c.regions.array != .ramping
  let t := c.att.queue.head? == some .off && c.regions.attention != .ramping
  let v := c.vec.queue.head? == some .off && c.regions.vector != .ramping
  let g := head == some .gatherOff && idle && c.regions.gather != .ramping
  (if a then 1 else 0) ||| (if t then 2 else 0) ||| (if v then 4 else 0) ||| (if g then 8 else 0)

/-- Switch-offs that have still to take effect. -/
def offPending (c : Core) : BitVec 4 :=
  (if c.arr.queue.contains .off then 1 else 0) ||| (if c.att.queue.contains .off then 2 else 0)
    ||| (if c.vec.queue.contains .off then 4 else 0) ||| (if c.arr.queue.contains .gatherOff then 8 else 0)

/-- The regions with those of a mask switched off. -/
def switchOff (r : Regions) (mask : BitVec 4) : Regions :=
  { r with
    array := if bit mask 0 then .off else r.array, attention := if bit mask 1 then .off else r.attention,
    vector := if bit mask 2 then .off else r.vector, gather := if bit mask 3 then .off else r.gather }

/-- REGION_OFF takes effect, and the state held in the regions is discarded (R92, R173). -/
def applyOff (c : Core) : Core :=
  let m := offReady c
  let c1 : Core := { c with
    regions := switchOff c.regions m,
    arr := (fun a : ArrayState => if bit m 0 then arrayOff a else a)
      (if bit m 0 || bit m 3 then { c.arr with queue := c.arr.queue.drop 1 } else c.arr),
    att := if bit m 1 then { attClear c.att with queue := c.att.queue.drop 1 } else c.att,
    vec := if bit m 2 then { vecOff c.vec with queue := c.vec.queue.drop 1 } else c.vec }
  { c1 with regions := { c1.regions with offRequested := c1.regions.offRequested &&& offPending c1 } }

/-! ### Progress of the units -/

/-- The head of the ARRAY queue leaves it, and a batch that it flushes stands ahead of every operation behind it (R107). -/
def atHead (s : ArrayState) (f : ArrayState → ArrayState) : ArrayState :=
  let t := f { s with queue := [] }
  { t with queue := t.queue ++ s.queue.drop 1 }

/-- The head of the ARRAY queue, where it makes progress by itself: an ARR_WLOAD enters a half of the weight store (R95), and a
gather that waited for its region enters the gather queue, with what came behind it (R91, R106). A load waits behind a pass ahead of it in
the queue that has not started (DESIGN CHOICE, log entry 56). -/
def Local.arrayStep (l : Local) : Local :=
  let rest (s : ArrayState) : ArrayState := { s with queue := s.queue.drop 1 }
  match l.core.arr.queue with
  | .wload sy x packed :: _ => if l.core.regions.array = .on then (l.arrUpd rest).runWload sy x packed else l
  | .gather e :: _ => if l.core.regions.gather = .on then l.arrUpd fun s => atHead s fun t => addGather t e l.core.seq.beats
    else l
  | .gcfg g :: _ => l.arrUpd fun s => { rest s with gatherCfg := g }
  | .force :: _ => l.arrUpd fun s => atHead s fun t => flushGather t .forced
  | _ => l

/-- Whether the open sequence is in error. -/
def inError (s : AttState) : Bool :=
  match s.seq with
  | some q => q.error
  | none => true

/-- The core winds down what has issued: it has stopped, or a parity error has stopped its issue. An ATT_WALK is abandoned then
(R174, R195, R210). -/
def windsDown (c : Core) : Bool := c.step.parity || c.seq.run != .running

/-- The head of the ATTENTION queue completes or begins, where it can (R155, R172, R195). -/
def Local.attStep (l : Local) : Local :=
  match l.core.regions.attention, l.core.att.queue with
  | .on, .mode _ x :: _ => (l.runAttMode x).attUpd attPop
  | .on, .query _ x y :: _ =>
    (if l.core.att.next.isSome then l else l.loadQueries x y).attUpd fun s => attPop (openNext s)
  | .on, .out _ x y :: _ => (l.runAttOut x y).attUpd attPop
  | .on, .kv _ x y :: _ =>
    let s := l.core.att
    if inError s then l.attUpd fun s => attPop { s with staged := [] }
    else if kvMismatch l.env.level s.mode x y then l.attUpd fun s => attPop (seqError s)
    else if patRunCount x ≤ s.keysTaken ∧ s.staged = [] then l.attUpd attPop
    else l
  | .on, .walk _ x lap word :: _ =>
    let s := l.core.att
    if s.walkRetired then (if s.tiles = [] ∧ s.staged = [] then l.attUpd attPop else l)
    else if windsDown l.core && !walkServed s then l.attUpd fun s => attPop { walkAbandon s with tiles := [], staged := [] }
    else if s.walk.isNone then l.startWalk x lap word
    else l.deliverNext 10
  | _, _ => l

/-- `f` applied `n` times. -/
def iterate {α : Type} (n : Nat) (f : α → α) (x : α) : α :=
  match n with
  | 0 => x
  | k + 1 => iterate k f (f x)

/-- The ATT_Q behind the open sequence loads the free half of the query store, ahead of its turn (Table 08-1, R156): the half is
free once the ATT_OUT of the sequence that last used it has issued. -/
def Local.preload (l : Local) : Local :=
  match l.core.regions.attention, l.core.att.seq, l.core.att.next, nextQuery l.core.att.queue with
  | .on, some _, none, some (x, y) => l.loadQueries x y
  | _, _, _, _ => l

/-- An open sequence is abandoned once everything that issued before a roster fault has completed (R174): issue is IDLE then, from MODED too,
and a HALT clears issue and mode as well (DESIGN CHOICE, log entry 56). -/
def abandonOpen (c : Core) : Core :=
  if c.seq.run = .stopped ∧ c.att.queue = [] then
    { c with att := { c.att with seq := none, next := none, issue := .idle, issueRows := 0 } }
  else c

/-- The progress that the units of a core make by themselves: credit operations judged and completed operations removed, a
load entering the weight store, the attention queue's head, switch-offs and automatic switch-ons. -/
def Local.pump (l0 : Local) : Local :=
  let l := if l0.core.seq.run = .stopped then l0.arrUpd forceFlush else l0
  let l1 := (iterate 8 Local.attStep (iterate 16 Local.arrayStep l.movePump)).preload
  let c := abandonOpen (applyOff l1.core)
  { l1 with core := { c with regions := autoWake c } }

/-! ### What holds a word -/

/-- Every operation issued before has completed (R208, Table 04-9). -/
def drained (c : Core) : Bool :=
  c.moveQ.all (moveDone c.regions) && c.arr.queue.isEmpty && c.arr.running.isNone && c.arr.gather.isEmpty
    && c.att.queue.isEmpty && c.vec.queue.isEmpty

/-- The count of R75 for a unit. -/
def syCount (c : Core) (u : UnitCode) : Nat :=
  match u with
  | .move => moveSyCount c
  | .array => arrSyCount c.arr
  | .attention => attSyCount c.att
  | .vector => vecSyCount c.vec

/-- Whether a mark in the C slot acts as a NOP: in a re-executed step and at the restart of a lap replay (R66, R210). -/
def markIsNop (c : Core) : Bool := c.seq.replayMark || c.step.treatMarkAsNop

/-- SY of an A-slot operation. -/
def aSy : AOp → Bool
  | .nop | .gcfg _ _ => false
  | .wload sy _ _ | .pass sy _ _ _ | .gather sy _ _ | .attMode sy _ | .attQ sy _ _ | .attKv sy _ _ | .attWalk sy _
  | .attOut sy _ _ => sy

/-- The unit that an A-slot operation addresses (Table 04-5). -/
def aUnit : AOp → Option UnitCode
  | .nop => none
  | .wload _ _ _ | .pass _ _ _ _ | .gcfg _ _ | .gather _ _ _ => some .array
  | .attMode _ _ | .attQ _ _ _ | .attKv _ _ _ | .attWalk _ _ | .attOut _ _ _ => some .attention

/-- Every unit that the word addresses has a free queue entry and room in its count (R73, R75, Table 04-5). -/
def roomFor (c : Core) (w : Slots) : Bool :=
  let mOk := w.m == .nop || (decide (moveTaken c < 16) && (!moveSy w.m || decide (moveSyCount c < 255)))
  let aOk := match aUnit w.a with
    | some .array => decide (arrTaken c.arr < 8) && (!aSy w.a || decide (arrSyCount c.arr < 255))
    | some .attention => decide (attTaken c.att < 8) && (!aSy w.a || decide (attSyCount c.att < 255))
    | _ => true
  let vOk := w.v == .nop || (decide (vecTaken c.vec < 16) && (!vecSy w.v || decide (vecSyCount c.vec < 255)))
  mOk && aOk && vOk

/-- Whether the C slot lets its word issue: WAIT (R75), END, marks and the lap gate (R49, R208). -/
def passesC (l : Local) (c : COp) : Bool :=
  match c with
  | .wait u n => decide (syCount l.core u ≤ n.toNat)
  | .endRoster => drained l.core
  | .stepMark => markIsNop l.core || drained l.core
  | .lapMark => markIsNop l.core || (drained l.core && decide (l.core.seq.lap.toNat + 1 ≤ l.env.minRingLap + 1))
  | _ => true

/-- Whether the word waits on its handshake (R73). -/
def holdsWord (l : Local) (w : Slots) : Bool := !roomFor l.core w || !passesC l w.c

/-! ### What a word does on reaching the issue logic -/

/-- Whether reaching the issue logic flushes the gather queue (Table 05-7). -/
def forcesFlush (c : Core) (w : Slots) : Bool :=
  (match w.c with
    | .wait u _ => u == .array
    | .endRoster => true
    | .lapMark => !markIsNop c
    | _ => false)
  || (match w.m with
    | .regionOff _ mask => bit mask 0 || bit mask 3
    | _ => false)
  || (match w.a with
    | .wload _ _ _ | .pass _ _ _ _ | .gcfg _ _ => true
    | _ => false)

/-- The word reaches the issue logic: forced flush (R107). -/
def Local.reach (l : Local) (w : Slots) : Local := if forcesFlush l.core w then l.arrUpd forceFlush else l

/-! ### Marks and steps -/

/-- The state of Table 10-5. -/
def stepRecordOf (c : Core) : StepRecord :=
  { word := c.seq.position.toNat, regs := c.seq.regs, patterns := c.seq.patterns, loops := c.seq.loops, priv := c.seq.priv,
    privDepth := c.seq.privDepth, current := c.arr.current, gatherCfg := c.arr.gatherCfg, attIssue := c.att.issue,
    attIssueRows := c.att.issueRows, attMode := c.att.mode, attModeError := c.att.modeError, attSeq := c.att.seq,
    attNextKv := c.att.nextKv, attWalks := c.att.walkSerial }

/-- A new step begins with the word at the core's position (R208). -/
def beginStep (c : Core) : Core :=
  { c with step := { c.step with record := some (stepRecordOf c), opCount := 0, log := [], retrying := false } }

/-- What a LAP_MARK of a replayable set resets (R109, R147, R174, R400). -/
def freshLap (c : Core) : Core :=
  { c with
    seq := { c.seq with regs := [], patterns := [] },
    arr := { c.arr with current := none },
    att := { c.att with issue := .idle },
    vec := { c.vec with queue := c.vec.queue ++ [.clear] } }

/-- LAP_MARK (R70, R71): the lap counter advances, the marks move, and the lap record falls due. -/
def markLap (now : Nat) (c : Core) : Core :=
  let s := c.seq
  { c with seq := { s with lap := s.lap + 1, markOld := s.markNew, markNew := ⟨s.lap + 1, s.position⟩, markTime := now,
                           lapRecordDue := true } }

/-- CO_VECTOR_EXPERT and CO_ATT_EXPERT as LOW_STEP derives them (Tables 07-9, 07-10, 08-13, 08-14). -/
def lowStep (ctrl : BitVec 32) : BitVec 32 := if bit ctrl 0 then 0x102 else 0x201

/-- The core's next ring boundary for its own registers is its LAP_MARK (R43): the written controls take effect, the expert
registers as written in expert mode, else as derived (R8), and a lower RETIRE_LIMIT may mark a bank (R212) (DEDUCED, log entry
32). -/
def applyControls (expert : Bool) (c : Core) : Core :=
  let t := c.ctrl
  let pick (stored derived : BitVec 32) : BitVec 32 := if expert then stored else derived
  markBank { c with
    seq := { c.seq with clashFaultNow := c.seq.clashFault },
    ctrl := { t with arrayCtrlNow := t.arrayCtrl, arrayExpertNow := pick t.arrayExpert 2, vectorCtrlNow := t.vectorCtrl,
                     vectorExpertNow := pick t.vectorExpert (lowStep t.vectorCtrl), attCtrlNow := t.attCtrl,
                     attExpertNow := pick t.attExpert (lowStep t.attCtrl), walkCtrlNow := t.walkCtrl,
                     walkExpertNow := pick t.walkExpert 2, scratchCtrlNow := t.scratchCtrl,
                     scratchExpertNow := pick t.scratchExpert 4 } }

/-- The core when a mark issues. -/
def takeMark (l : Local) (c : COp) (k : Core) : Core :=
  if markIsNop k then k
  else match c with
    | .stepMark => beginStep k
    | .lapMark =>
      let k1 := markLap l.env.now (applyControls l.env.expert k)
      beginStep (if l.env.replayable then freshLap k1 else k1)
    | _ => k

/-! ### The four slots -/

/-- A counter that RDCTR reads (Table 04-9). -/
def counterOf (l : Local) (i : BitVec 16) : DWord :=
  match i.toNat with
  | 0 => BitVec.ofNat 64 l.env.now
  | 1 => l.core.seq.lap.setWidth 64
  | 2 => BitVec.ofNat 64 l.core.seq.beats
  | 3 => BitVec.ofNat 64 l.env.n
  | _ => l.core.seq.wordsIssued.setWidth 64

/-- A scalar register written. -/
def Local.setS (l : Local) (r : RegId) (v : DWord) : Local := l.seqr fun s => { s with regs := regPut s.regs r v }

/-- LDW and LDD through port 14. -/
def Local.load (l : Local) (sd : RegId) (w len : Nat) : Local :=
  let a := (l.cross 14 (linesOf w (len / 4))).readScr 14 (4 * w) len
  a.2.setS sd (BitVec.ofNat 64 (leNat a.1))

/-- STW and STD through port 14. -/
def Local.store (l : Local) (w : Nat) (bytes : List Byte) : Local :=
  (l.cross 14 (linesOf w (bytes.length / 4))).writeScr (4 * w) bytes

/-- The records of a PAT_LOAD placed from index `i` on. -/
def putRecords (m : List (Nat × PatternRecord)) (i : Nat) (rs : List PatternRecord) : List (Nat × PatternRecord) :=
  match rs with
  | [] => m
  | r :: t => putRecords (mapPut m i r) (i + 1) t

/-- PAT_LOAD through port 13 (R80). -/
def Local.patLoad (l : Local) (w first count : Nat) : Local :=
  let a := (l.cross 13 (linesOf w (8 * count))).readScr 13 (4 * w) (32 * count)
  a.2.seqr fun s =>
    { s with patterns := putRecords s.patterns first ((chunks 32 count a.1).map fun b => BitVec.ofNat 256 (leNat b)) }

/-- The C slot's effect on registers, scratchpad and pattern table, with the operands that `v` (the core before the word)
held (R74). Transfers of control and marks are made with the word's advance. -/
def Local.applyC (l v : Local) (c : COp) : Local :=
  match c with
  | .alu o sd sa sb => l.setS sd (alu o (v.s sa) (v.s sb))
  | .alui o sd sa imm => l.setS sd (aluImm o (v.s sa) imm)
  | .lih sd q imm => l.setS sd (insertQuarter (v.s sd) q imm)
  | .ldw sd sa imm => l.load sd (wordAddr (v.s sa) imm) 4
  | .ldd sd sa imm => l.load sd (wordAddr (v.s sa) imm) 8
  | .stw sd sa imm => l.store (wordAddr (v.s sa) imm) (leBytes 4 (v.s sd).toNat)
  | .std sd sa imm => l.store (wordAddr (v.s sa) imm) (leBytes 8 (v.s sd).toNat)
  | .patLoad sa first number => l.patLoad (v.s sa).toNat first.toNat (number.toNat + 1)
  | .rdctr sd i => l.setS sd (counterOf v i)
  | .privateBegin => l.seqr fun s => { s with priv := true, privDepth := s.loops.length }
  | .privateEnd => l.seqr fun s => { s with priv := false }
  | .nop | .endRoster | .lapMark | .stepMark | .wait _ _ | .loop _ _ | .loopr _ _ | .jmp _ | .branch _ _ _ _ => l

/-- A region request of the M slot enters the core (R90, R91, R150). A REGION_ON of a region whose REGION_OFF has still to take
effect waits behind it (DEDUCED, log entry 49). -/
def requestRegions (r : Regions) (m : MOp) : Regions :=
  match m with
  | .regionOn _ mask =>
    { r with requested := r.requested ||| (mask &&& (~~~(onMask r ||| rampingMask r) ||| r.offRequested)) }
  | .regionOff _ mask => { r with offRequested := r.offRequested ||| mask }
  | _ => r

/-- The mask of a REGION_OFF. -/
def offMask (m : MOp) : BitVec 4 :=
  match m with
  | .regionOff _ mask => mask
  | _ => 0

/-- A REGION_OFF enters the queues of the units that it names, behind the operations issued before it and the flush of the gather queue (R92);
the issue logic drops its
current load, and the attention state returns to IDLE (Table 05-5, R173) (DEDUCED, log entry 49). -/
def enterOff (c0 : Core) (mask : BitVec 4) : Core :=
  let c : Core := if bit mask 0 || bit mask 3 then { c0 with arr := forceFlush c0.arr } else c0
  let q := (if bit mask 0 then [ArrOp.off] else []) ++ (if bit mask 3 then [ArrOp.gatherOff] else [])
  { c with
    arr := { c.arr with queue := c.arr.queue ++ q, current := if bit mask 0 then none else c.arr.current },
    att := if bit mask 1 then { c.att with queue := c.att.queue ++ [.off], issue := .idle, issueRows := 0 } else c.att,
    vec := if bit mask 2 then { c.vec with queue := c.vec.queue ++ [.off] } else c.vec }

/-- A cache block takes its new tag when its FETCH_ROSTER issues, and holds none of its previous words (R85). -/
def retag (s : Sequencer) (m : MOp) (w : DWord) : Sequencer :=
  match m with
  | .fetchRoster _ _ _ block => { s with cache := mapPut s.cache block.toNat ⟨w.toNat, true, [], []⟩ }
  | _ => s

/-- The M slot's operation enters the MOVE queue; in a re-executed step it presents only what its first execution did not
(R210). -/
def Local.applyM (l v : Local) (m : MOp) : Local :=
  if m = .nop then l
  else
    let o := captureMove v m l.core.seq.lap l.core.step.opCount
    let past := (l.core.step.log.find? fun e => e.1 == o.stepIndex).map (·.2)
    let l1 := l.regUpd fun r => requestRegions r m
    let l2 : Local := { l1 with core := { l1.core with step := { l1.core.step with opCount := l1.core.step.opCount + 1 } } }
    match past with
    | some p => if p.complete then l2 else l2.movUpd fun q => q ++ [{ o with units := p.units, transit := p.transit, data := p.data }]
    | none => (l2.seqr fun s => retag s m o.sVal).movUpd fun q => q ++ [o]

/-- The A slot's operation enters its queue and changes the issue logic's records (R97, R105, R106, R150). -/
def Local.applyA (l v : Local) (a : AOp) : Local :=
  match a with
  | .nop => l
  | .wload sy x packed =>
    l.arrUpd fun s => { s with queue := s.queue ++ [.wload sy (v.pat x) packed], current := some (loadRecordOf (v.pat x) packed) }
  | .pass sy x y acc => l.arrUpd fun s => { s with queue := s.queue ++ [.pass sy (v.pat x) (v.pat y) acc] }
  | .gcfg threshold timeout => l.arrUpd fun s => setGather s threshold timeout
  | .gather sy x y =>
    l.arrUpd fun s => issueGather s (l.core.regions.gather == .on && !s.queue.contains .off && !s.queue.contains .gatherOff) ⟨sy, v.pat x, v.pat y, rowsOf v x⟩ l.core.seq.beats
  | .attMode sy x => l.attUpd fun s => { s with queue := s.queue ++ [.mode sy (v.pat x)], issue := .moded }
  | .attQ sy x y =>
    l.attUpd fun s =>
      { s with queue := s.queue ++ [.query sy (v.pat x) (v.pat? y)], issue := .opened, issueRows := patRunCount (v.pat x) }
  | .attKv sy x y => l.attUpd fun s => { s with queue := s.queue ++ [.kv sy (v.pat x) (v.pat y)] }
  | .attWalk sy x => l.attUpd fun s => { s with queue := s.queue ++ [.walk sy (v.pat x) (field l.core.seq.lap 0 2) v.core.seq.position] }
  | .attOut sy x y =>
    l.attUpd fun s => { s with queue := s.queue ++ [.out sy (v.pat x) (v.pat? y)], issue := .moded }

/-- The scalar that a V-slot operation captures. -/
def vecScalar (v : Local) : VOp → DWord
  | .vsplat _ _ _ sa _ => v.s sa
  | _ => 0

/-- The V slot's operation enters the VECTOR queue with what it captured (R74, R136). -/
def Local.applyV (l v : Local) (o : VOp) : Local :=
  if o = .nop then l
  else l.vecUpd fun s => { s with queue := s.queue ++ [.op o ((namesV o).head?.map v.pat) (vecScalar v o)] }

/-- ADVANCE of every named record (R80). -/
def advanceAll (m : List (Nat × PatternRecord)) (ns : List (BitVec 8)) : List (Nat × PatternRecord) :=
  match ns with
  | [] => m
  | i :: r => advanceAll (mapPut m i.toNat (advancePattern (mapGet 0 m i.toNat))) r

/-- The records named in the slots of a word. -/
def wordNames (w : Slots) : List (BitVec 8) := namesM w.m ++ namesA w.a ++ namesV w.v

/-- The word's advance: loop frames, the next word, the counts, and the run state at END (DESIGN CHOICE, log entry 26). -/
def Local.advance (l v : Local) (c : COp) : Local :=
  let nx := nextWord v c
  let l1 := l.seqr fun s =>
    { s with
      loops := nx.1, position := wordIndex nx.2, lastIssued := v.core.seq.position, wordsIssued := wrapAdd s.wordsIssued 1,
      beats := s.beats + 1 + Config.extraBeats l.env.n l.env.now s.beats, replayMark := false,
      run := if c = .endRoster then .ended else s.run }
  { l1 with core := { l1.core with step := { l1.core.step with treatMarkAsNop := false } } }

/-- The slots of a word that issue: an operation that raises PRIVATE_RING or UNMAPPED does not (R88). -/
def issuing (l : Local) (w : Slots) : Slots :=
  { w with m := if privateM l w.m || unmappedM l w.m then .nop else w.m, a := if privateA l w.a then .nop else w.a }

/-- A REGION_OFF takes its place behind the operations of its own word (R173) (DEDUCED, log entry 49). -/
def Local.applyOffs (l : Local) (m : MOp) : Local :=
  if offMask m = 0 then l else { l with core := enterOff l.core (offMask m) }

/-- The first beat from `b` on in which a core may issue: at most DUTY of 16 consecutive ones, the first DUTY of each 16 (R331) (DESIGN CHOICE,
log entry 26). -/
def dutyBeat (duty b : Nat) : Nat := if duty = 0 ∨ b % 16 < duty then b else b + (16 - b % 16)

/-- The core at the beat in which its word issues. -/
def Local.onBeat (l : Local) : Local := l.seqr fun s => { s with beats := dutyBeat l.env.duty s.beats }

/-- The word issues: its slots act together on the state before it (R72, R74, R80). A pattern that the word both advances and loads holds the
loaded record (DESIGN CHOICE, log entry 54). -/
def Local.actWord (l : Local) (w : Slots) : Local :=
  let l1 := l.seqr fun s => { s with patterns := advanceAll s.patterns (wordNames w) }
  let marked := takeMark l w.c l.core
  let l2 := if (w.c = .lapMark ∨ w.c = .stepMark) ∧ !markIsNop l.core then
      if w.c = .lapMark ∧ l.env.replayable then { l with core := marked }
      else { l1 with core := { marked with seq := { marked.seq with patterns := l1.core.seq.patterns } } }
    else l1
  let l3 := l2.applyC l w.c
  ((((l3.applyM l w.m).applyA l w.a).applyV l w.v).applyOffs w.m).advance l w.c

/-- The gather queue flushes when a roster fault stops the core (R107, R109). -/
def Local.faultStop (l : Local) (kind slot : Nat) (word : BitVec 28) : Local :=
  (l.rosterFault kind slot word).arrUpd forceFlush

/-- The clash of a word counted, with its roster fault where CLASH_FAULT asks for one (R57, R204). -/
def Local.noteClash (l v : Local) (w : Slots) : Local :=
  match clashSlot v (groupsC v w.c) (groupsM v w.m) (groupsA v w.a) (groupsV v w.v) with
  | none => l
  | some slot =>
    let l1 := { l with clashes := l.clashes + 1 }
    if v.core.seq.clashFaultNow then l1.faultStop 3 slot v.core.seq.position else l1

/-- PRIVATE_RING and UNMAPPED, raised after the other slots have issued (R62, R83, R88). -/
def Local.noteFaults (l v : Local) (w : Slots) : Local :=
  if privateM v w.m then l.faultStop 4 1 v.core.seq.position
  else if privateA v w.a then l.faultStop 4 2 v.core.seq.position
  else if unmappedM v w.m then l.faultStop 1 1 v.core.seq.position
  else l

/-- A legal word at the issue logic: it waits, or issues whole. A word that raises PRIVATE_RING or UNMAPPED and clashes as well takes the
former, which R88 orders (DESIGN CHOICE, log entry 54). -/
def Local.issueWord (l : Local) (w : Slots) : Local :=
  let held := l.reach w
  if holdsWord held w then held.pump
  else
    let r := held.onBeat
    let w1 := issuing r w
    (((r.actWord w1).noteFaults r w).noteClash r w1).pump

/-- The core may issue: it runs, and no parity error stops issue (R59, R210). -/
def mayIssue (c : Core) : Bool := c.seq.run == .running && !c.step.parity

/-- The decoded word at the core's position, where it is resident and legal. -/
def legalWord (l : Local) : Option Slots :=
  match lookup l.core.seq with
  | .word w => if illegalSlot l w = none then decodeWord w else none
  | _ => none

/-- The core issues its next word, where that word is legal and holds the operation that `has` names (DESIGN CHOICE, log
entry 4). -/
def Local.issue (l : Local) (has : Slots → Bool) : Local :=
  if mayIssue l.core then
    match legalWord l with
    | some w => if has w then l.issueWord w else l
    | none => l
  else l

/-- An uncorrectable error that the cache's own code finds in the next word, where it is resident: from then on the word is as a
poisoned one (R86). -/
def cacheUpset (s : Sequencer) : Sequencer :=
  let i := s.position.toNat % 256
  match blockOf s (tagOf s.position.toNat) with
  | some (k, b) => if !b.filling && decide (i < b.words.length) then { s with cache := mapPut s.cache k { b with poisoned := i :: b.poisoned } } else s
  | none => s

/-- ILLEGAL_WORD: the core reaches a word that is illegal, not resident or poisoned, and stops (R85 to R88); `cacheError` is whether the
cache's code finds an uncorrectable error in that word. SLOT of a word that is not resident reads C (DESIGN CHOICE, log entry 56). -/
def Local.illegalWord (l : Local) (cacheError : Bool) : Local :=
  let pos := l.core.seq.position
  if mayIssue l.core then
    let l := if cacheError then l.seqr cacheUpset else l
    match lookup l.core.seq with
    | .filling => l
    | .absent => (l.faultStop 5 0 pos).pump
    | .poisoned => (l.faultStop 6 0 pos).pump
    | .word w =>
      match illegalSlot l w with
      | some slot => (l.faultStop 5 slot pos).pump
      | none => l
  else l

/-! ### Step re-execution (R210) -/

/-- Every operation already issued has completed, stopped stores and an abandoned walk apart. -/
def settled (c : Core) : Bool :=
  (c.moveQ.all fun o => (o.halted && o.onItsWay.isEmpty) || moveDone c.regions o) && c.arr.queue.isEmpty && c.arr.running.isNone
    && c.vec.queue.isEmpty && c.att.queue.isEmpty

/-- What each operation of the step has left to present (Table 10-5). -/
def presentedLog (c : Core) : List (Nat × Presented) :=
  (List.range c.step.opCount).map fun i =>
    match c.moveQ.find? fun o => o.stepIndex == i && o.halted with
    | some o => (i, ⟨o.units, o.transit, o.data, false⟩)
    | none => (i, ⟨[], [], [], true⟩)

/-- The core with the state of Table 10-5 restored (DEDUCED, log entry 34). -/
def restoreStep (c : Core) (r : StepRecord) : Core :=
  { c with
    seq := { c.seq with position := wordIndex r.word, regs := r.regs, patterns := r.patterns, loops := r.loops, priv := r.priv,
                        privDepth := r.privDepth },
    step := { c.step with opCount := 0, log := presentedLog c, parity := false, retrying := true, treatMarkAsNop := true },
    moveQ := [], shown := [],
    arr := { c.arr with current := r.current, gatherCfg := r.gatherCfg, gather := [] },
    att := { walkAbandon c.att with
             queue := [], issue := r.attIssue, issueRows := r.attIssueRows, mode := r.attMode, modeError := r.attModeError,
             turns := c.att.turns.map fun t =>
               if r.attWalks ≤ t.serial then { t with sends := [], taken := [], again := true } else t,
             seq := r.attSeq, next := none, nextKv := r.attNextKv, keysTaken := 0, tiles := [], staged := [], walkRetired := false },
    scr := { c.scr with reexecutions := satAdd c.scr.reexecutions 1 } }

/-- STEP_REEXECUTION: once the issued operations have completed, the step's first word is next again. -/
def Local.reexecute (l : Local) : Local :=
  if l.core.step.parity && l.core.seq.run == .running && settled l.core then
    match l.core.step.record with
    | some r => { l with core := restoreStep l.core r }
    | none => l
  else l

end Sys2Proof.Machine
end

