-- ==== Sys2Proof/Machine/RingOps.lean ====
section
/-!
DEFINITION. Order rings as data (03): parsing a ring image (Tables 03-3 to 03-5), the load-time checks of R50, the built-in
open images (R398, Table 03-23), the slot in service and its end (R42, R46), and the counts of openings (Table 03-22).
-/

namespace Sys2Proof.Machine

/-- The class and the instance of a ring key. -/
def ringClass (key : Nat) : Nat := key / 65536
def ringInst (key : Nat) : Nat := key % 65536

/-- Instances per class (Table 03-1). -/
def ringInstances (cls : Nat) : Nat :=
  match cls with
  | 1 | 2 => 512
  | 3 => 30
  | 4 => 32
  | 5 => 240
  | 6 | 7 => 1
  | _ => 0

/-- Maximum slots per class (Table 03-1). -/
def maxSlots (cls : Nat) : Nat :=
  match cls with
  | 1 | 6 => 256
  | 2 | 3 | 4 => 4096
  | 5 => 2048
  | 7 => 64
  | _ => 0

/-- The code of a slot kind (Table 03-5). -/
def kindCode : SlotKind → Nat
  | .owner => 0
  | .host => 1
  | .refresh => 2
  | .switchOn => 3
  | .scrub => 4
  | .log => 5

/-- The slot kind of a code; codes 0x6 to 0xF are reserved. -/
def kindOf (code : Nat) : Option SlotKind :=
  match code with
  | 0 => some .owner
  | 1 => some .host
  | 2 => some .refresh
  | 3 => some .switchOn
  | 4 => some .scrub
  | 5 => some .log
  | _ => none

/-- Kinds that a class permits (Table 03-1). A log opening is permitted on every port and required on some. -/
def kindPermitted (cls : Nat) (k : SlotKind) : Bool :=
  match cls with
  | 1 => k == .owner || k == .host
  | 2 => k != .log
  | 3 | 4 => k == .owner || k == .host || k == .log
  | 5 => k == .owner || k == .host || k == .refresh || k == .scrub
  | 6 => k == .owner
  | _ => k == .log

/-- Kinds that every image of the class must contain (Table 03-1). -/
def kindsRequired (cls inst : Nat) : List SlotKind :=
  match cls with
  | 1 => [.host]
  | 2 | 5 => [.host, .refresh, .scrub]
  | 3 => if inst = 28 then [.host, .log] else [.host]
  | 4 => if inst % 2 = 1 then [.host, .log] else [.host]
  | _ => []

/-- Owner codes that are defined and can reach the resource (Table 03-2, check 3 of R50; R241, R280). The error log engine reaches the
PCIe-bound port alone (R369). -/
def ownerReaches (cls inst owner : Nat) : Bool :=
  let core := decide (owner < 0x200)
  let dma := decide (0x200 ≤ owner) && decide (owner ≤ 0x207)
  let hqe := owner == 0x210
  let near := decide (0x220 ≤ owner) && decide (owner ≤ 0x22B)
  match cls with
  | 1 => core
  | 2 => core || dma || hqe
  | 3 => core || dma || hqe || near || (owner == 0x230 && inst == 28)
  | 4 => core || dma || hqe || near
  | 5 => (core || dma || hqe || owner == 0x220 + inst / 20) && decide (inst % 20 < 16)
  | 6 => near
  | _ => false

/-- A parsed image with its class and instance. -/
structure ParsedImage where
  cls : Nat
  inst : Nat
  image : RingImage
  count : Nat
  clean : Bool
deriving DecidableEq, Repr

/-- One slot word; none for a reserved kind or field (Tables 03-4, 03-5). -/
def parseSlot (cls : Nat) (w : BitVec 32) : Option RingSlot :=
  let owner := (field w 16 12).toNat
  (kindOf (field w 28 4).toNat).bind fun k =>
    let fits := match k with
      | .owner => true
      | .refresh => decide (owner < 8)
      | .log => if cls = 7 then decide (owner ≤ 0x16) else owner == 0
      | _ => owner == 0
    if field w 12 4 == 0 && fits then some ⟨k, owner, (field w 0 12).toNat + 1⟩ else none

/-- Every slot word of an image, in order; none where one is not defined. -/
def parseSlots (cls : Nat) (ws : List (BitVec 32)) : Option (List RingSlot) :=
  match ws with
  | [] => some []
  | w :: r => (parseSlot cls w).bind fun s => (parseSlots cls r).map (s :: ·)

/-- The image of Table 03-3 with its slots. -/
def parseImage (bytes : List Byte) : ParsedImage :=
  let h : BitVec 128 := BitVec.ofNat 128 (leNat (bytes.take 16))
  let cls := (field h 56 8).toNat
  let count := (field h 72 12).toNat + 1
  let slots := parseSlots cls ((chunks 4 count (bytes.drop 16)).map fun b => BitVec.ofNat 32 (leNat b))
  { cls := cls, inst := (field h 40 16).toNat, count := count,
    image := { buildId := field h 96 32, reqFl := (field h 68 4).toNat, mult := (field h 66 2).toNat,
               replayable := bit h 65, cool := bit h 64, slots := slots.getD [] },
    clean := slots.isSome && field h 84 12 == 0 && field h 0 40 == 0 }

/-- The largest owner service between consecutive openings of a kind, wrap-around included. -/
def gapFrom (k : SlotKind) (acc best : Nat) (l : List RingSlot) : Nat :=
  match l with
  | [] => max acc best
  | s :: r =>
    if s.kind = k then gapFrom k 0 (max acc best) r
    else gapFrom k (if s.kind = .owner then acc + s.units else acc) best r

def maxGap (k : SlotKind) (l : List RingSlot) : Nat := gapFrom k 0 0 (l ++ l)

/-- The bound on owner service between refresh openings: Tables 03-7 and 12-4, by class, SIZED_MULT and DATA_RATE. -/
def refreshBound (cls mult rate : Nat) : Nat :=
  if cls = 2 then (match mult with | 2 => 1200 | 1 => 2700 | _ => 5400)
  else
    match rate, mult with
    | 3, 2 => 36
    | 3, 1 => 72
    | 3, _ => 145
    | 2, 2 => 32
    | 2, 1 => 64
    | 2, _ => 129
    | 1, 2 => 28
    | 1, 1 => 56
    | 1, _ => 113
    | _, 2 => 23
    | _, 1 => 48
    | _, _ => 97

/-- The bound on owner service between host openings (Table 03-6); a credit ring needs one per revolution only. -/
def hostBound (cls : Nat) : Option Nat :=
  match cls with
  | 2 => some 10000
  | 3 | 4 => some 48000
  | 5 => some 1200
  | _ => none

/-- Check 4 of R50: the sizing bounds. -/
def sizedWell (p : ParsedImage) (rate : Nat) : Bool :=
  let l := p.image.slots
  (match hostBound p.cls with
    | some b => decide (maxGap .host l ≤ b)
    | none => true)
  && (!(p.cls == 2 || p.cls == 5) || decide (maxGap .refresh l ≤ refreshBound p.cls p.image.mult rate))
  && (!(l.any fun s => s.kind == .log) || p.cls == 7 || decide (maxGap .log l ≤ 120000))

/-- The owner sequence of an image (check 6 of R50). -/
def ownerSequence (i : RingImage) : List (Nat × Nat) :=
  (i.slots.filter fun s => s.kind == .owner).map fun s => (s.owner, s.units)

/-- Check 5 and check 6 of R50, against the images that the sequencer holds. -/
def variantFits (p : ParsedImage) (r : Ring) : Bool :=
  let i := p.image
  if p.cls = 2 ∨ p.cls = 5 then
    if i.cool then
      (i.mult == 0 || i.mult == 1) && r.normalLoaded
        && match r.normal with
          | some n => n.buildId == i.buildId && ownerSequence n == ownerSequence i
          | none => false
    else i.mult == 2
  else i.mult == 0 && !i.cool

/-- An error-log ring image names every source group (R369). -/
def namesGroups (p : ParsedImage) : Bool :=
  p.cls != 7 || (List.range 23).all fun g => p.image.slots.any fun s => s.kind == .log && s.owner == g

/-- The checks of R50 in order, with that of R369; `rate` is the DATA_RATE in effect, `mapped` whether a Cuff channel is mapped out (R241). -/
def imageValid (p : ParsedImage) (r : Ring) (rate : Nat) (mapped : Bool) : Bool :=
  let i := p.image
  p.clean && decide (1 ≤ p.cls) && decide (p.inst < ringInstances p.cls) && decide (p.count ≤ maxSlots p.cls)
    && (i.reqFl == 1 || i.reqFl == 2)
    && i.slots.all (fun s => kindPermitted p.cls s.kind)
    && (kindsRequired p.cls p.inst).all (fun k => i.slots.any fun s => s.kind == k)
    && i.slots.all (fun s => s.kind != .owner || ownerReaches p.cls p.inst s.owner)
    && !(p.cls == 5 && (mapped || decide (16 ≤ p.inst % 20)))
    && sizedWell p rate && variantFits p r && namesGroups p

/-! ### The built-in open images (Table 03-23) -/

def hostSlot (units : Nat) : RingSlot := ⟨.host, 0, units⟩
def refreshSlot (group : Nat) : RingSlot := ⟨.refresh, group, 1⟩
def scrubSlot : RingSlot := ⟨.scrub, 0, 32⟩

/-- The slots of one revolution of the built-in open image of a ring. -/
def openSlots (key : Nat) : List RingSlot :=
  let inst := ringInst key
  match ringClass key with
  | 1 => [hostSlot 1]
  | 2 => [hostSlot 1200, refreshSlot 0, scrubSlot, scrubSlot, scrubSlot, scrubSlot, refreshSlot 4]
  | 3 => if inst = 28 then [hostSlot 4096, ⟨.log, 0, 16⟩] else [hostSlot 4096]
  | 4 => if inst % 2 = 1 then [hostSlot 4096, ⟨.log, 0, 16⟩] else [hostSlot 4096]
  | 5 => [hostSlot 23, refreshSlot 0, scrubSlot, refreshSlot 4, refreshSlot 2]
  | 6 => (List.range 12).map fun k => ⟨.owner, 0x220 + k, 1⟩
  | _ => (List.range 23).map fun g => ⟨.log, g, 4⟩

/-- The slots of the image in use. -/
def Ring.slots (r : Ring) (key : Nat) : List RingSlot :=
  match r.use with
  | .opened => openSlots key
  | .normal => (r.normal.map (·.slots)).getD (openSlots key)
  | .cool => (r.cool.map (·.slots)).getD (openSlots key)

/-- The slot in service or waiting. -/
def Ring.current (r : Ring) (key : Nat) : Option RingSlot := if r.atEnd then none else (r.slots key)[r.slot]?

/-! ### The end of a slot -/

/-- A ring that has come to a slot. -/
def Ring.arrive (r : Ring) (now : Nat) : Ring :=
  { r with used := 0, begun := false, paid := false, copied := false, stalled := false, waitSince := now }

/-- A slot ends: the ring moves to the next slot, or to the ring boundary after the last. -/
def Ring.endSlot (r : Ring) (key now : Nat) : Ring :=
  if r.slot + 1 < (r.slots key).length then { r.arrive now with slot := r.slot + 1 } else { r.arrive now with atEnd := true }

/-- An opening counted as used or idle (Table 03-22). -/
def Ring.countOpening (r : Ring) (k : SlotKind) (used : Bool) : Ring :=
  let c := kindCode k
  if used then { r with usedCounts := mapPut r.usedCounts c (wrapAdd (mapGet 0 r.usedCounts c) 1) }
  else { r with idleCounts := mapPut r.idleCounts c (wrapAdd (mapGet 0 r.idleCounts c) 1) }

/-- An opening ends: counted, and the ring moves on. -/
def Ring.endOpening (r : Ring) (key now : Nat) (k : SlotKind) (used : Bool) : Ring :=
  (r.countOpening k used).endSlot key now

/-- Whether an owner has a slot in the image in use (R58). -/
def Ring.ownsSlot (r : Ring) (key owner : Nat) : Bool :=
  (r.slots key).any fun s => s.kind == .owner && s.owner == owner

/-- Whether the image in use holds a switch-on opening (R91). -/
def Ring.hasSwitchOn (r : Ring) (key : Nat) : Bool := (r.slots key).any fun s => s.kind == .switchOn

/-- One unit used in the current owner slot; the slot ends with its last unit, or with a unit marked as the turn's last. -/
def Ring.useUnits (r : Ring) (key now units : Nat) (last : Bool) : Ring :=
  match r.current key with
  | some s =>
    if last ∨ s.units ≤ r.used + units then r.endSlot key now
    else { r with used := r.used + units, stalled := false, waitSince := now }
  | none => r

/-- A ring returns to its open image at its next boundary (R42, R317). -/
def Ring.release (r : Ring) : Ring := if r.use = .opened then r else { r with toOpen := true }

/-- A ring at LAUNCH: slot 0 of its normal image, lap 0 (R42, R309). -/
def Ring.launch (r : Ring) (now : Nat) : Ring :=
  let use := if r.normalLoaded then .normal else .opened
  { r.arrive now with cool := if r.coolLoaded then r.cool else none, use := use, toOpen := false, lap := 0, laps := 0, slot := 0,
                      atEnd := false, hot := false }

/-- A ring reset to slot 0 with the replay lap (R66 step 3, Table 03-21). -/
def Ring.replay (r : Ring) (lap now : Nat) : Ring :=
  { r.arrive now with lap := lap, laps := BitVec.ofNat 32 (min lap 0xFFFFFFFF), slot := 0, atEnd := false, clashes := [] }

/-- The ring leaves its last slot for slot 0: the lap ends and LAPS counts (R43, Table 03-21). -/
def Ring.wrap (r : Ring) (now : Nat) (use : ImageUse) : Ring :=
  { r.arrive now with use := use, toOpen := false, lap := r.lap + 1, laps := satAdd r.laps 1, slot := 0, atEnd := false }

/-- The word that YK_RING_STATUS reads for a ring (Table 03-20). -/
def Ring.statusWord (r : Ring) : BitVec 32 :=
  let st := if r.stalled then 1 else if r.use = .opened then 2 else 0
  BitVec.ofNat 32 (st * 2 ^ 30 + (if r.use = .cool then 2 ^ 29 else 0) + r.lap % 4 * 2 ^ 27 + r.slot % 4096)

end Sys2Proof.Machine
end

