-- ==== Sys2Proof/Machine/State.lean ====
section
/-!
DEFINITION. The state of the module: the queue of waiting commands and every piece of state of the spec, grouped by chapter
(INVENTORY.md lists it). Sparse maps hold the reset value at a key that they do not list.
-/

namespace Sys2Proof.Machine

/-- Faults: the module has none of the model's own. A roster fault (R59), a halted engine (R291) and every error are state. -/
inductive Fault where
deriving DecidableEq, Repr

/-- Refusals. -/
inductive Refusal where
  /-- Raised by `exec` for a command that has no meaning yet; safe: nothing is said about it. -/
  | notModelled (mnemonic : String)
deriving DecidableEq, Repr

/-- The module. Cores, rings, columns, Cuffs, Panels and Seam ports are maps by number: logical core n, ring
65536 × class + instance, physical column 68p + c, Cuff k, Panel p, port 2p + s. -/
structure State where
  pending : List Instr
  mem : List Host.Cell
  cores : List (Nat × Core)
  rings : List (Nat × Ring)
  columns : List (Nat × Column)
  cuffs : List (Nat × Cuff)
  panels : List (Nat × Panel)
  seams : List (Nat × SeamPort)
  map : CoreMap
  time : TimeState
  yoke : YokeRegs
  cap : CapTier
  set : ActiveSet
  badRosters : List Nat
  scrubs : List ScrubPass
  credit : List CreditMessage
  host : HostIf
  power : Power
  thermal : Thermal
  log : LogState
  mgmt : Mgmt
  out : Outputs
  freeTick : Nat
deriving DecidableEq, Repr

/-- A Panel before Seam training of a cold reset has reported it. -/
def Panel.reset : Panel := ⟨.present, 0, 0, false, 0⟩

/-- The module right after cold reset, before start-up runs (R333): nothing waits, memory lists nothing (DESIGN CHOICE, log
entry 9). -/
def State.reset : State :=
  { pending := [], mem := [], cores := [], rings := [], columns := [], cuffs := [], panels := [], seams := [],
    map := CoreMap.reset, time := TimeState.reset, yoke := YokeRegs.reset, cap := CapTier.reset, set := ActiveSet.none,
    badRosters := [], scrubs := [], credit := [], host := HostIf.reset, power := Power.reset, thermal := Thermal.reset,
    log := LogState.reset, mgmt := Mgmt.reset, out := Outputs.reset, freeTick := 0 }

end Sys2Proof.Machine
end

