-- ==== Sys2Proof/Machine/Ops.lean ====
section
/-!
DEFINITION. Named operations over the module: its parts by number with their reset values, expert control (R8, R9), free
values, MSI-X signals, events with their holdoff (R374), and the error log's path from a report to a release queue (R367, R368).
-/

namespace Sys2Proof.Machine

/-! ### Parts by number -/

def State.core (s : State) (n : Nat) : Core := mapGet Core.reset s.cores n
def State.ring (s : State) (key : Nat) : Ring := mapGet Ring.reset s.rings key
def State.column (s : State) (k : Nat) : Column := mapGet Column.reset s.columns k
def State.cuff (s : State) (k : Nat) : Cuff := mapGet Cuff.reset s.cuffs k
def State.panel (s : State) (p : Nat) : Panel := mapGet Panel.reset s.panels p
def State.seam (s : State) (n : Nat) : SeamPort := mapGet SeamPort.reset s.seams n
def State.entry (s : State) (n : Nat) : MapEntry := mapGet (entryDefault n) s.map.entries n
def State.physState (s : State) (k : Nat) : PhysState := mapGet (physDefault k) s.map.phys k
def State.sq (s : State) (q : Nat) : Sq := mapGet Sq.reset s.host.sqs q
def State.cq (s : State) (q : Nat) : Cq := mapGet Cq.reset s.host.cqs q
def State.sensor (s : State) (k : Nat) : Sensor := mapGet Sensor.reset s.thermal.sensors k

def State.setCore (s : State) (n : Nat) (c : Core) : State := { s with cores := mapPut s.cores n c }
def State.setRing (s : State) (key : Nat) (r : Ring) : State := { s with rings := mapPut s.rings key r }
def State.setColumn (s : State) (k : Nat) (c : Column) : State := { s with columns := mapPut s.columns k c }
def State.setCuff (s : State) (k : Nat) (c : Cuff) : State := { s with cuffs := mapPut s.cuffs k c }
def State.setPanel (s : State) (p : Nat) (x : Panel) : State := { s with panels := mapPut s.panels p x }
def State.setSeam (s : State) (n : Nat) (x : SeamPort) : State := { s with seams := mapPut s.seams n x }
def State.setSq (s : State) (q : Nat) (x : Sq) : State := { s with host := { s.host with sqs := mapPut s.host.sqs q x } }
def State.setCq (s : State) (q : Nat) (x : Cq) : State := { s with host := { s.host with cqs := mapPut s.host.cqs q x } }

/-- Every item of a list applied in turn. -/
def foldOver {α : Type} (l : List α) (f : State → α → State) (s : State) : State := l.foldl f s

/-- The logical numbers that are absent (R14, R17, R18). -/
def State.absentCores (s : State) : List Nat := (s.map.entries.filter fun e => e.2.state == .absent).map (·.1)

/-- The column that holds a logical core's Pocket slot, and the physical core that executes it, numbered 68p + c. -/
def State.columnOf (s : State) (n : Nat) : Nat := 68 * (n / 64) + (s.entry n).column
def State.physOf (s : State) (n : Nat) : Nat := 68 * (n / 64) + (s.entry n).phys

/-- The logical core that a physical core executes. -/
def State.logicalOf (s : State) (phys : Nat) : Option Nat :=
  ((List.range 64).map (· + 64 * (phys / 68))).find? fun n => (s.entry n).state != .absent && s.physOf n == phys

/-- The crossover core of a physical core's quadrant. -/
def crossoverOf (phys : Nat) : Nat := phys / 68 * 68 + phys % 68 / 17 * 17 + 16

/-- The host queue engine's part changed. -/
def State.updHost (s : State) (f : HostIf → HostIf) : State := { s with host := f s.host }

/-- The Pocket ring that orders accesses to a logical core's slot: its own, or, for a number that has become absent, that of the
crossover core that serves its column (R17, R236). -/
def State.pocketRing (s : State) (n : Nat) : Nat :=
  if (s.entry n).state = .absent then ringKey 2 ((s.logicalOf (crossoverOf (s.columnOf n))).getD n) else ringKey 2 n

/-- The logical core whose Pocket slot a column holds. -/
def State.slotOwner (s : State) (col : Nat) : Option Nat :=
  ((List.range 64).map (· + 64 * (col / 68))).find? fun n => s.columnOf n == col

/-- Where a column stands. -/
def State.colSite (s : State) (col : Nat) : ColSite :=
  ⟨col / 68, col % 68, (s.slotOwner col).getD 0 * pocketSlotBytes⟩

/-! ### Expert control (R8, R9) -/

/-- The bit of YK_EXPERT_ENABLE that governs a block's expert registers (Table 00-5). -/
inductive ExpertBlock where
  | yk | pn | co | pk | cf | cl | pw | th
deriving DecidableEq, Repr

def ExpertBlock.bit : ExpertBlock → Nat
  | .yk => 0
  | .pn => 1
  | .co => 2
  | .pk => 3
  | .cf => 4
  | .cl => 5
  | .pw => 6
  | .th => 7

def State.expertOn (s : State) (b : ExpertBlock) : Bool := Machine.bit s.yoke.expertEnable b.bit

/-- The value of an expert register in effect: as written in expert mode, else as derived from the basic controls (DEDUCED,
log entry 32). -/
def State.expert (s : State) (b : ExpertBlock) (stored derived : BitVec 32) : BitVec 32 :=
  if s.expertOn b then stored else derived

/-- YK_COOL_EXPERT, YK_SEAM_EXPERT, YK_HQ_EXPERT and YK_LOG_EXPERT in effect. -/
def State.coolExpert (s : State) : BitVec 32 := s.expert .yk s.yoke.coolExpert 0x00640301
def State.seamExpert (s : State) : BitVec 32 := s.expert .yk s.yoke.seamExpert 0x308
def State.hqExpert (s : State) : BitVec 32 := s.expert .yk s.host.hqExpert 1
def State.logExpert (s : State) : BitVec 32 := s.expert .yk s.log.expert 0x64
/-- CF_EXPERT in effect (R279: at once). -/
def State.cuffExpert (s : State) (k : Nat) : BitVec 32 := s.expert .cf (s.cuff k).expert 0x00406400
/-- CL_EXPERT in effect. -/
def State.collarExpert (s : State) : BitVec 32 := s.expert .cl s.mgmt.expert 5

/-! ### Free values and time -/

/-- The free value of this step (log entry 2). -/
def State.free (s : State) : DWord := Config.freeValue s.freeTick

/-- The step after a free value has been drawn (DESIGN CHOICE, log entry 2). -/
def State.drew (s : State) : State := { s with freeTick := s.freeTick + 1 }

/-- Bytes that are free values, and the step after they have been drawn (DESIGN CHOICE, log entry 2). -/
def State.freeBytes (s : State) (n : Nat) : List Byte := (List.range n).map fun i => (Config.freeValue (s.freeTick + i)).setWidth 8
def State.drewBytes (s : State) (n : Nat) : State := { s with freeTick := s.freeTick + n }

/-- Now. -/
abbrev State.now (s : State) : Nat := s.time.now

/-- Time has reached a deadline (log entry 6). -/
def State.reach (s : State) (t : Nat) : State := { s with time := { s.time with now := max s.time.now t } }

/-- What an idle step does: one nanosecond passes while the timebase counts (log entry 1). -/
def State.tick (s : State) : State :=
  if s.time.locked then { s with time := { s.time with now := s.time.now + 1 } } else s

/-! ### Answers, MSI-X, events -/

def State.answer (s : State) (a : Answer) : State := { s with out := { s.out with answers := a :: s.out.answers } }

/-- The mask bit of an MSI-X vector (R298) (PRESUMED, log entry 13). -/
def msixMasked (h : HostIf) (v : Nat) : Bool := bit (mapGet (BitVec.ofNat 128 (2 ^ 96)) h.msixTable v) 96

/-- A vector signals: its message is sent, or its pending bit set while it is masked (R298, R315, R371). -/
def State.signal (s : State) (v : Nat) : State :=
  if msixMasked s.host v then { s with host := { s.host with msixPending := putBit s.host.msixPending v true } }
  else { s with out := { s.out with msix := v :: s.out.msix } }

/-- The holdoff in effect, in ns (R374). -/
def State.holdoffNs (s : State) : Nat := (field s.collarExpert 0 8).toNat * 1000000000

/-- The Collar sends an event, or notes its state while a holdoff of the same name and source runs (R374). -/
def State.event (s : State) (name : EventName) (source state : Nat) : State :=
  let e : Event := ⟨name, source, state⟩
  let send (t : State) : State := { t with out := { t.out with events := e :: t.out.events } }
  if name = .thermalShutdown then send s
  else if s.mgmt.holdoffs.any fun h => h.name == name && h.source == source then
    let hs := s.mgmt.holdoffs.map fun h => if h.name = name ∧ h.source = source then { h with current := state } else h
    { s with mgmt := { s.mgmt with holdoffs := hs } }
  else if s.holdoffNs = 0 then send s
  else send { s with mgmt := { s.mgmt with holdoffs := s.mgmt.holdoffs ++ [⟨name, source, s.now + s.holdoffNs, state, state⟩] } }

/-! ### From report to release queue (R367, R368) -/

/-- The hold in ns: COALESCE_MS, 0 acting as 1. -/
def State.coalesceNs (s : State) : Nat := max 1 (field s.logExpert 0 8).toNat * 1000000

/-- The key of a report meets an entry. -/
def LogEntry.matches (e : LogEntry) (r : Report) : Bool := e.cls == r.cls && e.location == r.location && e.detail == r.detail

/-- A record of one report. -/
def recordOf (r : Report) (now : Nat) : ErrRecord :=
  ⟨r.cls, r.source, r.location, r.detail, r.aux, 1, BitVec.ofNat 64 now, BitVec.ofNat 64 now, false⟩

/-- A record enters the release queue, carrying LOST where its class asks for it (DEDUCED, log entry 37). -/
def LogSource.push (g : LogSource) (r : ErrRecord) : LogSource :=
  { g with queue := g.queue ++ [{ r with lost := g.flag.contains r.cls.toNat }], flag := g.flag.filter (· != r.cls.toNat) }

/-- A report dropped now counts toward its class's lost count. -/
def LogSource.drop (g : LogSource) (cls now : Nat) : LogSource :=
  { g with lost := mapPut g.lost cls (mapGet [] g.lost cls ++ [now]), flag := if g.flag.contains cls then g.flag else g.flag ++ [cls] }

/-- An entry's record is released: into the queue, or waiting in its entry, behind the entries that wait already (DEDUCED,
log entry 37). -/
def LogSource.releaseEntry (g : LogSource) (e : LogEntry) (r : ErrRecord) (holdEnd : Nat) : LogSource :=
  let rest := g.entries.filter fun x => !(x.cls == e.cls && x.location == e.location && x.detail == e.detail)
  if g.queue.length < 16 then
    ({ g with entries := rest ++ [{ e with pending := none, holdEnd := holdEnd, waits := false }] } : LogSource).push r
  else { g with entries := rest ++ [{ e with pending := some r, holdEnd := holdEnd, waits := true }] }

/-- One report at its source; the second part says whether it was dropped (DEDUCED, log entry 37). -/
def LogSource.report (g : LogSource) (r : Report) (now hold : Nat) : LogSource × Bool :=
  match g.entries.find? fun e => e.matches r with
  | none =>
    if g.entries.length < 32 then
      (g.releaseEntry ⟨r.cls, r.location, r.detail, none, now + hold, false⟩ (recordOf r now) (now + hold), false)
    else (g.drop r.cls.toNat now, true)
  | some e =>
    match e.pending with
    | none =>
      ({ g with entries := g.entries.map fun x => if x.matches r then { x with pending := some (recordOf r now) } else x }, false)
    | some p =>
      if p.count.toNat < 65535 then
        let p1 := { p with count := p.count + 1, lastNs := BitVec.ofNat 64 now }
        if p1.count.toNat = 65535 ∧ !e.waits then (g.releaseEntry e p1 (now + hold), false)
        else ({ g with entries := g.entries.map fun x => if x.matches r then { x with pending := some p1 } else x }, false)
      else (g.drop r.cls.toNat now, true)

/-- The LOG_LOST record of a class, which covers the dropped reports of some times (R364, R368). -/
def lostRecord (group cls : Nat) (times : List Nat) : ErrRecord :=
  ⟨0x60, BitVec.ofNat 8 group, 0xFFF, BitVec.ofNat 48 cls, 0, BitVec.ofNat 16 times.length,
    BitVec.ofNat 64 (times.head?.getD 0), BitVec.ofNat 64 (times.getLast?.getD 0), false⟩

/-- Space in the release queue taken by waiting records, in the order of their release, then by LOG_LOST records. -/
def LogSource.refill (fuel : Nat) (g : LogSource) (group : Nat) : LogSource :=
  match fuel with
  | 0 => g
  | k + 1 =>
    if 16 ≤ g.queue.length then g
    else
      match g.entries.find? (·.waits) with
      | some e =>
        match e.pending with
        | some r =>
          let g1 := { g with entries := g.entries.map fun x => if x = e then { x with pending := none, waits := false } else x }
          (g1.push r).refill k group
        | none => g
      | none =>
        match g.lost.find? fun e => !e.2.isEmpty with
        | some (c, ts) =>
          let g1 := { g with lost := mapPut g.lost c (ts.drop 65535) }
          (g1.push (lostRecord group c (ts.take 65535))).refill k group
        | none => g

/-- A source group's state. -/
def State.logSource (s : State) (g : Nat) : LogSource := mapGet LogSource.reset s.log.sources g

def State.setLogSource (s : State) (g : Nat) (x : LogSource) : State :=
  { s with log := { s.log with sources := mapPut s.log.sources g x } }

/-- A report filed at its source group; a dropped one counts in YK_LOG_LOST. -/
def State.file (s : State) (r : Report) : State :=
  let g := r.source.toNat
  let a := (s.logSource g).report r s.now s.coalesceNs
  let s1 := s.setLogSource g (a.1.refill 64 g)
  if a.2 then
    let n := satAdd (mapGet 0 s1.log.lostCounts r.cls.toNat) 1
    { s1 with log := { s1.log with lostCounts := mapPut s1.log.lostCounts r.cls.toNat n } }
  else s1

/-- Reports filed in order. -/
def State.fileAll (s : State) (rs : List Report) : State := foldOver rs State.file s

/-- Source group codes (Table 17-6). -/
def grpYoke : Nat := 0x08
def grpHost : Nat := 0x09
def grpCuff (k : Nat) : Nat := 0x0A + k
def grpCollar : Nat := 0x16

/-- A report built from numbers; LOCATION 0xFFF stands for none. -/
def mkReport (cls group location detail aux : Nat) : Report :=
  ⟨BitVec.ofNat 8 cls, BitVec.ofNat 8 group, BitVec.ofNat 12 location, BitVec.ofNat 48 detail, BitVec.ofNat 16 aux⟩

def State.note (s : State) (cls group location detail aux : Nat) : State := s.file (mkReport cls group location detail aux)

/-- A SETUP_ACCESS record (R5, R22). -/
def State.setupError (s : State) (off width : Nat) : State := s.note 0x01 grpYoke 0xFFF off width

/-! ### Sparing changes -/

/-- A change of the sparing map or of a fingerprinted value in effect (R385) (DEDUCED, log entry 38). -/
def State.changed (s : State) : State := { s with mgmt := { s.mgmt with gen := wrapAdd s.mgmt.gen 1 } }

def State.changedIf (s : State) (b : Bool) : State := if b then s.changed else s

/-- A flag as a field value. -/
def flag (b : Bool) : Nat := if b then 1 else 0

/-- Several changes counted. -/
def State.changedBy (s : State) (k : Nat) : State := { s with mgmt := { s.mgmt with gen := wrapAdd s.mgmt.gen k } }

/-- The failed tiles of a physical core. -/
def State.tilesOf (s : State) (x : Nat) : BitVec 16 := mapGet 0 s.map.tiles x

/-- The changes of a logical core's states in the sparing map (R360): YK_CORE_MAP_DATA, and while it is not absent SPARE_FOR and CO_TILES. -/
def State.coreChanges (b a : State) (n : Nat) : Nat :=
  flag (b.entry n != a.entry n)
    + (if (b.entry n).state = .absent ∨ (a.entry n).state = .absent then 0
       else flag ((b.core n).scr.spareFor != (a.core n).scr.spareFor)
         + flag (b.tilesOf (b.physOf n) != a.tilesOf (a.physOf n)))

/-- The changes of a Cuff's states in the sparing map (R360): WIDTH, and each CF_CHAN_STATEn's (DEDUCED, log entry 38). -/
def Cuff.changes (b a : Cuff) : Nat :=
  flag (b.width != a.width)
    + ((List.range 16).filter fun n =>
        let x := b.channels[n]?
        let y := a.channels[n]?
        (x.map fun c => (c.state, c.pkg, c.ch)) != (y.map fun c => (c.state, c.pkg, c.ch))).length

/-- The changes of a column's states in the sparing map (R360): each PK_REMAPn, and each retired page. -/
def Column.changes (b a : Column) : Nat :=
  ((List.zip b.remap a.remap).filter fun e => e.1 != e.2).length
    + (max b.retired.length a.retired.length - min b.retired.length a.retired.length)

end Sys2Proof.Machine
end

