-- ==== Sys2Proof/Machine/CoreOps.lean ====
section
/-!
DEFINITION. A core within the module: what it reads of its surroundings, when it can act, and how what one of its units did
comes back into the module (records, clashes, wraps); the end of a set (R42) and the return of rings to their open images.
-/

namespace Sys2Proof.Machine

/-! ### The core's surroundings -/

/-- The Cuffs that cannot be reached (R253, R254). -/
def State.cuffGone (s : State) (k : Nat) : Bool := (s.cuff k).width == 0

/-- The ring instances of logical channels that do not answer: DEAD ones and those of an unreachable Cuff (R254, R265). -/
def State.deadChannels (s : State) : List Nat :=
  s.cuffs.flatMap fun e =>
    (List.range 16).filterMap fun n =>
      if e.2.width == 0 || (e.2.channels[n]?).map (·.state) == some .dead then some (20 * e.1 + n) else none

/-- A stored unit that a read finds uncorrectable. -/
def capBad (f : CapFault) : Bool :=
  match f with
  | .uncorrectable _ | .poison => true
  | _ => false

/-- What the stored check of a unit reports (DESIGN CHOICE, log entry 12). -/
def State.capFaultAt (s : State) (a : Nat) : Option CapFault := (s.cap.faults.find? fun e => e.1 == a / 64 * 64).map (·.2)

/-- The syndrome of the single-bit error that the unit's next transfer has. -/
def State.linkErrorAt (s : State) (a : Nat) : Option (BitVec 16) := (s.cap.linkErrors.find? fun e => e.1 == a / 64 * 64).map (·.2)

/-- Link ECC in effect on the unit's channel (R279). -/
def State.linkEcc (s : State) (a : Nat) : Bool := (s.cuff (capInstance s.cap.list a / 20)).linkEccNow

/-- What the in-line code reports of a unit as transferred: without link ECC a transfer error is one more bit in error, and two are
detected (R247, R250). -/
def State.capSees (s : State) (a : Nat) : Option CapFault :=
  match s.capFaultAt a, s.linkErrorAt a with
  | f, none => f
  | f, some e =>
    if s.linkEcc a then f
    else match f with
      | none => some (.correctable e)
      | some (.correctable y) => some (.uncorrectable (y ^^^ e))
      | some f => some f

/-- The capacity-tier units that a read finds uncorrectable. -/
def State.capBadUnits (s : State) : List Nat :=
  ((s.cap.faults.map (·.1)) ++ (s.cap.linkErrors.map (·.1))).eraseDups.filter fun a => (s.capSees a).any capBad

/-- The 64-byte units that core `n` would read as uncorrectable: words of its column and capacity-tier units. -/
def State.badUnits (s : State) (n : Nat) : List Nat :=
  let c := s.column (s.columnOf n)
  let own := (c.faults.filter fun e => !c.readable e.1).map fun e => n * pocketSlotBytes + 64 * e.1
  own ++ s.capBadUnits

/-- The lowest lap of the rings that run an image of the set (R49); no bound where none does. -/
def State.minLap (s : State) : Nat :=
  (s.rings.filter fun e => e.2.use != .opened).foldl (fun a e => min a e.2.lap) 0x100000000

/-- Bytes of the populated capacity tier (R20, R246). -/
def State.capBytes (s : State) : Nat := s.cap.populatedMib.toNat * 1048576

/-- What core `n` reads of the module. -/
def State.coreEnv (s : State) (n : Nat) : CoreEnv :=
  { n := n, panel := n / 64, phys := (s.entry n).phys, now := s.now, level := s.yoke.level, setActive := s.set.running,
    replayable := s.set.replayable, buildId := s.set.buildId, capList := s.cap.list, capBytes := s.capBytes,
    absent := s.absentCores, ports := s.map.entries.map fun e => (e.1, entryPort e.1 e.2), minRingLap := s.minLap, duty := s.power.duty, badUnits := s.badUnits n, deadChans := s.deadChannels,
    expert := s.expertOn .co }

/-- The core as a unit of it sees the module. -/
def State.localOf (s : State) (n : Nat) : Local := ⟨s.coreEnv n, s.core n, s.mem, [], 0, 0⟩

/-- What a unit of core `n` did comes back: its core, memory, clashes and records. -/
def State.putLocal (s : State) (n : Nat) (l : Local) : State :=
  let p := s.panel (n / 64)
  let s1 := { s.setCore n l.core with mem := l.mem }
  (if l.clashes = 0 then s1 else s1.setPanel (n / 64) { p with clashCount := satAdd p.clashCount l.clashes }).fileAll l.reports

/-- The module is awake: not in Fold, or on its way into it (R338 steps 1 and 2). -/
def State.awake (s : State) : Bool := s.power.fold == .running || s.power.fold == .entering

/-- The module runs: READY, awake, not in test mode (R336, R338, R391). -/
def State.isUp (s : State) : Bool := s.power.ready && s.awake && !s.mgmt.testMode

/-- The units of a core can act: the module is up, the core's Panel and supply are up, and its gate is open (R323, R338). -/
def State.coreUp (s : State) (n : Nat) : Bool :=
  let p := s.panel (n / 64)
  s.isUp && p.powered
    && ((s.entry n).state == .own || (s.entry n).state == .crossover) && !(s.core n).supply.gateClosed

/-- A unit of core `n` acts. -/
def State.onCore (s : State) (n : Nat) (f : Local → Local) : State :=
  if s.coreUp n then s.putLocal n (f (s.localOf n)) else s

/-! ### The set -/

/-- Every ring heads back to its open image (R42, R317). -/
def State.releaseRings (s : State) : State :=
  { s with rings := s.rings.map fun e => (e.1, e.2.release) }

/-- Every core of the set has executed END. -/
def State.allEnded (s : State) : Bool :=
  s.set.running && s.set.cores.all fun n => (s.core n).seq.run == .ended

end Sys2Proof.Machine
end

