-- ==== Sys2Proof/Machine/CapOps.lean ====
section
/-!
DEFINITION. The capacity tier (12): the place of a unit (R245), what its reads and writes do to the Cuff's counters and to the
stored check (R249 to R251), unreachable and dead channels (R254, R265), refresh (R255 to R259), retraining (R261 to R264),
near-memory commands (R267 to R272), and the remap (R266).
-/

namespace Sys2Proof.Machine

/-! ### Places -/

/-- The ring instance of a capacity-tier byte; its Cuff and slot. -/
def State.capInst (s : State) (a : Nat) : Nat := capInstance s.cap.list a
def State.capCuff (s : State) (a : Nat) : Nat := s.capInst a / 20
def State.capSlot (s : State) (a : Nat) : Nat := s.capInst a % 20

/-- The data unit x of an address within its channel (R245). -/
def State.capDataUnit (s : State) (a : Nat) : Nat :=
  let off := a - capBase
  64 * (off / 4096 / max 1 s.cap.list.length) + off / 64 % 64

/-- The device address of data unit x of entry i of the channel list. -/
def capUnitAddr (list : List Nat) (i x : Nat) : Nat := capBase + 4096 * (x / 64 * list.length + i) + 64 * (x % 64)

/-- A channel changed. -/
def Cuff.updChan (c : Cuff) (slot : Nat) (f : Channel → Channel) : Cuff := { c with channels := modifyNth c.channels slot f }

def State.updCuff (s : State) (k : Nat) (f : Cuff → Cuff) : State := s.setCuff k (f (s.cuff k))
def State.updChan (s : State) (k slot : Nat) (f : Channel → Channel) : State := s.updCuff k fun c => c.updChan slot f

/-- The logical channel in a slot. -/
def State.chan (s : State) (k slot : Nat) : Channel := ((s.cuff k).channels[slot]?).getD (Channel.reset slot)

/-- A record of Cuff k. -/
def State.cuffNote (s : State) (k cls location detail aux : Nat) : State := s.note cls (grpCuff k) location detail aux

/-! ### Errors found (R250, R251) -/

/-- WINDOW_MS in ns and RETRAIN_THRESHOLD in effect (Table 12-10). -/
def State.windowNs (s : State) (k : Nat) : Nat := max 1 (field (s.cuffExpert k) 8 8).toNat * 1000000
def State.retrainThreshold (s : State) (k : Nat) : Nat := max 1 (field (s.cuffExpert k) 16 8).toNat

/-- The errors of a channel within the trigger window that ends now, newest first (R261). -/
def Channel.recent (c : Channel) (now window : Nat) : List Nat := c.errors.filter fun t => decide (now < t + window)

/-- One more error of a channel; RETRAIN_THRESHOLD is at most 255. -/
def Channel.countError (c : Channel) (now window : Nat) : Channel :=
  { c with errors := (now :: c.recent now window).take 255 }

/-- A failing row is captured once (R276) (DESIGN CHOICE, log entry 55). -/
def Channel.captureRow (c : Channel) (row : Nat) : Channel :=
  if c.capture.contains row then c else { c with capture := c.capture ++ [row] }

/-- CF_LAST_ERR_INFO (Table 12-13). -/
def errInfo (uncorr poisoned link : Bool) (slot : Nat) (syn : BitVec 16) : BitVec 32 :=
  BitVec.ofNat 32 ((if uncorr then 2 ^ 31 else 0) + (if poisoned then 2 ^ 30 else 0) + (if link then 2 ^ 29 else 0)
    + slot % 16 * 65536 + syn.toNat)

/-- CORRECTED_RECORDS and RETRAIN_AUTO of CF_CTRL (R279: at once). -/
def Cuff.records (c : Cuff) : Bool := bit c.ctrl 1
def Cuff.auto (c : Cuff) : Bool := bit c.ctrl 0

def State.setFault (s : State) (a : Nat) (f : CapFault) : State :=
  { s with cap := { s.cap with faults := mapPut s.cap.faults (a / 64 * 64) f } }

/-- The syndrome of a poisoned unit, which the spec leaves open. -/
def poisonSyn (a : Nat) : BitVec 16 := Config.poisonSyndrome (a / 64)

/-- A unit's fault after a rewrite: a hard one stays, one beneath a poison marker as an uncorrectable one. -/
def rewritten (hard : List Nat) (e : Nat × CapFault) : Option (Nat × CapFault) :=
  if hard.contains e.1 then some (e.1, if e.2 = .poison then .uncorrectable (poisonSyn e.1) else e.2) else none

/-- The unit holds a valid check again, unless its fault is a hard one. -/
def State.clearFault (s : State) (a : Nat) : State :=
  let u := a / 64 * 64
  { s with cap := { s.cap with faults := s.cap.faults.filterMap fun e => if e.1 = u then rewritten s.cap.hard e else some e } }

/-- An error arises in a data unit of logical channel (k, slot), or on its next transfer (DESIGN CHOICE, log entry 12). -/
def State.capUpset (k slot : Nat) (s : State) (e : UnitError) : State :=
  match s.cap.list.findIdx? fun x => x == 20 * k + slot with
  | none => s
  | some i =>
    let a := capUnitAddr s.cap.list i e.unit.toNat
    let cap := if e.hard && !s.cap.hard.contains a then { s.cap with hard := s.cap.hard ++ [a] } else s.cap
    let put (f : CapFault) : State := { s with cap := { cap with faults := mapPut cap.faults a f } }
    match e.upset, s.capFaultAt a with
    | .transfer y, _ => { s with cap := { s.cap with linkErrors := mapPut s.cap.linkErrors a y } }
    | .single y, none => put (.correctable y)
    | .single y, some (.correctable z) =>
      if y = z then { s with cap := { cap with faults := cap.faults.filter fun x => x.1 != a } } else put (.uncorrectable (y ^^^ z))
    | .wide y, none | .wide y, some (.correctable _) => put (.uncorrectable y)
    | _, some f => put f

/-- A transfer of the unit: link ECC corrects and counts its single-bit error, and the next transfer has none (R250). -/
def State.transferred (s : State) (a : Nat) : State :=
  match s.linkErrorAt a with
  | none => s
  | some _ =>
    let s1 := { s with cap := { s.cap with linkErrors := s.cap.linkErrors.filter fun e => e.1 != a / 64 * 64 } }
    if s.linkEcc a then
      let k := s.capCuff a
      let n := s.capSlot a
      (s1.updCuff k fun c => { c with lastErrUnit := BitVec.ofNat 27 (s.capDataUnit a), lastErrInfo := errInfo false false true n 0 }).updChan
        k n fun c => { c.countError s.now (s.windowNs k) with linkCorrected := satAdd c.linkCorrected 1 }
    else s1

/-- What the in-line code finds in the unit at an address, counted and recorded (R250, R251). -/
def State.capFound (s : State) (a : Nat) (f : CapFault) : State :=
  let k := s.capCuff a
  let n := s.capSlot a
  let syn : BitVec 16 := match f with
    | .correctable y | .uncorrectable y => y
    | .poison => poisonSyn a
  let s1 := s.updCuff k fun c =>
    { c with lastErrUnit := BitVec.ofNat 27 (s.capDataUnit a), lastErrInfo := errInfo (capBad f) (f == .poison) false n syn }
  let s2 := s1.updChan k n fun c => c.captureRow (s.capDataUnit a / 31)
  if capBad f then
    (s2.updChan k n fun c => { c with uncorrectable := satAdd c.uncorrectable 1 }).cuffNote k 0x31 n (a / 64 * 64) syn.toNat
  else
    let s3 := s2.updChan k n fun c => { c.countError s.now (s.windowNs k) with corrected := satAdd c.corrected 1 }
    if (s.cuff k).records then s3.cuffNote k 0x30 n (a / 64 * 64) syn.toNat else s3

/-- What a read of the unit at an address finds, counted and recorded (R250, R251); a channel that does not answer reads as
uncorrectable (R254, R265). -/
def State.capRead (s : State) (a : Nat) : State :=
  if s.deadChannels.contains (s.capInst a) then
    let k := s.capCuff a
    let n := s.capSlot a
    (s.updChan k n fun c => { c with uncorrectable := satAdd c.uncorrectable 1 }).cuffNote k 0x31 n (a / 64 * 64) (poisonSyn a).toNat
  else match s.capSees a with
    | none => s.transferred a
    | some f => (s.transferred a).capFound a f

/-- Whether the unit's channel answers. -/
def State.capAnswers (s : State) (a : Nat) : Bool := !s.deadChannels.contains (s.capInst a)

/-- Whether a read of the unit delivers correct data. -/
def State.capReadable (s : State) (a : Nat) : Bool := s.capAnswers a && !(s.capSees a).any capBad

/-- A write that a channel does not take is discarded and counted (R254, R265). -/
def State.discardUnit (s : State) : State := { s with cap := { s.cap with discarded := satAdd s.cap.discarded 1 } }

/-- The unit after a read-modify-write that found `f`: the poison marker where it was uncorrectable, else a valid check (R249, Table
12-2). -/
def State.remerge (s : State) (a : Nat) (f : Option CapFault) : State := if f.any capBad then s.setFault a .poison else s.clearFault a

/-- A write reaches a row of a channel whose spare serves it while the original channel retrains (R262 step 4). -/
def State.markRow (s : State) (a : Nat) : State :=
  let k := s.capCuff a
  let row := s.capDataUnit a / 31
  match (s.cuff k).seq with
  | some q =>
    if q.slot = s.capSlot a ∧ (s.chan k q.slot).state = .switched ∧ !q.dirty.contains row then
      s.updCuff k fun c => { c with seq := some { q with dirty := q.dirty ++ [row] } }
    else s
  | none => s

/-- A write of `len` bytes into the unit at an address: whole units replace the stored check, parts are read-modify-writes
(R249, R251); a channel that does not answer discards it (R254, R265). The bytes are the caller's. -/
def State.capWrite (s : State) (a len : Nat) : State :=
  if !s.capAnswers a then s.discardUnit
  else (if len = 64 then s.clearFault a else (s.capRead a).remerge a (s.capSees a)).markRow a

/-- An atomic add on the unit: an uncorrectable target gets the poison marker, any other a valid check (Table 12-2). -/
def State.capAtomic (s : State) (a wraps : Nat) : State :=
  if !s.capAnswers a then s.discardUnit
  else
    (((s.capRead a).updCuff (s.capCuff a) fun c => { c with atomicWraps := satAdd c.atomicWraps wraps }).remerge a (s.capSees a)).markRow a

/-! ### States of channels -/

/-- Channels FAILING or DEAD (Tables 12-11, 12-19). -/
def chanLost (c : Channel) : Bool := c.state == .failing || c.state == .dead

def State.pendingMapout (s : State) : Nat := (s.cuffs.map fun e => (e.2.channels.filter chanLost).length).sum

/-- The spare channels 4j + ch of package 4 that serve no slot, stand in no sequence, and have not failed. -/
def Cuff.freeSpares (c : Cuff) : List Nat :=
  (List.range 4).filter fun i =>
    !c.sparesBad.contains i && (!c.channels.any fun x => x.pkg == 4 && x.ch.toNat == i && x.state != .mappedOut)
      && !c.seq.any fun q => q.spare == i || (q.pkg == 4 && q.ch.toNat == i)

/-- A channel stops answering (R265). -/
def State.channelDies (s : State) (k slot : Nat) : State :=
  let st := (s.chan k slot).state
  if st = .dead ∨ st = .mappedOut ∨ 16 ≤ slot then s
  else
    let s1 := (s.updChan k slot fun c => { c with state := .dead }).updCuff k fun c =>
      { c with seq := if c.seq.any fun q => q.slot == slot then none else c.seq }
    (s1.cuffNote k 0x36 slot 0 0).changed

/-- The link tests its lanes after 8 consecutive replays (R253, R254). -/
def State.laneTest (s : State) (k : Nat) (low high : Bool) : State :=
  if (s.cuff k).replays < 8 then s
  else if low || high then
    ((s.updCuff k fun c => { c with width := 1, replays := 0 }).cuffNote k 0x38 0xFFF 0 1).changedIf ((s.cuff k).width != 1)
  else
    let s1 := ((s.updCuff k fun c => { c with width := 0, replays := 0 }).cuffNote k 0x38 0xFFF 0 0).changedIf
      ((s.cuff k).width != 0)
    foldOver (List.range 16) (fun t n => t.channelDies k n) s1

/-- A trigger of R261 waits in ascending slot order, merged with one that waits already. -/
def State.retrainWait (s : State) (k slot : Nat) : State :=
  s.updCuff k fun c =>
    if c.waiting.contains slot then c else { c with waiting := insertBy (fun a b => decide (a < b)) slot c.waiting }

/-- A channel that can retrain: further triggers of a FAILING one start no sequence (R264). -/
def chanRetrains (c : Channel) : Bool := c.state == .active || c.state == .spared

/-- An error count or a drift finding triggers retraining where RETRAIN_AUTO is set (R261) (DEDUCED, log entry 45). -/
def State.retrainTrigger (s : State) (k slot : Nat) (drift : Bool) : State :=
  let c := s.chan k slot
  if (s.cuff k).auto && chanRetrains c && (drift || decide (s.retrainThreshold k ≤ (c.recent s.now (s.windowNs k)).length)) then
    (s.updChan k slot fun c => { c with errors := [] }).retrainWait k slot
  else s

/-- The rows of a channel, and the units of a row, its check unit among them (R245). -/
def chanRows : Nat := 4194304
def rowUnits : Nat := 32

/-- The first waiting sequence of a Cuff begins (R262 step 1, R264): a Cuff runs one at a time (DEDUCED, log entry 45). -/
def State.retrainStart (s : State) (k : Nat) (passes : Bool) : State :=
  match (s.cuff k).seq, (s.cuff k).waiting with
  | none, slot :: rest =>
    let s0 := s.updCuff k fun c => { c with waiting := rest }
    let old := s0.chan k slot
    if !chanRetrains old then s0
    else
      match (s0.cuff k).freeSpares with
      | [] => ((s0.updChan k slot fun c => { c with state := .failing }).cuffNote k 0x35 slot 0 0).changed
      | i :: _ =>
        let q : Retrain := ⟨slot, i, old.pkg, old.ch, passes, chanRows * rowUnits, [], 0, []⟩
        (((s0.updChan k slot fun c => { c with state := .mirroring }).updCuff k fun c => { c with seq := some q }).cuffNote
          k 0x33 slot (16 + i) 1).changed
  | _, _ => s

/-- The sequence of a Cuff that copies a channel's rows, in step 2 or step 5. -/
def State.copying (s : State) (k slot : Nat) : Option Retrain :=
  match (s.cuff k).seq with
  | some q =>
    let st := (s.chan k slot).state
    if q.slot = slot ∧ (st = .mirroring ∨ st = .returning) then some q else none
  | none => none

/-- Units of the mirror or of the return copied. -/
def State.copyUnits (s : State) (k units : Nat) : State :=
  s.updCuff k fun c => { c with seq := c.seq.map fun q => { q with left := q.left - units } }

/-- Every due refresh of a channel performed at once, in pair rotation (R259). -/
def payPairs (debt : Nat) (counts : List Nat) : List Nat :=
  (List.range debt).foldl (fun l _ => modifyNth l (leastIndex l) (· + 1)) counts

/-- The hard errors of a channel's units, each with what its code reports. -/
def State.hardOf (s : State) (k slot : Nat) : List (Nat × CapFault) :=
  (s.cap.hard.filter fun a => s.capInst a == 20 * k + slot).filterMap fun a => (s.capFaultAt a).map fun f => (a, f)

/-- Step 3: the logical channel is connected to the spare, and its ring stands still for at most 40 µs; step 4 ends within 25 ms (R262)
(DESIGN CHOICE, log entry 45). -/
def State.switchOver (s : State) (k : Nat) (q : Retrain) : State :=
  let hold := s.free.toNat % 40001
  let s1 := s.drew
  let time := s1.free.toNat % 25000001
  let aside := s.hardOf k q.slot
  let sp := ((s.cuff k).spares[q.spare]?).getD ⟨0, []⟩
  let s2 := s1.drew.updChan k q.slot fun c =>
    { c with state := .switched, pkg := 4, ch := BitVec.ofNat 2 q.spare, debt := sp.debt, pairCounts := sp.pairCounts,
             holdUntil := s.now + hold, displaced := some ⟨0, payPairs c.debt c.pairCounts⟩ }
  let s3 := s2.updCuff k fun c => { c with seq := some { q with left := 0, dirty := [], ends := s.now + hold + time, aside := aside } }
  { s3 with cap := { s3.cap with hard := s3.cap.hard.filter fun a => !mapHas aside a } }.changed

/-- The spare keeps the slot until the next cold reset (R263). -/
def State.spareKeeps (s : State) (k : Nat) (q : Retrain) : State :=
  let bad := if q.pkg = 4 then [q.ch.toNat] else []
  (((s.updCuff k fun c => { c with seq := none, sparesBad := c.sparesBad ++ bad }).updChan k q.slot fun c => { c with state := .spared }).cuffNote
    k 0x34 q.slot (16 + q.spare) 0).changed

/-- Step 6: the logical channel is connected to its original channel again, and the spare is free (R262). -/
def State.switchBack (s : State) (k : Nat) (q : Retrain) : State :=
  let hold := s.free.toNat % 40001
  let old := s.chan k q.slot
  let own := old.displaced.getD ⟨0, old.pairCounts⟩
  let s1 := s.drew.updCuff k fun c =>
    { c with seq := none, spares := modifyNth c.spares q.spare fun _ => ⟨0, payPairs old.debt old.pairCounts⟩ }
  let s2 := s1.updChan k q.slot fun c =>
    { c with state := .active, pkg := q.pkg, ch := q.ch, debt := own.debt, pairCounts := own.pairCounts, holdUntil := s.now + hold,
             displaced := none, retrains := satAdd c.retrains 1 }
  let faults := q.aside.foldl (fun (l : List (Nat × CapFault)) e => if mapHas l e.1 then l else mapPut l e.1 e.2) s2.cap.faults
  ({ s2 with cap := { s2.cap with hard := s2.cap.hard ++ q.aside.map Prod.fst, faults := faults } }.cuffNote
    k 0x33 q.slot (16 + q.spare) 6).changed

/-- What a slot boundary of a channel's ring brings a sequence to (R262, R263): the switch once the mirror is complete, the end of step 4,
and the switch back once no dirty row is left. -/
def State.seqBoundary (s : State) (k slot : Nat) : State :=
  match (s.cuff k).seq with
  | some q =>
    if q.slot ≠ slot then s
    else match (s.chan k slot).state with
      | .mirroring => if q.left = 0 then s.switchOver k q else s
      | .switched =>
        if s.now < q.ends then s
        else if q.passes then
          ((s.updChan k slot fun c => { c with state := .returning }).updCuff k fun c =>
            { c with seq := some { q with left := rowUnits * q.dirty.length } }).changed
        else s.spareKeeps k q
      | .returning => if q.left = 0 then s.switchBack k q else s
      | _ => s
  | none => s

/-- Whether a retraining sequence runs in a Cuff. -/
def State.retraining (s : State) : Bool := s.cuffs.any fun e => e.2.seq.isSome

/-! ### Refresh and temperature (R255 to R258) -/

/-- TEMP_C and multiplier of a row of Table 12-3. -/
def tempRow (i : Nat) : Nat × BitVec 2 :=
  match i with
  | 0 => (75, 0)
  | 1 => (80, 0)
  | 2 => (85, 0)
  | 3 => (90, 1)
  | 4 => (95, 1)
  | 5 => (105, 2)
  | _ => (106, 2)

/-- The readings' own multiplier after one: it rises at once, and falls at a reading 2 K or more below the threshold that
raised it (R255). -/
def packageMult (m : BitVec 2) (t : Nat) : BitVec 2 :=
  let up := multFor t
  let down := multFor (t + 2)
  if m < up then up else if down < m then down else m

/-- A package's field read: an unreadable one gives 4× until cold reset (R255). -/
def Package.sense (p : Package) (row : Option Nat) : Package :=
  match row with
  | some i => { p with tempC := BitVec.ofNat 8 (tempRow i).1, mult := if p.failed then 2 else packageMult p.mult (tempRow i).1 }
  | none => { p with failed := true, mult := 2 }

/-- The package that serves a channel. -/
def State.packageOf (s : State) (k n : Nat) : Package := ((s.cuff k).packages[(s.chan k n).pkg.toNat]?).getD ⟨0, 0, false⟩

/-- The multiplier of a channel in effect: its package's, never below MULT_FLOOR of CF_EXPERT (R255). -/
def State.chanMultNow (s : State) (k n : Nat) : BitVec 2 := atFloor (field (s.cuffExpert k) 0 2) (s.packageOf k n).mult

/-- Whether a package serves a channel. -/
def Channel.servedBy (c : Channel) (pkg : Nat) : Bool := c.pkg.toNat == pkg && c.state != .mappedOut

/-- One package's field read; the last row of Table 12-3 makes a record for each channel that it serves. -/
def State.packageTemp (s : State) (k pkg : Nat) (row : Option Nat) : State :=
  let s1 := s.updCuff k fun c => { c with packages := modifyNth c.packages pkg fun p => p.sense row }
  if row = some 6 then
    foldOver (List.range 16) (fun t n => if (s.chan k n).servedBy pkg then t.cuffNote k 0x37 n 0 106 else t) s1
  else s1

/-- A refresh paid to pair `p` of a channel. -/
def Channel.pay (c : Channel) (p : Nat) : Channel :=
  { c with debt := c.debt - 1, pairCounts := modifyNth c.pairCounts p (· + 1) }

/-- Every due refresh of a channel performed at once, in pair rotation (R259). -/
def Channel.payAll (c : Channel) : Channel := { c with debt := 0, pairCounts := payPairs c.debt c.pairCounts }

/-- A refresh falls due on the channel that serves a slot, and on the original one that a spare has displaced, which performs it at once
(R259) (DEDUCED, log entry 24). -/
def Channel.refreshDue (c : Channel) : Channel :=
  { c with debt := c.debt + 1, displaced := c.displaced.map fun d => { d with pairCounts := payPairs 1 d.pairCounts } }

/-- A spare channel that serves no slot performs a due refresh at once (R259). -/
def Cuff.spareDue (c : Cuff) (i : Nat) : Cuff :=
  if c.channels.any fun x => x.pkg == 4 && x.ch.toNat == i && x.state != .mappedOut then c
  else { c with spares := modifyNth c.spares i fun x => { x with pairCounts := modifyNth x.pairCounts (leastIndex x.pairCounts) (· + 1) } }

/-! ### The near-memory unit (R267 to R272) -/

/-- Cuff `k` takes a command: those that some Cuffs have taken after it. -/
def takeNear (l : List NearTaken) (c : NearCommand) (k : Nat) : List NearTaken :=
  match l with
  | [] => [⟨c, [k], [], [], [], [], []⟩]
  | e :: r => if e.command = c ∧ !e.cuffs.contains k then { e with cuffs := e.cuffs ++ [k] } :: r else e :: takeNear r c k

/-- A command that Cuff `k` has taken and not completed. -/
def NearTaken.runs (e : NearTaken) (c : NearCommand) (k : Nat) : Bool := e.command == c && e.cuffs.contains k && !e.done.contains k

/-- What the Cuffs have done of the command that Cuff `k` runs. -/
def State.nearEntry (s : State) (k : Nat) (c : NearCommand) : NearTaken :=
  (s.cap.near.find? fun e => e.runs c k).getD ⟨c, [], [], [], [], [], []⟩

/-- The first command that Cuff `k` runs changed; one that all 12 Cuffs have completed is forgotten. -/
def changeNear (l : List NearTaken) (c : NearCommand) (k : Nat) (f : NearTaken → NearTaken) : List NearTaken :=
  match l with
  | [] => []
  | e :: r => if e.runs c k then (if (f e).done.length = 12 then r else f e :: r) else e :: changeNear r c k f

def State.updNear (s : State) (k : Nat) (c : NearCommand) (f : NearTaken → NearTaken) : State :=
  { s with cap := { s.cap with near := changeNear s.cap.near c k f } }

/-- The issuing core's NEAR_OP has one Cuff fewer to wait for (R76); a command of a core that has gone is complete (R277). -/
def State.nearDone (s : State) (core k : Nat) : State :=
  let c := s.core core
  let i := c.moveQ.findIdx? fun o =>
    match o.op with
    | .nearOp _ _ _ _ => o.units.any fun u => u.ring == nearKey k
    | _ => false
  match i with
  | some i =>
    let q := modifyNth c.moveQ i fun o => { o with units := o.units.filter fun u => u.ring != nearKey k }
    s.putLocal core (Local.movePump ⟨s.coreEnv core, { c with moveQ := q }, s.mem, [], 0, 0⟩)
  | none => s

/-- A command in error at Cuff `k` (R271): counted there, recorded by the Cuff with the lowest number that can be reached. -/
def State.nearRejects (s : State) (k core op : Nat) : State :=
  let s1 := s.updCuff k fun c => { c with nearErrors := satAdd c.nearErrors 1 }
  let first := (List.range 12).find? fun j => !s.cuffGone j
  if first = some k then s1.cuffNote k 0x3A 0xFFF core op else s1

/-- Clamps counted at the Cuffs that converted the elements (R269). -/
def State.countClamps (s : State) (l : List (Nat × Nat)) : State :=
  foldOver l (fun t e => t.updCuff (t.capCuff e.1) fun x => { x with saturations := satAdd x.saturations e.2 }) s

/-- The unit that holds an address has been read for a command. -/
def NearTaken.holds (e : NearTaken) (a : Nat) : Bool := e.got.any fun g => g.1 / 64 == a / 64

/-- Whether Cuff `j` has sent every unit of a command on the Cuff bus, or contributes nothing more. -/
def NearTaken.busDone (e : NearTaken) (list : List Nat) (j : Nat) : Bool :=
  e.lost.contains j || decide (nearBusUnits list j e.command.base (parseNear e.command.record) ≤ mapGet 0 e.sent j)

/-- Whether Cuff `k` can form what some rows give (DESIGN CHOICE, log entry 19): their sources have been read, for an element-wise operation
its own part of them, and the partials and statistics of a row that several Cuffs hold have crossed the Cuff bus (R270, R275). -/
def State.rowsReady (s : State) (k : Nat) (e : NearTaken) (rows : List Nat) : Bool :=
  let r := parseNear e.command.record
  let alone := nearElementwise r.op
  ((rowSources s.cap.list e.command.base r rows).all fun a =>
      e.holds a || e.lost.contains (s.capCuff a) || (alone && s.capCuff a != k))
    && (alone || rows.all fun i =>
      let cs := rowCuffs s.cap.list e.command.base r i
      decide (cs.length ≤ 1) || cs.all (e.busDone s.cap.list))

/-- The rows of a command on the memory as the command read it, written to one unit: the bytes, with the clamps of the groups whose first
element the unit holds. An element whose source could not be read is NaN (Table 12-2). -/
def State.nearResult (s : State) (e : NearTaken) (rows : List Nat) (u : MemUnit) : List Byte × List (Nat × Nat) :=
  let r := parseNear e.command.record
  let unread (a : Nat) : Bool := !e.holds a && (e.lost.contains (s.capCuff a) || !s.capReadable a)
  let env := { s.coreEnv e.command.core with
    badUnits := e.bad ++ (rowSources s.cap.list e.command.base r rows).filter unread, deadChans := [] }
  let out := nearApplyRows env (fun a => decide (u.addr ≤ a) && decide (a < u.addr + u.len)) e.command.base r rows
    (e.got.foldl (fun m g => memWrite m g.1 g.2) s.mem)
  (memRead out.1 u.addr u.len, out.2)

/-- One unit of a command at its channel: a source's bytes, or a write of what its rows give (R249, R265, R268). -/
def State.nearUnitEffect (s : State) (k : Nat) (c : NearCommand) (x : NearUnit) : State :=
  let u := x.unit
  match x.kind with
  | .source =>
    (s.capRead u.addr).updNear k c fun e =>
      { e with got := (e.got.filter fun g => g.1 != u.addr) ++ [(u.addr, memRead s.mem u.addr u.len)],
               bad := (e.bad.filter fun b => b != u.addr / 64 * 64) ++ if s.capReadable u.addr then [] else [u.addr / 64 * 64] }
  | .merge => s
  | .result rows =>
    let out := s.nearResult (s.nearEntry k c) rows u
    let s1 := (s.capWrite u.addr u.len).countClamps out.2
    if s.capAnswers u.addr then { s1 with mem := memWrite s1.mem u.addr out.1 } else s1

/-- Cuff `k` reports a command complete, or contributes nothing more to it. -/
def State.nearEnds (s : State) (k : Nat) (c : NearCommand) (lost : Bool) : State :=
  (s.updNear k c fun e => { e with done := e.done ++ [k], lost := if lost then e.lost ++ [k] else e.lost }).updCuff k fun x =>
    { x with running := none }

/-- The command that Cuff `k` runs completes there once its units, and those of the Cuff bus, have been served (R76, R267). -/
def State.nearAdvance (s : State) (k : Nat) : State :=
  match (s.cuff k).running with
  | some run =>
    if run.units.isEmpty && (s.nearEntry k run.command).busDone s.cap.list k then
      (s.nearEnds k run.command false).nearDone run.command.core k
    else s
  | none => s

/-- The unit of its command that Cuff `k` presents next on a channel ring. -/
def State.nearNext (s : State) (k key : Nat) : Option NearUnit :=
  (s.cuff k).running.bind fun run => run.units.find? fun x => x.unit.ring == key

/-- One unit of the running command of Cuff `k` served on a channel ring (R272). -/
def State.nearServe (s : State) (k key : Nat) : State :=
  match (s.cuff k).running, s.nearNext k key with
  | some run, some x =>
    ((s.updCuff k fun c => { c with running := some { run with units := run.units.erase x } }).nearUnitEffect k run.command x).nearAdvance k
  | _, _ => s

/-- One unit of the running command of Cuff `k` sent on the Cuff bus (R275). -/
def State.nearSend (s : State) (k : Nat) : State :=
  match (s.cuff k).running with
  | some run => (s.updNear k run.command fun e => { e with sent := mapPut e.sent k (mapGet 0 e.sent k + 1) }).nearAdvance k
  | none => s

/-- Whether Cuff `k` has its next unit for a ring to present: on a channel ring a read, or a write whose rows are ready; on the Cuff bus
a partial once its own sources are read, and a row's statistics once every Cuff has sent its partials (R275) (DESIGN CHOICE, log
entry 19). -/
def State.nearHas (s : State) (k key : Nat) : Bool :=
  match (s.cuff k).running with
  | none => false
  | some run =>
    let e := s.nearEntry k run.command
    let r := parseNear run.command.record
    if ringClass key = 6 then
      let part (j : Nat) : Nat := nearPartialUnits s.cap.list j run.command.base r
      (!run.units.any fun x => x.kind == .source)
        && (decide (mapGet 0 e.sent k < part k)
          || (List.range 12).all fun j => e.lost.contains j || decide (part j ≤ mapGet 0 e.sent j))
    else
      match s.nearNext k key with
      | some x =>
        match x.kind with
        | .result rows => s.rowsReady k e rows
        | _ => true
      | none => false

/-- Work added behind what commands have still to do on a ring. -/
def addWork (l : List TurnWork) (w : TurnWork) : List TurnWork := if w.turns = 0 ∧ w.units = 0 then l else l ++ [w]

/-- No command and no work of an earlier lap or set is left in the Cuff (R66). -/
def Cuff.noWork (c : Cuff) : Cuff :=
  { c with near := [], running := none, busTurns := [], channels := c.channels.map fun h => { h with turns := [] } }

/-- No near-memory command of an earlier lap or set is left. -/
def State.noNear (s : State) : State :=
  { s with cuffs := s.cuffs.map fun e => (e.1, e.2.noWork), cap := { s.cap with near := [] } }

/-- The command that Cuff `k` runs ends without having been served whole, and its Cuff contributes nothing more to it: the counted slots
that are left have nothing to serve. -/
def State.nearAbandon (s : State) (k : Nat) : State :=
  match (s.cuff k).running with
  | some run =>
    let idle (l : List TurnWork) : List TurnWork :=
      (l.map fun w => if w.slot = 1 then { w with units := 0 } else w).filter fun w => w.turns != 0 || w.units != 0
    (s.nearEnds k run.command true).updCuff k fun c =>
      { c with busTurns := idle c.busTurns, channels := c.channels.map fun h => { h with turns := idle h.turns } }
  | none => s

/-- A Cuff that can no longer be reached: its command is complete there (R254). -/
def State.nearGone (s : State) (k : Nat) : State :=
  match (s.cuff k).running with
  | some run => if s.cuffGone k then (s.nearAbandon k).nearDone run.command.core k else s
  | none => s

/-- The owner slots that a command counts at Cuff `k`, with the units that it serves in them; a command in error serves none (R271,
R272). -/
def State.nearCounts (s : State) (k : Nat) (c : NearCommand) (us : List NearUnit) (bus : Nat) : State :=
  let r := parseNear c.record
  let work (turns units : Nat) : TurnWork := ⟨c.core, 1, c.lap, c.word, turns, units, false⟩
  s.updCuff k fun x =>
    { x with
      busTurns := addWork x.busTurns (work r.turnsBus bus),
      channels := x.channels.mapIdx fun n h =>
        { h with turns := addWork h.turns (work r.turnsChannel (us.countP fun u => u.unit.ring == ringKey 5 (20 * k + n))) } }

/-- Cuff `k` takes a command (R267 to R272): one in error is complete, as it is at a Cuff that cannot be reached (R254); any other one
runs in the Cuff's owner slots. -/
def State.nearTake (s : State) (k : Nat) (c : NearCommand) : State :=
  let r := parseNear c.record
  let s1 := { s with cap := { s.cap with near := takeNear s.cap.near c k } }
  if s.cuffGone k then (s1.nearEnds k c true).nearDone c.core k
  else if nearError s.capBytes c.base r then
    (((s1.nearCounts k c [] 0).nearRejects k c.core r.op).nearEnds k c false).nearDone c.core k
  else
    let us := nearUnits s.cap.list k c.base r
    ((s1.nearCounts k c us (nearBusUnits s.cap.list k c.base r)).updCuff k fun x => { x with running := some ⟨c, us⟩ }).nearAdvance k

/-- The command at the head of Cuff `k`'s queue starts, once the one before it is complete: not while the Cuff bus runs its open image
(R267, R398). -/
def State.nearCommand (s : State) (k : Nat) : State :=
  if (s.ring (ringKey 6 0)).use = .opened then s
  else
    match (s.cuff k).running, (s.cuff k).near with
    | none, c :: rest => (s.updCuff k fun x => { x with near := rest }).nearTake k c
    | _, _ => s

/-! ### The remap (R244, R266) -/

/-- The channel list: slot by slot, and in each slot Cuff by Cuff, every channel that is not mapped out. -/
def State.buildList (s : State) : List Nat :=
  (List.range 16).flatMap fun n => (List.range 12).filterMap fun k =>
    if (s.chan k n).state = .mappedOut then none else some (20 * k + n)

/-- The tier filled with zero and valid checks, sized by its list (R246, R266 steps 3 to 5). -/
def State.fillTier (s : State) : State :=
  let l := s.buildList
  let place (a : Nat) : Option Nat :=
    (l.findIdx? fun x => x == s.capInst a).map fun i => capUnitAddr l i (s.capDataUnit a)
  let kept := ((s.cap.faults.filterMap (rewritten s.cap.hard)).filterMap fun e => (place e.1).map fun a => (a, e.2)).foldl
    (fun m e => mapPut m e.1 e.2) []
  let c := { s.cap with hard := s.cap.hard.filterMap place, list := l, populatedMib := BitVec.ofNat 21 (l.length * 7936), active := BitVec.ofNat 8 l.length,
                        faults := kept, linkErrors := [] }
  { s with mem := memClear s.mem capBase (scratchBase - capBase), cap := c }

/-- DATA_RATE and LINK_ECC take effect in every Cuff; rings whose images no longer meet their bound return to their open
images (R257, R266). -/
def State.applyRates (s : State) : State :=
  let s1 := foldOver (List.range 12) (fun t k => t.updCuff k fun c => { c with rateNow := field c.ctrl 6 2, linkEccNow := bit c.ctrl 2 }) s
  { s1 with rings := s1.rings.map fun e =>
      if ringClass e.1 = 5 then
        let rate := (s1.cuff (ringInst e.1 / 20)).rateNow.toNat
        let fits (i : Option RingImage) : Bool :=
          match i with
          | some i => decide (maxGap .refresh i.slots ≤ refreshBound 5 i.mult rate)
          | none => true
        if fits e.2.normal && fits e.2.cool then e
        else (e.1, { e.2 with normal := none, cool := none, normalLoaded := false, coolLoaded := false }.release)
      else e }

/-- CAP_REMAP's steps (R266); each channel that they map out and a new POPULATED_MIB change what the fingerprint covers (R385). -/
def State.capRemap (s : State) : State :=
  let s1 := foldOver (List.range 12) (fun t k => t.updCuff k fun c =>
    { c with channels := c.channels.map fun x => if chanLost x then { x with state := .mappedOut } else x }) s
  let s2 := s1.applyRates.fillTier
  s2.changedBy (s.pendingMapout + flag (s2.cap.populatedMib != s.cap.populatedMib))

end Sys2Proof.Machine
end

