-- ==== Sys2Proof/Machine/HostOps.lean ====
section
/-!
DEFINITION. The host queue engine's shared operations (14): writes to host memory, the descriptor's fields and validity (R304,
Tables 14-11 and 14-13), completion entries with their phase, full rings and coalesced interrupts (R313, R315), the completion
of a descriptor, and the end of a set (R42).
-/

namespace Sys2Proof.Machine

/-! ### Host memory -/

/-- Bytes written to host memory from address `a` on: all of them, or those accepted before a write failed. -/
def State.sendHost (relaxed : Bool) (s : State) (a : Nat) (bs : List Byte) (wrote : HostWrite) : State :=
  let sent := bs.take (wrote.getD bs.length)
  { s with out := { s.out with hostMem := memWrite s.out.hostMem a sent, writes := (a, sent.length, relaxed) :: s.out.writes } }

/-- A write whose ordering is never relaxed: a completion entry, an error-log record. -/
def State.hostWrite (s : State) (a : Nat) (bs : List Byte) (wrote : HostWrite) : State := s.sendHost false a bs wrote

/-- A data write of COPY, of a scrub summary, of a fingerprint or of a fingerprint record: relaxed ordering under the DATA_RO that its
descriptor was fetched with (R310, R319). -/
def State.hostData (s : State) (d : Desc) (a : Nat) (bs : List Byte) (wrote : HostWrite) : State := s.sendHost d.ro a bs wrote

/-! ### Descriptors -/

def Desc.opcode (d : Desc) : Nat := (field d.raw 0 8).toNat
def Desc.waitPrev (d : Desc) : Bool := bit d.raw 16
def Desc.irq (d : Desc) : Bool := bit d.raw 17
def Desc.tag (d : Desc) : Nat := (field d.raw 32 32).toNat
/-- A payload field as a number. -/
def Desc.get (d : Desc) (lo len : Nat) : Nat := (field d.raw lo len).toNat

/-- Codes of Table 14-12. -/
def opCopy : Nat := 1
def opLoadRoster : Nat := 2
def opLaunch : Nat := 3
def opFence : Nat := 4
def opPageFence : Nat := 5
def opScrub : Nat := 6
def opFingerprint : Nat := 7
def opPowerCap : Nat := 8
def opFold : Nat := 9
def opDrain : Nat := 10
def opHalt : Nat := 11
def opTagWrite : Nat := 12
def opCapRemap : Nat := 13
def opNop : Nat := 14

/-- Descriptors marked ordered in Table 14-12, and those with WAIT_PREV = 1. -/
def Desc.ordered (d : Desc) : Bool :=
  d.waitPrev || d.opcode == opLaunch || d.opcode == opFold || d.opcode == opDrain || d.opcode == opCapRemap

/-- The reserved fields of the payload are zero and its fields lie in their ranges (Table 14-13). -/
def Desc.payloadValid (d : Desc) : Bool :=
  let z (lo len : Nat) : Bool := d.get lo len == 0
  let o := d.opcode
  if o = opCopy then
    z 264 248 && z 259 3 && z 240 16 && d.get 192 48 != 0 && !(bit d.raw 262 && bit d.raw 263)
      && (bit d.raw 262 || z 112 16) && (bit d.raw 263 || z 176 16)
  else if o = opLoadRoster then
    z 185 327 && z 161 15 && z 64 6 && (!bit d.raw 160 || z 176 9)
  else if o = opLaunch then z 192 320 && z 97 31 && z 128 6
  else if o = opFence ∨ o = opDrain then z 128 384 && d.get 64 64 != 0
  else if o = opScrub then
    z 256 256 && z 176 16 && z 112 16 && z 192 6 && d.get 64 48 % 2048 == 0 && d.get 128 48 % 2048 == 0
  else if o = opFingerprint then z 224 288 && z 64 6
  else if o = opPowerCap then z 80 432
  else if o = opTagWrite then
    z 157 355 && z 140 4 && decide (1 ≤ d.get 144 13) && decide (d.get 144 13 ≤ 4096)
      && decide (d.get 128 12 + d.get 144 13 ≤ 4096)
  else z 64 448

/-- A valid descriptor (R304). -/
def Desc.valid (d : Desc) : Bool :=
  decide (1 ≤ d.opcode) && decide (d.opcode ≤ opNop) && d.get 8 8 == 0 && d.get 18 14 == 0 && d.payloadValid

/-- Every descriptor fetched and not completed, with its queue. -/
def State.allDescs (s : State) : List (Nat × Desc) := s.host.sqs.flatMap fun e => e.2.descs.map fun d => (e.1, d)

/-- A HALT that has been fetched; it acts ahead of every start (R317). -/
def Desc.isHalt (d : Desc) : Bool := d.opcode == opHalt && d.valid
def State.haltWaits (s : State) : Bool := s.allDescs.any fun e => e.2.isHalt

/-- Completion status codes (Table 14-15). -/
def stOk : Nat := 0x00
def stStarted : Nat := 0x01
def stAborted : Nat := 0x02
def stInvalid : Nat := 0x03
def stSetActive : Nat := 0x04
def stBuildMismatch : Nat := 0x05
def stCoreAbsent : Nat := 0x06
def stCoreFaulted : Nat := 0x07
def stRingInvalid : Nat := 0x08
def stRosterInvalid : Nat := 0x09
def stFeatureLevel : Nat := 0x0A
def stUnmapped : Nat := 0x0B
def stUnreachable : Nat := 0x0C
def stUncorrectable : Nat := 0x0D
def stScratchParity : Nat := 0x0E
def stPanelAbsent : Nat := 0x0F
def stHostAccess : Nat := 0x10
def stTagLocked : Nat := 0x11

/-! ### Completion rings (R313, R315) -/

/-- Entries of a ring. -/
def ringSize (log2 : BitVec 5) : Nat := 2 ^ log2.toNat

def Cq.size (c : Cq) : Nat := ringSize c.log2
def Sq.size (q : Sq) : Nat := ringSize q.log2

/-- Whether the next entry has a place. -/
def Cq.hasSpace (c : Cq) : Bool := c.enable && (c.tail + 1) % c.size != c.head

/-- COALESCE_ENTRIES and COALESCE_NS in effect (Table 14-19). -/
def State.coalesceEntries (s : State) : Nat := max 1 (field s.hqExpert 0 8).toNat
def State.coalesceNsHq (s : State) : Nat := 64 * (field s.hqExpert 8 16).toNat

/-- One entry written at TAIL with the phase of the pass. -/
def State.writeEntry (s : State) (cq : Nat) (e : HeldEntry) : State :=
  let c := s.cq cq
  let word := e.entry.toNat + if c.phase then 65536 else 0
  let s1 := s.hostWrite (c.base.toNat + 16 * c.tail) (leBytes 16 word) none
  let wraps := c.tail + 1 = c.size
  let c1 : Cq := { c with tail := (c.tail + 1) % c.size, phase := if wraps then !c.phase else c.phase, irqNs := s.coalesceNsHq }
  if e.irq && c.irqEnable then
    let n := c.irqPending + 1
    if s.coalesceEntries ≤ n then (s1.setCq cq { c1 with irqPending := 0 }).signal c.vector.toNat
    else s1.setCq cq { c1 with irqPending := n, irqSince := if c.irqPending = 0 then s.now else c.irqSince }
  else s1.setCq cq c1

/-- Completions that wait are written while there is space, in completion order. -/
def State.flushCq (fuel : Nat) (s : State) (cq : Nat) : State :=
  match fuel with
  | 0 => s
  | k + 1 =>
    let c := s.cq cq
    match c.held with
    | [] => s.setCq cq { c with full := false }
    | e :: r => if c.hasSpace then ((s.setCq cq { c with held := r }).writeEntry cq e).flushCq k cq else s

/-- The completion entry of Table 14-14 without its phase. -/
def entryWord (q : Nat) (d : Desc) (status specific : Nat) : BitVec 128 :=
  BitVec.ofNat 128 (d.tag % 2 ^ 32 * 2 ^ 96 + specific % 2 ^ 48 * 2 ^ 48 + d.index % 65536 * 2 ^ 32 + q % 64 * 2 ^ 26
    + status % 256 * 256 + d.opcode)

/-- A completion entry written, or held while the ring has no space (R313). -/
def State.postEntry (s : State) (q : Nat) (d : Desc) (status specific : Nat) : State :=
  let cq := (s.sq q).cq.toNat
  let c := s.cq cq
  let e : HeldEntry := ⟨entryWord q d status specific, d.irq⟩
  if c.held.isEmpty && c.hasSpace then s.writeEntry cq e
  else
    let s1 := s.setCq cq { c with held := c.held ++ [e], full := c.full || c.enable }
    { s1 with host := { s1.host with cqFullWaits := satAdd s1.host.cqFullWaits 1 } }

/-- A ring being disabled is disabled once every fetched descriptor has completed (Table 14-6). -/
def Sq.settle (q : Sq) : Sq :=
  if q.disabling && q.descs.isEmpty then { q with disabling := false, state := .disabled } else q

/-- Images count as loaded until the next LAUNCH completes (R308). -/
def State.unloadImages (s : State) : State :=
  { s with rings := s.rings.map fun e => (e.1, { e.2 with normalLoaded := false, coolLoaded := false }) }

/-- A descriptor leaves its ring. -/
def State.dropDesc (s : State) (q : Nat) (d : Desc) : State :=
  let r := s.sq q
  s.setSq q ({ r with descs := r.descs.filter fun x => x.order != d.order } : Sq).settle

/-- A descriptor completes: it leaves its ring, and its entry is posted. A LAUNCH that completes with any status, INVALID_DESCRIPTOR among
them, ends the loaded mark of every image (R308) (DESIGN CHOICE, log entry 47). -/
def State.complete (s : State) (q : Nat) (d : Desc) (status specific : Nat) : State :=
  let s1 := (s.dropDesc q d).postEntry q d status specific
  if d.opcode = opLaunch then s1.unloadImages else s1

/-- The descriptor of a ring that was fetched in place `order`. -/
def State.descOf (s : State) (q order : Nat) : Option Desc := (s.sq q).descs.find? fun d => d.order == order

/-- The descriptor that a row acts on: the oldest of its entry of the ring that has started, has not completed and has the row's
opcode. -/
def State.started (s : State) (q : RingQ) (index : BitVec 16) (op : Nat) : Option Desc :=
  (s.sq q.val).descs.find? fun d => d.index == index.toNat && d.started && d.opcode == op

/-- The oldest of them for which something has still to be done: descriptors that have started complete in any order (R312). -/
def State.startedThat (s : State) (q : RingQ) (index : BitVec 16) (op : Nat) (p : Desc → Bool) : Option Desc :=
  (s.sq q.val).descs.find? fun d => d.index == index.toNat && d.started && d.opcode == op && p d

/-! ### The end of a set -/

/-- SPECIFIC of a LAUNCH's final entry: the time since step 4 of R309, saturating (Table 14-16). -/
def State.launchTime (s : State) : Nat := min (s.now - s.set.launchNs) (2 ^ 48 - 1)

/-- The active set ends with a status (R42, R317): its LAUNCH completes and every ring heads back to its open image. -/
def State.endSet (s : State) (status : Nat) : State :=
  let s1 := match s.descOf s.set.sq s.set.order with
    | some d => s.complete s.set.sq d status s.launchTime
    | none => s
  { s1.releaseRings with set := ActiveSet.none }

/-- The set completes once its last core has executed END. -/
def State.checkSet (s : State) : State := if s.allEnded then s.endSet stOk else s

end Sys2Proof.Machine
end

