-- ==== Sys2Proof/Machine/LogWrite.lean ====
section
/-!
DEFINITION. The error log's host ring (R364, R366, R370, R371): ACTION of a record, its bytes, and the writes of queued records.
-/

namespace Sys2Proof.Machine

/-- ACTION of a record (Table 17-7). -/
def actionOf (cls aux : Nat) : Nat :=
  match cls with
  | 0x10 => 4
  | 0x06 | 0x21 | 0x31 => 3
  | 0x08 | 0x11 | 0x24 | 0x35 | 0x36 | 0x37 | 0x41 | 0x43 | 0x50 | 0x53 | 0x54 | 0x55 => 2
  | 0x12 | 0x14 | 0x17 | 0x23 | 0x33 | 0x34 | 0x40 | 0x42 => 1
  | 0x16 => if aux % 4 = 0 then 1 else 2
  | 0x38 => if aux = 0 then 2 else 1
  | _ => 0

/-- The 32 bytes of a record (Table 17-5). -/
def recordBytes (r : ErrRecord) (phase : Bool) : List Byte :=
  let low := (if phase then 1 else 0) + actionOf r.cls.toNat r.aux.toNat * 2 + (if r.lost then 16 else 0)
    + r.cls.toNat * 2 ^ 16 + r.source.toNat * 2 ^ 28 + r.location.toNat * 2 ^ 36 + r.count.toNat * 2 ^ 48
  leBytes 8 low ++ leBytes 2 r.aux.toNat ++ leBytes 6 r.detail.toNat ++ leBytes 8 r.firstNs.toNat ++ leBytes 8 r.lastNs.toNat

def LogState.enabled (l : LogState) : Bool := bit l.ctrl 31
def LogState.size (l : LogState) : Nat := 2 ^ (field l.ctrl 0 5).toNat

/-- The entry before HEAD is never written (R370). -/
def LogState.hasSpace (l : LogState) : Bool := (l.tail + 1) % l.size != l.head.toNat % l.size

/-- Whether vector 64 signals after a record: its ACTION, or IRQ_RECORDS records since the last signal (R371). -/
def logSignals (l : LogState) (r : ErrRecord) : Bool :=
  let a := actionOf r.cls.toNat r.aux.toNat
  bit l.ctrl 30 && (decide (2 ≤ a) || decide (max 1 (field l.ctrl 8 8).toNat ≤ l.sinceSignal + 1))

/-- Queued records written to the host log ring, in queue order, while it has space; FULL with the write that fills it (R370). -/
def State.writeLog (fuel : Nat) (s : State) : State × Nat :=
  match fuel, s.log.writes with
  | k + 1, r :: rest =>
    let l := s.log
    if !l.enabled then (s, 0)
    else if !l.hasSpace then ({ s with log := { l with full := true } }, 0)
    else
      let s1 := s.hostWrite (l.base.toNat + 32 * l.tail) (recordBytes r l.phase) none
      let wraps := l.tail + 1 = l.size
      let sig := logSignals l r
      let l1 : LogState := { l with writes := rest, tail := (l.tail + 1) % l.size,
                                    phase := if wraps then !l.phase else l.phase,
                                    sinceSignal := if sig then 0 else l.sinceSignal + 1 }
      let s2 := { s1 with log := { l1 with full := !l1.hasSpace } }
      let x := (if sig then s2.signal 64 else s2).writeLog k
      (x.1, x.2 + 1)
  | _, _ => (s, 0)

end Sys2Proof.Machine
end

