-- ==== Sys2Proof/Machine/MemAccess.lean ====
section
/-!
DEFINITION. Device memory as the host queue engine, the hub DMA engines and BAR4 reach it: the address map (R21, R22, R397),
reads and writes of one 64-byte unit with their errors (Tables 11-3, 12-2, 13-5; R201, R206, R207, R224, R285), and the rings
on the path of an access (R46, R280, R290).
-/

namespace Sys2Proof.Machine

/-! ### Places (Table 01-5) -/

/-- Where a device address lies. -/
inductive Place where
  | pocket (n : Nat)
  | cap
  | scratch (n : Nat)
  | setup
  | unmapped
  | unreachable
  | panelAbsent
deriving DecidableEq, Repr

/-- An agent at the host side. -/
inductive Agent where
  | dma (e : Nat)
  | hqe
  | bar4
deriving DecidableEq, Repr

def Agent.isDma : Agent → Bool
  | .dma _ => true
  | _ => false

/-- The owner code of an agent (Table 03-2). -/
def Agent.owner : Agent → Nat
  | .dma e => 0x200 + e
  | _ => 0x210

/-- The reader's row of Table 11-3. -/
def Agent.reader : Agent → Nat
  | .bar4 => 7
  | _ => 6

/-- A Panel answers the hub. -/
def State.panelAnswers (s : State) (p : Nat) : Bool := (s.panel p).state == .present

/-- A column that no core can reach (R18). -/
def State.colUnreachable (s : State) (col : Nat) : Bool := s.map.unreachable.contains col

/-- The place of a device address as an agent sees it. -/
def State.place (s : State) (ag : Agent) (a : Nat) : Place :=
  if a < 512 * pocketSlotBytes then
    let n := a / pocketSlotBytes
    if (s.entry n).state = .absent then
      if ag.isDma && s.map.keptSlots.contains n then
        if !s.panelAnswers (n / 64) then .panelAbsent
        else if s.colUnreachable (s.columnOf n) then .unreachable else .pocket n
      else .unmapped
    else if s.panelAnswers (n / 64) then .pocket n else .panelAbsent
  else if capBase ≤ a ∧ a < capBase + s.capBytes then .cap
  else if scratchBase ≤ a ∧ a < scratchBase + 512 * scratchStride then
    let n := (a - scratchBase) / scratchStride
    if (s.entry n).state = .absent ∨ 4 * scratchWords ≤ (a - scratchBase) % scratchStride then .unmapped
    else if s.panelAnswers (n / 64) then .scratch n else .panelAbsent
  else if setupBase ≤ a ∧ a < setupBase + 0x10000000 then .setup
  else .unmapped

/-- The completion status of a place that serves no access (Table 13-5); of a hub DMA in setup space, for which the spec names no
status, UNMAPPED_ADDRESS (DESIGN CHOICE, log entry 52). -/
def Place.status : Place → Nat
  | .unmapped | .setup => stUnmapped
  | .unreachable => stUnreachable
  | .panelAbsent => stPanelAbsent
  | _ => stOk

/-! ### Columns -/

/-- An access changes a column and makes records. -/
def State.onColumn (s : State) (col : Nat) (f : Column → ColSite → ColStep) : State :=
  let a := f (s.column col) (s.colSite col)
  (s.setColumn col a.1).fileAll a.2

/-- The word of a Pocket address within its slot (R217). -/
def wordOf (a : Nat) : Nat := a % pocketSlotBytes / 64

/-! ### Rings on a path -/

/-- The Seam port of a logical core (R281). -/
def State.seamPort (s : State) (n : Nat) : Nat := entryPort n (s.entry n)

/-- The rings that a unit read from a place crosses on its way to the agent: port 29 feeds the engines' buffers, port 28 the
PCI Express port (Table 13-1). -/
def State.readRings (s : State) (ag : Agent) (p : Place) (a : Nat) : List Nat :=
  let port := ringKey 3 (if ag.isDma then 29 else 28)
  match p with
  | .pocket n => [s.pocketRing n, seamRing (s.seamPort n) 1, port]
  | .cap => [ringKey 5 (s.capInst a), port]
  | .scratch n => [seamRing (s.seamPort n) 1, port]
  | _ => []

/-- The rings that a unit written to a place crosses. -/
def State.writeRings (s : State) (p : Place) (a : Nat) : List Nat :=
  match p with
  | .pocket n => [ringKey 3 (s.seamPort n), seamRing (s.seamPort n) 0, s.pocketRing n]
  | .cap => [ringKey 3 (16 + s.capCuff a), ringKey 5 (s.capInst a)]
  | .scratch n => [ringKey 3 (s.seamPort n), seamRing (s.seamPort n) 0]
  | _ => []

/-- The ring that serves the read of a partial write's read-modify-write as one more unit (R249). -/
def State.mergeRings (s : State) (p : Place) (a len : Nat) : List Nat := if p = .cap ∧ len ≠ 64 then [ringKey 5 (s.capInst a)] else []

/-! ### The scratchpad's port 15 (R201, R206, R207) -/

/-- A port-15 access to a group that HOST_GROUPS does not name, while a set is active, is a clash (R206). -/
def Local.hostClash (l : Local) (off len : Nat) : Local :=
  let gs := groupsOf ((off / 4 : Nat), ((off + len - 1) / 4 : Nat))
  if l.env.setActive && gs.any (fun g => !bit l.core.scr.hostGroupsNow g) then
    let l1 := { l with clashes := l.clashes + 1 }
    if l.core.seq.clashFaultNow && l.core.seq.run == .running then l1.faultStop 3 0 l.core.seq.lastIssued else l1
  else l

/-- Parity errors found on port 15. -/
def Local.hostParity (l : Local) (bad : List Nat) : Local :=
  (l.findParity 15 bad).scrUpd fun s => { s with hostReadErrors := satAdd s.hostReadErrors bad.length }

/-- A read through port 15: the bytes and whether their parity was right. -/
def Local.hostRead (l : Local) (off len : Nat) : Local × Bool × List Byte :=
  let bad := badWords l.core.scr.badParity off len
  let l1 := (l.hostClash off len).cross 15 (linesOf (off / 4) ((off + len + 3) / 4 - off / 4))
  (if bad.isEmpty then l1 else l1.hostParity bad, bad.isEmpty, l.scr off len)

/-- The words of a port-15 write narrower than the word whose stored word fails parity (R201). -/
def Local.partParity (l : Local) (off len : Nat) : List Nat :=
  (badWords l.core.scr.badParity off len).filter fun w => decide (4 * w < off) || decide (off + len < 4 * w + 4)

/-- A write through port 15: words written whole have valid parity; a narrower write merges, and is discarded where the stored
word fails parity (R201). -/
def Local.hostWrite (l : Local) (off : Nat) (bs : List Byte) : Local :=
  let l1 := (l.hostClash off bs.length).cross 15 (linesOf (off / 4) ((off + bs.length + 3) / 4 - off / 4))
  let bad := badWords l1.core.scr.badParity off bs.length
  let part := l1.partParity off bs.length
  let l2 := if part.isEmpty then l1 else l1.hostParity part
  let kept := bs.mapIdx fun i b => if part.contains ((off + i) / 4) then memGet l2.mem (scratchAddr l2.env.n (off + i)) else b
  { l2 with mem := memWrite l2.mem (scratchAddr l2.env.n off) kept }.scrUpd fun s =>
    { s with badParity := s.badParity.filter fun w => !bad.contains w || part.contains w }

/-! ### One unit -/

/-- What an access to one unit gave: its status of Table 14-15 and the bytes read. -/
structure Access where
  state : State
  status : Nat
  bytes : List Byte

/-- A read of bytes within one 64-byte unit. -/
def State.readUnit (s : State) (ag : Agent) (a len : Nat) : Access :=
  let p := s.place ag a
  let data := memRead s.mem a len
  match p with
  | .pocket n =>
    let col := s.columnOf n
    let ok := (s.column col).readable (wordOf a)
    ⟨s.onColumn col fun c x => c.read x (wordOf a) ag.reader, if ok then stOk else stUncorrectable, data⟩
  | .cap => ⟨s.capRead a, if s.capReadable a then stOk else stUncorrectable, data⟩
  | .scratch n =>
    let r := (s.localOf n).hostRead ((a - scratchBase) % scratchStride) len
    ⟨s.putLocal n r.1, if r.2.1 then stOk else stScratchParity, r.2.2⟩
  | p => ⟨s, p.status, []⟩

/-- A write to Pocket. A partial one waits in the merge buffer until its slot or opening ends; where its word is uncorrectable or
poisoned, that end judges it (R223, R224). -/
def State.writePocket (s : State) (ag : Agent) (n a : Nat) (bs : List Byte) : State :=
  let u := wordOf a
  let s1 := s.onColumn (s.columnOf n) fun c x => c.write x u (a % 64) bs.length
  let s2 := { s1 with mem := memWrite s1.mem a bs }
  if bs.length == 64 || (s1.column (s.columnOf n)).readable u then s2
  else s2.updHost fun h => { h with partials := ⟨ag.owner, ag == .bar4, a, memRead s.mem a bs.length⟩ :: h.partials }

/-- A write of bytes within one 64-byte unit. A read-modify-write of an uncorrectable capacity-tier unit takes the merged bytes
with the poison marker (Table 12-2). -/
def State.writeUnit (s : State) (ag : Agent) (a : Nat) (bs : List Byte) : State × Nat :=
  let p := s.place ag a
  match p with
  | .pocket n => (s.writePocket ag n a bs, stOk)
  | .cap =>
    let bad := bs.length != 64 && s.capAnswers a && !s.capReadable a
    let s1 := s.capWrite a bs.length
    let s2 := if s.capAnswers a then { s1 with mem := memWrite s1.mem a bs } else s1
    (s2, if bad && ag.isDma then stUncorrectable else stOk)
  | .scratch n =>
    let off := (a - scratchBase) % scratchStride
    let ok := ((s.localOf n).partParity off bs.length).isEmpty
    (s.putLocal n ((s.localOf n).hostWrite off bs), if ok then stOk else stScratchParity)
  | p => (s, p.status)

/-! ### Runs of units -/

/-- The lengths of the pieces of a range cut at 64-byte boundaries. -/
def pieces (fuel a len : Nat) : List (Nat × Nat) :=
  match fuel with
  | 0 => []
  | k + 1 => if len = 0 then [] else
    let n := min len (64 - a % 64)
    (a, n) :: pieces k (a + n) (len - n)

/-- Pieces read in ascending order until one fails; the bytes before it are kept. -/
def readPieces (s : State) (ag : Agent) (ps : List (Nat × Nat)) : Access :=
  match ps with
  | [] => ⟨s, stOk, []⟩
  | p :: r =>
    let x := s.readUnit ag p.1 p.2
    if x.status = stOk then
      let y := readPieces x.state ag r
      ⟨y.state, y.status, x.bytes ++ y.bytes⟩
    else ⟨x.state, x.status, []⟩

/-- Pieces written in ascending order until one fails: the status and the bytes written before it. -/
def writePieces (s : State) (ag : Agent) (ps : List (Nat × Nat)) (bs : List Byte) : State × Nat × Nat :=
  match ps with
  | [] => (s, stOk, 0)
  | p :: r =>
    let x := s.writeUnit ag p.1 (bs.take p.2)
    if x.2 = stOk then
      let y := writePieces x.1 ag r (bs.drop p.2)
      (y.1, y.2.1, p.2 + y.2.2)
    else (x.1, x.2, 0)

/-- A device range read. -/
def State.readRange (s : State) (ag : Agent) (a len : Nat) : Access := readPieces s ag (pieces (len / 64 + 2) a len)

/-- Bytes written to a device range. -/
def State.writeRange (s : State) (ag : Agent) (a : Nat) (bs : List Byte) : State × Nat × Nat :=
  writePieces s ag (pieces (bs.length / 64 + 2) a bs.length) bs

end Sys2Proof.Machine
end

