-- ==== Sys2Proof/Machine/Transfer.lean ====
section
/-!
DEFINITION. Transfers that the rings carry for the host queue engine and the hub DMA engines (R52, R289 to R291, R306 to R308): each unit
reads its source as its memory's ring serves it, crosses every ring of its path, and writes as its last ring serves it.
-/

namespace Sys2Proof.Machine

/-! ### Fields of a COPY (Table 14-13) -/

def Desc.srcHost (d : Desc) : Bool := bit d.raw 262
def Desc.dstHost (d : Desc) : Bool := bit d.raw 263
def Desc.copyEngine (d : Desc) : Nat := d.get 256 3
def Desc.copyLen (d : Desc) : Nat := d.get 192 48
def Desc.copyDst (d : Desc) : Nat := d.get 128 64
def Desc.copySrc (d : Desc) : Nat := d.get 64 64

/-! ### Roster headers (R69, R308, Table 04-2) -/

/-- A roster header (Table 04-2). -/
structure RosterHeader where
  buildId : BitVec 32
  reqFl : Nat
  entry : Nat
  count : Nat
  version : Nat
  clean : Bool
deriving DecidableEq, Repr

def parseHeader (bytes : List Byte) : RosterHeader :=
  let h : BitVec 128 := BitVec.ofNat 128 (leNat (bytes.take 16))
  { buildId := field h 96 32, reqFl := (field h 92 4).toNat, entry := (field h 60 28).toNat, count := (field h 32 28).toNat,
    version := (field h 0 8).toNat, clean := field h 88 4 == 0 && field h 8 24 == 0 }

/-- Units of 64 KiB and words of a core's roster region. -/
def Sequencer.regionSize (q : Sequencer) : Nat := (field q.regionNow 16 16).toNat

/-- The device address of a core's roster region. -/
def State.regionAddr (s : State) (n : Nat) : Nat := n * pocketSlotBytes + 16 * regionFirst (s.core n).seq

/-- The checks of R69 but the feature level. -/
def headerValid (h : RosterHeader) (q : Sequencer) : Bool :=
  h.version == 1 && (h.reqFl == 1 || h.reqFl == 2) && h.clean && decide (h.count + 5 ≤ q.regionSize * 4096)
    && decide (firstWord q ≤ h.entry) && decide (h.entry < firstWord q + h.count)

/-- The status of R69 (DEDUCED, log entry 47). -/
def State.headerStatus (s : State) (h : RosterHeader) (n : Nat) : Nat :=
  if !headerValid h (s.core n).seq then stRosterInvalid else if s.yoke.level < h.reqFl then stFeatureLevel else stOk

/-- A core's roster marked as loaded or as not loaded (R307). -/
def State.markRoster (s : State) (n : Nat) (bad : Bool) : State :=
  { s with badRosters := if bad then n :: s.badRosters.filter (· != n) else s.badRosters.filter (· != n) }

/-! ### The units of a transfer -/

/-- A transfer loads a roster; else it is a COPY's. -/
def Transfer.loads (t : Transfer) : Bool := t.desc.opcode == opLoadRoster

/-- Who carries out the transfer. -/
def Transfer.by (t : Transfer) : Agent := if t.loads then .hqe else .dma (t.agent - 0x200)

/-- The bytes of the transfer, and where its chunk at hand ends: an engine's buffer holds 64 KiB (R289). -/
def Transfer.total (t : Transfer) : Nat := if t.loads then t.read.length else t.desc.copyLen
def Transfer.chunkEnd (t : Transfer) : Nat := if t.loads then t.total else min t.total (t.off + 65536)

/-- Whether the side that the stage at hand reaches is host memory. -/
def Transfer.atHost (t : Transfer) : Bool := !t.loads && if t.writing then t.desc.dstHost else t.desc.srcHost

/-- Units of 64 bytes from an address on, for a part of the transfer that begins at `off`. -/
def hubUnits (a off len : Nat) (route : Nat × Nat → List Nat) : List HubUnit :=
  (pieces (len / 64 + 2) a len).map fun p => ⟨p.1, p.2, off + (p.1 - a), route p, none⟩

/-- The units that read a chunk. -/
def State.readStage (s : State) (t : Transfer) : List HubUnit :=
  hubUnits (t.desc.copySrc + t.off) t.off (t.chunkEnd - t.off) fun p =>
    if t.desc.srcHost then [ringKey 3 29] else s.readRings t.by (s.place t.by p.1) p.1

/-- The units that write the bytes that a chunk has read. -/
def State.writeStage (s : State) (t : Transfer) (bs : List Byte) : List HubUnit :=
  (hubUnits (t.dst + t.off) t.off bs.length fun p =>
    if t.atHost then [ringKey 3 28]
    else s.writeRings (s.place t.by p.1) p.1 ++ s.mergeRings (s.place t.by p.1) p.1 p.2).map fun u =>
      { u with data := some ((bs.drop (u.off - t.off)).take u.len) }

/-- The transfer stops at byte `off`: nothing from there on is moved (R291). -/
def Transfer.failAt (t : Transfer) (off status : Nat) : Transfer :=
  { t with units := t.units.filter fun u => decide (u.off < off), got := t.got.filter fun g => decide (g.1 < off), fail := some (off, status) }

/-- A unit takes the place of the one at its offset, or leaves the transfer. -/
def Transfer.put (t : Transfer) (u : HubUnit) : Transfer :=
  { t with units := t.units.map fun x => if x.off = u.off then u else x }
def Transfer.leave (t : Transfer) (u : HubUnit) : Transfer := { t with units := t.units.filter fun x => x.off != u.off }

/-- A unit read whole: its bytes stand in the buffer. -/
def Transfer.take (t : Transfer) (u : HubUnit) (bs : List Byte) : Transfer :=
  { t.leave u with got := insertBy (fun a b => decide (a.1 < b.1)) (u.off, bs) t.got }

/-- The unit of a transfer that waits for a ring. -/
def Transfer.next (t : Transfer) (key : Nat) : Option HubUnit := t.units.find? fun u => u.route.head? == some key

/-- The units of an owner that wait for a ring. -/
def State.hubPending (s : State) (key owner : Nat) : Nat :=
  ((s.host.transfers.filter fun t => t.agent == owner).map fun t => t.units.countP fun u => u.route.head? == some key).sum

def State.setTransfer (s : State) (i : Nat) (t : Transfer) : State :=
  s.updHost fun h => { h with transfers := h.transfers.set i t }

/-! ### One unit -/

/-- A unit read at its source. -/
def State.hubRead (s : State) (t : Transfer) (u : HubUnit) : Access :=
  if t.atHost then
    let bs := (t.read.drop u.off).take u.len
    ⟨s, if bs.length = u.len then stOk else stHostAccess, bs⟩
  else s.readUnit t.by u.addr u.len

/-- A unit written at its destination: the status, and the bytes accepted. -/
def State.hubWrite (s : State) (t : Transfer) (u : HubUnit) (bs : List Byte) : State × Nat × Nat :=
  if t.atHost then
    let k := min bs.length (t.wrote.getD (u.off + bs.length) - u.off)
    (s.hostData t.desc u.addr bs (some k), if k = bs.length then stOk else stHostAccess, k)
  else
    let w := s.writeUnit t.by u.addr bs
    (w.1, w.2, if w.2 = stOk then bs.length else 0)

/-- A unit served by the ring that it waits for. -/
def State.hubServe (s : State) (i : Nat) (t : Transfer) (u : HubUnit) : State :=
  let rest := u.route.tail
  if t.writing then
    if rest = [] then
      let w := s.hubWrite t u (u.data.getD [])
      w.1.setTransfer i (if w.2.1 = stOk then t.leave u else t.failAt (u.off + w.2.2) w.2.1)
    else s.setTransfer i (t.put { u with route := rest })
  else
    let a : Access := match u.data with
      | some bs => ⟨s, stOk, bs⟩
      | none => s.hubRead t u
    a.state.setTransfer i
      (if a.status ≠ stOk then t.failAt u.off a.status
       else if rest = [] then t.take u a.bytes else t.put { u with route := rest, data := some a.bytes })

/-! ### The end of a stage -/

/-- A unit on its way to or from a number that has gone absent crosses the Pocket ring that serves its column now (R236). -/
def State.reroute (s : State) (t : Transfer) (u : HubUnit) : HubUnit :=
  match s.place t.by u.addr with
  | .pocket n => { u with route := u.route.map fun k => if ringClass k = 2 then s.pocketRing n else k }
  | _ => u

/-- The transfer as its device addresses answer now: it stops at the first one that serves no access (Table 13-5). -/
def State.judgeTransfer (s : State) (t : Transfer) : Transfer :=
  if t.atHost then t
  else
    match t.units.find? fun u => (s.place t.by u.addr).status != stOk with
    | some u => t.failAt u.off (s.place t.by u.addr).status
    | none => { t with units := t.units.map (s.reroute t) }

/-- A roster at its region: checked, and marked as loaded or as not loaded (R69, R307). -/
def State.rosterStored (s : State) (t : Transfer) (status : Nat) : State × Nat :=
  let n := t.desc.get 176 9
  if status ≠ stOk then (s, status)
  else if !t.whole then (s.markRoster n true, stHostAccess)
  else
    let st := s.headerStatus (parseHeader t.read) n
    (if st = stOk then s.markRoster n false else s, st)

/-- A transfer ends: an error halts its engine, and its descriptor completes (R291). -/
def State.hubEnd (s : State) (i : Nat) (t : Transfer) (status count : Nat) : State :=
  let s1 := s.updHost fun h => { h with transfers := h.transfers.eraseIdx i }
  if t.loads then
    let x := s1.rosterStored t status
    x.1.complete t.q t.desc x.2 0
  else
    let e := t.agent - 0x200
    let s2 := s1.updHost fun h =>
      { h with busy := putBit h.busy e false, halted := if status = stOk then h.halted else putBit h.halted e true }
    if t.orphan then s2 else s2.complete t.q t.desc status count

/-- A transfer goes on once every unit of its stage has been served: the chunk that it has read is written, the next one is read, and at
its end or at an error it ends. A partial write that waits in a merge buffer holds it. -/
def State.hubSettle (fuel : Nat) (s : State) (i : Nat) : State :=
  match fuel, s.host.transfers[i]? with
  | k + 1, some t0 =>
    let t := s.judgeTransfer t0
    if !t.units.isEmpty || s.host.partials.any (fun w => !w.bar4 && w.owner == t.agent) then s.setTransfer i t
    else if t.writing then
      match t.fail with
      | some (off, st) => s.hubEnd i t st off
      | none =>
        if t.total ≤ t.chunkEnd then s.hubEnd i t stOk t.total
        else
          let n : Transfer := { t with off := t.chunkEnd, writing := false }
          (s.setTransfer i { n with units := s.readStage n }).hubSettle k i
    else
      let w : Transfer := { t with writing := true, got := [] }
      (s.setTransfer i { w with units := s.writeStage w (t.got.flatMap (·.2)) }).hubSettle k i
  | _, _ => s

/-- Every transfer goes on as far as it can, the newest first. -/
def State.settleTransfers (s : State) : State :=
  foldOver (List.range s.host.transfers.length).reverse (State.hubSettle 4) s

/-- A transfer begins. -/
def State.beginTransfer (s : State) (t : Transfer) : State :=
  (s.updHost fun h => { h with transfers := h.transfers ++ [t] }).hubSettle 4 s.host.transfers.length

/-- The unit of an agent that waits for a ring is served by it. -/
def State.hubUnit (s : State) (key owner : Nat) : State :=
  match s.host.transfers.zipIdx.find? fun e => e.1.agent == owner && (e.1.next key).isSome with
  | none => s
  | some (t, i) =>
    match t.next key with
    | none => s
    | some u => (s.hubServe i t u).hubSettle 4 i

/-- Some units of an agent served by a ring. -/
def State.hubServes (n : Nat) (s : State) (key owner : Nat) : State :=
  match n with
  | 0 => s
  | k + 1 => (s.hubUnit key owner).hubServes k key owner

/-! ### Partial writes at the end of an opening (R224) -/

/-- A partial write whose word still cannot be read was merged under the poison marker: that of BAR4 is discarded, and an engine's transfer
stops there. -/
def State.partialEnds (s : State) (w : PartialWrite) : State :=
  if (s.column (s.columnOf (w.addr / pocketSlotBytes))).readable (wordOf w.addr) then s
  else if w.bar4 then { s with mem := memWrite s.mem w.addr w.old }
  else
    match s.host.transfers.zipIdx.find? fun e => e.1.agent == w.owner with
    | some (t, i) => s.setTransfer i (t.failAt (w.addr - t.dst) stUncorrectable)
    | none => s

/-- The partial writes of an opening that has ended, the newest first. -/
def State.endPartials (s : State) : State :=
  if s.host.partials.isEmpty then s
  else (foldOver s.host.partials State.partialEnds (s.updHost fun h => { h with partials := [] })).settleTransfers

end Sys2Proof.Machine
end

