-- ==== Sys2Proof/Machine/OwnerTurn.lean ====
section
/-!
DEFINITION. An owner's request on an explicit ring (R46 to R48, R56, R58, R71, R190, R272, R290): the unit that is served, what it
does at the memory that the ring orders, and the end of the slot; the credit messages of R213 and R215.
-/

namespace Sys2Proof.Machine

/-! ### Rings in service -/

/-- The other Seam port of a port's Panel. -/
def siblingPort (port : Nat) : Nat := if port % 2 = 0 then port + 1 else port - 1

/-- A ring is in service: its Panel is present, and a Pocket or credit ring's logical core is not absent (R227, R285). -/
def State.ringRuns (s : State) (key : Nat) : Bool :=
  let inst := ringInst key
  s.isUp && ringExists (ringClass key) inst
    && match ringClass key with
      | 1 | 2 => s.panelAnswers (inst / 64) && (s.entry inst).state != .absent
      | 4 => s.panelAnswers (inst / 4)
      | _ => true

/-- A ring stands still: its core's supply gate is closed (R323), or its channel is held while it is switched (R262). -/
def State.ringHeld (s : State) (key : Nat) : Bool :=
  match ringClass key with
  | 1 | 2 => (s.core (ringInst key)).supply.gateClosed
  | 5 => decide (s.now < (s.chan (ringInst key / 20) (ringInst key % 20)).holdUntil)
  | _ => false

/-- Whether it is a ring's turn at its sequencer: of two Seam rings that share one after a retirement, each serves one slot in turn,
the sequencer's own first (R63). -/
def State.ringTurn (s : State) (key : Nat) : Bool :=
  s.ringRuns key && !s.ringHeld key &&
    (ringClass key != 4 ||
      let port := ringInst key / 2
      let own := (s.seam port).state
      let other := (s.seam (siblingPort port)).state
      if own = .retired then
        other != .retired && (s.seam (siblingPort port)).otherNext.contains (ringInst key % 2)
      else other != .retired || !(s.seam port).otherNext.contains (ringInst key % 2))

/-- The slot in service or waiting on a ring. -/
def State.slotOf (s : State) (key : Nat) : Option RingSlot := (s.ring key).current key

def State.updRing (s : State) (key : Nat) (f : Ring → Ring) : State := s.setRing key (f (s.ring key))

def State.updSeam (s : State) (n : Nat) (f : SeamPort → SeamPort) : State := s.setSeam n (f (s.seam n))

/-- The column that a Pocket ring orders: the slot of its logical core. -/
def State.ringColumn (s : State) (key : Nat) : Nat := s.columnOf (ringInst key)

/-- The merge buffer of a Pocket ring's column empties (R223 event 4). -/
def State.drainRing (s : State) (key : Nat) : State :=
  if ringClass key = 2 then s.onColumn (s.ringColumn key) Column.drain else s

/-- Whether two values of a ring stand in different slots. -/
def slotMoved (a b : Ring) : Bool := a.slot != b.slot || a.atEnd != b.atEnd

/-- Ring `key` of a Seam port, whose sibling's port has retired: the other ring's slot comes next, in the same direction (R63). -/
def State.alternate (s : State) (key : Nat) : State :=
  let port := ringInst key / 2
  let d := ringInst key % 2
  let live := if (s.seam port).state = .retired then siblingPort port else port
  if ringClass key = 4 ∧ (s.seam (siblingPort live)).state = .retired then
    s.updSeam live fun x => { x with otherNext := if x.otherNext.contains d then x.otherNext.erase d else d :: x.otherNext }
  else s

/-- A ring whose slot may have ended: where it has, the merge buffer empties before the ring moves on (R223), two Seam rings that share a
sequencer take turns, and a retraining sequence of the channel goes on (R262). -/
def State.moveRing (s : State) (key : Nat) (r : Ring) : State :=
  if slotMoved (s.ring key) r then
    let s1 := ((s.drainRing key).alternate key).setRing key r
    if ringClass key = 5 then s1.seqBoundary (ringInst key / 20) (ringInst key % 20) else s1
  else s.setRing key r

/-- Units used in the slot in service. -/
def State.useSlot (s : State) (key units : Nat) (last : Bool) : State :=
  s.moveRing key ((s.ring key).useUnits key s.now units last)

/-- The slot in service ends with a TURN_END. -/
def State.endTurn (s : State) (key : Nat) : State := s.useSlot key 0 true

/-! ### Refresh before a slot (R53, R56, R256, R258) -/

/-- One refresh paid to the least refreshed bank group or pair of the resource of a ring. -/
def State.payRefresh (s : State) (key : Nat) : State :=
  match ringClass key with
  | 2 =>
    let k := s.ringColumn key
    let c := s.column k
    s.setColumn k (c.pay (leastIndex c.counts))
  | 5 => s.updChan (ringInst key / 20) (ringInst key % 20) fun c => c.pay (leastIndex c.pairCounts)
  | _ => s

/-- The refresh debt of a ring's resource. -/
def State.debtOf (s : State) (key : Nat) : Nat :=
  match ringClass key with
  | 2 => (s.column (s.ringColumn key)).debt
  | 5 => (s.chan (ringInst key / 20) (ringInst key % 20)).debt
  | _ => 0

/-- The start of an owner slot: while the debt is 8 or more a refresh is forced, counted in USED (R56, R258). -/
def State.beginSlot (s : State) (key : Nat) : State :=
  if (s.ring key).begun then s
  else if 8 ≤ s.debtOf key then
    (s.payRefresh key).updRing key fun r => { r.countOpening .refresh true with begun := true }
  else s.updRing key fun r => { r with begun := true }

/-- What commands have still to do in the owner slots of Cuff `k` on a ring: the Cuff bus, or a channel of the Cuff. -/
def State.nearWork (s : State) (key k : Nat) : List TurnWork :=
  if ringClass key = 6 then (s.cuff k).busTurns else (s.chan k (ringInst key % 20)).turns

def State.setNearWork (s : State) (key k : Nat) (l : List TurnWork) : State :=
  if ringClass key = 6 then s.updCuff k fun c => { c with busTurns := l }
  else s.updChan k (ringInst key % 20) fun c => { c with turns := l }

/-- A core presents nothing while its Panel does not answer (R285) or its supply gate is closed (R323). -/
def State.coreHeld (s : State) (n : Nat) : Bool := !s.panelAnswers (n / 64) || (s.core n).supply.gateClosed

/-- The lap tag of a request against the ring's lap (R48). -/
inductive LapMatch where
  | equal | ahead | mismatch
deriving DecidableEq, Repr

def lapMatch (tag : BitVec 2) (ringLap : Nat) : LapMatch :=
  match (tag.toNat + 4 - ringLap % 4) % 4 with
  | 0 => .equal
  | 1 => .ahead
  | _ => .mismatch

/-- The first work of Cuff `k` on a ring that its owner slots serve, or that host openings serve, with its place. -/
def State.nearHead (s : State) (key k : Nat) (host : Bool) : Option (Nat × TurnWork) :=
  ((s.nearWork key k).zipIdx.find? fun e => e.1.host == host).map fun e => (e.2, e.1)

/-- A unit of some work can be presented: a walk's scoring reads its entries, and a command has what it needs. -/
def State.nearOffers (s : State) (key k : Nat) (w : TurnWork) : Bool := decide (0 < w.units) && (w.slot == 2 || s.nearHas k key)

/-- Whether Cuff `k` has a request present in a slot of its own: a unit within its counted slots and of the ring's lap. -/
def State.nearPresent (s : State) (key k : Nat) : Bool :=
  match s.nearHead key k false with
  | some (_, w) => decide (0 < w.turns) && lapMatch w.lap (s.ring key).lap == .equal && s.nearOffers key k w && !s.cuffGone k
  | none => false

/-- The units of 32-byte records that the error log engine has for the PCIe-bound port (R369). -/
def State.logUnits (s : State) : Nat := (s.log.writes.length + 1) / 2

/-- Whether the error log engine has a record that it can write (R369, R370). -/
def State.logPresent (s : State) : Bool := decide (0 < s.logUnits) && s.log.enabled && s.log.hasSpace

/-- Whether the owner of the slot in service has a request for the ring; the lap record is the first unit of its slot (R71). -/
def State.requestPresent (s : State) (key owner : Nat) : Bool :=
  if owner < 0x200 then
    let c := s.core owner
    !s.coreHeld owner
      && ((nextMove c.moveQ key).isSome || walkWants c.att key
        || (key == ringKey 2 owner && c.seq.lapRecordDue && (s.ring key).used == 0))
  else if owner < 0x220 then decide (0 < s.hubPending key owner)
  else if owner = 0x230 then s.logPresent
  else s.nearPresent key (owner - 0x220)

/-- An owner slot that ends by itself, once what its owner has presented is served: while the ring heads back to its open image, always
in the open image of class 0x06 (R42, R317, R398), that of an engine with no transfer pending (R290), and that of a Cuff that cannot be
reached (R254). -/
def State.endsItself (s : State) (key owner : Nat) : Bool :=
  let r := s.ring key
  (!s.requestPresent key owner || (r.use == .opened && ringClass key == 6))
    && (r.toOpen || r.use == .opened
      || (decide (0x200 ≤ owner) && decide (owner < 0x208) && !bit s.host.busy (owner - 0x200))
      || (decide (0x220 ≤ owner) && decide (owner ≤ 0x22B) && s.cuffGone (owner - 0x220)))

/-- A refresh from the debt, paid in an owner slot that waits with no request present (R53, R256), and a unit that a mirror copies in it
(R262): each once as the wait begins, and a refresh again where one falls due during it (DEDUCED, log entry 24). -/
def State.payWaiting (s : State) (key owner : Nat) : State :=
  if s.requestPresent key owner then s
  else
    let s1 := if (s.ring key).paid || s.debtOf key == 0 then s
      else (s.payRefresh key).updRing key fun r => { r with paid := true }
    if ringClass key = 5 ∧ !(s.ring key).copied ∧ (s.copying (ringInst key / 20) (ringInst key % 20)).isSome then
      (s1.copyUnits (ringInst key / 20) 1).updRing key fun r => { r with copied := true }
    else s1

/-- A refresh that falls due while an owner slot waits with no request present is paid in it (R53, R256). -/
def State.payDue (s : State) (key : Nat) : State :=
  match s.slotOf key with
  | some slot =>
    if slot.kind = .owner ∧ s.ringTurn key ∧ !s.requestPresent key slot.owner ∧ s.debtOf key ≠ 0 then s.payRefresh key else s
  | none => s

/-- A ring stands at the next slot that waits for an event. -/
def State.settle (fuel : Nat) (s : State) (key : Nat) : State :=
  match fuel with
  | 0 => s
  | k + 1 =>
    match s.slotOf key with
    | some slot =>
      if slot.kind = .owner ∧ s.ringTurn key then
        let s1 := s.beginSlot key
        if s1.endsItself key slot.owner then (s1.endTurn key).settle k key else s1.payWaiting key slot.owner
      else s
    | none => s

/-- A ring passes the owner slots that end by themselves. -/
def State.settleRing (s : State) (key : Nat) : State := s.settle (((s.ring key).slots key).length + 1) key

/-! ### Clash requests (R58) -/

/-- A request of an owner without a slot in the image waits for the next host opening. -/
def State.clashRequest (s : State) (key code : Nat) : State :=
  let r := s.ring key
  if r.clashes.contains code then s
  else
    let s1 := s.setRing key { r with clashes := insertBy (fun a b => decide (a % 4096 < b % 4096)) code r.clashes }
    { s1 with yoke := { s1.yoke with clashCount := satAdd s1.yoke.clashCount 1 } }

/-! ### What a core's unit does at the memory -/

/-- A unit of a move engine's operation at its Pocket column or Cuff channel: what the read finds, and the write's path through
the merge buffer or the in-line code. `wraps` are the INT32 wraps of an atomic add. -/
def State.moveEffect (s : State) (o : MoveOp) (u : MemUnit) (wraps : Nat) : State :=
  let cap := ringClass u.ring == 5
  let col := s.ringColumn u.ring
  match o.op with
  | .moveIn _ _ _ _ _ => if cap then s.capRead u.addr else s.onColumn col fun c x => c.read x (wordOf u.addr) 2
  | .fetchRoster _ _ _ _ => s.onColumn col fun c x => c.read x (wordOf u.addr) 1
  | .moveOut _ _ _ _ _ =>
    if cap then s.capWrite u.addr u.len else s.onColumn col fun c x => c.write x (wordOf u.addr) (u.addr % 64) u.len
  | .atomicAdd _ _ _ _ _ => if cap then s.capAtomic u.addr wraps else s
  | .bankOff _ _ _ => s.onColumn col fun c x => c.bankOff x o.sVal
  | _ => s

/-- Ring units that one memory unit of an operation counts: two for an atomic add and for a partial write in a Cuff (R249,
R274). -/
def unitsCounted (o : MoveOp) (u : MemUnit) : Nat :=
  match o.op with
  | .atomicAdd _ _ _ _ _ => 2
  | .moveOut _ _ _ _ _ => if ringClass u.ring = 5 ∧ u.len ≠ 64 then 2 else 1
  | _ => 1

/-- A near-memory command reaches Cuff `k`'s queue, or is complete there where the Cuff cannot be reached (R254, R267). -/
def State.nearArrives (s : State) (n k : Nat) (o : MoveOp) : State :=
  match o.patS with
  | some p =>
    let cmd : NearCommand := ⟨n, o.lap, o.word, o.sVal.toNat, ((s.localOf n).streamBytes 65 p 0 64).1⟩
    if s.cuffGone k then s.nearTake k cmd else s.updCuff k fun c => { c with near := c.near ++ [cmd] }
  | none => s

/-- What a served request used of its slot: none where it waits; else its units and whether it is the turn's last. -/
abbrev Served := State × Option (Nat × Bool)

/-- The core of a request whose lap tag is one behind or two apart faults; the operation presents nothing more. -/
def State.turnMismatch (s : State) (n slot : Nat) (word : BitVec 28) (stop : Local → Local) : State :=
  s.putLocal n ((stop (s.localOf n)).faultStop 2 slot word).pump

/-- Whether an operation has nothing left for a ring after the unit at hand. -/
def lastOn (key : Nat) (o : MoveOp) : Bool :=
  !(o.units.any fun u => u.ring == key) && mapGet 0 o.transit key == 0

/-- Operations that write toward a Panel that does not answer lose what they had for its rings: the writes are discarded and
their turns on the other rings pass as served (R285). -/
def State.dropIsolated (s : State) (n : Nat) : State :=
  let gone (p : Nat) : Bool := p != n / 64 && !s.panelAnswers p
  if (List.range 8).any gone then
    let c := s.core n
    let lost (k : Nat) : Bool := (ringClass k == 4 && gone (ringInst k / 4)) || (ringClass k == 2 && gone (ringInst k / 64))
    let f (o : MoveOp) : MoveOp :=
      match o.op with
      | .moveOut _ _ _ _ _ | .moveRemote _ _ _ _ _ =>
        let dead (u : MemUnit) : Bool := !isRemote o.op && (lost u.ring || u.route.any lost)
        let less := ((o.units.filter dead).flatMap (·.route)).foldl (fun t k => mapPut t k (mapGet 0 t k - 1)) o.transit
        { o with units := o.units.filter fun u => !dead u, transit := less.filter fun t => !lost t.1 }
      | _ => o
    s.setCore n { c with moveQ := c.moveQ.map f }
  else s

/-- One unit of the move engine of core `n` on a ring: the oldest operation that wants the ring. -/
def State.moveTurn (s : State) (key n : Nat) (checkLap : Bool) : Served :=
  let c := s.core n
  match nextMove c.moveQ key with
  | none => (s, none)
  | some (i, o) =>
    match if checkLap then lapMatch o.lap (s.ring key).lap else .equal with
    | .ahead => (s, none)
    | .mismatch => (s.turnMismatch n 1 o.word fun l => l.setMove i fun o => { o with halted := true }, none)
    | .equal =>
      match o.op with
      | .turnEnd _ _ => (s.putLocal n ((s.localOf n).moveServe key).pump, some (0, true))
      | .creditTake _ _ _ _ => (s, none)
      | _ =>
        let u := if isRemote o.op ∨ ringClass key = 3 ∨ ringClass key = 4 then none else o.units.find? fun u => unitRing o.op u == key
        let l := (s.localOf n).moveServe key
        let stopped := !o.halted && ((l.core.moveQ[i]?).map (·.halted)).getD false
        let s1 := s.putLocal n { l with wraps := 0 }
        if stopped then (s1.putLocal n (s1.localOf n).pump, none)
        else
          let s2 := match u with
            | some u => s1.moveEffect o u l.wraps
            | none => s1
          let inst := ringInst key
          let s3 := match o.op with
            | .nearOp _ _ _ _ => if ringClass key = 3 ∧ 16 ≤ inst ∧ inst < 28 then s2.nearArrives n (inst - 16) o else s2
            | _ => s2
          let last := o.tl && ((l.core.moveQ[i]?).map (lastOn key)).getD true
          (s3.putLocal n (s3.localOf n).pump, some ((u.map (unitsCounted o)).getD 1, last))

/-- The oldest walk with owner slots left among those that it counts on a ring (R190). -/
def walkSlot (s : AttState) (key : Nat) : Option WalkTurns := s.turns.find? fun t => decide (mapGet 0 t.used key < walkTurns t.record key)

/-- The walk whose unit a ring would serve: one whose scoring command waits, else the walk in progress. -/
def walkAsks (s : AttState) (key : Nat) : Option WalkTurns :=
  match s.turns.find? fun t => decide (0 < mapGet 0 t.sends key) with
  | some t => some t
  | none => if walkReads s key then s.turns.find? fun t => t.serial == s.walkSerial else none

/-- One unit of the walk of core `n` on a ring, with what its read finds. -/
def State.walkUnit (s : State) (key n : Nat) : State :=
  let u := if ringClass key = 2 ∨ ringClass key = 5 then
      (s.core n).att.walk.bind fun w => w.reads.findSome? fun r => r.units.find? fun u => u.readRing == key
    else none
  let s1 := s.putLocal n ((s.localOf n).walkServe key).pump
  match u with
  | some u =>
    if ringClass key = 5 then s1.capRead u.addr else s1.onColumn (s.ringColumn key) fun c x => c.read x (wordOf u.addr) 3
  | none => s1

/-- A walk's request whose lap tag is one behind or two apart. -/
def State.walkMismatch (s : State) (n : Nat) (t : WalkTurns) : State :=
  s.turnMismatch n 2 t.word fun l => (l.attUpd walkAbandon).attUpd fun a =>
    { a with turns := a.turns.map fun x => { x with sends := x.sends.map fun e => (e.1, 0) } }

/-- The walk's turn in a slot that a walk record counts: a unit, or the end of the slot once the walk that counts it has no further request
for the ring. A request beyond the counted slots waits for the owner's slot in the next lap, where its tag is behind (R190). -/
def State.walkTurn (s : State) (key n : Nat) : Served :=
  let a := (s.core n).att
  match walkAsks a key, walkSlot a key with
  | some t, slot =>
    match lapMatch t.lap (s.ring key).lap with
    | .ahead => (s, none)
    | .mismatch => (s.walkMismatch n t, none)
    | .equal =>
      match slot with
      | some x => if x.serial < t.serial then (s, some (0, true)) else (s.walkUnit key n, some (1, false))
      | none => (s, none)
  | none, some x => if walkOver (s.localOf n) x key then (s, some (0, true)) else (s, none)
  | none, none => (s, none)

/-- A counted slot that ended is used up. -/
def State.countWalkTurn (s : State) (key n : Nat) : State :=
  let c := s.core n
  match c.att.turns.findIdx? fun t => decide (mapGet 0 t.used key < walkTurns t.record key) with
  | some i =>
    s.setCore n { c with att := { c.att with
      turns := modifyNth c.att.turns i fun t => { t with used := mapPut t.used key (mapGet 0 t.used key + 1) } } }
  | none => s

/-- A core's turn: first the lap record that is due on its own Pocket ring (R71). -/
def State.coreTurn (s : State) (key n : Nat) (walk : Bool) : Served :=
  let c := s.core n
  if key = ringKey 2 n ∧ c.seq.lapRecordDue ∧ (s.ring key).used = 0 then
    let a := n * pocketSlotBytes + 16 * regionFirst c.seq
    let s1 := s.onColumn (s.ringColumn key) fun k x => k.write x (wordOf a) 0 64
    (s1.putLocal n (s1.localOf n).writeLapRecord, some (1, false))
  else if walk then s.walkTurn key n
  else s.moveTurn key n true

/-- The turn of the error log engine: its records, two to a unit (R369, R370). -/
def State.logTurn (s : State) : Served :=
  if s.logPresent then ((s.writeLog 2).1, some (1, false)) else (s, none)

/-- The turn of a hub agent: one of its pending units. A slot of an engine with no transfer pending has ended by itself (R290); while its
COPY has started, the slot waits for the transfer's units. -/
def State.hubTurn (s0 : State) (key owner : Nat) : Served :=
  let s := s0.settleTransfers
  if s.hubPending key owner = 0 then (s, none) else ((s.hubUnit key owner).endPartials, some (1, false))

/-- Work whose lap tag is one behind or two apart ends: a command is abandoned, and where units of the work are left, its core faults
(R48, R272). -/
def State.nearMismatch (s : State) (key k i : Nat) (w : TurnWork) : State :=
  let s1 := s.setNearWork key k ((s.nearWork key k).eraseIdx i)
  if w.units = 0 then s1
  else
    let s2 := if w.slot = 1 then s1.nearAbandon k else s1
    if (s.core w.core).seq.run = .running then s2.turnMismatch w.core w.slot w.word id else s2

/-- One unit of Cuff `k`'s entries served for a walk's scoring (R192). -/
def State.scoreServe (s : State) (n k key : Nat) : State :=
  match (s.core n).att.walk.bind fun w => (w.scores.find? fun e => e.1 == k).bind fun e => e.2.units.find? fun u => u.ring == key with
  | some u => ((s.putLocal n ((s.localOf n).scoreServe k key).pump)).capRead u.addr
  | none => s

/-- What one unit of some work does: a walk's scoring reads its entry, a command goes on at its channel or on the Cuff bus. -/
def State.workUnit (s : State) (key k : Nat) (w : TurnWork) : State :=
  if w.slot = 2 then s.scoreServe w.core k key else if ringClass key = 6 then s.nearSend k else s.nearServe k key

/-- One unit of the oldest work served, under the lap tag of R48; none where it waits. -/
def State.nearUnit (s : State) (key k : Nat) (host : Bool) : State × Option TurnWork :=
  match s.nearHead key k host with
  | none => (s, none)
  | some (i, w) =>
    match lapMatch w.lap (s.ring key).lap with
    | .ahead => (s, none)
    | .mismatch => (s.nearMismatch key k i w, none)
    | .equal =>
      if 0 < w.units ∧ !s.nearOffers key k w then (s, none)
      else
        let left := { w with units := w.units - 1 }
        let l := s.nearWork key k
        let s1 := s.setNearWork key k (if left.turns = 0 ∧ left.units = 0 then l.eraseIdx i else l.set i left)
        (if w.units = 0 then s1 else s1.workUnit key k w, some w)

/-- The turn of a Cuff's near-memory unit in a slot that a command counts: a unit of its work, or the end of the slot once none is left;
work beyond the counted slots waits (R190, R272). A unit of the Cuff bus is sent by CUFF_BUS_TRANSFER; a slot of a Cuff that cannot be
reached passes (R254). -/
def State.nearTurn (s : State) (key k : Nat) : Served :=
  if s.cuffGone k then (s, some (0, true))
  else
    match s.nearHead key k false with
    | none => (s, none)
    | some (_, w) =>
      if 0 < w.units ∧ (w.turns = 0 ∨ ringClass key = 6) ∧ lapMatch w.lap (s.ring key).lap = .equal then (s, none)
      else
        match s.nearUnit key k false with
        | (t, some w) => (t, some (if w.units = 0 then (0, true) else (1, false)))
        | (t, none) => (t, none)

/-- A counted slot that ended is used up. -/
def State.countNearTurn (s : State) (key k : Nat) : State :=
  match s.nearHead key k false with
  | none => s
  | some (i, w) =>
    let l := s.nearWork key k
    s.setNearWork key k (if w.turns ≤ 1 ∧ w.units = 0 then l.eraseIdx i else l.set i { w with turns := w.turns - 1 })

/-- A core's move engine has presented a request that waits on a ring; a presented request that is served (DESIGN CHOICE, log
entry 46). -/
def State.present (s : State) (key n : Nat) : State :=
  let c := s.core n
  if (nextMove c.moveQ key).isSome && !c.shown.contains key then s.setCore n { c with shown := c.shown ++ [key] } else s

def State.unpresent (s : State) (key n : Nat) : State :=
  let c := s.core n
  if c.shown.contains key then s.setCore n { c with shown := c.shown.erase key } else s

/-- A request of a core that owns no slot in the ring's image, or of a re-executed walk whose counted turns are used up: it
waits for a host opening (R58, R210) (DESIGN CHOICE, log entry 46). -/
def State.outsideRequest (s : State) (key n : Nat) (walk : Bool) : State :=
  let c := s.core n
  let code := if walk then 4096 + n else n
  if !(if walk then walkWants c.att key else (nextMove c.moveQ key).isSome) then s
  else if walk && c.step.retrying && (walkSlot c.att key).isNone then s.updRing key fun r =>
    if r.clashes.contains code then r
    else { r with clashes := insertBy (fun a b => decide (a % 4096 < b % 4096)) code r.clashes }
  else if !(s.ring key).ownsSlot key n then s.clashRequest key code
  else s

/-- An owner whose turn it is in the slot in service: what it presents is served, or its slot waits (R46). -/
def State.ownerTurn (s : State) (key owner : Nat) (walk : Bool) : State :=
  let isCore := decide (owner < 0x200)
  let t :=
    if isCore then s.coreTurn key owner walk
    else if owner < 0x220 then s.hubTurn key owner
    else if owner = 0x230 then s.logTurn
    else s.nearTurn key (owner - 0x220)
  match t.2 with
  | some (units, last) =>
    let s1 := t.1.useSlot key units last
    let moved := slotMoved (s.ring key) (s1.ring key)
    let s2 := if 0x220 ≤ owner ∧ owner ≤ 0x22B ∧ moved then s1.countNearTurn key (owner - 0x220)
      else if !isCore then s1
      else if !walk then s1.unpresent key owner
      else if moved then s1.countWalkTurn key owner else s1
    s2.settleRing key
  | none => if isCore && !walk then t.1.present key owner else t.1

/-- The work of a Cuff on a ring whose image has no slot of its own: host openings serve it (R58). -/
def State.unslotted (s : State) (key k : Nat) : State :=
  s.setNearWork key k ((s.nearWork key k).map fun w => { w with host := true })

/-- A request of an agent that is not the owner of the slot in service: a clash where the image has no slot of its own, else it waits
for its slot (R46, R58). -/
def State.otherRequest (s : State) (key owner : Nat) (walk : Bool) : State :=
  if owner < 0x200 then
    let s1 := s.outsideRequest key owner walk
    if walk then s1 else s1.present key owner
  else if decide (0x220 ≤ owner) && s.requestPresent key owner && !(s.ring key).ownsSlot key owner then
    (if owner ≤ 0x22B then s.unslotted key (owner - 0x220) else s).clashRequest key owner
  else s

/-- OWNER_REQUEST: an owner presents a request to a ring; a core of a Panel that does not answer, or whose supply gate is closed, presents
nothing (R285, R323) (DESIGN CHOICE, log entry 46). -/
def State.ownerRequest (s : State) (cls inst owner : Nat) (walk : Bool) : State :=
  let key := ringKey cls inst
  let s0 := (if owner < 0x200 then s.dropIsolated owner else s).settleRing key
  if !s.ringTurn key || (decide (owner < 0x200) && s.coreHeld owner) then s
  else
    match s0.slotOf key with
    | some slot => if slot.kind = .owner ∧ slot.owner = owner then s0.ownerTurn key owner walk else s0.otherRequest key owner walk
    | none => s0

/-! ### Credit messages (R213 to R215) -/

/-- A discarded message: a reserved KIND or a nonzero reserved field at its receiver. -/
def State.badMessage (s : State) (receiver window : Nat) : State :=
  s.note 0x15 (receiver / 64) (s.entry receiver).phys receiver window

/-- The state of a window at its own core (R213). -/
def State.holder (s : State) (t w : Nat) : WindowHolder := holderOf t (s.core t).scr w

def State.setHolder (s : State) (t w : Nat) (h : WindowHolder) : State :=
  let c := s.core t
  s.setCore t { c with scr := { c.scr with holders := mapPut c.scr.holders w h } }

/-- The header of a GRANT: FIRST_GROUP and GROUP_COUNT of the window's configuration (Tables 10-8, 10-16). -/
def grantHeader (m : CreditMessage) : BitVec 128 :=
  creditHeader kindGrant m.target m.other m.window m.lap ||| (field m.groups 0 3 ++ field m.groups 4 3).setWidth 128 <<< 90

/-- The header of a GRANT or a REFUSE from a target to a taker. -/
def answerHeader (m : CreditMessage) : BitVec 128 :=
  match m.kind with
  | .grant => grantHeader m
  | .refuse => creditHeader kindRefuse m.target m.other m.window m.lap

/-- A message on its way from a target to a taker, with the target's lap counter and the window's groups (Table 10-8). -/
def State.sendCredit (s : State) (kind : CreditKind) (target taker window : Nat) : State :=
  let c := s.core target
  { s with credit := s.credit ++ [⟨kind, target, taker, window, c.seq.lap.setWidth 2, windowNow c.scr window⟩] }

/-- A CREDIT_TAKE's unit at the target: granted once the window is free, or refused while VALID = 0; none while it waits
(DEDUCED, log entry 29). -/
def State.takeServe (s : State) (key target taker window : Nat) : Option State :=
  let cfg := windowNow (s.core target).scr window
  let take := fun (t : State) => t.putLocal taker ((t.localOf taker).moveServe key)
  if !bit cfg 7 then some ((take s).sendCredit .refuse target taker window)
  else
    match s.holder target window with
    | .free => some (((take s).setHolder target window (.core taker)).sendCredit .grant target taker window)
    | .core h => if h = taker then some ((take s).sendCredit .grant target taker window) else none

/-- A CREDIT_TAKE whose lap tag is one behind or two apart. -/
def State.takeMismatch (s : State) (taker : Nat) (o : MoveOp) : State :=
  s.turnMismatch taker 1 o.word fun l => l.movUpd fun q => q.map fun x => if x = o then { x with halted := true } else x

/-- TAKE: the taker's unit on the target's credit ring; `upset` is what its header suffers on its way (DEDUCED, log entry 29). -/
def State.creditTake (s0 : State) (target taker window : Nat) (upset : BitVec 128) : State :=
  let key := ringKey 1 target
  let s := s0.settleRing key
  if !s.ringTurn key || s.coreHeld taker then s
  else
    match nextMove (s.core taker).moveQ key with
    | some (_, o) =>
      if isTake o.op && creditOf o == some (target, window) then
        if creditDiscards (creditHeader kindTake taker target window o.lap ^^^ upset) then s.badMessage target window
        else
          match s.slotOf key with
          | some slot =>
            if slot.kind = .owner ∧ slot.owner = taker then
              match lapMatch o.lap (s.ring key).lap with
              | .ahead => s
              | .mismatch => s.takeMismatch taker o
              | .equal =>
                match s.takeServe key target taker window with
                | some s1 => (s1.useSlot key 1 o.tl).settleRing key
                | none => s
            else if !(s.ring key).ownsSlot key taker then s.clashRequest key taker
            else s
          | none => s
      else s
    | none => s

/-- The oldest CREDIT_TAKE of a taker for a window that has presented its unit and has no answer. -/
def awaiting (q : List MoveOp) (target window : Nat) : Option Nat :=
  q.findIdx? fun o => isTake o.op && o.judged && o.resp.isNone && o.units.isEmpty && creditOf o == some (target, window)

/-- GRANT and REFUSE reach the taker: the CREDIT_TAKE completes (R213, Table 10-7 row 6) (DEDUCED, log entry 29). -/
def State.creditAnswer (s : State) (kind : CreditKind) (target taker window : Nat) (upset : BitVec 128) : State :=
  match s.credit.find? fun m => m.kind == kind && m.target == target && m.other == taker && m.window == window with
  | some m =>
    let h := answerHeader m ^^^ upset
    if creditDiscards h then { s with credit := s.credit.erase m }.badMessage taker window
    else
      match awaiting (s.core taker).moveQ target window with
      | some i =>
        let l := (s.localOf taker).setMove i fun o => { o with resp := some (kind == .grant) }
        let l1 :=
          if kind = .grant then
            if target = taker then l
            else l.scrUpd fun x =>
              { x with granted := (x.granted.filter fun e => !(e.1 == target && e.2.1 == window)) ++ [(target, window, grantedWindow h)] }
          else l.misuse target window 6
        { s with credit := s.credit.erase m }.putLocal taker l1.pump
      | none => { s with credit := s.credit.erase m }
  | none => s

/-- GIVE: the holder's message frees the window at its target, and the CREDIT_GIVE completes. -/
def State.creditGive (s : State) (target giver window : Nat) (upset : BitVec 128) : State :=
  let l := s.localOf giver
  let i := l.core.moveQ.findIdx? fun o => isGive o.op && o.judged && o.resp.isNone && creditOf o == some (target, window)
  match i with
  | some i =>
    if !s.panelAnswers (target / 64) || s.coreHeld giver then s
    else if creditDiscards (creditHeader kindGive giver target window (((l.core.moveQ[i]?).map (·.lap)).getD 0) ^^^ upset) then
      s.badMessage target window
    else
      let s1 := if s.holder target window = .core giver then s.setHolder target window .free else s
      s1.putLocal giver ((s1.localOf giver).setMove i fun o => { o with resp := some true }).pump
  | none => s

/-- WRITE: one message's words reach the target through port 16, behind its header's flits (R214, R215). -/
def State.creditWrite (s : State) (target sender window : Nat) (upset : BitVec 128) : State :=
  let s0 := s.dropIsolated sender
  let l := s0.localOf sender
  match readyWrite l target window with
  | some (i, o, u) =>
    if s0.coreHeld sender then s0
    else
    let bytes := writeBytes l o u
    let h := writeHeader sender target window o.lap u.len u.addr ^^^ upset
    let word := (field h 0 21).toNat
    let words := (field h 48 16).toNat + 1
    let s1 := s0.putLocal sender (l.setMove i fun o => { o with units := o.units.drop 1 }).pump
    if creditDiscards h then s1.badMessage target window
    else if s.panelAnswers (target / 64) then
      s1.putLocal target (((s1.localOf target).cross 16 (linesOf word words)).writeScr (4 * word) bytes)
    else s1
  | none => s0

end Sys2Proof.Machine
end

