-- ==== Sys2Proof/Machine/Openings.lean ====
section
/-!
DEFINITION. What openings and ring boundaries do (R43, R52, R53, R55, R91, R225, R229, R256, R260, R369 to R371), when a turn
stalls (R64), and when refresh falls due (R53, R227, R256, R259).
-/

namespace Sys2Proof.Machine

/-- The opening of a kind at which a ring in service stands. -/
def State.openingAt (s : State) (key : Nat) (k : SlotKind) : Option RingSlot :=
  if s.ringTurn key then (s.slotOf key).bind fun x => if x.kind = k then some x else none else none

/-- An opening ends: the merge buffer empties, the opening is counted, and the ring moves on. -/
def State.endOpening (s : State) (key : Nat) (k : SlotKind) (used : Bool) : State :=
  (s.moveRing key ((s.ring key).endOpening key s.now k used)).settleRing key

/-! ### BAR4 requests (R299, R300) -/

/-- BAR4_TIMEOUT_MS in ns (Table 14-18). -/
def State.bar4Limit (s : State) : Nat := max 1 (field s.host.hqCtrl 0 8).toNat * 1000000

/-- All ones for a read that is not served. -/
def onesFor (len : Nat) : List Byte := List.replicate len 0xFF

/-- A BAR4 request answered without service: all ones, or the write discarded. -/
def State.bar4Refuse (s : State) (r : Bar4Request) : State :=
  if r.data.isSome then s else s.answer (.bar4 r.addr (onesFor r.len))

/-- DETAIL of a BAR4 record: the device address, or all ones at 2⁴⁸ and above (R299). -/
def bar4Detail (a : Nat) : Nat := if a < 2 ^ 48 then a else 2 ^ 48 - 1

/-- A read that has waited past its limit (R300). -/
def State.bar4Expire (s : State) (r : Bar4Request) : State :=
  (s.bar4Refuse r).note 0x03 grpHost 0xFFF (bar4Detail r.addr) 0

/-! ### Host openings (R52, R196) -/

/-- Pending units of an agent served within what is left of an opening. -/
def State.hostShare (s : State) (key owner left : Nat) : State × Nat :=
  let n := min left (s.hubPending key owner)
  (s.hubServes n key owner, n)

/-- Every hub DMA engine's units in ascending number. -/
def State.dmaShares (s : State) (key left : Nat) (es : List Nat) : State × Nat :=
  match es with
  | [] => (s, 0)
  | e :: r =>
    let a := s.hostShare key (0x200 + e) left
    let b := a.1.dmaShares key (left - a.2) r
    (b.1, a.2 + b.2)

/-- A clash request of a core's walk (R58), under the lap tag of R48. -/
def State.clashWalk (s : State) (key n : Nat) : State × Nat :=
  let a := (s.core n).att
  match walkAsks a key with
  | some t =>
    match lapMatch t.lap (s.ring key).lap with
    | .ahead => (s, 0)
    | .mismatch => (s.walkMismatch n t, 0)
    | .equal => (s.walkUnit key n, 1)
  | none => (s, 0)

/-- A clash request of a core's move engine, under the lap tag of R48. A CREDIT_TAKE whose window is not free lets the ring go on, and
waits for the next host opening (DESIGN CHOICE, log entry 51). -/
def State.clashMove (s : State) (key n : Nat) : State × Nat :=
  match nextMove (s.core n).moveQ key with
  | some (_, o) =>
    if isTake o.op then
      match lapMatch o.lap (s.ring key).lap, creditOf o with
      | .mismatch, _ => (s.takeMismatch n o, 0)
      | .equal, some (t, w) =>
        match s.takeServe key t n w with
        | some s1 => (s1, 1)
        | none => (s, 0)
      | _, _ => (s, 0)
    else
      let a := s.moveTurn key n true
      match a.2 with
      | some (u, _) => (a.1, u)
      | none => (a.1, 0)
  | none => (s, 0)

/-- One clash request: a unit of the core's move engine or walk, the CREDIT_TAKE that waits on a credit ring, or a unit of a Cuff's
near-memory unit; a record of the error log engine. A core of a Panel that does not answer, or whose supply gate is closed, presents nothing
(R285, R323). -/
def State.clashServe (s : State) (key code : Nat) : State × Nat :=
  let n := code % 4096
  if n = 0x230 then (s.logTurn.1, if s.logPresent then 1 else 0)
  else if 512 ≤ n then
    let a := s.nearUnit key (n - 0x220) true
    (a.1, match a.2 with
      | some w => min 1 w.units
      | none => 0)
  else if s.coreHeld n then (s, 0)
  else if 4096 ≤ code then s.clashWalk key n
  else s.clashMove key n

/-- Whether the agent of a clash request still asks for the ring. -/
def State.clashAsks (s : State) (key code : Nat) : Bool :=
  let n := code % 4096
  if n = 0x230 then s.logPresent
  else if 512 ≤ n then (s.nearHead key (n - 0x220) true).isSome
  else if 4096 ≤ code then walkWants (s.core n).att key
  else (nextMove (s.core n).moveQ key).isSome

/-- Clash requests in ascending owner code, one unit each; one that cannot be served goes on waiting (DESIGN CHOICE, log entry 51). -/
def State.clashShares (s : State) (key left : Nat) (cs : List Nat) : State × Nat :=
  match cs with
  | [] => (s, 0)
  | c :: r =>
    if left = 0 then (s, 0)
    else
      let a := s.clashServe key c
      let s1 := if a.2 = 0 ∧ s.clashAsks key c then a.1 else a.1.updRing key fun x => { x with clashes := x.clashes.erase c }
      let b := s1.clashShares key (left - a.2) r
      (b.1, a.2 + b.2)

/-- Whether a walk that a fence waits for has not retired. -/
def State.walkHeld (s : State) (e : Nat × Nat) : Bool :=
  let a := (s.core e.1).att
  a.walk.isSome && a.walkSerial == e.2

/-- The markers of fences on their way to a Panel, in a host opening of a Seam port with d = 0 (R196 step 2). -/
def State.fenceSends (s : State) (port : Nat) : State :=
  let f (w : FenceWait) : FenceWait :=
    if w.panels.contains (port / 2) && !w.sent.contains port then { w with sent := w.sent ++ [port] } else w
  { s with host := { s.host with fences := s.host.fences.map f } }

/-- A Panel's report of a fence on its way to the Yoke (R196 step 5). -/
def State.fenceReports (s : State) (p : Nat) : State :=
  let f (w : FenceWait) : FenceWait :=
    if w.noted.contains p && !(w.cores.any fun e => e.1 / 64 == p && s.walkHeld e) then { w with panels := w.panels.erase p } else w
  { s with host := { s.host with fences := s.host.fences.map f } }

/-- SPECIFIC of a PAGE_RELEASE_FENCE (Table 14-16). -/
def fenceSpecific (isolated : BitVec 8) (walks ns : Nat) : Nat :=
  isolated.toNat * 2 ^ 40 + min walks 512 * 2 ^ 30 + min ns (2 ^ 30 - 1)

/-- Fences complete in submission order, once every Panel has reported or has been isolated (R196 step 6). -/
def State.fencesDone (fuel : Nat) (s : State) : State :=
  match fuel, s.host.fences with
  | k + 1, w :: rest =>
    if w.panels.isEmpty then
      let ns := s.now - w.startNs
      let s1 := { s with
        host := { s.host with fences := rest },
        yoke := { s.yoke with fenceIsolated := w.isolated, fenceLastNs := BitVec.ofNat 32 (min ns 0xFFFFFFFF) } }
      (match s1.descOf w.sq w.order with
        | some d => s1.complete w.sq d stOk (fenceSpecific w.isolated w.walks ns)
        | none => s1).fencesDone k
    else s
  | _, _ => s

/-! ### Refresh (R53, R225, R227, R256, R259) -/

/-- REFRESH_OPENING: one due refresh of the named group or pair, or idle (DEDUCED, log entry 24). -/
def State.refreshOpening (s0 : State) (cls inst : Nat) : State :=
  let key := ringKey cls inst
  let s := s0.settleRing key
  match s.openingAt key .refresh with
  | none => s
  | some slot =>
    if s.debtOf key = 0 then s.endOpening key .refresh false
    else
      let s1 :=
        if cls = 2 then
          let k := s.ringColumn key
          let c := s.column k
          s.setColumn k (c.pay (refreshTarget c.counts slot.owner))
        else s.updChan (inst / 20) (inst % 20) fun c => c.pay (refreshTarget c.pairCounts slot.owner)
      s1.endOpening key .refresh true

/-- A column refreshes itself while no order ring serves it (R227). -/
def State.selfRefreshes (s : State) (col : Nat) : Bool :=
  match s.slotOwner col with
  | some n => (s.entry n).state == .absent || !s.ringRuns (ringKey 2 n)
  | none => true

/-- POCKET_REFRESH_DUE: debt, or a refresh performed at once in group rotation (DEDUCED, log entry 24). -/
def State.pocketDue (s : State) (col : Nat) : State :=
  let c := s.column col
  if !(s.panel (col / 68)).powered then s
  else if s.selfRefreshes col then s.setColumn col ({ c with debt := c.debt + 1 } : Column).payAll
  else
    match s.slotOwner col with
    | some n => ((s.settleRing (ringKey 2 n)).setColumn col { (s.settleRing (ringKey 2 n)).column col with
        debt := ((s.settleRing (ringKey 2 n)).column col).debt + 1 }).payDue (ringKey 2 n)
    | none => s.setColumn col { c with debt := c.debt + 1 }

/-- CUFF_REFRESH_DUE for the logical channel in a slot, or from 16 on for a spare channel. Where no ring serves it, it performs every due
refresh at once (R259). -/
def State.cuffDue (s : State) (k slot : Nat) : State :=
  let key := ringKey 5 (20 * k + slot)
  if 16 ≤ slot then s.updCuff k fun c => c.spareDue (slot - 16)
  else if (s.chan k slot).state = .mappedOut ∨ !s.ringRuns key then
    (s.updChan k slot Channel.refreshDue).updChan k slot Channel.payAll
  else ((s.settleRing key).updChan k slot Channel.refreshDue).payDue key

/-! ### Switch-on (R52, R91, R325) -/

/-- The switch-ons that can start: a region whose REGION_OFF has still to take effect waits (DEDUCED, log entry 49). -/
def startable (r : Regions) : BitVec 4 := r.requested &&& ~~~r.offRequested

/-- A region starts its ramp. -/
def startRamp (r : Regions) (i : Nat) : Regions :=
  { r with
    requested := putBit r.requested i false,
    array := if i = 0 then .ramping else r.array, attention := if i = 1 then .ramping else r.attention,
    vector := if i = 2 then .ramping else r.vector, gather := if i = 3 then .ramping else r.gather }

/-- Every requested region starts its ramp (R91: at the boundary of a ring without a switch-on opening). -/
def startAll (r : Regions) : Regions := (setBits (startable r)).foldl startRamp r

def State.updRegions (s : State) (n : Nat) (f : Regions → Regions) : State :=
  let c := s.core n
  s.setCore n { c with regions := f c.regions }

/-- SWITCH_ON_OPENING: one pending region, the first in mask order. -/
def State.switchOnOpening (s0 : State) (n : Nat) : State :=
  let key := ringKey 2 n
  let s := s0.settleRing key
  match s.openingAt key .switchOn with
  | none => s
  | some _ =>
    match setBits (startable (s.core n).regions) with
    | [] => s.endOpening key .switchOn false
    | i :: _ => (s.updRegions n fun r => startRamp r i).endOpening key .switchOn true

/-- The ramp that began first in mask order ends. -/
def endRamp (r : Regions) : Regions :=
  if r.array = .ramping then { r with array := .on }
  else if r.attention = .ramping then { r with attention := .on }
  else if r.vector = .ramping then { r with vector := .on }
  else if r.gather = .ramping then { r with gather := .on }
  else r

/-- The regions of a core after ramps have ended: a switch-on that completes clears the vector registers and the user table (R135)
and the attention pipeline (R173). -/
def switchedOn (c : Core) (r : Regions) : Core :=
  { c with
    regions := r,
    att := if c.regions.attention ≠ .on ∧ r.attention = .on then attClear c.att else c.att,
    vec := if c.regions.vector ≠ .on ∧ r.vector = .on then vecClear c.vec else c.vec }

/-- The end of a ramp (R325). -/
def Local.rampEnd (l : Local) : Local := { l with core := switchedOn l.core (endRamp l.core.regions) }

/-! ### Scrub (R228 to R232, R260) -/

/-- The pass that works on a ring: the first in submission order with a part there. -/
def State.passOf (s : State) (key : Nat) : Option (Nat × ScrubPass) :=
  (s.scrubs.zipIdx.find? fun e => e.1.parts.any fun p => p.ring == key).map fun e => (e.2, e.1)

/-- A step's counts added to its pass, and its part moved on. -/
def ScrubPass.add (p : ScrubPass) (key now : Nat) (n : ScrubCounts) : ScrubPass :=
  let parts := p.parts.filterMap fun x =>
    if x.ring = key then (if x.next + 1 < x.stop then some { x with next := x.next + 1 } else none) else some x
  { p with
    parts := parts, startNs := some (p.startNs.getD now), endNs := now,
    firstUncorr := match p.firstUncorr with
      | some a => some a
      | none => n.firstUncorr,
    steps := p.steps + 1, corrected := p.corrected + n.corrected, uncorrectable := p.uncorrectable + n.uncorrectable,
    verifyFails := p.verifyFails + n.verifyFails, remapped := p.remapped + n.remapped, retired := p.retired + n.retired,
    wakes := p.wakes + n.wakes }

/-- A failed read-back of a scrub step (R260). -/
def State.capVerifyFails (s : State) (a : Nat) (syn : BitVec 16) (n : ScrubCounts) : State × ScrubCounts :=
  let k := s.capCuff a
  let slot := s.capSlot a
  let s1 := (s.updChan k slot fun c => c.countError s.now (s.windowNs k)).cuffNote k 0x32 slot a syn.toNat
  (s1.retrainTrigger k slot false, { n with verifyFails := n.verifyFails + 1 })

/-- One unit of a capacity-tier scrub step (R260): read, and where it is in error written back and read again. A channel that does not
answer reads as uncorrectable, discards the write-back, and fails the read-back (R265). -/
def State.capScrubUnit (s : State) (a : Nat) (n : ScrubCounts) : State × ScrubCounts :=
  let s1 := s.capRead a
  let lost := { n with uncorrectable := n.uncorrectable + 1, firstUncorr := some (n.firstUncorr.getD a) }
  if !s.capAnswers a then s1.discardUnit.capVerifyFails a (poisonSyn a) lost
  else
    match s.capSees a with
    | none => (s1, n)
    | some f =>
      let bad := capBad f
      let n1 := if bad then lost else { n with corrected := n.corrected + 1 }
      let s2 := (if bad then s1.setFault a .poison else s1.clearFault a).markRow a
      if s.cap.hard.contains a then
        let syn : BitVec 16 := match f with
          | .correctable y | .uncorrectable y => y
          | .poison => poisonSyn a
        s2.capVerifyFails a syn n1
      else (s2, n1)

/-- The units of one row of a channel (R245): data units 31r to 31r + 30. -/
def State.capScrubRow (s : State) (inst row : Nat) (n : ScrubCounts) : State × ScrubCounts :=
  let i := (s.cap.list.findIdx? fun x => x == inst).getD 0
  (List.range 31).foldl (fun (a : State × ScrubCounts) c => a.1.capScrubUnit (capUnitAddr s.cap.list i (31 * row + c)) a.2) (s, n)

/-- SCRUB_OPENING: one 2 KiB step of the pass that works here, one row of a mirror for which it pauses (R262, R277), or idle. -/
def State.scrubOpening (s0 : State) (cls inst : Nat) : State :=
  let key := ringKey cls inst
  let s := s0.settleRing key
  let copies := if cls = 5 then s.copying (inst / 20) (inst % 20) else none
  match s.openingAt key .scrub, copies with
  | none, _ => s
  | some _, some q =>
    if q.left = 0 then s.endOpening key .scrub false
    else (s.copyUnits (inst / 20) rowUnits).endOpening key .scrub true
  | some _, none =>
    match s.passOf key with
    | none => s.endOpening key .scrub false
    | some (i, p) =>
      let step := ((p.parts.find? fun x => x.ring == key).map (·.next)).getD 0
      let a : State × ScrubCounts :=
        if cls = 2 then
          let k := s.ringColumn key
          let r := (s.column k).scrubWords 32 (s.colSite k) (32 * step) ScrubCounts.zero
          let s1 := (s.setColumn k r.1.1).fileAll r.1.2
          (s1.changedBy (r.1.1.changes (s.column k)), r.2)
        else s.capScrubRow inst step ScrubCounts.zero
      let s1 := { a.1 with scrubs := modifyNth a.1.scrubs i fun p => p.add key s.now a.2 }
      s1.endOpening key .scrub true

/-! ### The error log's openings (R369 to R371) -/

/-- Records of a source that a log opening of the error-log ring can move. -/
def logReady (g : Nat) (x : LogSource) : Nat := if g < 8 then min x.crossed x.queue.length else x.queue.length

/-- Records moved from a source's release queue into the write queue of 512. -/
def State.moveRecords (s : State) (g units : Nat) : State × Nat :=
  let x := s.logSource g
  let n := min units (min (logReady g x) (512 - s.log.writes.length))
  if n = 0 then (s, 0)
  else
    let moved := x.queue.take n
    let s1 := { s with log := { s.log with writes := s.log.writes ++ moved } }
    (s1.setLogSource g (({ x with queue := x.queue.drop n, crossed := x.crossed - n } : LogSource).refill 64 g), n)

/-- LOG_OPENING of the error-log ring, of a Seam ring toward the Yoke, or of crossbar port 28; no record crosses another ring (R369). -/
def State.logOpening (s0 : State) (cls inst : Nat) : State :=
  let key := ringKey cls inst
  let s := s0.settleRing key
  match s.openingAt key .log with
  | none => s
  | some slot =>
    let a : State × Nat :=
      if cls = 7 then s.moveRecords slot.owner slot.units
      else if cls = 4 ∧ inst % 2 = 0 ∨ cls = 3 ∧ inst ≠ 28 then (s, 0)
      else if cls = 4 then
        let g := inst / 4
        let x := s.logSource g
        let n := min (2 * slot.units) (x.queue.length - x.crossed)
        (if n = 0 then s else s.setLogSource g { x with crossed := x.crossed + n }, n)
      else s.writeLog (2 * slot.units)
    a.1.endOpening key .log (a.2 != 0)

/-! ### Ring boundaries (R43, R55, R91, R240) -/

/-- SWAP_IN_MARGIN and SWAP_OUT_MARGIN in effect on a ring, clamped (Table 03-9). -/
def Ring.swapIn (r : Ring) : Nat := clampNat 2 20 (field r.coolNow 8 8).toNat
def Ring.swapOut (r : Ring) : Nat := min (r.swapIn - 1) (field r.coolNow 0 8).toNat
/-- DWELL in ns. -/
def Ring.dwellNs (r : Ring) : Nat := max 1 (field r.coolNow 16 8).toNat * 1000000

/-- The limit of a cool image: 85 °C for 1×, 95 °C for 2×. -/
def coolLimit (i : RingImage) : Nat := if i.mult = 0 then 85 else 95

/-- The start of the run of samples that meet the swap-in condition of a limit, after a sample of `t` °C. -/
def runSince (since : Option Nat) (now t margin limit : Nat) : Option Nat :=
  if t + margin ≤ limit then some (since.getD now) else none

/-- A sample of the hottest sensor of a ring's resource (R55). -/
def State.coolSample (s : State) (key : Nat) (t : Nat) : State :=
  s.updRing key fun r =>
    { r with coolSince := runSince r.coolSince s.now t r.swapIn 85, coolSince2 := runSince r.coolSince2 s.now t r.swapIn 95,
             hot := r.hot || (r.cool.any fun i => decide (coolLimit i ≤ t + r.swapOut)) }

/-- Since when every sample has met the swap-in condition of the cool image that a ring holds. -/
def Ring.coolRun (r : Ring) : Option Nat := r.cool.bind fun i => if i.mult = 0 then r.coolSince else r.coolSince2

/-- COOL_ENABLE. -/
def State.coolEnabled (s : State) : Bool := bit s.yoke.coolMode 0

/-- The image that a ring runs after a boundary. -/
def State.nextImage (s : State) (r : Ring) : ImageUse :=
  if r.toOpen then .opened
  else
    match r.use with
    | .opened => .opened
    | .normal =>
      match r.coolRun with
      | some t => if s.coolEnabled && decide (t + r.dwellNs ≤ s.now) then .cool else .normal
      | none => .normal
    | .cool => if s.coolEnabled && !r.hot then .cool else .normal

/-- PK_CTRL and PK_EXPERT take effect (R8, R240). -/
def State.applyColumn (s : State) (col : Nat) : State :=
  let c := s.column col
  s.setColumn col { c with ctrlNow := c.ctrl, expertNow := s.expert .pk c.expert 2 }

/-- The controls of every column that no ring serves take effect at once (R240). -/
def State.settleColumns (s : State) : State :=
  foldOver (s.columns.map (·.1)) (fun t k => if t.selfRefreshes k then t.applyColumn k else t) s

/-- What waits for a boundary of a ring takes effect: YK_COOL_EXPERT (R9), and at a Pocket ring its column's controls and, where the
image has no switch-on opening, every switch-on (R91). -/
def State.atBoundary (s : State) (key : Nat) : State :=
  let s1 := s.updRing key fun r => { r with coolNow := s.coolExpert }
  if ringClass key = 2 then
    let s2 := s1.applyColumn (s.ringColumn key)
    if (s1.ring key).hasSwitchOn key then s2 else s2.updRegions (ringInst key) startAll
  else s1

/-- RING_BOUNDARY: the ring leaves its last slot for slot 0, and what waits for a boundary takes effect. The swap decided at a boundary goes
by the margins and the dwell in effect before it; a YK_COOL_EXPERT that the same boundary brings into effect acts from the next one on
(R9, R55) (DESIGN CHOICE, log entry 32). -/
def State.ringBoundary (s0 : State) (cls inst : Nat) : State :=
  let key := ringKey cls inst
  let s := s0.settleRing key
  let r := s.ring key
  if s.ringRuns key && !s.ringHeld key && r.atEnd then
    ((s.setRing key ({ r with hot := false }.wrap s.now (s.nextImage r))).atBoundary key).settleRing key
  else s

/-! ### Stalls (R64) -/

/-- The stall limit in ns (Table 03-18). -/
def State.stallNs (s : State) : Nat := max 10000 s.yoke.turnStall.toNat

/-- A number of the active set whose core went dark, with no replay after its substitution (R362): its crossover core is idle. -/
def State.wentDark (s : State) (n : Nat) : Bool :=
  s.set.running && s.set.cores.contains n && (s.entry n).state == .crossover && (s.core n).seq.run == .idle

/-- Why an owner's slot waits: 1 PANEL_ABSENT, 2 CORE_DARK, 3 FAULTED, 0 WAITING. -/
def State.stallCause (s : State) (owner : Nat) : Nat :=
  if owner < 0x200 then
    if !s.panelAnswers (owner / 64) then 1
    else if (s.entry owner).state = .absent ∨ s.physState (s.physOf owner) = .dark ∨ s.wentDark owner then 2
    else if (s.core owner).seq.stoppedByFault then 3
    else 0
  else 0

/-- The source group of a ring's sequencer: its Panel, its Cuff (on the bus, the owner's), or the Yoke. -/
def ringGroup (key owner : Nat) : Nat :=
  match ringClass key with
  | 1 | 2 => ringInst key / 64
  | 5 => grpCuff (ringInst key / 20)
  | 6 => grpCuff (owner - 0x220)
  | _ => grpYoke

/-- TURN_STALL: an owner slot has waited past the limit; one record for as long as it waits. -/
def State.turnStall (s0 : State) (cls inst : Nat) : State :=
  let key := ringKey cls inst
  let s := s0.settleRing key
  let r := s.ring key
  match s.slotOf key with
  | some slot =>
    if slot.kind = .owner ∧ !r.stalled ∧ (s.ringTurn key || (s.ringRuns key && s.ringHeld key)) then
      let s1 := s.reach (r.waitSince + s.stallNs + 1)
      (s1.setRing key { r with stalled := true }).note 0x11 (ringGroup key slot.owner) inst slot.owner
        (cls * 256 + s.stallCause slot.owner)
    else s
  | none => s

end Sys2Proof.Machine
end

