-- ==== Sys2Proof/Machine/CoreLife.lean ====
section
/-!
DEFINITION. The life of cores and Panels: stopping at a HALT (R109, R147, R174, R195, R317), core values at LAUNCH (R42, R70, R84,
R90, R105, R135, R213), at a substitution, a replay and a rejoin; dark cores and the core map (R15 to R18, R361, R362, R397); lap
replay (R66); scratchpad bank retirement (R212); port retirement, Panel isolation and rejoin (R283 to R286).
-/

namespace Sys2Proof.Machine

/-! ### Stopping -/

/-- No unit but the move engine has work left. -/
def quiet (c : Core) : Bool :=
  c.arr.queue.isEmpty && c.arr.running.isNone && c.vec.queue.isEmpty && c.att.queue.isEmpty

/-- Regions that the heads of the queues need are on by the time those operations complete: a unit requests the switch-on that nothing else
has (R91), and the request is served. -/
def wakeFor (c : Core) : Core :=
  let r := autoWake c
  let m := headMask c
  switchedOn c
    { r with array := if bit m 0 then .on else r.array, attention := if bit m 1 then .on else r.attention,
             vector := if bit m 2 then .on else r.vector, gather := if bit m 3 then .on else r.gather,
             requested := r.requested &&& ~~~m }

/-- One round of every unit. -/
def Local.unitRound (l : Local) : Local :=
  l.vecDispatch.pump.frontStart.pump.passStart.pump.passEnd.pump.walkRetire.pump.scoreStage.pump.valueStage.pump

/-- The units complete what was issued (R109, R147, R174). The fuel bounds the rounds. -/
def Local.finish (fuel : Nat) (l : Local) : Local :=
  match fuel with
  | 0 => l
  | k + 1 => if quiet l.core then l else ({ l with core := wakeFor l.core } : Local).unitRound.finish k

/-- A core stops at a HALT: the gather queue flushes, issued operations complete, requests not yet presented are never
presented (a walk with reads left is abandoned), and an open sequence is abandoned (DEDUCED, log entry 23). -/
def Local.haltStop (l : Local) : Local :=
  let l1 := (l.arrUpd forceFlush).seqr fun s => { s with run := .idle }
  let l2 := l1.finish 65536
  let c := l2.core
  { l2 with core := { c with
      seq := { c.seq with run := .idle, stoppedByFault := false, lapRecordDue := false, replayMark := false },
      step := StepState.reset, moveQ := [], shown := [], att := attStart (walkAbandon c.att) } }

/-- The requests that a core has presented complete; a CREDIT_TAKE that waits for its window does not (R317 step 2). -/
def State.serveShown (s : State) (n : Nat) : State := foldOver (s.core n).shown (fun t key => (t.moveTurn key n false).1) s

/-- The active set stops (R317 steps 2 and 3). -/
def State.stopSet (s : State) : State :=
  { foldOver s.set.cores (fun t n => let t1 := t.serveShown n; t1.putLocal n (t1.localOf n).haltStop) s with credit := [] }

/-! ### A core's values at the points where it starts afresh -/

/-- Every unit's state as at a LAUNCH, a replay or a rejoin; counters and registers of the setup space kept. -/
def Core.fresh (c : Core) : Core :=
  { c with
    seq := { c.seq with regs := [], patterns := [], loops := [], priv := false, privDepth := 0, lapRecordDue := false,
                        replayMark := false },
    step := StepState.reset, moveQ := [], shown := [], arr := arrayStart c.arr, vec := { vecClear c.vec with queue := [] },
    att := attStart (walkAbandon c.att) }

/-- The step that begins at the core's position (R208). -/
def Core.firstStep (c : Core) : Core := { c with step := { StepState.reset with record := some (stepRecordOf c) } }

/-- A core at step 4 of a LAUNCH (R309): its entry word, and counters that restart. -/
def Core.launch (c : Core) (entry count now : Nat) (cache : List (Nat × CacheBlock)) : Core :=
  let e := wordIndex entry
  let k := c.fresh
  ({ k with
    seq := { k.seq with regionNow := k.seq.regionReg, run := .running, stoppedByFault := false, position := e, lastIssued := e,
                        wordCount := count, entry := e, lap := 0, markNew := ⟨0, e⟩,
                        markOld := ⟨0, e⟩, markTime := now, wordsIssued := 0, cache := cache },
    arr := arrayCountersZero k.arr, vec := VectorState.reset, att := attCountersZero k.att, regions := Regions.reset,
    scr := { k.scr with windowsNow := k.scr.windows, hostGroupsNow := k.scr.hostGroups, holders := [],
                        granted := [], waits := 0 } } : Core).firstStep

/-- SPARE_FOR of a physical core after its start-up self test (R212, Table 10-14). -/
def State.spareOf (s : State) (phys : Nat) : BitVec 8 := mapGet 0xFF s.map.failedBanks phys

/-- A crossover core that takes a logical number (R202, R362 step 4): the RW fields of the CO_ block, the windows' state, the mark register
and whether a roster fault has stopped the number (R59) are kept, all else is as after reset; its spare serves the bank that its own start-up self test found (R212)
(DEDUCED, log entry 41). -/
def Core.substitute (c : Core) (spare : BitVec 8) : Core :=
  let q := c.seq
  { Core.reset with
    seq := { Sequencer.reset with regionReg := q.regionReg, regionNow := q.regionNow, clashFault := q.clashFault,
                                  clashFaultNow := q.clashFaultNow, wordCount := q.wordCount, entry := q.entry, lap := q.lap,
                                  markNew := q.markNew, markOld := q.markOld, markTime := q.markTime,
                                  stoppedByFault := q.stoppedByFault },
    att := { AttState.reset with walkSerial := c.att.walkSerial + 1 },
    scr := { ScratchState.reset with spareFor := spare, hostGroups := c.scr.hostGroups, hostGroupsNow := c.scr.hostGroupsNow,
                                     windows := c.scr.windows, windowsNow := c.scr.windowsNow, holders := c.scr.holders,
                                     granted := c.scr.granted },
    ctrl := c.ctrl }

/-- A core re-initialised by a Panel's rejoin (R286 step 4): caches, registers and queues empty, regions on, windows its own. That a
roster fault has stopped it stays known until the HALT (R59). -/
def Core.reinit (c : Core) : Core :=
  let k := c.fresh
  { k with
    seq := { k.seq with run := .idle, cache := [] }, regions := { Regions.reset with autoWakes := c.regions.autoWakes },
    scr := { k.scr with badParity := [], holders := [], granted := [] } }

/-- The scratchpad of core `n` zero with valid parity (R202). -/
def State.fillScratch (s : State) (n : Nat) : State := { s with mem := memClear s.mem (scratchAddr n 0) (4 * scratchWords) }

/-! ### Filling the roster cache (R84) -/

/-- The roster cache filled with up to 16 blocks from the block that holds word `w`, to the end of the roster words; they take the block
numbers from 0 on in ascending order (DESIGN CHOICE, log entry 56). -/
def fillCache (mem : List Host.Cell) (bad : Nat → Bool) (n w last : Nat) : List (Nat × CacheBlock) :=
  let first := w / 256
  ((List.range 16).filter fun j => decide ((first + j) * 256 ≤ last)).map fun j =>
    let tag := (first + j) * 256
    let count := min 256 (last + 1 - tag)
    let addr := n * pocketSlotBytes + 16 * tag
    (j, ⟨tag, false, (chunks 16 256 (memRead mem addr (16 * count))).map fun b => BitVec.ofNat 128 (leNat b),
         (List.range count).filter fun i => bad (addr + 16 * i)⟩)

/-- The last roster word of a core's region. -/
def lastWord (q : Sequencer) : Nat := firstWord q + q.wordCount - 1

/-- The fill of core `n`'s cache from the block that holds word `w`, with what its reads find (R86). -/
def State.cacheFor (s : State) (n w last : Nat) : List (Nat × CacheBlock) :=
  let env := s.coreEnv n
  fillCache s.mem (unitBad env) n w last

/-- The banks of words `[lo, hi)` that are off wake (R234). -/
def Column.wakeRange (c : Column) (lo hi : Nat) : Column :=
  if c.banksOff = 0 then c else (List.range (hi - lo)).foldl (fun a i => a.wake (lo + i)) c

/-- The reads of a cache fill at the column (reader 1 of Table 11-3). -/
def State.noteFill (s0 : State) (n w last : Nat) : State :=
  let col := s0.columnOf n
  let lo := w / 256 * 64
  let hi := min (lo + 1024) (last / 4 + 1)
  let s := s0.onColumn col fun c _ => (c.wakeRange lo hi, [])
  foldOver ((s.column col).faults.map (·.1)) (fun t u =>
    if lo ≤ u ∧ u < hi then t.onColumn col fun c x => c.read x u 1 else t) s

/-! ### Lap replay (R66) -/

/-- Every ring instance of Table 03-1. -/
def allRings : List Nat :=
  ([1, 2, 3, 4, 5, 6, 7].flatMap fun cls => (List.range (ringInstances cls)).map fun i => ringKey cls i)

/-- A core restarts at its mark for lap L (R66 step 4): the mark's word, whose LAP_MARK counts as executed, or ENTRY for lap 0. A
cache block whose fill was withdrawn is being filled by nothing (R85). A lap record that is still due at the replay stays due (DESIGN
CHOICE, log entry 56). -/
def Core.restart (c : Core) (lap : Nat) (cache : List (Nat × CacheBlock)) : Core :=
  let w := if lap = 0 then c.seq.entry else if c.seq.markNew.lap.toNat = lap then c.seq.markNew.word else c.seq.markOld.word
  let k := c.fresh
  ({ k with seq := { k.seq with run := .running, position := w, lap := BitVec.ofNat 32 lap, replayMark := lap != 0,
                                lapRecordDue := c.seq.lapRecordDue,
                                cache := if c.seq.cache.isEmpty then cache else c.seq.cache.filter fun b => !b.2.filling } }
    : Core).firstStep

/-- The word at which a core restarts. -/
def restartWord (q : Sequencer) (lap : Nat) : Nat :=
  (if lap = 0 then q.entry else if q.markNew.lap.toNat = lap then q.markNew.word else q.markOld.word).toNat

/-- Core `n` of the set restarts, its cache filled where it is empty. -/
def State.restartCore (s : State) (lap n : Nat) : State :=
  let c := s.core n
  let w := restartWord c.seq lap
  if c.seq.cache.isEmpty then
    (s.noteFill n w (lastWord c.seq)).setCore n (c.restart lap (s.cacheFor n w (lastWord c.seq)))
  else s.setCore n (c.restart lap [])

/-- Cores of the set that a replay restarts: present on a Panel that answers. -/
def State.replayCores (s : State) : List Nat :=
  s.set.cores.filter fun n => s.panelAnswers (n / 64) && (s.entry n).state != .absent

/-- A HALT of the active set is in progress. -/
def State.haltInProgress (s : State) : Bool := s.set.running && s.haltWaits

/-- Whether the set can replay: it is replayable, no HALT is in progress (R363), no roster fault has stopped a core of it (R59), and none
of its numbers is absent (R362). -/
def State.canReplay (s : State) : Bool :=
  s.set.running && s.set.replayable && !s.haltInProgress
    && s.set.cores.all fun n => !(s.core n).seq.stoppedByFault && (s.entry n).state != .absent

/-- The set replays from the lowest lap of its rings (R66) (DEDUCED, log entry 41). -/
def State.lapReplay (s : State) (cause : Nat) : State :=
  if s.canReplay then
    let lap := if s.rings.any fun e => e.2.use != .opened then s.minLap else 0
    let s1 := { s with credit := [] }.noNear
    let s2 := foldOver allRings (fun t k => (t.drainRing k).updRing k fun r => r.replay lap t.now) s1
    (foldOver s.replayCores (fun t n => t.restartCore lap n) s2).note 0x12 grpYoke 0xFFF lap cause
  else s

/-! ### Dark cores (R15 to R18, R361, R362) -/

def State.setPhys (s : State) (k : Nat) (p : PhysState) : State := { s with map := { s.map with phys := mapPut s.map.phys k p } }

def State.setEntry (s : State) (n : Nat) (e : MapEntry) : State :=
  { s with map := { s.map with entries := mapPut s.map.entries n e } }

/-- A core cannot be used. -/
def physDark (p : PhysState) : Bool := p == .dark || p == .fusedDark

/-- The columns that the crossover core of a quadrant serves through its path: a substituted core's, and those of numbers that
became absent (R15, R17). -/
def State.servedColumns (s : State) (x : Nat) : List Nat :=
  ((List.range 64).map (· + 64 * (x / 68))).filterMap fun n =>
    let col := s.columnOf n
    if crossoverOf col = x ∧ ((s.entry n).state = .crossover ∨ s.map.keptSlots.contains n) then some col else none

/-- Scrub parts on a number that becomes absent, or on an isolated Panel, end; a pass that has ended on a Panel keeps that status. -/
def State.dropScrubParts (s : State) (gone : Nat → Bool) (status : Byte) : State :=
  let f (p : ScrubPass) : ScrubPass :=
    if p.parts.any fun x => gone x.ring then { p with parts := p.parts.filter fun x => !gone x.ring, status := if status = 0 then p.status else status } else p
  { s with scrubs := s.scrubs.map f }

/-- The CORE_DARK record (Table 17-7). -/
def State.darkRecord (s : State) (phys logical cause outcome : Nat) : State :=
  s.note 0x16 (phys / 68) (phys % 68) (logical + crossoverOf phys % 68 * 65536) (cause * 256 + outcome)

/-- A logical number becomes absent; its slot stays open to the hub DMA engines (R17, R18, R397). Its entry keeps the core and the column
that it named: for a crossover core that served it, that core and the column served (DESIGN CHOICE, log entry 52). -/
def State.makeAbsent (s : State) (n : Nat) (unreachable : List Nat) : State :=
  let e := s.entry n
  let s1 := s.setEntry n { e with state := .absent }
  let m := s1.map
  let s2 := { s1 with map := { m with keptSlots := m.keptSlots ++ [n],
                                      unreachable := m.unreachable ++ unreachable.filter fun c => !m.unreachable.contains c } }
  let c := s2.core n
  let s3 := s2.setCore n { c.fresh with seq := { c.fresh.seq with run := .stopped } }
  (s3.dropScrubParts (fun k => k == ringKey 2 n) 0).settleColumns

/-- The cores of a replayable set stop where no replay follows (R66, R362). -/
def State.stopReplayable (s : State) (n : Nat) : State :=
  if s.set.running && s.set.replayable && s.set.cores.contains n then
    foldOver s.set.cores (fun t m =>
      let c := t.core m
      t.setCore m { c.fresh with seq := { c.fresh.seq with run := .stopped } }) s
  else s

/-- A logical number whose core went dark and has no substitute, with its record. -/
def State.loseNumber (s : State) (phys n cause outcome : Nat) (unreachable : List Nat) : State :=
  ((s.makeAbsent n unreachable).darkRecord phys n cause outcome).stopReplayable n

/-- A physical core goes dark (R361, R362): the state, and whether a core of the set was substituted, which a replay follows. `selfTest`
is whether the crossover core passes its test (DEDUCED, log entry 41). -/
def State.goDark (s : State) (phys cause : Nat) (selfTest : Bool) : State × Bool :=
  let x := crossoverOf phys
  match s.physState phys with
  | .dark | .fusedDark => (s, false)
  | .inactive => ((s.setPhys phys .dark).darkRecord phys 0x1FF cause 3, false)
  | .active =>
    let s1 := s.setPhys phys .dark
    match s.logicalOf phys with
    | none => (s1, false)
    | some n =>
      let col := s.columnOf n
      if phys = x then (s1.loseNumber phys n cause 2 (x :: col :: s.servedColumns x), false)
      else if physDark (s.physState x) then (s1.loseNumber phys n cause 2 [col], false)
      else if s.physState x = .active then (s1.loseNumber phys n cause 1 [], false)
      else if selfTest then
        let e := s.entry n
        let s2 := ((s1.setPhys x .active).setEntry n ⟨.crossover, e.column, x % 68⟩).setCore n ((s1.core n).substitute (s.spareOf x))
        ((s2.fillScratch n).darkRecord phys n cause 0, s.set.cores.contains n)
      else ((s1.setPhys x .dark).loseNumber phys n cause 2 [col, x], false)

/-- A physical core goes dark, and what this changes of its logical core's states in the sparing map is counted (R385). -/
def State.darkenCore (s : State) (phys cause : Nat) (selfTest : Bool) : State × Bool :=
  let a := s.goDark phys cause selfTest
  (match s.logicalOf phys with
   | some n => a.1.changedBy (a.1.coreChanges s n)
   | none => a.1, a.2)

/-- CORE_SUBSTITUTION: a physical core goes dark (R361, R362), and the set replays (R66). -/
def State.darken (s : State) (phys cause : Nat) (selfTest : Bool) : State :=
  let a := s.darkenCore phys cause selfTest
  if a.2 then a.1.lapReplay cause else a.1

/-! ### Bank retirement (R212) -/

/-- BANK_RETIRE: with no set active, a marked bank moves to the spare, or the core darkens. -/
def State.bankRetire (s : State) (n : Nat) (selfTest : Bool) : State :=
  let c := s.core n
  if c.scr.pendingBank = 0xFF ∨ s.set.running ∨ (s.entry n).state = .absent then s
  else
    let b := c.scr.pendingBank
    let darkens := c.scr.spareFor != 0xFF
    let k := { c.scr with pendingBank := 0xFF, darkPending := false, spareFor := if darkens then c.scr.spareFor else b }
    let s1 := (s.setCore n { c with scr := k }).note 0x14 (n / 64) (s.entry n).phys b.toNat (if darkens then 1 else 0)
    if darkens then s1.darken (s.physOf n) 3 selfTest else (s1.setCore n (markBank (s1.core n))).changed

/-! ### Seam ports and Panels (R283 to R286) -/

def State.updPanel (s : State) (p : Nat) (f : Panel → Panel) : State := s.setPanel p (f (s.panel p))

/-- Ports of a Panel that are not retired. -/
def State.livePorts (s : State) (p : Nat) : List Nat := [2 * p, 2 * p + 1].filter fun n => (s.seam n).state != .retired

/-- Walks on a Panel retire without a report (R195). -/
def State.dropWalks (s : State) (p : Nat) : State :=
  foldOver ((List.range 64).map (· + 64 * p)) (fun t n =>
    let c := t.core n
    if c.att.walk.isSome then t.setCore n { c with att := walkAbandon c.att } else t) s

/-- BAR4 requests whose target lies on a Panel complete with all ones, or are discarded (R285). -/
def State.dropBar4 (s : State) (p : Nat) : State :=
  let toward (r : Bar4Request) : Bool :=
    (decide (r.addr < capBase) && r.addr / pocketSlotBytes / 64 == p)
      || (decide (scratchBase ≤ r.addr) && (r.addr - scratchBase) / scratchStride / 64 == p)
  let hits (x : HostRequest) : Bool := match x with
    | .access r => toward r
    | .doorbell _ _ _ _ => false
  foldOver (s.host.requests.filter hits) (fun t x => match x with
      | .access r => t.bar4Refuse r
      | .doorbell _ _ _ _ => t)
    { s with host := { s.host with requests := s.host.requests.filter fun x => !hits x } }

/-- Fences no longer wait for an isolated Panel (R196). -/
def State.dropFences (s : State) (p : Nat) : State :=
  let f (w : FenceWait) : FenceWait :=
    if w.panels.contains p then { w with panels := w.panels.erase p, isolated := putBit w.isolated p true } else w
  State.fencesDone s.host.fences.length { s with host := { s.host with fences := s.host.fences.map f } }

/-- PANEL_ISOLATION (R285); `lost` where the Panel's last port has retired (R283) (DEDUCED, log entry 40). -/
def State.isolate (s : State) (p cause : Nat) (lost : Bool) : State :=
  let st := (s.panel p).state
  if st = .isolated ∨ st = .lost then (if lost then s.updPanel p fun x => { x with state := .lost } else s)
  else
    let gone (m : CreditMessage) : Bool := m.target / 64 == p || m.other / 64 == p
    let s1 := { (s.dropBar4 p) with credit := s.credit.filter fun m => !gone m }
    let s2 := (s1.dropWalks p).updPanel p fun x =>
      { x with state := if lost then .lost else .isolated, isolations := satAdd x.isolations 1 }
    let s3 := foldOver (s2.livePorts p) (fun t n => (t.updSeam n fun x => { x with state := .down }).changedIf ((t.seam n).state != .down)) s2
    let s4 := s3.dropScrubParts (fun k => ringClass k == 2 && ringInst k / 64 == p) 2
    ((s4.dropFences p).note 0x41 grpYoke p 0 cause).settleColumns

def SeamPort.mod (p : SeamPort) (key : Nat) : SeamModule := mapGet SeamModule.reset p.modules key

def SeamPort.setMod (p : SeamPort) (key : Nat) (m : SeamModule) : SeamPort := { p with modules := mapPut p.modules key m }

/-- The flits of a module's retry buffer that its receiver has not taken, oldest first. -/
def SeamModule.untaken (m : SeamModule) : List (Nat × List Byte) :=
  m.buffer.drop (m.buffer.length - (m.next - m.expect).toNat) ++ m.held

/-- The sibling of a retired port sends the flits that the port's retry buffers hold before any other, and begins with its own images
(R63, R283 step 2). -/
def SeamPort.takeOver (p gone : SeamPort) : SeamPort :=
  (List.range 32).foldl (fun q key =>
      let held := (gone.mod key).untaken
      if held.isEmpty then q else q.setMod key { q.mod key with held := (q.mod key).held ++ held })
    { p with otherNext := [] }

/-- A port retires (R283): onto its sibling, or with the Panel's isolation where it is the last one (R284: by its strobe, or by its
retirement). -/
def State.retirePort (s : State) (port module cause : Nat) : State :=
  if (s.seam port).state = .retired then s
  else
    let p := port / 2
    let held := s.seam port
    let s0 := s.updSeam port fun x =>
      { x with state := .retired, module := BitVec.ofNat 4 module, cause := BitVec.ofNat 2 cause, modules := [] }
    let s1 := foldOver (s0.livePorts p) (fun t n => t.updSeam n fun x => x.takeOver held) s0
    let s2 := (s1.note 0x40 grpYoke port 0 (module * 256 + cause)).changed
    if (s2.livePorts p).isEmpty then s2.isolate p (if cause = 2 then 2 else 4) true else s2

/-- How a port fared in one attempt, applied where it still has to train. -/
def State.trainPort (s : State) (port : Nat) (t : PortTraining) : State :=
  if (s.seam port).state = .down then
    match t with
    | .trained => (s.updSeam port fun q => { q with state := .active, modules := [] }).changed
    | .failedLaneTest m => s.retirePort port m.val 3
    | .notTrained => s
  else s

/-- REJOIN_ATTEMPTS in effect; 0 acts as 1 (Table 13-11). -/
def State.rejoinAttempts (s : State) : Nat := max 1 (field s.seamExpert 8 3).toNat

/-- The attempts to train the ports of a Panel, up to REJOIN_ATTEMPTS, and the ports that trained (DEDUCED, log entry 40). -/
def State.trainPorts (s : State) (p : Nat) (attempts : List (PortTraining × PortTraining)) : State × List Nat :=
  let s1 := foldOver (attempts.take s.rejoinAttempts) (fun t a => (t.trainPort (2 * p) a.1).trainPort (2 * p + 1) a.2) s
  (s1, [2 * p, 2 * p + 1].filter fun n => (s1.seam n).state == .active)

/-- A core of a rejoining Panel re-initialises. -/
def State.reinitCore (s : State) (n : Nat) : State :=
  if (s.entry n).state = .absent then s else (s.setCore n (s.core n).reinit).fillScratch n

/-- Windows of a Panel's cores return to their own cores: grants of them elsewhere end (R286, Table 13-8). -/
def State.returnWindows (s : State) (p : Nat) : State :=
  { s with cores := s.cores.map fun e =>
      (e.1, { e.2 with scr := { e.2.scr with granted := e.2.scr.granted.filter fun g => g.1 / 64 != p } }) }

/-- Step 5 of a rejoin: the replay of a replayable set, unless a number of it became absent at step 4 (R66), then PRESENT and the record. A
rejoin that meets a HALT has ended with step 4 (Table 13-8). -/
def State.rejoinEnd (s : State) (p ports : Nat) (lost : Bool) : State :=
  if s.haltInProgress then s
  else
    let s1 := s.updPanel p fun x => { x with state := .present }
    ((if lost then s1 else s1.lapReplay 8).note 0x42 grpYoke p 0 ports)

/-- The Panels whose rejoin ended at step 4 run their rings once the HALT has completed (Table 13-8). -/
def State.admitPanels (s : State) : State :=
  foldOver (List.range 8) (fun t p => if (t.panel p).state = .rejoining then t.updPanel p (fun x => { x with state := .present }) else t) s

/-- PANEL_REJOIN (R286): training, the level check, the time sync, re-initialisation, self test, and the replay (DEDUCED, log
entry 40). -/
def State.rejoin (s : State) (p : PanelId) (attempts : List (PortTraining × PortTraining)) (level : BitVec 2) (failed : List (CoreId × Bool)) :
    State :=
  let x := s.panel p.val
  if x.state = .isolated ∧ x.powered then
    let s0 := s.updPanel p.val fun x => { x with state := .rejoining }
    let a := s0.trainPorts p.val attempts
    if a.2.isEmpty then
      if (a.1.panel p.val).state = .lost then a.1 else a.1.isolate p.val 5 false
    else if level ≠ x.feature then
      (a.1.updPanel p.val fun x => { x with state := .lost }).note 0x43 grpYoke p.val 0
        (Config.pairField x.feature.toNat level.toNat).toNat
    else
      let cores := (List.range 64).map (· + 64 * p.val)
      let s1 := { a.1 with time := { a.1.time with synced := mapPut a.1.time.synced p.val a.1.now } }
      let s2 := (foldOver cores State.reinitCore s1).returnWindows p.val
      let s3 := foldOver (failed.filter fun n => n.1.val / 64 == p.val) (fun t n => (t.darkenCore (t.physOf n.1.val) 4 n.2).1) s2
      s3.rejoinEnd p.val a.2.length (s.set.cores.any fun n => n / 64 == p.val && (s.entry n).state != .absent && (s3.entry n).state == .absent)
  else s

end Sys2Proof.Machine
end

