-- ==== Sys2Proof/Machine/CuffEvents.lean ====
section
/-!
DEFINITION. The rows of the Cuffs (12): package temperature (R255), link flits and lane tests (R252, R253), retraining (R261, R262),
dead channels (R265), near-memory commands (R267) and the Cuff bus (R275).
-/

namespace Sys2Proof.Machine

/-! ### Temperature -/

/-- The channel rings that a package serves take its temperature as a sample (R55). -/
def State.coolChannels (s : State) (k pkg t : Nat) : State :=
  foldOver (List.range 16) (fun u n => if (s.chan k n).servedBy pkg then u.coolSample (ringKey 5 (20 * k + n)) t else u) s

/-- PACKAGE_TEMP_READ (R255); a package whose field cannot be read gives R55 no sample. -/
def execPackageTempRead (k : CuffId) (pkg : Fin 5) (reading : TempField) (s : State) : Host.Outcome State Fault Refusal :=
  let row := reading.map (·.val)
  let s1 := s.packageTemp k.val pkg.val row
  .next (match row with
    | some i => s1.coolChannels k.val pkg.val (tempRow i).1
    | none => s1)

/-! ### The link -/

/-- Bytes of a flit before its CRC: the header and 8 units (R252). -/
def linkFlitBytes : Nat := 516

/-- A flit passes the receiver's check (DESIGN CHOICE, log entry 18). -/
def linkFlitGood (bytes : List Byte) (crc : Word) : Bool := bytes.length == linkFlitBytes && Config.cuffCrc bytes == crc

/-- CUFF_LINK_FLIT (R252): the sender's next flit goes into its retry buffer of 64 flits, behind those that wait there; the oldest flit of
the buffer crosses the link, accepted, or discarded and kept for its replay (DESIGN CHOICE, log entry 18). -/
def State.linkFlit (s : State) (k : Nat) (flit : Option (List Byte)) (good : Bool) : State :=
  if s.cuffGone k then s
  else
    let held := (s.cuff k).retry
    let sent := if held.length < 64 then held ++ flit.toList else held
    if sent.isEmpty then s
    else if good then s.updCuff k fun c => { c with linkSeq := c.linkSeq + 1, replays := 0, retry := sent.drop 1 }
    else s.updCuff k fun c => { c with linkRetries := satAdd c.linkRetries 1, replays := c.replays + 1, retry := sent }

/-- CUFF_LINK_FLIT. -/
def execCuffLinkFlit (k : CuffId) (flit : LinkFlit) (crc : Word) (s : State) : Host.Outcome State Fault Refusal :=
  .next (s.linkFlit k.val flit.fresh (linkFlitGood flit.received crc))

/-- LINK_LANE_TEST (R253, R254): whether the low and the high half of the lanes pass. -/
def execLinkLaneTest (k : CuffId) (low high : Bool) (s : State) : Host.Outcome State Fault Refusal :=
  .next (if s.cuffGone k.val then s else (s.laneTest k.val low high).nearGone k.val)

/-! ### Channels -/

/-- RETRAIN_TRIGGER (R261): `drift` is a delay outside its correctable range. -/
def execRetrainTrigger (k : CuffId) (slot : Fin 16) (drift : Bool) (s : State) : Host.Outcome State Fault Refusal :=
  .next (s.retrainTrigger k.val slot.val drift)

/-- RETRAIN_START (R262 to R264): the first waiting sequence begins; `passes` is whether its retraining in step 4 passes. -/
def execRetrainStart (k : CuffId) (passes : Bool) (s : State) : Host.Outcome State Fault Refusal :=
  .next (s.retrainStart k.val passes)

/-- CHANNEL_DEAD (R265). -/
def execChannelDead (k : CuffId) (slot : Fin 16) (s : State) : Host.Outcome State Fault Refusal :=
  .next (s.channelDies k.val slot.val)

/-! ### Near memory -/

/-- NEAR_OP_COMMAND (R267 to R272). -/
def execNearOpCommand (k : CuffId) (s : State) : Host.Outcome State Fault Refusal :=
  .next (if s.isUp then s.nearCommand k.val else s)

/-- Cuff `k` has the slot of the Cuff bus and a unit to send under the lap tag of R48. -/
def State.busReady (s : State) (k : Nat) : Bool :=
  let key := ringKey 6 0
  s.ringTurn key && s.nearPresent key k
    && match s.slotOf key with
      | some x => x.kind == .owner && x.owner == 0x220 + k
      | none => false

/-- CUFF_BUS_TRANSFER (R275): one unit in the Cuff's slot, with the resends of failed checks. -/
def State.busTransfer (s0 : State) (k resends : Nat) : State :=
  let key := ringKey 6 0
  let s := s0.settleRing key
  if s.busReady k then
    let s1 := s.updCuff k fun c => { c with busRetries := satAdd c.busRetries resends }
    let s2 := if 16 ≤ resends then s1.cuffNote k 0x39 0xFFF 0 resends else s1
    let s3 := (s2.nearUnit key k false).1.useSlot key 1 false
    (if slotMoved (s.ring key) (s3.ring key) then s3.countNearTurn key k else s3).settleRing key
  else s

/-- CUFF_BUS_TRANSFER. -/
def execCuffBusTransfer (k : CuffId) (resends : Nat) (s : State) : Host.Outcome State Fault Refusal :=
  .next (s.busTransfer k.val resends)

end Sys2Proof.Machine
end

