-- ==== Sys2Proof/Machine/SeamEvents.lean ====
section
/-!
DEFINITION. The rows of the Seams (13) and of the timebase (02): flits with their CRC-16 and SEQ (R282), time sync (R38), port
retirement (R283), strobe and PLL loss (R283, R284), rejoin (R286), fence markers (R196), and loss of the reference (R39).
-/

namespace Sys2Proof.Machine

/-! ### CRC-16 (Table 13-2) -/

/-- One bit of the CRC-16 of polynomial 0x8BB7, most significant bit first. -/
def crcBit (c : BitVec 16) : BitVec 16 := if bit c 15 then (c <<< 1) ^^^ 0x8BB7#16 else c <<< 1

/-- One byte. -/
def crcByte (c : BitVec 16) (b : Byte) : BitVec 16 :=
  crcBit (crcBit (crcBit (crcBit (crcBit (crcBit (crcBit (crcBit (c ^^^ (b.zeroExtend 16 <<< 8)))))))))

/-- The CRC of a run of bytes, from 0xFFFF (DEDUCED, log entry 25). -/
def crc16 (bs : List Byte) : BitVec 16 := bs.foldl crcByte 0xFFFF#16

/-- Bits [15:0] of a flit's sideband word: SEQ, KIND, ACK_SEQ (DEDUCED, log entry 25). -/
def flitSideband (f : SeamFlit) : Nat := f.seq.toNat * 256 + f.kind.toNat * 16 + f.ackSeq.toNat

/-- The bytes that a flit's CRC covers: the payload, then bits [15:0] of its sideband word (DEDUCED, log entry 25). -/
def flitCovered (f : SeamFlit) : List Byte := f.payload ++ leBytes 2 (flitSideband f)

/-! ### One module of a port -/

/-- The key of a module in the flit's direction, and of the same module on the reverse link. -/
def flitKey (f : SeamFlit) : Nat := 2 * f.module.val + (if f.up then 1 else 0)
def flitReverseKey (f : SeamFlit) : Nat := 2 * f.module.val + (if f.up then 0 else 1)

/-- A flit passes both checks of R282, and its KIND is no reserved one. -/
def flitPasses (f : SeamFlit) (kind : Nat) (m : SeamModule) : Bool :=
  f.payload.length == 64 && f.kind.toNat == kind && crc16 (flitCovered f) == f.crc && f.seq == m.expect

/-- A new flit leaves its sender; it stands among the last 64 in the retry buffer. -/
def SeamModule.put (m : SeamModule) (x : Nat × List Byte) : SeamModule :=
  let b := m.buffer ++ [x]
  { m with next := m.next + 1, buffer := b.drop (b.length - 64) }

/-- The sender's next flit: one to be sent again, else one held for the retired sibling, else the row's new one. A NAK that goes out is no
longer owed. -/
def SeamModule.send (m : SeamModule) (x : Nat × List Byte) : SeamModule :=
  if m.resend ≠ 0 then { m with resend := m.resend - 1 }
  else match m.held with
    | h :: rest => { m.put h with held := rest }
    | [] => { m.put x with nak := m.nak && x.1 != 3 }

/-- A flit taken in order. -/
def SeamModule.accept (m : SeamModule) : SeamModule := { m with expect := m.expect + 1, failures := 0 }

/-- The SEQ that the sender has given to its next flit. -/
def SeamModule.sending (m : SeamModule) : BitVec 8 := m.next - BitVec.ofNat 8 m.resend

/-- A flit that fails a check is discarded. Only the flit that the receiver waits for is one that fails again; those behind it are out of
order (R283). -/
def SeamModule.reject (m : SeamModule) (awaited : Bool) : SeamModule :=
  { m with failures := if awaited then m.failures + 1 else m.failures }

/-- A NAK makes the sender send again every flit after the one that ACK_SEQ, which gives its number mod 16, names: the last one that the
receiver has taken. -/
def SeamModule.goBack (m : SeamModule) (ack : BitVec 4) : SeamModule :=
  let low := (m.next.toNat + 31 - ack.toNat) % 16
  let far := (m.next - m.expect).toNat
  { m with resend := min m.buffer.length (if far % 16 = low then far else low) }

/-! ### Arrival of a flit -/

/-- The receiver takes flits of a port: it is ACTIVE, on a Panel that is not isolated. -/
def State.takesFlits (s : State) (f : SeamFlit) : Bool :=
  (s.seam f.port.val).state == .active && s.panelAnswers (f.port.val / 2)

/-- A flit leaves its sender, is checked, and does what its kind does once it has passed; after a failed check, a NAK is owed on the
reverse link. -/
def State.flit (s : State) (f : SeamFlit) (kind : Nat) (act : State → State) : State :=
  if s.takesFlits f then
    let p := s.seam f.port.val
    let m0 := p.mod (flitKey f)
    let m := m0.send (kind, f.fresh)
    if flitPasses f kind m then act (s.setSeam f.port.val (p.setMod (flitKey f) m.accept))
    else
      let p1 := p.setMod (flitKey f) (m.reject (m0.sending == m0.expect))
      s.setSeam f.port.val (p1.setMod (flitReverseKey f) { p1.mod (flitReverseKey f) with nak := true })
  else s

/-- The sender on the reverse link replays, and REPLAYS counts (R282). -/
def State.seamReplay (s : State) (f : SeamFlit) : State :=
  s.updSeam f.port.val fun p =>
    { p.setMod (flitReverseKey f) ((p.mod (flitReverseKey f)).goBack f.ackSeq) with replays := satAdd p.replays 1 }

/-- A Panel's follower takes the Yoke's counter (R38). -/
def State.syncPanel (s : State) (p : Nat) : State :=
  { s with time := { s.time with synced := mapPut s.time.synced p s.now } }

/-- DATA (R282). -/
def execData (f : SeamFlit) (s : State) : Host.Outcome State Fault Refusal := .next (s.flit f 0 id)

/-- IDLE (R282). -/
def execIdle (f : SeamFlit) (s : State) : Host.Outcome State Fault Refusal := .next (s.flit f 1 id)

/-- ACK (R282): receipt in order needs nothing of the sender, whose buffer keeps the last 64 flits. -/
def execAck (f : SeamFlit) (s : State) : Host.Outcome State Fault Refusal := .next (s.flit f 2 id)

/-- NAK (R282). -/
def execNak (f : SeamFlit) (s : State) : Host.Outcome State Fault Refusal := .next (s.flit f 3 fun t => t.seamReplay f)

/-- TIME_SYNC (R38), from the Yoke to a Panel. -/
def execTimeSync (f : SeamFlit) (s : State) : Host.Outcome State Fault Refusal :=
  .next (s.flit f 4 fun t => if f.up then t else t.syncPanel (f.port.val / 2))

/-- TRAIN (R282, R286): checked; what training finds is in the rows that train (PANEL_REJOIN, POWER_STAGE_ENABLE). -/
def execTrain (f : SeamFlit) (s : State) : Host.Outcome State Fault Refusal := .next (s.flit f 5 id)

/-! ### Ports and Panels -/

/-- RETIRE_REPLAYS in effect, 2 to 32 (Table 13-11). -/
def State.retireReplays (s : State) : Nat := clampNat 2 32 (field s.seamExpert 0 6).toNat

/-- A module's flit has failed its check RETIRE_REPLAYS times in a row, in either direction. -/
def State.replaysReached (s : State) (port module : Nat) : Bool :=
  let p := s.seam port
  decide (s.retireReplays ≤ (p.mod (2 * module)).failures) || decide (s.retireReplays ≤ (p.mod (2 * module + 1)).failures)

/-- SEAM_PORT_RETIRE (R283). -/
def execSeamPortRetire (port : PortId) (module : Fin 16) (cause : RetireCause) (s : State) : Host.Outcome State Fault Refusal :=
  .next (match cause with
    | .replays => if s.replaysReached port.val module.val then s.retirePort port.val module.val 1 else s
    | .laneTest => s.retirePort port.val module.val 3)

/-- STROBE_LOSS (R283, R284). -/
def execStrobeLoss (port : PortId) (module : Fin 16) (s : State) : Host.Outcome State Fault Refusal :=
  .next (s.retirePort port.val module.val 2)

/-- SEAM_PLL_LOSS (R284). -/
def execSeamPllLoss (p : PanelId) (s : State) : Host.Outcome State Fault Refusal := .next (s.isolate p.val 3 false)

/-- REJOIN_AUTO (Table 13-10). -/
def State.rejoinAuto (s : State) : Bool := bit s.yoke.seamCtrl 0

/-- PANEL_REJOIN (R286): with REJOIN_AUTO = 1, as soon as an isolated Panel is out of reset and powered. -/
def execPanelRejoin (p : PanelId) (port0 port1 : List PortTraining) (level : BitVec 2) (failed : List (CoreId × Bool)) (s : State) :
    Host.Outcome State Fault Refusal :=
  .next (if s.rejoinAuto then s.rejoin p (port0.zip port1) level failed else s)

/-! ### Fence markers (R196) -/

/-- The cores of a Panel that have a walk, each with its count of retired walks. -/
def State.walking (s : State) (p : Nat) : List (Nat × Nat) :=
  ((List.range 64).map (· + 64 * p)).filterMap fun n =>
    let a := (s.core n).att
    if a.walk.isSome then some (n, a.walkSerial) else none

/-- A fence's marker reaches a Panel. -/
def FenceWait.mark (w : FenceWait) (p : Nat) (walks : List (Nat × Nat)) : FenceWait :=
  { w with noted := w.noted ++ [p], cores := w.cores ++ walks, walks := w.walks + walks.length }

/-- FENCE_MARKER: the marker of the oldest fence that has been sent on both Seam ports of the Panel and has not reached it. -/
def State.fenceMarker (s : State) (p : Nat) : State :=
  match s.host.fences.findIdx? fun w => w.panels.contains p && w.sent.contains (2 * p) && w.sent.contains (2 * p + 1) && !w.noted.contains p with
  | some i =>
    if s.panelAnswers p then
      { s with host := { s.host with fences := modifyNth s.host.fences i fun w => w.mark p (s.walking p) } }
    else s
  | none => s

/-- FENCE_MARKER (R196 steps 2 and 3). -/
def execFenceMarker (p : PanelId) (s : State) : Host.Outcome State Fault Refusal := .next (s.fenceMarker p.val)

/-! ### The reference -/

/-- REF_LOSS (R39): the backup oscillator stays in use until the next cold reset. -/
def State.refLoss (s : State) : State :=
  { s with time := { s.time with refLost := true, refLosses := satAdd s.time.refLosses 1 } }.note 0x08 grpYoke 0xFFF 0 0

/-- REF_LOSS. -/
def execRefLoss (s : State) : Host.Outcome State Fault Refusal := .next s.refLoss

end Sys2Proof.Machine
end

