-- ==== Sys2Proof/Machine/Resets.lean ====
section
/-!
DEFINITION. The reset kinds of Table 15-5: cold reset with what flash, fuses and standby power keep (R333, R337), the boot of a
firmware component (R376, R377), host reset and function-level reset (R334), Panel reset and Panel power cycle (R335).
-/

namespace Sys2Proof.Machine

/-! ### Firmware at boot (R376, R377) -/

def State.fw (s : State) (c : Nat) : Firmware := mapGet Firmware.reset s.mgmt.firmware c
def State.setFw (s : State) (c : Nat) (f : Firmware) : State :=
  { s with mgmt := { s.mgmt with firmware := mapPut s.mgmt.firmware c f } }

/-- The image of a bank (true for B), where it may run: its SVN is at least the anti-rollback counter. -/
def Firmware.image (f : Firmware) (b : Bool) : Option FwImage :=
  match if b then f.bankB else f.bankA with
  | some i => if f.counter ≤ i.svn.toNat then some i else none
  | none => none

/-- The image that runs. -/
def Firmware.now (f : Firmware) : Option FwImage := f.running.bind fun b => if b then f.bankB else f.bankA

/-- A component boots from the pending or active bank, else from the other; none where both fail. -/
def Firmware.boot (f : Firmware) : Firmware :=
  if (f.image f.activeB).isSome then { f with running := some f.activeB, pending := false }
  else if (f.image (!f.activeB)).isSome then { f with running := some (!f.activeB), activeB := !f.activeB, pending := false }
  else { f with running := none }

/-- A component boots; the second part says whether it started. FW_VERIFY_FAIL names one that did not. -/
def State.bootFw (s : State) (c : Nat) : State × Bool :=
  let f := (s.fw c).boot
  let s1 := s.setFw c f
  if f.running.isSome then (s1, true) else (s1.event .fwVerifyFail c 0, false)

/-! ### Cold reset (R333) -/

/-- Sensors that run from standby power: remote diodes, thermistors, flow (R343). -/
def standbySensor (k : Nat) : Bool := decide (k < 36) || decide (0x3000 ≤ k)

/-- Thermal state after a cold reset: readings of the standby sensors, with validity decided afresh (R345), and what the Collar
keeps in flash (R350, R353, R355). Counts of cycles are saved at the removal of the enable and start afresh. -/
def Thermal.cold (t : Thermal) : Thermal :=
  let c := t.cycles.map fun e => (e.1, { e.2 with started := false })
  { Thermal.reset with
    sensors := (t.sensors.filter fun e => standbySensor e.1).map fun e => (e.1, { e.2 with invalid := false }),
    baseL := t.baseL, baseD := t.baseD, cycles := c, saved := c, lastSave := 0, shutdowns := t.shutdowns,
    lastDiode := t.lastDiode, latched := t.latched, tripPeak := t.tripPeak, trips := t.trips, held := t.held,
    restart := t.restart, inletOut := t.inletOut, flowOut := t.flowOut }

/-- What the Collar keeps of the Yoke's report when the power stage goes off. -/
def State.holdMeasurements (s : State) : Option Held :=
  if s.power.stage then
    some ⟨[2, 3, 4, 5].filterMap fun c => ((s.fw c).now).map fun i => (c, i.digest), s.mgmt.digest, s.mgmt.record, s.yoke.level⟩
  else s.mgmt.held

/-- Management state after a cold reset: flash, fuses and the strap stay; no component runs (DEDUCED, log entry 44). -/
def Mgmt.cold (m : Mgmt) (held : Option Held) : Mgmt :=
  { Mgmt.reset with
    held := held,
    debugLocked := m.debugLocked, strap := m.strap, tagBytes := m.tagBytes, tagLocked := m.tagLocked, tagWrites := m.tagWrites,
    firmware := m.firmware.map (fun e => (e.1, { e.2 with running := none })), revoked := m.revoked }

/-- Power state after a cold reset: the inputs and the bump calibration in flash stay. -/
def Power.cold (p : Power) : Power :=
  { Power.reset with standby := p.standby, jIn := p.jIn, barred := p.barred, bumpCal := p.bumpCal }

/-- Step 1 of start-up: the Collar boots from standby power, or stays in recovery. -/
def State.bootCollar (s : State) : State :=
  if s.power.standby then
    let a := s.bootFw 1
    { a.1 with power := { a.1.power with step := if a.2 then 1 else 0 }, mgmt := { a.1.mgmt with recovery := !a.2 } }
  else s

/-- Every die's logic resets and no memory is kept; the queue of commands and what the device has put out are not its state
(DEDUCED, log entry 44). -/
def State.coldBase (s : State) : State :=
  let hard := s.cap.hard
  { State.reset with
    pending := s.pending, out := s.out, freeTick := s.freeTick,
    columns := s.columns.map fun e => (e.1, e.2.cold),
    cap := { CapTier.reset with hard := hard, faults := s.cap.faults.filter fun e => hard.contains e.1 && e.2 != .poison },
    host := { HostIf.reset with perst := s.host.perst },
    power := s.power.cold, thermal := s.thermal.cold, mgmt := s.mgmt.cold s.holdMeasurements }

/-- A cold reset, after which the Collar boots again. -/
def State.coldReset (s : State) : State := s.coldBase.bootCollar

/-- The power stage's enable is removed, and the module stays off where a fault bars it (R320, R327, R349). -/
def State.removeEnable (s : State) (barred : Bool) : State :=
  State.coldReset { s with power := { s.power with barred := s.power.barred || barred } }

/-! ### Host reset and function-level reset (R334) -/

/-- Started COPY descriptors whose transfer has not begun. -/
def State.startedCopies (s : State) : List (Nat × Desc) :=
  s.host.sqs.flatMap fun e => (e.2.descs.filter fun d => d.started && d.opcode == opCopy
    && !s.host.transfers.any fun t => !t.orphan && t.q == e.1 && t.desc.order == d.order).map fun d => (e.1, d)

/-- The cores whose roster a lost LOAD_ROSTER was writing. -/
def HostIf.halfLoaded (h : HostIf) : List Nat := (h.transfers.filter Transfer.loads).map fun t => t.desc.get 176 9

/-- The host queue engine's registers and queues reset: ring registers, BAR4 window, YK_HQ_STATUS, MSI-X table. -/
def HostIf.hostReset (h : HostIf) (orphans : List (Nat × Desc)) : HostIf :=
  { HostIf.reset with
    hqCtrl := h.hqCtrl, hqExpert := h.hqExpert, busy := h.busy, halted := h.halted, linkUp := h.linkUp, linkWidth := h.linkWidth,
    linkRate := h.linkRate, perst := h.perst, orphans := orphans,
    transfers := (h.transfers.filter fun t => !t.loads).map fun t => { t with orphan := true } }

/-- The active set stops without a completion, and every ring heads back to its open image. -/
def State.stopQuietly (s : State) : State :=
  if s.set.running then { s.stopSet.releaseRings.unloadImages.admitPanels with set := ActiveSet.none } else s

/-- What a host reset and a function-level reset do alike; a roster that was being written counts as not loaded (R307) (DESIGN CHOICE, log
entry 47). -/
def State.hostResetBase (s : State) (kind : Byte) : State :=
  let s1 := foldOver s.host.halfLoaded (fun t n => t.markRoster n true) s.stopQuietly
  { s1 with
    host := s1.host.hostReset (s1.host.orphans ++ s1.startedCopies), scrubs := [],
    time := { s1.time with pcie := Latches.reset },
    power := { s1.power with lastReset := kind, foldBy := none, wakeAsked := false,
                             fold := if s1.power.fold = .entering then .running else s1.power.fold } }

/-- A host reset takes the link down; PERST# stays asserted until its deassertion. -/
def State.hostReset (s : State) (kind : HostResetKind) : State :=
  let s1 := s.hostResetBase 2
  { s1 with host := { s1.host with linkUp := false, perst := s1.host.perst || kind == .perst } }

/-! ### Panel reset and Panel power cycle (R335) -/

/-- A core's block after a Panel reset: RW fields as in the shadow, the spare bank that self test chose, the marks; status fields
and counters at their reset values. -/
def Core.panelReset (c : Core) : Core :=
  let k := c.substitute c.scr.spareFor
  { k with seq := { k.seq with run := .idle }, scr := { k.scr with holders := [], granted := [] } }

/-- The logical cores of a Panel. -/
def panelCores (p : Nat) : List Nat := (List.range 64).map (· + 64 * p)

/-- The cores of a Panel reset. -/
def State.resetCores (s : State) (p : Nat) : State :=
  foldOver (panelCores p) (fun t n => if (t.entry n).state = .absent then t else t.setCore n (t.core n).panelReset) s

/-- Panel reset: the Panel is isolated and its cores reset. -/
def State.panelReset (s : State) (p : Nat) : State :=
  let s1 := (s.isolate p 1 false).resetCores p
  { s1 with power := { s1.power with lastReset := 4 } }

/-- The Panel's Pocket slots zero. -/
def State.clearPanel (s : State) (p : Nat) : State :=
  { s with mem := memClear s.mem (64 * p * pocketSlotBytes) (64 * pocketSlotBytes) }

/-- Panel power cycle: as a Panel reset, with every part of the Panel reset and its Pocket filled. -/
def State.panelCycle (s : State) (p : Nat) : State :=
  let s1 := ((s.isolate p 1 false).resetCores p).clearPanel p
  let refill (e : Nat × Column) : Nat × Column := if e.1 / 68 = p then (e.1, e.2.fill) else e
  let s2 : State := ({ s1 with columns := s1.columns.map refill } : State).changedBy
    (s1.columns.map fun e => (refill e).2.changes e.2).sum
  let s3 := s2.updPanel p fun x => { x with clashCount := 0 }
  { s3 with power := { s3.power with lastReset := 5 } }

/-- The power stage runs and the Panels are powered (start-up step 5 has ended). -/
def State.panelsUp (s : State) : Bool := s.power.stage && decide (5 ≤ s.power.step)

/-- A Panel power cycle; one requested in Fold waits for the wake (R341). -/
def State.cyclePanel (s : State) (p : Nat) : State :=
  if !s.panelsUp then s
  else if s.power.fold = .running then s.panelCycle p
  else { s with power := { s.power with deferred := if s.power.deferred.contains p then s.power.deferred else s.power.deferred ++ [p] } }

/-- A Panel reset of a started module. -/
def State.resetPanel (s : State) (p : Nat) : State := if s.panelsUp then s.panelReset p else s

end Sys2Proof.Machine
end

