-- ==== Sys2Proof/Machine/FoldOps.lean ====
section
/-!
DEFINITION. Fold (R338 to R341): entry once every started descriptor has completed, and the wake.
-/

namespace Sys2Proof.Machine

/-! ### Supply settings (R322, Tables 15-7 and 15-12) -/

/-- The core supply that CORE_POINT names; 0b111 acts as 0b100. -/
def pointMv (p : Nat) : Nat := if p = 7 then 750 else 550 + 50 * p

/-- The supply of a step code; 31 acts as 30. -/
def stepMv (n : Nat) : Nat := 550 + 10 * min n 30

/-- The settings of core, Yoke and Cuff supplies: PW_SUPPLY_EXPERT where it took effect, in expert mode, at the last
CAP_PERIOD (R9, R342), else PW_CTRL. -/
def State.coreSetting (s : State) : Nat :=
  if s.power.expertActs then stepMv (field s.power.supplyNow 0 5).toNat else pointMv (field s.power.ctrl 0 3).toNat
def State.yokeSetting (s : State) : Nat := if s.power.expertActs then stepMv (field s.power.supplyNow 16 5).toNat else 750
def State.cuffSetting (s : State) : Nat := if s.power.expertActs then stepMv (field s.power.supplyNow 8 5).toNat else 750

/-! ### Entry (R338) -/

/-- Every started descriptor but one has completed, and every transfer of a hub DMA engine. -/
def State.onlyStarted (s : State) (q order : Nat) : Bool :=
  s.host.orphans.isEmpty && s.host.transfers.isEmpty && s.host.sqs.all fun e => e.2.descs.all fun d => !d.started || (e.1 == q && d.order == order)

/-- The Collar writes its cycle counts to flash (R355). -/
def Thermal.saveCycles (t : Thermal) (now : Nat) : Thermal := { t with saved := t.cycles, lastSave := now }

/-- Step 2: a retraining sequence in its retrain step ends as a failed one does (R263, R277). -/
def State.endRetrains (s : State) : State :=
  foldOver (List.range 12) (fun t k => match (t.cuff k).seq with
    | some q => if (t.chan k q.slot).state = .switched then t.spareKeeps k q else t
    | none => t) s

/-- The controls of every column take effect: no ring serves one in Fold (R240), and what was written in Fold does so at the wake (R339). -/
def State.applyColumns (s : State) : State := foldOver (s.columns.map (·.1)) State.applyColumn s

/-- Steps 3 to 5: power is removed, and STATE becomes FOLDED. -/
def State.folded (s : State) : State :=
  let s1 := s.applyColumns
  { s1 with
    power := { s1.power with fold := .folded, folds := wrapAdd s1.power.folds 1, foldBy := none },
    thermal := s1.thermal.saveCycles s1.now }

/-! ### Wake (R340) -/

/-- A core after a wake: queues, caches and registers empty, regions on; counters and setup fields kept, what was written during
Fold in effect (R339), a new capture of its supply (R328), a beat rate that reads zero until a window has ended (R33). -/
def Core.wake (c : Core) (expert : Bool) : Core :=
  let k := applyControls expert c.reinit
  { k with seq := { k.seq with beatRate := 0, windowBeats := k.seq.beats }, supply := { k.supply with gateClosed := false, minMv := 0x3FF } }

/-- The cores after a wake. -/
def State.wakeCores (s : State) : State := { s with cores := s.cores.map fun e => (e.1, e.2.wake (s.expertOn .co)) }

/-- The duration of a wake in µs, which the device measures: at most 1,500 (R340). -/
def wakeUs (v : DWord) : BitVec 16 := BitVec.ofNat 16 (v.toNat % 1501)

/-- A clamp is asked for. -/
def Clamp.asked (c : Clamp) : Bool := c.temp || c.cap || c.flow

/-- A supply at its setting, but at 0.55 V while the thermal control asks for a clamp (R332). -/
def State.supplyAt (s : State) (setting : Nat) : Nat := if s.thermal.clamp.asked then 550 else setting

/-- A ring at slot 0 of its open image (R340 step 4); its lap and LAPS go on (DESIGN CHOICE, log entry 36). -/
def Ring.atOpen (r : Ring) (now : Nat) : Ring :=
  if r.use = .opened then r else { r.arrive now with use := .opened, toOpen := false, slot := 0, atEnd := false }

/-- The wake's steps. -/
def State.wakeSteps (s : State) : State :=
  let s1 := s.wakeCores.applyColumns
  let s2 : State := { s1 with
    mem := memClear s1.mem scratchBase (512 * scratchStride),
    rings := s1.rings.map fun e => (e.1, e.2.atOpen s1.now),
    power := { s1.power with fold := .running, wakeAsked := false, lastWakeUs := wakeUs s1.free, deferred := [],
                             supplyMv := s1.supplyAt s1.coreSetting, yokeMv := s1.supplyAt s1.yokeSetting,
                             cuffMv := s1.supplyAt s1.cuffSetting } }
  foldOver s.power.deferred State.panelCycle s2.drew

/-- A wake event: in Fold it wakes the module, during entry the wake follows the entry (R341) (DESIGN CHOICE, log entry 2). -/
def State.wake (s : State) : State :=
  match s.power.fold with
  | .folded => s.wakeSteps
  | .entering => { s with power := { s.power with wakeAsked := true } }
  | _ => s

/-- FOLD's steps: entry begins, and ends once nothing else that has started is left and no retraining sequence runs. -/
def State.foldSteps (s : State) (q : Nat) (d : Desc) : State :=
  let enters (t : State) : State := { t with power := { t.power with fold := .entering, foldBy := some (q, d.order) } }
  if s.set.running && s.power.foldBy != some (q, d.order) then s.complete q d stSetActive 0
  else if s.onlyStarted q d.order then
    let s0 := s.endRetrains
    if s0.retraining then enters s0
    else
      let s1 := s0.folded.complete q d stOk 0
      if s1.power.wakeAsked then s1.wakeSteps else s1
  else enters s

end Sys2Proof.Machine
end

