-- ==== Sys2Proof/Machine/Thermal.lean ====
section
/-!
DEFINITION. Thermal sensing and cooling (16): samples with their rates and validity (R344, R345), hot spots (R346), limit excursions
and clamps (R347, R348, R354), the thermal cap (R352, R353), thermal cycles (R355), and the hardware shutdown (R349, R350).
-/

namespace Sys2Proof.Machine

/-! ### Sensors and their limits (Tables 16-1 and 16-2) -/

def isDiode (k : Nat) : Bool := decide (k < 36)
def isLogic (k : Nat) : Bool := decide (0x100 ≤ k) && decide (k < 0x100 + 2 * 544)
def isDram (k : Nat) : Bool := decide (0x1000 ≤ k) && decide (k < 0x1000 + 544)
def isYoke (k : Nat) : Bool := decide (0x2000 ≤ k) && decide (k < 0x2000 + 16)
def inletKey : Nat := 0x3000
def outletKey : Nat := 0x3001
def flowKey : Nat := 0x3002

/-- The keys of Table 16-1 but the flow sensor's. -/
def sensorExists (k : Nat) : Bool := isDiode k || isLogic k || isDram k || isYoke k || k == inletKey || k == outletKey

/-- A logic sensor's key; the physical core of one. -/
def logicKey (x i : Nat) : Nat := 0x100 + 2 * x + i
def logicCore (k : Nat) : Nat := (k - 0x100) / 2

/-- The limits of a sensor in °C (R344). -/
def sensorLimits (k : Nat) : List Int :=
  if isDiode k then [110] else if isDram k then [85, 95, 100] else if isLogic k || isYoke k then [100] else []

/-- The sampling rate that a reading asks for: 2 for 100 µs, 1 for 1 ms, 0 for 10 ms (R344). -/
def rateFor (k : Nat) (v : Int) : Nat :=
  let near (d : Int) : Bool := (sensorLimits k).any fun l => decide (l - d ≤ v)
  if near 5 then 2 else if near 10 then 1 else 0

/-- A sensor's rate after a reading: faster at once, slower after 10 consecutive samples that meet the slower condition. `slow` counts the
samples in a row that ask for less than 100 µs, `slowest` those that ask for 10 ms. -/
def Sensor.rated (x : Sensor) (k : Nat) (v : Int) : Sensor :=
  let r := rateFor k v
  if x.rate < r then { x with rate := r, slow := 0, slowest := 0 }
  else
    let slow := if r = 2 then 0 else x.slow + 1
    let slowest := if r = 0 then x.slowest + 1 else 0
    let y := { x with slow := slow, slowest := slowest }
    if 10 ≤ slowest then { y with rate := 0 } else if x.rate = 2 ∧ 10 ≤ slow then { y with rate := 1 } else y

/-- A reading in range (R345): whole °C, or tenths of °C for the thermistors. -/
def readingValid (k : Nat) (v : Int) : Bool :=
  if k = inletKey ∨ k = outletKey then decide (-200 ≤ v) && decide (v ≤ 1500) else decide (-20 ≤ v) && decide (v ≤ 150)

/-- The LOCATION of a sensor in a record (Table 17-7). -/
def sensorLocation (k : Nat) : Nat := if isDiode k || isLogic k then k else (Config.sensorCode k).toNat

/-! ### Readings (R345, R346) -/

/-- On-die sensors are read while their die is powered, and a Panel's while it is not isolated; the Collar's from standby 12 V (R343,
R356). -/
def State.sensorRead (s : State) (k : Nat) : Bool :=
  if isLogic k then s.panelsUp && s.panelAnswers (logicCore k / 68)
  else if isDram k then s.panelsUp && s.panelAnswers ((k - 0x1000) / 68)
  else if isYoke k then s.power.stage else s.power.standby

/-- A sensor's reading, where it is valid and read. -/
def State.valid (s : State) (k : Nat) : Option Int :=
  if (s.sensor k).invalid || !s.sensorRead k then none else some (s.sensor k).value

/-- A sensor's valid reading, once it has been sampled (DEDUCED, log entry 36). -/
def State.sampled (s : State) (k : Nat) : Option Int := if mapHas s.thermal.sensors k then s.valid k else none

/-- The higher of two readings. -/
def higher (a b : Option Int) : Option Int :=
  match a, b with
  | some x, some y => some (max x y)
  | some x, none => some x
  | none, y => y

/-- The hottest valid sensor among the sampled ones that meet a condition. -/
def State.hottest (s : State) (p : Nat → Bool) : Option Int :=
  s.thermal.sensors.foldl (fun a e => if p e.1 && !e.2.invalid && s.sensorRead e.1 then higher a (some e.2.value) else a) none

/-- The quadrant of a physical core, over the module. -/
def quadrantOf (x : Nat) : Nat := x / 68 * 4 + x % 68 / 17

/-- The reading of a core's logic hot spot: its valid sensors, or the hottest of its quadrant plus 10 K (R345). -/
def State.logicReading (s : State) (x : Nat) : Int :=
  match higher (s.sampled (logicKey x 0)) (s.sampled (logicKey x 1)) with
  | some v => v
  | none =>
    if !(s.sensor (logicKey x 0)).invalid || !(s.sensor (logicKey x 1)).invalid then 0 else ((s.hottest fun k => isLogic k && quadrantOf (logicCore k) == quadrantOf x).getD 0) + 10

/-- The physical core beside diode i of a Panel. -/
def diodeCore (d : Nat) : Nat := d / 4 * 68 + (match d % 4 with | 0 => 8 | 1 => 25 | 2 => 42 | _ => 59)

/-- The diode whose hot spot holds a physical core's logic sensor 0. -/
def coreDiode (x : Nat) : Option Nat := (List.range 4).map (· + x / 68 * 4) |>.find? fun d => diodeCore d == x

/-- The reading of a core (R346): its logic hot spot, raised to its diode's. -/
def State.coreReading (s : State) (x : Nat) : Int :=
  match (coreDiode x).bind s.sampled with
  | some v => max (s.logicReading x) v
  | none => s.logicReading x

/-- Physical cores with a sensor that has been sampled, on Panels whose sensors are read. -/
def State.sampledCores (s : State) : List Nat :=
  ((s.thermal.sensors.filter fun e => isLogic e.1 && s.sensorRead e.1).map fun e => logicCore e.1).eraseDups

/-- The hottest logic hot spot of a Panel: cores and diodes (R352). -/
def State.hotLogic (s : State) (p : Nat) : Int :=
  let l := ((s.sampledCores.filter fun x => x / 68 == p).map s.logicReading).foldl (fun a v => higher a (some v)) none
  (higher l (s.hottest fun k => isDiode k && k / 4 == p)).getD 0

/-- The hottest valid DRAM-layer sensor, and the hottest valid diode, of a Panel. -/
def State.hotDram (s : State) (p : Nat) : Int := (s.hottest fun k => isDram k && (k - 0x1000) / 68 == p).getD 0
def State.hotDiode (s : State) (p : Nat) : Int := (s.hottest fun k => isDiode k && decide (k < 32) && k / 4 == p).getD 0

/-- Inlet in tenths of °C, an invalid thermistor taken at 45 °C; flow in tenths of L/min, an invalid sensor taken at 0 (R345). -/
def State.inletDc (s : State) : Int := (s.valid inletKey).getD 450
def State.flowDl (s : State) : Nat := (s.valid flowKey).getD 0 |>.toNat

/-! ### Limits (Table 16-3) -/

/-- How much lower the logic limits of a core's hot spot lie while its diode is invalid (R345). -/
def State.limitDrop (s : State) (x : Nat) : Int :=
  match coreDiode x with
  | some d => if (s.sensor d).invalid then 5 else 0
  | none => 0

/-- The sensor of a core whose reading lies above a logic limit, with that reading: the core's hot spot against the limit, and the hot spot of
an invalid diode, which holds sensor 0 alone, against the lower one (R345). -/
def State.coreOver (s : State) (logic : Int) (x : Nat) : Option (Nat × Int) :=
  let r := s.logicReading x
  let own := (s.sampled (logicKey x 0)).getD r
  if logic < r then some (if s.sampled (logicKey x 0) ≠ some r ∧ s.sampled (logicKey x 1) = some r then logicKey x 1 else logicKey x 0, r)
  else if logic - s.limitDrop x < own then some (logicKey x 0, own) else none

/-- The sensors that stand above their limits: logic and Yoke sensors above `logic`, DRAM-layer sensors above `dram`; of an isolated Panel,
whose own sensors are unread, its diodes (R356). -/
def State.overs (s : State) (logic dram : Int) : List (Nat × Int) :=
  s.sampledCores.filterMap (s.coreOver logic)
    ++ (s.thermal.sensors.filter fun e => !e.2.invalid && s.sensorRead e.1
      && ((isYoke e.1 && decide (logic < e.2.value)) || (isDram e.1 && decide (dram < e.2.value))
        || (isDiode e.1 && decide (e.1 < 32) && s.panelsUp && !s.panelAnswers (e.1 / 4) && decide (logic < e.2.value)))).map
      fun e => (e.1, e.2.value)

/-- Some logic or Yoke reading lies above `logic`, or some DRAM-layer reading above `dram`. -/
def State.above (s : State) (logic dram : Int) : Bool := !(s.overs logic dram).isEmpty

/-! ### Clamps (R332, R348) -/

/-- The rows of Table 16-3 that clamp: temperature, computed cap, flow. -/
inductive ClampRow where
  | temp | cap | flow
deriving DecidableEq, Repr

def ClampRow.number : ClampRow → Nat
  | .temp => 4
  | .cap => 5
  | .flow => 6

def Clamp.held (c : Clamp) : ClampRow → Bool
  | .temp => c.temp
  | .cap => c.cap
  | .flow => c.flow

def Clamp.set (c : Clamp) (r : ClampRow) (b : Bool) : Clamp :=
  match r with
  | .temp => { c with temp := b, tempClear := none }
  | .cap => { c with cap := b }
  | .flow => { c with flow := b, flowClear := 0 }

def State.updClamp (s : State) (f : Clamp → Clamp) : State :=
  { s with thermal := { s.thermal with clamp := f s.thermal.clamp } }

/-- THERMAL_CLAMP: the controller sets every core to 0.55 V and DUTY 0. -/
def State.applyClamp (s : State) : State :=
  { s with power := { s.power with supplyMv := 550, yokeMv := 550, cuffMv := 550, duty := 0 } }

/-- A condition asks for the clamp: record and event, and the clamp itself. -/
def State.clampOn (s : State) (r : ClampRow) : State :=
  if s.thermal.clamp.held r then s
  else (((s.updClamp fun c => c.set r true).applyClamp).note 0x53 grpCollar 0xFFF 0 r.number).event .thermalClamp r.number 1

/-- A condition releases the clamp. -/
def State.clampOff (s : State) (r : ClampRow) : State :=
  if s.thermal.clamp.held r then
    ((s.updClamp fun c => c.set r false).note 0x53 grpCollar 0xFFF 0 (0x80 + r.number)).event .thermalClamp r.number 0
  else s

/-- The second of a release rule. -/
def second : Nat := 1000000000

/-- The temperature's release condition has to hold for 1 s. -/
def State.tempClears (s : State) (clear : Bool) : State :=
  if !s.thermal.clamp.temp then s
  else if !clear then s.updClamp fun c => { c with tempClear := none }
  else
    match s.thermal.clamp.tempClear with
    | none => s.updClamp fun c => { c with tempClear := some s.now }
    | some t => if t + second ≤ s.now then s.clampOff .temp else s

/-- The flow's release condition has to hold for 1 s: the 2,000 periods of 500 µs between 2,001 samples, which the Collar counts whether or not
the timebase runs (R354). -/
def State.flowClears (s : State) (clear : Bool) : State :=
  if !s.thermal.clamp.flow then s
  else if !clear then s.updClamp fun c => { c with flowClear := 0 }
  else if 2000 ≤ s.thermal.clamp.flowClear then s.clampOff .flow
  else s.updClamp fun c => { c with flowClear := c.flowClear + 1 }

/-! ### The cap that thermal control sets -/

/-- TH_CAP.THERMAL_W of a cap. -/
def capField (w : Nat) : BitVec 16 := BitVec.ofNat 16 (min w 0xFFFF)

/-- The thermal cap returns to the computed one. -/
def Thermal.uncapped (t : Thermal) : Thermal :=
  { t with thermalW := match t.computedW with
      | some w => capField w
      | none => 0xFFFF }

/-- The limits judged after a sample (R347): the excursion starts with one record, which names the sensor sampled where it stands above its
limit, else the first that does, and ends 2 K below the limits. -/
def State.judgeExcursion (s : State) (k : Nat) : State :=
  match s.overs 100 95 with
  | e :: r =>
    if s.thermal.excursion then s
    else
      let x := ((e :: r).find? fun y => y.1 == k).getD e
      { s with thermal := { s.thermal with excursion := true } }.note 0x52 grpCollar (sensorLocation x.1) 0 x.2.toNat
  | [] => if s.thermal.excursion && !s.above 98 93 then { s with thermal := { s.thermal with excursion := false }.uncapped }
  else s

/-- The clamp judged after a sample. -/
def State.judgeClamp (s : State) : State :=
  if s.above 105 100 then s.clampOn .temp
  else s.tempClears (!s.above 95 90)

/-! ### A sample (R344 to R346) -/

/-- The other sensors of the hot spots that a sensor belongs to, each with the code of the hot spot. -/
def hotSpots (k : Nat) : List (Nat × Nat) :=
  if isLogic k then
    let x := logicCore k
    let i := (k - 0x100) % 2
    let own := (logicKey x (1 - i), (Config.sensorCode (0x4000 + x)).toNat)
    match coreDiode x with
    | some d => if i = 0 then [own, (d, d)] else [own]
    | none => [own]
  else if isDiode k ∧ k < 32 then [(logicKey (diodeCore k) 0, k)]
  else []

/-- A disagreement of more than 6 K (R346). -/
def State.disagree (s : State) (k : Nat) (e : Nat × Nat) : State :=
  match s.sampled k, s.sampled e.1 with
  | some a, some b =>
    if 6 < a - b ∨ 6 < b - a then
      let s1 := { s with thermal := { s.thermal with disagree := satAdd s.thermal.disagree 1 } }
      if bit s.thermal.ctrl 0 then s1.note 0x51 grpCollar e.2 (Config.pairField a b).toNat 0 else s1
    else s
  | _, _ => s

/-- A DRAM-layer sample reaches the Pocket controller and the ring that may swap (R55, R226). -/
def State.dramSample (s : State) (k : Nat) (v : Int) (ok : Bool) : State :=
  if isDram k then
    let col := k - 0x1000
    let s1 := s.setColumn col ((s.column col).sample v.toNat ok)
    match s.slotOwner col with
    | some n => if ok then s1.coolSample (ringKey 2 n) v.toNat else s1
    | none => s1
  else s

/-- The inlet's range: COOLANT_RANGE when it leaves and when it returns (R351). -/
def State.judgeInlet (s : State) : State :=
  let out := decide (s.inletDc < 150) || decide (450 < s.inletDc)
  if out = s.thermal.inletOut then s
  else { s with thermal := { s.thermal with inletOut := out } }.event .coolantRange 0 (if out then 1 else 0)

/-- A sensor becomes invalid (R345). -/
def State.failSensor (s : State) (k : Nat) : State :=
  let x := s.sensor k
  if x.invalid then s
  else
    { s with thermal := { s.thermal with sensors := mapPut s.thermal.sensors k { x with invalid := true },
                                         invalidCount := satAdd s.thermal.invalidCount 1 } }.note 0x50 grpCollar (sensorLocation k) 0 0

/-- The shutdown by firmware: the on-die sensor of some hot spot whose diode is invalid reads 108 °C or above (R345). -/
def State.firmwareTrip (s : State) : Bool :=
  (List.range 32).any fun d => (s.sensor d).invalid && (s.sampled (logicKey (diodeCore d) 0)).any fun v => decide (108 ≤ v)

/-- What the thermal control does after a sample, or once a sensor has become invalid: the shutdown by firmware, or the limits judged on the
readings that hold now (R345, R347, R356). -/
def State.judgeLimits (s : State) (k : Nat) : State :=
  if s.firmwareTrip then s.removeEnable false else (s.judgeExcursion k).judgeClamp

/-- A valid reading acts. -/
def State.tookSample (s : State) (k : Nat) (v : Int) : State :=
  let x := s.sensor k
  let s1 := { s with thermal := { s.thermal with sensors := mapPut s.thermal.sensors k ({ x with value := v }.rated k v) } }
  let s2 := (foldOver (hotSpots k) (fun t e => t.disagree k e) s1).dramSample k v true
  (if k = inletKey then s2.judgeInlet else s2).judgeLimits k

/-- A sensor whose conversion fails, or whose reading is out of range. -/
def State.lostSample (s : State) (k : Nat) : State :=
  let s1 := (s.failSensor k).dramSample k 0 false
  (if k = inletKey then s1.judgeInlet else s1).judgeLimits k

/-- SENSOR_SAMPLE: a reading, or none where a conversion failed. -/
def State.sample (s : State) (k : Nat) (reading : Option Int) : State :=
  if !sensorExists k || !s.sensorRead k || (s.sensor k).invalid then s
  else
    match reading with
    | some v => if readingValid k v then s.tookSample k v else s.lostSample k
    | none => s.lostSample k

/-! ### Flow (R351, R354) -/

/-- TH_EXPERT's fields in effect: STOP_FLOW, WARN_RATIO, CAP_MARGIN_K (Table 16-7). -/
def State.stopFlow (s : State) : Nat := clampNat 10 30 (field s.thermal.expertNow 0 8).toNat
def State.warnRatio (s : State) : Nat := clampNat 110 200 (field s.thermal.expertNow 8 8).toNat
def State.capMargin (s : State) : Nat := min 10 (field s.thermal.expertNow 16 8).toNat

/-- The flow's range. -/
def State.judgeFlow (s : State) : State :=
  let out := decide (s.flowDl < 60)
  if out = s.thermal.flowOut then s
  else { s with thermal := { s.thermal with flowOut := out } }.event .coolantRange 1 (if out then 1 else 0)

/-- A reading of the flow sensor: three readings below STOP_FLOW in a row ask for the clamp; in Fold none is needed (R356). -/
def State.flowRead (s : State) (reading : Option Nat) : State :=
  let s1 := match reading with
    | some v => { s with thermal := { s.thermal with sensors := mapPut s.thermal.sensors flowKey { s.sensor flowKey with value := v } } }
    | none => s.failSensor flowKey
  let low := if s1.flowDl < s1.stopFlow then s1.thermal.lowFlow + 1 else 0
  let s2 := State.judgeFlow { s1 with thermal := { s1.thermal with lowFlow := low } }
  if 3 ≤ low ∧ s2.power.fold ≠ .folded then s2.clampOn .flow
  else s2.flowClears (decide (60 ≤ s2.flowDl))

/-- FLOW_SAMPLE: the flow sensor is read from standby 12 V (R343). -/
def State.flowSample (s : State) (reading : Option Nat) : State := if s.sensorRead flowKey then s.flowRead reading else s

/-! ### The thermal cap (R352, R353) -/

/-- Panels that count toward n_present: powered and not LOST (R352, R356). -/
def State.countedPanels (s : State) : List Nat :=
  (List.range 8).filter fun p => (s.panel p).powered && (s.panel p).state != .lost

/-- θ of a Panel measured, where its power is at least 100 W and its sensors are read. -/
def State.measure (s : State) (p watts : Nat) : State :=
  if watts < 100 ∨ !s.panelAnswers p then s
  else
    let t := s.thermal
    { s with thermal := { t with thetaL := mapPut t.thetaL p ⟨s.hotLogic p * 10 - s.inletDc, watts⟩,
                                 thetaD := mapPut t.thetaD p ⟨s.hotDram p * 10 - s.inletDc, watts⟩ } }

/-- The commissioning baseline: the first pair measured at 300 W or more with coolant in range. -/
def State.baseline (s : State) (p watts : Nat) : State :=
  let t := s.thermal
  if mapHas t.baseL p ∨ watts < 300 ∨ !s.panelAnswers p ∨ s.inletDc < 150 ∨ 450 < s.inletDc ∨ s.flowDl < 60 then s
  else
    { s with thermal := { t with baseL := mapPut t.baseL p (mapGet ⟨0, 1⟩ t.thetaL p),
                                 baseD := mapPut t.baseD p (mapGet ⟨0, 1⟩ t.thetaD p) } }

/-- A measured value exceeds a percentage of its baseline. -/
def exceeds (v base : Ratio) (percent : Nat) : Bool := decide (percent * base.num * v.den < 100 * v.num * base.den)

/-- A measured value lies below a percentage of its baseline. -/
def fallsBelow (v base : Ratio) (percent : Nat) : Bool := decide (100 * v.num * base.den < percent * base.num * v.den)

/-- RESISTANCE_WARN, which names the Panel and both values, and its rearming. -/
def State.warn (s : State) (p : Nat) : State :=
  let t := s.thermal
  if !mapHas t.baseL p then s
  else
    let l := mapGet ⟨0, 1⟩ t.thetaL p
    let d := mapGet ⟨0, 1⟩ t.thetaD p
    let l0 := mapGet ⟨0, 1⟩ t.baseL p
    let d0 := mapGet ⟨0, 1⟩ t.baseD p
    if bit t.warn p then
      (if fallsBelow l l0 (s.warnRatio - 5) && fallsBelow d d0 (s.warnRatio - 5) then
        { s with thermal := { t with warn := putBit t.warn p false } } else s)
    else if exceeds l l0 s.warnRatio || exceeds d d0 s.warnRatio then
      State.event { s with thermal := { t with warn := putBit t.warn p true },
                           out := { s.out with thetas := (p, l, d) :: s.out.thetas } } .resistanceWarn p 1
    else s

/-- One term of cap_p: (limit − margin − T_in) ÷ θ in W, none where θ is not positive. -/
def capTerm (limit margin inlet : Int) (r : Ratio) : Option Ratio :=
  if 0 < r.num then some ⟨((limit - margin) * 10 - inlet) * r.den, r.num.toNat⟩ else none

/-- The lower of two caps. -/
def lower (a b : Option Ratio) : Option Ratio :=
  match a, b with
  | some x, some y => if y.num * x.den < x.num * y.den then some y else some x
  | some x, none => some x
  | none, y => y

/-- cap_p of a Panel; an isolated one keeps its last value (R356). -/
def State.capOf (s : State) (p : Nat) : Option Ratio :=
  let t := s.thermal
  let m : Int := s.capMargin
  if s.panelAnswers p then
    let term (limit : Int) (l : List (Nat × Ratio)) : Option Ratio := if mapHas l p then capTerm limit m s.inletDc (mapGet ⟨0, 1⟩ l p) else none
    lower (term 100 t.thetaL) (term 95 t.thetaD)
  else if mapHas t.capP p then some (mapGet ⟨0, 1⟩ t.capP p) else none

/-- The smallest cap_p with its Panel, the lowest-numbered on a tie. -/
def smallestCap (l : List (Nat × Option Ratio)) : Option (Nat × Ratio) :=
  l.foldl (fun a e =>
    match a, e.2 with
    | some (q, x), some y => if y.num * x.den < x.num * y.den then some (e.1, y) else some (q, x)
    | none, some y => some (e.1, y)
    | a, none => a) none

/-- The thermal cap in W: ⌊p_other + n_present × min cap_p⌋, not below 0. -/
def thermalCap (other : Int) (n : Nat) (c : Ratio) : Nat := (other + (n : Int) * c.num / (c.den : Int)).toNat

/-- The cap's computation. -/
def State.computeCap (s : State) (powers : List Nat) (watts : Nat) : State :=
  let ps := s.countedPanels
  let caps := ps.map fun p => (p, s.capOf p)
  let sum := (ps.map fun p => (powers[p]?).getD 0).sum
  let best := smallestCap caps
  let w := best.map fun b => thermalCap ((watts : Int) - sum) ps.length b.2
  let kept := caps.filterMap fun e => e.2.map fun r => (e.1, r)
  let t := { s.thermal with computedW := w, capP := kept, limiting := match best with
    | some b => BitVec.ofNat 4 b.1
    | none => s.thermal.limiting }
  { s with thermal := if t.excursion then t else t.uncapped }

/-- The clamp on the computed cap: below 600 W, released at 900 W. -/
def State.judgeCap (s : State) : State :=
  match s.thermal.computedW with
  | some w => if w < 600 then s.clampOn .cap else if 900 ≤ w then s.clampOff .cap else s
  | none => s.clampOff .cap

/-- THERMAL_CAP_COMPUTE: TH_EXPERT takes effect, θ of every Panel is measured, and the cap follows (DEDUCED, log entry 36). -/
def State.capCompute (s : State) (powers : List Nat) (watts : Nat) : State :=
  let e := s.expert .th s.thermal.expert 0x00027D0A
  let s0 := { s with thermal := { s.thermal with expertNow := e } }
  let s1 := foldOver s0.countedPanels (fun t p =>
    let w := (powers[p]?).getD 0
    ((t.measure p w).baseline p w).warn p) s0
  (s1.computeCap powers watts).judgeCap

/-! ### Thermal cycles (R355) -/

/-- A confirmed swing of r K. -/
def Cycles.count (c : Cycles) (r : Int) : Cycles :=
  { c with total := satAdd c.total 1, bin40 := if 40 ≤ r ∧ r < 60 then satAdd c.bin40 1 else c.bin40,
           bin60 := if 60 ≤ r then satAdd c.bin60 1 else c.bin60 }

/-- One sample of the hottest logic hot spot. -/
def Cycles.sample (c : Cycles) (t : Int) : Cycles :=
  if !c.started then { c with started := true, extreme := t, dir := 0, valley := t }
  else if 0 ≤ c.dir ∧ c.extreme < t then { c with extreme := t, dir := 1 }
  else if c.dir ≤ 0 ∧ t < c.extreme then { c with extreme := t, dir := -1 }
  else if c.dir = 1 ∧ 20 ≤ c.extreme - t then
    let c1 := if 20 ≤ c.extreme - c.valley then c.count (c.extreme - c.valley) else c
    { c1 with extreme := t, dir := -1 }
  else if c.dir = -1 ∧ 20 ≤ t - c.extreme then { c with valley := c.extreme, extreme := t, dir := 1 }
  else c

/-- One hour in ns. -/
def hourNs : Nat := 3600000000000

/-- CYCLE_SAMPLE: every Panel's counts, saved once per hour; the count runs while the power stage is on (R355). -/
def State.cycleSample (s : State) : State :=
  if !s.power.stage then s else
  let cs := (List.range 8).foldl (fun m p => mapPut m p ((mapGet Cycles.reset m p).sample (s.hotLogic p))) s.thermal.cycles
  let t := { s.thermal with cycles := cs }
  { s with thermal := if t.lastSave + hourNs ≤ s.now then t.saveCycles s.now else t }

/-! ### Shutdown and restart (R349, R350) -/

/-- COMPARATOR_TRIP: the enable is removed and the trip latched; the third within an hour holds the restart. -/
def State.trip (s : State) (d peak collarMs : Nat) : State :=
  if s.thermal.latched ∨ (s.sensor d).invalid then s
  else
    let recent := (s.thermal.trips.filter fun t => decide (collarMs < t + 3600000)) ++ [collarMs]
    let held := s.thermal.held || decide (3 ≤ recent.length)
    let t := { s.thermal with latched := true, shutdowns := satAdd s.thermal.shutdowns 1, lastDiode := BitVec.ofNat 6 d,
                              tripPeak := peak, trips := recent, held := held }
    let s1 := { s with thermal := t }.event .thermalShutdown d 1
    let s2 := if held then s1.event .restartHeld 0 1 else s1
    if s2.power.stage then s2.removeEnable false else s2

/-- Every valid remote diode reads below 80 °C. -/
def State.diodesCool (s : State) : Bool :=
  s.thermal.sensors.all fun e => !isDiode e.1 || e.2.invalid || decide (e.2.value < 80)

/-- The conditions of start-up step 2, numbered: J1, flow, inlet, diodes (R336). -/
def State.startWaits (s : State) : List Nat :=
  (if s.power.jIn then [] else [0]) ++ (if 60 ≤ s.flowDl then [] else [1])
    ++ (if 150 ≤ s.inletDc ∧ s.inletDc ≤ 450 then [] else [2]) ++ (if s.diodesCool then [] else [3])

/-- THERMAL_RESTART: the latch clears once the conditions of step 2 hold, and the restart waits to be recorded. -/
def State.thermalRestart (s : State) (collarMs : Nat) : State :=
  if s.thermal.latched ∧ !s.thermal.held ∧ s.startWaits = [] then
    let off := collarMs - (s.thermal.trips.getLast?).getD collarMs
    { s with thermal := { s.thermal with latched := false,
                                         restart := some ⟨s.thermal.lastDiode.toNat, s.thermal.tripPeak, off⟩ } }
  else s

/-! ### Rows -/

/-- SENSOR_SAMPLE (R344 to R347). -/
def execSensorSample (key : Nat) (reading : Option Int) (s : State) : Host.Outcome State Fault Refusal :=
  .next (s.sample key reading)

/-- While a reading stands above its limit, the thermal cap is 90 % of the measured input power, or the computed cap where that is lower:
the response that removes more power applies (R347). -/
def State.limitExcursion (s : State) (watts : Nat) : State :=
  if s.thermal.excursion && s.above 100 95 then
    { s with thermal := { s.thermal with thermalW := capField (min (watts * 9 / 10) (s.thermal.computedW.getD 0xFFFF)) } }
  else s

/-- LIMIT_EXCURSION (R347). -/
def execLimitExcursion (watts : Nat) (s : State) : Host.Outcome State Fault Refusal := .next (s.limitExcursion watts)

/-- THERMAL_CAP_COMPUTE (R352, R353). -/
def execThermalCapCompute (powers : List Nat) (watts : Nat) (s : State) : Host.Outcome State Fault Refusal :=
  .next (s.capCompute powers watts)

/-- FLOW_SAMPLE (R351, R354). -/
def execFlowSample (reading : Option Nat) (s : State) : Host.Outcome State Fault Refusal := .next (s.flowSample reading)

/-- COMPARATOR_TRIP (R349). -/
def execComparatorTrip (diode : Fin 36) (peak : BitVec 8) (collarMs : Nat) (s : State) : Host.Outcome State Fault Refusal :=
  .next (s.trip diode.val peak.toNat collarMs)

/-- THERMAL_RESTART (R350). -/
def execThermalRestart (collarMs : Nat) (s : State) : Host.Outcome State Fault Refusal := .next (s.thermalRestart collarMs)

/-- CYCLE_SAMPLE (R355). -/
def execCycleSample (s : State) : Host.Outcome State Fault Refusal := .next s.cycleSample

end Sys2Proof.Machine
end

