-- ==== Sys2Proof/Machine/PowerEvents.lean ====
section
/-!
DEFINITION. The rows of power (15): input faults (R320), feed switches (R321), undervoltage gates (R323, R328), regulator tiles (R326,
R327), the power cap (R330 to R332), bump groups (R329), power-on and loss of standby power (R333, R355), host resets and the link
(R296, R334, R340).
-/

namespace Sys2Proof.Machine

/-! ### The input (R320) -/

/-- INPUT_EXCURSION: an excursion of more than 10 ms. -/
def State.inputExcursion (s : State) : State :=
  let s1 := { s with power := { s.power with jIn := false } }
  if s.power.stage then (s1.event .inputFault 0 1).removeEnable false else s1

/-- INPUT_EXCURSION. -/
def execInputExcursion (s : State) : Host.Outcome State Fault Refusal := .next s.inputExcursion

/-- INPUT_FAULT_RECOVERY: the input has been in range for 1 s; the stage is enabled by POWER_STAGE_ENABLE. -/
def execInputFaultRecovery (s : State) : Host.Outcome State Fault Refusal :=
  .next { s with power := { s.power with jIn := true } }

/-- FEED_SWITCH_TRIP (R321). -/
def execFeedSwitchTrip (p : PanelId) (s : State) : Host.Outcome State Fault Refusal := .next (s.cyclePanel p.val)

/-! ### The undervoltage gate and the capture (R323, R328) -/

/-- A supply below the lowest level captured, on the ladder of 5 mV steps (DEDUCED, log entry 35). -/
def SupplyState.capture (x : SupplyState) (mv now : Nat) : SupplyState :=
  let level := mv / 5 * 5
  if level < x.minMv.toNat then { x with minMv := BitVec.ofNat 10 level, minTime := BitVec.ofNat 64 now } else x

/-- The gate at a reading: it closes below 0.50 V and releases at 0.52 V. -/
def SupplyState.gate (x : SupplyState) (mv now : Nat) : SupplyState :=
  if !x.gateClosed ∧ mv < 500 then { x with gateClosed := true, gateSince := now, gateEvents := satAdd x.gateEvents 1 }
  else if x.gateClosed ∧ 520 ≤ mv then { x with gateClosed := false }
  else x

/-- A core's supply is present. -/
def State.corePowered (s : State) (n : Nat) : Bool :=
  s.panelsUp && (s.panel (n / 64)).powered && s.awake && (s.entry n).state != .absent

/-- UNDERVOLTAGE_GATE: the lowest of a core's sensing points. -/
def execUndervoltageGate (n : CoreId) (mv : BitVec 10) (s : State) : Host.Outcome State Fault Refusal :=
  let c := s.core n.val
  .next (if s.corePowered n.val then s.setCore n.val { c with supply := (c.supply.gate mv.toNat s.now).capture mv.toNat s.now }
    else s)

/-- GATE_TIMEOUT (R323): a gate closed for more than 100 µs; `selfTest` is whether a crossover core that is called on passes. -/
def execGateTimeout (n : CoreId) (selfTest : Bool) (s : State) : Host.Outcome State Fault Refusal :=
  let x := (s.core n.val).supply
  .next (if s.corePowered n.val && x.gateClosed then
    (s.reach (x.gateSince + 100001)).darken (s.physOf n.val) 1 selfTest else s)

/-! ### Regulator tiles (R326, R327) -/

/-- How many tiles have failed. -/
def tileCount (b : BitVec 16) : Nat := (setBits b).length

/-- A tile of a core disconnects; the fourth darkens the core. -/
def State.coreTile (s : State) (x tile : Nat) (selfTest : Bool) : State :=
  if bit (s.tilesOf x) tile then s
  else
    let b := putBit (s.tilesOf x) tile true
    let s1 := { s with map := { s.map with tiles := mapPut s.map.tiles x b } }
    let s2 := (s1.note 0x17 (x / 68) (x % 68) tile (tileCount b)).changedIf (s.logicalOf x).isSome
    if tileCount b = 4 then s2.darken x 2 selfTest else s2

/-- A tile that fails beyond what its domain bears takes the module off, reported over PLDM. -/
def State.moduleFault (s : State) (source : Nat) : State := (s.event .moduleFault source 1).removeEnable true

/-- TILE_FAIL (R326, R327). -/
def State.tileFail (s : State) (site : TileSite) (selfTest : Bool) : State :=
  if !s.power.stage then s
  else
    match site with
    | .core x t => if (s.panel (x.val / 68)).powered then s.coreTile x.val t.val selfTest else s
    | .yoke =>
      let n := s.power.yokeTiles + 1
      let s1 := { s with power := { s.power with yokeTiles := n } }
      if 48 < n then s1.moduleFault 0 else s1
    | .cuff k =>
      let n := mapGet 0 s.power.cuffTiles k.val + 1
      let s1 := { s with power := { s.power with cuffTiles := mapPut s.power.cuffTiles k.val n } }
      if 4 < n then s1.moduleFault (1 + k.val) else s1

/-- TILE_FAIL. -/
def execTileFail (site : TileSite) (selfTest : Bool) (s : State) : Host.Outcome State Fault Refusal :=
  .next (s.tileFail site selfTest)

/-! ### The power cap (R330 to R332) -/

/-- The host cap: none at zero, else within 1,500 W to 5,200 W. -/
def State.hostCapW (s : State) : Option Nat := if s.power.hostCap = 0 then none else some (clampNat 1500 5200 s.power.hostCap.toNat)

/-- The thermal cap. -/
def State.thermalCapW (s : State) : Option Nat := if s.thermal.thermalW = 0xFFFF then none else some s.thermal.thermalW.toNat

/-- The cap in effect. -/
def State.capW (s : State) : Nat := min (min 5200 (s.hostCapW.getD 5200)) (s.thermalCapW.getD 5200)

/-- LIMITER of PW_CAP_STATUS (Table 15-9). -/
def State.limiter (s : State) : Nat :=
  if s.thermal.clamp.asked then 3
  else if s.thermalCapW.getD 5200 < min 5200 (s.hostCapW.getD 5200) then 2
  else if s.hostCapW.getD 5200 < 5200 then 1
  else 0

/-- PW_EXPERT's fields in effect: CAP_STEP_MV and RAISE_MARGIN (Table 15-11). -/
def State.capStep (s : State) : Nat := clampNat 10 50 (field s.power.expertNow 8 8).toNat
def State.raiseMargin (s : State) : Nat := clampNat 1 20 (field s.power.expertNow 0 8).toNat

/-- One step down, and up; Yoke and Cuff supplies follow and stay no higher than the core supply. -/
def Power.lower (p : Power) (step : Nat) : Power :=
  if 550 < p.supplyMv then
    let core := max 550 (p.supplyMv - step)
    { p with supplyMv := core, yokeMv := min core (max 550 (p.yokeMv - step)), cuffMv := min core (max 550 (p.cuffMv - step)) }
  else { p with duty := p.duty - 1 }

def Power.raise (p : Power) (step core yoke cuff : Nat) : Power :=
  if p.duty < 16 then { p with duty := p.duty + 1 }
  else
    let c := min core (p.supplyMv + step)
    { p with supplyMv := c, yokeMv := min c (min yoke (p.yokeMv + step)), cuffMv := min c (min cuff (p.cuffMv + step)) }

/-- The controller's comparison for one period. -/
def State.capStepNow (s : State) (watts : Nat) : State :=
  let p := s.power
  if s.thermal.clamp.asked then s.applyClamp
  else if s.capW < watts then { s with power := p.lower s.capStep }
  else if watts * 100 < s.capW * (100 - s.raiseMargin) then
    { s with power := p.raise s.capStep s.coreSetting s.yokeSetting s.cuffSetting }
  else s

/-- Settings bound the supplies from above. -/
def State.boundSupplies (s : State) : State :=
  let p := s.power
  { s with power := { p with supplyMv := min p.supplyMv s.coreSetting, yokeMv := min p.yokeMv s.yokeSetting,
                             cuffMv := min p.cuffMv s.cuffSetting } }

/-- The PW_ expert registers take effect (R342) (DEDUCED, log entry 35). -/
def State.applyPowerExpert (s : State) : State :=
  let e := s.expert .pw s.power.expert 0x000A0A05
  let derived := BitVec.ofNat 32 (20 * 65536 + 20 * 256 + (pointMv (field s.power.ctrl 0 3).toNat - 550) / 10)
  let x := s.expert .pw s.power.supplyExpert derived
  { s with power := { s.power with expertNow := e, supplyNow := x, expertActs := s.expertOn .pw } }

/-- A supply after its setting has changed: it follows the setting, or stays where the cap or a clamp holds it below (R322, R330) (DEDUCED, log
entry 35). -/
def State.follow (s : State) (supply old new : Nat) : Nat := if supply = old ∧ !s.thermal.clamp.asked then new else min supply new

/-- The three domains take the settings of PW_SUPPLY_EXPERT (R322). -/
def State.takeSettings (s old : State) : State :=
  { s with power := { s.power with
      supplyMv := s.follow s.power.supplyMv old.coreSetting s.coreSetting, yokeMv := s.follow s.power.yokeMv old.yokeSetting s.yokeSetting,
      cuffMv := s.follow s.power.cuffMv old.cuffSetting s.cuffSetting } }

/-- CAP_PERIOD: the input power averaged over the period, and the input voltage in 10 mV. -/
def State.capPeriod (s : State) (watts volts : BitVec 16) : State :=
  let s1 := s.applyPowerExpert.takeSettings s
  let s2 := { s1 with power := { s1.power with inputW := watts, inputV := volts } }
  (s2.capStepNow watts.toNat).boundSupplies

/-- CAP_PERIOD (R331, R332); the controller runs with the power stage. -/
def execCapPeriod (watts volts : BitVec 16) (s : State) : Host.Outcome State Fault Refusal :=
  .next (if s.power.stage then s.capPeriod watts volts else s)

/-! ### Bump groups (R329) -/

/-- The die of a bump group, 8 for the Yoke, and the group's number there. -/
def bumpDie (g : Nat) : Nat := min 8 (g / 288)
def bumpIndex (g : Nat) : Nat := g - 288 * bumpDie g

/-- The rise of a group over its calibrated value, where it was measured. -/
def bumpRise (cal : List (Nat × Nat)) (drops : List BumpDrop) (g : Nat) : Option Int :=
  (drops.find? fun d => d.group == g).map fun d => (d.mv : Int) - mapGet d.mv cal g

/-- A group's rise exceeds the mean rise of its neighbours by more than 12 mV. -/
def bumpSuspect (cal : List (Nat × Nat)) (drops : List BumpDrop) (d : BumpDrop) : Bool :=
  let ns := (d.neighbours.take 8).filterMap (bumpRise cal drops)
  match bumpRise cal drops d.group with
  | some r => !ns.isEmpty && decide (ns.sum + 12 * (ns.length : Int) < r * (ns.length : Int))
  | none => false

/-- Calibrated values of groups that have none yet. -/
def calibrate (cal : List (Nat × Nat)) (drops : List BumpDrop) : List (Nat × Nat) :=
  drops.foldl (fun m d => if mapHas m d.group then m else mapPut m d.group d.mv) cal

/-- A flagged group: one record per cold reset. -/
def State.flagBump (s : State) (cal : List (Nat × Nat)) (drops : List BumpDrop) (d : BumpDrop) : State :=
  if s.power.bumpFlagged.contains d.group then s
  else
    let p := s.power
    let rise := ((bumpRise cal drops d.group).getD 0).toNat
    { s with power := { p with bumpFlagged := p.bumpFlagged ++ [d.group], bumpGroups := satAdd p.bumpGroups 1,
                               bumpDies := putBit p.bumpDies (bumpDie d.group) true } }.note
      0x55 grpCollar (bumpDie d.group) (bumpIndex d.group) rise

/-- BUMP_CHECK. -/
def State.bumpCheck (s : State) (drops : List BumpDrop) : State :=
  let cal := calibrate s.power.bumpCal drops
  let s1 := { s with power := { s.power with bumpCal := cal } }
  foldOver (drops.filter fun d => bumpSuspect cal drops d) (fun t d => t.flagBump cal drops d) s1

/-- BUMP_CHECK (R329). -/
def execBumpCheck (drops : List BumpDrop) (s : State) : Host.Outcome State Fault Refusal :=
  .next (if s.power.stage then s.bumpCheck drops else s)

/-- Recalibration: scope bit 0 bump groups, bit 1 thermal baselines. -/
def State.recalibrate (s : State) (scope : BitVec 2) (drops : List BumpDrop) : State :=
  let s1 := if bit scope 0 then
      { s with power := { s.power with bumpCal := drops.foldl (fun m d => mapPut m d.group d.mv) s.power.bumpCal } } else s
  if bit scope 1 then { s1 with thermal := { s1.thermal with baseL := [], baseD := [] } } else s1

/-! ### Power-on, standby power, resets (R333 to R335) -/

/-- POWER_ON (R333, R336): a supply comes up, the module cold-resets and the Collar boots. -/
def State.powerOn (s : State) (src : PowerSource) : State :=
  match src with
  | .standby => if s.power.standby ∧ 1 ≤ s.power.step then s else State.coldReset { s with power := { s.power with standby := true } }
  | .j1 => if s.power.jIn then s else State.coldReset { s with power := { s.power with jIn := true } }

/-- POWER_ON. -/
def execPowerOn (source : PowerSource) (s : State) : Host.Outcome State Fault Refusal := .next (s.powerOn source)

/-- LOSS_OF_STANDBY_POWER (R355): the Collar stops. Flash keeps the cycle counts as last saved, fuses and tag area; the comparator
latch, the bar of R327 and the Collar's record of trips are lost. -/
def State.loseStandby (s : State) : State :=
  let kept := s.thermal.saved.map fun e => (e.1, { e.2 with started := false })
  let s1 := s.coldBase
  { s1 with
    power := { s1.power with standby := false, barred := false },
    thermal := { s1.thermal with cycles := kept, saved := kept, latched := false, trips := [], held := false, restart := none,
                                 sensors := [] } }

/-- LOSS_OF_STANDBY_POWER. -/
def execLossOfStandbyPower (s : State) : Host.Outcome State Fault Refusal := .next s.loseStandby

/-- HOST_RESET (R334). -/
def execHostReset (kind : HostResetKind) (s : State) : Host.Outcome State Fault Refusal := .next (s.hostReset kind)

/-- FUNCTION_LEVEL_RESET (R334): the link stays up. -/
def execFunctionLevelReset (s : State) : Host.Outcome State Fault Refusal := .next (s.hostResetBase 3)

/-! ### The host link (R296, R337, R340) -/

/-- PERST_DEASSERTION: the port may train, and a module in Fold wakes. -/
def execPerstDeassertion (s : State) : Host.Outcome State Fault Refusal :=
  .next (State.wake { s with host := { s.host with perst := false } })

/-- The widest width that trains (R296). -/
def trainedWidth (l16 l8 l4 : Bool) : Nat := if l16 then 16 else if l8 then 8 else if l4 then 4 else 0

/-- PCIE_LINK_TRAINING (R296, R337): the port trains once step 4 has ended and PERST# is deasserted. -/
def State.linkTraining (s : State) (w rate : Nat) : State :=
  if 4 ≤ s.power.step ∧ !s.host.perst then
    let s1 := { s with host := { s.host with linkUp := w != 0, linkWidth := w, linkRate := if w = 0 then 0 else rate } }
    if w = 0 then s1.event .noHostLink 0 1 else s1
  else s

/-- PCIE_LINK_TRAINING. -/
def execPcieLinkTraining (lanes16 lanes8 lanes4 : Bool) (rate : Fin 7) (s : State) : Host.Outcome State Fault Refusal :=
  .next (s.linkTraining (trainedWidth lanes16 lanes8 lanes4) rate.val)

/-! ### Commands of the Collar (Table 18-2) -/

/-- MCTP_RESET of CL_SERVICE_CTRL. -/
def State.mctpReset (s : State) : Bool := bit s.mgmt.serviceCtrl 0

/-- The Collar's firmware runs and takes commands (R375, R377). -/
def State.collarUp (s : State) : Bool := s.power.standby && decide (1 ≤ s.power.step) && !s.mgmt.recovery

/-- A command carried out, or refused with nothing changed. -/
def State.command (s : State) (code : Nat) (accepted : Bool) (f : State → State) : State :=
  if !s.collarUp then s
  else if accepted then (f s).answer (.command code true []) else s.answer (.command code false [])

/-- COLD_RESET. -/
def execColdReset (s : State) : Host.Outcome State Fault Refusal := .next (s.command 3 s.mctpReset State.coldReset)

/-- PANEL_RESET (R335). -/
def execPanelReset (p : PanelId) (s : State) : Host.Outcome State Fault Refusal :=
  .next (s.command 4 s.mctpReset fun t => t.resetPanel p.val)

/-- PANEL_CYCLE (R335). -/
def execPanelCycle (p : PanelId) (s : State) : Host.Outcome State Fault Refusal :=
  .next (s.command 5 s.mctpReset fun t => t.cyclePanel p.val)

/-- WAKE (R340): refused when the module is neither in Fold nor on its way into it (R341). -/
def execWake (s : State) : Host.Outcome State Fault Refusal := .next (s.command 7 (s.power.fold != .running) State.wake)

/-- RESTART (R350): clears a restart held after three shutdowns. -/
def execRestart (s : State) : Host.Outcome State Fault Refusal :=
  .next (s.command 6 s.thermal.held fun t => { t with thermal := { t.thermal with held := false } })

/-- RECALIBRATE (R329, R353): refused while the power stage is off. -/
def execRecalibrate (scope : BitVec 2) (drops : List BumpDrop) (s : State) : Host.Outcome State Fault Refusal :=
  .next (s.command 8 s.power.stage fun t => t.recalibrate scope drops)

end Sys2Proof.Machine
end

