-- ==== Sys2Proof/Machine/RegMap.lean ====
section
/-!
DEFINITION. The setup register index (19): every setup register by name, and the register at a setup offset (R32, R60, R239, R278,
R342, R357, R393, R394).
-/

namespace Sys2Proof.Machine

/-- CO_ registers (Table 19-5). -/
inductive CoReg where
  | beatRate | beatCountLo | beatCountHi | rosterCtrl | rosterFault | faultWord | rosterRegion | rosterPosition | wordsIssued
  | regionStatus | arrayCtrl | arrayExpert | arrayStatus | arrayWork | arrayPasses | arrayReuse | gatherFlush | gatherRows
  | numericStatus | vectorCtrl | vectorExpert | vectorStatus | vectorOps | attCtrl | attExpert | attStatus | attEvents | attTiles
  | attSkipped | walkCtrl | walkExpert | walkEvents | walkPages | scratchCtrl | scratchExpert | scratchHost | scratchParity
  | scratchLastErr | scratchSpare | scratchWaits | creditWin (w : Nat) | creditStatus | minVolt | minVoltNsLo | minVoltNsHi | tiles
  | temp
deriving DecidableEq, Repr

/-- PK_ registers (Table 19-6). -/
inductive PkReg where
  | ctrl | expert | status | errors | lastWord | lastSyndrome | remap (i : Nat) | retired | banksOffLo | banksOffHi | bankWakes
  | merge
deriving DecidableEq, Repr

/-- CF_ registers (Table 19-7). -/
inductive CfReg where
  | ctrl | expert | status | lastErrUnit | lastErrInfo | retrain | nearEvents | linkStatus | chanState (n : Nat) | chanErr (n : Nat)
deriving DecidableEq, Repr

/-- The setup registers (Tables 19-3 to 19-8), the MSI-X structures apart. -/
inductive Reg where
  | expertEnable | lockedWriteCount | timebaseLo | timebaseHi | timebaseStatus | coreMapIndex | coreMapData | capPopulated
  | capStatus | clashCount | ringSelect | ringStatus | ringLaps | ringOpenings | coolMode | coolExpert | turnStallNs | fenceStatus
  | fenceLastNs | featureLevel | seamCtrl | seamExpert | panelStatus | panelIsolations | panelRejoin | dmaStatus
  | seamStatus (n : Nat) | bar4Window | hqCtrl | hqExpert | hqStatus | logBaseLo | logBaseHi | logCtrl | logStatus | logHead
  | logExpert | logLostSelect | logLost | coreDarken | fprint (n : Nat) | fprintCtrl | fprintStatus | fprintGen
  | sqBaseLo (q : Nat) | sqBaseHi (q : Nat) | sqCtrl (q : Nat) | sqStatus (q : Nat)
  | cqBaseLo (q : Nat) | cqBaseHi (q : Nat) | cqCtrl (q : Nat) | cqStatus (q : Nat)
  | pwCtrl | pwHostCap | pwCapStatus | pwInput | pwExpert | pwSupplyExpert | pwFold | pwFoldCount | pwStartup | pwReset
  | pwBumpSuspect
  | thCtrl | thExpert | thStatus | thCoolant | thCap | thResist (p : Nat) | thPanelTemp (p : Nat) | thCycles (p : Nat)
  | thCycleBins (p : Nat) | thShutdown
  | pnClashCount (p : Nat)
  | co (n : Nat) (r : CoReg)
  | pk (k : Nat) (r : PkReg)
  | cf (k : Nat) (r : CfReg)
  | clStatus | clServiceCtrl | clExpert | clTagCtrl | clFwVersion (n : Nat) | clFwSvn (n : Nat) | clTagData (n : Nat)
  | clIdData (n : Nat)
deriving DecidableEq, Repr

/-- Table 19-5, by block offset. -/
def coRegAt (o : Nat) : Option CoReg :=
  match o with
  | 0x40 => some .beatRate
  | 0x44 => some .beatCountLo
  | 0x48 => some .beatCountHi
  | 0x80 => some .rosterCtrl
  | 0x84 => some .rosterFault
  | 0x88 => some .faultWord
  | 0x90 => some .rosterRegion
  | 0x94 => some .rosterPosition
  | 0x98 => some .wordsIssued
  | 0xA0 => some .regionStatus
  | 0xC0 => some .arrayCtrl
  | 0xC4 => some .arrayExpert
  | 0xC8 => some .arrayStatus
  | 0xCC => some .arrayWork
  | 0xD0 => some .arrayPasses
  | 0xD4 => some .arrayReuse
  | 0xD8 => some .gatherFlush
  | 0xDC => some .gatherRows
  | 0xE0 => some .numericStatus
  | 0xF0 => some .vectorCtrl
  | 0xF4 => some .vectorExpert
  | 0xF8 => some .vectorStatus
  | 0xFC => some .vectorOps
  | 0x100 => some .attCtrl
  | 0x104 => some .attExpert
  | 0x108 => some .attStatus
  | 0x10C => some .attEvents
  | 0x110 => some .attTiles
  | 0x114 => some .attSkipped
  | 0x120 => some .walkCtrl
  | 0x124 => some .walkExpert
  | 0x128 => some .walkEvents
  | 0x12C => some .walkPages
  | 0x140 => some .scratchCtrl
  | 0x144 => some .scratchExpert
  | 0x148 => some .scratchHost
  | 0x14C => some .scratchParity
  | 0x150 => some .scratchLastErr
  | 0x154 => some .scratchSpare
  | 0x158 => some .scratchWaits
  | 0x1A0 => some .creditStatus
  | 0x1C0 => some .minVolt
  | 0x1C4 => some .minVoltNsLo
  | 0x1C8 => some .minVoltNsHi
  | 0x1CC => some .tiles
  | 0x1D0 => some .temp
  | _ => if 0x160 ≤ o ∧ o < 0x1A0 ∧ o % 4 = 0 then some (.creditWin ((o - 0x160) / 4)) else none

/-- Table 19-6, by block offset. -/
def pkRegAt (o : Nat) : Option PkReg :=
  match o with
  | 0x0 => some .ctrl
  | 0x4 => some .expert
  | 0x8 => some .status
  | 0xC => some .errors
  | 0x10 => some .lastWord
  | 0x14 => some .lastSyndrome
  | 0x40 => some .retired
  | 0x44 => some .banksOffLo
  | 0x48 => some .banksOffHi
  | 0x4C => some .bankWakes
  | 0x50 => some .merge
  | _ => if 0x20 ≤ o ∧ o < 0x40 ∧ o % 4 = 0 then some (.remap ((o - 0x20) / 4)) else none

/-- Table 19-7, by block offset. -/
def cfRegAt (o : Nat) : Option CfReg :=
  match o with
  | 0x0 => some .ctrl
  | 0x4 => some .expert
  | 0x8 => some .status
  | 0x10 => some .lastErrUnit
  | 0x14 => some .lastErrInfo
  | 0x18 => some .retrain
  | 0x1C => some .nearEvents
  | 0x20 => some .linkStatus
  | _ =>
    if o % 4 ≠ 0 then none
    else if 0x100 ≤ o ∧ o < 0x140 then some (.chanState ((o - 0x100) / 4))
    else if 0x140 ≤ o ∧ o < 0x180 then some (.chanErr ((o - 0x140) / 4))
    else none

/-- Table 19-3: ring pair q's eight registers. -/
def ringRegAt (o : Nat) : Option Reg :=
  let q := (o - 0x1000) / 0x20
  match (o - 0x1000) % 0x20 with
  | 0x00 => some (.sqBaseLo q)
  | 0x04 => some (.sqBaseHi q)
  | 0x08 => some (.sqCtrl q)
  | 0x0C => some (.sqStatus q)
  | 0x10 => some (.cqBaseLo q)
  | 0x14 => some (.cqBaseHi q)
  | 0x18 => some (.cqCtrl q)
  | 0x1C => some (.cqStatus q)
  | _ => none

/-- Table 19-3. -/
def ykRegAt (o : Nat) : Option Reg :=
  match o with
  | 0x20 => some .expertEnable
  | 0x24 => some .lockedWriteCount
  | 0x40 => some .timebaseLo
  | 0x44 => some .timebaseHi
  | 0x48 => some .timebaseStatus
  | 0x100 => some .coreMapIndex
  | 0x104 => some .coreMapData
  | 0x108 => some .capPopulated
  | 0x10C => some .capStatus
  | 0x200 => some .clashCount
  | 0x210 => some .ringSelect
  | 0x214 => some .ringStatus
  | 0x218 => some .ringLaps
  | 0x21C => some .ringOpenings
  | 0x220 => some .coolMode
  | 0x224 => some .coolExpert
  | 0x228 => some .turnStallNs
  | 0x240 => some .fenceStatus
  | 0x244 => some .fenceLastNs
  | 0x300 => some .featureLevel
  | 0x310 => some .seamCtrl
  | 0x314 => some .seamExpert
  | 0x320 => some .panelStatus
  | 0x324 => some .panelIsolations
  | 0x328 => some .panelRejoin
  | 0x330 => some .dmaStatus
  | 0x400 => some .bar4Window
  | 0x404 => some .hqCtrl
  | 0x408 => some .hqExpert
  | 0x40C => some .hqStatus
  | 0x500 => some .logBaseLo
  | 0x504 => some .logBaseHi
  | 0x508 => some .logCtrl
  | 0x50C => some .logStatus
  | 0x510 => some .logHead
  | 0x514 => some .logExpert
  | 0x518 => some .logLostSelect
  | 0x51C => some .logLost
  | 0x520 => some .coreDarken
  | 0x640 => some .fprintCtrl
  | 0x644 => some .fprintStatus
  | 0x648 => some .fprintGen
  | _ =>
    if o % 4 ≠ 0 then none
    else if 0x340 ≤ o ∧ o < 0x380 then some (.seamStatus ((o - 0x340) / 4))
    else if 0x600 ≤ o ∧ o < 0x640 then some (.fprint ((o - 0x600) / 4))
    else if 0x1000 ≤ o ∧ o < 0x1800 then ringRegAt o
    else none

/-- Table 19-4: PW_ registers. -/
def pwRegAt (o : Nat) : Option Reg :=
  match o with
  | 0x00 => some .pwCtrl
  | 0x04 => some .pwHostCap
  | 0x08 => some .pwCapStatus
  | 0x0C => some .pwInput
  | 0x10 => some .pwExpert
  | 0x14 => some .pwSupplyExpert
  | 0x18 => some .pwFold
  | 0x1C => some .pwFoldCount
  | 0x20 => some .pwStartup
  | 0x24 => some .pwReset
  | 0x28 => some .pwBumpSuspect
  | _ => none

/-- Table 19-4: TH_ registers. -/
def thRegAt (o : Nat) : Option Reg :=
  match o with
  | 0x00 => some .thCtrl
  | 0x04 => some .thExpert
  | 0x08 => some .thStatus
  | 0x0C => some .thCoolant
  | 0x10 => some .thCap
  | 0xC0 => some .thShutdown
  | _ =>
    if o % 4 ≠ 0 then none
    else if 0x40 ≤ o ∧ o < 0x60 then some (.thResist ((o - 0x40) / 4))
    else if 0x60 ≤ o ∧ o < 0x80 then some (.thPanelTemp ((o - 0x60) / 4))
    else if 0x80 ≤ o ∧ o < 0xA0 then some (.thCycles ((o - 0x80) / 4))
    else if 0xA0 ≤ o ∧ o < 0xC0 then some (.thCycleBins ((o - 0xA0) / 4))
    else none

/-- Table 19-8: CL_ registers. -/
def clRegAt (o : Nat) : Option Reg :=
  if o % 4 ≠ 0 then none
  else if o = 0 then some .clStatus
  else if o = 4 then some .clServiceCtrl
  else if o = 8 then some .clExpert
  else if o = 0xC then some .clTagCtrl
  else if o < 0x38 then some (if o % 8 = 0 then .clFwVersion ((o - 8) / 8) else .clFwSvn ((o - 0xC) / 8))
  else if 0x1000 ≤ o ∧ o < 0x2000 then some (.clTagData ((o - 0x1000) / 4))
  else if 0x2000 ≤ o ∧ o < 0x2400 then some (.clIdData ((o - 0x2000) / 4))
  else none

/-- The register at a setup offset (Table 19-2); none where the index lists none. -/
def regAt (o : Nat) : Option Reg :=
  if o < 0x01000000 then ykRegAt o
  else if o < 0x02000000 then pwRegAt (o - 0x01000000)
  else if o < 0x03000000 then thRegAt (o - 0x02000000)
  else if o < 0x04000000 then
    let p := (o - 0x03000000) / 0x100000
    if p < 8 ∧ (o - 0x03000000) % 0x100000 = 0x10 then some (.pnClashCount p) else none
  else if o < 0x06000000 then (coRegAt (o % 0x10000)).map (.co ((o - 0x04000000) / 0x10000))
  else if o < 0x07000000 then
    let p := (o - 0x06000000) / 0x80000
    let c := (o - 0x06000000) % 0x80000 / 0x1000
    if p < 8 ∧ c < 68 then (pkRegAt (o % 0x1000)).map (.pk (68 * p + c)) else none
  else if o < 0x08000000 then
    let k := (o - 0x07000000) / 0x10000
    if k < 12 then (cfRegAt (o % 0x10000)).map (.cf k) else none
  else if o < 0x09000000 then none
  else clRegAt (o - 0x09000000)

/-- The block offset of a CO_ register. -/
def CoReg.offset : CoReg → Nat
  | .beatRate => 0x40
  | .beatCountLo => 0x44
  | .beatCountHi => 0x48
  | .rosterCtrl => 0x80
  | .rosterFault => 0x84
  | .faultWord => 0x88
  | .rosterRegion => 0x90
  | .rosterPosition => 0x94
  | .wordsIssued => 0x98
  | .regionStatus => 0xA0
  | .arrayCtrl => 0xC0
  | .arrayExpert => 0xC4
  | .arrayStatus => 0xC8
  | .arrayWork => 0xCC
  | .arrayPasses => 0xD0
  | .arrayReuse => 0xD4
  | .gatherFlush => 0xD8
  | .gatherRows => 0xDC
  | .numericStatus => 0xE0
  | .vectorCtrl => 0xF0
  | .vectorExpert => 0xF4
  | .vectorStatus => 0xF8
  | .vectorOps => 0xFC
  | .attCtrl => 0x100
  | .attExpert => 0x104
  | .attStatus => 0x108
  | .attEvents => 0x10C
  | .attTiles => 0x110
  | .attSkipped => 0x114
  | .walkCtrl => 0x120
  | .walkExpert => 0x124
  | .walkEvents => 0x128
  | .walkPages => 0x12C
  | .scratchCtrl => 0x140
  | .scratchExpert => 0x144
  | .scratchHost => 0x148
  | .scratchParity => 0x14C
  | .scratchLastErr => 0x150
  | .scratchSpare => 0x154
  | .scratchWaits => 0x158
  | .creditWin w => 0x160 + 4 * w
  | .creditStatus => 0x1A0
  | .minVolt => 0x1C0
  | .minVoltNsLo => 0x1C4
  | .minVoltNsHi => 0x1C8
  | .tiles => 0x1CC
  | .temp => 0x1D0

/-- The setup offset of a CO_ block. -/
def coBase (n : Nat) : Nat := 0x04000000 + 0x10000 * n

/-- The setup offset of a PK_ block of physical column 68p + c. -/
def pkBase (k : Nat) : Nat := 0x06000000 + 0x80000 * (k / 68) + 0x1000 * (k % 68)

/-- The setup offset of a CF_ block. -/
def cfBase (k : Nat) : Nat := 0x07000000 + 0x10000 * k

end Sys2Proof.Machine
end

