-- ==== Sys2Proof/Machine/RegValues.lean ====
section
/-!
DEFINITION. What a read of every setup register returns (the field maps of chapters 00 to 18), with the derived values of expert
registers (R8). Reserved fields read zero (R6), write-only fields read zero (R7).
-/

namespace Sys2Proof.Machine

/-- A register word from its fields: each a value and its lowest bit. -/
def pack (l : List (Nat × Nat)) : Word := BitVec.ofNat 32 (l.map fun e => e.1 * 2 ^ e.2).sum

/-- PART of the vendor identity record: ZN9200-M64, zero-padded (Table 18-5), its first letter in the lowest byte (PRESUMED, log entry
16). -/
def partName : List Byte := [0x5A, 0x4E, 0x39, 0x32, 0x30, 0x30, 0x2D, 0x4D, 0x36, 0x34, 0, 0, 0, 0, 0, 0]

/-- A byte of the vendor identity record (R380, Table 18-5). -/
def identityByte (i : Nat) : Byte := if i < 16 then (partName[i]?).getD 0 else if i < 61 then Config.identityByte i else 0

/-- The vendor identity record: 1 KiB. -/
def identityRecord : List Byte := (List.range 1024).map identityByte

/-! ### Codes of states -/

def MapState.code : MapState → Nat
  | .own => 0
  | .crossover => 1
  | .absent => 2
  | .substituting => 3

def PanelState.code : PanelState → Nat
  | .present => 0
  | .isolated => 1
  | .rejoining => 2
  | .lost => 3

def PortState.code : PortState → Nat
  | .active => 0
  | .retired => 1
  | .down => 2
  | .training => 3

def ChanState.code : ChanState → Nat
  | .active => 0
  | .mirroring => 1
  | .switched => 2
  | .returning => 3
  | .spared => 4
  | .failing => 5
  | .dead => 6
  | .mappedOut => 7

def SqState.code : SqState → Nat
  | .disabled => 0
  | .running => 1
  | .stopped => 2
  | .error => 3

def FoldState.code : FoldState → Nat
  | .running => 0
  | .entering => 1
  | .folded => 2
  | .waking => 3

def RegionState.code : RegionState → Nat
  | .off => 0
  | .ramping => 1
  | .on => 2

def AttIssue.code : AttIssue → Nat
  | .idle => 0
  | .moded => 1
  | .opened => 2

def ChainOwner.code : ChainOwner → Nat
  | .collar => 0
  | .collarBusy => 1
  | .external => 2

/-! ### Temperatures -/

/-- A temperature in an 8-bit field of whole °C; the spec gives readings below 0 °C no code. -/
def tempCode (t : Int) : Nat := if 0 ≤ t then min t.toNat 255 else (Config.noCode t).toNat % 256

/-- A coolant temperature in tenths of °C, 0 at or below 0 °C (Table 16-9). -/
def coolantCode (t : Int) : Nat := min t.toNat 1023

/-- θ_L in units of 0.1 mK/W (Table 16-11). -/
def thetaCode (r : Ratio) : Nat :=
  let v : Int := r.num * 1000 / (max 1 r.den : Nat)
  if 0 ≤ v ∧ v < 65536 then v.toNat else (Config.noCode v).toNat

/-! ### CO_ registers -/

/-- YK_CORE_MAP_DATA of a logical core (Table 01-3). -/
def State.coreMapWord (s : State) (n : Nat) : Word :=
  let e := s.entry n
  pack [(e.state.code, 30), (e.column, 16), (n / 64, 8), (e.phys, 0)]

/-- The current load's N × S (Table 05-11). -/
def loadSegments (a : ArrayState) : Nat :=
  match a.current with
  | some r => r.segments
  | none => 0

/-- CO_ATT_STATUS (Table 08-15). -/
def attStatusWord (a : AttState) : Word :=
  let busy := attTaken a != 0 || !a.tiles.isEmpty || !a.staged.isEmpty || a.walk.isSome
  let err := a.modeError || (a.seq.map (·.error)).getD false
  pack [(flag busy, 31), (a.issue.code, 29), (flag err, 28), (if a.issue = .opened then a.issueRows else 0, 16)]

/-- LOCAL of CO_CREDIT_STATUS (Table 10-17). -/
def creditLocal (n : Nat) (c : ScratchState) : Nat :=
  ((List.range 16).map fun w => if !bit (mapGet 0 c.windowsNow w) 7 || holderOf n c w == .core n then 2 ^ w else 0).sum

/-- CO_TEMP (Table 16-16): 0xFF where a sensor is invalid. -/
def State.coreTemp (s : State) (n : Nat) : Word :=
  let x := s.physOf n
  let code (v : Option Int) : Nat := match v with
    | some t => tempCode t
    | none => 0xFF
  pack [(code (s.valid (0x1000 + s.columnOf n)), 16), (code (s.valid (logicKey x 1)), 8), (tempCode (s.coreReading x), 0)]

/-- A CO_ register of logical core `n`, with the HI latches of the access path. -/
def State.coValue (s : State) (lat : Latches) (n : Nat) (r : CoReg) : Word :=
  let c := s.core n
  let t := c.ctrl
  match r with
  | .beatRate => pack [(if s.power.fold = .folded then 0 else c.seq.beatRate.toNat, 0)]
  | .beatCountLo => BitVec.ofNat 32 c.seq.beats
  | .beatCountHi => mapGet 0 lat.beats n
  | .rosterCtrl => pack [(flag c.seq.clashFault, 0)]
  | .rosterFault => pack [(flag c.seq.fault.faulted, 31), (c.seq.fault.slot.toNat, 24), (c.seq.fault.kind.toNat, 16)]
  | .faultWord => pack [(c.seq.fault.word.toNat, 0)]
  | .rosterRegion => c.seq.regionReg
  | .rosterPosition => pack [(c.seq.position.toNat, 0)]
  | .wordsIssued => c.seq.wordsIssued
  | .regionStatus => pack [(c.regions.autoWakes.toNat, 16), (c.regions.gather.code, 6), (c.regions.vector.code, 4),
      (c.regions.attention.code, 2), (c.regions.array.code, 0)]
  | .arrayCtrl => t.arrayCtrl
  | .arrayExpert => s.expert .co t.arrayExpert 2
  | .arrayStatus => pack [(flag (c.arr.running.isSome || (c.arr.front && decide (c.seq.beats < c.arr.frontEnd))), 31), (c.arr.metaErrors.toNat, 16), (loadSegments c.arr, 0)]
  | .arrayWork => c.arr.work
  | .arrayPasses => c.arr.passes
  | .arrayReuse => c.arr.reuse
  | .gatherFlush => pack [(c.arr.flushForced.toNat, 20), (c.arr.flushTimeout.toNat, 10), (c.arr.flushThreshold.toNat, 0)]
  | .gatherRows => c.arr.gatherRows
  | .numericStatus => pack [(c.arr.saturations.toNat, 16), (c.arr.nanBlocks.toNat, 8), (c.arr.t2Reserved.toNat, 0)]
  | .vectorCtrl => t.vectorCtrl
  | .vectorExpert => s.expert .co t.vectorExpert (lowStep t.vectorCtrl)
  | .vectorStatus => pack [(flag (vecTaken c.vec != 0), 31), (min 16 (vecTaken c.vec), 16), (flag c.vec.tableValid, 0)]
  | .vectorOps => c.vec.ops
  | .attCtrl => t.attCtrl
  | .attExpert => s.expert .co t.attExpert (lowStep t.attCtrl)
  | .attStatus => attStatusWord c.att
  | .attEvents => pack [(c.att.saturations.toNat, 16), (c.att.nanRows.toNat, 8), (c.att.modeErrors.toNat, 0)]
  | .attTiles => c.att.tileCount
  | .attSkipped => c.att.skipped
  | .walkCtrl => t.walkCtrl
  | .walkExpert => s.expert .co t.walkExpert 2
  | .walkEvents => pack [(c.att.walks.toNat, 16), (c.att.walkBadPages.toNat, 8), (c.att.walkErrors.toNat, 0)]
  | .walkPages => c.att.walkPages
  | .scratchCtrl => t.scratchCtrl
  | .scratchExpert => s.expert .co t.scratchExpert 4
  | .scratchHost => pack [(c.scr.hostGroups.toNat, 0)]
  | .scratchParity => pack [(c.scr.errors.toNat, 16), (c.scr.reexecutions.toNat, 8), (c.scr.hostReadErrors.toNat, 0)]
  | .scratchLastErr => c.scr.lastErr
  | .scratchSpare => pack [(flag (c.scr.pendingBank != 0xFF), 31), (flag c.scr.darkPending, 30), (c.scr.pendingBank.toNat, 8),
      (c.scr.spareFor.toNat, 0)]
  | .scratchWaits => c.scr.waits
  | .creditWin w => pack [((mapGet 0 c.scr.windows w).toNat, 0)]
  | .creditStatus => pack [(c.scr.misuse.toNat, 24), (creditLocal n c.scr, 0)]
  | .minVolt => pack [(c.supply.gateEvents.toNat, 10), (c.supply.minMv.toNat, 0)]
  | .minVoltNsLo => c.supply.minTime.setWidth 32
  | .minVoltNsHi => mapGet 0 lat.minVolt n
  | .tiles => pack [(tileCount (s.tilesOf (s.physOf n)), 16), ((s.tilesOf (s.physOf n)).toNat, 0)]
  | .temp => s.coreTemp n

/-! ### PK_ and CF_ registers -/

/-- A scrub pass is running on a column. -/
def State.scrubActive (s : State) (k : Nat) : Bool :=
  match s.slotOwner k with
  | some n => s.scrubs.any fun p => p.parts.any fun x => x.ring == ringKey 2 n
  | none => false

/-- PK_STATUS (Table 11-10). -/
def State.pkStatusWord (s : State) (k : Nat) : Word :=
  let c := s.column k
  pack [(c.multNow.toNat, 30), (flag (s.selfRefreshes k), 29), (flag (s.scrubActive k), 28), (min c.debt 15, 24),
    (c.sensorC.toNat, 16), (c.refreshGroup.toNat, 0)]

/-- PK_REMAPn (Table 11-14). -/
def remapWord (e : RemapEntry) : Word := pack [(e.state.toNat, 30), (e.spare.toNat, 26), (e.word.toNat, 0)]

/-- A PK_ register of physical column `k`. -/
def State.pkValue (s : State) (k : Nat) (r : PkReg) : Word :=
  let c := s.column k
  match r with
  | .ctrl => c.ctrl
  | .expert => s.expert .pk c.expert 2
  | .status => s.pkStatusWord k
  | .errors => pack [(c.corrected.toNat, 16), (c.uncorrectable.toNat, 8), (c.verifyFails.toNat, 0)]
  | .lastWord => pack [(c.lastWord.toNat, 0)]
  | .lastSyndrome => c.lastSyndrome
  | .remap i => remapWord ((c.remap[i]?).getD ⟨0, 0, 0⟩)
  | .retired => pack [(c.retiredCount.toNat, 16), (c.lastPage.toNat, 0)]
  | .banksOffLo => c.banksOff.setWidth 32
  | .banksOffHi => field c.banksOff 32 32
  | .bankWakes => c.wakes
  | .merge => pack [(c.rmw.toNat, 16), (c.merged.toNat, 0)]

/-- CF_CHAN_STATEn (Table 12-17). -/
def chanWord (c : Channel) (tempC : BitVec 8) (m : BitVec 2) : Word :=
  pack [(c.state.code, 28), (c.pkg.toNat, 25), (c.ch.toNat, 23), (m.toNat, 21), (tempC.toNat, 8), (c.retrains.toNat, 0)]

/-- FAILING of CF_STATUS (Table 12-11). -/
def failingMask (c : Cuff) : Nat := ((c.channels.zipIdx).map fun e => if chanLost e.1 then 2 ^ e.2 else 0).sum

/-- A CF_ register of Cuff `k`; SEQ_CHANNEL reads 0x1F while no sequence runs. -/
def State.cfValue (s : State) (k : Nat) (r : CfReg) : Word :=
  let c := s.cuff k
  match r with
  | .ctrl => c.ctrl
  | .expert => s.cuffExpert k
  | .status => pack [(c.freeSpares.length, 24), ((c.seq.map (·.slot)).getD 0x1F, 16), (failingMask c, 0)]
  | .lastErrUnit => pack [(c.lastErrUnit.toNat, 0)]
  | .lastErrInfo => c.lastErrInfo
  | .retrain => 0
  | .nearEvents => pack [(c.atomicWraps.toNat, 16), (c.saturations.toNat, 8), (c.nearErrors.toNat, 0)]
  | .linkStatus => pack [(c.linkRetries.toNat, 16), (c.busRetries.toNat, 8), (c.width.toNat, 0)]
  | .chanState n => chanWord (s.chan k n) (s.packageOf k n).tempC (s.chanMultNow k n)
  | .chanErr n =>
    let x := s.chan k n
    pack [(x.corrected.toNat, 16), (x.uncorrectable.toNat, 8), (x.linkCorrected.toNat, 0)]

/-! ### Host interface, log, power, thermal and Collar registers -/

/-- The ring that YK_RING_SELECT names, where there is one (DEDUCED, log entry 30). -/
def State.selectedRing (s : State) : Option Nat :=
  let cls := (field s.yoke.ringSelect 16 8).toNat
  let inst := (field s.yoke.ringSelect 0 16).toNat
  if 1 ≤ cls ∧ cls ≤ 7 ∧ inst < ringInstances cls then some (ringKey cls inst) else none

/-- YK_RING_STATUS, YK_RING_LAPS, YK_RING_OPENINGS of the selected ring (Tables 03-20 to 03-22). -/
def State.ringStatusWord (s : State) : Word :=
  match s.selectedRing with
  | some key => (s.ring key).statusWord
  | none => pack [(3, 30)]
def State.ringLapsWord (s : State) : Word :=
  match s.selectedRing with
  | some key => (s.ring key).laps
  | none => 0
def State.ringOpeningsWord (s : State) : Word :=
  match s.selectedRing with
  | some key =>
    let k := (field s.yoke.ringSelect 24 4).toNat
    pack [((mapGet 0 (s.ring key).usedCounts k).toNat, 16), ((mapGet 0 (s.ring key).idleCounts k).toNat, 0)]
  | none => 0

/-- Fences fetched and not yet completed. -/
def State.fencesPending (s : State) : Nat :=
  (s.host.sqs.map fun e => (e.2.descs.filter fun d => d.opcode == opPageFence).length).sum

/-- YK_FEATURE_LEVEL (Table 13-9). -/
def State.featureWord (s : State) : Word :=
  pack ([(s.yoke.level, 20), (s.yoke.yokeLevel.toNat, 16)] ++ (List.range 8).map fun p => ((s.panel p).feature.toNat, 2 * p))

/-- YK_SQ_CTRLq, YK_SQ_STATUSq, YK_CQ_CTRLq, YK_CQ_STATUSq (Tables 14-6 to 14-9). -/
def Sq.ctrlWord (q : Sq) : Word := pack [(flag q.enable, 31), (q.cq.toNat, 16), (q.log2.toNat, 0)]
def Sq.statusWord (q : Sq) : Word :=
  pack [(q.state.code, 30), ((q.descs.filter fun d => !d.started).length, 16), (q.head, 0)]
def Cq.ctrlWord (c : Cq) : Word := pack [(flag c.enable, 31), (flag c.irqEnable, 30), (c.vector.toNat, 16), (c.log2.toNat, 0)]
def Cq.statusWord (c : Cq) : Word := pack [(flag c.full, 31), (flag c.phase, 16), (c.tail, 0)]

/-- YK_SEAM_STATUSn (Table 13-16). -/
def SeamPort.word (x : SeamPort) : Word :=
  pack [(x.state.code, 30), (x.module.toNat, 26), (x.cause.toNat, 24), (x.replays.toNat, 0)]

/-- STATE of TH_STATUS (Table 16-8) (DEDUCED, log entry 36). -/
def State.thermalState (s : State) : Nat :=
  if s.thermal.clamp.asked then 3 else if s.thermal.excursion then 2 else if s.limiter = 2 then 1 else 0

/-- The fastest sampling rate in use on a Panel (Table 16-12). -/
def State.panelRate (s : State) (p : Nat) : Nat :=
  s.thermal.sensors.foldl (fun a e =>
    let on := (isDiode e.1 && decide (e.1 < 32) && e.1 / 4 == p) || (isLogic e.1 && logicCore e.1 / 68 == p)
      || (isDram e.1 && (e.1 - 0x1000) / 68 == p)
    if on then max a e.2.rate else a) 0

/-- A 32-bit word of bytes 4i to 4i + 3 (R380, R381). -/
def wordOfBytes (f : Nat → Byte) (i : Nat) : Word :=
  BitVec.ofNat 32 (leNat [f (4 * i), f (4 * i + 1), f (4 * i + 2), f (4 * i + 3)])

/-- BANK of CL_FW_SVNn. -/
def bankCode : Option Bool → Nat
  | some false => 0
  | some true => 1
  | none => 3

/-- CL_FW_VERSIONn and CL_FW_SVNn (Tables 18-22, 18-23). -/
def Firmware.versionWord (f : Firmware) : Word := (f.now.map (·.version)).getD 0
def Firmware.svnWord (f : Firmware) : Word :=
  pack [(f.counter, 24), (bankCode f.running, 22), (flag f.pending, 21), ((f.now.map (·.svn.toNat)).getD 0, 0)]

/-- A 64-bit ring base as its two registers (Tables 14-4, 14-5, 17-8, 17-9). -/
def baseLo (b : BitVec 64) : Word := b.setWidth 32
def baseHi (b : BitVec 64) : Word := field b 32 32

/-- PW_SUPPLY_EXPERT as derived: Yoke and Cuffs 20, cores 5 × CORE_POINT (Table 15-12). -/
def State.supplyDerived (s : State) : Word :=
  pack [(20, 16), (20, 8), ((pointMv (field s.power.ctrl 0 3).toNat - 550) / 10, 0)]

/-- What a read of a register returns, with the HI latches of the access path (DESIGN CHOICE, log entry 16). -/
def State.regValue (s : State) (lat : Latches) (r : Reg) : Word :=
  let y := s.yoke
  let h := s.host
  let l := s.log
  let p := s.power
  let t := s.thermal
  let m := s.mgmt
  match r with
  | .expertEnable => y.expertEnable
  | .lockedWriteCount => y.lockedWrites
  | .timebaseLo => BitVec.ofNat 32 s.now
  | .timebaseHi => lat.timebase
  | .timebaseStatus => pack [(s.time.refLosses.toNat, 16), (flag s.time.refLost, 1), (flag s.time.locked, 0)]
  | .coreMapIndex => y.mapIndex
  | .coreMapData => s.coreMapWord (field y.mapIndex 0 9).toNat
  | .capPopulated => pack [(s.cap.populatedMib.toNat, 0)]
  | .capStatus => pack [(s.cap.discarded.toNat, 24), (s.pendingMapout, 16), (s.cap.active.toNat, 0)]
  | .clashCount => y.clashCount
  | .ringSelect => y.ringSelect
  | .ringStatus => s.ringStatusWord
  | .ringLaps => s.ringLapsWord
  | .ringOpenings => s.ringOpeningsWord
  | .coolMode => y.coolMode
  | .coolExpert => s.coolExpert
  | .turnStallNs => y.turnStall
  | .fenceStatus => pack [(y.fenceIsolated.toNat, 16), (s.fencesPending, 0)]
  | .fenceLastNs => y.fenceLastNs
  | .featureLevel => s.featureWord
  | .seamCtrl => y.seamCtrl
  | .seamExpert => s.seamExpert
  | .panelStatus => pack ((List.range 8).map fun q => ((s.panel q).state.code, 2 * q))
  | .panelIsolations => pack ((List.range 8).map fun q => ((s.panel q).isolations.toNat, 4 * q))
  | .panelRejoin | .coreDarken | .pwReset | .clTagCtrl => 0
  | .dmaStatus => pack [(h.busy.toNat, 8), (h.halted.toNat, 0)]
  | .seamStatus n => (s.seam n).word
  | .bar4Window => pack [(h.window.toNat, 0)]
  | .hqCtrl => h.hqCtrl
  | .hqExpert => s.hqExpert
  | .hqStatus => pack [(h.cqFullWaits.toNat, 16), (h.fetchErrors.toNat, 8), (h.doorbellErrors.toNat, 0)]
  | .logBaseLo => baseLo l.base
  | .logBaseHi => baseHi l.base
  | .logCtrl => l.ctrl
  | .logStatus => pack [(flag l.full, 31), (l.writes.length, 17), (flag l.phase, 16), (l.tail, 0)]
  | .logHead => pack [(l.head.toNat, 0)]
  | .logExpert => s.logExpert
  | .logLostSelect => l.lostSelect
  | .logLost => mapGet 0 l.lostCounts (field l.lostSelect 0 8).toNat
  | .fprint n => if n = 0 then wordOfBytes (fun i => (m.digest[i]?).getD 0) 0 else (lat.fprint[n - 1]?).getD 0
  | .fprintCtrl => m.fprintCtrl
  | .fprintStatus => pack [(flag m.valid, 31), (flag m.busy, 30), (flag m.unstable, 29), (m.computations.toNat, 18),
      (m.recordBytes.toNat, 0)]
  | .fprintGen => m.gen
  | .sqBaseLo q => baseLo (s.sq q).base
  | .sqBaseHi q => baseHi (s.sq q).base
  | .sqCtrl q => (s.sq q).ctrlWord
  | .sqStatus q => (s.sq q).statusWord
  | .cqBaseLo q => baseLo (s.cq q).base
  | .cqBaseHi q => baseHi (s.cq q).base
  | .cqCtrl q => (s.cq q).ctrlWord
  | .cqStatus q => (s.cq q).statusWord
  | .pwCtrl => p.ctrl
  | .pwHostCap => pack [(p.hostCap.toNat, 0)]
  | .pwCapStatus => pack [(s.capW, 18), (s.limiter, 16), (p.duty, 10), (p.supplyMv, 0)]
  | .pwInput => pack [(p.inputW.toNat, 16), (p.inputV.toNat, 0)]
  | .pwExpert => s.expert .pw p.expert 0x000A0A05
  | .pwSupplyExpert => s.expert .pw p.supplyExpert s.supplyDerived
  | .pwFold => pack [(p.fold.code, 30)]
  | .pwFoldCount => pack [(p.folds.toNat, 16), (p.lastWakeUs.toNat, 0)]
  | .pwStartup => pack [(p.step, 28), (flag p.ready, 27), (flag p.failed, 26), (p.lastReset.toNat, 16), (p.durationMs.toNat, 0)]
  | .pwBumpSuspect => pack [(p.bumpGroups.toNat, 16), (p.bumpDies.toNat, 0)]
  | .thCtrl => t.ctrl
  | .thExpert => s.expert .th t.expert 0x00027D0A
  | .thStatus => pack [(s.thermalState, 30), (flag t.clamp.flow, 29), (t.warn.toNat, 16), (t.invalidCount.toNat, 8),
      (t.disagree.toNat, 0)]
  | .thCoolant => pack [(s.flowDl, 20), (coolantCode (s.sensor outletKey).value, 10), (coolantCode s.inletDc, 0)]
  | .thCap => pack [(t.thermalW.toNat, 16), (t.limiting.toNat, 0)]
  | .thResist q => pack [(if mapHas t.baseL q then thetaCode (mapGet ⟨0, 1⟩ t.baseL q) else 0, 16),
      (thetaCode (mapGet ⟨0, 1⟩ t.thetaL q), 0)]
  | .thPanelTemp q => pack [(tempCode (s.hotLogic q), 24), (tempCode (s.hotDram q), 16), (tempCode (s.hotDiode q), 8),
      (s.panelRate q, 0)]
  | .thCycles q => (mapGet Cycles.reset t.cycles q).total
  | .thCycleBins q => pack [((mapGet Cycles.reset t.cycles q).bin40.toNat, 16), ((mapGet Cycles.reset t.cycles q).bin60.toNat, 0)]
  | .thShutdown => pack [(t.shutdowns.toNat, 16), (t.lastDiode.toNat, 0)]
  | .pnClashCount q => (s.panel q).clashCount
  | .co n r => s.coValue lat n r
  | .pk k r => s.pkValue k r
  | .cf k r => s.cfValue k r
  | .clStatus => pack [(flag m.debugLocked, 31), (flag m.testMode, 30), (flag m.strap, 29), (flag m.tagLocked, 28),
      (m.chain.code, 26), (m.tagWrites.toNat, 0)]
  | .clServiceCtrl => m.serviceCtrl
  | .clExpert => s.collarExpert
  | .clFwVersion n => (s.fw n).versionWord
  | .clFwSvn n => (s.fw n).svnWord
  | .clTagData n => wordOfBytes (memGet m.tagBytes) n
  | .clIdData n => wordOfBytes identityByte n

end Sys2Proof.Machine
end

