-- ==== Sys2Proof/Machine/Sha3.lean ====
section
/-!
DEFINITION. SHA3-512 (FIPS 202), the hash of firmware (R376), measurements (R379) and of the configuration fingerprint (R383).
The state is 25 lanes, lane (x, y) at index x + 5y.
-/

namespace Sys2Proof.Machine

/-- The lane at a place of the 5 × 5 sheet, coordinates taken modulo 5. -/
def lane (s : List DWord) (x y : Nat) : DWord := s.getD (x % 5 + 5 * (y % 5)) 0

/-- A sheet from its lanes' values by place. -/
def sheet (value : Nat → Nat → DWord) : List DWord := (List.range 25).map fun i => value (i % 5) (i / 5)

/-- The exclusive or of a column. -/
def columnParity (s : List DWord) (x : Nat) : DWord := (List.range 5).foldl (fun a y => a ^^^ lane s x y) 0

/-- The step θ: each lane takes in the parities of the columns on its two sides, the right one turned by one bit. -/
def mixColumns (s : List DWord) : List DWord :=
  let turned := (List.range 5).map fun x => columnParity s (x + 4) ^^^ (columnParity s (x + 1)).rotateLeft 1
  sheet fun x y => lane s x y ^^^ turned.getD x 0

/-- The walk of the step ρ over the 24 places other than (0, 0): step t turns its lane by the triangular number of t + 1, and goes from
(x, y) to (y, 2x + 3y). -/
def turnWalk (steps t x y : Nat) : List (Nat × Nat) :=
  match steps with
  | 0 => []
  | k + 1 => (x + 5 * y, (t + 1) * (t + 2) / 2 % 64) :: turnWalk k (t + 1) y ((2 * x + 3 * y) % 5)

/-- The steps ρ and π: a lane is turned, then moved from (x + 3y, x) to (x, y). -/
def turnAndMove (s : List DWord) : List DWord :=
  let turns := turnWalk 24 0 1 0
  sheet fun x y =>
    let i := (x + 3 * y) % 5 + 5 * x
    (s.getD i 0).rotateLeft ((turns.lookup i).getD 0)

/-- The step χ: along a row, a lane is flipped where the next is clear and the one after it set. -/
def mixRows (s : List DWord) : List DWord :=
  sheet fun x y => lane s x y ^^^ (lane s (x + 2) y &&& ~~~ lane s (x + 1) y)

/-- The shift register of the step ι, of polynomial x⁸ + x⁶ + x⁵ + x⁴ + 1. -/
def shiftRegister (r : Byte) : Byte := (r <<< 1) ^^^ (if bit r 7 then 0x71 else 0)

/-- The constant of a round, whose bit 2^j − 1 is the register's j-th output bit, and the register after it. -/
def roundConstant (r : Byte) : DWord × Byte :=
  (List.range 7).foldl (fun a j => (if bit a.2 0 then a.1 ||| (1 : DWord) <<< (2 ^ j - 1) else a.1, shiftRegister a.2)) (0, r)

/-- `rounds` rounds of the permutation, with the register before the first. -/
def permute (rounds : Nat) (r : Byte) (s : List DWord) : List DWord :=
  match rounds with
  | 0 => s
  | k + 1 =>
    let c := roundConstant r
    permute k c.2 (modifyNth (mixRows (turnAndMove (mixColumns s))) 0 fun w => w ^^^ c.1)

/-- The rate of SHA3-512 in bytes. -/
def sha3Rate : Nat := 72

/-- The message padded to whole blocks. -/
def sha3Pad (m : List Byte) : List Byte :=
  let gap := sha3Rate - m.length % sha3Rate
  if gap = 1 then m ++ [0x86] else m ++ [0x06] ++ List.replicate (gap - 2) 0 ++ [0x80]

/-- One block absorbed. -/
def sha3Absorb (s : List DWord) (block : List Byte) : List DWord :=
  let ws := (chunks 8 9 block).map fun b => BitVec.ofNat 64 (leNat b)
  permute 24 1 (s.zipIdx.map fun e => e.1 ^^^ ws.getD e.2 0)

/-- The 64-byte SHA3-512 digest of a message. -/
def sha3 (m : List Byte) : List Byte :=
  let p := sha3Pad m
  let s := (chunks sha3Rate p.length p).foldl sha3Absorb (List.replicate 25 0)
  (s.take 8).flatMap fun w => leBytes 8 w.toNat

end Sys2Proof.Machine
end

