-- ==== Sys2Proof/Machine/Fingerprint.lean ====
section
/-!
DEFINITION. The configuration fingerprint (R383 to R386, R396): the canonical record with its firmware, sparing and register
entries, a computation of its digest, and the count of changes of fingerprinted values (R385).
-/

namespace Sys2Proof.Machine

/-! ### Fingerprinted registers (Tables 19-3 to 19-8) -/

/-- Fingerprinted YK_ registers, in ascending offset. -/
def fpYoke : List (Nat × Reg) :=
  [(0x20, .expertEnable), (0x108, .capPopulated), (0x220, .coolMode), (0x224, .coolExpert), (0x228, .turnStallNs),
   (0x300, .featureLevel), (0x310, .seamCtrl), (0x314, .seamExpert), (0x404, .hqCtrl), (0x408, .hqExpert), (0x508, .logCtrl),
   (0x514, .logExpert), (0x640, .fprintCtrl)]

/-- Fingerprinted PW_ and TH_ registers. -/
def fpPower : List (Nat × Reg) :=
  [(0x01000000, .pwCtrl), (0x01000010, .pwExpert), (0x01000014, .pwSupplyExpert), (0x02000000, .thCtrl), (0x02000004, .thExpert)]

/-- Fingerprinted registers of a CO_ block. -/
def fpCore : List CoReg :=
  [.rosterCtrl, .rosterRegion, .arrayCtrl, .arrayExpert, .vectorCtrl, .vectorExpert, .attCtrl, .attExpert, .walkCtrl, .walkExpert,
   .scratchCtrl, .scratchExpert]

/-- Logical cores that are not absent. -/
def State.presentCores (s : State) : List Nat := (List.range 512).filter fun n => (s.entry n).state != .absent

/-- Columns of the Panels that reported a level at cold reset. -/
def State.fpColumns (s : State) : List Nat := (List.range 544).filter fun k => (s.panel (k / 68)).feature != 0

/-- The register part's registers, in ascending offset (R396). -/
def State.fpRegs (s : State) : List (Nat × Reg) :=
  fpYoke ++ fpPower
    ++ (s.presentCores.flatMap fun n => fpCore.map fun r => (coBase n + r.offset, Reg.co n r))
    ++ (s.fpColumns.flatMap fun k => [(pkBase k, Reg.pk k .ctrl), (pkBase k + 4, Reg.pk k .expert)])
    ++ ((List.range 12).flatMap fun k => [(cfBase k, Reg.cf k .ctrl), (cfBase k + 4, Reg.cf k .expert)])
    ++ [(0x09000004, .clServiceCtrl), (0x09000008, .clExpert)]

/-! ### The canonical record -/

/-- A sparing entry and a register entry (Table 18-8). -/
def sparingEntry (kind index value : Nat) : List Byte := leBytes 8 (kind * 2 ^ 56 + index * 2 ^ 40 + value)
def registerEntry (offset value : Nat) : List Byte := leBytes 8 (offset * 2 ^ 32 + value)

/-- A firmware entry (Table 18-7); a component that does not run has zeros. -/
def State.firmwareEntry (s : State) (c : Nat) : List Byte :=
  match (s.fw c).now with
  | some i => leBytes 8 (c + i.svn.toNat * 2 ^ 16 + i.version.toNat * 2 ^ 32) ++ (i.digest ++ List.replicate 8 0).take 8
  | none => leBytes 16 c

/-- Retired pages that the repair log holds, in ascending order. -/
def loggedPages (c : Column) : List Nat := (c.retired.take 32).foldr (insertBy fun a b => decide (a < b)) []

/-- The sparing part (Table 18-9). -/
def State.sparingPart (s : State) : List (List Byte) :=
  let cores := s.presentCores
  let columns := List.range 544
  ((List.range 512).map fun n => sparingEntry 1 n (s.coreMapWord n).toNat)
    ++ (cores.map fun n => sparingEntry 2 n (s.core n).scr.spareFor.toNat)
    ++ (columns.flatMap fun k => (List.range 8).map fun i =>
          sparingEntry 3 (8 * k + i) (s.pkValue k (.remap i)).toNat)
    ++ (columns.flatMap fun k => (loggedPages (s.column k)).map fun p => sparingEntry 4 k p)
    ++ (cores.map fun n => sparingEntry 5 n (s.coValue Latches.reset n .tiles).toNat)
    ++ ((List.range 16).map fun n => sparingEntry 6 n (s.seam n).state.code)
    ++ ((List.range 12).map fun k => sparingEntry 7 k (s.cuff k).width.toNat)
    ++ ((List.range 12).flatMap fun k => (List.range 16).map fun n =>
          sparingEntry 8 (16 * k + n) ((chanWord (s.chan k n) 0 0).toNat / 2 ^ 23 * 2 ^ 23))

/-- The register part: the value that a read returns, or the shadow's where no read reaches the block. -/
def State.registerPart (s : State) : List (List Byte) :=
  s.fpRegs.map fun e => registerEntry e.1 (s.regValue Latches.reset e.2).toNat

/-- The record header (Table 18-6). -/
def recordHeader (regs spares level : Nat) (locked : Bool) : List Byte :=
  leBytes 12 (1 + flag locked * 2 ^ 16 + level * 2 ^ 20 + 5 * 2 ^ 24 + spares * 2 ^ 32 + regs * 2 ^ 64) ++ List.replicate 52 0

/-- The canonical record (R383). -/
def State.canonicalRecord (s : State) : List Byte :=
  let sp := s.sparingPart
  let rg := s.registerPart
  recordHeader rg.length sp.length s.yoke.level s.mgmt.debugLocked
    ++ ((List.range 5).flatMap fun i => s.firmwareEntry (i + 1)) ++ sp.flatten ++ rg.flatten

/-! ### Computations (R385, R386) -/

/-- The record and the digest of a computation take effect; a new digest is reported. -/
def State.keepDigest (s : State) (record digest : List Byte) (unstable : Bool) : State :=
  let m := s.mgmt
  let s1 := { s with mgmt := { m with digest := digest, record := record, valid := true, unstable := unstable,
                                      recordBytes := BitVec.ofNat 18 record.length, computations := wrapAdd m.computations 1,
                                      genDone := m.gen } }
  if digest = m.digest then s1 else s1.event .fprintChanged 0 (leNat digest)

/-- One computation. `unstable` is whether its fourth gather also overlapped a change. -/
def State.computeFingerprint (s : State) (unstable : Bool) : State :=
  let r := s.canonicalRecord
  s.keepDigest r (sha3 r) unstable

/-- How many of some registers read otherwise than before (DEDUCED, log entry 38). -/
def changedValues (a b : State) (rs : List Reg) : Nat :=
  (rs.filter fun r => a.regValue Latches.reset r != b.regValue Latches.reset r).length

/-- A write's changes of fingerprinted values counted (DEDUCED, log entry 38). -/
def State.countChanges (b a : State) (rs : List Reg) : State :=
  { b with mgmt := { b.mgmt with gen := wrapAdd b.mgmt.gen (changedValues a b rs) } }

end Sys2Proof.Machine
end

