-- ==== Sys2Proof/Machine/StartUp.lean ====
section
/-!
DEFINITION. Start-up from the enable of the power stage to READY (R336, R337): the Yoke, the Panels and the feature level (R287),
the Cuffs and their spares (R263), self test and the core map (R12 to R14, R212), the fills, READY with the anti-rollback
counters (R378).
-/

namespace Sys2Proof.Machine

/-! ### Self test and the core map (R13, R14, R212, R327) -/

/-- The failing banks and tiles of a physical core. -/
def reportBanks (r : StartupReport) (k : Nat) : List Nat :=
  ((r.failedBanks.filter fun e => e.1.val == k).map fun e => e.2.toNat).eraseDups
def reportTiles (r : StartupReport) (k : Nat) : BitVec 16 :=
  (r.failedTiles.filter fun e => e.1.val == k).foldl (fun a e => a ||| e.2) 0

/-- A core that is not fused dark passes its start-up self test. -/
def reportPasses (r : StartupReport) (k : Nat) : Bool :=
  !(r.failedCores.any fun x => x.val == k) && decide ((reportBanks r k).length ≤ 1) && decide (tileCount (reportTiles r k) < 4)

def reportFused (r : StartupReport) (k : Nat) : Bool := r.fused.any fun x => x.val == k

/-- The state that start-up gives a physical core. -/
def reportPhys (r : StartupReport) (k : Nat) : PhysState :=
  if reportFused r k then .fusedDark
  else if !reportPasses r k then .dark
  else if k % 68 % 17 = 16 ∧ (List.range 17).all fun i => !reportFused r (k - i) && reportPasses r (k - i) then .inactive
  else .active

/-- A Panel completes training: it reports a level, and one of its ports trains. -/
def reportTrains (r : StartupReport) (p : Nat) : Bool :=
  (r.panelLevels[p]?).getD 0 != 0 && [2 * p, 2 * p + 1].any fun n => !r.failedPorts.any fun e => e.1.val == n

/-- The core map entry of rank `i` on Panel `p`. -/
def reportEntry (r : StartupReport) (p i : Nat) : MapEntry :=
  let act := (List.range 68).filter fun c => reportPhys r (68 * p + c) == .active
  let lost := !reportTrains r p
  match act[i]? with
  | some c => if lost then ⟨.absent, 0x7F, 0x7F⟩ else ⟨.own, c, c⟩
  | none => ⟨.absent, 0x7F, 0x7F⟩

/-- The core map of start-up; entries as delivered are not listed. -/
def reportMap (r : StartupReport) : CoreMap :=
  { CoreMap.reset with
    phys := (List.range 544).filterMap fun k => if reportPhys r k = physDefault k then none else some (k, reportPhys r k),
    entries := (List.range 512).filterMap fun n =>
      let e := reportEntry r (n / 64) (n % 64)
      if e = entryDefault n then none else some (n, e),
    tiles := (List.range 544).filterMap fun k => if reportTiles r k = 0 then none else some (k, reportTiles r k),
    failedBanks := (List.range 544).filterMap fun k =>
      match reportBanks r k with
      | b :: _ => if b < 64 then some (k, BitVec.ofNat 8 b) else none
      | [] => none }

/-- The spare bank of a core with one failing bank. -/
def State.mapBank (s : State) (n : Nat) : State :=
  if (s.entry n).state = .absent then s
  else
    let c := s.core n
    s.setCore n { c with scr := { c.scr with spareFor := s.spareOf (s.physOf n) } }

/-! ### Steps -/

/-- The feature level: the lowest among the Yoke and the Panels that trained. -/
def reportLevel (r : StartupReport) : Nat :=
  (((List.range 8).filter (reportTrains r)).map fun p => ((r.panelLevels[p]?).getD 0).toNat).foldl min r.yokeLevel.toNat

/-- Step 4: the timebase starts. -/
def State.startYoke (s : State) : State :=
  { s with time := { s.time with now := 0, locked := true } }

/-- A Panel powers up and reports its level, or is LOST. -/
def State.startPanel (s : State) (r : StartupReport) (p : Nat) : State :=
  let l := if reportTrains r p then (r.panelLevels[p]?).getD 0 else 0
  s.updPanel p fun x => { x with powered := true, feature := l, state := if l = 0 then .lost else .present }

/-- Step 5: the Panels, the Seams and the level. -/
def State.startPanels (s : State) (r : StartupReport) : State :=
  let s1 := foldOver (List.range 8) (fun t p => t.startPanel r p) s
  let s2 := { s1 with yoke := { s1.yoke with level := reportLevel r, yokeLevel := r.yokeLevel } }
  foldOver r.failedPorts (fun t p => t.retirePort p.1.val p.2.val 3) (s2.countChanges s [.featureLevel])

/-- A slot whose own channel fails takes a spare, or becomes FAILING (R243, R263, R264). -/
def Cuff.startSlot (c : Cuff) (bad : List Nat) (n : Nat) : Cuff :=
  if bad.contains n then
    match c.freeSpares with
    | i :: _ => c.updChan n fun x => { x with state := .spared, pkg := 4, ch := BitVec.ofNat 2 i }
    | [] => c.updChan n fun x => { x with state := .failing }
  else c

/-- Step 6: a Cuff trains and tests its channels. -/
def State.startCuff (s : State) (r : StartupReport) (k : Nat) : State :=
  let bad := (r.failedChannels.filter fun e => e.1.val == k).map fun e => e.2.val
  let s1 := s.updCuff k fun c =>
    (List.range 16).foldl (fun a n => a.startSlot bad n)
      { c with sparesBad := (bad.filter fun i => decide (16 ≤ i)).map (· - 16) }
  foldOver (List.range 16) (fun t n => if (t.chan k n).state = .failing then t.cuffNote k 0x35 n 0 0 else t)
    (s1.changedBy ((s1.cuff k).changes (s.cuff k)))

/-- The records of a core's tiles that fail their self check (R326). -/
def State.tileRecords (s : State) (r : StartupReport) (k : Nat) : State :=
  let ts := (List.range 16).filter fun t => bit (reportTiles r k) t
  foldOver ts (fun a t => a.note 0x17 (k / 68) (k % 68) t (ts.idxOf t + 1)) s

/-- Step 7: self test fixes the active cores. -/
def State.startCores (s : State) (r : StartupReport) : State :=
  let s1 := foldOver (List.range 544) (fun t k => t.tileRecords r k) { s with map := reportMap r }
  let s2 := foldOver (List.range 512) (fun t n => t.mapBank n) s1
  s2.changedBy ((List.range 512).map fun n => s2.coreChanges s n).sum

/-- The anti-rollback counter of a component follows its running image. -/
def State.raiseCounter (s : State) (c : Nat) : State :=
  let f := s.fw c
  match f.now with
  | some i => if f.counter < i.svn.toNat then s.setFw c { f with counter := min 63 i.svn.toNat } else s
  | none => s

/-- Step 10: READY; the counters rise, and the fingerprint is computed. -/
def State.startReady (s : State) (r : StartupReport) : State :=
  let p := s.power
  let s1 := { s with power := { p with ready := true, everReady := true, durationMs := BitVec.ofNat 16 (min 1005 r.durationMs) } }
  (foldOver [1, 2, 3, 4, 5] State.raiseCounter s1).computeFingerprint false

/-- A step's work, and whether it ended well. -/
def State.startStep (s : State) (r : StartupReport) (k : Nat) : State × Bool :=
  match k with
  | 4 =>
    let a := s.startYoke.bootFw 2
    let b := a.1.bootFw 3
    (b.1, a.2 && b.2)
  | 5 => (s.startPanels r).bootFw 5
  | 6 => (foldOver (List.range 12) (fun t i => t.startCuff r i) s).bootFw 4
  | 7 => (s.startCores r, true)
  | 8 => (s.fillTier.countChanges s [.capPopulated], true)
  | 10 => (s.startReady r, true)
  | _ => (s, true)

/-- A step that fails ends start-up, with the last completed step in STEP. -/
def State.failStart (s : State) (k : Nat) : State :=
  { s with power := { s.power with failed := true } }.event .startupFailed k 1

/-- Steps `k` on. -/
def State.startSteps (fuel : Nat) (s : State) (r : StartupReport) (k : Nat) : State :=
  match fuel with
  | 0 => s
  | m + 1 =>
    if r.failedStep = some k then s.failStart k
    else
      let a := s.startStep r k
      if a.2 then State.startSteps m { a.1 with power := { a.1.power with step := k } } r (k + 1) else a.1.failStart k

/-- What keeps the Collar from enabling the power stage: it is on already, or barred, latched off or held. -/
def State.enableBarred (s : State) : Bool :=
  !s.collarUp || s.power.stage || s.power.barred || s.thermal.latched || s.thermal.held

/-- The cycle counts start afresh from the first sample after a power-up (R355). -/
def Thermal.freshCycles (t : Thermal) : Thermal := { t with cycles := t.cycles.map fun e => (e.1, { e.2 with started := false }) }

/-- POWER_STAGE_ENABLE: step 2 ends once its conditions hold and every comparator has tripped under the test current of step 1 (R349), and each
that does not is reported. -/
def State.enableStage (s : State) (r : StartupReport) : State :=
  if s.enableBarred then s
  else
    match s.startWaits ++ (if r.failedComparators.isEmpty then [] else [4]) with
    | [] =>
      let s1 := { s with power := { s.power with stage := true, step := 2 }, thermal := s.thermal.freshCycles }
      s1.startSteps 8 r 3
    | ws => foldOver ws (fun t w => t.event .startupWait w 1) s

/-- POWER_STAGE_ENABLE (R336). -/
def execPowerStageEnable (report : StartupReport) (s : State) : Host.Outcome State Fault Refusal := .next (s.enableStage report)

end Sys2Proof.Machine
end

