-- ==== Sys2Proof/Machine/RegWrites.lean ====
section
/-!
DEFINITION. Setup accesses (R4 to R9, R22, R34, R40, R298, R328, R337, R339, R375, R386, R395): which paths reach a register, reads with
their latches, and the effect of a write to every register.
-/

namespace Sys2Proof.Machine

/-! ### Reach -/

/-- The block that holds a register answers (R22, R32, R239, R278, R285) (DEDUCED, log entry 31). -/
def State.regAnswers (s : State) (r : Reg) : Bool :=
  match r with
  | .pnClashCount p => s.panelAnswers p
  | .co n _ => (s.entry n).state != .absent && s.panelAnswers (n / 64)
  | .pk k _ => s.panelAnswers (k / 68)
  | .cf k _ => !s.cuffGone k
  | _ => true

/-- The Panel of a setup offset in a PN_, CO_ or PK_ block. -/
def panelOfOffset (o : Nat) : Nat :=
  if o < 0x04000000 then (o - 0x03000000) / 0x100000
  else if o < 0x06000000 then (o - 0x04000000) / 0x10000 / 64
  else (o - 0x06000000) / 0x80000

/-- The die that holds an offset's register is powered (R375); CL_ registers lie in the Collar, and an offset beyond the eighth Panel's
holds no register (R394), so that R5 and R22 answer an access to it (DEDUCED, log entry 31). -/
def State.regPowered (s : State) (o : Nat) : Bool :=
  if 0x09000000 ≤ o then true
  else if !s.power.stage then false
  else if o < 0x01000000 ∨ 0x07000000 ≤ o then decide (4 ≤ s.power.step)
  else if o < 0x03000000 then true
  else decide (8 ≤ panelOfOffset o) || (s.panel (panelOfOffset o)).powered

/-- An access path reaches setup space: BAR0 from the end of step 4, the Collar's path where the die is powered (DEDUCED, log
entry 31). -/
def State.pathOpen (s : State) (p : Path) (o : Nat) : Bool :=
  match p with
  | .pcie => decide (4 ≤ s.power.step)
  | .collar => s.collarUp && s.regPowered o

/-! ### Latches (R40) -/

def State.latches (s : State) (p : Path) : Latches :=
  match p with
  | .pcie => s.time.pcie
  | .collar => s.time.collar

def State.setLatches (s : State) (p : Path) (l : Latches) : State :=
  match p with
  | .pcie => { s with time := { s.time with pcie := l } }
  | .collar => { s with time := { s.time with collar := l } }

/-- What a read of a register latches for its path. -/
def State.latchFor (s : State) (l : Latches) (r : Reg) : Latches :=
  match r with
  | .timebaseLo => { l with timebase := BitVec.ofNat 32 (s.now / 2 ^ 32) }
  | .co n .beatCountLo => { l with beats := mapPut l.beats n (BitVec.ofNat 32 ((s.core n).seq.beats / 2 ^ 32)) }
  | .co n .minVoltNsLo => { l with minVolt := mapPut l.minVolt n (field (s.core n).supply.minTime 32 32) }
  | .fprint 0 => { l with fprint := (List.range 15).map fun i => wordOfBytes (fun j => (s.mgmt.digest[j]?).getD 0) (i + 1) }
  | _ => l

/-! ### Reads -/

/-- A read of a register that answers. -/
def State.readReg (s : State) (p : Path) (r : Reg) : State × Word :=
  let l := s.latches p
  (s.setLatches p (s.latchFor l r), s.regValue l r)

/-- A read of setup space: R5, R22, R239 and R278 turn some away, with all ones and a SETUP_ACCESS record; registers whose state a
scan has destroyed read as a free value (R391) (DESIGN CHOICE, log entry 2). -/
def State.readSetup (s : State) (p : Path) (o width : Nat) : State × List Byte :=
  if width ≠ 4 ∨ o % 4 ≠ 0 then (s.setupError o width, onesFor width)
  else
    match regAt o with
    | some r =>
      if s.regAnswers r then
        if s.mgmt.scanned ∧ o < 0x09000000 then (s.drew, leBytes 4 s.free.toNat)
        else
          let a := s.readReg p r
          (a.1, leBytes 4 a.2.toNat)
      else (s.setupError o width, onesFor 4)
    | none => (s.setupError o width, onesFor 4)

/-! ### The MSI-X structures (R298) -/

/-- An access that falls on the MSI-X table or the pending-bit array, aligned to its 32 or 64 bits. -/
def msixAccess (o width : Nat) : Bool :=
  (width == 4 || width == 8) && o % width == 0
    && ((decide (0x08000000 ≤ o) && decide (o < 0x08000000 + 65 * 16)) || (decide (0x08001000 ≤ o) && decide (o < 0x08001010)))

/-- A table entry after cold reset: its vector masked (PRESUMED, log entry 13). -/
def msixEntry (h : HostIf) (v : Nat) : BitVec 128 := mapGet (BitVec.ofNat 128 (2 ^ 96)) h.msixTable v

/-- A read of the MSI-X structures. -/
def State.msixRead (s : State) (o width : Nat) : List Byte :=
  let v := if o < 0x08001000 then (msixEntry s.host ((o - 0x08000000) / 16)).toNat else s.host.msixPending.toNat
  leBytes width (v / 2 ^ (8 * (o % 16)))

/-- A vector whose mask bit is clear and whose pending bit is set signals. -/
def State.msixFire (s : State) (v : Nat) : State :=
  if !msixMasked s.host v && bit s.host.msixPending v then
    State.signal { s with host := { s.host with msixPending := putBit s.host.msixPending v false } } v
  else s

/-- A write to the MSI-X structures; the pending bits are read-only (PRESUMED, log entry 13). -/
def State.msixWrite (s : State) (o width v : Nat) : State :=
  if o < 0x08001000 then
    let i := (o - 0x08000000) / 16
    let e := setField (msixEntry s.host i) (8 * (o % 16)) (8 * width) v
    State.msixFire { s with host := { s.host with msixTable := mapPut s.host.msixTable i e } } i
  else s

/-! ### Ring registers (R301) -/

/-- A write that R301, R67 or R216 discards. -/
def State.discard (s : State) (o : Nat) : State := s.setupError o 4

/-- ENABLE acts as 1 until a change to 0 has taken effect (Table 14-6). -/
def Sq.acts (q : Sq) : Bool := q.enable || q.disabling

/-- A half of a 64-bit ring base written; its low 12 bits are reserved. -/
def putBase (b : BitVec 64) (high : Bool) (v : Word) : BitVec 64 :=
  if high then setField b 32 32 v.toNat else setField b 0 32 (v.toNat / 4096 * 4096)

/-- A ring that is enabled starts empty at entry 0 (Table 14-6) (DEDUCED, log entry 22). -/
def Sq.start (q : Sq) : Sq := { q with enable := true, disabling := false, head := 0, tail := 0, state := .running }

/-- YK_SQ_CTRLq's fields written. -/
def Sq.write (q : Sq) (v : Word) : Sq :=
  let en := bit v 31
  let q1 := { q with cq := field v 16 6, log2 := field v 0 5 }
  let q2 := if en && !q.enable then q1.start
            else if !en && q.enable then ({ q1 with enable := false, disabling := true } : Sq).settle
            else q1
  if bit v 30 && (q2.state == .stopped || q2.state == .error) then { q2 with state := .running } else q2

/-- A ring size that R301 admits. -/
def log2Fits (lo : Nat) (v : Word) : Bool := decide (lo ≤ (field v 0 5).toNat) && decide ((field v 0 5).toNat ≤ 16)

/-- A write to YK_SQ_CTRLq (DEDUCED, log entry 22). -/
def State.writeSq (s : State) (q o : Nat) (v : Word) : State :=
  let r := s.sq q
  let same := field v 16 6 == r.cq && field v 0 5 == r.log2
  if !log2Fits 6 v || (r.acts && !same) || (bit v 31 && !r.enable && !(s.cq (field v 16 6).toNat).enable) then s.discard o
  else s.setSq q (r.write v)

/-- YK_CQ_CTRLq's fields written: an enabled ring starts at entry 0 with phase 1. -/
def Cq.write (c : Cq) (v : Word) : Cq :=
  let en := bit v 31
  let c1 := { c with irqEnable := bit v 30, vector := field v 16 6, log2 := field v 0 5, enable := en }
  if en && !c.enable then { c1 with tail := 0, phase := true, head := 0 } else c1

/-- A write to YK_CQ_CTRLq; completions held meanwhile are written once the ring has space (DEDUCED, log entry 22). -/
def State.writeCq (s : State) (q o : Nat) (v : Word) : State :=
  let c := s.cq q
  let same := field v 16 6 == c.vector && field v 0 5 == c.log2
  if !log2Fits 6 v || (c.enable && !same) then s.discard o
  else
    let s1 := s.setCq q (c.write v)
    if (c.write v).enable then s1.flushCq (c.held.length + 1) q else s1

/-! ### The log ring (R233, R350, R370, R372) -/

/-- The restart that the Collar has still to record. -/
def State.noteRestart (s : State) : State :=
  match s.thermal.restart with
  | some r =>
    if s.power.ready then
      State.note { s with thermal := { s.thermal with restart := none } } 0x54 grpCollar r.diode r.offMs r.peak
    else s
  | none => s

/-- One POCKET_RETIRED record for each retired page in the repair log. -/
def State.noteRetired (s : State) : State :=
  if s.log.listed then s
  else
    foldOver s.columns (fun t e =>
      foldOver (loggedPages e.2) (fun u p =>
        u.note 0x24 (e.1 / 68) (e.1 % 68) ((s.colSite e.1).base + p * 0x200000) e.2.retiredCount.toNat) t)
      { s with log := { s.log with listed := true } }

/-- The engine is enabled: it starts at entry 0 with phase 1, and writes what waited for the ring. -/
def State.startLog (s : State) : State :=
  let l : LogState := { s.log with tail := 0, phase := true }
  (({ s with log := { l with full := !l.hasSpace } } : State).noteRetired).noteRestart

/-- Software moves HEAD; a ring with space again is no longer full. -/
def LogState.moveHead (l : LogState) (h : BitVec 16) : LogState :=
  let l1 := { l with head := h }
  { l1 with full := l.full && !l1.hasSpace }

/-- A write to YK_LOG_CTRL. -/
def State.writeLogCtrl (s : State) (o : Nat) (v : Word) : State :=
  let c := s.log.ctrl
  let same := field v 8 8 == field c 8 8 && field v 0 5 == field c 0 5
  if !log2Fits 10 v || (bit c 31 && !same) then s.discard o
  else
    let s1 := { s with log := { s.log with ctrl := v &&& 0xC000FF1F } }
    if bit v 31 && !bit c 31 then s1.startLog else s1

/-! ### CO_ registers -/

def State.updCore (s : State) (n : Nat) (f : Core → Core) : State := s.setCore n (f (s.core n))

/-- A control register of a core written by `f`; with no set active it takes effect by `g` at once (R43), in Fold at the wake
(R339) (DEDUCED, log entry 32). -/
def State.putCtrl (s : State) (n : Nat) (f g : CoreCtrl → CoreCtrl) : State :=
  s.updCore n fun c => { c with ctrl := if s.set.running || s.power.fold == .folded then f c.ctrl else g (f c.ctrl) }

/-- A write to CO_ROSTER_REGION (R67). -/
def State.writeRegion (s : State) (n o : Nat) (v : Word) : State :=
  let size := (field v 16 16).toNat
  if size = 0 ∨ 49152 < (field v 0 16).toNat + size then s.discard o
  else s.updCore n fun c =>
    { c with seq := { c.seq with regionReg := v, regionNow := if s.set.running then c.seq.regionNow else v } }

/-- A write to CO_CREDIT_WINn (R216). -/
def State.writeWindow (s : State) (n w o : Nat) (v : Word) : State :=
  if 8 < (field v 0 3).toNat + (field v 4 3).toNat + 1 then s.discard o
  else s.updCore n fun c => { c with scr := { c.scr with windows := mapPut c.scr.windows w (field v 0 8 &&& 0xF7) } }

/-- RESTART of CO_MIN_VOLT (R328). -/
def State.restartCapture (s : State) (n : Nat) (v : Word) : State :=
  if bit v 31 then s.updCore n fun c => { c with supply := { c.supply with minMv := 0x3FF } } else s

/-- FAULTED of CO_ROSTER_FAULT, cleared by writing 1 (R59). -/
def State.clearFaulted (s : State) (n : Nat) (v : Word) : State :=
  if bit v 31 then s.updCore n fun c => { c with seq := { c.seq with fault := { c.seq.fault with faulted := false } } } else s

/-- A write to a CO_ register at offset `o`. -/
def State.writeCo (s : State) (n : Nat) (r : CoReg) (o : Nat) (v : Word) : State :=
  match r with
  | .rosterCtrl =>
    let s1 := s.updCore n fun c => { c with seq := { c.seq with clashFault := bit v 0 } }
    if s.set.running || s.power.fold == .folded then s1 else s1.updCore n fun c => { c with seq := { c.seq with clashFaultNow := bit v 0 } }
  | .rosterFault => s.clearFaulted n v
  | .rosterRegion => s.writeRegion n o v
  | .arrayCtrl => s.putCtrl n (fun t => { t with arrayCtrl := v &&& 1 }) fun t => { t with arrayCtrlNow := t.arrayCtrl }
  | .arrayExpert => s.putCtrl n (fun t => { t with arrayExpert := v &&& 0x00FF0003 }) fun t => { t with arrayExpertNow := s.expert .co t.arrayExpert 2 }
  | .vectorCtrl => s.putCtrl n (fun t => { t with vectorCtrl := v &&& 1 }) fun t => { t with vectorCtrlNow := t.vectorCtrl, vectorExpertNow := s.expert .co t.vectorExpert (lowStep t.vectorCtrl) }
  | .vectorExpert => s.putCtrl n (fun t => { t with vectorExpert := v &&& 0x303 }) fun t => { t with vectorExpertNow := s.expert .co t.vectorExpert (lowStep t.vectorCtrl) }
  | .attCtrl => s.putCtrl n (fun t => { t with attCtrl := v &&& 1 }) fun t => { t with attCtrlNow := t.attCtrl, attExpertNow := s.expert .co t.attExpert (lowStep t.attCtrl) }
  | .attExpert => s.putCtrl n (fun t => { t with attExpert := v &&& 0x303 }) fun t => { t with attExpertNow := s.expert .co t.attExpert (lowStep t.attCtrl) }
  | .walkCtrl => s.putCtrl n (fun t => { t with walkCtrl := v &&& 1 }) fun t => { t with walkCtrlNow := t.walkCtrl }
  | .walkExpert => s.putCtrl n (fun t => { t with walkExpert := v &&& 3 }) fun t => { t with walkExpertNow := s.expert .co t.walkExpert 2 }
  | .scratchCtrl =>
    (s.putCtrl n (fun t => { t with scratchCtrl := v &&& 3 }) fun t => { t with scratchCtrlNow := t.scratchCtrl }).updCore n markBank
  | .scratchExpert =>
    (s.putCtrl n (fun t => { t with scratchExpert := v &&& 0xFF }) fun t =>
      { t with scratchExpertNow := s.expert .co t.scratchExpert 4 }).updCore n markBank
  | .scratchHost => s.updCore n fun c => { c with scr := { c.scr with hostGroups := field v 0 8 } }
  | .creditWin w => s.writeWindow n w o v
  | .minVolt => s.restartCapture n v
  | _ => s

/-! ### PK_ and CF_ registers -/

/-- A write to a PK_ register: at once while no ring serves the column (R240). -/
def State.writePk (s : State) (k : Nat) (r : PkReg) (v : Word) : State :=
  let put (f : Column → Column) : State :=
    let s1 := s.setColumn k (f (s.column k))
    if s1.selfRefreshes k && s.power.fold != .folded then s1.applyColumn k else s1
  match r with
  | .ctrl => put fun c => { c with ctrl := v &&& 3 }
  | .expert => put fun c => { c with expert := v &&& 0x307 }
  | _ => s

/-- REQUEST of CF_RETRAIN (R261): a channel that cannot retrain starts no sequence. -/
def State.requestRetrain (s : State) (k : Nat) (v : Word) : State :=
  let slot := (field v 0 4).toNat
  if bit v 4 && chanRetrains (s.chan k slot) then s.retrainWait k slot else s

/-- A write to a CF_ register. -/
def State.writeCf (s : State) (k : Nat) (r : CfReg) (v : Word) : State :=
  match r with
  | .ctrl => s.updCuff k fun c => { c with ctrl := v &&& 0xC7 }
  | .expert => s.updCuff k fun c => { c with expert := v &&& 0x00FFFF03 }
  | .retrain => s.requestRetrain k v
  | _ => s

/-! ### Power registers -/

/-- CORE_POINT at once (R342): the supply follows its setting, or stays where the cap holds it below (DEDUCED, log entry 35). -/
def State.writePwCtrl (s : State) (v : Word) : State :=
  let old := s.coreSetting
  let s1 := { s with power := { s.power with ctrl := v &&& 7 } }
  let p := s1.power
  { s1 with power := { p with supplyMv := s1.follow p.supplyMv old s1.coreSetting } }

/-- WAKE of PW_FOLD (R340). -/
def State.writeFold (s : State) (v : Word) : State := if bit v 0 then s.wake else s

/-- RESET_PANEL of PW_RESET (R335). -/
def State.askReset (s : State) (v : Word) : State := if bit v 8 then s.resetPanel (field v 0 3).toNat else s

/-- CYCLE_PANEL of PW_RESET (R335, R341). -/
def State.askCycle (s : State) (v : Word) : State := if bit v 9 then s.cyclePanel (field v 0 3).toNat else s

/-! ### Collar registers -/

/-- A write to CL_SERVICE_CTRL: once locked, discarded and counted (R7). -/
def State.writeService (s : State) (v : Word) : State :=
  if bit s.mgmt.serviceCtrl 31 then { s with yoke := { s.yoke with lockedWrites := satAdd s.yoke.lockedWrites 1 } }
  else { s with mgmt := { s.mgmt with serviceCtrl := v &&& 0x80000007 } }

/-- The user tag area is locked (R382). -/
def State.lockTags (s : State) : State := { s with mgmt := { s.mgmt with tagLocked := true } }

/-! ### YK_ registers -/

/-- YK_EXPERT_ENABLE (R9): CO_ and PK_ registers that wait for no ring boundary take the change at once. -/
def State.writeExpert (s : State) (v : Word) : State :=
  let s1 := { s with yoke := { s.yoke with expertEnable := v &&& 0xFF } }
  let on := s1.expertOn .co
  let s2 := if on == s.expertOn .co || s.set.running || s.power.fold == .folded then s1
            else { s1 with cores := s1.cores.map fun e => (e.1, applyControls on e.2) }
  if s1.expertOn .pk == s.expertOn .pk || s.power.fold == .folded then s2
  else s2.settleColumns

/-- REQUEST of YK_PANEL_REJOIN (R286). -/
def State.askRejoin (s : State) (v : Word) (e : WriteEnv) : State :=
  if bit v 8 then s.rejoin ⟨(field v 0 3).toNat, (field v 0 3).isLt⟩ e.attempts e.level e.failed else s

/-- REQUEST of YK_CORE_DARKEN (R361, cause 5). -/
def State.askDarken (s : State) (v : Word) (selfTest : Bool) : State :=
  let n := (field v 0 9).toNat
  if bit v 9 && (s.entry n).state != .absent then s.darken (s.physOf n) 5 selfTest else s

/-- HALTED of YK_DMA_STATUS, cleared by writing 1 (R291). -/
def State.clearHalted (s : State) (v : Word) : State :=
  { s with host := { s.host with halted := s.host.halted &&& ~~~ field v 0 8 } }

def State.updYoke (s : State) (f : YokeRegs → YokeRegs) : State := { s with yoke := f s.yoke }
def State.updLog (s : State) (f : LogState → LogState) : State := { s with log := f s.log }

/-- A ring's base register written, while its ring does not act. -/
def State.writeSqBase (s : State) (q o : Nat) (high : Bool) (v : Word) : State :=
  let r := s.sq q
  if r.acts then s.discard o else s.setSq q { r with base := putBase r.base high v }
def State.writeCqBase (s : State) (q o : Nat) (high : Bool) (v : Word) : State :=
  let c := s.cq q
  if c.enable then s.discard o else s.setCq q { c with base := putBase c.base high v }
def State.writeLogBase (s : State) (o : Nat) (high : Bool) (v : Word) : State :=
  if s.log.enabled then s.discard o else s.updLog fun l => { l with base := putBase l.base high v }

/-- The effect of a write to a register at offset `o`; writes to read-only registers have none. -/
def State.writeReg (s : State) (r : Reg) (o : Nat) (v : Word) (e : WriteEnv) : State :=
  match r with
  | .expertEnable => s.writeExpert v
  | .coreMapIndex => s.updYoke fun y => { y with mapIndex := v &&& 0x1FF }
  | .ringSelect => s.updYoke fun y => { y with ringSelect := v &&& 0x0FFFFFFF }
  | .coolMode => s.updYoke fun y => { y with coolMode := v &&& 1 }
  | .coolExpert => s.updYoke fun y => { y with coolExpert := v &&& 0x00FFFFFF }
  | .turnStallNs => s.updYoke fun y => { y with turnStall := v }
  | .seamCtrl => s.updYoke fun y => { y with seamCtrl := v &&& 1 }
  | .seamExpert => s.updYoke fun y => { y with seamExpert := v &&& 0x73F }
  | .panelRejoin => s.askRejoin v e
  | .dmaStatus => s.clearHalted v
  | .bar4Window => s.updHost fun h => { h with window := field v 0 18 }
  | .hqCtrl => s.updHost fun h => { h with hqCtrl := v &&& 0x1FF }
  | .hqExpert => s.updHost fun h => { h with hqExpert := v &&& 0x00FFFFFF }
  | .logBaseLo => s.writeLogBase o false v
  | .logBaseHi => s.writeLogBase o true v
  | .logCtrl => s.writeLogCtrl o v
  | .logHead => s.updLog fun l => l.moveHead (field v 0 16)
  | .logExpert => s.updLog fun l => { l with expert := v &&& 0xFF }
  | .logLostSelect => s.updLog fun l => { l with lostSelect := v &&& 0xFF }
  | .coreDarken => s.askDarken v e.selfTest
  | .fprintCtrl => { s with mgmt := { s.mgmt with fprintCtrl := v &&& 1 } }
  | .sqBaseLo q => s.writeSqBase q o false v
  | .sqBaseHi q => s.writeSqBase q o true v
  | .sqCtrl q => s.writeSq q o v
  | .cqBaseLo q => s.writeCqBase q o false v
  | .cqBaseHi q => s.writeCqBase q o true v
  | .cqCtrl q => s.writeCq q o v
  | .pwCtrl => s.writePwCtrl v
  | .pwHostCap => { s with power := { s.power with hostCap := field v 0 16 } }
  | .pwExpert => { s with power := { s.power with expert := v &&& 0x00FFFFFF } }
  | .pwSupplyExpert => { s with power := { s.power with supplyExpert := v &&& 0x001F1F1F } }
  | .pwFold => s.writeFold v
  | .pwReset => (s.askReset v).askCycle v
  | .thCtrl => { s with thermal := { s.thermal with ctrl := v &&& 1 } }
  | .thExpert => { s with thermal := { s.thermal with expert := v &&& 0x00FFFFFF } }
  | .co n r => s.writeCo n r o v
  | .pk k r => s.writePk k r v
  | .cf k r => s.writeCf k r v
  | .clServiceCtrl => s.writeService v
  | .clExpert => { s with mgmt := { s.mgmt with expert := v &&& 0xFF } }
  | .clTagCtrl => if bit v 0 then s.lockTags else s
  | _ => s

/-! ### Counting changes of fingerprinted values (R385) -/

/-- Expert registers of the single blocks, and of the blocks whose values have changed since reset. -/
def State.expertRegs (s : State) : List Reg :=
  [.coolExpert, .seamExpert, .hqExpert, .logExpert, .pwExpert, .pwSupplyExpert, .thExpert, .clExpert]
    ++ ((s.cores.filter fun e => (s.entry e.1).state != .absent).flatMap fun e =>
          [CoReg.arrayExpert, .vectorExpert, .attExpert, .walkExpert, .scratchExpert].map fun r => Reg.co e.1 r)
    ++ (s.columns.map fun e => Reg.pk e.1 .expert) ++ (s.cuffs.map fun e => Reg.cf e.1 .expert)

/-- The fingerprinted registers whose value a write to a register can change. -/
def State.watched (s : State) (r : Reg) : List Reg :=
  match r with
  | .expertEnable => .expertEnable :: s.expertRegs
  | .pwCtrl => [.pwCtrl, .pwSupplyExpert]
  | .co n .vectorCtrl => [.co n .vectorCtrl, .co n .vectorExpert]
  | .co n .attCtrl => [.co n .attCtrl, .co n .attExpert]
  | .coolMode | .coolExpert | .turnStallNs | .seamCtrl | .seamExpert | .hqCtrl | .hqExpert | .logCtrl | .logExpert | .fprintCtrl
  | .pwExpert | .pwSupplyExpert | .thCtrl | .thExpert | .clServiceCtrl | .clExpert
  | .pk _ .ctrl | .pk _ .expert | .cf _ .ctrl | .cf _ .expert => [r]
  | .co _ c => if fpCore.contains c then [r] else []
  | _ => []

/-- A write to a register that answers. -/
def State.putReg (s : State) (r : Reg) (o : Nat) (v : Word) (e : WriteEnv) : State :=
  (s.writeReg r o v e).countChanges s (s.watched r)

/-- A write to setup space (R5, R22). -/
def State.writeSetup (s : State) (o width : Nat) (v : DWord) (e : WriteEnv) : State :=
  if width ≠ 4 ∨ o % 4 ≠ 0 then s.setupError o width
  else
    match regAt o with
    | some r => if s.regAnswers r then s.putReg r o (v.setWidth 32) e else s.setupError o width
    | none => s.setupError o width

/-! ### Setup accesses by path -/

/-- A read through a path, answered where the path reaches the register. -/
def State.setupRead (s : State) (p : Path) (o width : Nat) : State :=
  if !s.pathOpen p o then (if p = .collar ∧ s.collarUp then s.answer (.unavailable 1) else s)
  else if p = .pcie ∧ msixAccess o width then s.answer (.setup o (s.msixRead o width))
  else
    let a := s.readSetup p o width
    a.1.answer (.setup o a.2)

/-- A write through a path. -/
def State.setupWrite (s : State) (p : Path) (o width : Nat) (v : DWord) (e : WriteEnv) : State :=
  if !s.pathOpen p o then (if p = .collar ∧ s.collarUp then s.answer (.unavailable 2) else s)
  else if p = .pcie ∧ msixAccess o width then s.msixWrite o width v.toNat
  else s.writeSetup o width v e

/-- What a write finds that starts no self test and no training (DESIGN CHOICE, log entry 7). -/
def envNone : WriteEnv := ⟨[], 0, [], false⟩

/-- A write of one register through a path. -/
def State.setRegister (s : State) (p : Path) (o : Nat) (v : Word) : State := s.setupWrite p o 4 (v.setWidth 64) envNone

/-- A read of one register through a path. -/
def State.getRegister (s : State) (p : Path) (o : Nat) : State := s.setupRead p o 4

end Sys2Proof.Machine
end

