-- ==== Sys2Proof/Machine/RegRows.lean ====
section
/-!
DEFINITION. The rows of setup accesses: the registers whose access does something (YK_EXPERT_ENABLE to CO_CREDIT_WIN), any register
write and read (R5, R7), the Collar's REG_READ and REG_WRITE (R375), and configuration requests (R337).
-/

namespace Sys2Proof.Machine

/-- YK_EXPERT_ENABLE (R9). -/
def execYkExpertEnable (path : Path) (value : Word) (s : State) : Host.Outcome State Fault Refusal :=
  .next (s.setRegister path 0x20 value)

/-- CO_ROSTER_FAULT (R59). -/
def execCoRosterFault (path : Path) (n : CoreId) (value : Word) (s : State) : Host.Outcome State Fault Refusal :=
  .next (s.setRegister path (coBase n.val + CoReg.rosterFault.offset) value)

/-- YK_DMA_STATUS (R291). -/
def execYkDmaStatus (path : Path) (value : Word) (s : State) : Host.Outcome State Fault Refusal :=
  .next (s.setRegister path 0x330 value)

/-- CF_RETRAIN (R261). -/
def execCfRetrain (path : Path) (k : CuffId) (value : Word) (s : State) : Host.Outcome State Fault Refusal :=
  .next (s.setRegister path (cfBase k.val + 0x18) value)

/-- YK_PANEL_REJOIN (R286). -/
def execYkPanelRejoin (path : Path) (value : Word) (env : WriteEnv) (s : State) : Host.Outcome State Fault Refusal :=
  .next (s.setupWrite path 0x328 4 (value.setWidth 64) env)

/-- YK_CORE_DARKEN (R361). -/
def execYkCoreDarken (path : Path) (value : Word) (env : WriteEnv) (s : State) : Host.Outcome State Fault Refusal :=
  .next (s.setupWrite path 0x520 4 (value.setWidth 64) env)

/-- PW_FOLD (R340). -/
def execPwFold (path : Path) (value : Word) (s : State) : Host.Outcome State Fault Refusal :=
  .next (s.setRegister path 0x01000018 value)

/-- RESET_PANEL of PW_RESET (R335). -/
def execResetPanel (path : Path) (value : Word) (s : State) : Host.Outcome State Fault Refusal :=
  .next (s.setRegister path 0x01000024 value)

/-- CYCLE_PANEL of PW_RESET (R335). -/
def execCyclePanel (path : Path) (value : Word) (s : State) : Host.Outcome State Fault Refusal :=
  .next (s.setRegister path 0x01000024 value)

/-- CO_MIN_VOLT (R328). -/
def execCoMinVolt (path : Path) (n : CoreId) (value : Word) (s : State) : Host.Outcome State Fault Refusal :=
  .next (s.setRegister path (coBase n.val + CoReg.minVolt.offset) value)

/-- CL_TAG_CTRL (R382). -/
def execClTagCtrl (path : Path) (value : Word) (s : State) : Host.Outcome State Fault Refusal :=
  .next (s.setRegister path 0x0900000C value)

/-- SQ_ENABLE: a write of YK_SQ_CTRLq (R301). -/
def execSqEnable (path : Path) (q : RingQ) (value : Word) (s : State) : Host.Outcome State Fault Refusal :=
  .next (s.setRegister path (0x1008 + 0x20 * q.val) value)

/-- SQ_RESUME: a write of YK_SQ_CTRLq with RESUME (R301). -/
def execSqResume (path : Path) (q : RingQ) (value : Word) (s : State) : Host.Outcome State Fault Refusal :=
  .next (s.setRegister path (0x1008 + 0x20 * q.val) value)

/-- CQ_ENABLE: a write of YK_CQ_CTRLq (R301). -/
def execCqEnable (path : Path) (q : RingQ) (value : Word) (s : State) : Host.Outcome State Fault Refusal :=
  .next (s.setRegister path (0x1018 + 0x20 * q.val) value)

/-- LOG_ENABLE: a write of YK_LOG_CTRL (R370). -/
def execLogEnable (path : Path) (value : Word) (s : State) : Host.Outcome State Fault Refusal :=
  .next (s.setRegister path 0x508 value)

/-- YK_LOG_HEAD (R370). -/
def execYkLogHead (path : Path) (value : Word) (s : State) : Host.Outcome State Fault Refusal :=
  .next (s.setRegister path 0x510 value)

/-- YK_BAR4_WINDOW (R299). -/
def execYkBar4Window (path : Path) (value : Word) (s : State) : Host.Outcome State Fault Refusal :=
  .next (s.setRegister path 0x400 value)

/-- YK_TIMEBASE_LO (R40). -/
def execYkTimebaseLo (path : Path) (s : State) : Host.Outcome State Fault Refusal := .next (s.getRegister path 0x40)

/-- CO_BEAT_COUNT_LO (R34). -/
def execCoBeatCountLo (path : Path) (n : CoreId) (s : State) : Host.Outcome State Fault Refusal :=
  .next (s.getRegister path (coBase n.val + CoReg.beatCountLo.offset))

/-- CO_MIN_VOLT_NS_LO (R328). -/
def execCoMinVoltNsLo (path : Path) (n : CoreId) (s : State) : Host.Outcome State Fault Refusal :=
  .next (s.getRegister path (coBase n.val + CoReg.minVoltNsLo.offset))

/-- YK_FPRINT0 (R386). -/
def execYkFprint0 (path : Path) (s : State) : Host.Outcome State Fault Refusal := .next (s.getRegister path 0x600)

/-- CO_ROSTER_REGION (R67). -/
def execCoRosterRegion (path : Path) (n : CoreId) (value : Word) (s : State) : Host.Outcome State Fault Refusal :=
  .next (s.setRegister path (coBase n.val + CoReg.rosterRegion.offset) value)

/-- CO_CREDIT_WINn (R216). -/
def execCoCreditWin (path : Path) (n : CoreId) (w : Fin 16) (value : Word) (s : State) : Host.Outcome State Fault Refusal :=
  .next (s.setRegister path (coBase n.val + (CoReg.creditWin w.val).offset) value)

/-- SETUP_REGISTER_WRITE (R4 to R9). -/
def execSetupRegisterWrite (path : Path) (off : BitVec 28) (width : Nat) (value : DWord) (env : WriteEnv) (s : State) :
    Host.Outcome State Fault Refusal := .next (s.setupWrite path off.toNat width value env)

/-- SETUP_REGISTER_READ (R4 to R7). -/
def execSetupRegisterRead (path : Path) (off : BitVec 28) (width : Nat) (s : State) : Host.Outcome State Fault Refusal :=
  .next (s.setupRead path off.toNat width)

/-- REG_READ: one register through the Collar's access path, or UNAVAILABLE while its die is unpowered. -/
def State.commandRead (s : State) (o : Nat) : State :=
  if !s.collarUp then s
  else if !s.regPowered o then s.answer (.unavailable 1)
  else
    let a := s.readSetup .collar o 4
    a.1.answer (.command 1 true a.2)

/-- REG_READ (R375). -/
def execRegRead (off : BitVec 28) (s : State) : Host.Outcome State Fault Refusal := .next (s.commandRead off.toNat)

/-- REG_WRITE, as REG_READ. -/
def State.commandWrite (s : State) (o : Nat) (v : Word) (e : WriteEnv) : State :=
  if !s.collarUp then s
  else if !s.regPowered o then s.answer (.unavailable 2)
  else (s.writeSetup o 4 (v.setWidth 64) e).answer (.command 2 true [])

/-- REG_WRITE (R375). -/
def execRegWrite (off : BitVec 28) (value : Word) (env : WriteEnv) (s : State) : Host.Outcome State Fault Refusal :=
  .next (s.commandWrite off.toNat value env)

/-- The capability structures that advertise the options of Table 14-1 and no others, as a mask and a value: PCI Express with its payload,
function-level reset, width, rates, L1 without L0s, tags, no AtomicOp and no processing hints; MSI-X with its 65 vectors in BAR0; advanced
error reporting; data object exchange; lane margining; 14-bit tags without L0p. Each structure names the next, and the last of each list
none (R295) (PRESUMED, log entry 53). -/
def configCaps (o : Nat) : Word × Word :=
  match o with
  | 0x04 => (0x00100000, 0x00100000)
  | 0x34 => (0x000000FF, 0x40)
  | 0x40 => (0x00FFFFFF, 0x00028010)
  | 0x44 => (0x10000027, 0x10000022)
  | 0x4C => (0x00000FFF, 0x00000907)
  | 0x64 => (0x000F3BC0, 0x00030000)
  | 0x6C => (0x000000FE, 0x000000FE)
  | 0x80 => (0x07FFFFFF, 0x00400011)
  | 0x84 => (0xFFFFFFFF, 0x08000000)
  | 0x88 => (0xFFFFFFFF, 0x08001000)
  | 0x100 => (0xFFF0FFFF, 0x20000001)
  | 0x200 => (0xFFF0FFFF, 0x2400002E)
  | 0x240 => (0xFFF0FFFF, 0x28000027)
  | 0x280 => (0xFFF0FFFF, 0x0000002F)
  | 0x284 => (0x0000000F, 0x00000006)
  | _ => (0, 0)

/-- The bits of configuration space that the spec fixes, at the places that PCI gives them, as a mask and a value: the class code, one
function, the sizes and types of the BARs (R297, Table 14-2), no legacy interrupt (Table 14-1), and the capability structures (PRESUMED,
log entry 53). -/
def configFixed (o : Nat) : Word × Word :=
  match o with
  | 0x08 => (0xFFFFFF00, 0x12000000)
  | 0x0C => (0x00FF0000, 0)
  | 0x10 => (0x0FFFFFFF, 0x4)
  | 0x18 => (0x0003FFFF, 0x4)
  | 0x20 => (0xFFFFFFFF, 0xC)
  | 0x24 => (0x0000000F, 0)
  | 0x3C => (0x0000FF00, 0)
  | _ => configCaps o

/-- A word of configuration space: what the spec fixes, and free values elsewhere (DESIGN CHOICE, log entry 14). -/
def configWord (o : Nat) (writes : List (Nat × Word)) : Word :=
  let f := configFixed o
  (Config.configSpace o writes &&& ~~~f.1) ||| f.2

/-- CONFIGURATION_REQUEST (R337): Request Retry Status until READY has been set once since cold reset, then as PCI Express
defines (DESIGN CHOICE, log entry 14). -/
def State.configRequest (s : State) (o : Nat) (write : Option Word) : State :=
  if s.power.step < 4 then s
  else if !s.power.everReady then s.answer (.config o none)
  else
    match write with
    | some v => s.updHost fun h => { h with configWrites := (o, v) :: h.configWrites }
    | none => s.answer (.config o (some (configWord o s.host.configWrites)))

/-- CONFIGURATION_REQUEST. -/
def execConfigurationRequest (off : BitVec 12) (write : Option Word) (s : State) : Host.Outcome State Fault Refusal :=
  .next (s.configRequest off.toNat write)

end Sys2Proof.Machine
end

