-- ==== Sys2Proof/Machine/HostPort.lean ====
section
/-!
DEFINITION. What reaches the host queue engine from the PCI Express port, in the order of its arrival (R299, R303): BAR4 requests,
served in host openings of each ring on their path (R299, R300), doorbells (R302), and the host opening itself (R52).
-/

namespace Sys2Proof.Machine

/-! ### BAR4 requests (R299, R300, R318) -/

/-- The device address under the window. -/
def State.bar4Addr (s : State) (off : Nat) : Nat := s.host.window.toNat * 2 ^ 30 + off

/-- A record of the host queue engine. -/
def State.hostNote (s : State) (cls detail aux : Nat) : State := s.note cls grpHost 0xFFF detail aux

/-- An access refused with a record. -/
def State.bar4Fails (s : State) (r : Bar4Request) (cls aux : Nat) : State := (s.bar4Refuse r).hostNote cls (bar4Detail r.addr) aux

/-- AUX of a BAR4 record: 1 for a write. -/
def Bar4Request.aux (r : Bar4Request) : Nat := if r.data.isSome then 1 else 0

/-- The addresses at which the 64-byte units of a request begin. -/
def Bar4Request.places (r : Bar4Request) : List Nat := (pieces (r.len / 64 + 2) r.addr r.len).map (·.1)

/-- The 64-byte units of a request, and how many of a write are partial. -/
def Bar4Request.units (r : Bar4Request) : Nat := (pieces (r.len / 64 + 2) r.addr r.len).length
def Bar4Request.partials (r : Bar4Request) : Nat :=
  if r.data.isSome then ((pieces (r.len / 64 + 2) r.addr r.len).filter fun p => p.2 != 64).length else 0

/-- The rings on the path of a request, in the order in which its units cross them, with the units on each (R280, R299); a partial
unit of the capacity tier takes two of its channel's ring (R249) (DEDUCED, log entry 20). -/
def State.bar4Path (s : State) (r : Bar4Request) : List (Nat × Nat) :=
  let p := s.place .bar4 r.addr
  let rings := if r.data.isSome then s.writeRings p r.addr else s.readRings .bar4 p r.addr
  rings.map fun k => (k, r.units + if ringClass k = 5 then r.partials else 0)

/-- A request that lies in setup space (DEDUCED, log entry 20). -/
def State.bar4Setup (s : State) (r : Bar4Request) : State :=
  let o := r.addr - setupBase
  match r.data with
  | some bs => s.writeSetup o bs.length (BitVec.ofNat 64 (leNat (bs.take 8))) r.env
  | none =>
    let a := s.readSetup .pcie o r.len
    a.1.answer (.bar4 r.addr a.2)

/-- A request at the head of the queue that no ring has to serve: a read past its limit (R300), one that reaches an unmapped address, which
is refused whole (R22) (DESIGN CHOICE, log entry 20), a place that does not answer (R285), setup space (DEDUCED, log entry 20). -/
def State.bar4Judge (s : State) (r : Bar4Request) : Option State :=
  if r.data.isNone && decide (r.deadline ≤ s.now) then some (s.bar4Expire r)
  else if r.places.any fun a => s.place .bar4 a == .unmapped then some (s.bar4Fails r 0x02 r.aux)
  else match s.place .bar4 r.addr with
    | .unreachable | .panelAbsent => some (s.bar4Refuse r)
    | .setup => some (s.bar4Setup r)
    | _ => none

/-- The bytes of a read, taken when its units have been served at the memory. -/
def State.bar4Fetch (s : State) (r : Bar4Request) : State × Bar4Request :=
  if r.data.isNone && r.reply.isNone then
    let x := s.readRange .bar4 r.addr r.len
    (x.state, { r with reply := some (if x.status = stOk then x.bytes else onesFor r.len) })
  else (s, r)

/-- A request whose units have crossed every ring of its path: a write reaches the memory, a read is answered. -/
def State.bar4Done (s : State) (r : Bar4Request) : State :=
  match r.data with
  | some bs => (s.writeRange .bar4 r.addr bs).1
  | none => s.answer (.bar4 r.addr (r.reply.getD (onesFor r.len)))

/-- Up to `units` units of the request served on the ring where it stands: the state, what is left of the request (none once it has
been served whole), and the units used. -/
def State.bar4Serve (s : State) (r : Bar4Request) (key units : Nat) : State × Option Bar4Request × Nat :=
  match r.path with
  | (k, n) :: rest =>
    if k ≠ key then (s, some r, 0)
    else if units < n then (s, some { r with path := (k, n - units) :: rest }, units)
    else
      let a := s.bar4Fetch { r with path := rest }
      if rest = [] then (a.1.bar4Done a.2, none, n) else (a.1, some a.2, n)
  | [] => (s.bar4Done r, none, 0)

/-! ### Doorbells (R302, R337, R340) -/

/-- A doorbell write that R302 turns away: counted, with a HOST_DOORBELL record that names the ring pair and the offset. -/
def State.badDoorbell (s : State) (q off : Nat) : State :=
  (s.updHost fun h => { h with doorbellErrors := satAdd h.doorbellErrors 1 }).note 0x05 grpHost q (q * 0x1000 + off) 0

/-- A doorbell of a ring of `size` entries. -/
def State.ringDoorbell (s : State) (q off width size : Nat) (enabled : Bool) (value : Nat) (f : State → State) : State :=
  if !enabled then s.updHost fun h => { h with doorbellErrors := satAdd h.doorbellErrors 1 }
  else if width ≠ 4 ∨ size ≤ value then s.badDoorbell q off
  else f s

/-- A write to offset `off` of doorbell page q: SQ_TAIL, CQ_HEAD, or another offset, which is discarded (Table 14-10). -/
def State.doorbellWrite (s : State) (q off width value : Nat) : State :=
  if off = 0 then
    let r := s.sq q
    s.ringDoorbell q 0 width r.size r.acts value fun t => t.setSq q { r with tail := value }
  else if off = 4 then
    let c := s.cq q
    s.ringDoorbell q 4 width c.size c.enable value fun t => (t.setCq q { c with head := value }).flushCq (c.held.length + 1) q
  else s.badDoorbell q off

/-! ### The queue of arrivals (R299, R303) -/

/-- What R303 keeps in order: BAR4 writes and doorbell writes. -/
def HostRequest.ordered : HostRequest → Bool
  | .access r => r.data.isSome
  | .doorbell _ _ _ _ => true

/-- Doorbells with no BAR4 write before them act. -/
def State.doorbells (fuel : Nat) (s : State) : State :=
  match fuel, s.host.requests.find? HostRequest.ordered with
  | k + 1, some (.doorbell q off width value) =>
    ((s.updHost fun h => { h with requests := h.requests.erase (.doorbell q off width value) }).doorbellWrite q off width value).doorbells k
  | _, _ => s

/-- BAR4 requests served in their order within what is left of a host opening of ring `key`: the state and the units used. -/
def State.bar4Drain (fuel : Nat) (s : State) (key units : Nat) : State × Nat :=
  match fuel with
  | 0 => (s, 0)
  | k + 1 =>
    let s1 := s.doorbells s.host.requests.length
    match s1.host.requests with
    | .access r :: rest =>
      let t := s1.updHost fun h => { h with requests := rest }
      match t.bar4Judge r with
      | some t1 => t1.bar4Drain k key units
      | none =>
        if units = 0 then (s1, 0)
        else
          let x := t.bar4Serve r key units
          match x.2.1 with
          | some r1 => (x.1.updHost fun h => { h with requests := .access r1 :: rest }, x.2.2)
          | none =>
            let y := x.1.bar4Drain k key (units - x.2.2)
            (y.1, x.2.2 + y.2)
    | _ => (s1, 0)

/-- Whatever at the head of the queue waits for no ring. -/
def State.bar4Settle (s : State) : State := (s.bar4Drain (s.host.requests.length + 1) 0 0).1

/-- A BAR4 access on its arrival (DEDUCED, log entry 20). -/
def State.bar4Access (s : State) (r : Bar4Request) (poisoned : Bool) : State :=
  if s.power.step < 4 then s
  else if !s.power.ready || s.mgmt.testMode then s.bar4Refuse r
  else if poisoned then s.hostNote 0x04 (bar4Detail r.addr) 0
  else if !s.awake then s.bar4Fails r 0x07 0
  else (s.updHost fun h => { h with requests := h.requests ++ [.access { r with path := s.bar4Path r }] }).bar4Settle

/-- BAR4_READ. -/
def execBar4Read (off len : Nat) (s : State) : Host.Outcome State Fault Refusal :=
  .next (s.bar4Access ⟨s.bar4Addr off, len, s.now + s.bar4Limit, none, envNone, [], none⟩ false)

/-- BAR4_WRITE. -/
def execBar4Write (off : Nat) (bytes : List Byte) (poisoned : Bool) (env : WriteEnv) (s : State) :
    Host.Outcome State Fault Refusal :=
  .next (s.bar4Access ⟨s.bar4Addr off, bytes.length, s.now, some bytes, env, [], none⟩ poisoned)

/-- The BAR4 reads that wait, the oldest first. -/
def State.waitingReads (s : State) : List Bar4Request :=
  s.host.requests.filterMap fun x => match x with
    | .access r => if r.data.isNone then some r else none
    | .doorbell _ _ _ _ => none

/-- BAR4_TIMEOUT: the oldest read waits past its limit; served later, it is discarded. -/
def State.bar4Timeout (s : State) : State :=
  match s.waitingReads with
  | r :: _ =>
    (((s.updHost fun h => { h with requests := h.requests.erase (.access r) }).reach r.deadline).bar4Expire r).bar4Settle
  | [] => s

/-- BAR4_TIMEOUT. -/
def execBar4Timeout (s : State) : Host.Outcome State Fault Refusal := .next s.bar4Timeout

/-- A doorbell write on its arrival: it acts once every BAR4 write that arrived before it is in memory, and wakes a module in Fold. -/
def State.doorbell (s : State) (q off width value : Nat) : State :=
  if s.power.step < 4 then s
  else
    let s1 := s.updHost fun h => { h with requests := h.requests ++ [.doorbell q off width value] }
    (s1.doorbells s1.host.requests.length).wake

/-- SQ_TAIL: a write to doorbell page q at offset 0; a write to another offset than the two doorbells' is discarded. -/
def execSqTail (q : RingQ) (off : BitVec 12) (value : Word) (width : Nat) (s : State) : Host.Outcome State Fault Refusal :=
  .next (s.doorbell q.val off.toNat width value.toNat)

/-- CQ_HEAD. -/
def execCqHead (q : RingQ) (value : Word) (width : Nat) (s : State) : Host.Outcome State Fault Refusal :=
  .next (s.doorbell q.val 4 width value.toNat)

/-- A read of BAR2: zero (R302). The table has no row for one. -/
def bar2Read (len : Nat) : List Byte := List.replicate len 0

/-! ### Host openings (R52) -/

/-- HOST_OPENING (R52): the host queue engine with BAR4, the hub DMA engines, then clash requests. -/
def State.hostOpening (s0 : State) (cls inst : Nat) : State :=
  let key := ringKey cls inst
  let s := s0.settleTransfers.settleRing key
  match s.openingAt key .host with
  | none => s
  | some slot =>
    let a := s.hostShare key 0x210 slot.units
    let b := a.1.bar4Drain (a.1.host.requests.length + 1) key (slot.units - a.2)
    let n2 := a.2 + b.2
    let c := b.1.dmaShares key (slot.units - n2) (List.range 8)
    let n3 := n2 + c.2
    let d := c.1.clashShares key (slot.units - n3) (c.1.ring key).clashes
    let s1 := if cls ≠ 4 then d.1 else if inst % 2 = 1 then d.1.fenceReports (inst / 4) else d.1.fenceSends (inst / 2)
    (s1.endOpening key .host (n3 + d.2 != 0)).endPartials.fencesDone s.host.fences.length

end Sys2Proof.Machine
end

