-- ==== Sys2Proof/Machine/HostRows.lean ====
section
/-!
DEFINITION. The host queue engine's rows: descriptor fetch and start (R304, R312), HALT, DRAIN and FENCE (R311, R316, R317), and the descriptors without a transfer of data.
-/

namespace Sys2Proof.Machine

/-! ### Descriptor fetch (R302 to R304, R316) -/

/-- The host queue engine works: the module is up and not on its way into Fold (R338). -/
def State.engineUp (s : State) : Bool := s.isUp && s.power.fold == .running

/-- Descriptors fetched and not yet started. -/
def Sq.waiting (q : Sq) : Nat := (q.descs.filter fun d => !d.started).length

/-- A ring from which the engine can fetch. -/
def State.fetchable (s : State) (q : Nat) : Bool :=
  let r := s.sq q
  r.enable && r.state == .running && r.head != r.tail && decide (r.waiting < 16) && !s.host.drains.any fun w => bit w.mask q

/-- The ring that the engine visits next: in ascending number, then again from the lowest. -/
def State.nextVisit (s : State) : Option Nat :=
  ((List.range 64).map fun i => (s.host.nextRing + i) % 64).find? s.fetchable

/-- A fetch that read the 64 bytes. -/
def goodFetch (read : HostRead) : Bool := !read.failed && read.bytes.length == 64

/-- The host address of the entry that a ring's next fetch reads (R301). -/
def Sq.entryAt (q : Sq) : Nat := q.base.toNat + 64 * q.head

/-- A descriptor fetched from ring `q`: the 64 bytes that host memory gave at its next entry. -/
def State.fetched (s : State) (q : Nat) (read : HostRead) : State :=
  let r := s.sq q
  let d : Desc := ⟨r.head, BitVec.ofNat 512 (leNat read.bytes), s.host.fetchOrder, s.now, false, 0, bit s.host.hqCtrl 8⟩
  (s.setSq q { r with head := (r.head + 1) % r.size, descs := r.descs ++ [d] }).updHost fun h => { h with fetchOrder := h.fetchOrder + 1 }

/-- A failed fetch (R302): the ring in ERROR, counted and recorded. -/
def State.fetchFails (s : State) (q : Nat) : State :=
  let r := s.sq q
  ((s.setSq q { r with state := .error }).updHost fun h => { h with fetchErrors := satAdd h.fetchErrors 1 }).note 0x06 grpHost q r.head 0

/-- A visit of the engine to ring `q`, the BAR4 writes and doorbells that arrived before having acted (R303). -/
def State.fetch (s : State) (q : Nat) (read : HostRead) : State :=
  if s.engineUp && s.nextVisit == some q && !s.host.requests.any HostRequest.ordered then
    let s0 := s.updHost fun h => { h with nextRing := (q + 1) % 64 }
    let s1 := { s0 with out := { s0.out with fetchAt := (s.sq q).entryAt } }
    if goodFetch read then s1.fetched q read else s1.fetchFails q
  else s

/-- DESCRIPTOR_FETCH. -/
def execDescriptorFetch (q : RingQ) (read : HostRead) (s : State) : Host.Outcome State Fault Refusal := .next (s.fetch q.val read)

/-! ### Every fetched descriptor -/


/-- Those that have started. -/
def State.running (s : State) : List (Nat × Desc) := s.allDescs.filter fun e => e.2.started

/-- A device range that a COPY touches lies in the capacity tier. -/
def copyInTier (a len : Nat) : Bool := decide (a < scratchBase) && decide (capBase < a + len)

def Desc.touchesTier (d : Desc) : Bool :=
  (!d.srcHost && copyInTier d.copySrc d.copyLen) || (!d.dstHost && copyInTier d.copyDst d.copyLen)

/-- A fetched CAP_REMAP holds back COPYs that touch the tier and start later, but for those before it in its own ring, which it waits for
(R305, R318) (DEDUCED, log entry 21). -/
def State.remapWaits (s : State) (q : Nat) (d : Desc) : Bool :=
  s.allDescs.any fun e => e.2.opcode == opCapRemap && e.2.valid && !(e.1 == q && decide (d.order < e.2.order))

/-! ### Descriptor start (R304 to R306, R312, R313) -/

/-- A COPY's engine is free. -/
def State.engineFree (s : State) (q : Nat) (d : Desc) : Bool :=
  !bit s.host.busy d.copyEngine && !bit s.host.halted d.copyEngine && !(d.touchesTier && s.remapWaits q d)

/-- Whether a fetched descriptor can start: ring order, WAIT_PREV, its CQ, and a COPY's engine. -/
def State.canStart (s : State) (q : Nat) (d : Desc) : Bool :=
  let r := s.sq q
  let before := r.descs.filter fun x => decide (x.order < d.order)
  s.engineUp && !s.haltWaits && !d.started && before.all (·.started) && (!d.ordered || before.isEmpty)
    && !(s.cq r.cq.toNat).full && (d.opcode != opCopy || !d.valid || s.engineFree q d)

/-- What a start does at once: a COPY takes its engine, a DRAIN ends fetches from its rings. -/
def State.startEffect (s : State) (q : Nat) (d : Desc) : State :=
  if d.opcode = opCopy then s.updHost fun h => { h with busy := putBit h.busy d.copyEngine true }
  else if d.opcode = opDrain then s.updHost fun h => { h with drains := h.drains ++ [⟨q, d.order, field d.raw 64 64, false⟩] }
  else s

/-- Descriptor `d` of ring `q` starts; an invalid one completes and performs nothing. -/
def State.start (s : State) (q : Nat) (d : Desc) : State :=
  if !d.valid then s.complete q d stInvalid 0
  else
    let r := s.sq q
    let mark (x : Desc) : Desc := if x.order = d.order then { x with started := true, startNo := s.host.fetchOrder } else x
    ((s.setSq q { r with descs := r.descs.map mark }).updHost fun h => { h with fetchOrder := h.fetchOrder + 1 }).startEffect q d

/-- The oldest descriptor of an entry of ring `q` that has not started. -/
def State.unstarted (s : State) (q : RingQ) (index : BitVec 16) : Option Desc :=
  (s.sq q.val).descs.find? fun d => d.index == index.toNat && !d.started

/-- DESCRIPTOR_START. -/
def execDescriptorStart (q : RingQ) (index : BitVec 16) (s : State) : Host.Outcome State Fault Refusal :=
  .next (match s.unstarted q index with
    | some d => if s.canStart q.val d then s.start q.val d else s
    | none => s)

/-! ### A row that acts on a started descriptor -/

/-- The oldest started descriptor of the entry and opcode for which `p` holds carried out (R312). -/
def State.onStartedThat (s : State) (q : RingQ) (index : BitVec 16) (op : Nat) (p : Desc → Bool) (f : Desc → State) : State :=
  if s.isUp then
    match s.startedThat q index op p with
    | some d => f d
    | none => s
  else s

/-- A started descriptor of the row's opcode carried out. -/
def State.onStarted (s : State) (q : RingQ) (index : BitVec 16) (op : Nat) (f : Desc → State) : State :=
  if s.isUp then
    match s.started q index op with
    | some d => f d
    | none => s
  else s

/-! ### FENCE and DRAIN (R311, R316) -/

/-- Descriptors fetched before `d` from the rings that its RING_MASK names are gone. -/
def State.maskDone (s : State) (d : Desc) : Bool :=
  let m : BitVec 64 := field d.raw 64 64
  s.allDescs.all fun e => !(bit m e.1 && decide (e.2.order < d.order))

/-- FENCE. -/
def execFence (q : RingQ) (index : BitVec 16) (s : State) : Host.Outcome State Fault Refusal :=
  .next (s.onStartedThat q index opFence s.maskDone fun d => s.complete q.val d stOk 0)

/-- A ring enters STOPPED. -/
def Sq.stop (q : Sq) : Sq := if q.state = .disabled then q else { q with state := .stopped }

/-- Every ring of a mask enters STOPPED. -/
def State.stopRings (s : State) (m : BitVec 64) : State :=
  s.updHost fun h => { h with sqs := h.sqs.map fun e => (e.1, if bit m e.1 then e.2.stop else e.2) }

/-- DRAIN's wait of a descriptor. -/
def State.drainOf (s : State) (q order : Nat) : Option DrainWait := s.host.drains.find? fun w => w.sq == q && w.order == order

/-- Step 3 of R316. -/
def State.drained (s : State) (q : Nat) (d : Desc) (w : DrainWait) : State :=
  let s1 := (s.stopRings w.mask).updHost fun h => { h with drains := h.drains.erase w }
  s1.complete q d (if w.aborted then stAborted else stOk) 0

/-- DRAIN. -/
def execDrain (q : RingQ) (index : BitVec 16) (s : State) : Host.Outcome State Fault Refusal :=
  .next (s.onStarted q index opDrain fun d =>
    match s.drainOf q.val d.order with
    | some w => if s.maskDone d then s.drained q.val d w else s
    | none => s)

/-! ### HALT (R317, R318) -/

/-- Fetched descriptors that a HALT completes as ABORTED, in the order of their fetch. -/
def State.toAbort (s : State) : List (Nat × Desc) :=
  (s.allDescs.filter fun e => !e.2.isHalt && (!e.2.started || e.2.opcode == opLaunch || e.2.opcode == opScrub)).foldr
    (insertBy fun a b => decide (a.2.order < b.2.order)) []

/-- A pass before its first step. -/
def ScrubPass.fresh (q order : Nat) (parts : List ScrubPart) : ScrubPass :=
  { sq := q, order := order, parts := parts, startNs := none, endNs := 0, firstUncorr := none, steps := 0, corrected := 0, uncorrectable := 0,
    verifyFails := 0, remapped := 0, retired := 0, wakes := 0, status := 0 }

/-- START_NS and END_NS of a pass without a step, which the spec leaves open (DESIGN CHOICE, log entry 2). -/
def ScrubPass.times (p : ScrubPass) (free : Nat) : Nat × Nat :=
  match p.startNs with
  | some t => (t, p.endNs)
  | none => ((Config.freeValue free).toNat, (Config.freeValue (free + 1)).toNat)

/-- The 64 bytes of a scrub summary (Table 11-6). -/
def ScrubPass.summary (p : ScrubPass) (status free : Nat) : List Byte :=
  let sat (n : Nat) : Nat := min n 65535
  let t := p.times free
  [BitVec.ofNat 8 status] ++ List.replicate 21 0 ++ leBytes 2 (sat p.wakes) ++ leBytes 2 (sat p.retired) ++ leBytes 2 (sat p.remapped)
    ++ leBytes 2 (sat p.verifyFails) ++ leBytes 4 p.uncorrectable ++ leBytes 4 p.corrected ++ leBytes 4 p.steps
    ++ leBytes 6 (p.firstUncorr.getD 0xFFFFFFFFFFFF) ++ leBytes 8 t.2 ++ leBytes 8 t.1

/-- The host address of a scrub summary. -/
def Desc.summaryAt (d : Desc) : Nat := d.get 192 64

/-- A free value per time of the summary. -/
def State.drewTimes (s : State) (p : ScrubPass) : State := if p.startNs.isSome then s else s.drew.drew

/-- A running scrub pass ends: its summary is written, and its descriptor completes. -/
def State.endScrub (s : State) (p : ScrubPass) (d : Desc) (code status : Nat) (wrote : HostWrite) : State :=
  let s1 := (s.hostData d d.summaryAt (p.summary code s.freeTick) wrote).drewTimes p
  { s1 with scrubs := s1.scrubs.erase p }.complete p.sq d (if wrote.isSome then stHostAccess else status) 0

/-- One descriptor completed as ABORTED: a SCRUB that has started, whether or not its pass has begun, writes its summary first. -/
def State.abort (s : State) (q : Nat) (d : Desc) : State :=
  match s.scrubs.find? fun p => p.sq == q && p.order == d.order with
  | some p => s.endScrub p d 1 stAborted none
  | none =>
    if d.started && d.opcode == opScrub then s.endScrub (ScrubPass.fresh q d.order []) d 1 stAborted none else s.complete q d stAborted 0

/-- Steps 2 to 4 of R317 but for the HALT's completion: the set stops, what has not started is aborted, rings return
(DEDUCED, log entry 23). -/
def State.haltBody (s : State) : State :=
  let gone := s.toAbort
  let active := s.set.running && gone.any fun e => e.1 == s.set.sq && e.2.order == s.set.order
  let s1 := s.updHost fun h => { h with drains := h.drains.map fun w => { w with aborted := true } }
  let s2 := if s.set.running then s1.stopSet.endSet stAborted else s1
  let rest := gone.filter fun e => !(active && e.1 == s.set.sq && e.2.order == s.set.order)
  (foldOver rest (fun t e => t.abort e.1 e.2) s2).releaseRings.admitPanels

/-- A HALT's steps; the HALTs fetched meanwhile complete after it, with SPECIFIC zero (Table 14-17) (DEDUCED, log entry 23). -/
def State.haltSteps (s : State) (q : Nat) (d : Desc) (later : List (Nat × Desc)) : State :=
  foldOver later (fun t e => t.complete e.1 e.2 stOk 0) (s.haltBody.complete q d stOk s.toAbort.length)

/-- The fetched HALTs, the oldest first. -/
def State.halts (s : State) : List (Nat × Desc) :=
  (s.allDescs.filter fun e => e.2.isHalt).foldr (insertBy fun a b => decide (a.2.order < b.2.order)) []

/-- HALT: it acts when it is fetched; a HALT fetched meanwhile completes after it. -/
def execHalt (q : RingQ) (index : BitVec 16) (s : State) : Host.Outcome State Fault Refusal :=
  .next (match s.halts with
    | (p, d) :: later => if s.isUp ∧ p = q.val ∧ d.index = index.toNat then s.haltSteps p d later else s
    | [] => s)

/-! ### PAGE_RELEASE_FENCE (R196) -/

/-- Every PAGE_RELEASE_FENCE fetched before `d` is in progress. -/
def State.fenceTurn (s : State) (d : Desc) : Bool :=
  s.allDescs.all fun e => e.2.opcode != opPageFence || decide (d.order ≤ e.2.order)
    || s.host.fences.any fun w => w.sq == e.1 && w.order == e.2.order

/-- A fence waits for the Panels that are not isolated. -/
def State.raiseFence (s : State) (q : Nat) (d : Desc) : State :=
  let w : FenceWait := ⟨q, d.order, (List.range 8).filter s.panelAnswers, [], [], [], 0, 0, d.fetchNs⟩
  let s1 := s.updHost fun h => { h with fences := h.fences ++ [w] }
  s1.fencesDone s1.host.fences.length

/-- PAGE_RELEASE_FENCE. -/
def execPageReleaseFence (q : RingQ) (index : BitVec 16) (s : State) : Host.Outcome State Fault Refusal :=
  .next (s.onStarted q index opPageFence fun d =>
    if s.host.fences.any (fun w => w.sq == q.val && w.order == d.order) || !s.fenceTurn d then s else s.raiseFence q.val d)

/-! ### Power cap, Fold, NOP, remap (R266, R330, R338) -/

/-- SET_POWER_CAP: the host cap is stored, and SPECIFIC is the cap in effect. -/
def execSetPowerCap (q : RingQ) (index : BitVec 16) (s : State) : Host.Outcome State Fault Refusal :=
  .next (s.onStarted q index opPowerCap fun d =>
    let s1 := { s with power := { s.power with hostCap := field d.raw 64 16 } }
    s1.complete q.val d stOk s1.capW)

/-- FOLD. -/
def execFold (q : RingQ) (index : BitVec 16) (s : State) : Host.Outcome State Fault Refusal :=
  .next (s.onStarted q index opFold fun d => s.foldSteps q.val d)

/-- NOP. -/
def execNopDescriptor (q : RingQ) (index : BitVec 16) (s : State) : Host.Outcome State Fault Refusal :=
  .next (s.onStarted q index opNop fun d => s.complete q.val d stOk 0)

/-- A COPY in progress touches the capacity tier. -/
def State.tierBusy (s : State) : Bool :=
  ((s.running ++ s.host.orphans).any fun e => e.2.opcode == opCopy && e.2.touchesTier)
    || s.host.transfers.any fun t => t.orphan && t.desc.touchesTier

/-- CAP_REMAP. -/
def execCapRemap (q : RingQ) (index : BitVec 16) (s : State) : Host.Outcome State Fault Refusal :=
  .next (s.onStarted q index opCapRemap fun d =>
    if s.set.running then s.complete q.val d stSetActive 0
    else if s.tierBusy || s.retraining then s
    else s.capRemap.complete q.val d stOk s.capRemap.cap.populatedMib.toNat)

/-! ### Coalesced interrupts (R315) -/

/-- MSIX_COALESCE_TIMEOUT: COALESCE_NS has passed since the first pending entry of a CQ with IRQ_ENABLE = 1. -/
def State.coalesceTimeout (s : State) (q : Nat) : State :=
  let c := s.cq q
  if c.enable ∧ c.irqEnable ∧ 0 < c.irqPending ∧ 0 < c.irqNs then
    ((s.reach (c.irqSince + c.irqNs)).setCq q { c with irqPending := 0 }).signal c.vector.toNat
  else s

/-- MSIX_COALESCE_TIMEOUT. -/
def execMsixCoalesceTimeout (q : RingQ) (s : State) : Host.Outcome State Fault Refusal := .next (s.coalesceTimeout q.val)

end Sys2Proof.Machine
end

