-- ==== Sys2Proof/Machine/HostData.lean ====
section
/-!
DEFINITION. Descriptors that move data: COPY (R289 to R291, R306), LOAD_ROSTER (R50, R69, R308), LAUNCH (R41, R42, R309), SCRUB with the
end of its pass (R228, R260), CONFIG_FINGERPRINT (R386), TAG_WRITE (R382). A failed access of host memory follows R306 and R307.
-/

namespace Sys2Proof.Machine

/-! ### Reads of host memory -/

/-- The bytes that a read of `n` bytes of host memory gave, and whether it gave them all. -/
def hostBytes (read : HostRead) (n : Nat) : List Byte × Bool := (read.bytes.take n, !read.failed && decide (n ≤ read.bytes.length))

/-! ### COPY (R289, R291, R306) -/

/-- The transfer of a COPY at its first byte. -/
def Desc.transfer (d : Desc) (q : Nat) (orphan : Bool) (read : HostRead) (wrote : HostWrite) : Transfer :=
  ⟨q, d, 0x200 + d.copyEngine, orphan, d.copyDst, read.bytes, !read.failed, wrote, 0, false, [], [], none⟩

/-- A COPY's transfer begins with the reads of its first chunk. -/
def State.beginCopy (s : State) (t : Transfer) : State := s.beginTransfer { t with units := s.readStage t }

/-- A started descriptor whose transfer is under way. -/
def State.moving (s : State) (q : Nat) (d : Desc) : Bool :=
  s.host.transfers.any fun t => !t.orphan && t.q == q && t.desc.order == d.order

/-- The COPY of a descriptor lost to a host reset (R334). -/
def State.orphanCopy (s : State) (q index : Nat) (read : HostRead) (wrote : HostWrite) : State :=
  match s.host.orphans.find? fun e => e.1 == q && e.2.index == index with
  | some e => (s.updHost fun h => { h with orphans := h.orphans.erase e }).beginCopy (e.2.transfer q true read wrote)
  | none => s

/-- COPY: its transfer begins; the rings on its path carry it (DESIGN CHOICE, log entry 21). -/
def State.copy (s : State) (q : Nat) (d : Desc) (read : HostRead) (wrote : HostWrite) : State :=
  if s.moving q d then s else s.beginCopy (d.transfer q false read wrote)

/-- COPY. -/
def execCopy (q : RingQ) (index : BitVec 16) (read : HostRead) (wrote : HostWrite) (s : State) : Host.Outcome State Fault Refusal :=
  .next (match s.started q index opCopy with
    | some _ => s.onStartedThat q index opCopy (fun d => !s.moving q.val d) fun d => s.copy q.val d read wrote
    | none => if s.isUp then s.orphanCopy q.val index.toNat read wrote else s)

/-! ### LOAD_ROSTER (R50, R69, R307, R308) -/

/-- Every LOAD_ROSTER started before `d` has completed. -/
def State.loadTurn (s : State) (d : Desc) : Bool :=
  s.running.all fun e => e.2.opcode != opLoadRoster || decide (d.startNo ≤ e.2.startNo)

/-- Whether LENGTH fits the header's WORD_COUNT and the region (DEDUCED, log entry 47). -/
def rosterFits (q : Sequencer) (h : RosterHeader) (len : Nat) : Bool :=
  len == 16 + 16 * h.count && decide (64 + len ≤ q.regionSize * 65536)

/-- A roster loaded: refused with a status, or its writes to the core's region begin (DEDUCED, log entry 47). -/
def State.loadRoster (s : State) (q : Nat) (d : Desc) (n len : Nat) (read : HostRead) : State :=
  let b := hostBytes read len
  if (s.entry n).state = .absent then s.complete q d stCoreAbsent 0
  else if len < 16 ∨ (16 ≤ b.1.length ∧ !rosterFits (s.core n).seq (parseHeader b.1) len) then s.complete q d stRosterInvalid 0
  else
    let t : Transfer := ⟨q, d, 0x210, false, s.regionAddr n + 64, b.1, b.2, none, 0, true, [], [], none⟩
    s.beginTransfer { t with units := s.writeStage t b.1 }

/-- The image of a ring's variant stored and loaded. Check 6 of R50 judges a cool image against the normal image; a normal image that
differs from a cool image held already is stored beside it (DESIGN CHOICE, log entry 51). -/
def Ring.store (r : Ring) (i : RingImage) : Ring :=
  if i.cool then { r with cool := some i, coolLoaded := true } else { r with normal := some i, normalLoaded := true }

/-- DATA_RATE in effect for a ring, and whether it is the ring of a mapped-out channel. -/
def State.imageRate (s : State) (p : ParsedImage) : Nat := (s.cuff (p.inst / 20)).rateNow.toNat
def State.mappedRing (s : State) (p : ParsedImage) : Bool := p.cls == 5 && (s.chan (p.inst / 20) (p.inst % 20)).state == .mappedOut

/-- A ring image loaded: the status. -/
def State.loadImage (s : State) (len : Nat) (read : HostRead) : State × Nat :=
  let b := hostBytes read len
  let p := parseImage b.1
  let key := ringKey p.cls p.inst
  if len < 16 ∨ (16 ≤ b.1.length ∧ len ≠ 16 + 4 * p.count) then (s, stRingInvalid)
  else if !b.2 then (s, stHostAccess)
  else if !imageValid p (s.ring key) (s.imageRate p) (s.mappedRing p) then (s, stRingInvalid)
  else if s.yoke.level < p.image.reqFl then (s, stFeatureLevel)
  else (s.updRing key fun r => r.store p.image, stOk)

/-- A ring image waits until its ring has returned to its open image (R42) (DEDUCED, log entry 30). -/
def State.imageWaits (s : State) (read : HostRead) : Bool :=
  let p := parseImage read.bytes
  (s.ring (ringKey p.cls p.inst)).use != .opened

/-- LOAD_ROSTER of a started descriptor (DESIGN CHOICE, log entry 8). -/
def State.load (s : State) (q : Nat) (d : Desc) (read : HostRead) : State :=
  let len := d.get 128 32
  if !s.loadTurn d then s
  else if s.moving q d then s
  else if s.set.running then s.complete q d stSetActive 0
  else if bit d.raw 160 then
    if s.imageWaits read then s
    else
      let x := s.loadImage len read
      x.1.complete q d x.2 0
  else s.loadRoster q d (d.get 176 9) len read

/-- LOAD_ROSTER. -/
def execLoadRoster (q : RingQ) (index : BitVec 16) (read : HostRead) (s : State) : Host.Outcome State Fault Refusal :=
  .next (s.onStarted q index opLoadRoster fun d => s.load q.val d read)

/-! ### LAUNCH (R41, R42, R309) -/

/-- The masked cores (Table 14-13). -/
def maskCores (bs : List Byte) : List Nat := (List.range 512).filter fun n => bit ((bs[n / 8]?).getD 0) (n % 8)

/-- The roster header in a core's region. -/
def State.headerOf (s : State) (n : Nat) : RosterHeader := parseHeader (memRead s.mem (s.regionAddr n + 64) 16)

/-- Images that LOAD_ROSTER has loaded. -/
def Ring.loaded (r : Ring) : List RingImage :=
  (if r.normalLoaded then r.normal.toList else []) ++ (if r.coolLoaded then r.cool.toList else [])

def State.loadedImages (s : State) : List RingImage := s.rings.flatMap fun e => e.2.loaded

/-- The checks of step 1 that need no header. -/
def State.launchEarly (s : State) (cores : List Nat) : Nat :=
  if cores.isEmpty then stInvalid
  else if s.set.running then stSetActive
  else if cores.any fun n => (s.entry n).state == .absent then stCoreAbsent
  else if cores.any fun n => !s.panelAnswers (n / 64) then stPanelAbsent
  else if cores.any fun n => (s.core n).seq.fault.faulted then stCoreFaulted
  else stOk

/-- The word of a core's Pocket that holds its roster header (R70). -/
def State.headerWord (s : State) (n : Nat) : Nat := wordOf (s.regionAddr n + 64)

/-- A core's roster header can be read (R221). -/
def State.headerReads (s : State) (n : Nat) : Bool := (s.column (s.columnOf n)).readable (s.headerWord n)

/-- The reads of the masked cores' headers, with what they find (R221). -/
def State.readHeaders (s : State) (cores : List Nat) : State :=
  foldOver cores (fun t n => t.onColumn (t.columnOf n) fun c x => c.read x (t.headerWord n) Agent.hqe.reader) s

/-- The checks of step 1 in their order; 0 for a LAUNCH that proceeds. A header that cannot be read gives the status of a host-queue
transfer of Table 11-3 (DESIGN CHOICE, log entry 47). -/
def State.launchStatus (s : State) (buildId : BitVec 32) (cores : List Nat) : Nat :=
  let early := s.launchEarly cores
  if early ≠ stOk then early
  else if cores.any fun n => !s.headerReads n then stUncorrectable
  else if cores.any (fun n => s.badRosters.contains n || (s.headerOf n).buildId != buildId)
      || s.loadedImages.any (fun i => i.buildId != buildId) then stBuildMismatch
  else stOk

/-- A core of the set at steps 2 to 4: counters and registers afresh, its lap record, its roster cache. -/
def State.launchCore (buildId : BitVec 32) (s : State) (n : Nat) : State :=
  let h := s.headerOf n
  let c := (s.core n).launch h.entry h.count s.now []
  let s1 := ((s.setCore n c).writePocket .hqe n (s.regionAddr n) (lapRecordBytes c.seq buildId))
  let last := lastWord c.seq
  let s2 := s1.noteFill n h.entry last
  s2.setCore n { c with seq := { c.seq with cache := s2.cacheFor n h.entry last } }

/-- Windows and host groups of every core as written; every window held by its own core (R213, R216). -/
def State.launchWindows (s : State) : State :=
  let f (c : Core) : Core :=
    { c with scr := { c.scr with windowsNow := c.scr.windows, hostGroupsNow := c.scr.hostGroups, holders := [], granted := [] } }
  { s with cores := s.cores.map fun e => (e.1, f e.2), credit := [] }

/-- The Pocket rings of the columns that the state lists. -/
def State.pocketRings (s : State) : List Nat := s.columns.filterMap fun e => (s.slotOwner e.1).map (ringKey 2)

/-- Every ring starts at slot 0 of its normal image with lap 0: a boundary, at which what waits for one takes effect. -/
def State.launchRings (s : State) : State :=
  let s1 := foldOver (s.rings.map (·.1)) State.drainRing s
  let s2 := State.noNear { s1 with rings := s1.rings.map fun e => (e.1, e.2.launch s1.now) }
  foldOver (s2.rings.map (·.1) ++ s2.pocketRings) State.atBoundary s2

/-- REPLAYABLE of the set: every loaded image carries it. -/
def State.replayableSet (s : State) : Bool := !s.loadedImages.isEmpty && s.loadedImages.all (·.replayable)

/-- Steps 2 to 4. -/
def State.launchSet (s : State) (q : Nat) (d : Desc) (buildId : BitVec 32) (cores : List Nat) : State :=
  let set : ActiveSet := ⟨true, buildId, s.replayableSet, cores, s.now, q, d.order⟩
  let s1 := foldOver cores (State.launchCore buildId) s.launchWindows
  let s2 := { s1.launchRings with set := set }
  if bit d.raw 96 then s2.postEntry q d stStarted 0 else s2

/-- A bank marked for retirement moves before a LAUNCH proceeds (R212). -/
def State.bankWaits (s : State) : Bool :=
  !s.set.running && s.cores.any fun e => e.2.scr.pendingBank != 0xFF && (s.entry e.1).state != .absent

/-- CO_ROSTER_REGION as it was last written takes effect (R67). -/
def State.applyRegions (s : State) : State :=
  { s with cores := s.cores.map fun e => (e.1, { e.2 with seq := { e.2.seq with regionNow := e.2.seq.regionReg } }) }

/-- The checks of a LAUNCH with no set active, and its steps. -/
def State.launchAfter (s : State) (q : Nat) (d : Desc) (cores : List Nat) : State :=
  let buildId : BitVec 32 := field d.raw 64 32
  let st := s.launchStatus buildId cores
  let s1 := if s.launchEarly cores = stOk then s.readHeaders cores else s
  if st = stOk then s1.launchSet q d buildId cores else s1.complete q d st 0

/-- LAUNCH of a started descriptor; that of the active set waits for the set's end (step 5) (DESIGN CHOICE, log entry 21). -/
def State.launch (s : State) (q : Nat) (d : Desc) (read : HostRead) : State :=
  let b := hostBytes read 64
  if s.set.running ∧ s.set.sq = q ∧ s.set.order = d.order then s
  else if s.bankWaits then s
  else if !b.2 then s.complete q d stHostAccess 0
  else (if s.set.running then s else s.applyRegions).launchAfter q d (maskCores b.1)

/-- LAUNCH. -/
def execLaunch (q : RingQ) (index : BitVec 16) (read : HostRead) (s : State) : Host.Outcome State Fault Refusal :=
  .next (s.onStarted q index opLaunch fun d => s.launch q.val d read)

/-! ### SCRUB (R228, R260) -/

/-- The parts of a range of Pocket space by logical core, in 2 KiB steps of the slot. -/
def pocketParts (start len : Nat) : List ScrubPart :=
  (List.range 512).filterMap fun n =>
    let base := n * pocketSlotBytes
    let lo := max start base
    let hi := min (start + len) (base + pocketSlotBytes)
    if lo < hi then some ⟨ringKey 2 n, (lo - base) / 2048, (hi - base) / 2048⟩ else none

/-- The parts of the capacity tier: the rows of every channel of the list. -/
def State.tierParts (s : State) : List ScrubPart := s.cap.list.map fun i => ⟨ringKey 5 i, 0, 4194304⟩

/-- The parts of a SCRUB, or the status that it completes with. -/
def State.scrubParts (s : State) (start len : Nat) : List ScrubPart × Nat :=
  if start + len ≤ 512 * pocketSlotBytes then
    let ps := pocketParts start len
    if ps.any fun p => (s.entry (ringInst p.ring)).state == .absent then ([], stUnmapped) else (ps, stOk)
  else if capBase ≤ start ∧ start + len ≤ scratchBase then
    if start = capBase ∧ len = s.capBytes then (s.tierParts, stOk) else ([], stInvalid)
  else ([], stUnmapped)

/-- A part whose Panel does not answer. -/
def State.partGone (s : State) (p : ScrubPart) : Bool := ringClass p.ring == 2 && !s.panelAnswers (ringInst p.ring / 64)

/-- A scrub pass begins; the parts of a Panel that does not answer end at once. Passes stand in the order in which their descriptors were
fetched (R228). -/
def State.beginScrub (s : State) (q : Nat) (d : Desc) (ps : List ScrubPart) : State :=
  let p := { ScrubPass.fresh q d.order (ps.filter fun x => !s.partGone x) with status := if ps.any s.partGone then 2 else 0 }
  { s with scrubs := insertBy (fun a b => decide (a.order < b.order)) p s.scrubs }

/-- The pass of a descriptor has begun. -/
def State.scrubbing (s : State) (q : Nat) (d : Desc) : Bool := s.scrubs.any fun p => p.sq == q && p.order == d.order

/-- SCRUB of a started descriptor. -/
def State.scrub (s : State) (q : Nat) (d : Desc) : State :=
  if s.scrubbing q d then s
  else
    let x := s.scrubParts (d.get 64 48) (d.get 128 48)
    if x.2 = stOk then s.beginScrub q d x.1 else s.complete q d x.2 0

/-- SCRUB. -/
def execScrub (q : RingQ) (index : BitVec 16) (s : State) : Host.Outcome State Fault Refusal :=
  .next (s.onStartedThat q index opScrub (fun d => !s.scrubbing q.val d) fun d => s.scrub q.val d)

/-- The completion status of a pass that has ended. -/
def ScrubPass.ends (p : ScrubPass) : Nat := if p.status = 2 then stPanelAbsent else stOk

/-- SCRUB_PASS_END: the oldest pass whose parts have all ended. -/
def State.scrubEnd (s : State) (wrote : HostWrite) : State :=
  match s.scrubs.find? fun p => p.parts.isEmpty with
  | some p =>
    match s.descOf p.sq p.order with
    | some d => s.endScrub p d p.status.toNat p.ends wrote
    | none => s
  | none => s

/-- SCRUB_PASS_END. -/
def execScrubPassEnd (wrote : HostWrite) (s : State) : Host.Outcome State Fault Refusal :=
  .next (if s.isUp then s.scrubEnd wrote else s)

/-! ### CONFIG_FINGERPRINT (R386) -/

/-- The bytes that a CONFIG_FINGERPRINT writes to host memory: addresses and data, in order. -/
def fingerprintWrites (d : Desc) (digest record : List Byte) : List (Nat × List Byte) :=
  (d.get 64 64, digest)
    :: (if d.get 128 64 ≠ 0 ∧ record.length ≤ d.get 192 32 then [(d.get 128 64, record)] else [])

/-- Runs of bytes written to host memory in order, up to the byte at which a write fails. -/
def State.hostWrites (s : State) (d : Desc) (ws : List (Nat × List Byte)) (wrote : HostWrite) : State :=
  match ws with
  | [] => s
  | w :: r => (s.hostData d w.1 w.2 wrote).hostWrites d r (wrote.map fun k => k - w.2.length)

/-- CONFIG_FINGERPRINT of a started descriptor. -/
def State.fingerprint (s : State) (q : Nat) (d : Desc) (unstable : Bool) (wrote : HostWrite) : State :=
  let record := s.canonicalRecord
  let s1 := s.computeFingerprint unstable
  let ws := fingerprintWrites d s1.mgmt.digest record
  let total := (ws.map fun w => w.2.length).sum
  let ok := decide (total ≤ wrote.getD total)
  (s1.hostWrites d ws wrote).complete q d (if ok then stOk else stHostAccess) record.length

/-- CONFIG_FINGERPRINT. -/
def execConfigFingerprint (q : RingQ) (index : BitVec 16) (unstable : Bool) (wrote : HostWrite) (s : State) :
    Host.Outcome State Fault Refusal :=
  .next (s.onStarted q index opFingerprint fun d => s.fingerprint q.val d unstable wrote)

/-! ### TAG_WRITE (R382) -/

/-- A write to the user tag area, counted. -/
def State.putTags (s : State) (off : Nat) (bs : List Byte) : State :=
  { s with mgmt := { s.mgmt with tagBytes := memWrite s.mgmt.tagBytes off bs, tagWrites := satAdd s.mgmt.tagWrites 1 } }

/-- TAG_WRITE of a started descriptor. -/
def State.tagDescriptor (s : State) (q : Nat) (d : Desc) (read : HostRead) : State :=
  let b := hostBytes read (d.get 144 13)
  if !b.2 then s.complete q d stHostAccess 0
  else if s.mgmt.tagLocked || !bit s.mgmt.serviceCtrl 1 then s.complete q d stTagLocked 0
  else (s.putTags (d.get 128 12) b.1).complete q d stOk 0

/-- TAG_WRITE. -/
def execTagWrite (q : RingQ) (index : BitVec 16) (read : HostRead) (s : State) : Host.Outcome State Fault Refusal :=
  .next (s.onStarted q index opTagWrite fun d => s.tagDescriptor q.val d read)

end Sys2Proof.Machine
end

