-- ==== Sys2Proof/Machine/MgmtRows.lean ====
section
/-!
DEFINITION. The log's holds (R367), the events' holdoffs (R374), computations of the fingerprint (R386), the Collar's commands (Table
18-2), firmware updates (R376, R377), attestation (R379) and the test chain (R387 to R392).
-/

namespace Sys2Proof.Machine

/-! ### Holds and holdoffs -/

/-- A coalescing hold ends: the entry frees, or its record is released and a new hold begins (R367). -/
def State.holdEnd (s : State) (g cls loc : Nat) (detail : BitVec 48) : State :=
  let x := s.logSource g
  match x.entries.find? fun e => e.cls.toNat == cls && e.location.toNat == loc && e.detail == detail with
  | some e =>
    if e.waits then s
    else
      let s1 := s.reach e.holdEnd
      let free : LogSource := { x with entries := x.entries.erase e }
      let y := match e.pending with
        | some r => x.releaseEntry e r (s1.now + s.coalesceNs)
        | none => free
      s1.setLogSource g (y.refill 64 g)
  | none => s

/-- COALESCE_HOLD_END. -/
def execCoalesceHoldEnd (group : Fin 23) (cls : Byte) (location : BitVec 12) (detail : BitVec 48) (s : State) :
    Host.Outcome State Fault Refusal := .next (s.holdEnd group.val cls.toNat location.toNat detail)

/-- A holdoff ends: one event carries the current state where it differs from the last one sent (R374) (DEDUCED, log entry 44). -/
def State.holdoffEnd (s : State) (name : EventName) (source : Nat) : State :=
  match s.mgmt.holdoffs.find? fun h => h.name == name && h.source == source with
  | some h =>
    let s1 := s.reach h.until_
    let s2 := { s1 with mgmt := { s1.mgmt with holdoffs := s1.mgmt.holdoffs.erase h } }
    if h.current = h.sent then s2 else s2.event name source h.current
  | none => s

/-- EVENT_HOLDOFF_END. -/
def execEventHoldoffEnd (name : EventName) (source : Nat) (s : State) : Host.Outcome State Fault Refusal :=
  .next (s.holdoffEnd name source)

/-! ### The fingerprint (R386) -/

/-- The Yoke is powered and start-up step 4 has ended. -/
def State.yokeUp (s : State) : Bool := s.power.stage && decide (4 ≤ s.power.step)

/-- FPRINT_COMPUTE: with AUTO = 1, after YK_FPRINT_GEN has changed. -/
def execFprintCompute (unstable : Bool) (s : State) : Host.Outcome State Fault Refusal :=
  .next (if s.yokeUp && bit s.mgmt.fprintCtrl 0 && s.mgmt.gen != s.mgmt.genDone then s.computeFingerprint unstable else s)

/-- The digest that the Collar holds: the last computed, or while the Yoke is unpowered that of the last time it was powered. -/
def State.heldDigest (s : State) : List Byte :=
  if s.yokeUp then s.mgmt.digest
  else match s.mgmt.held with
    | some h => h.digest
    | none => s.mgmt.digest

/-- The canonical record: with the Yoke as it stands, and without it as the Collar holds it (DEDUCED, log entry 38). -/
def State.heldRecord (s : State) : Option (List Byte) :=
  if s.yokeUp then some s.canonicalRecord else s.mgmt.held.map (·.record)

/-- FPRINT_READ: the digest after a computation, or 240 bytes of the record; without the Yoke, what the Collar holds. What a scan has
destroyed reads as free values (R391), and so does a record while no Yoke has yet run (DESIGN CHOICE, log entry 2). -/
def State.fprintRead (s : State) (off : Option Nat) (unstable : Bool) : State :=
  if !s.collarUp then s
  else
    match off with
    | none =>
      let s1 := if s.yokeUp then s.computeFingerprint unstable else s
      if s.mgmt.scanned then (s1.drewBytes 64).answer (.command 0x0C true (s1.freeBytes 64))
      else s1.answer (.command 0x0C true s1.heldDigest)
    | some o =>
      match (if s.mgmt.scanned then none else s.heldRecord) with
      | some r => s.answer (.command 0x0C true ((r.drop o).take 240))
      | none => (s.drewBytes 240).answer (.command 0x0C true (s.freeBytes 240))

/-- FPRINT_READ. -/
def execFprintRead (off : Option Nat) (unstable : Bool) (s : State) : Host.Outcome State Fault Refusal :=
  .next (s.fprintRead off unstable)

/-! ### PLDM sensors and FRU data (Table 18-1) -/

/-- The numeric and the state sensors that PLDM Type 2 reads, each with the setup register that it mirrors (R373). -/
inductive PldmSensor where
  | panelTemp (p : PanelId)
  | coolant
  | input
  | cap
  | startup
  | fold
  | thermal
  | panel (p : PanelId)
deriving DecidableEq, Repr

/-- The value that a PLDM sensor shows: the register, or the field of it that R373 names. The table has no row for a read. -/
def State.pldmValue (s : State) (x : PldmSensor) : Nat :=
  let v (r : Reg) : Word := s.regValue Latches.reset r
  match x with
  | .panelTemp p => (v (.thPanelTemp p.val)).toNat
  | .coolant => (v .thCoolant).toNat
  | .input => (v .pwInput).toNat
  | .cap => (v .thCap).toNat
  | .startup => (v .pwStartup).toNat
  | .fold => (field (v .pwFold) 30 2).toNat
  | .thermal => (field (v .thStatus) 30 2).toNat
  | .panel p => (field (v .panelStatus) (2 * p.val) 2).toNat

/-- What PLDM FRU data reads: the vendor identity record (R380), the user tag area (R381), and the OEM record with the fingerprint's digest
(R386). The table has no row for a read. -/
def State.fruData (s : State) : List Byte × List Byte × List Byte :=
  (identityRecord, (List.range 4096).map (memGet s.mgmt.tagBytes), s.heldDigest)

/-! ### The user tag area and the debug lock (R382, R391, R392) -/

/-- The strap as sampled when the Collar begins to process a command. -/
def State.sampleStrap (s : State) (strap : Bool) : State := { s with mgmt := { s.mgmt with strap := strap } }

/-- TAG_WRITE of the Collar. -/
def execTagWriteCommand (off : BitVec 12) (bytes : List Byte) (s : State) : Host.Outcome State Fault Refusal :=
  .next (s.command 9 (!s.mgmt.tagLocked && bit s.mgmt.serviceCtrl 2) fun t => t.putTags off.toNat bytes)

/-- TAG_LOCK. -/
def execTagLock (s : State) : Host.Outcome State Fault Refusal := .next (s.command 0x0A true State.lockTags)

/-- TAG_UNLOCK: with the strap asserted; a refusal is reported. -/
def State.tagUnlock (s : State) (strap : Bool) : State :=
  let s1 := (s.sampleStrap strap).command 0x0B strap fun t => { t with mgmt := { t.mgmt with tagLocked := false } }
  if s.collarUp && !strap then s1.event .tagUnlockRefused 0 0 else s1

/-- TAG_UNLOCK. -/
def execTagUnlock (strap : Bool) (s : State) : Host.Outcome State Fault Refusal := .next (s.tagUnlock strap)

/-- TEST_MODE: the module stops as at a HALT with no set active (R391). -/
def execTestMode (strap : Bool) (s : State) : Host.Outcome State Fault Refusal :=
  .next ((s.sampleStrap strap).command 0x0E (strap && !s.set.running && !s.mgmt.debugLocked) fun t =>
    let u := t.haltBody
    { u with mgmt := { u.mgmt with testMode := true } })

/-- DEBUG_LOCK: the fuse is blown for good (R392). -/
def execDebugLock (strap : Bool) (s : State) : Host.Outcome State Fault Refusal :=
  .next ((s.sampleStrap strap).command 0x0F (strap && !s.mgmt.testMode) fun t =>
    { t with mgmt := { t.mgmt with debugLocked := true } })

/-! ### The test chain (Tables 18-10 and 18-11; R238, R276, R387 to R390) -/

/-- The die at a chain position is powered; an unpowered one is a one-bit bypass (R387). -/
def State.chainPowered (s : State) (pos : Nat) : Bool :=
  if pos = 0 then s.power.standby
  else if 2 ≤ pos ∧ pos < 10 then s.power.stage && (s.panel (pos - 2)).powered
  else s.power.stage

/-- The position of an access, from 0 for the Collar; the row of Table 18-11. -/
def chainPos (a : ChainAccess) : Nat :=
  match a with
  | .idcode | .bypass | .identification | .scan => 0
  | .readInstrument p | .margin p => p.val
  | .repairLogClear k _ | .dramRepair k _ => 2 + k.val / 68
  | .packageRepair k _ _ _ => 10 + k.val

/-- Whether Table 18-11 accepts an access; the instruments of a Cuff only with no set active (R276). -/
def State.chainAccepts (s : State) (a : ChainAccess) : Bool :=
  s.chainPowered (chainPos a) &&
    match a with
    | .idcode | .bypass | .identification => true
    | .readInstrument p => !s.mgmt.debugLocked && (decide (p.val < 10) || !s.set.running)
    | .scan => !s.mgmt.debugLocked && s.mgmt.testMode
    | .repairLogClear _ _ | .dramRepair _ _ | .packageRepair _ _ _ _ | .margin _ => !s.mgmt.debugLocked && !s.set.running

/-- The row of a channel repaired: zero data with valid checks (R276) (DEDUCED, log entry 39). -/
def State.repairRow (s : State) (k slot row : Nat) : State :=
  match s.cap.list.findIdx? fun x => x == 20 * k + slot with
  | some i =>
    foldOver (List.range 31) (fun t c =>
      let a := capUnitAddr s.cap.list i (31 * row + c)
      { t with mem := memClear t.mem a 64,
               cap := { t.cap with faults := t.cap.faults.filter fun e => e.1 != a, hard := t.cap.hard.filter (· != a) } }) s
  | none => s

/-- What an accepted access does (DEDUCED, log entry 39). -/
def State.chainEffect (s : State) (a : ChainAccess) : State :=
  match a with
  | .repairLogClear k i => s.setColumn k.val { s.column k.val with logCleared := i.val :: (s.column k.val).logCleared.erase i.val }
  | .dramRepair k d =>
    let c := s.column k.val
    if c.spareLeft d then s.setColumn k.val { c with repairs := c.repairs ++ [d] } else s
  | .packageRepair k slot row done => if done then s.repairRow k.val slot.val row.toNat else s
  | .scan => { s with mgmt := { s.mgmt with scanned := true } }
  | _ => s

/-- What an accepted access returns: the identification, whether a package repair succeeded, and for a Panel or a Cuff the content of its
instruments (R238, R276, R380); open for the Collar's and the Yoke's instruments, and for all of them once a scan has destroyed the state
that they read (R391) (DESIGN CHOICE, log entry 55). -/
def State.chainResult (s : State) (a : ChainAccess) : ChainResult :=
  match a with
  | .idcode => .content (leBytes 4 Config.idcode.toNat)
  | .identification => .content identityRecord
  | .packageRepair _ _ _ done => .repaired done
  | .readInstrument p =>
    if s.mgmt.scanned ∨ p.val < 2 then .content (Config.instrument p.val s.freeTick)
    else if 10 ≤ p.val then .cuff ((List.range 16).map fun n => (n, (s.chan (p.val - 10) n).capture))
    else
      .panel ((List.range 68).map fun i =>
        let k := 68 * (p.val - 2) + i
        let c := s.column k
        (k, clearEntries c.remap c.logCleared, c.retired.take 32, c.capture))
  | _ => .none

/-- An access of the chain's master: accepted, or a BYPASS that changes nothing (R389) (DEDUCED, log entry 39). -/
def State.chainAccess (s : State) (a : ChainAccess) : State :=
  if s.chainAccepts a then (s.chainEffect a).drew.answer (.chain true (s.chainResult a)) else s.answer (.chain false .none)

/-- CHAIN_OP (R390). -/
def execChainOp (access : ChainAccess) (s : State) : Host.Outcome State Fault Refusal :=
  .next (s.command 0x0D (s.mgmt.chain != .external && !s.mgmt.debugLocked) fun t => t.chainAccess access)

/-- CHAIN_ACCESS: an access of the external port while it holds the chain. -/
def execChainAccess (access : ChainAccess) (s : State) : Host.Outcome State Fault Refusal :=
  .next (if s.mgmt.chain = .external then s.chainAccess access else s)

/-- EXTERNAL_CHAIN_TAKE (R388): the external port takes the chain while the strap is asserted, and the Collar takes it back. -/
def execExternalChainTake (strap : Bool) (s : State) : Host.Outcome State Fault Refusal :=
  let s1 := s.sampleStrap strap
  .next { s1 with mgmt := { s1.mgmt with
    chain := if strap then (if s.mgmt.chain = .collarBusy then .collarBusy else .external)
             else (if s.mgmt.chain = .external then .collar else s.mgmt.chain) } }

/-! ### Firmware (R376, R377) -/

/-- An image verifies under R376 (DESIGN CHOICE, log entry 15). -/
def State.verifies (s : State) (i : FirmwareImage) : Bool :=
  let header := Config.firmwareHeader i.component i.version.toNat i.svn.toNat i.keySlot.toNat i.digest
  sha3 i.key == Config.keyDigest i.keySlot.toNat && !bit s.mgmt.revoked i.keySlot.toNat
    && Config.signatureValid (sha3 (header ++ i.key)) (sha3 i.key) i.signature
    && sha3 i.payload == i.digest && decide ((s.fw i.component).counter ≤ i.svn.toNat)

/-- The bank that an update writes: not the active one. -/
def Firmware.inactiveB (f : Firmware) : Bool := if f.pending then f.activeB else !f.activeB

/-- A bank written. -/
def Firmware.putBank (f : Firmware) (b : Bool) (i : Option FwImage) : Firmware :=
  if b then { f with bankB := i } else { f with bankA := i }

/-- The inactive bank written with an image: pending where it verifies. -/
def Firmware.update (f : Firmware) (i : FirmwareImage) (ok : Bool) : Firmware :=
  let b := f.inactiveB
  let f1 := f.putBank b (if ok then some ⟨i.version, i.svn, i.digest⟩ else none)
  { f1 with activeB := if ok then b else !b, pending := ok }

/-- The Collar takes firmware updates: its firmware runs, or it is in recovery. -/
def State.updates (s : State) : Bool := s.power.standby && (s.collarUp || s.mgmt.recovery)

/-- PLDM_FIRMWARE_UPDATE. -/
def execPldmFirmwareUpdate (image : FirmwareImage) (s : State) : Host.Outcome State Fault Refusal :=
  .next (if s.updates && decide (1 ≤ image.component) && decide (image.component ≤ 5) then
      (s.setFw image.component ((s.fw image.component).update image (s.verifies image))).answer
        (.firmware image.component (s.verifies image))
    else s)

/-! ### Attestation (R379, Table 18-4) -/

/-- A responder answers: DOE from the end of step 4, MCTP from the end of step 1. -/
def State.responds (s : State) (t : Transport) : Bool :=
  match t with
  | .doe => s.yokeUp
  | .mctp => s.collarUp

/-- A request answered with its fields. -/
def State.spdm (s : State) (t : Transport) (req : Nat) (data : List Byte) : State :=
  if s.responds t then s.answer (.spdm req true data) else s

/-- The connection of a responder. -/
def State.setSpdm (s : State) (t : Transport) (c : Spdm) : State :=
  if s.responds t then
    match t with
    | .mctp => { s with mgmt := { s.mgmt with mctp := c } }
    | .doe => { s with mgmt := { s.mgmt with doe := c } }
  else s

def State.spdmOf (s : State) (t : Transport) : Spdm :=
  match t with
  | .mctp => s.mgmt.mctp
  | .doe => s.mgmt.doe

/-- GET_VERSION: SPDM 1.4, and the connection starts afresh. -/
def execGetVersion (t : Transport) (s : State) : Host.Outcome State Fault Refusal :=
  .next ((s.setSpdm t ⟨true, false⟩).spdm t 1 [0x14])

/-- GET_CAPABILITIES. -/
def execGetCapabilities (t : Transport) (s : State) : Host.Outcome State Fault Refusal :=
  .next (s.spdm t 2 (Config.spdmBody 2 []))

/-- NEGOTIATE_ALGORITHMS: ML-DSA-87 and SHA3-512 are settled. -/
def execNegotiateAlgorithms (t : Transport) (s : State) : Host.Outcome State Fault Refusal :=
  .next ((s.setSpdm t { s.spdmOf t with algorithms := true }).spdm t 3 (Config.spdmBody 3 []))

/-- The slots that a responder offers. -/
def State.slotsOf (s : State) (t : Transport) : List Nat :=
  match t with
  | .doe => [0, 1]
  | .mctp => if s.yokeUp then [0, 1] else [1]

/-- GET_DIGESTS: the digests of the chains of the offered slots. -/
def execGetDigests (t : Transport) (s : State) : Host.Outcome State Fault Refusal :=
  .next (s.spdm t 4 ((s.slotsOf t).flatMap fun i => sha3 (Config.certificateChain i)))

/-- A request that names a slot: slot 0 without the Yoke is answered Busy, the empty slots 2 to 7 with an error. -/
def State.onSlot (s : State) (t : Transport) (req slot : Nat) (data : List Byte) : State :=
  if !s.responds t then s
  else if 2 ≤ slot then s.answer (.spdm req false [])
  else if (s.slotsOf t).contains slot then s.answer (.spdm req true data)
  else s.answer (.busy req)

/-- GET_CERTIFICATE. -/
def execGetCertificate (t : Transport) (slot : Fin 8) (s : State) : Host.Outcome State Fault Refusal :=
  .next (s.onSlot t 5 slot.val (Config.certificateChain slot.val))

/-- What a signature of a slot's key covers, as bytes. -/
def signedBytes (slot : Nat) (nonce data : List Byte) : List Byte := BitVec.ofNat 8 slot :: (nonce ++ data)

/-- CHALLENGE. -/
def execChallenge (t : Transport) (slot : Fin 8) (nonce : List Byte) (s : State) : Host.Outcome State Fault Refusal :=
  .next (s.onSlot t 6 slot.val (Config.deviceSignature (signedBytes slot.val nonce [])))

/-- The digest of a component's pending or active bank; open where the bank holds no verified image. -/
def State.bankDigest (s : State) (c : Nat) : List Byte :=
  let f := s.fw c
  match if f.activeB then f.bankB else f.bankA with
  | some i => i.digest
  | none => Config.spdmBody c []

/-- The digest of a component's running image, or of its bank before it has started; while the Yoke is unpowered, the Collar
reports those of components 2 to 5 as last known. -/
def State.imageDigest (s : State) (c : Nat) : List Byte :=
  match if c = 1 ∨ s.yokeUp then ((s.fw c).now).map (·.digest) else s.mgmt.held.bind fun h => (h.images.find? fun e => e.1 == c).map (·.2) with
  | some d => d
  | none => s.bankDigest c

/-- Measurement block 7: the level, the debug-lock fuse, the five anti-rollback counters. -/
def State.stateBlock (s : State) : List Byte :=
  let level := if s.yokeUp then s.yoke.level else ((s.mgmt.held.map (·.level)).getD s.yoke.level)
  [BitVec.ofNat 8 level, if s.mgmt.debugLocked then 1 else 0] ++ (List.range 5).map fun i => BitVec.ofNat 8 (s.fw (i + 1)).counter

/-- A measurement block (Table 18-4) (DESIGN CHOICE, log entry 27). The blocks that report the Yoke's logic are free values once a scan has
destroyed it (R391) (DESIGN CHOICE, log entry 2). -/
def State.measurement (s : State) (i : Nat) : List Byte :=
  if s.mgmt.scanned ∧ i = 6 then s.freeBytes 64
  else if s.mgmt.scanned ∧ i = 7 then (s.drewBytes 64).freeBytes 7
  else if i = 7 then s.stateBlock
  else if i = 6 then s.heldDigest
  else s.imageDigest i

/-- The measurements that a request names: one block, or all seven. -/
def State.measurements (s : State) (block : Nat) : Option (List Byte) :=
  if block = 0xFF then some ((List.range 7).flatMap fun i => s.measurement (i + 1))
  else if block = 0 then some [7]
  else if block ≤ 7 then some (s.measurement block)
  else none

/-- GET_MEASUREMENTS: the blocks and the signature over them. -/
def execGetMeasurements (t : Transport) (slot : Fin 8) (block : Byte) (nonce : List Byte) (s : State) :
    Host.Outcome State Fault Refusal :=
  .next (match s.measurements block.toNat with
    | some m => (s.drewBytes 71).onSlot t 7 slot.val (m ++ Config.deviceSignature (signedBytes slot.val nonce m))
    | none => if s.responds t then s.answer (.spdm 7 false []) else s)

end Sys2Proof.Machine
end

