-- ==== Sys2Proof/Machine/RingEvents.lean ====
section
/-!
DEFINITION. The rows of the order rings: owner requests (R46), openings (R52, R53, R229, R369), boundaries (R43), stalls (R64),
refresh that falls due (R53, R256), and the credit messages of R213 to R215.
-/

namespace Sys2Proof.Machine

/-- TAKE (R213): the taker's unit on the target's credit ring. -/
def execTake (target taker : CoreId) (window : BitVec 4) (upset : BitVec 128) (s : State) : Host.Outcome State Fault Refusal :=
  .next (s.creditTake target.val taker.val window.toNat upset)

/-- GRANT (R213). -/
def execGrant (target taker : CoreId) (window : BitVec 4) (upset : BitVec 128) (s : State) : Host.Outcome State Fault Refusal :=
  .next (s.creditAnswer .grant target.val taker.val window.toNat upset)

/-- REFUSE (R213). -/
def execRefuse (target taker : CoreId) (window : BitVec 4) (upset : BitVec 128) (s : State) : Host.Outcome State Fault Refusal :=
  .next (s.creditAnswer .refuse target.val taker.val window.toNat upset)

/-- GIVE (R213). -/
def execGive (target giver : CoreId) (window : BitVec 4) (upset : BitVec 128) (s : State) : Host.Outcome State Fault Refusal :=
  .next (s.creditGive target.val giver.val window.toNat upset)

/-- WRITE (R214, R215). -/
def execWrite (target sender : CoreId) (window : BitVec 4) (upset : BitVec 128) (s : State) : Host.Outcome State Fault Refusal :=
  .next (s.creditWrite target.val sender.val window.toNat upset)

/-- OWNER_REQUEST (R46, R48, R56, R58). -/
def execOwnerRequest (cls inst owner : Nat) (walk : Bool) (s : State) : Host.Outcome State Fault Refusal :=
  .next (s.ownerRequest cls inst owner walk)

/-- HOST_OPENING (R52). -/
def execHostOpening (cls inst : Nat) (s : State) : Host.Outcome State Fault Refusal := .next (s.hostOpening cls inst)

/-- REFRESH_OPENING (R53, R225, R256). -/
def execRefreshOpening (cls inst : Nat) (s : State) : Host.Outcome State Fault Refusal := .next (s.refreshOpening cls inst)

/-- SWITCH_ON_OPENING (R52, R91). -/
def execSwitchOnOpening (n : CoreId) (s : State) : Host.Outcome State Fault Refusal := .next (s.switchOnOpening n.val)

/-- SCRUB_OPENING (R229, R260). -/
def execScrubOpening (cls inst : Nat) (s : State) : Host.Outcome State Fault Refusal := .next (s.scrubOpening cls inst)

/-- LOG_OPENING (R369). -/
def execLogOpening (cls inst : Nat) (s : State) : Host.Outcome State Fault Refusal := .next (s.logOpening cls inst)

/-- RING_BOUNDARY (R43, R55, R91, R240). -/
def execRingBoundary (cls inst : Nat) (s : State) : Host.Outcome State Fault Refusal := .next (s.ringBoundary cls inst)

/-- TURN_STALL (R64). -/
def execTurnStall (cls inst : Nat) (s : State) : Host.Outcome State Fault Refusal := .next (s.turnStall cls inst)

/-- POCKET_REFRESH_DUE (R53, R227), with the errors that have arisen in the column's words since the last one (DESIGN CHOICE, log entry
12). -/
def execPocketRefreshDue (due : ColumnRefresh) (s : State) : Host.Outcome State Fault Refusal :=
  .next ((foldOver due.errors (fun t e => t.setColumn due.col.val ((t.column due.col.val).upset e)) s).pocketDue due.col.val)

/-- CUFF_REFRESH_DUE (R256, R259), with the errors that have arisen in the channel's units since the last one (DESIGN CHOICE, log entry
12). -/
def execCuffRefreshDue (k : CuffId) (due : ChannelRefresh) (s : State) : Host.Outcome State Fault Refusal :=
  .next ((foldOver due.errors (State.capUpset k.val due.slot.val) s).cuffDue k.val due.slot.val)

end Sys2Proof.Machine
end

