-- ==== Sys2Proof/Machine/WordIssue.lean ====
section
/-!
DEFINITION. Issue of a core's next roster word within the module (R42, R72, R322): the core issues while its duty is not zero,
and the set completes with the last END.
-/

namespace Sys2Proof.Machine

/-- Core `n` issues its next word, whole, where that word holds the operation that `has` names (log entry 4). -/
def State.issueOn (s : State) (n : CoreId) (has : Slots → Bool) : State :=
  if s.power.duty = 0 then s else (s.onCore n.val fun l => l.issue has).checkSet

end Sys2Proof.Machine
end

