-- ==== Sys2Proof/Machine/RosterArray.lean ====
section
/-!
DEFINITION. Roster words by their A-slot operation (Tables 04-12 and 04-13): the core issues its next word, whole, where that word holds
the operation.
-/

namespace Sys2Proof.Machine

/-- ARR_WLOAD (R95). -/
def execArrWload (n : CoreId) (sy : Bool) (x : BitVec 8) (packed : Bool) (s : State) :
    Host.Outcome State Fault Refusal :=
  .next (s.issueOn n fun w => w.a == .wload sy x packed)

/-- ARR_PASS (R96). -/
def execArrPass (n : CoreId) (sy : Bool) (x y : BitVec 8) (acc : Bool) (s : State) :
    Host.Outcome State Fault Refusal :=
  .next (s.issueOn n fun w => w.a == .pass sy x y acc)

/-- ARR_GCFG (R105). -/
def execArrGcfg (n : CoreId) (threshold : BitVec 6) (timeout : BitVec 14) (s : State) :
    Host.Outcome State Fault Refusal :=
  .next (s.issueOn n fun w => w.a == .gcfg threshold timeout)

/-- ARR_GATHER (R106). -/
def execArrGather (n : CoreId) (sy : Bool) (x y : BitVec 8) (s : State) :
    Host.Outcome State Fault Refusal :=
  .next (s.issueOn n fun w => w.a == .gather sy x y)

/-- ATT_MODE (R152). -/
def execAttMode (n : CoreId) (sy : Bool) (x : BitVec 8) (s : State) :
    Host.Outcome State Fault Refusal :=
  .next (s.issueOn n fun w => w.a == .attMode sy x)

/-- ATT_Q (R156). -/
def execAttQ (n : CoreId) (sy : Bool) (x y : BitVec 8) (s : State) :
    Host.Outcome State Fault Refusal :=
  .next (s.issueOn n fun w => w.a == .attQ sy x y)

/-- ATT_KV (R158). -/
def execAttKv (n : CoreId) (sy : Bool) (x y : BitVec 8) (s : State) :
    Host.Outcome State Fault Refusal :=
  .next (s.issueOn n fun w => w.a == .attKv sy x y)

/-- ATT_WALK (R189). -/
def execAttWalk (n : CoreId) (sy : Bool) (x : BitVec 8) (s : State) :
    Host.Outcome State Fault Refusal :=
  .next (s.issueOn n fun w => w.a == .attWalk sy x)

/-- ATT_OUT (R167). -/
def execAttOut (n : CoreId) (sy : Bool) (x y : BitVec 8) (s : State) :
    Host.Outcome State Fault Refusal :=
  .next (s.issueOn n fun w => w.a == .attOut sy x y)

end Sys2Proof.Machine
end

