-- ==== Sys2Proof/Machine/RosterControl.lean ====
section
/-!
DEFINITION. Roster words by their C-slot control operation (R72 to R77, Tables 04-8 and 04-9): the core issues its next word, whole, where
that word holds the operation.
-/

namespace Sys2Proof.Machine

/-- NOP (R72). -/
def execNop (n : CoreId) (s : State) :
    Host.Outcome State Fault Refusal :=
  .next (s.issueOn n fun w => w.c == .nop)

/-- END (R42). -/
def execEndRoster (n : CoreId) (s : State) :
    Host.Outcome State Fault Refusal :=
  .next (s.issueOn n fun w => w.c == .endRoster)

/-- LAP_MARK (R70). -/
def execLapMark (n : CoreId) (s : State) :
    Host.Outcome State Fault Refusal :=
  .next (s.issueOn n fun w => w.c == .lapMark)

/-- PRIVATE_BEGIN (R62). -/
def execPrivateBegin (n : CoreId) (s : State) :
    Host.Outcome State Fault Refusal :=
  .next (s.issueOn n fun w => w.c == .privateBegin)

/-- PRIVATE_END (R62). -/
def execPrivateEnd (n : CoreId) (s : State) :
    Host.Outcome State Fault Refusal :=
  .next (s.issueOn n fun w => w.c == .privateEnd)

/-- STEP_MARK (R208). -/
def execStepMark (n : CoreId) (s : State) :
    Host.Outcome State Fault Refusal :=
  .next (s.issueOn n fun w => w.c == .stepMark)

/-- WAIT (R75). -/
def execWait (n : CoreId) (u : Machine.UnitCode) (count : BitVec 16) (s : State) :
    Host.Outcome State Fault Refusal :=
  .next (s.issueOn n fun w => w.c == .wait u count)

/-- LOOP (R81). -/
def execLoop (n : CoreId) (count : BitVec 12) (body : BitVec 14) (s : State) :
    Host.Outcome State Fault Refusal :=
  .next (s.issueOn n fun w => w.c == .loop count body)

/-- LOOPR (R81). -/
def execLoopr (n : CoreId) (sa : RegId) (body : BitVec 14) (s : State) :
    Host.Outcome State Fault Refusal :=
  .next (s.issueOn n fun w => w.c == .loopr sa body)

/-- JMP (R81). -/
def execJmp (n : CoreId) (off : BitVec 16) (s : State) :
    Host.Outcome State Fault Refusal :=
  .next (s.issueOn n fun w => w.c == .jmp off)

/-- BEQ (R81). -/
def execBeq (n : CoreId) (sa sb : RegId) (off : BitVec 16) (s : State) :
    Host.Outcome State Fault Refusal :=
  .next (s.issueOn n fun w => w.c == .branch .eq sa sb off)

/-- BNE (R81). -/
def execBne (n : CoreId) (sa sb : RegId) (off : BitVec 16) (s : State) :
    Host.Outcome State Fault Refusal :=
  .next (s.issueOn n fun w => w.c == .branch .ne sa sb off)

/-- BLT (R81). -/
def execBlt (n : CoreId) (sa sb : RegId) (off : BitVec 16) (s : State) :
    Host.Outcome State Fault Refusal :=
  .next (s.issueOn n fun w => w.c == .branch .lt sa sb off)

/-- BGE (R81). -/
def execBge (n : CoreId) (sa sb : RegId) (off : BitVec 16) (s : State) :
    Host.Outcome State Fault Refusal :=
  .next (s.issueOn n fun w => w.c == .branch .ge sa sb off)

/-- BLTU (R81). -/
def execBltu (n : CoreId) (sa sb : RegId) (off : BitVec 16) (s : State) :
    Host.Outcome State Fault Refusal :=
  .next (s.issueOn n fun w => w.c == .branch .ltu sa sb off)

/-- BGEU (R81). -/
def execBgeu (n : CoreId) (sa sb : RegId) (off : BitVec 16) (s : State) :
    Host.Outcome State Fault Refusal :=
  .next (s.issueOn n fun w => w.c == .branch .geu sa sb off)

end Sys2Proof.Machine
end

