-- ==== Sys2Proof/Machine/RosterMove.lean ====
section
/-!
DEFINITION. Roster words by their M-slot operation (Tables 04-10 and 04-11): the core issues its next word, whole, where that word holds
the operation.
-/

namespace Sys2Proof.Machine

/-- MOVE_IN (R127). -/
def execMoveIn (n : CoreId) (tl sy : Bool) (sa : RegId) (patS patF : BitVec 8) (s : State) :
    Host.Outcome State Fault Refusal :=
  .next (s.issueOn n fun w => w.m == .moveIn tl sy sa patS patF)

/-- MOVE_OUT (R127). -/
def execMoveOut (n : CoreId) (tl sy : Bool) (sa : RegId) (patS patF : BitVec 8) (s : State) :
    Host.Outcome State Fault Refusal :=
  .next (s.issueOn n fun w => w.m == .moveOut tl sy sa patS patF)

/-- MOVE_REMOTE (R214). -/
def execMoveRemote (n : CoreId) (tl sy : Bool) (sa : RegId) (patS : BitVec 8) (win : BitVec 4) (s : State) :
    Host.Outcome State Fault Refusal :=
  .next (s.issueOn n fun w => w.m == .moveRemote tl sy sa patS win)

/-- CREDIT_TAKE (R213). -/
def execCreditTake (n : CoreId) (tl sy : Bool) (sa : RegId) (win : BitVec 4) (s : State) :
    Host.Outcome State Fault Refusal :=
  .next (s.issueOn n fun w => w.m == .creditTake tl sy sa win)

/-- CREDIT_GIVE (R213). -/
def execCreditGive (n : CoreId) (tl sy : Bool) (sa : RegId) (win : BitVec 4) (s : State) :
    Host.Outcome State Fault Refusal :=
  .next (s.issueOn n fun w => w.m == .creditGive tl sy sa win)

/-- TURN_END (R46). -/
def execTurnEnd (n : CoreId) (sa : RegId) (cls : BitVec 8) (s : State) :
    Host.Outcome State Fault Refusal :=
  .next (s.issueOn n fun w => w.m == .turnEnd sa cls)

/-- FETCH_ROSTER (R85). -/
def execFetchRoster (n : CoreId) (tl sy : Bool) (sa : RegId) (block : BitVec 4) (s : State) :
    Host.Outcome State Fault Refusal :=
  .next (s.issueOn n fun w => w.m == .fetchRoster tl sy sa block)

/-- ATOMIC_ADD (R273). -/
def execAtomicAdd (n : CoreId) (tl sy : Bool) (sa : RegId) (patS patF : BitVec 8) (s : State) :
    Host.Outcome State Fault Refusal :=
  .next (s.issueOn n fun w => w.m == .atomicAdd tl sy sa patS patF)

/-- NEAR_OP (R267). -/
def execNearOp (n : CoreId) (tl sy : Bool) (sa : RegId) (patS : BitVec 8) (s : State) :
    Host.Outcome State Fault Refusal :=
  .next (s.issueOn n fun w => w.m == .nearOp tl sy sa patS)

/-- BANK_OFF (R234). -/
def execBankOff (n : CoreId) (tl sy : Bool) (sa : RegId) (s : State) :
    Host.Outcome State Fault Refusal :=
  .next (s.issueOn n fun w => w.m == .bankOff tl sy sa)

/-- REGION_ON (R90). -/
def execRegionOn (n : CoreId) (sy : Bool) (mask : BitVec 4) (s : State) :
    Host.Outcome State Fault Refusal :=
  .next (s.issueOn n fun w => w.m == .regionOn sy mask)

/-- REGION_OFF (R92). -/
def execRegionOff (n : CoreId) (sy : Bool) (mask : BitVec 4) (s : State) :
    Host.Outcome State Fault Refusal :=
  .next (s.issueOn n fun w => w.m == .regionOff sy mask)

end Sys2Proof.Machine
end

