-- ==== Sys2Proof/Machine/RosterScalar.lean ====
section
/-!
DEFINITION. Roster words by their C-slot scalar operation (Table 04-9): the core issues its next word, whole, where that word holds the
operation.
-/

namespace Sys2Proof.Machine

/-- ADD (R74). -/
def execAdd (n : CoreId) (sd sa sb : RegId) (s : State) :
    Host.Outcome State Fault Refusal :=
  .next (s.issueOn n fun w => w.c == .alu .add sd sa sb)

/-- SUB (R74). -/
def execSub (n : CoreId) (sd sa sb : RegId) (s : State) :
    Host.Outcome State Fault Refusal :=
  .next (s.issueOn n fun w => w.c == .alu .sub sd sa sb)

/-- AND (R74). -/
def execAnd (n : CoreId) (sd sa sb : RegId) (s : State) :
    Host.Outcome State Fault Refusal :=
  .next (s.issueOn n fun w => w.c == .alu .and sd sa sb)

/-- OR (R74). -/
def execOr (n : CoreId) (sd sa sb : RegId) (s : State) :
    Host.Outcome State Fault Refusal :=
  .next (s.issueOn n fun w => w.c == .alu .or sd sa sb)

/-- XOR (R74). -/
def execXor (n : CoreId) (sd sa sb : RegId) (s : State) :
    Host.Outcome State Fault Refusal :=
  .next (s.issueOn n fun w => w.c == .alu .xor sd sa sb)

/-- SHL (R74). -/
def execShl (n : CoreId) (sd sa sb : RegId) (s : State) :
    Host.Outcome State Fault Refusal :=
  .next (s.issueOn n fun w => w.c == .alu .shl sd sa sb)

/-- SHR (R74). -/
def execShr (n : CoreId) (sd sa sb : RegId) (s : State) :
    Host.Outcome State Fault Refusal :=
  .next (s.issueOn n fun w => w.c == .alu .shr sd sa sb)

/-- SRA (R74). -/
def execSra (n : CoreId) (sd sa sb : RegId) (s : State) :
    Host.Outcome State Fault Refusal :=
  .next (s.issueOn n fun w => w.c == .alu .sra sd sa sb)

/-- MUL (R74). -/
def execMul (n : CoreId) (sd sa sb : RegId) (s : State) :
    Host.Outcome State Fault Refusal :=
  .next (s.issueOn n fun w => w.c == .alu .mul sd sa sb)

/-- MULHU (R74). -/
def execMulhu (n : CoreId) (sd sa sb : RegId) (s : State) :
    Host.Outcome State Fault Refusal :=
  .next (s.issueOn n fun w => w.c == .alu .mulhu sd sa sb)

/-- SLT (R74). -/
def execSlt (n : CoreId) (sd sa sb : RegId) (s : State) :
    Host.Outcome State Fault Refusal :=
  .next (s.issueOn n fun w => w.c == .alu .slt sd sa sb)

/-- SLTU (R74). -/
def execSltu (n : CoreId) (sd sa sb : RegId) (s : State) :
    Host.Outcome State Fault Refusal :=
  .next (s.issueOn n fun w => w.c == .alu .sltu sd sa sb)

/-- ADDI (R74). -/
def execAddi (n : CoreId) (sd sa : RegId) (imm : BitVec 16) (s : State) :
    Host.Outcome State Fault Refusal :=
  .next (s.issueOn n fun w => w.c == .alui .addi sd sa imm)

/-- ANDI (R74). -/
def execAndi (n : CoreId) (sd sa : RegId) (imm : BitVec 16) (s : State) :
    Host.Outcome State Fault Refusal :=
  .next (s.issueOn n fun w => w.c == .alui .andi sd sa imm)

/-- ORI (R74). -/
def execOri (n : CoreId) (sd sa : RegId) (imm : BitVec 16) (s : State) :
    Host.Outcome State Fault Refusal :=
  .next (s.issueOn n fun w => w.c == .alui .ori sd sa imm)

/-- XORI (R74). -/
def execXori (n : CoreId) (sd sa : RegId) (imm : BitVec 16) (s : State) :
    Host.Outcome State Fault Refusal :=
  .next (s.issueOn n fun w => w.c == .alui .xori sd sa imm)

/-- SHLI (R74). -/
def execShli (n : CoreId) (sd sa : RegId) (imm : BitVec 16) (s : State) :
    Host.Outcome State Fault Refusal :=
  .next (s.issueOn n fun w => w.c == .alui .shli sd sa imm)

/-- SHRI (R74). -/
def execShri (n : CoreId) (sd sa : RegId) (imm : BitVec 16) (s : State) :
    Host.Outcome State Fault Refusal :=
  .next (s.issueOn n fun w => w.c == .alui .shri sd sa imm)

/-- SRAI (R74). -/
def execSrai (n : CoreId) (sd sa : RegId) (imm : BitVec 16) (s : State) :
    Host.Outcome State Fault Refusal :=
  .next (s.issueOn n fun w => w.c == .alui .srai sd sa imm)

/-- LIH (R74). -/
def execLih (n : CoreId) (sd : RegId) (q : BitVec 2) (imm : BitVec 16) (s : State) :
    Host.Outcome State Fault Refusal :=
  .next (s.issueOn n fun w => w.c == .lih sd q imm)

/-- LDW (R74). -/
def execLdw (n : CoreId) (sd sa : RegId) (imm : BitVec 16) (s : State) :
    Host.Outcome State Fault Refusal :=
  .next (s.issueOn n fun w => w.c == .ldw sd sa imm)

/-- LDD (R74). -/
def execLdd (n : CoreId) (sd sa : RegId) (imm : BitVec 16) (s : State) :
    Host.Outcome State Fault Refusal :=
  .next (s.issueOn n fun w => w.c == .ldd sd sa imm)

/-- STW (R74). -/
def execStw (n : CoreId) (sd sa : RegId) (imm : BitVec 16) (s : State) :
    Host.Outcome State Fault Refusal :=
  .next (s.issueOn n fun w => w.c == .stw sd sa imm)

/-- STD (R74). -/
def execStd (n : CoreId) (sd sa : RegId) (imm : BitVec 16) (s : State) :
    Host.Outcome State Fault Refusal :=
  .next (s.issueOn n fun w => w.c == .std sd sa imm)

/-- PAT_LOAD (R80). -/
def execPatLoad (n : CoreId) (sa : RegId) (first number : BitVec 8) (s : State) :
    Host.Outcome State Fault Refusal :=
  .next (s.issueOn n fun w => w.c == .patLoad sa first number)

/-- RDCTR (R82). -/
def execRdctr (n : CoreId) (sd : RegId) (counter : BitVec 16) (s : State) :
    Host.Outcome State Fault Refusal :=
  .next (s.issueOn n fun w => w.c == .rdctr sd counter)

end Sys2Proof.Machine
end

