-- ==== Sys2Proof/Machine/RosterVector.lean ====
section
/-!
DEFINITION. Roster words by their V-slot operation (Tables 04-14 and 04-15): the core issues its next word, whole, where that word holds
the operation.
-/

namespace Sys2Proof.Machine

/-- VLD (R145). -/
def execVld (n : CoreId) (sy bf : Bool) (vd : RegId) (pat : BitVec 8) (s : State) :
    Host.Outcome State Fault Refusal :=
  .next (s.issueOn n fun w => w.v == .vld sy bf vd pat)

/-- VST (R129). -/
def execVst (n : CoreId) (sy bf : Bool) (va : RegId) (pat : BitVec 8) (s : State) :
    Host.Outcome State Fault Refusal :=
  .next (s.issueOn n fun w => w.v == .vst sy bf va pat)

/-- VADD (R138). -/
def execVadd (n : CoreId) (sy bf : Bool) (vd va vb : RegId) (s : State) :
    Host.Outcome State Fault Refusal :=
  .next (s.issueOn n fun w => w.v == .arith .add sy bf vd va vb)

/-- VSUB (R138). -/
def execVsub (n : CoreId) (sy bf : Bool) (vd va vb : RegId) (s : State) :
    Host.Outcome State Fault Refusal :=
  .next (s.issueOn n fun w => w.v == .arith .sub sy bf vd va vb)

/-- VMUL (R138). -/
def execVmul (n : CoreId) (sy bf : Bool) (vd va vb : RegId) (s : State) :
    Host.Outcome State Fault Refusal :=
  .next (s.issueOn n fun w => w.v == .arith .mul sy bf vd va vb)

/-- VFMA (R138). -/
def execVfma (n : CoreId) (sy bf : Bool) (vd va vb vc : RegId) (s : State) :
    Host.Outcome State Fault Refusal :=
  .next (s.issueOn n fun w => w.v == .vfma sy bf vd va vb vc)

/-- VMAX (R140). -/
def execVmax (n : CoreId) (sy bf : Bool) (vd va vb : RegId) (s : State) :
    Host.Outcome State Fault Refusal :=
  .next (s.issueOn n fun w => w.v == .arith .max sy bf vd va vb)

/-- VMIN (R140). -/
def execVmin (n : CoreId) (sy bf : Bool) (vd va vb : RegId) (s : State) :
    Host.Outcome State Fault Refusal :=
  .next (s.issueOn n fun w => w.v == .arith .min sy bf vd va vb)

/-- VSF (R141). -/
def execVsf (n : CoreId) (sy bf : Bool) (vd va : RegId) (fn : BitVec 4) (s : State) :
    Host.Outcome State Fault Refusal :=
  .next (s.issueOn n fun w => w.v == .vsf sy bf vd va fn)

/-- VTBL (R143). -/
def execVtbl (n : CoreId) (sy bf : Bool) (vd va : RegId) (fn : BitVec 4) (s : State) :
    Host.Outcome State Fault Refusal :=
  .next (s.issueOn n fun w => w.v == .vtbl sy bf vd va fn)

/-- VRED (R144). -/
def execVred (n : CoreId) (sy bf : Bool) (vd va : RegId) (fn : BitVec 4) (s : State) :
    Host.Outcome State Fault Refusal :=
  .next (s.issueOn n fun w => w.v == .vred sy bf vd va fn)

/-- VCVT (R132). -/
def execVcvt (n : CoreId) (sy bf : Bool) (vd va : RegId) (fn : BitVec 4) (s : State) :
    Host.Outcome State Fault Refusal :=
  .next (s.issueOn n fun w => w.v == .vcvt sy bf vd va fn)

/-- VCMP (R140). -/
def execVcmp (n : CoreId) (sy bf : Bool) (vd va vb : RegId) (fn : BitVec 4) (s : State) :
    Host.Outcome State Fault Refusal :=
  .next (s.issueOn n fun w => w.v == .vcmp sy bf vd va vb fn)

/-- VSEL (R140). -/
def execVsel (n : CoreId) (sy bf : Bool) (vd va vb vc : RegId) (s : State) :
    Host.Outcome State Fault Refusal :=
  .next (s.issueOn n fun w => w.v == .vsel sy bf vd va vb vc)

/-- VSPLAT (R145). -/
def execVsplat (n : CoreId) (sy bf : Bool) (vd sa : RegId) (fn : BitVec 4) (s : State) :
    Host.Outcome State Fault Refusal :=
  .next (s.issueOn n fun w => w.v == .vsplat sy bf vd sa fn)

/-- VTLOAD (R142). -/
def execVtload (n : CoreId) (sy bf : Bool) (pat : BitVec 8) (s : State) :
    Host.Outcome State Fault Refusal :=
  .next (s.issueOn n fun w => w.v == .vtload sy bf pat)

end Sys2Proof.Machine
end

