-- ==== Sys2Proof/Machine/UnitEvents.lean ====
section
/-!
DEFINITION. The rows of the core's units: vector dispatch (R136), the array's fronts and passes (R100), the gather timeout (R107),
the attention stages (R171), walks (R189, R190, R195), step re-execution (R210), bank retirement (R212), the end of a ramp (R325)
and the beat-rate window (R33). A row whose condition does not hold has no effect (log entry 4).
-/

namespace Sys2Proof.Machine

/-- VECTOR_DISPATCH (R136). -/
def execVectorDispatch (n : CoreId) (s : State) : Host.Outcome State Fault Refusal :=
  .next (s.onCore n.val fun l => l.vecDispatch.pump)

/-- ARRAY_FRONT_START (R100). -/
def execArrayFrontStart (n : CoreId) (s : State) : Host.Outcome State Fault Refusal :=
  .next (s.onCore n.val fun l => l.frontStart.pump)

/-- ARRAY_PASS_START (R100). -/
def execArrayPassStart (n : CoreId) (s : State) : Host.Outcome State Fault Refusal :=
  .next (s.onCore n.val fun l => l.passStart.pump)

/-- ARRAY_PASS_END (R100). -/
def execArrayPassEnd (n : CoreId) (s : State) : Host.Outcome State Fault Refusal :=
  .next (s.onCore n.val fun l => l.passEnd.pump)

/-- The gather timeout of R105 and R107: the core's beats have reached the limit of the batch, which flushes. -/
def Local.gatherTimeout (l : Local) : Local :=
  let a := l.core.arr
  let t := timeoutNow a.gatherCfg l.core.ctrl.arrayExpertNow
  if a.gather.isEmpty ∨ t = 0 then l
  else (l.seqr fun q => { q with beats := max q.beats (a.gatherStart + 16 * t) }).arrUpd fun a => flushGather a .timeout

/-- GATHER_TIMEOUT (R107, R108). -/
def execGatherTimeout (n : CoreId) (s : State) : Host.Outcome State Fault Refusal :=
  .next (s.onCore n.val fun l => l.gatherTimeout.pump)

/-- ATT_SCORE_STAGE (R171). -/
def execAttScoreStage (n : CoreId) (s : State) : Host.Outcome State Fault Refusal :=
  .next (s.onCore n.val fun l => l.scoreStage.pump)

/-- ATT_VALUE_STAGE (R171). -/
def execAttValueStage (n : CoreId) (s : State) : Host.Outcome State Fault Refusal :=
  .next (s.onCore n.val fun l => l.valueStage.pump)

/-! ### Walks at the Cuffs (R186, R189, R190) -/

/-- The oldest walk whose scoring command has reached Cuff `k`, which has not taken it. -/
def scoringWalk (s : AttState) (k : Nat) : Option (Nat × WalkTurns) :=
  (s.turns.zipIdx.find? fun e => !e.1.sends.isEmpty && mapGet 0 e.1.sends (ringKey 3 (16 + k)) == 0 && !e.1.taken.contains k).map fun e =>
    (e.2, e.1)

/-- The units that a walk's scoring command has Cuff `k` read: none for an empty command (R190). -/
def State.walkUnits (s : State) (n k : Nat) (t : WalkTurns) : List MemUnit :=
  let l := s.localOf n
  match l.core.att.walk with
  | some w =>
    match w.phase, w.header with
    | .score, some h => if t.serial = l.core.att.walkSerial then scoreUnits l w h k else []
    | _, _ => []
  | none => []

/-- The counted slots and the units of a scoring command on the channel rings of Cuff `k`; a re-executed walk, whose slots its first run has
counted, has the units served in host openings (R190, R210). -/
def State.scoreTurns (s : State) (n k : Nat) (t : WalkTurns) (us : List MemUnit) : State :=
  let again := t.counted.contains k
  let work (i : Nat) : TurnWork :=
    ⟨n, 2, t.lap, t.word, if again then 0 else t.record.turnsScore, us.countP fun u => u.ring == ringKey 5 (20 * k + i), again⟩
  let s1 := s.updCuff k fun x => { x with channels := x.channels.mapIdx fun i h => { h with turns := addWork h.turns (work i) } }
  if again then
    foldOver (us.map (·.ring)).eraseDups (fun a key => a.updRing key fun r =>
      if r.clashes.contains (0x220 + k) then r
      else { r with clashes := insertBy (fun a b => decide (a % 4096 < b % 4096)) (0x220 + k) r.clashes }) s1
  else s1

/-- A walk's scoring command at Cuff `k` (R189, R190): an empty one where the walk is in error or selects no page. A Cuff that cannot be
reached reads nothing as stored (R254). -/
def State.scoreCommand (s : State) (n k : Nat) : State :=
  match scoringWalk (s.core n).att k with
  | some (i, t) =>
    let us := s.walkUnits n k t
    let s1 := if s.cuffGone k then foldOver us (fun a u => a.capRead u.addr) s else s.scoreTurns n k t us
    let l := (s1.localOf n).attUpd fun a =>
      { a with turns := modifyNth a.turns i fun t => { t with taken := t.taken ++ [k],
                                                              counted := if t.counted.contains k then t.counted else t.counted ++ [k] } }
    s1.putLocal n (if t.serial = l.core.att.walkSerial then l.walkScore k (s.cuffGone k) else l).pump
  | none => s

/-- WALK_SCORE_COMMAND. -/
def execWalkScoreCommand (n : CoreId) (k : CuffId) (s : State) : Host.Outcome State Fault Refusal :=
  .next (if s.coreUp n.val then s.scoreCommand n.val k.val else s)

/-- WALK_MERGE (R187, R189). -/
def execWalkMerge (n : CoreId) (s : State) : Host.Outcome State Fault Refusal :=
  .next (s.onCore n.val fun l => l.walkMerge.pump)

/-- WALK_RETIRE (R191, R195). Fences that waited for the walk complete at the Panel's next report. -/
def execWalkRetire (n : CoreId) (s : State) : Host.Outcome State Fault Refusal :=
  .next (s.onCore n.val fun l => l.walkRetire.pump)

/-! ### Steps, banks, regions, beats -/

/-- ILLEGAL_WORD (R85 to R88); `cacheError` as the cache's code finds it (log entry 54). -/
def execIllegalWord (word : ReachedWord) (s : State) : Host.Outcome State Fault Refusal :=
  .next (if s.power.duty = 0 then s else s.onCore word.core.val fun l => l.illegalWord word.cacheError)

/-- STEP_REEXECUTION (R210). -/
def execStepReexecution (n : CoreId) (s : State) : Host.Outcome State Fault Refusal :=
  .next (s.onCore n.val fun l => l.reexecute.pump)

/-- BANK_RETIRE (R212); `selfTest` is whether a crossover core that is called on passes its self test. -/
def execBankRetire (n : CoreId) (selfTest : Bool) (s : State) : Host.Outcome State Fault Refusal :=
  .next (s.bankRetire n.val selfTest)

/-- REGION_RAMP_END (R325): the region is on, and the operations that waited for it proceed. -/
def execRegionRampEnd (n : CoreId) (s : State) : Host.Outcome State Fault Refusal :=
  .next (s.onCore n.val fun l => l.rampEnd.pump)

/-- Beats of a window in Mbt/s (R33): whole Mbt/s, rounded down, and 0xFFFF for a rate that the field cannot hold (DESIGN CHOICE, log
entry 52). -/
def rateOf (beats : Nat) : BitVec 16 := BitVec.ofNat 16 (min (beats * 1000 / 1024) 0xFFFF)

/-- The end of the window of 1,024 ns that follows, or the latest one that time has passed. -/
def windowEnd (q : Sequencer) (now : Nat) : Nat :=
  if now < q.windowNs + 1024 then q.windowNs + 1024 else now / 1024 * 1024

/-- The count at the end of a window: `beats` more than at the end of the one before, or what the core has counted since. -/
def windowCount (q : Sequencer) (beats : Nat) : Nat := max q.beats (q.windowBeats + beats)

/-- The beats of the window that ends: what the core has counted since the end of the one before; where windows have passed without
their row, the beats of the latest one. -/
def windowOf (q : Sequencer) (now beats : Nat) : Nat :=
  if now < q.windowNs + 2048 then windowCount q beats - q.windowBeats else beats

/-- BEAT_RATE_WINDOW: the window ends, and CO_BEAT_RATE takes its beats (R33) (DESIGN CHOICE, log entry 26). -/
def State.beatWindow (s : State) (n beats : Nat) : State :=
  let c := s.core n
  let q := c.seq
  let e := windowEnd q s.now
  let b := windowCount q beats
  (s.reach e).setCore n { c with seq := { q with beats := b, beatRate := rateOf (windowOf q s.now beats), windowBeats := b,
                                                  windowNs := e } }

/-- BEAT_RATE_WINDOW (R33); a replica counts while its block is powered. -/
def execBeatRateWindow (n : CoreId) (beats : Nat) (s : State) : Host.Outcome State Fault Refusal :=
  .next (if (s.panel (n.val / 64)).powered && s.power.fold != .folded && (s.entry n.val).state != .absent then
    s.beatWindow n.val beats else s)

end Sys2Proof.Machine
end

