-- ==== Sys2Proof/Machine/Dispatch.lean ====
section
/-!
DEFINITION. The dispatch of commands: one arm per constructor of Instr.
-/

namespace Sys2Proof.Machine

/-- The effect of a command on everything but the queue. -/
def exec (i : Instr) (s : State) : Host.Outcome State Fault Refusal :=
  match i with
  | .nop n => Sys2Proof.Machine.execNop n s
  | .endRoster n => Sys2Proof.Machine.execEndRoster n s
  | .lapMark n => Sys2Proof.Machine.execLapMark n s
  | .privateBegin n => Sys2Proof.Machine.execPrivateBegin n s
  | .privateEnd n => Sys2Proof.Machine.execPrivateEnd n s
  | .stepMark n => Sys2Proof.Machine.execStepMark n s
  | .wait n u count => Sys2Proof.Machine.execWait n u count s
  | .loop n count body => Sys2Proof.Machine.execLoop n count body s
  | .loopr n sa body => Sys2Proof.Machine.execLoopr n sa body s
  | .jmp n off => Sys2Proof.Machine.execJmp n off s
  | .beq n sa sb off => Sys2Proof.Machine.execBeq n sa sb off s
  | .bne n sa sb off => Sys2Proof.Machine.execBne n sa sb off s
  | .blt n sa sb off => Sys2Proof.Machine.execBlt n sa sb off s
  | .bge n sa sb off => Sys2Proof.Machine.execBge n sa sb off s
  | .bltu n sa sb off => Sys2Proof.Machine.execBltu n sa sb off s
  | .bgeu n sa sb off => Sys2Proof.Machine.execBgeu n sa sb off s
  | .add n sd sa sb => Sys2Proof.Machine.execAdd n sd sa sb s
  | .sub n sd sa sb => Sys2Proof.Machine.execSub n sd sa sb s
  | .and n sd sa sb => Sys2Proof.Machine.execAnd n sd sa sb s
  | .or n sd sa sb => Sys2Proof.Machine.execOr n sd sa sb s
  | .xor n sd sa sb => Sys2Proof.Machine.execXor n sd sa sb s
  | .shl n sd sa sb => Sys2Proof.Machine.execShl n sd sa sb s
  | .shr n sd sa sb => Sys2Proof.Machine.execShr n sd sa sb s
  | .sra n sd sa sb => Sys2Proof.Machine.execSra n sd sa sb s
  | .mul n sd sa sb => Sys2Proof.Machine.execMul n sd sa sb s
  | .mulhu n sd sa sb => Sys2Proof.Machine.execMulhu n sd sa sb s
  | .slt n sd sa sb => Sys2Proof.Machine.execSlt n sd sa sb s
  | .sltu n sd sa sb => Sys2Proof.Machine.execSltu n sd sa sb s
  | .addi n sd sa imm => Sys2Proof.Machine.execAddi n sd sa imm s
  | .andi n sd sa imm => Sys2Proof.Machine.execAndi n sd sa imm s
  | .ori n sd sa imm => Sys2Proof.Machine.execOri n sd sa imm s
  | .xori n sd sa imm => Sys2Proof.Machine.execXori n sd sa imm s
  | .shli n sd sa imm => Sys2Proof.Machine.execShli n sd sa imm s
  | .shri n sd sa imm => Sys2Proof.Machine.execShri n sd sa imm s
  | .srai n sd sa imm => Sys2Proof.Machine.execSrai n sd sa imm s
  | .lih n sd q imm => Sys2Proof.Machine.execLih n sd q imm s
  | .ldw n sd sa imm => Sys2Proof.Machine.execLdw n sd sa imm s
  | .ldd n sd sa imm => Sys2Proof.Machine.execLdd n sd sa imm s
  | .stw n sd sa imm => Sys2Proof.Machine.execStw n sd sa imm s
  | .std n sd sa imm => Sys2Proof.Machine.execStd n sd sa imm s
  | .patLoad n sa first number => Sys2Proof.Machine.execPatLoad n sa first number s
  | .rdctr n sd counter => Sys2Proof.Machine.execRdctr n sd counter s
  | .moveIn n tl sy sa patS patF => Sys2Proof.Machine.execMoveIn n tl sy sa patS patF s
  | .moveOut n tl sy sa patS patF => Sys2Proof.Machine.execMoveOut n tl sy sa patS patF s
  | .moveRemote n tl sy sa patS win => Sys2Proof.Machine.execMoveRemote n tl sy sa patS win s
  | .creditTake n tl sy sa win => Sys2Proof.Machine.execCreditTake n tl sy sa win s
  | .creditGive n tl sy sa win => Sys2Proof.Machine.execCreditGive n tl sy sa win s
  | .turnEnd n sa cls => Sys2Proof.Machine.execTurnEnd n sa cls s
  | .fetchRoster n tl sy sa block => Sys2Proof.Machine.execFetchRoster n tl sy sa block s
  | .atomicAdd n tl sy sa patS patF => Sys2Proof.Machine.execAtomicAdd n tl sy sa patS patF s
  | .nearOp n tl sy sa patS => Sys2Proof.Machine.execNearOp n tl sy sa patS s
  | .bankOff n tl sy sa => Sys2Proof.Machine.execBankOff n tl sy sa s
  | .regionOn n sy mask => Sys2Proof.Machine.execRegionOn n sy mask s
  | .regionOff n sy mask => Sys2Proof.Machine.execRegionOff n sy mask s
  | .arrWload n sy x packed => Sys2Proof.Machine.execArrWload n sy x packed s
  | .arrPass n sy x y acc => Sys2Proof.Machine.execArrPass n sy x y acc s
  | .arrGcfg n threshold timeout => Sys2Proof.Machine.execArrGcfg n threshold timeout s
  | .arrGather n sy x y => Sys2Proof.Machine.execArrGather n sy x y s
  | .attMode n sy x => Sys2Proof.Machine.execAttMode n sy x s
  | .attQ n sy x y => Sys2Proof.Machine.execAttQ n sy x y s
  | .attKv n sy x y => Sys2Proof.Machine.execAttKv n sy x y s
  | .attWalk n sy x => Sys2Proof.Machine.execAttWalk n sy x s
  | .attOut n sy x y => Sys2Proof.Machine.execAttOut n sy x y s
  | .vld n sy bf vd pat => Sys2Proof.Machine.execVld n sy bf vd pat s
  | .vst n sy bf va pat => Sys2Proof.Machine.execVst n sy bf va pat s
  | .vadd n sy bf vd va vb => Sys2Proof.Machine.execVadd n sy bf vd va vb s
  | .vsub n sy bf vd va vb => Sys2Proof.Machine.execVsub n sy bf vd va vb s
  | .vmul n sy bf vd va vb => Sys2Proof.Machine.execVmul n sy bf vd va vb s
  | .vfma n sy bf vd va vb vc => Sys2Proof.Machine.execVfma n sy bf vd va vb vc s
  | .vmax n sy bf vd va vb => Sys2Proof.Machine.execVmax n sy bf vd va vb s
  | .vmin n sy bf vd va vb => Sys2Proof.Machine.execVmin n sy bf vd va vb s
  | .vsf n sy bf vd va fn => Sys2Proof.Machine.execVsf n sy bf vd va fn s
  | .vtbl n sy bf vd va fn => Sys2Proof.Machine.execVtbl n sy bf vd va fn s
  | .vred n sy bf vd va fn => Sys2Proof.Machine.execVred n sy bf vd va fn s
  | .vcvt n sy bf vd va fn => Sys2Proof.Machine.execVcvt n sy bf vd va fn s
  | .vcmp n sy bf vd va vb fn => Sys2Proof.Machine.execVcmp n sy bf vd va vb fn s
  | .vsel n sy bf vd va vb vc => Sys2Proof.Machine.execVsel n sy bf vd va vb vc s
  | .vsplat n sy bf vd sa fn => Sys2Proof.Machine.execVsplat n sy bf vd sa fn s
  | .vtload n sy bf pat => Sys2Proof.Machine.execVtload n sy bf pat s
  | .vectorDispatch n => Sys2Proof.Machine.execVectorDispatch n s
  | .arrayFrontStart n => Sys2Proof.Machine.execArrayFrontStart n s
  | .arrayPassStart n => Sys2Proof.Machine.execArrayPassStart n s
  | .arrayPassEnd n => Sys2Proof.Machine.execArrayPassEnd n s
  | .gatherTimeout n => Sys2Proof.Machine.execGatherTimeout n s
  | .attScoreStage n => Sys2Proof.Machine.execAttScoreStage n s
  | .attValueStage n => Sys2Proof.Machine.execAttValueStage n s
  | .walkScoreCommand n k => Sys2Proof.Machine.execWalkScoreCommand n k s
  | .walkMerge n => Sys2Proof.Machine.execWalkMerge n s
  | .walkRetire n => Sys2Proof.Machine.execWalkRetire n s
  | .stepReexecution n => Sys2Proof.Machine.execStepReexecution n s
  | .bankRetire n selfTest => Sys2Proof.Machine.execBankRetire n selfTest s
  | .take target taker window upset => Sys2Proof.Machine.execTake target taker window upset s
  | .grant target taker window upset => Sys2Proof.Machine.execGrant target taker window upset s
  | .refuse target taker window upset => Sys2Proof.Machine.execRefuse target taker window upset s
  | .give target giver window upset => Sys2Proof.Machine.execGive target giver window upset s
  | .write target sender window upset => Sys2Proof.Machine.execWrite target sender window upset s
  | .ownerRequest cls inst owner walk => Sys2Proof.Machine.execOwnerRequest cls inst owner walk s
  | .hostOpening cls inst => Sys2Proof.Machine.execHostOpening cls inst s
  | .refreshOpening cls inst => Sys2Proof.Machine.execRefreshOpening cls inst s
  | .switchOnOpening n => Sys2Proof.Machine.execSwitchOnOpening n s
  | .regionRampEnd n => Sys2Proof.Machine.execRegionRampEnd n s
  | .scrubOpening cls inst => Sys2Proof.Machine.execScrubOpening cls inst s
  | .logOpening cls inst => Sys2Proof.Machine.execLogOpening cls inst s
  | .ringBoundary cls inst => Sys2Proof.Machine.execRingBoundary cls inst s
  | .turnStall cls inst => Sys2Proof.Machine.execTurnStall cls inst s
  | .pocketRefreshDue due => Sys2Proof.Machine.execPocketRefreshDue due s
  | .cuffRefreshDue k due => Sys2Proof.Machine.execCuffRefreshDue k due s
  | .scrubPassEnd wrote => Sys2Proof.Machine.execScrubPassEnd wrote s
  | .packageTempRead k pkg reading => Sys2Proof.Machine.execPackageTempRead k pkg reading s
  | .cuffLinkFlit k flit crc => Sys2Proof.Machine.execCuffLinkFlit k flit crc s
  | .linkLaneTest k low high => Sys2Proof.Machine.execLinkLaneTest k low high s
  | .retrainTrigger k slot drift => Sys2Proof.Machine.execRetrainTrigger k slot drift s
  | .retrainStart k passes => Sys2Proof.Machine.execRetrainStart k passes s
  | .channelDead k slot => Sys2Proof.Machine.execChannelDead k slot s
  | .nearOpCommand k => Sys2Proof.Machine.execNearOpCommand k s
  | .cuffBusTransfer k resends => Sys2Proof.Machine.execCuffBusTransfer k resends s
  | .data flit => Sys2Proof.Machine.execData flit s
  | .idle flit => Sys2Proof.Machine.execIdle flit s
  | .ack flit => Sys2Proof.Machine.execAck flit s
  | .nak flit => Sys2Proof.Machine.execNak flit s
  | .timeSync flit => Sys2Proof.Machine.execTimeSync flit s
  | .train flit => Sys2Proof.Machine.execTrain flit s
  | .seamPortRetire port module cause => Sys2Proof.Machine.execSeamPortRetire port module cause s
  | .strobeLoss port module => Sys2Proof.Machine.execStrobeLoss port module s
  | .seamPllLoss p => Sys2Proof.Machine.execSeamPllLoss p s
  | .panelRejoin p port0 port1 level failed => Sys2Proof.Machine.execPanelRejoin p port0 port1 level failed s
  | .fenceMarker p => Sys2Proof.Machine.execFenceMarker p s
  | .refLoss => Sys2Proof.Machine.execRefLoss s
  | .beatRateWindow n beats => Sys2Proof.Machine.execBeatRateWindow n beats s
  | .bar4Read off len => Sys2Proof.Machine.execBar4Read off len s
  | .bar4Write off bytes poisoned env => Sys2Proof.Machine.execBar4Write off bytes poisoned env s
  | .bar4Timeout => Sys2Proof.Machine.execBar4Timeout s
  | .sqTail q off value width => Sys2Proof.Machine.execSqTail q off value width s
  | .cqHead q value width => Sys2Proof.Machine.execCqHead q value width s
  | .descriptorFetch q read => Sys2Proof.Machine.execDescriptorFetch q read s
  | .descriptorStart q index => Sys2Proof.Machine.execDescriptorStart q index s
  | .copy q index read wrote => Sys2Proof.Machine.execCopy q index read wrote s
  | .loadRoster q index read => Sys2Proof.Machine.execLoadRoster q index read s
  | .launch q index read => Sys2Proof.Machine.execLaunch q index read s
  | .fence q index => Sys2Proof.Machine.execFence q index s
  | .pageReleaseFence q index => Sys2Proof.Machine.execPageReleaseFence q index s
  | .scrub q index => Sys2Proof.Machine.execScrub q index s
  | .configFingerprint q index unstable wrote => Sys2Proof.Machine.execConfigFingerprint q index unstable wrote s
  | .setPowerCap q index => Sys2Proof.Machine.execSetPowerCap q index s
  | .fold q index => Sys2Proof.Machine.execFold q index s
  | .drain q index => Sys2Proof.Machine.execDrain q index s
  | .halt q index => Sys2Proof.Machine.execHalt q index s
  | .tagWrite q index read => Sys2Proof.Machine.execTagWrite q index read s
  | .capRemap q index => Sys2Proof.Machine.execCapRemap q index s
  | .nopDescriptor q index => Sys2Proof.Machine.execNopDescriptor q index s
  | .msixCoalesceTimeout q => Sys2Proof.Machine.execMsixCoalesceTimeout q s
  | .hostReset kind => Sys2Proof.Machine.execHostReset kind s
  | .functionLevelReset => Sys2Proof.Machine.execFunctionLevelReset s
  | .powerOn source => Sys2Proof.Machine.execPowerOn source s
  | .powerStageEnable report => Sys2Proof.Machine.execPowerStageEnable report s
  | .inputExcursion => Sys2Proof.Machine.execInputExcursion s
  | .inputFaultRecovery => Sys2Proof.Machine.execInputFaultRecovery s
  | .feedSwitchTrip p => Sys2Proof.Machine.execFeedSwitchTrip p s
  | .undervoltageGate n mv => Sys2Proof.Machine.execUndervoltageGate n mv s
  | .gateTimeout n selfTest => Sys2Proof.Machine.execGateTimeout n selfTest s
  | .tileFail site selfTest => Sys2Proof.Machine.execTileFail site selfTest s
  | .capPeriod watts volts => Sys2Proof.Machine.execCapPeriod watts volts s
  | .bumpCheck drops => Sys2Proof.Machine.execBumpCheck drops s
  | .sensorSample key reading => Sys2Proof.Machine.execSensorSample key reading s
  | .limitExcursion watts => Sys2Proof.Machine.execLimitExcursion watts s
  | .thermalCapCompute powers watts => Sys2Proof.Machine.execThermalCapCompute powers watts s
  | .flowSample reading => Sys2Proof.Machine.execFlowSample reading s
  | .comparatorTrip diode peak collarMs => Sys2Proof.Machine.execComparatorTrip diode peak collarMs s
  | .thermalRestart collarMs => Sys2Proof.Machine.execThermalRestart collarMs s
  | .cycleSample => Sys2Proof.Machine.execCycleSample s
  | .coalesceHoldEnd group cls location detail => Sys2Proof.Machine.execCoalesceHoldEnd group cls location detail s
  | .eventHoldoffEnd name source => Sys2Proof.Machine.execEventHoldoffEnd name source s
  | .fprintCompute unstable => Sys2Proof.Machine.execFprintCompute unstable s
  | .regRead off => Sys2Proof.Machine.execRegRead off s
  | .regWrite off value env => Sys2Proof.Machine.execRegWrite off value env s
  | .coldReset => Sys2Proof.Machine.execColdReset s
  | .panelReset p => Sys2Proof.Machine.execPanelReset p s
  | .panelCycle p => Sys2Proof.Machine.execPanelCycle p s
  | .restart => Sys2Proof.Machine.execRestart s
  | .wake => Sys2Proof.Machine.execWake s
  | .recalibrate scope drops => Sys2Proof.Machine.execRecalibrate scope drops s
  | .tagWriteCommand off bytes => Sys2Proof.Machine.execTagWriteCommand off bytes s
  | .tagLock => Sys2Proof.Machine.execTagLock s
  | .tagUnlock strap => Sys2Proof.Machine.execTagUnlock strap s
  | .fprintRead off unstable => Sys2Proof.Machine.execFprintRead off unstable s
  | .chainOp access => Sys2Proof.Machine.execChainOp access s
  | .testMode strap => Sys2Proof.Machine.execTestMode strap s
  | .debugLock strap => Sys2Proof.Machine.execDebugLock strap s
  | .pldmFirmwareUpdate image => Sys2Proof.Machine.execPldmFirmwareUpdate image s
  | .getVersion t => Sys2Proof.Machine.execGetVersion t s
  | .getCapabilities t => Sys2Proof.Machine.execGetCapabilities t s
  | .negotiateAlgorithms t => Sys2Proof.Machine.execNegotiateAlgorithms t s
  | .getDigests t => Sys2Proof.Machine.execGetDigests t s
  | .getCertificate t slot => Sys2Proof.Machine.execGetCertificate t slot s
  | .challenge t slot nonce => Sys2Proof.Machine.execChallenge t slot nonce s
  | .getMeasurements t slot block nonce => Sys2Proof.Machine.execGetMeasurements t slot block nonce s
  | .externalChainTake strap => Sys2Proof.Machine.execExternalChainTake strap s
  | .chainAccess access => Sys2Proof.Machine.execChainAccess access s
  | .ykExpertEnable path value => Sys2Proof.Machine.execYkExpertEnable path value s
  | .coRosterFault path n value => Sys2Proof.Machine.execCoRosterFault path n value s
  | .ykDmaStatus path value => Sys2Proof.Machine.execYkDmaStatus path value s
  | .cfRetrain path k value => Sys2Proof.Machine.execCfRetrain path k value s
  | .ykPanelRejoin path value env => Sys2Proof.Machine.execYkPanelRejoin path value env s
  | .ykCoreDarken path value env => Sys2Proof.Machine.execYkCoreDarken path value env s
  | .pwFold path value => Sys2Proof.Machine.execPwFold path value s
  | .resetPanel path value => Sys2Proof.Machine.execResetPanel path value s
  | .cyclePanel path value => Sys2Proof.Machine.execCyclePanel path value s
  | .coMinVolt path n value => Sys2Proof.Machine.execCoMinVolt path n value s
  | .clTagCtrl path value => Sys2Proof.Machine.execClTagCtrl path value s
  | .sqEnable path q value => Sys2Proof.Machine.execSqEnable path q value s
  | .sqResume path q value => Sys2Proof.Machine.execSqResume path q value s
  | .cqEnable path q value => Sys2Proof.Machine.execCqEnable path q value s
  | .logEnable path value => Sys2Proof.Machine.execLogEnable path value s
  | .ykLogHead path value => Sys2Proof.Machine.execYkLogHead path value s
  | .ykBar4Window path value => Sys2Proof.Machine.execYkBar4Window path value s
  | .ykTimebaseLo path => Sys2Proof.Machine.execYkTimebaseLo path s
  | .coBeatCountLo path n => Sys2Proof.Machine.execCoBeatCountLo path n s
  | .coMinVoltNsLo path n => Sys2Proof.Machine.execCoMinVoltNsLo path n s
  | .ykFprint0 path => Sys2Proof.Machine.execYkFprint0 path s
  | .coRosterRegion path n value => Sys2Proof.Machine.execCoRosterRegion path n value s
  | .coCreditWin path n w value => Sys2Proof.Machine.execCoCreditWin path n w value s
  | .setupRegisterWrite path off width value env => Sys2Proof.Machine.execSetupRegisterWrite path off width value env s
  | .illegalWord word => Sys2Proof.Machine.execIllegalWord word s
  | .setupRegisterRead path off width => Sys2Proof.Machine.execSetupRegisterRead path off width s
  | .perstDeassertion => Sys2Proof.Machine.execPerstDeassertion s
  | .pcieLinkTraining lanes16 lanes8 lanes4 rate => Sys2Proof.Machine.execPcieLinkTraining lanes16 lanes8 lanes4 rate s
  | .configurationRequest off write => Sys2Proof.Machine.execConfigurationRequest off write s
  | .lossOfStandbyPower => Sys2Proof.Machine.execLossOfStandbyPower s

end Sys2Proof.Machine
end

