-- ==== Sys2Proof/Machine/Step.lean ====
section
/-!
DEFINITION. One step of the block: the command at the front of the queue is carried out on the rest; an idle step lets time pass.
-/

namespace Sys2Proof.Machine

/-- The state without its queue's first command. -/
def State.withPending (s : State) (l : List Instr) : State := { s with pending := l }

/-- One step (DESIGN CHOICE, log entry 1). -/
def step (s : State) : Host.Outcome State Fault Refusal :=
  match s.pending with
  | [] => .next s.tick
  | c :: r => exec c (s.withPending r)

/-- The state with the command that a word spells at the front of its queue (DESIGN CHOICE, log entry 8). -/
def State.withFetchWord (s : State) (nbits w : Nat) : State :=
  match decodeTableWord nbits w with
  | some c => s.withPending (c :: s.pending)
  | none => s

end Sys2Proof.Machine
end

