-- ==== Sys2Proof/WellFormed.lean ====
section
/-!
DEFINITION. Well-formed commands: operands whose type is wider than what the spec gives them lie in the spec's ranges (rings of Table
03-1, owner codes of Table 03-2, flits of 64 bytes, BAR4 requests within 64 GiB, the sensors of 16, the steps of R336).
-/

namespace Sys2Proof

open Machine

/-- A ring instance of Table 03-1. -/
def ringWf (cls inst : Nat) : Bool := ringExists cls inst

/-- A ring and an owner code of Table 03-2. -/
def ownerWf (cls inst owner : Nat) : Bool :=
  ringExists cls inst && (decide (owner < 0x200) || (decide (0x200 ≤ owner) && decide (owner ≤ 0x207)) || owner == 0x210
    || (decide (0x220 ≤ owner) && decide (owner ≤ 0x22B)))

/-- A BAR4 request: 1 to 4,096 bytes within the 64 GiB of the BAR (Tables 14-1 and 14-2). -/
def bar4Wf (off len : Nat) : Bool := decide (1 ≤ len) && decide (len ≤ 4096) && decide (off + len ≤ 2 ^ 36)

/-- Widths of a register access in bytes. -/
def widthWf (width : Nat) : Bool := width == 1 || width == 2 || width == 4 || width == 8

/-- What a credit message's header suffers on its way: it turns its KIND into a reserved code, or sets reserved bits (R215). Another
KIND, core, window or word would be another message, which is another command. -/
def upsetWf (kind : BitVec 4) (upset : BitVec 128) : Bool :=
  let k := kind ^^^ field upset 124 4
  (upset &&& ~~~(creditReserved ||| (0xF#128 <<< 124))) == 0 && (k == kind || k == 0 || decide (5 < k.toNat))

/-- An error in a Pocket word: of one symbol or two, each with a nonzero error value (R219; the code says nothing of more). -/
def wordErrorWf (e : WordError) : Bool :=
  decide (e.word.toNat < 3 * 2 ^ 30 / 64) && decide (1 ≤ e.symbols.length) && decide (e.symbols.length ≤ 2)
    && (e.symbols.map (·.1)).eraseDups.length == e.symbols.length && e.symbols.all fun p => p.2 != 0

/-- A start-up report: eight levels, and a step that fails among 3 to 10 (R336). -/
def reportWf (r : StartupReport) : Bool :=
  r.panelLevels.length == 8 && match r.failedStep with
    | some k => decide (3 ≤ k) && decide (k ≤ 10)
    | none => true

/-- A flit of the kind of its row, whose KIND may arrive as a reserved code (R282). -/
def flitWf (kind : Nat) (f : SeamFlit) : Bool :=
  f.payload.length == 64 && f.fresh.length == 64 && (f.kind.toNat == kind || decide (6 ≤ f.kind.toNat))

/-- A well-formed command. -/
def Instr.wf (i : Instr) : Bool :=
  match i with
  | .nop _ => true
  | .endRoster _ => true
  | .lapMark _ => true
  | .privateBegin _ => true
  | .privateEnd _ => true
  | .stepMark _ => true
  | .wait _ _ _ => true
  | .loop _ _ _ => true
  | .loopr _ _ _ => true
  | .jmp _ _ => true
  | .beq _ _ _ _ => true
  | .bne _ _ _ _ => true
  | .blt _ _ _ _ => true
  | .bge _ _ _ _ => true
  | .bltu _ _ _ _ => true
  | .bgeu _ _ _ _ => true
  | .add _ _ _ _ => true
  | .sub _ _ _ _ => true
  | .and _ _ _ _ => true
  | .or _ _ _ _ => true
  | .xor _ _ _ _ => true
  | .shl _ _ _ _ => true
  | .shr _ _ _ _ => true
  | .sra _ _ _ _ => true
  | .mul _ _ _ _ => true
  | .mulhu _ _ _ _ => true
  | .slt _ _ _ _ => true
  | .sltu _ _ _ _ => true
  | .addi _ _ _ _ => true
  | .andi _ _ _ _ => true
  | .ori _ _ _ _ => true
  | .xori _ _ _ _ => true
  | .shli _ _ _ _ => true
  | .shri _ _ _ _ => true
  | .srai _ _ _ _ => true
  | .lih _ _ _ _ => true
  | .ldw _ _ _ _ => true
  | .ldd _ _ _ _ => true
  | .stw _ _ _ _ => true
  | .std _ _ _ _ => true
  | .patLoad _ _ _ _ => true
  | .rdctr _ _ _ => true
  | .moveIn _ _ _ _ _ _ => true
  | .moveOut _ _ _ _ _ _ => true
  | .moveRemote _ _ _ _ _ _ => true
  | .creditTake _ _ _ _ _ => true
  | .creditGive _ _ _ _ _ => true
  | .turnEnd _ _ _ => true
  | .fetchRoster _ _ _ _ _ => true
  | .atomicAdd _ _ _ _ _ _ => true
  | .nearOp _ _ _ _ _ => true
  | .bankOff _ _ _ _ => true
  | .regionOn _ _ _ => true
  | .regionOff _ _ _ => true
  | .arrWload _ _ _ _ => true
  | .arrPass _ _ _ _ _ => true
  | .arrGcfg _ _ _ => true
  | .arrGather _ _ _ _ => true
  | .attMode _ _ _ => true
  | .attQ _ _ _ _ => true
  | .attKv _ _ _ _ => true
  | .attWalk _ _ _ => true
  | .attOut _ _ _ _ => true
  | .vld _ _ _ _ _ => true
  | .vst _ _ _ _ _ => true
  | .vadd _ _ _ _ _ _ => true
  | .vsub _ _ _ _ _ _ => true
  | .vmul _ _ _ _ _ _ => true
  | .vfma _ _ _ _ _ _ _ => true
  | .vmax _ _ _ _ _ _ => true
  | .vmin _ _ _ _ _ _ => true
  | .vsf _ _ _ _ _ _ => true
  | .vtbl _ _ _ _ _ _ => true
  | .vred _ _ _ _ _ _ => true
  | .vcvt _ _ _ _ _ _ => true
  | .vcmp _ _ _ _ _ _ _ => true
  | .vsel _ _ _ _ _ _ _ => true
  | .vsplat _ _ _ _ _ _ => true
  | .vtload _ _ _ _ => true
  | .vectorDispatch _ => true
  | .arrayFrontStart _ => true
  | .arrayPassStart _ => true
  | .arrayPassEnd _ => true
  | .gatherTimeout _ => true
  | .attScoreStage _ => true
  | .attValueStage _ => true
  | .walkScoreCommand _ _ => true
  | .walkMerge _ => true
  | .walkRetire _ => true
  | .stepReexecution _ => true
  | .bankRetire _ _ => true
  | .take _ _ _ upset => upsetWf kindTake upset
  | .grant _ _ _ upset => upsetWf kindGrant upset
  | .refuse _ _ _ upset => upsetWf kindRefuse upset
  | .give _ _ _ upset => upsetWf kindGive upset
  | .write _ _ _ upset => upsetWf kindWrite upset
  | .ownerRequest cls inst owner _ => ownerWf cls inst owner
  | .hostOpening cls inst => ringWf cls inst
  | .refreshOpening cls inst => ringWf cls inst && (cls == 2 || cls == 5)
  | .switchOnOpening _ => true
  | .regionRampEnd _ => true
  | .scrubOpening cls inst => ringWf cls inst && (cls == 2 || cls == 5)
  | .logOpening cls inst => ringWf cls inst && (cls == 3 || cls == 4 || cls == 7)
  | .ringBoundary cls inst => ringWf cls inst
  | .turnStall cls inst => ringWf cls inst
  | .pocketRefreshDue due => due.errors.all wordErrorWf
  | .cuffRefreshDue _ due => due.errors.all fun e => decide (e.unit.toNat < 4194304 * 31)
  | .scrubPassEnd _ => true
  | .packageTempRead _ _ _ => true
  | .cuffLinkFlit _ flit _ => flit.received.length == 516 && flit.fresh.all fun f => f.length == 516
  | .linkLaneTest _ _ _ => true
  | .retrainTrigger _ _ _ => true
  | .retrainStart _ _ => true
  | .channelDead _ _ => true
  | .nearOpCommand _ => true
  | .cuffBusTransfer _ _ => true
  | .data flit => flitWf 0 flit
  | .idle flit => flitWf 1 flit
  | .ack flit => flitWf 2 flit
  | .nak flit => flitWf 3 flit
  | .timeSync flit => flitWf 4 flit
  | .train flit => flitWf 5 flit
  | .seamPortRetire _ _ _ => true
  | .strobeLoss _ _ => true
  | .seamPllLoss _ => true
  | .panelRejoin _ port0 port1 _ _ => port0.length == port1.length
  | .fenceMarker _ => true
  | .refLoss => true
  | .beatRateWindow _ _ => true
  | .bar4Read off len => bar4Wf off len
  | .bar4Write off bytes _ _ => bar4Wf off bytes.length
  | .bar4Timeout => true
  | .sqTail _ off _ width => off != 4 && widthWf width
  | .cqHead _ _ width => widthWf width
  | .descriptorFetch _ read => decide (read.bytes.length ≤ 64)
  | .descriptorStart _ _ => true
  | .copy _ _ _ _ => true
  | .loadRoster _ _ _ => true
  | .launch _ _ _ => true
  | .fence _ _ => true
  | .pageReleaseFence _ _ => true
  | .scrub _ _ => true
  | .configFingerprint _ _ _ _ => true
  | .setPowerCap _ _ => true
  | .fold _ _ => true
  | .drain _ _ => true
  | .halt _ _ => true
  | .tagWrite _ _ _ => true
  | .capRemap _ _ => true
  | .nopDescriptor _ _ => true
  | .msixCoalesceTimeout _ => true
  | .hostReset _ => true
  | .functionLevelReset => true
  | .powerOn _ => true
  | .powerStageEnable report => reportWf report
  | .inputExcursion => true
  | .inputFaultRecovery => true
  | .feedSwitchTrip _ => true
  | .undervoltageGate _ _ => true
  | .gateTimeout _ _ => true
  | .tileFail _ _ => true
  | .capPeriod _ _ => true
  | .bumpCheck drops => drops.all fun d => decide (d.group < 2496)
  | .sensorSample key _ => sensorExists key
  | .limitExcursion _ => true
  | .thermalCapCompute powers _ => powers.length == 8
  | .flowSample _ => true
  | .comparatorTrip _ _ _ => true
  | .thermalRestart _ => true
  | .cycleSample => true
  | .coalesceHoldEnd _ _ _ _ => true
  | .eventHoldoffEnd _ _ => true
  | .fprintCompute _ => true
  | .regRead _ => true
  | .regWrite _ _ _ => true
  | .coldReset => true
  | .panelReset _ => true
  | .panelCycle _ => true
  | .restart => true
  | .wake => true
  | .recalibrate _ drops => drops.all fun d => decide (d.group < 2496)
  | .tagWriteCommand off bytes => decide (1 ≤ bytes.length) && decide (off.toNat + bytes.length ≤ 4096)
  | .tagLock => true
  | .tagUnlock _ => true
  | .fprintRead _ _ => true
  | .chainOp _ => true
  | .testMode _ => true
  | .debugLock _ => true
  | .pldmFirmwareUpdate image => decide (1 ≤ image.component) && decide (image.component ≤ 5) && image.key.length == 2592 && image.signature.length == 4627
  | .getVersion _ => true
  | .getCapabilities _ => true
  | .negotiateAlgorithms _ => true
  | .getDigests _ => true
  | .getCertificate _ _ => true
  | .challenge _ _ nonce => nonce.length == 32
  | .getMeasurements _ _ _ nonce => nonce.length == 32
  | .externalChainTake _ => true
  | .chainAccess _ => true
  | .ykExpertEnable _ _ => true
  | .coRosterFault _ _ _ => true
  | .ykDmaStatus _ _ => true
  | .cfRetrain _ _ _ => true
  | .ykPanelRejoin _ _ _ => true
  | .ykCoreDarken _ _ _ => true
  | .pwFold _ _ => true
  | .resetPanel _ _ => true
  | .cyclePanel _ _ => true
  | .coMinVolt _ _ _ => true
  | .clTagCtrl _ _ => true
  | .sqEnable _ _ _ => true
  | .sqResume _ _ _ => true
  | .cqEnable _ _ _ => true
  | .logEnable _ _ => true
  | .ykLogHead _ _ => true
  | .ykBar4Window _ _ => true
  | .ykTimebaseLo _ => true
  | .coBeatCountLo _ _ => true
  | .coMinVoltNsLo _ _ => true
  | .ykFprint0 _ => true
  | .coRosterRegion _ _ _ => true
  | .coCreditWin _ _ _ _ => true
  | .setupRegisterWrite _ _ width _ _ => widthWf width
  | .illegalWord _ => true
  | .setupRegisterRead _ _ width => widthWf width
  | .perstDeassertion => true
  | .pcieLinkTraining _ _ _ _ => true
  | .configurationRequest _ _ => true
  | .lossOfStandbyPower => true

end Sys2Proof
end

