-- ==== Sys2Proof/Safety.lean ====
section
/-!
DEFINITION. What counts as a good state and as a safe step: the invariants that claims use, in the terms of the state.
-/

namespace Sys2Proof.Machine

/-- Memory, the user tag area and the bytes written to host memory are in canonical form. -/
def State.memoryWf (s : State) : Bool := Memory.wf s.mem && Memory.wf s.mgmt.tagBytes && Memory.wf s.out.hostMem

/-- Every waiting command is well formed. -/
def State.pendingWf (s : State) : Bool := s.pending.all Instr.wf

/-- A step is safe where it answers a next state: no command ends in a fault or a refusal. -/
def safeStep (s : State) : Bool :=
  match step s with
  | .next _ => true
  | _ => false

/-! ### Roster words -/

/-- An operation of one slot of a roster word. -/
inductive SlotOp where
  | c (o : COp)
  | m (o : MOp)
  | a (o : AOp)
  | v (o : VOp)
deriving DecidableEq, Repr

/-- The word holds the operation in its slot. -/
def Slots.holds (w : Slots) (o : SlotOp) : Bool :=
  match o with
  | .c o => w.c == o
  | .m o => w.m == o
  | .a o => w.a == o
  | .v o => w.v == o

/-- The core and the slot operation of a roster word's row (Tables 04-8 to 04-15). -/
def wordRow (i : Instr) : Option (CoreId × SlotOp) :=
  match i with
  | .nop n => some (n, .c .nop)
  | .endRoster n => some (n, .c .endRoster)
  | .lapMark n => some (n, .c .lapMark)
  | .privateBegin n => some (n, .c .privateBegin)
  | .privateEnd n => some (n, .c .privateEnd)
  | .stepMark n => some (n, .c .stepMark)
  | .wait n u count => some (n, .c (.wait u count))
  | .loop n count body => some (n, .c (.loop count body))
  | .loopr n sa body => some (n, .c (.loopr sa body))
  | .jmp n off => some (n, .c (.jmp off))
  | .beq n sa sb off => some (n, .c (.branch .eq sa sb off))
  | .bne n sa sb off => some (n, .c (.branch .ne sa sb off))
  | .blt n sa sb off => some (n, .c (.branch .lt sa sb off))
  | .bge n sa sb off => some (n, .c (.branch .ge sa sb off))
  | .bltu n sa sb off => some (n, .c (.branch .ltu sa sb off))
  | .bgeu n sa sb off => some (n, .c (.branch .geu sa sb off))
  | .add n sd sa sb => some (n, .c (.alu .add sd sa sb))
  | .sub n sd sa sb => some (n, .c (.alu .sub sd sa sb))
  | .and n sd sa sb => some (n, .c (.alu .and sd sa sb))
  | .or n sd sa sb => some (n, .c (.alu .or sd sa sb))
  | .xor n sd sa sb => some (n, .c (.alu .xor sd sa sb))
  | .shl n sd sa sb => some (n, .c (.alu .shl sd sa sb))
  | .shr n sd sa sb => some (n, .c (.alu .shr sd sa sb))
  | .sra n sd sa sb => some (n, .c (.alu .sra sd sa sb))
  | .mul n sd sa sb => some (n, .c (.alu .mul sd sa sb))
  | .mulhu n sd sa sb => some (n, .c (.alu .mulhu sd sa sb))
  | .slt n sd sa sb => some (n, .c (.alu .slt sd sa sb))
  | .sltu n sd sa sb => some (n, .c (.alu .sltu sd sa sb))
  | .addi n sd sa imm => some (n, .c (.alui .addi sd sa imm))
  | .andi n sd sa imm => some (n, .c (.alui .andi sd sa imm))
  | .ori n sd sa imm => some (n, .c (.alui .ori sd sa imm))
  | .xori n sd sa imm => some (n, .c (.alui .xori sd sa imm))
  | .shli n sd sa imm => some (n, .c (.alui .shli sd sa imm))
  | .shri n sd sa imm => some (n, .c (.alui .shri sd sa imm))
  | .srai n sd sa imm => some (n, .c (.alui .srai sd sa imm))
  | .lih n sd q imm => some (n, .c (.lih sd q imm))
  | .ldw n sd sa imm => some (n, .c (.ldw sd sa imm))
  | .ldd n sd sa imm => some (n, .c (.ldd sd sa imm))
  | .stw n sd sa imm => some (n, .c (.stw sd sa imm))
  | .std n sd sa imm => some (n, .c (.std sd sa imm))
  | .patLoad n sa first number => some (n, .c (.patLoad sa first number))
  | .rdctr n sd counter => some (n, .c (.rdctr sd counter))
  | .moveIn n tl sy sa patS patF => some (n, .m (.moveIn tl sy sa patS patF))
  | .moveOut n tl sy sa patS patF => some (n, .m (.moveOut tl sy sa patS patF))
  | .moveRemote n tl sy sa patS win => some (n, .m (.moveRemote tl sy sa patS win))
  | .creditTake n tl sy sa win => some (n, .m (.creditTake tl sy sa win))
  | .creditGive n tl sy sa win => some (n, .m (.creditGive tl sy sa win))
  | .turnEnd n sa cls => some (n, .m (.turnEnd sa cls))
  | .fetchRoster n tl sy sa block => some (n, .m (.fetchRoster tl sy sa block))
  | .atomicAdd n tl sy sa patS patF => some (n, .m (.atomicAdd tl sy sa patS patF))
  | .nearOp n tl sy sa patS => some (n, .m (.nearOp tl sy sa patS))
  | .bankOff n tl sy sa => some (n, .m (.bankOff tl sy sa))
  | .regionOn n sy mask => some (n, .m (.regionOn sy mask))
  | .regionOff n sy mask => some (n, .m (.regionOff sy mask))
  | .arrWload n sy x packed => some (n, .a (.wload sy x packed))
  | .arrPass n sy x y acc => some (n, .a (.pass sy x y acc))
  | .arrGcfg n threshold timeout => some (n, .a (.gcfg threshold timeout))
  | .arrGather n sy x y => some (n, .a (.gather sy x y))
  | .attMode n sy x => some (n, .a (.attMode sy x))
  | .attQ n sy x y => some (n, .a (.attQ sy x y))
  | .attKv n sy x y => some (n, .a (.attKv sy x y))
  | .attWalk n sy x => some (n, .a (.attWalk sy x))
  | .attOut n sy x y => some (n, .a (.attOut sy x y))
  | .vld n sy bf vd pat => some (n, .v (.vld sy bf vd pat))
  | .vst n sy bf va pat => some (n, .v (.vst sy bf va pat))
  | .vadd n sy bf vd va vb => some (n, .v (.arith .add sy bf vd va vb))
  | .vsub n sy bf vd va vb => some (n, .v (.arith .sub sy bf vd va vb))
  | .vmul n sy bf vd va vb => some (n, .v (.arith .mul sy bf vd va vb))
  | .vfma n sy bf vd va vb vc => some (n, .v (.vfma sy bf vd va vb vc))
  | .vmax n sy bf vd va vb => some (n, .v (.arith .max sy bf vd va vb))
  | .vmin n sy bf vd va vb => some (n, .v (.arith .min sy bf vd va vb))
  | .vsf n sy bf vd va fn => some (n, .v (.vsf sy bf vd va fn))
  | .vtbl n sy bf vd va fn => some (n, .v (.vtbl sy bf vd va fn))
  | .vred n sy bf vd va fn => some (n, .v (.vred sy bf vd va fn))
  | .vcvt n sy bf vd va fn => some (n, .v (.vcvt sy bf vd va fn))
  | .vcmp n sy bf vd va vb fn => some (n, .v (.vcmp sy bf vd va vb fn))
  | .vsel n sy bf vd va vb vc => some (n, .v (.vsel sy bf vd va vb vc))
  | .vsplat n sy bf vd sa fn => some (n, .v (.vsplat sy bf vd sa fn))
  | .vtload n sy bf pat => some (n, .v (.vtload sy bf pat))
  | _ => none

/-- The vector operation that a row of the V slot names (Tables 04-14 and 04-15). -/
def vectorRow (i : Instr) : Option (CoreId × VOp) :=
  match wordRow i with
  | some (n, .v o) => some (n, o)
  | _ => none

/-- Core `n` issues its next word, and that word is `w`: the duty is not zero, the core is up and runs, its next word is resident
and legal, and every handshake of the word is met (R73, R322). -/
structure Issues (s : State) (n : Nat) (w : Slots) : Prop where
  duty : s.power.duty ≠ 0
  up : s.coreUp n = true
  runs : mayIssue (s.core n) = true
  word : legalWord (s.localOf n) = some w
  ready : holdsWord ((s.localOf n).reach w) w = false

/-- Core `n` waits with its next word `w` at the issue logic (R73, R75). -/
structure Waits (s : State) (n : Nat) (w : Slots) : Prop where
  duty : s.power.duty ≠ 0
  up : s.coreUp n = true
  runs : mayIssue (s.core n) = true
  word : legalWord (s.localOf n) = some w
  held : holdsWord ((s.localOf n).reach w) w = true

/-- Neither the M slot nor the A slot raises PRIVATE_RING or UNMAPPED (R62, R83, R88). -/
def noSlotFault (s : State) (n : Nat) (w : Slots) : Prop :=
  privateM (s.localOf n) w.m = false ∧ privateA (s.localOf n) w.a = false ∧ unmappedM (s.localOf n) w.m = false

/-- Scalar register `r` of core `n` (R74). -/
def State.sreg (s : State) (n : Nat) (r : RegId) : DWord := regGet (s.core n).seq.regs r

/-- Whether STW or STD in the C slot of core `n`'s word `w` stores to the byte at device address `x` (Table 04-9). -/
def State.storesAt (s : State) (n : Nat) (w : Slots) (x : Nat) : Bool :=
  let at' (sa : RegId) (imm : BitVec 16) (len : Nat) : Bool :=
    let a := scratchAddr n (4 * (s.sreg n sa + imm.signExtend 64).toNat)
    decide (a ≤ x) && decide (x < a + len)
  match w.c with
  | .stw _ sa imm => at' sa imm 4
  | .std _ sa imm => at' sa imm 8
  | _ => false

/-- The pattern record `i` of core `n` (R79). -/
def State.patRecord (s : State) (n i : Nat) : PatternRecord := mapGet 0 (s.core n).seq.patterns i

/-- Bytes of core `n`'s scratchpad from a word on (R199). -/
def State.scratch (s : State) (n word len : Nat) : List Byte := memRead s.mem (scratchAddr n (4 * word)) len

/-- Core `n` issues its next word `w`, which switches no region off, raises no fault of its M and A slots and stores nothing from its C
slot; no bad parity and no clash fault can stop the core. -/
structure IssuesClean (s : State) (n : Nat) (w : Slots) : Prop where
  issues : Issues s n w
  clean : noSlotFault s n w
  stays : offMask w.m = 0
  quiet : ∀ x, s.storesAt n w x = false
  goes : w.c ≠ .endRoster
  parity : (s.core n).scr.badParity = []
  clash : (s.core n).seq.clashFaultNow = false

/-- The slot after the one in service is an opening, or the ring boundary. -/
def Ring.opensNext (r : Ring) (key : Nat) : Prop := ∀ x, (r.slots key)[r.slot + 1]? = some x → x.kind ≠ .owner

/-- The ring stands at its next slot, or at its boundary. -/
def Ring.wentOn (r : Ring) (key : Nat) (r' : Ring) : Prop :=
  if r.slot + 1 < (r.slots key).length then r'.slot = r.slot + 1 ∧ r'.atEnd = false else r'.atEnd = true

/-- Ring pair `q`'s completion queue has no entry waiting and a place for the next (R313). -/
def State.cqReady (s : State) (q : Nat) : Prop :=
  (s.cq (s.sq q).cq.toNat).held = [] ∧ (s.cq (s.sq q).cq.toNat).hasSpace = true

/-- The host address of the next completion entry of ring `q`. -/
def State.entryAt (s : State) (q : Nat) : Nat :=
  (s.cq (s.sq q).cq.toNat).base.toNat + 16 * (s.cq (s.sq q).cq.toNat).tail

/-- Descriptor `d` of ring `q` has completed between `s` and `t`: it has left its ring, and its 16-byte entry of Table 14-14 stands at
the queue's tail with the phase of the pass, the tail moved on, or waits behind the earlier ones for a place (R313). -/
structure Completes (s t : State) (q : Nat) (d : Desc) (status specific : Nat) : Prop where
  gone : t.descOf q d.order = none
  held : ¬s.cqReady q →
    (t.cq (s.sq q).cq.toNat).held = (s.cq (s.sq q).cq.toNat).held ++ [⟨entryWord q d status specific, d.irq⟩]
  entry : s.cqReady q → memRead t.out.hostMem (s.entryAt q) 16 =
    leBytes 16 ((entryWord q d status specific).toNat + if (s.cq (s.sq q).cq.toNat).phase then 65536 else 0)
  tail : s.cqReady q → (t.cq (s.sq q).cq.toNat).tail = ((s.cq (s.sq q).cq.toNat).tail + 1) % (s.cq (s.sq q).cq.toNat).size

/-- A range of host memory that the next completion entry of ring `q` does not meet. -/
def State.apartFromEntry (s : State) (q a len : Nat) : Prop := a + len ≤ s.entryAt q ∨ s.entryAt q + 16 ≤ a

end Sys2Proof.Machine
end

