-- ==== Sys2Proof/Certificates/Slice0/Obligations.lean ====
section
/-!
DEFINITION. The statements for the provers: what the commands and the module do, by chapter of the spec.
-/

open Sys2Proof Sys2Proof.Machine

/-! ## The queue and the idle step -/

/-- One step takes the command at the front of the queue and is exactly what that command does on the queue's rest; on an empty
queue one nanosecond passes while the timebase counts, and nothing else changes (log entry 1: the model's choice). -/
def Obligations.StepRunsFrontCommand : Prop :=
  (∀ (c : Instr) (rest : List Instr) (s : State), step (s.withPending (c :: rest)) = exec c (s.withPending rest)) ∧
  (∀ s : State, s.pending = [] →
      step s = .next { s with time := { s.time with now := s.time.now + if s.time.locked then 1 else 0 } })

/-- Every command answers a next state, in every state, and none touches the queue of waiting commands. That the surroundings' commands
stand in one queue, and that one which comes before what it needs has no effect, are the model's choices: log entries 1 and 3. -/
def Obligations.CommandsKeepQueue : Prop :=
  ∀ (c : Instr) (s : State), ∃ t, exec c s = .next t ∧ t.pending = s.pending

/-- Every step keeps device memory, the bytes written to host memory and the tag area in canonical form: addresses strictly rising
and no listed byte equal to the fill value. The form is the model's own: log entry 28. -/
def Obligations.StepKeepsMemoryCanonical : Prop :=
  ∀ s t : State, s.memoryWf = true → step s = .next t → t.memoryWf = true

/-! ## Roster words: issue -/

/-- After R72, R73, in part: a word whose handshakes are met issues whole. Whatever operation of its four slots names it, the core's
next word is the one after it, or where its C slot leads; the word counts as issued. Until its handshakes are met, the word
waits and no slot of it issues. A row names one operation and its word issues whole: log entry 4. -/
def Obligations.WordIssuesWholeOrWaits : Prop :=
  (∀ (i : Instr) (n : CoreId) (o : SlotOp) (s : State) (w : Slots),
      wordRow i = some (n, o) → w.holds o = true → Issues s n.val w →
      ∃ t, exec i s = .next t ∧
        (t.core n.val).seq.lastIssued = (s.core n.val).seq.position ∧
        (t.core n.val).seq.wordsIssued = wrapAdd (s.core n.val).seq.wordsIssued 1 ∧
        (t.core n.val).seq.loops = (nextWord (s.localOf n.val) w.c).1 ∧
        (t.core n.val).seq.position = wordIndex (nextWord (s.localOf n.val) w.c).2) ∧
  (∀ (i : Instr) (n : CoreId) (o : SlotOp) (s : State) (w : Slots),
      wordRow i = some (n, o) → w.holds o = true → Waits s n.val w →
      ∃ t, exec i s = .next t ∧
        (t.core n.val).seq.position = (s.core n.val).seq.position ∧
        (t.core n.val).seq.wordsIssued = (s.core n.val).seq.wordsIssued ∧
        (t.core n.val).seq.regs = (s.core n.val).seq.regs ∧
        (t.core n.val).seq.patterns = (s.core n.val).seq.patterns ∧
        (t.core n.val).seq.loops = (s.core n.val).seq.loops)

/-- Frame of every roster word: whether it issues, waits or is not the core's next word, it changes of the module only its own core,
device memory, its Panel's clash count, the error log and, where the set ends with it, the rings, the host side and what the
device puts out. Every other core, every column, Cuff, Seam port, the sparing map, the clocks, power, cooling and management
state stay as they are. A word that is not legal changes no byte of device memory, and a legal one, where no ATT_OUT waits or comes with
it, changes only the bytes that its C slot stores to. -/
def Obligations.WordFrame : Prop :=
  ∀ (i : Instr) (n : CoreId) (o : SlotOp) (s t : State), wordRow i = some (n, o) → exec i s = .next t →
    (∀ m, m ≠ n.val → t.core m = s.core m) ∧ (∀ p, p ≠ n.val / 64 → t.panel p = s.panel p) ∧
    ((∀ sy x y, .out sy x y ∉ (s.core n.val).att.queue) →
      (legalWord (s.localOf n.val) = none → t.mem = s.mem) ∧
      ∀ w, legalWord (s.localOf n.val) = some w → (∀ sy x y, w.a ≠ .attOut sy x y) →
        ∀ x, s.storesAt n.val w x = false → memGet t.mem x = memGet s.mem x) ∧
    t = { s with cores := t.cores, mem := t.mem, panels := t.panels, log := t.log, rings := t.rings, host := t.host,
                 out := t.out, set := t.set }

/-! ## Roster words: the C slot -/

/-- After Table 04-9, R74, in part: each scalar operation writes its result, computed from the registers as they stood before the
word, to SD, and no other register changes; s0 reads as zero and a write to it is discarded. -/
def Obligations.ScalarArithmetic : Prop :=
  ∀ (n : CoreId) (s : State) (w : Slots) (sd sa sb : RegId) (imm : BitVec 16) (q : BitVec 2),
    Issues s n.val w →
    let a := s.sreg n.val sa
    let b := s.sreg n.val sb
    let writes (i : Instr) (v : DWord) : Prop :=
      ∃ t, exec i s = .next t ∧ ∀ r, t.sreg n.val r = if r = sd ∧ r ≠ 0 then v else s.sreg n.val r
    (w.c = .alu .add sd sa sb → writes (.add n sd sa sb) (a + b)) ∧
    (w.c = .alu .sub sd sa sb → writes (.sub n sd sa sb) (a - b)) ∧
    (w.c = .alu .and sd sa sb → writes (.and n sd sa sb) (a &&& b)) ∧
    (w.c = .alu .or sd sa sb → writes (.or n sd sa sb) (a ||| b)) ∧
    (w.c = .alu .xor sd sa sb → writes (.xor n sd sa sb) (a ^^^ b)) ∧
    (w.c = .alu .shl sd sa sb → writes (.shl n sd sa sb) (a <<< (b.toNat % 64))) ∧
    (w.c = .alu .shr sd sa sb → writes (.shr n sd sa sb) (a >>> (b.toNat % 64))) ∧
    (w.c = .alu .sra sd sa sb → writes (.sra n sd sa sb) (a.sshiftRight (b.toNat % 64))) ∧
    (w.c = .alu .mul sd sa sb → writes (.mul n sd sa sb) (BitVec.ofNat 64 (a.toNat * b.toNat))) ∧
    (w.c = .alu .mulhu sd sa sb → writes (.mulhu n sd sa sb) (BitVec.ofNat 64 (a.toNat * b.toNat / 2 ^ 64))) ∧
    (w.c = .alu .slt sd sa sb → writes (.slt n sd sa sb) (if a.toInt < b.toInt then 1 else 0)) ∧
    (w.c = .alu .sltu sd sa sb → writes (.sltu n sd sa sb) (if a.toNat < b.toNat then 1 else 0)) ∧
    (w.c = .alui .addi sd sa imm → writes (.addi n sd sa imm) (BitVec.ofInt 64 (a.toInt + imm.toInt))) ∧
    (w.c = .alui .andi sd sa imm → writes (.andi n sd sa imm) (a &&& imm.setWidth 64)) ∧
    (w.c = .alui .ori sd sa imm → writes (.ori n sd sa imm) (a ||| imm.setWidth 64)) ∧
    (w.c = .alui .xori sd sa imm → writes (.xori n sd sa imm) (a ^^^ imm.setWidth 64)) ∧
    (w.c = .alui .shli sd sa imm → writes (.shli n sd sa imm) (a <<< (imm.toNat % 64))) ∧
    (w.c = .alui .shri sd sa imm → writes (.shri n sd sa imm) (a >>> (imm.toNat % 64))) ∧
    (w.c = .alui .srai sd sa imm → writes (.srai n sd sa imm) (a.sshiftRight (imm.toNat % 64))) ∧
    (w.c = .lih sd q imm → ∃ t, exec (.lih n sd q imm) s = .next t ∧
      (∀ r, r ≠ sd → t.sreg n.val r = s.sreg n.val r) ∧ t.sreg n.val 0 = 0 ∧
      (sd ≠ 0 → ∀ k, k < 64 → (t.sreg n.val sd).getLsbD k =
        if k / 16 = q.toNat then imm.getLsbD (k % 16) else (s.sreg n.val sd).getLsbD k))

/-- After Table 04-9, R80, in part: LDW and LDD read one word or an even-addressed pair of the scratchpad, low word first,
zero-extended, into SD. STW writes bits 31 to 0 of SD, and STD all of it, to the scratchpad word at s[sa] + IMM, low byte first;
where no attention operation can write the scratchpad, every other byte of memory and every register is unchanged. RDCTR reads
the timebase, the lap counter, the beat count at the beat in which DUTY lets the word issue (log entry 26), the core's number or the count
of words issued. PAT_LOAD copies NUMBER records of
32 bytes from the scratchpad word s[sa] on into the pattern table from FIRST on; a record that is neither loaded nor named in
the word stays as it is. -/
def Obligations.ScalarMemoryAndCounters : Prop :=
  (∀ (n : CoreId) (s : State) (w : Slots) (sd sa : RegId) (imm : BitVec 16), Issues s n.val w →
      let word := (s.sreg n.val sa + imm.signExtend 64).toNat
      let writes (i : Instr) (v : DWord) : Prop :=
        ∃ t, exec i s = .next t ∧ ∀ r, t.sreg n.val r = if r = sd ∧ r ≠ 0 then v else s.sreg n.val r
      (w.c = .ldw sd sa imm → word < scratchWords ∧ writes (.ldw n sd sa imm) (BitVec.ofNat 64 (leNat (s.scratch n.val word 4)))) ∧
      (w.c = .ldd sd sa imm → word % 2 = 0 ∧ word + 1 < scratchWords ∧
        writes (.ldd n sd sa imm) (BitVec.ofNat 64 (leNat (s.scratch n.val word 8))))) ∧
  (∀ (n : CoreId) (s : State) (w : Slots) (sd sa : RegId) (imm : BitVec 16),
      Issues s n.val w → w.a = .nop → (s.core n.val).att.queue = [] →
      let a := scratchAddr n.val (4 * (s.sreg n.val sa + imm.signExtend 64).toNat)
      let v := s.sreg n.val sd
      let stores (i : Instr) (len : Nat) : Prop :=
        ∃ t, exec i s = .next t ∧ (∀ r, t.sreg n.val r = s.sreg n.val r) ∧
          ∀ x, memGet t.mem x = if a ≤ x ∧ x < a + len then (v >>> (8 * (x - a))).setWidth 8 else memGet s.mem x
      (w.c = .stw sd sa imm → stores (.stw n sd sa imm) 4) ∧ (w.c = .std sd sa imm → stores (.std n sd sa imm) 8)) ∧
  (∀ (n : CoreId) (s : State) (w : Slots) (sd : RegId) (k : BitVec 16), Issues s n.val w → w.c = .rdctr sd k →
      ∃ t, exec (.rdctr n sd k) s = .next t ∧
        (∀ r, r ≠ sd → t.sreg n.val r = s.sreg n.val r) ∧
        (sd ≠ 0 →
          (k = 0 → t.sreg n.val sd = BitVec.ofNat 64 s.time.now) ∧
          (k = 1 → t.sreg n.val sd = (s.core n.val).seq.lap.setWidth 64) ∧
          (k = 2 → t.sreg n.val sd = BitVec.ofNat 64 (dutyBeat s.power.duty (s.core n.val).seq.beats)) ∧
          (k = 3 → t.sreg n.val sd = BitVec.ofNat 64 n.val) ∧
          (k = 4 → t.sreg n.val sd = (s.core n.val).seq.wordsIssued.setWidth 64))) ∧
  (∀ (n : CoreId) (s : State) (w : Slots) (sa : RegId) (first number : BitVec 8),
      Issues s n.val w → w.c = .patLoad sa first number →
      ∃ t, exec (.patLoad n sa first number) s = .next t ∧
        (∀ k, k ≤ number.toNat → t.patRecord n.val (first.toNat + k) =
          BitVec.ofNat 256 (leNat (s.scratch n.val ((s.sreg n.val sa).toNat + 8 * k) 32))) ∧
        (∀ i : BitVec 8, i.toNat < first.toNat ∨ first.toNat + number.toNat < i.toNat → i ∉ wordNames w →
          t.patRecord n.val i.toNat = s.patRecord n.val i.toNat) ∧
        ∀ r, t.sreg n.val r = s.sreg n.val r)

/-- After R81, Tables 04-8 and 04-9, in part: where the next word lies after a NOP, a WAIT, a jump, a conditional branch, a LOOP and
a LOOPR, and the loop that opens. No register changes. -/
def Obligations.ControlTransfers : Prop :=
  ∀ (n : CoreId) (s : State) (w : Slots) (u : UnitCode) (count : BitVec 16) (off : BitVec 16) (sa sb : RegId) (times : BitVec 12)
    (body : BitVec 14), Issues s n.val w →
    let pos := (s.core n.val).seq.position.toNat
    let loops := (s.core n.val).seq.loops
    let a := s.sreg n.val sa
    let b := s.sreg n.val sb
    let target := ((pos : Int) + off.toInt).toNat
    let fall := afterWord loops pos
    let goes (i : Instr) (l : List LoopFrame × Nat) : Prop :=
      ∃ t, exec i s = .next t ∧ (t.core n.val).seq.loops = l.1 ∧ (t.core n.val).seq.position = BitVec.ofNat 28 l.2 ∧
        ∀ r, t.sreg n.val r = s.sreg n.val r
    (w.c = .nop → goes (.nop n) fall) ∧
    (w.c = .wait u count → syCount ((s.localOf n.val).reach w).core u ≤ count.toNat ∧ goes (.wait n u count) fall) ∧
    (w.c = .jmp off → goes (.jmp n off) (loops, target)) ∧
    (w.c = .branch .eq sa sb off → goes (.beq n sa sb off) (if a = b then (loops, target) else fall)) ∧
    (w.c = .branch .ne sa sb off → goes (.bne n sa sb off) (if a ≠ b then (loops, target) else fall)) ∧
    (w.c = .branch .lt sa sb off → goes (.blt n sa sb off) (if a.toInt < b.toInt then (loops, target) else fall)) ∧
    (w.c = .branch .ge sa sb off → goes (.bge n sa sb off) (if b.toInt ≤ a.toInt then (loops, target) else fall)) ∧
    (w.c = .branch .ltu sa sb off → goes (.bltu n sa sb off) (if a.toNat < b.toNat then (loops, target) else fall)) ∧
    (w.c = .branch .geu sa sb off → goes (.bgeu n sa sb off) (if b.toNat ≤ a.toNat then (loops, target) else fall)) ∧
    (w.c = .loop times body →
      goes (.loop n times body) (⟨pos + 1, pos + body.toNat + 1, times.toNat + 1⟩ :: loops, pos + 1)) ∧
    (w.c = .loopr sa body → goes (.loopr n sa body)
      (if a = 0 then afterWord loops (pos + body.toNat + 1)
       else (⟨pos + 1, pos + body.toNat + 1, a.toNat⟩ :: loops, pos + 1)))

/-- After R42, in part: END ends the core's part of the set, and the set is complete once every core of it has executed END: it is
no longer active, and every ring heads back to its open image. -/
def Obligations.EndCompletesSet : Prop :=
  ∀ (n : CoreId) (s : State) (w : Slots), Issues s n.val w → w.c = .endRoster →
    ∃ t, exec (.endRoster n) s = .next t ∧ (t.core n.val).seq.run = .ended ∧
      (if s.set.running = true ∧ ∀ m ∈ s.set.cores, m = n.val ∨ (s.core m).seq.run = .ended then
        t.set = ActiveSet.none ∧ ∀ e ∈ t.rings, e.2.use = .opened ∨ e.2.toOpen = true
       else t.set = s.set)

/-- After R62, R70, R208, R400, in part: a LAP_MARK that is not passed over at a restart advances the lap counter by one, moves the
current mark into the previous one, takes the new lap and its own word as the current mark, and begins a step; in a replayable
set it also sets the scalar registers and the pattern table to zero. A STEP_MARK records the state of Table 10-5 as it stands
before the word. PRIVATE_BEGIN and PRIVATE_END open and close a private segment. -/
def Obligations.MarksAndSegments : Prop :=
  (∀ (n : CoreId) (s : State) (w : Slots), Issues s n.val w → w.c = .lapMark → markIsNop (s.core n.val) = false →
      ∃ t, exec (.lapMark n) s = .next t ∧
        (t.core n.val).seq.lap = (s.core n.val).seq.lap + 1 ∧
        (t.core n.val).seq.markOld = (s.core n.val).seq.markNew ∧
        (t.core n.val).seq.markNew = ⟨(s.core n.val).seq.lap + 1, (s.core n.val).seq.position⟩ ∧
        (t.core n.val).seq.lapRecordDue = true ∧
        ((t.core n.val).step.record.map (·.word)) = some (s.core n.val).seq.position.toNat ∧
        (s.set.replayable = true → (∀ r, t.sreg n.val r = 0) ∧ ∀ i, t.patRecord n.val i = 0)) ∧
  (∀ (n : CoreId) (s : State) (w : Slots), Issues s n.val w →
      (w.c = .stepMark → markIsNop (s.core n.val) = false → ∃ t, exec (.stepMark n) s = .next t ∧
        (t.core n.val).step.record = some (stepRecordOf (s.core n.val)) ∧ (t.core n.val).step.opCount = 0) ∧
      (w.c = .privateBegin → (s.core n.val).seq.priv = false ∧ ∃ t, exec (.privateBegin n) s = .next t ∧
        (t.core n.val).seq.priv = true ∧ (t.core n.val).seq.privDepth = (s.core n.val).seq.loops.length) ∧
      (w.c = .privateEnd → (s.core n.val).seq.priv = true ∧ ∃ t, exec (.privateEnd n) s = .next t ∧
        (t.core n.val).seq.priv = false))

/-- After R59, R86, R87, Table 17-7, in part: a core whose next word is illegal stops with a roster fault of kind ILLEGAL_WORD at that
word, names the slot and issues nothing of it; one whose next word the roster cache cannot read stops with FETCH_UNCORRECTABLE. Where no
operation is in its queues, the ROSTER_FAULT record is all that the log takes. -/
def Obligations.IllegalWordStops : Prop :=
  ∀ (n : CoreId) (s : State) (w : RosterWord),
    s.power.duty ≠ 0 → s.coreUp n.val = true → mayIssue (s.core n.val) = true → (s.core n.val).seq.stoppedByFault = false →
    lookup (s.core n.val).seq = .word w →
    let stops (cacheError : Bool) (slot kind : Nat) : Prop :=
      ∃ t, exec (.illegalWord ⟨n, cacheError⟩) s = .next t ∧
        (t.core n.val).seq.fault = ⟨true, BitVec.ofNat 2 slot, BitVec.ofNat 8 kind, (s.core n.val).seq.position⟩ ∧
        (t.core n.val).seq.run = .stopped ∧
        (t.core n.val).seq.position = (s.core n.val).seq.position ∧
        (t.core n.val).seq.regs = (s.core n.val).seq.regs ∧
        (t.core n.val).seq.wordsIssued = (s.core n.val).seq.wordsIssued ∧
        ((s.core n.val).moveQ = [] → (s.core n.val).arr.queue = [] → (s.core n.val).arr.gather = [] → (s.core n.val).att.queue = [] →
          t.log = (s.file (mkReport 0x10 (n.val / 64) (s.entry n.val).phys
            (n.val + (s.core n.val).seq.position.toNat * 2 ^ 20) (kind * 256 + slot))).log)
    (∀ slot, illegalSlot (s.localOf n.val) w = some slot → stops false slot 5) ∧ stops true 0 6

/-! ## Roster words: the M slot -/

/-- After R73, R74, R80, in part: a MOVE_IN, MOVE_OUT, ATOMIC_ADD, NEAR_OP, BANK_OFF, FETCH_ROSTER, TURN_END or CREDIT_TAKE enters
the MOVE queue behind the operations before it, with the base register and the access patterns that it captured as they stood
before the word. -/
def Obligations.MoveOpsEnterQueue : Prop :=
  ∀ (n : CoreId) (s : State) (w : Slots) (tl sy : Bool) (sa : RegId) (ps pf : BitVec 8) (win : BitVec 4) (cls : BitVec 8)
    (block : BitVec 4),
    Issues s n.val w → noSlotFault s n.val w → (s.core n.val).step.log = [] →
    let rec' (i : BitVec 8) : Pattern := decodePattern (s.patRecord n.val i.toNat)
    let queued (i : Instr) (patS patF : Option Pattern) : Prop :=
      ∃ t o, exec i s = .next t ∧ (t.core n.val).moveQ.getLast? = some o ∧ o.op = w.m ∧ o.sVal = s.sreg n.val sa ∧
        o.patS = patS ∧ o.patF = patF ∧ o.word = (s.core n.val).seq.position ∧ o.started = false
    (w.m = .moveIn tl sy sa ps pf → queued (.moveIn n tl sy sa ps pf) (some (rec' ps)) (some (rec' pf))) ∧
    (w.m = .moveOut tl sy sa ps pf → queued (.moveOut n tl sy sa ps pf) (some (rec' ps)) (some (rec' pf))) ∧
    (w.m = .atomicAdd tl sy sa ps pf → queued (.atomicAdd n tl sy sa ps pf) (some (rec' ps)) (some (rec' pf))) ∧
    (w.m = .nearOp tl sy sa ps → queued (.nearOp n tl sy sa ps) (some (rec' ps)) none) ∧
    (w.m = .bankOff tl sy sa → queued (.bankOff n tl sy sa) none none) ∧
    (w.m = .turnEnd sa cls → queued (.turnEnd n sa cls) none none) ∧
    (w.m = .creditTake tl sy sa win → queued (.creditTake n tl sy sa win) none none) ∧
    (w.m = .fetchRoster tl sy sa block → queued (.fetchRoster n tl sy sa block) none none ∧
      ∃ t, exec (.fetchRoster n tl sy sa block) s = .next t ∧
        mapGet ⟨0, false, [], []⟩ (t.core n.val).seq.cache block.toNat = ⟨(s.sreg n.val sa).toNat, true, [], []⟩)

/-- After R213, R214, Table 10-7, in part: with no earlier operation in the MOVE queue, a MOVE_REMOTE on a window that the core
holds, writing only granted groups, and a CREDIT_GIVE of a window that the core holds are judged good and stay until they are
served; without the credit, each is a misuse: it is counted and completes without effect. -/
def Obligations.CreditOpsAreJudged : Prop :=
  ∀ (n : CoreId) (s : State) (w : Slots) (tl sy : Bool) (sa : RegId) (ps : BitVec 8) (win : BitVec 4) (cfg : BitVec 8),
    Issues s n.val w → noSlotFault s n.val w → (s.core n.val).step.log = [] → (s.core n.val).moveQ = [] →
    let l := s.localOf n.val
    let far := (remoteTarget (s.sreg n.val sa).toNat).1
    let own := (field (s.sreg n.val sa) 0 9).toNat
    let misused (i : Instr) : Prop := ∃ t, exec i s = .next t ∧ (t.core n.val).moveQ = [] ∧
      (t.core n.val).scr.misuse = satAdd (s.core n.val).scr.misuse 1
    (w.m = .moveRemote tl sy sa ps win →
      (heldWindow l far win.toNat = some cfg → writesGranted cfg (presents l w.m).1 = true →
        ∃ t o, exec (.moveRemote n tl sy sa ps win) s = .next t ∧ (t.core n.val).moveQ = [o] ∧ o.op = w.m ∧ o.judged = true ∧
          o.units = (presents l w.m).1) ∧
      (heldWindow l far win.toNat = none → misused (.moveRemote n tl sy sa ps win))) ∧
    (w.m = .creditGive tl sy sa win →
      (heldWindow l own win.toNat = some cfg →
        ∃ t o, exec (.creditGive n tl sy sa win) s = .next t ∧ (t.core n.val).moveQ = [o] ∧ o.op = w.m ∧ o.judged = true ∧
          o.resp = none ∧ ∀ c, (own, win.toNat, c) ∉ (t.core n.val).scr.granted) ∧
      (heldWindow l own win.toNat = none → misused (.creditGive n tl sy sa win)))

/-- After R90 to R92, in part: after a REGION_ON every region of its mask that was neither on nor ramping, and every one whose
switch-off waits (log entry 49), is asked for; after a REGION_OFF every region of its mask is off or its switch-off waits, and a
switch-off of the array drops the current load. -/
def Obligations.RegionRequests : Prop :=
  ∀ (n : CoreId) (s : State) (w : Slots) (sy : Bool) (mask : BitVec 4), Issues s n.val w →
    (w.m = .regionOn sy mask → ∃ t, exec (.regionOn n sy mask) s = .next t ∧
      let before := (s.core n.val).regions
      mask &&& (~~~(onMask before ||| rampingMask before) ||| before.offRequested) &&& ~~~(t.core n.val).regions.requested = 0) ∧
    (w.m = .regionOff sy mask → ∃ t, exec (.regionOff n sy mask) s = .next t ∧
      let r := (t.core n.val).regions
      mask &&& (onMask r ||| rampingMask r) &&& ~~~r.offRequested = 0 ∧
      (mask.getLsbD 0 = true → w.a = .nop → (t.core n.val).arr.current = none))

/-! ## Roster words: the A and V slots -/

/-- After R91, R95 to R97, R105 to R107, in part: ARR_WLOAD makes its pattern the current load and waits in the ARRAY queue while the
array is not on, an ARR_PASS goes to the end of the queue, ARR_GCFG flushes the gather queue and sets the next batch, and an
ARR_GATHER that fits below the threshold goes to the end of the gather queue, or of the ARRAY queue while the gather region is not
on or a switch-off that it needs to stay behind waits (log entry 49), each with the patterns that it captured. No earlier gather waits for
its region, and the word holds no REGION_OFF, which comes behind the operations of its own word. -/
def Obligations.ArrayOpsEnterQueue : Prop :=
  ∀ (n : CoreId) (s : State) (w : Slots) (sy packed acc : Bool) (x y : BitVec 8) (threshold : BitVec 6) (timeout : BitVec 14),
    Issues s n.val w →
    let pat (i : BitVec 8) : Pattern := decodePattern (s.patRecord n.val i.toNat)
    let arr := (s.core n.val).arr
    gathersWait arr = false → offMask w.m = 0 →
    (w.a = .wload sy x packed →
      ∃ t, exec (.arrWload n sy x packed) s = .next t ∧ (t.core n.val).arr.current = some (loadRecordOf (pat x) packed) ∧
        ((s.core n.val).regions.array ≠ .on → (t.core n.val).arr.queue.getLast? = some (.wload sy (pat x) packed))) ∧
    (w.a = .pass sy x y acc →
      ∃ t, exec (.arrPass n sy x y acc) s = .next t ∧
        (t.core n.val).arr.queue.getLast? = some (.pass sy (pat x) (pat y) acc)) ∧
    (w.a = .gcfg threshold timeout →
      ∃ t, exec (.arrGcfg n threshold timeout) s = .next t ∧ (t.core n.val).arr.gather = [] ∧
        (t.core n.val).arr.gatherCfg = ⟨threshold.toNat + 1, timeout.toNat⟩) ∧
    (w.a = .gather sy x y → noSlotFault s n.val w → (s.core n.val).seq.clashFaultNow = false →
      (s.core n.val).scr.badParity = [] → w.c ≠ .lapMark →
      let e : GatherEntry := ⟨sy, pat x, pat y, rowsOf (s.localOf n.val) x⟩
      ∃ t, exec (.arrGather n sy x y) s = .next t ∧
        ((s.core n.val).regions.gather = .on → .off ∉ arr.queue → .gatherOff ∉ arr.queue → gatherCount arr + e.rows ≤ 64 →
          arr.gather.length + 1 < arr.gatherCfg.threshold → (t.core n.val).arr.gather.getLast? = some e) ∧
        ((s.core n.val).regions.gather ≠ .on ∨ .off ∈ arr.queue ∨ .gatherOff ∈ arr.queue →
          (t.core n.val).arr.queue.getLast? = some (.gather e)))

/-- After R150, R152, R156, R158, R167, R189, in part: with the attention region off or ramping, each attention operation goes to
the end of the ATTENTION queue with the patterns that it captured, and ATT_MODE, ATT_Q and ATT_OUT move the issue state. -/
def Obligations.AttentionOpsEnterQueue : Prop :=
  ∀ (n : CoreId) (s : State) (w : Slots) (sy : Bool) (x y : BitVec 8),
    Issues s n.val w → noSlotFault s n.val w → offMask w.m = 0 → (s.core n.val).regions.attention ≠ .on →
    let pat (i : BitVec 8) : Pattern := decodePattern (s.patRecord n.val i.toNat)
    let opt (i : BitVec 8) : Option Pattern := if i = 0xFF then none else some (pat i)
    let queued (i : Instr) (o : AttOp → Prop) (st : AttState → Prop) : Prop :=
      ∃ t a, exec i s = .next t ∧ (t.core n.val).att.queue.getLast? = some a ∧ o a ∧ st (t.core n.val).att
    (w.a = .attMode sy x → queued (.attMode n sy x) (· = .mode sy (pat x)) (·.issue = .moded)) ∧
    (w.a = .attQ sy x y → queued (.attQ n sy x y) (· = .query sy (pat x) (opt y))
      fun a => a.issue = .opened ∧ a.issueRows = patRunCount (pat x)) ∧
    (w.a = .attKv sy x y → queued (.attKv n sy x y) (· = .kv sy (pat x) (pat y)) fun _ => True) ∧
    (w.a = .attWalk sy x → queued (.attWalk n sy x) (fun a => ∃ lap, a = .walk sy (pat x) lap (s.core n.val).seq.position) fun _ => True) ∧
    (w.a = .attOut sy x y → queued (.attOut n sy x y) (· = .out sy (pat x) (opt y)) (·.issue = .moded))

/-- After R74, R136, in part: every vector operation goes to the end of the VECTOR queue with the pattern and the scalar that it
captured as they stood before the word; the word holds no REGION_OFF, which comes behind the operations of its own word (log entry 49). -/
def Obligations.VectorOpsEnterQueue : Prop :=
  ∀ (i : Instr) (n : CoreId) (o : VOp) (s : State) (w : Slots), vectorRow i = some (n, o) → w.v = o → Issues s n.val w →
    offMask w.m = 0 →
    ∃ t pat scalar, exec i s = .next t ∧ (t.core n.val).vec.queue.getLast? = some (.op o pat scalar) ∧
      pat = (namesV o).head?.map (fun p => decodePattern (s.patRecord n.val p.toNat)) ∧
      (∀ sy bf vd sa fn, o = .vsplat sy bf vd sa fn → scalar = s.sreg n.val sa)

/-! ## The core's units -/

/-- After Table 06-2, R136 to R146, in part: with the vector region on, the operation at the head of the VECTOR queue dispatches: it
writes its 512 result lanes to VD, computed from the registers as the operations before it left them, leaves the queue and is
counted. Every other vector register is unchanged. The vector special functions are free within the spec's bounds: log entry 17. -/
def Obligations.VectorLaneResults : Prop :=
  ∀ (n : CoreId) (s : State) (o : VOp) (pat : Option Pattern) (scalar : DWord) (rest : List VecOp),
    s.coreUp n.val = true → (s.core n.val).vec.queue = .op o pat scalar :: rest → (s.core n.val).regions.vector = .on →
    rest.head? ≠ some .off →
    let g (r : RegId) : List Word := vecGet (s.core n.val).vec r
    let writes (vd : RegId) (lanes : List Word) : Prop :=
      ∃ t, exec (.vectorDispatch n) s = .next t ∧ (t.core n.val).vec.queue = rest ∧
        (t.core n.val).vec.ops = wrapAdd (s.core n.val).vec.ops 1 ∧ (t.core n.val).seq.regs = (s.core n.val).seq.regs ∧
        ∀ r, vecGet (t.core n.val).vec r = if r = vd then lanes else g r
    (∀ op sy bf vd va vb, o = .arith op sy bf vd va vb → writes vd (List.zipWith (vecLane2 op bf) (g va) (g vb))) ∧
    (∀ sy bf vd va vb vc, o = .vfma sy bf vd va vb vc →
      writes vd (List.zipWith (fun ab c => vecLaneFma bf ab.1 ab.2 c) ((g va).zip (g vb)) (g vc))) ∧
    (∀ sy bf vd va fn, o = .vsf sy bf vd va fn →
      writes vd ((g va).map fun x => narrowLane bf (vsf (s.coreEnv n.val).level fn.toNat x))) ∧
    (∀ sy bf vd va fn, o = .vtbl sy bf vd va fn →
      writes vd ((g va).map fun x => narrowLane bf (vecLaneTbl (s.core n.val).vec.table fn.toNat x))) ∧
    (∀ sy bf vd va fn, o = .vred sy bf vd va fn →
      writes vd (List.replicate 512 (narrowLane bf (vecReduce fn.toNat (g va))))) ∧
    (∀ sy bf vd va fn, o = .vcvt sy bf vd va fn → writes vd ((g va).map fun x => (vecLaneCvt fn.toNat x).1)) ∧
    (∀ sy bf vd va vb fn, o = .vcmp sy bf vd va vb fn → writes vd (List.zipWith (vecLaneCmp fn.toNat) (g va) (g vb))) ∧
    (∀ sy bf vd va vb vc, o = .vsel sy bf vd va vb vc →
      writes vd (List.zipWith (fun ab c => if c ≠ 0 then ab.1 else ab.2) ((g va).zip (g vb)) (g vc))) ∧
    (∀ sy bf vd sa fn, o = .vsplat sy bf vd sa fn → writes vd (List.replicate 512 (vecSplat bf fn.toNat scalar)))

/-- After R142, R145, R147, R201, in part: a VLD fills its register from the runs of its pattern, the lanes above zero; a VST writes
its first E lanes to the runs of its pattern and no byte outside the whole words of these; a VTLOAD loads the table; a queued
clear zeroes the registers and the table. -/
def Obligations.VectorMemoryOps : Prop :=
  ∀ (n : CoreId) (s : State) (rest : List VecOp) (sy bf : Bool) (r : RegId) (i : BitVec 8) (p : Pattern) (scalar : DWord),
    s.coreUp n.val = true → (s.core n.val).regions.vector = .on → rest.head? ≠ some .off → (s.core n.val).att.queue = [] →
    let v := (s.core n.val).vec
    let runs := (patRuns p).map fun w => s.scratch n.val w.toNat (patRunBytes p)
    let stored := (chunks p.n0 ((vecGet v r).take (patElems p)).length ((vecGet v r).take (patElems p))).map
      fun c => (encodeRun (patFormat p) c).bytes
    let dispatches (q : State → VectorState → Prop) : Prop :=
      ∃ t, exec (.vectorDispatch n) s = .next t ∧ (t.core n.val).vec.queue = rest ∧ q t (t.core n.val).vec
    (v.queue = .op (.vld sy bf r i) (some p) scalar :: rest → dispatches fun t x => t.mem = s.mem ∧
      ∀ k, vecGet x k = if k = r then lanesOfRuns (patFormat p) p.n0 runs else vecGet v k) ∧
    (v.queue = .op (.vst sy bf r i) (some p) scalar :: rest → dispatches fun t x =>
      t.mem = ((s.localOf n.val).writeRuns (patRuns p) stored).mem ∧ (∀ k, vecGet x k = vecGet v k) ∧
      ∀ a, (∀ w ∈ patRuns p, ∀ b ∈ stored, a < scratchAddr n.val (4 * w.toNat) ∨
        scratchAddr n.val (4 * w.toNat) + (b.length + 3) / 4 * 4 ≤ a) → memGet t.mem a = memGet s.mem a) ∧
    (v.queue = .op (.vtload sy bf i) (some p) scalar :: rest → dispatches fun t x => t.mem = s.mem ∧
      x.table = tableOfImage runs.flatten ∧ ∀ k, vecGet x k = vecGet v k) ∧
    (v.queue = .clear :: rest → dispatches fun t x => t.mem = s.mem ∧ x.table = UserTable.zero ∧
      ∀ k, vecGet x k = List.replicate 512 0)

/-- After R99, R100, R107, R108, in part: a load's front starts once no pass occupies the array, and places at most 128 segments at its
start (log entry 33); the pass or flush at the head of the ARRAY queue then occupies it with the load in the store; at the timeout a
gather queue that is not empty becomes one flush at the end of the queue, and the core's beats have reached the timeout in effect
(log entry 6). -/
def Obligations.ArrayStages : Prop :=
  ∀ (n : CoreId) (s : State) (h : WeightLoad) (hs : List WeightLoad) (o : ArrOp) (rest : List ArrOp),
    s.coreUp n.val = true → (s.core n.val).seq.run = .running →
    let a := (s.core n.val).arr
    let steady (q : List ArrOp) : Prop := ∀ o r, q = o :: r → occupies o = true
    (a.running = none → a.halves = h :: hs → a.front = false → steady a.queue →
      ∃ t, exec (.arrayFrontStart n) s = .next t ∧ (t.core n.val).arr.front = true ∧
        (t.core n.val).arr.placed = min 128 h.load.segments ∧ (t.core n.val).arr.queue = a.queue) ∧
    (a.running = none → a.halves = h :: hs → a.queue = o :: rest → occupies o = true → steady rest →
      (s.core n.val).scr.badParity = [] →
      ∃ t, exec (.arrayPassStart n) s = .next t ∧ (t.core n.val).arr.running = some (o, h) ∧
        (t.core n.val).arr.queue = rest ∧ (t.core n.val).arr.front = true) ∧
    (a.gather ≠ [] → a.gatherCfg.timeout ≠ 0 → gathersWait a = false → steady a.queue →
      ∃ t, exec (.gatherTimeout n) s = .next t ∧ (t.core n.val).arr.gather = [] ∧
        (t.core n.val).seq.beats = max (s.core n.val).seq.beats
          (a.gatherStart + 16 * max a.gatherCfg.timeout (field (s.core n.val).ctrl.arrayExpertNow 16 8).toNat) ∧
        (t.core n.val).arr.queue = a.queue ++ [.flush a.gather] ∧
        (t.core n.val).arr.flushTimeout = wrapAdd a.flushTimeout 1 ∧
        (t.core n.val).arr.gatherRows = wrapAdd a.gatherRows ((a.gather.map (·.rows)).sum))

/-- After R96, R98, R100, R106, R108, Table 05-1, in part: at the end of a pass the result of every activation row of X, as the activation
store holds it or else as the scratchpad does, with every row of the load, converted to the format of Y and, with ACC = 1, added to what Y
holds, is written to the runs of Y; at the end of a gather flush the results of each sequence are written to its own Y in turn. Nothing
else in memory changes; the array is free and the pass is counted. -/
def Obligations.ArrayPassWritesResults : Prop :=
  ∀ (n : CoreId) (s : State) (h : WeightLoad),
    s.coreUp n.val = true → (s.core n.val).att.queue = [] →
    let a := (s.core n.val).arr
    let run (m : List Host.Cell) (p : Pattern) : List (List Byte) :=
      (patRuns p).map fun w => memRead m (scratchAddr n.val (4 * w.toNat)) (patRunBytes p)
    let results (m : List Host.Cell) (x y : Pattern) (acc : Bool) (held : Option (List (List Byte))) : List Host.Cell :=
      let rows := activationRows h.load.k ((held.getD (run m x)).map (decodeRun (patFormat x) x.n0))
      let old := (run m y).flatMap fun b => unpackCodes (fmtWidth (patFormat y)) y.n0 (leNat b)
      let codes := (rows.flatMap fun a => h.rows.map fun w => dotRow h.load.format h.load.k w a).mapIdx fun i r =>
        (resultCode (patFormat y) r.1 (if acc then some ((old[i]?).getD 0) else none)).1
      ({ s.localOf n.val with mem := m }.writeRuns (patRuns y) (resultRuns y codes)).mem
    let ends (m : List Host.Cell) : Prop :=
      ∃ t, exec (.arrayPassEnd n) s = .next t ∧ (t.core n.val).arr.running = none ∧
        (t.core n.val).arr.passes = wrapAdd a.passes 1 ∧ t.mem = m
    (∀ sy x y acc, a.running = some (.pass sy x y acc, h) → ends (results s.mem x y acc a.activations.head?)) ∧
    (∀ b, a.running = some (.flush b, h) →
      ends (b.zipIdx.foldl (fun m e => results m e.1.x e.1.y false a.activations[e.2]?) s.mem))

/-- After R152, R155 to R159, R165 to R167, R170, R171, R182, in part: the next tile of an ATT_KV at the head of the queue enters the score
stage with the next 64 keys at most, or is skipped where no key of it is eligible for any row; the oldest staged tile then ends its
value stage and updates every row. An operation that issues with the region on and the queue empty acts at once: ATT_MODE takes its mode
word, ATT_Q opens a sequence with fresh rows, ATT_WALK reads its record and begins with the header, and ATT_OUT normalises the rows,
converts them and writes them to X, with their statistics to Y, and nothing else in memory changes; one whose pattern does not fit the
mode writes nothing and is counted. -/
def Obligations.AttentionStages : Prop :=
  ∀ (n : CoreId) (s : State) (sy : Bool) (x y : Pattern) (rest : List AttOp) (q : Sequence),
    s.coreUp n.val = true → (s.core n.val).regions.attention = .on →
    let a := (s.core n.val).att
    let level := (s.coreEnv n.val).level
    let run (p : Pattern) (w : Int) : RunData := decodeRun (patFormat p) p.n0 (s.scratch n.val w.toNat (patRunBytes p))
    let part (p : Pattern) : List Int := ((patRuns p).drop a.keysTaken).take 64
    let tile : List KeyRow := (List.zipWith (fun k v => (run x k, run y v)) (part x) (part y)).mapIdx
      fun j kv => ⟨a.nextKv + j, kv.1, kv.2⟩
    (∀ (w : Slots) (xi yi : BitVec 8), IssuesClean s n.val w → a.queue = [] → a.walkRetired = false →
      let px := decodePattern (s.patRecord n.val xi.toNat)
      let py : Option Pattern := if yi = 0xFF then none else some (decodePattern (s.patRecord n.val yi.toNat))
      let bytes (p : Pattern) : List Byte := (patRuns p).flatMap fun w => s.scratch n.val w.toNat (patRunBytes p)
      let f := outFormat a.mode
      let d := headDim a.mode
      (w.a = .attMode sy xi → ∃ t, exec (.attMode n sy xi) s = .next t ∧
        (t.core n.val).att.mode = BitVec.ofNat 64 (leNat (bytes px)) ∧ (t.core n.val).att.queue = []) ∧
      (w.a = .attQ sy xi yi → a.next = none → ∃ t o, exec (.attQ n sy xi yi) s = .next t ∧ (t.core n.val).att.seq = some o ∧
        (t.core n.val).att.queue = [] ∧
        let context : BitVec 128 := BitVec.ofNat 128 (leNat (((py.map bytes).getD (List.replicate 16 0)).take 16))
        o.rows = patRunCount px ∧ o.state = List.replicate o.rows RowState.start ∧ o.qPos = (field context 0 32).toNat ∧
        o.kvPos = (field context 32 32).toNat ∧ (t.core n.val).att.nextKv = o.kvPos ∧
        (∀ g, queryFormat a.mode = some (g, false) → o.queries = (patRuns px).map (run px))) ∧
      (w.a = .attWalk sy xi → a.seq = some q → q.error = false → a.walk = none →
        recordError (s.localOf n.val) (parseWalkRecord (bytes px)) = false →
        ∃ t k, exec (.attWalk n sy xi) s = .next t ∧ (t.core n.val).att.walk = some k ∧ k.phase = .header ∧
          k.record = parseWalkRecord (bytes px) ∧
          k.reads = [newRead (s.localOf n.val) none (lineUnit (s.coreEnv n.val).capList k.record.table)]) ∧
      (w.a = .attOut sy xi yi → a.seq = some q →
        (patFormat px = f → px.n0 = rowElems f d →
          let rows := q.state.map fun r => if q.error ∨ r.poisoned then nanRow f d else (outRow f d (rowOutput level d r)).bytes
          let l := (s.localOf n.val).writeRuns (patRuns px) rows
          let stats (p : Pattern) : List (List Byte) := (chunks p.n0 (2 * q.rows) (rowStats q.state q.error)).map wordsToBytes
          ∃ t, exec (.attOut n sy xi yi) s = .next t ∧ (t.core n.val).att.seq = none ∧
            t.mem = ((py.map fun p => l.writeRuns (patRuns p) (stats p)).getD l).mem) ∧
        (patFormat px ≠ f ∨ px.n0 ≠ rowElems f d → ∃ t, exec (.attOut n sy xi yi) s = .next t ∧ (t.core n.val).att.seq = none ∧
          t.mem = s.mem ∧ (t.core n.val).att.modeErrors = if q.error then a.modeErrors else satAdd a.modeErrors 1))) ∧
    (a.seq = some q → q.error = false → kvMismatch level a.mode x y = false →
      (a.queue = .kv sy x y :: rest → a.staged.length < 2 → a.keysTaken < patRunCount x →
        (tile.any fun k => eligibleAny a.mode q k.pos) = true →
        ∃ t, exec (.attScoreStage n) s = .next t ∧ (t.core n.val).att.staged = a.staged ++ [tile] ∧
          (t.core n.val).att.keysTaken = a.keysTaken + tile.length ∧
          (t.core n.val).att.nextKv = a.nextKv + tile.length ∧ (t.core n.val).att.skipped = a.skipped) ∧
      (a.queue = [.kv sy x y] → a.staged.length < 2 → a.keysTaken < patRunCount x →
        (tile.any fun k => eligibleAny a.mode q k.pos) = false →
        ∃ t, exec (.attScoreStage n) s = .next t ∧ (t.core n.val).att.staged = a.staged ∧
          (t.core n.val).att.skipped = wrapAdd a.skipped 1) ∧
      (∀ first later, a.staged = first :: later → a.queue = [.kv sy x y] → (s.core n.val).seq.run ≠ .stopped →
        (s.core n.val).scr.badParity = [] →
        ∃ t, exec (.attValueStage n) s = .next t ∧ (t.core n.val).att.staged = later ∧
          (t.core n.val).att.tileCount = wrapAdd a.tileCount 1 ∧
          ((t.core n.val).att.seq.map (·.state)) = some (tileRows level a.mode q first)))

/-! ## Walks, steps and banks -/

/-- After R186, R189, R190, in part: a scoring command that has reached a Cuff has it read the entries that it holds in slots of its own on
its channel rings, and its list waits for the rings toward the core behind them; once both have been served, the core has that Cuff's list:
the forced candidates and the best K_TOP others among the entries that pass the filter. No other list changes. -/
def Obligations.WalkScoresAtCuff : Prop :=
  (∀ (n : CoreId) (k : CuffId) (s : State) (w : Walk) (h : TableHeader) (i : Nat) (x : WalkTurns) (rest : List AttOp) (sy : Bool)
      (p : Pattern) (lap : BitVec 2) (word : BitVec 28),
      let a := (s.core n.val).att
      let l := s.localOf n.val
      let units := scoreUnits l w h k.val
      s.coreUp n.val = true → s.cuffGone k.val = false → a.queue = .walk sy p lap word :: rest → a.walkRetired = false →
      windsDown (s.core n.val) = false → a.walk = some w → w.phase = .score → w.header = some h → units ≠ [] →
      scoringWalk a k.val = some (i, x) → x.serial = a.walkSerial → k.val ∉ x.counted → mapHas w.scores k.val = false →
      ∃ t w', exec (.walkScoreCommand n k) s = .next t ∧ (t.core n.val).att.walk = some w' ∧
        mapGet ⟨none, [], [], [], true⟩ w'.scores k.val = ⟨none, units, listTransit l.env w.record, [], false⟩ ∧
        w'.lists = w.lists ∧ w'.record = w.record ∧ t.mem = s.mem ∧
        ∀ j, j < (s.cuff k.val).channels.length → (t.chan k.val j).turns = addWork (s.chan k.val j).turns
          ⟨n.val, 2, x.lap, x.word, x.record.turnsScore, units.countP fun u => u.ring == ringKey 5 (20 * k.val + j), false⟩) ∧
  (∀ (l : Local) (k : Nat) (w : Walk) (h : TableHeader) (r : WalkRead),
      l.core.att.walk = some w → w.phase = .score → w.header = some h → mapHas w.lists k = false → r.failed = false →
      (w.scores.find? fun e => e.1 == k && readDone e.2) = some (k, r) →
      let d := headDim l.core.att.mode
      let entry (i : Nat) (len : Nat) : List Byte := memRead r.got (entryAddr w.record.table d h.cSlots i) len
      let found := (cuffEntries l w.record h k).filterMap fun i =>
        (filterEntry l w.record i (entry i 16)).1.map fun c =>
          scoreEntry d h.cSlots w.record w.probes c (entry i (entryBytes d h.cSlots))
      ∃ w', (l.takeLists [k]).core.att.walk = some w' ∧
        mapGet [] w'.lists k = selectPages w.record.kTop found ∧
        (∀ j, j ≠ k → mapGet [] w'.lists j = mapGet [] w.lists j) ∧
        w'.candidates = w.candidates + found.length ∧ w'.record = w.record ∧
        w'.badPages = w.badPages + ((cuffEntries l w.record h k).filter fun i => (filterEntry l w.record i (entry i 16)).2).length)

/-- After R185, in part: an entry i is a candidate of a walk when FIRST_PAGE ≤ i < FIRST_PAGE + PAGE_COUNT, VALID = 1 and VALID_KEYS ≥ 1, every
reserved field of the page-table entry is zero, and at least one key of the page is eligible for at least one row of the
sequence. An entry that fails only on a nonzero reserved field adds one to BAD_PAGES. -/
def Obligations.CandidateEntries : Prop :=
  ∀ (l : Local) (r : WalkRecord) (h : TableHeader) (w : Walk) (i cSlots : Nat) (bytes summary : List Byte) (q : Sequence),
    l.core.att.seq = some q →
    let v := leNat (bytes.take 16)
    let usable := natField v 0 1 = 1 ∧ 1 ≤ natField v 32 7
    let clean := natField v 2 30 = 0 ∧ natField v 39 11 = 0 ∧ natField v 92 4 = 0
    let seen := ∃ k row, k < natField v 32 7 ∧ row < q.rows ∧
      eligible l.core.att.mode q (natField v 96 32 + k) (rowPos l.core.att.mode q row) = true
    ((∃ k, i ∈ cuffEntries l r h k) ↔ r.firstPage ≤ i ∧ i < r.firstPage + r.pageCount) ∧
    ((filterEntry l r i bytes).1.isSome = true ↔ usable ∧ clean ∧ seen) ∧
    ((filterEntry l r i bytes).2 = true ↔ usable ∧ ¬clean ∧ seen) ∧
    ((usable ∧ ¬clean ∧ seen) → (noteEntry cSlots w (filterEntry l r i bytes) summary).badPages = w.badPages + 1) ∧
    (¬(usable ∧ ¬clean ∧ seen) → (noteEntry cSlots w (filterEntry l r i bytes) summary).badPages = w.badPages)

/-- After R187, in part: where the walk rechecks its table (GEN_RECHECK = 1), the merge selects exactly the forced candidates and
those others that fewer than K_TOP others rank before: by score, NaN last, then by index. The entries of a page table are
distinct. -/
def Obligations.WalkSelectsBestPages : Prop :=
  ∀ (n : CoreId) (s : State) (w : Walk) (sy : Bool) (x : Pattern) (lap : BitVec 2) (word : BitVec 28)
    (rest : List AttOp), s.coreUp n.val = true → (s.core n.val).att.queue = .walk sy x lap word :: rest → (s.core n.val).att.walkRetired = false →
    windsDown (s.core n.val) = false → (s.core n.val).att.walk = some w → w.phase = .merge → bit (s.core n.val).ctrl.walkCtrlNow 0 = true →
    ((w.lists.flatMap (·.2)).map (·.index)).Nodup →
    let all := w.lists.flatMap (·.2)
    ∃ t w', exec (.walkMerge n) s = .next t ∧ (t.core n.val).att.walk = some w' ∧ w'.phase = .recheck ∧
      (∀ c, c ∈ w'.selected ↔ c ∈ all ∧ (c.forced = true ∨
        (all.filter fun d => !d.forced && ranksBefore d c).length < w.record.kTop)) ∧
      (w'.selected.map (·.index)).Pairwise (· < ·)

/-- After R191, R195, in part: a walk whose reads have all been served writes its 64-byte report to REPORT_WORD and retires; it is
counted. -/
def Obligations.WalkRetiresWithReport : Prop :=
  ∀ (n : CoreId) (s : State) (w : Walk) (sy : Bool) (x : Pattern) (lap : BitVec 2) (word : BitVec 28),
    s.coreUp n.val = true → (s.core n.val).att.queue = [.walk sy x lap word] → (s.core n.val).att.walk = some w → w.phase = .done →
    w.record.reportWord + 16 ≤ 1572864 →
    ∃ t, exec (.walkRetire n) s = .next t ∧ (t.core n.val).att.walk = none ∧
      (t.core n.val).att.walks = wrapAdd (s.core n.val).att.walks 1 ∧
      t.scratch n.val w.record.reportWord 64 = walkReport w ∧
      ∀ a, (a < scratchAddr n.val (4 * w.record.reportWord) ∨ scratchAddr n.val (4 * w.record.reportWord) + 64 ≤ a) →
        memGet t.mem a = memGet s.mem a

/-- After R175, R210, in part: once every operation issued has completed, a step with a parity error starts again: the state of Table 10-5 is
as it was recorded, that of the registers, the patterns, the loops and the private segment, the array's current load and gather settings and
the attention state with its open sequence; every queue is empty, nothing of a walk is in progress, what each operation of the step has
presented is kept for it, memory is as the step left it, and the re-execution is counted. The restart is one row: log entry 34. -/
def Obligations.StepStartsAgain : Prop :=
  ∀ (n : CoreId) (s : State) (r : StepRecord),
    s.coreUp n.val = true → (s.core n.val).step.parity = true → (s.core n.val).seq.run = .running →
    settled (s.core n.val) = true → (s.core n.val).step.record = some r →
    ∃ t, exec (.stepReexecution n) s = .next t ∧ t.mem = s.mem ∧
      let c := t.core n.val
      c.seq.position = wordIndex r.word ∧ c.seq.regs = r.regs ∧ c.seq.patterns = r.patterns ∧ c.seq.loops = r.loops ∧
      c.seq.priv = r.priv ∧ c.seq.privDepth = r.privDepth ∧ c.seq.run = .running ∧
      c.moveQ = [] ∧ c.shown = [] ∧ c.vec.queue = [] ∧ c.vec.regs = (s.core n.val).vec.regs ∧
      c.arr.queue = [] ∧ c.arr.running = none ∧ c.arr.gather = [] ∧ c.arr.current = r.current ∧ c.arr.gatherCfg = r.gatherCfg ∧
      c.att.queue = [] ∧ c.att.issue = r.attIssue ∧ c.att.issueRows = r.attIssueRows ∧ c.att.mode = r.attMode ∧
      c.att.modeError = r.attModeError ∧ c.att.seq = r.attSeq ∧ c.att.nextKv = r.attNextKv ∧ c.att.next = none ∧
      c.att.staged = [] ∧ c.att.tiles = [] ∧ c.att.walk = none ∧ c.att.keysTaken = 0 ∧
      c.step.parity = false ∧ c.step.retrying = true ∧ markIsNop c = true ∧ c.step.opCount = 0 ∧
      c.step.log = presentedLog (s.core n.val) ∧ c.scr.reexecutions = satAdd (s.core n.val).scr.reexecutions 1

/-- After R212, in part: with no set active, a marked bank moves to the spare bank where the spare serves none; where it serves one
already, the core goes dark with its physical core. The substitution is one row: log entry 41. -/
def Obligations.BankRetires : Prop :=
  ∀ (n : CoreId) (selfTest : Bool) (s : State),
    let c := (s.core n.val).scr
    c.pendingBank ≠ 0xFF → s.set.running = false → (s.entry n.val).state ≠ .absent →
    (c.spareFor = 0xFF → ∃ t, exec (.bankRetire n selfTest) s = .next t ∧ (t.core n.val).scr.spareFor = c.pendingBank ∧
      (worstBank (t.core n.val) = none → (t.core n.val).scr.pendingBank = 0xFF) ∧ t.mgmt.gen = wrapAdd s.mgmt.gen 1 ∧ t.map = s.map ∧ t.mem = s.mem) ∧
    (c.spareFor ≠ 0xFF → s.physState (s.physOf n.val) = .active → ∃ t, exec (.bankRetire n selfTest) s = .next t ∧
      physDark (t.physState (s.physOf n.val)) = true)

/-! ## Credit messages -/

/-- After R213, Table 10-7, in part: a CREDIT_TAKE's unit served in its slot is refused while the window is not valid, is granted
once the window is free or already its own, which makes the taker its holder, and waits while another core holds it. The answer
completes a CREDIT_TAKE that stands alone in the MOVE queue: with a GRANT the taker holds the window with the target's
configuration; a REFUSE is a misuse, counted. A CREDIT_GIVE that was judged good frees its window at the target. When the answer
completes a take is the model's reading: log entry 29. -/
def Obligations.CreditHandshake : Prop :=
  (∀ (target taker : CoreId) (window : BitVec 4) (s : State) (i : Nat) (o : MoveOp) (slot : RingSlot) (h : Nat),
      let key := ringKey 1 target.val
      let w := window.toNat
      s.ringTurn key = true → s.coreHeld taker.val = false →
      nextMove (s.core taker.val).moveQ key = some (i, o) → isTake o.op = true →
      creditOf o = some (target.val, w) → s.slotOf key = some slot → slot.kind = .owner → slot.owner = taker.val →
      lapMatch o.lap (s.ring key).lap = .equal →
      let cfg := windowNow (s.core target.val).scr w
      let valid := bit cfg 7
      let answers (k : CreditKind) (holder : WindowHolder) : Prop :=
        ∃ t, exec (.take target taker window 0) s = .next t ∧ t.holder target.val w = holder ∧
          t.credit = s.credit ++ [⟨k, target.val, taker.val, w, (s.core target.val).seq.lap.setWidth 2, cfg⟩]
      (valid = false → answers .refuse (s.holder target.val w)) ∧
      (valid = true → s.holder target.val w = .free → answers .grant (.core taker.val)) ∧
      (valid = true → s.holder target.val w = .core taker.val → answers .grant (.core taker.val)) ∧
      (valid = true → s.holder target.val w = .core h → h ≠ taker.val →
        ∃ t, exec (.take target taker window 0) s = .next t ∧ t.holder target.val w = .core h ∧ t.credit = s.credit ∧
          ∀ m, t.core m = s.core m)) ∧
  (∀ (target taker : CoreId) (window : BitVec 4) (s : State) (o : MoveOp) (m : CreditMessage),
      (s.core taker.val).moveQ = [o] → awaiting [o] target.val window.toNat = some 0 → target ≠ taker →
      let w := window.toNat
      let first (k : CreditKind) : Prop :=
        (s.credit.find? fun x => x.kind == k && x.target == target.val && x.other == taker.val && x.window == w) = some m
      (first .grant →
        ∃ t, exec (.grant target taker window 0) s = .next t ∧ (t.core taker.val).moveQ = [] ∧
          (target.val, w, 0x80 ||| (m.groups &&& 0x77)) ∈ (t.core taker.val).scr.granted ∧ t.credit = s.credit.erase m) ∧
      (first .refuse →
        ∃ t, exec (.refuse target taker window 0) s = .next t ∧ (t.core taker.val).moveQ = [] ∧
          (t.core taker.val).scr.misuse = satAdd (s.core taker.val).scr.misuse 1 ∧
          (t.core taker.val).scr.granted = (s.core taker.val).scr.granted ∧ t.credit = s.credit.erase m)) ∧
  (∀ (target giver : CoreId) (window : BitVec 4) (s : State) (o : MoveOp) (rest : List MoveOp),
      (s.core giver.val).moveQ = o :: rest → isGive o.op = true → o.judged = true → o.resp = none →
      creditOf o = some (target.val, window.toNat) → s.panelAnswers (target.val / 64) = true → s.coreHeld giver.val = false → s.holder target.val window.toNat = .core giver.val →
      ∃ t, exec (.give target giver window 0) s = .next t ∧ t.holder target.val window.toNat = .free ∧
        ∀ k, k ≠ window.toNat → t.holder target.val k = s.holder target.val k)

/-- After R214, R215, in part: a WRITE message whose flits have crossed stores its bytes, the rest of the last word zero, at its
place in the target's scratchpad, and no other byte of memory changes. -/
def Obligations.WriteStoresAtTarget : Prop :=
  ∀ (target sender : CoreId) (window : BitVec 4) (s : State) (i : Nat) (o : MoveOp) (u : MemUnit),
    (∀ p, p < 8 → s.panelAnswers p = true) → (s.core sender.val).supply.gateClosed = false → readyWrite (s.localOf sender.val) target.val window.toNat = some (i, o, u) →
    (s.core sender.val).att.queue = [] → 1 ≤ u.len → u.len ≤ 1024 → u.addr + u.len ≤ 1572864 →
    let bytes := writeBytes (s.localOf sender.val) o u
    let a := scratchAddr target.val (4 * u.addr)
    ∃ t, exec (.write target sender window 0) s = .next t ∧ memRead t.mem a bytes.length = bytes ∧
      ∀ x, (x < a ∨ a + (bytes.length + 3) / 4 * 4 ≤ x) → memGet t.mem x = memGet s.mem x

/-! ## Order rings -/

/-- After R46, R48, R76, R84, R273, in part: a unit of a core's operation served in its slot by the ring that it waits for. A store's unit takes
its bytes from the scratchpad as the first ring serves it and carries them over its route; at its memory a MOVE_OUT's bytes stand at its
device address, and an ATOMIC_ADD's elements are added to what stands there. A MOVE_IN's unit takes its bytes as its memory's ring serves
it, and they stand in the scratchpad with its last ring. A FETCH_ROSTER's unit adds its words to its cache block. No other byte of memory
changes. A lap tag of an earlier lap stops the core with TURN_MISMATCH instead, recorded, and a tag of the next lap waits. -/
def Obligations.OwnerServesUnits : Prop :=
  ∀ (cls inst : Nat) (n : CoreId) (s : State) (slot : RingSlot) (i : Nat) (o : MoveOp) (u : MemUnit) (p pf : Pattern)
    (tl sy : Bool) (sa : RegId) (ps pt : BitVec 8) (block : BitVec 4),
    let key := ringKey cls inst
    2 ≤ cls → cls ≤ 5 → inst < 65536 → s.ringTurn key = true → (s.core n.val).supply.gateClosed = false →
    (∀ p, p < 8 → s.panelAnswers p = true) →
    s.slotOf key = some slot → slot.kind = .owner → slot.owner = n.val → (s.core n.val).seq.lapRecordDue = false →
    nextMove (s.core n.val).moveQ key = some (i, o) → o.halted = false →
    (o.units.find? fun x => unitRing o.op x == key) = some u → (s.core n.val).att.queue = [] →
    let l := s.localOf n.val
    let carried := (o.data.find? fun e => e.1 == u.off).map (·.2.1)
    let serves (q : State → Prop) : Prop :=
      ∃ t, exec (.ownerRequest cls inst n.val false) s = .next t ∧ (t.core n.val).seq.regs = (s.core n.val).seq.regs ∧ q t
    let carries (t : State) (bs : List Byte) : Prop :=
      t.mem = s.mem ∧ ∃ x ∈ (t.core n.val).moveQ, x.word = o.word ∧ x.op = o.op ∧ ∃ bad, (u.off, bs, bad) ∈ x.data
    (lapMatch o.lap (s.ring key).lap = .equal →
      (o.op = .moveOut tl sy sa ps pt → o.patS = some p →
        let bytes := l.streamBytes 65 p u.off u.len
        (carried = none → bytes.2 = [] → u.route ≠ [] → serves (carries · bytes.1)) ∧
        (∀ bs, carried = some bs → u.route ≠ [] → serves (carries · bs)) ∧
        (u.route = [] → carried = none → bytes.2 = [] → unitDead (s.coreEnv n.val) u.addr = false →
          serves fun t => t.mem = memWrite s.mem u.addr bytes.1) ∧
        (∀ bs, u.route = [] → carried = some bs → unitDead (s.coreEnv n.val) u.addr = false →
          serves fun t => t.mem = memWrite s.mem u.addr bs)) ∧
      (o.op = .atomicAdd tl sy sa ps pt → o.patS = some p → o.patF = some pf → u.route = [] →
        unitBad (s.coreEnv n.val) u.addr = false →
        let a := addRange pf u
        let bytes := l.streamBytes 65 p (a.1 * a.2.2) (a.2.1 * a.2.2)
        carried.isSome = true ∨ bytes.2 = [] →
        serves fun t => t.mem = (l.addElems (patFormat pf) (u.addr + (a.1 * a.2.2 - u.off))
          ((chunks a.2.2 64 (carried.getD bytes.1)).map leNat)).mem) ∧
      (o.op = .moveIn tl sy sa ps pt → o.patS = some p →
        let bs := if u.ring ≠ 0 then memRead s.mem u.addr u.len else carried.getD (memRead s.mem u.addr u.len)
        (u.readOn = none → serves fun t => t.mem = (l.placeBytes 65 p u.off bs false).mem) ∧
        (u.readOn.isSome = true → u.ring ≠ 0 ∨ carried.isSome = true → serves (carries · bs))) ∧
      (o.op = .fetchRoster tl sy sa block → serves fun t => t.mem = s.mem ∧ (t.core n.val).seq.cache =
        (fillBlock (s.core n.val).seq block.toNat o.sVal.toNat u.off (memRead s.mem u.addr 64)
          (unitBad (s.coreEnv n.val) u.addr)).cache)) ∧
    (lapMatch o.lap (s.ring key).lap = .mismatch → (s.core n.val).seq.stoppedByFault = false →
      serves fun t => t.mem = s.mem ∧ (t.core n.val).seq.fault = ⟨true, 1, 2, o.word⟩ ∧ (t.core n.val).seq.run = .stopped ∧
        ((s.core n.val).moveQ = [o] → creditOf o = none → (s.core n.val).arr.queue = [] →
          t.log = (s.file (mkReport 0x10 (n.val / 64) (s.entry n.val).phys (n.val + o.word.toNat * 2 ^ 20) 0x201)).log)) ∧
    (lapMatch o.lap (s.ring key).lap = .ahead →
      serves fun t => t.mem = s.mem ∧ (t.ring key).slot = (s.ring key).slot ∧ (t.ring key).used = (s.ring key).used ∧
        (t.core n.val).moveQ = (s.core n.val).moveQ)

/-- After R46, R52, R290, in part: a hub agent's slot serves one of its pending units at a request, and that of an engine with no
transfer pending ends by itself. At a host opening, with no BAR4 request, fence or clash request waiting, the host queue engine's pending
units are served first, then those of each hub DMA engine in ascending number, each in what is left of the opening; the opening counts as
used where one was served, else as idle. The transfers have gone on as far as they can (log entry 21), and the units at hand go on over
further rings. The order among agents inside an opening: log entry 46. -/
def Obligations.HubAgentsAreServed : Prop :=
  ∀ (cls inst : Nat) (s : State) (slot : RingSlot),
    let key := ringKey cls inst
    let r := s.ring key
    let pending (a : Nat) : Nat := s.hubPending key a
    s.host.partials = [] →
    (∀ x ∈ s.host.transfers, x.units ≠ [] ∧ s.judgeTransfer x = x ∧ (x.units.map (·.off)).Nodup ∧
      ∀ u ∈ x.units, u.route.head? = some key →
        (u.data.isSome = true ∨ x.writing = true) ∧ u.route.tail ≠ [] ∧ u.route.tail.head? ≠ some key) →
    (∀ owner, s.ringTurn key = true → 0x200 ≤ owner → owner < 0x220 → s.slotOf key = some slot → slot.kind = .owner →
      slot.owner = owner →
      (0 < pending owner → ∃ t, exec (.ownerRequest cls inst owner false) s = .next t ∧
        t.hubPending key owner = pending owner - 1 ∧
        (1 < pending owner → r.used + 1 < slot.units → (t.ring key).slot = r.slot ∧ (t.ring key).used = r.used + 1) ∧
        t.mem = s.mem ∧ ∀ m, t.core m = s.core m) ∧
      (pending owner = 0 → owner < 0x208 → bit s.host.busy (owner - 0x200) = false → r.opensNext key →
        ∃ t, exec (.ownerRequest cls inst owner false) s = .next t ∧ r.wentOn key (t.ring key) ∧ ∀ m, t.core m = s.core m)) ∧
    (s.openingAt key .host = some slot → s.host.requests = [] → r.clashes = [] → s.host.fences = [] →
      let before (e : Nat) : Nat := pending 0x210 + ((List.range e).map fun j => pending (0x200 + j)).sum
      ∃ t, exec (.hostOpening cls inst) s = .next t ∧
        t.hubPending key 0x210 = pending 0x210 - slot.units ∧
        (∀ e, e < 8 → t.hubPending key (0x200 + e) = pending (0x200 + e) - (slot.units - before e)) ∧
        (0 < min slot.units (before 8) → mapGet 0 (t.ring key).usedCounts 1 = wrapAdd (mapGet 0 r.usedCounts 1) 1) ∧
        (min slot.units (before 8) = 0 → mapGet 0 (t.ring key).idleCounts 1 = wrapAdd (mapGet 0 r.idleCounts 1) 1))

/-- After R53, R225, R227, R256, in part: a refresh that falls due adds one to the debt of its column or channel while an order ring
serves it and its ring does not wait in an owner slot (log entry 24); a column that no ring serves performs every due refresh at
once, in group rotation. A refresh opening pays one refresh that is due on its memory, or is idle; an owner slot that follows may
pay another. -/
def Obligations.RefreshDebt : Prop :=
  (∀ (cls inst : Nat) (s : State) (slot : RingSlot),
      let key := ringKey cls inst
      (cls = 2 ∨ cls = 5) → inst < 65536 → (cls = 5 → (s.cuff (inst / 20)).seq = none) → s.openingAt key .refresh = some slot →
      (0 < s.debtOf key → ∃ t, exec (.refreshOpening cls inst) s = .next t ∧ t.debtOf key + 1 ≤ s.debtOf key ∧
        ((s.ring key).opensNext key → t.debtOf key + 1 = s.debtOf key ∧
          mapGet 0 (t.ring key).usedCounts 2 = wrapAdd (mapGet 0 (s.ring key).usedCounts 2) 1)) ∧
      (s.debtOf key = 0 → ∃ t, exec (.refreshOpening cls inst) s = .next t ∧ t.debtOf key = 0 ∧
        mapGet 0 (t.ring key).idleCounts 2 = wrapAdd (mapGet 0 (s.ring key).idleCounts 2) 1)) ∧
  (∀ (col : PhysId) (k : CuffId) (slot : Fin 20) (n : Nat) (s : State),
      let key := ringKey 5 (20 * k.val + slot.val)
      ((s.panel (col.val / 68)).powered = true →
        (s.selfRefreshes col.val = true → ∃ t, exec (.pocketRefreshDue ⟨col, []⟩) s = .next t ∧ (t.column col.val).debt = 0 ∧
          ((s.column col.val).debt = 0 →
            (t.column col.val).counts = modifyNth (s.column col.val).counts (s.column col.val).nextGroup (· + 1))) ∧
        (s.selfRefreshes col.val = false → s.slotOwner col.val = some n →
          (∀ x, s.slotOf (ringKey 2 n) = some x → x.kind ≠ .owner) →
          ∃ t, exec (.pocketRefreshDue ⟨col, []⟩) s = .next t ∧ (t.column col.val).debt = (s.column col.val).debt + 1 ∧
            (t.column col.val).counts = (s.column col.val).counts)) ∧
      (slot.val < 16 → slot.val < (s.cuff k.val).channels.length → (s.chan k.val slot.val).state ≠ .mappedOut →
        s.ringRuns key = true →
        (∀ x, s.slotOf key = some x → x.kind ≠ .owner) →
        ∃ t, exec (.cuffRefreshDue k ⟨slot, []⟩) s = .next t ∧ (t.chan k.val slot.val).debt = (s.chan k.val slot.val).debt + 1))

/-- After R52, R91, R325, in part: a switch-on opening starts the ramp of the first region in mask order that is asked for and whose
switch-off does not wait (log entry 49), or is idle. At the end of a ramp, the region that ramped first in mask order is on, and every other region's ramp goes on. -/
def Obligations.RegionRamps : Prop :=
  (∀ (n : CoreId) (s : State) (slot : RingSlot) (i : Nat), s.openingAt (ringKey 2 n.val) .switchOn = some slot →
      let r := (s.core n.val).regions
      (i < 4 → bit (startable r) i = true → (∀ j, j < i → bit (startable r) j = false) →
        ∃ t, exec (.switchOnOpening n) s = .next t ∧
          bit (t.core n.val).regions.requested i = false ∧
          (∀ j, j ≠ i → bit (t.core n.val).regions.requested j = bit r.requested j) ∧
          (t.core n.val).regions.array = (if i = 0 then .ramping else r.array) ∧
          (t.core n.val).regions.attention = (if i = 1 then .ramping else r.attention) ∧
          (t.core n.val).regions.vector = (if i = 2 then .ramping else r.vector) ∧
          (t.core n.val).regions.gather = (if i = 3 then .ramping else r.gather)) ∧
      (startable r = 0 → ∃ t, exec (.switchOnOpening n) s = .next t ∧ (t.core n.val).regions = r ∧
        mapGet 0 (t.ring (ringKey 2 n.val)).idleCounts 3 = wrapAdd (mapGet 0 (s.ring (ringKey 2 n.val)).idleCounts 3) 1)) ∧
  (∀ (n : CoreId) (s : State), s.coreUp n.val = true → offPending (s.core n.val) = 0 →
      let r := (s.core n.val).regions
      ∃ t, exec (.regionRampEnd n) s = .next t ∧
        (t.core n.val).regions.array = (if r.array = .ramping then .on else r.array) ∧
        (t.core n.val).regions.attention = (if r.array ≠ .ramping ∧ r.attention = .ramping then .on else r.attention) ∧
        (t.core n.val).regions.vector =
          (if r.array ≠ .ramping ∧ r.attention ≠ .ramping ∧ r.vector = .ramping then .on else r.vector) ∧
        (t.core n.val).regions.gather =
          (if r.array ≠ .ramping ∧ r.attention ≠ .ramping ∧ r.vector ≠ .ramping ∧ r.gather = .ramping then .on else r.gather))

/-- After R229, R364, R369 to R371, Table 17-5, in part: a scrub opening takes one step of the first pass with a part on its ring, or is
idle; a log opening of the error-log ring moves records of its source to the write queue in order, one of a Seam ring toward the Yoke
carries records of its Panel across, and one of crossbar port 28 writes the next record's 32 bytes to the host log ring while that is
enabled and has space: no other byte of host memory changes, TAIL and the phase move on, and vector 64 signals where it is due. -/
def Obligations.ScrubAndLogOpenings : Prop :=
  ∀ (cls inst i : Nat) (s : State) (slot : RingSlot) (p : ScrubPass),
    let key := ringKey cls inst
    let g := inst / 4
    let src := s.logSource g
    let l := s.log
    (s.openingAt key .scrub = some slot → (cls = 5 → s.copying (inst / 20) (inst % 20) = none) →
      (s.passOf key = some (i, p) → (cls = 2 ∨ cls = 5) →
        ∃ t q, exec (.scrubOpening cls inst) s = .next t ∧ t.scrubs[i]? = some q ∧ q.steps = p.steps + 1 ∧
          q.parts = (p.parts.filterMap fun x =>
            if x.ring = key then (if x.next + 1 < x.stop then some { x with next := x.next + 1 } else none) else some x)) ∧
      (s.passOf key = none →
        ∃ t, exec (.scrubOpening cls inst) s = .next t ∧ t.scrubs = s.scrubs ∧
          mapGet 0 (t.ring key).idleCounts 4 = wrapAdd (mapGet 0 (s.ring key).idleCounts 4) 1)) ∧
    (s.openingAt key .log = some slot →
      (cls = 7 →
        ∃ t, exec (.logOpening cls inst) s = .next t ∧ t.log.writes = l.writes ++ (s.logSource slot.owner).queue.take
          (min slot.units (min (logReady slot.owner (s.logSource slot.owner)) (512 - l.writes.length)))) ∧
      (cls = 4 → inst % 2 = 1 → g < 8 → src.crossed ≤ src.queue.length →
        ∃ t, exec (.logOpening cls inst) s = .next t ∧ (t.logSource g).queue = src.queue ∧
          (t.logSource g).crossed = min src.queue.length (src.crossed + 2 * slot.units)) ∧
      (cls = 3 → inst = 28 → 0 < slot.units →
        (∀ r, l.writes = [r] → l.enabled = true → l.hasSpace = true →
          ∃ t, exec (.logOpening cls inst) s = .next t ∧ t.log.writes = [] ∧ t.log.tail = (l.tail + 1) % l.size ∧
            t.log.phase = (if l.tail + 1 = l.size then !l.phase else l.phase) ∧
            (∀ x, memGet t.out.hostMem x = if l.base.toNat + 32 * l.tail ≤ x ∧ x < l.base.toNat + 32 * l.tail + 32 then
              (recordBytes r l.phase).getD (x - (l.base.toNat + 32 * l.tail)) 0 else memGet s.out.hostMem x) ∧
            (logSignals l r = true → msixMasked s.host 64 = false → t.out.msix = 64 :: s.out.msix)) ∧
        (l.enabled = false ∨ l.hasSpace = false → ∃ t, exec (.logOpening cls inst) s = .next t ∧ t.log.writes = l.writes ∧
          t.log.tail = l.tail ∧ t.out = s.out)))

/-- After R43, R55, R64, R240, Tables 03-21 and 17-7, in part: at its boundary a ring begins its next lap in the image that is due; on a
Pocket ring, PK_CTRL takes effect; no other ring changes. An owner slot that has waited past the stall limit is marked stalled and
reported once: a TURN_STALL record with the ring, the owner and the cause is filed at that time (log entry 6); it goes on waiting. Slots
that end by themselves have been passed first. -/
def Obligations.RingLapsAndStalls : Prop :=
  (∀ (cls inst : Nat) (s : State),
      let key := ringKey cls inst
      let r := s.ring key
      inst < 65536 → s.ringRuns key = true → s.ringHeld key = false → r.atEnd = true →
      ∃ t, exec (.ringBoundary cls inst) s = .next t ∧
        (t.ring key).lap = r.lap + 1 ∧ (t.ring key).laps = satAdd r.laps 1 ∧ (t.ring key).toOpen = false ∧
        (t.ring key).use = s.nextImage r ∧ (∀ k, k ≠ key → t.ring k = s.ring k) ∧
        (cls = 2 → (t.column (s.columnOf inst)).ctrlNow = (s.column (s.columnOf inst)).ctrl)) ∧
  (∀ (cls inst : Nat) (s : State) (slot : RingSlot),
      let key := ringKey cls inst
      let u := s.settleRing key
      let r := u.ring key
      u.ringTurn key = true ∨ (u.ringRuns key = true ∧ u.ringHeld key = true) → u.slotOf key = some slot → slot.kind = .owner →
      (r.stalled = false → ∃ t, exec (.turnStall cls inst) s = .next t ∧ t.ring key = { r with stalled := true } ∧
        t.now = max s.now (r.waitSince + s.stallNs + 1) ∧ (∀ m, t.core m = s.core m) ∧
        let at' := u.reach (r.waitSince + s.stallNs + 1)
        t.log = (at'.file (mkReport 0x11 (ringGroup key slot.owner) inst slot.owner (cls * 256 + u.stallCause slot.owner))).log) ∧
      (r.stalled = true → exec (.turnStall cls inst) s = .next u))

/-! ## Cuffs -/

/-- After R252 to R255, R265, Table 12-3, in part: the sender's next flit goes behind those of its retry buffer; the oldest, where it
passes its check, advances the sequence and leaves the buffer, and where it fails is kept and counted as a retry; after 8 replays the lane test leaves half a link where half the lanes pass, and else none, and the channels
of the Cuff are dead. A channel that stops answering is dead. A package takes its temperature row, its multiplier rising at once;
a field that cannot be read gives 4× for good, while TEMP_C goes on with the readings; no other package and no channel of the Cuff changes. The CRC of a flit is an opaque
function: log entry 18. -/
def Obligations.CuffDegrades : Prop :=
  (∀ (k : CuffId) (s : State) (flit : Option (List Byte)) (bytes : List Byte) (crc : Word) (low high : Bool) (slot : Fin 16),
      let c := s.cuff k.val
      let sent := if c.retry.length < 64 then c.retry ++ flit.toList else c.retry
      (s.cuffGone k.val = false →
        (sent ≠ [] → bytes.length = 516 → Config.cuffCrc bytes = crc → ∃ t, exec (.cuffLinkFlit k ⟨flit, bytes⟩ crc) s = .next t ∧
          t.cuff k.val = { c with linkSeq := c.linkSeq + 1, replays := 0, retry := sent.drop 1 }) ∧
        (sent ≠ [] → bytes.length ≠ 516 ∨ Config.cuffCrc bytes ≠ crc → ∃ t, exec (.cuffLinkFlit k ⟨flit, bytes⟩ crc) s = .next t ∧
          t.cuff k.val = { c with linkRetries := satAdd c.linkRetries 1, replays := c.replays + 1, retry := sent }) ∧
        (8 ≤ c.replays → (low || high) = true → ∃ t, exec (.linkLaneTest k low high) s = .next t ∧
          (t.cuff k.val).width = 1 ∧ (t.cuff k.val).replays = 0 ∧ (t.cuff k.val).channels = c.channels) ∧
        (8 ≤ c.replays → (low || high) = false → ∃ t, exec (.linkLaneTest k low high) s = .next t ∧
          t.cuffGone k.val = true ∧
          ∀ n, n < 16 → n < c.channels.length → (s.chan k.val n).state ≠ .mappedOut → (t.chan k.val n).state = .dead)) ∧
      (slot.val < c.channels.length → (s.chan k.val slot.val).state ≠ .dead → (s.chan k.val slot.val).state ≠ .mappedOut →
        ∃ t, exec (.channelDead k slot) s = .next t ∧ (t.chan k.val slot.val).state = .dead ∧
          t.mgmt.gen = wrapAdd s.mgmt.gen 1 ∧ ∀ n, n ≠ slot.val → t.chan k.val n = s.chan k.val n)) ∧
  (∀ (k : CuffId) (pkg : Fin 5) (s : State) (p : Package), (s.cuff k.val).packages[pkg.val]? = some p →
      let takes (reading : TempField) (q : Package → Prop) : Prop :=
        ∃ t x, exec (.packageTempRead k pkg reading) s = .next t ∧ (t.cuff k.val).packages[pkg.val]? = some x ∧ q x ∧
          (t.cuff k.val).channels = (s.cuff k.val).channels ∧
          ∀ i, i ≠ pkg.val → (t.cuff k.val).packages[i]? = (s.cuff k.val).packages[i]?
      (∀ row : Fin 7, p.failed = false → takes (some row) fun x => x.failed = false ∧
        x.tempC = BitVec.ofNat 8 (tempRow row.val).1 ∧ (tempRow row.val).2.toNat ≤ x.mult.toNat) ∧
      (∀ row : Fin 7, p.failed = true → takes (some row) fun x =>
        x = { p with tempC := BitVec.ofNat 8 (tempRow row.val).1, mult := 2 }) ∧
      takes none fun x => x.mult = 2 ∧ x.failed = true)

/-- After R261 to R264, in part: enough errors or a drift finding make a channel wait for retraining where RETRAIN_AUTO is set, and
so does a request. The first waiting sequence begins with the mirror onto a spare, or leaves the channel FAILING without one. At a slot
boundary of the channel's ring the complete mirror is switched to the spare, with the ring held for at most 40 µs; after step 4 a channel
that passes begins its return and is switched back at its end, counted, and one that fails stays on the spare. What counts as a trigger, and
how a sequence takes its time and its test result: log entries 21 and 45. -/
def Obligations.ChannelsRetrain : Prop :=
  ∀ (k : CuffId) (s : State),
    (∀ (slot : Fin 16) (drift : Bool), slot.val < (s.cuff k.val).channels.length →
      let asks := (s.cuff k.val).auto && chanRetrains (s.chan k.val slot.val) &&
        (drift || decide (s.retrainThreshold k.val ≤ ((s.chan k.val slot.val).recent s.now (s.windowNs k.val)).length))
      (asks = true → ∃ t, exec (.retrainTrigger k slot drift) s = .next t ∧ slot.val ∈ (t.cuff k.val).waiting ∧
        (t.chan k.val slot.val).errors = []) ∧
      (asks = false → exec (.retrainTrigger k slot drift) s = .next s)) ∧
    (∀ (path : Path) (value : Word), s.pathOpen path (cfBase k.val + 0x18) = true → s.cuffGone k.val = false →
      bit value 4 = true → chanRetrains (s.chan k.val (field value 0 4).toNat) = true →
      ∃ t, exec (.cfRetrain path k value) s = .next t ∧ (field value 0 4).toNat ∈ (t.cuff k.val).waiting ∧
        (t.cuff k.val).channels = (s.cuff k.val).channels) ∧
    (∀ (slot : Nat) (rest : List Nat) (passes : Bool), (s.cuff k.val).seq = none → (s.cuff k.val).waiting = slot :: rest →
      slot < (s.cuff k.val).channels.length → chanRetrains (s.chan k.val slot) = true →
      ∃ t, exec (.retrainStart k passes) s = .next t ∧ (t.cuff k.val).waiting = rest ∧ t.mgmt.gen = wrapAdd s.mgmt.gen 1 ∧
        (∀ i more, (s.cuff k.val).freeSpares = i :: more → (t.chan k.val slot).state = .mirroring ∧
          ∃ q, (t.cuff k.val).seq = some q ∧ q.slot = slot ∧ q.spare = i ∧ q.pkg = (s.chan k.val slot).pkg ∧
            q.ch = (s.chan k.val slot).ch ∧ q.passes = passes ∧ q.left = 4194304 * 32) ∧
        ((s.cuff k.val).freeSpares = [] → (t.chan k.val slot).state = .failing ∧ (t.cuff k.val).seq = none)) ∧
    (∀ q : Retrain, (s.cuff k.val).seq = some q → q.slot < (s.cuff k.val).channels.length →
      let t := s.seqBoundary k.val q.slot
      let c := s.chan k.val q.slot
      let d := t.chan k.val q.slot
      (c.state = .mirroring → q.left = 0 → d.state = .switched ∧ d.pkg = 4 ∧ d.ch = BitVec.ofNat 2 q.spare ∧
        d.holdUntil ≤ s.now + 40000 ∧ t.mgmt.gen = wrapAdd s.mgmt.gen 1) ∧
      (c.state = .switched → q.ends ≤ s.now → q.passes = true → d.state = .returning ∧
        (t.cuff k.val).seq = some { q with left := 32 * q.dirty.length }) ∧
      (c.state = .switched → q.ends ≤ s.now → q.passes = false → d.state = .spared ∧ (t.cuff k.val).seq = none) ∧
      (c.state = .returning → q.left = 0 → d.state = .active ∧ d.pkg = q.pkg ∧ d.ch = q.ch ∧ d.retrains = satAdd c.retrains 1 ∧
        (t.cuff k.val).seq = none))

/-- After R267 to R272, R275, in part: the command at the head of a Cuff's queue starts once the one before it is complete and the Cuff bus
does not run its open image: it runs with its units at the Cuff's channels, or in error writes nothing and is counted. A unit served in the
Cuff's slot of a channel ring takes a source's bytes as they stand then, or writes what the command's rows give of the bytes so taken, and no
other byte of memory changes; a bus transfer in the Cuff's slot counts its resends and one unit. What an operation on entries or tiles computes,
and at which Cuff, is the model's reading, and the order of its units the model's choice: log entries 19 and 57. -/
def Obligations.NearMemoryCommands : Prop :=
  ∀ (k : CuffId) (s : State), s.isUp = true → s.cuffGone k.val = false → (s.ring (ringKey 6 0)).use ≠ .opened →
    (∀ (c : NearCommand) (rest : List NearCommand), (s.cuff k.val).near = c :: rest → (s.cuff k.val).running = none →
      let r := parseNear c.record
      let units := nearUnits s.cap.list k.val c.base r
      ∃ t, exec (.nearOpCommand k) s = .next t ∧ (t.cuff k.val).near = rest ∧ t.mem = s.mem ∧
        (nearError s.capBytes c.base r = false → units ≠ [] → (t.cuff k.val).running = some ⟨c, units⟩) ∧
        (nearError s.capBytes c.base r = true → (t.cuff k.val).running = none ∧
          (t.cuff k.val).nearErrors = satAdd (s.cuff k.val).nearErrors 1)) ∧
    (∀ (n : Fin 16) (slot : RingSlot) (w : TurnWork) (more : List TurnWork) (run : NearRun) (x : NearUnit),
      let key := ringKey 5 (20 * k.val + n.val)
      s.ringTurn key = true → s.slotOf key = some slot → slot.kind = .owner → slot.owner = 0x220 + k.val →
      (s.chan k.val n.val).turns = w :: more → w.host = false → w.slot = 1 → 0 < w.turns → 0 < w.units →
      lapMatch w.lap (s.ring key).lap = .equal → (s.cuff k.val).running = some run → s.nearNext k.val key = some x →
      run.units.erase x ≠ [] →
      let serves (q : State → Prop) : Prop := ∃ t, exec (.ownerRequest 5 (20 * k.val + n.val) (0x220 + k.val) false) s = .next t ∧
        (t.cuff k.val).running = some { run with units := run.units.erase x } ∧ q t
      (x.kind = .source → (s.cap.near.any fun e => e.runs run.command k.val) = true →
        (s.nearEntry k.val run.command).done.length < 12 →
        serves fun t => t.mem = s.mem ∧
          (x.unit.addr, memRead s.mem x.unit.addr x.unit.len) ∈ (t.nearEntry k.val run.command).got) ∧
      (∀ rows, x.kind = .result rows → s.rowsReady k.val (s.nearEntry k.val run.command) rows = true →
        s.capAnswers x.unit.addr = true →
        serves fun t => t.mem = memWrite s.mem x.unit.addr (s.nearResult (s.nearEntry k.val run.command) rows x.unit).1)) ∧
    (∀ (slot : RingSlot) (resends : Nat) (w : TurnWork) (rest : List TurnWork), s.busReady k.val = true →
      (s.cuff k.val).busTurns = w :: rest → w.host = false → s.slotOf (ringKey 6 0) = some slot →
      (s.ring (ringKey 6 0)).used + 1 < slot.units →
      ∃ t, exec (.cuffBusTransfer k resends) s = .next t ∧ (t.cuff k.val).busRetries = satAdd (s.cuff k.val).busRetries resends ∧
        (t.ring (ringKey 6 0)).used = (s.ring (ringKey 6 0)).used + 1 ∧
        (t.cuff k.val).busTurns = { w with units := w.units - 1 } :: rest)

/-! ## Seams and Panels -/

/-- After R38, R282, R283, in part: a flit that passes its CRC and arrives in order is accepted, and does what its kind says: a NAK makes
the reverse sender send again what it has sent since, beginning with the flit that the receiver waits for, and a TIME_SYNC toward a Panel
gives it the Yoke's counter; a flit that fails a check is discarded, a failure of the flit that the receiver waits for is counted, a NAK is
owed on the reverse link, and the flit has no other effect. What a flit carries is an operand: log entry 25. -/
def Obligations.SeamFlits : Prop :=
  ∀ (f : SeamFlit) (s : State), s.takesFlits f = true →
    let p := s.seam f.port.val
    let m := p.mod (flitKey f)
    let back := p.mod (flitReverseKey f)
    let after (t : State) : SeamModule := (t.seam f.port.val).mod (flitKey f)
    (∀ i kind, (i, kind) ∈ [(Instr.data f, 0), (.idle f, 1), (.ack f, 2), (.nak f, 3), (.timeSync f, 4), (.train f, 5)] →
      (flitPasses f kind m = true → ∃ t, exec i s = .next t ∧ (after t).expect = m.expect + 1 ∧ (after t).failures = 0) ∧
      (flitPasses f kind m = false → ∃ t, exec i s = .next t ∧ (after t).expect = m.expect ∧
        (after t).failures = (if m.sending = m.expect then m.failures + 1 else m.failures) ∧ ((t.seam f.port.val).mod (flitReverseKey f)).nak = true ∧
        (t.seam f.port.val).replays = p.replays ∧ t.time = s.time)) ∧
    (flitPasses f 3 m = true → ∃ t, exec (.nak f) s = .next t ∧ (t.seam f.port.val).replays = satAdd p.replays 1 ∧
      let sender := (t.seam f.port.val).mod (flitReverseKey f)
      sender = back.goBack f.ackSeq ∧
      ((back.next - back.expect).toNat ≤ back.buffer.length → f.ackSeq.toNat = (back.expect.toNat + 15) % 16 →
        sender.sending = back.expect)) ∧
    (flitPasses f 4 m = true → f.up = false → ∃ t, exec (.timeSync f) s = .next t ∧
      mapGet 0 t.time.synced (f.port.val / 2) = s.now)

/-- After R283, R284, in part: a port retires for its replays, a failed lane test or a lost strobe; where it is the Panel's last
port, the Panel is lost; the loss of a Seam PLL isolates the Panel, whose ports go down. -/
def Obligations.PortsRetire : Prop :=
  ∀ (port : PortId) (module : Fin 16) (s : State),
    (s.seam port.val).state ≠ .retired →
    let other := if port.val % 2 = 0 then port.val + 1 else port.val - 1
    let retires (i : Instr) (cause : BitVec 2) : Prop :=
      ∃ t, exec i s = .next t ∧ (t.seam port.val).state = .retired ∧ (t.seam port.val).cause = cause ∧
        (t.seam port.val).module = BitVec.ofNat 4 module.val ∧
        ((s.seam other).state ≠ .retired → (t.seam other).state = (s.seam other).state ∧
          (t.seam other).replays = (s.seam other).replays ∧ ∀ p, t.panel p = s.panel p) ∧
        ((s.seam other).state = .retired → (t.panel (port.val / 2)).state = .lost)
    (s.replaysReached port.val module.val = true → retires (.seamPortRetire port module .replays) 1) ∧
    retires (.seamPortRetire port module .laneTest) 3 ∧ retires (.strobeLoss port module) 2 ∧
    (∀ p : PanelId, (s.panel p.val).state = .present → ∃ t, exec (.seamPllLoss p) s = .next t ∧
      (t.panel p.val).state = .isolated ∧ (t.panel p.val).isolations = satAdd (s.panel p.val).isolations 1 ∧
      (∀ n, n / 2 = p.val → (s.seam n).state ≠ .retired → (t.seam n).state = .down) ∧
      (∀ q, q ≠ p.val → t.panel q = s.panel q))

/-- After R286, in part: an isolated Panel that is powered rejoins, by itself with REJOIN_AUTO = 1 or at a request, once its ports
train and it reports its level: it is present, its ports are active, and its cores start afresh with zero registers and a zero
scratchpad. The level and the training results are operands: log entries 7 and 40. -/
def Obligations.PanelRejoins : Prop :=
  ∀ (p : PanelId) (s : State) (path : Path) (value : Word) (env : WriteEnv),
    (s.panel p.val).state = .isolated → (s.panel p.val).powered = true → s.set.running = false →
    (s.seam (2 * p.val)).state = .down → (s.seam (2 * p.val + 1)).state = .down →
    env.attempts.head? = some (.trained, .trained) → env.level = (s.panel p.val).feature → env.failed = [] →
    let rejoins (i : Instr) : Prop :=
      ∃ t, exec i s = .next t ∧ (t.panel p.val).state = .present ∧ (t.seam (2 * p.val)).state = .active ∧
        (t.seam (2 * p.val + 1)).state = .active ∧ mapGet 0 t.time.synced p.val = s.now ∧
        ∀ n, n / 64 = p.val → (s.entry n).state ≠ .absent →
          (t.core n).seq.run = .idle ∧ (∀ r, t.sreg n r = 0) ∧
          ∀ off, off < 6291456 → memGet t.mem (scratchAddr n off) = 0
    (s.rejoinAuto = true → ∀ a b, rejoins (.panelRejoin p (.trained :: a) (.trained :: b) env.level [])) ∧
    (s.pathOpen path 0x328 = true → bit value 8 = true → (field value 0 3).toNat = p.val →
      rejoins (.ykPanelRejoin path value env))

/-- After R33, R39, R196, in part: a fence's marker that both Seam ports of a Panel have sent notes the Panel's walks; the loss of the
reference is kept and counted; a window of 1,024 ns gives a core's beat rate, rounded down and held within its field (log entry 52). The beats
of a window are an operand: log entry 26. -/
def Obligations.MarkersAndRates : Prop :=
  ∀ (s : State),
    (∀ (p : PanelId) (i : Nat) (w : FenceWait),
      (s.host.fences.findIdx? fun w => w.panels.contains p.val && w.sent.contains (2 * p.val) && w.sent.contains (2 * p.val + 1) &&
        !w.noted.contains p.val) = some i →
      s.host.fences[i]? = some w → s.panelAnswers p.val = true →
      ∃ t, exec (.fenceMarker p) s = .next t ∧ t.host.fences[i]? = some (w.mark p.val (s.walking p.val)) ∧
        ∀ j, j ≠ i → t.host.fences[j]? = s.host.fences[j]?) ∧
    (∃ t, exec .refLoss s = .next t ∧ t.time.refLost = true ∧ t.time.refLosses = satAdd s.time.refLosses 1 ∧ t.now = s.now) ∧
    (∀ (n : CoreId) (beats : Nat), (s.panel (n.val / 64)).powered = true → s.power.fold ≠ .folded →
      (s.entry n.val).state ≠ .absent →
      let q := (s.core n.val).seq
      s.now < q.windowNs + 2048 →
      let b := max q.beats (q.windowBeats + beats)
      ∃ t, exec (.beatRateWindow n beats) s = .next t ∧ (t.core n.val).seq.beats = b ∧
        (t.core n.val).seq.windowBeats = b ∧
        (t.core n.val).seq.beatRate = BitVec.ofNat 16 (min ((b - q.windowBeats) * 1000 / 1024) 65535) ∧
        (t.core n.val).seq.regs = q.regs)

/-! ## The host interface -/

/-- After R301 to R306, R312, R315, in part: a doorbell that nothing is ahead of moves its ring's TAIL or HEAD, and one that is out of
range is counted and discarded; a fetch takes the descriptor at HEAD of the ring that is next in turn; a valid descriptor that may start is started,
an invalid one completes; COALESCE_NS after the first pending entry its vector signals. The order of the checks is the model's
reading, and so is that a limit that passes moves the time on to its end: log entries 6, 22 and 30. -/
def Obligations.RingsTakeDescriptors : Prop :=
  ∀ (q : RingQ) (s : State),
    let r := s.sq q.val
    let c := s.cq q.val
    (4 ≤ s.power.step → s.power.fold = .running → s.host.requests = [] →
      (∀ value : Word, r.acts = true → value.toNat < r.size →
        ∃ t, exec (.sqTail q 0 value 4) s = .next t ∧ t.sq q.val = { r with tail := value.toNat } ∧
          ∀ k, k ≠ q.val → t.sq k = s.sq k) ∧
      (∀ (value : Word) (width : Nat), r.acts = true → (width ≠ 4 ∨ r.size ≤ value.toNat) →
        ∃ t, exec (.sqTail q 0 value width) s = .next t ∧ t.sq q.val = r ∧
          t.host.doorbellErrors = satAdd s.host.doorbellErrors 1) ∧
      (∀ value : Word, c.enable = true → value.toNat < c.size → c.held = [] →
        ∃ t, exec (.cqHead q value 4) s = .next t ∧ t.cq q.val = { c with head := value.toNat, full := false })) ∧
    (s.engineUp = true → s.nextVisit = some q.val → s.host.requests.any HostRequest.ordered = false →
      (∀ read : HostRead, read.failed = false → read.bytes.length = 64 →
        ∃ t d, exec (.descriptorFetch q read) s = .next t ∧ t.sq q.val = { r with head := (r.head + 1) % r.size, descs := r.descs ++ [d] } ∧
          t.out.fetchAt = r.entryAt ∧ d.index = r.head ∧ d.raw = BitVec.ofNat 512 (leNat read.bytes) ∧ d.started = false ∧
          d.ro = bit s.host.hqCtrl 8 ∧
          t.host.nextRing = (q.val + 1) % 64) ∧
      (∀ read : HostRead, read.failed = true ∨ read.bytes.length ≠ 64 →
        ∃ t, exec (.descriptorFetch q read) s = .next t ∧ t.sq q.val = { r with state := .error } ∧
          t.host.fetchErrors = satAdd s.host.fetchErrors 1)) ∧
    (∀ (index : BitVec 16) (d : Desc), s.unstarted q index = some d → s.descOf q.val d.order = some d → s.canStart q.val d = true →
      (d.valid = true → ∃ t e, exec (.descriptorStart q index) s = .next t ∧ t.descOf q.val d.order = some e ∧
        e.started = true ∧ e.raw = d.raw ∧ (d.opcode = 1 → bit t.host.busy d.copyEngine = true)) ∧
      (d.valid = false → ∃ t, exec (.descriptorStart q index) s = .next t ∧
        Completes s t q.val d 0x03 0)) ∧
    (c.enable = true → c.irqEnable = true → 0 < c.irqPending → 0 < c.irqNs → ∃ t, exec (.msixCoalesceTimeout q) s = .next t ∧ (t.cq q.val).irqPending = 0 ∧
      t.now = max s.now (c.irqSince + c.irqNs) ∧
      (msixMasked s.host c.vector.toNat = false → t.out.msix = c.vector.toNat :: s.out.msix))

/-- After R266, R311, R312, R316, R330, R338, R382, R386, Tables 14-12 to 14-16, in part: what a started descriptor of each kind does, with
its completion entry. A row acts on the oldest descriptor of its entry that has something left to do. The work of a descriptor is one
row: log entry 21. -/
def Obligations.DescriptorsComplete : Prop :=
  ∀ (q : RingQ) (index : BitVec 16) (d : Desc) (s : State), s.isUp = true →
    let onlyHost (t : State) : Prop := t = { s with host := t.host, out := t.out }
    (s.started q index 14 = some d →
      ∃ t, exec (.nopDescriptor q index) s = .next t ∧ Completes s t q.val d 0 0 ∧ onlyHost t) ∧
    (s.startedThat q index 4 s.maskDone = some d →
      ∃ t, exec (.fence q index) s = .next t ∧ Completes s t q.val d 0 0 ∧ onlyHost t) ∧
    ((∀ e ∈ (s.sq q.val).descs, e.index = index.toNat → e.started = true → e.opcode = 4 → s.maskDone e = false) →
      exec (.fence q index) s = .next s) ∧
    (s.started q index 8 = some d →
      ∃ t, exec (.setPowerCap q index) s = .next t ∧ t.power.hostCap = field d.raw 64 16 ∧ Completes s t q.val d 0 t.capW) ∧
    (∀ w, s.started q index 10 = some d → s.drainOf q.val d.order = some w → s.maskDone d = true →
      ∃ t, exec (.drain q index) s = .next t ∧ Completes s t q.val d (if w.aborted then 2 else 0) 0 ∧
        t.host.drains = s.host.drains.erase w ∧
        ∀ k, k ≠ q.val → bit w.mask k = true → (s.sq k).state ≠ .disabled → (t.sq k).state = .stopped) ∧
    (s.started q index 13 = some d → s.set.running = true →
      ∃ t, exec (.capRemap q index) s = .next t ∧ Completes s t q.val d 0x04 0 ∧ onlyHost t) ∧
    (s.started q index 13 = some d → s.set.running = false → s.tierBusy = true ∨ s.retraining = true →
      exec (.capRemap q index) s = .next s) ∧
    (s.started q index 13 = some d → s.set.running = false → s.tierBusy = false → s.retraining = false →
      ∃ t, exec (.capRemap q index) s = .next t ∧ Completes s t q.val d 0 t.cap.populatedMib.toNat ∧
        t.cap.populatedMib = BitVec.ofNat 21 (t.cap.list.length * 7936) ∧
        (∀ k n, k < 12 → n < (s.cuff k).channels.length → chanLost (s.chan k n) = true → (t.chan k n).state = .mappedOut) ∧
        ∀ a, memGet t.mem a = if capBase ≤ a ∧ a < scratchBase then 0 else memGet s.mem a) ∧
    (∀ read : HostRead, s.started q index 12 = some d → read.failed = false → d.get 144 13 ≤ read.bytes.length →
      ∃ t, exec (.tagWrite q index read) s = .next t ∧
        (if s.mgmt.tagLocked = true ∨ bit s.mgmt.serviceCtrl 1 = false then Completes s t q.val d 0x11 0 ∧ onlyHost t
         else
          Completes s t q.val d 0 0 ∧ t.mgmt.tagWrites = satAdd s.mgmt.tagWrites 1 ∧
          memRead t.mgmt.tagBytes (d.get 128 12) (d.get 144 13) = read.bytes.take (d.get 144 13))) ∧
    (s.started q index 9 = some d → s.set.running = true → s.power.foldBy ≠ some (q.val, d.order) →
      ∃ t, exec (.fold q index) s = .next t ∧ Completes s t q.val d 0x04 0 ∧ onlyHost t) ∧
    (s.started q index 9 = some d → s.set.running = false → s.onlyStarted q.val d.order = true → s.retraining = false →
      s.power.wakeAsked = false →
      ∃ t, exec (.fold q index) s = .next t ∧ Completes s t q.val d 0 0 ∧ t.power.fold = .folded ∧
        t.power.folds = wrapAdd s.power.folds 1 ∧ t.mem = s.mem) ∧
    (s.started q index 9 = some d → s.set.running = false → s.onlyStarted q.val d.order = false →
      ∃ t, exec (.fold q index) s = .next t ∧ t.power.fold = .entering ∧ t.power.foldBy = some (q.val, d.order)) ∧
    (∀ unstable, s.started q index 7 = some d →
      ∃ t, exec (.configFingerprint q index unstable none) s = .next t ∧ Completes s t q.val d 0 s.canonicalRecord.length ∧
        t.mgmt.digest = sha3 s.canonicalRecord ∧ t.mgmt.computations = wrapAdd s.mgmt.computations 1 ∧ t.mem = s.mem ∧
        (d.get 128 64 = 0 → s.apartFromEntry q.val (d.get 64 64) 64 →
          memRead t.out.hostMem (d.get 64 64) 64 = sha3 s.canonicalRecord))

/-- After R196, R228, R317, in part: a scrub begins with a part for each memory of its range, and takes its place among the passes in
the order of the fetches; its pass ends with a summary and a completion; a page release fence waits for every Panel that answers, and completes at once where none does; a HALT stops the active set at once, completes every
fetched descriptor that it aborts, and sends the rings to their open images. How the work under way ends is the model's reading:
log entry 23. -/
def Obligations.ScrubFenceAndHalt : Prop :=
  ∀ (q : RingQ) (index : BitVec 16) (d : Desc) (s : State), s.isUp = true →
    (s.startedThat q index 6 (fun d => !s.scrubbing q.val d) = some d →
      let x := s.scrubParts (d.get 64 48) (d.get 128 48)
      (x.2 = 0 → ∃ t p, exec (.scrub q index) s = .next t ∧ p.sq = q.val ∧ p.order = d.order ∧
        t.scrubs = insertBy (fun a b => decide (a.order < b.order)) p s.scrubs ∧
        p.steps = 0 ∧ p.status = (if x.1.any s.partGone then 2 else 0) ∧ p.parts = x.1.filter fun e => !s.partGone e) ∧
      (x.2 ≠ 0 → ∃ t, exec (.scrub q index) s = .next t ∧ Completes s t q.val d x.2 0 ∧ t.scrubs = s.scrubs)) ∧
    (∀ p, (s.scrubs.find? fun p => p.parts.isEmpty) = some p → s.descOf p.sq p.order = some d →
      s.apartFromEntry p.sq d.summaryAt 64 →
      ∃ t, exec (.scrubPassEnd none) s = .next t ∧ Completes s t p.sq d p.ends 0 ∧ t.scrubs = s.scrubs.erase p ∧
        memRead t.out.hostMem d.summaryAt 64 = p.summary p.status.toNat s.freeTick) ∧
    (s.started q index 5 = some d → s.host.fences = [] → s.fenceTurn d = true → (∃ p, p < 8 ∧ s.panelAnswers p = true) →
      ∃ t w, exec (.pageReleaseFence q index) s = .next t ∧ t.host.fences = [w] ∧ w.sq = q.val ∧ w.order = d.order ∧
        w.noted = [] ∧ ∀ p, p ∈ w.panels ↔ p < 8 ∧ s.panelAnswers p = true) ∧
    (s.started q index 5 = some d → s.host.fences = [] → s.fenceTurn d = true → (∀ p, p < 8 → s.panelAnswers p = false) →
      s.descOf q.val d.order = some d →
      ∃ t, exec (.pageReleaseFence q index) s = .next t ∧ Completes s t q.val d 0 (fenceSpecific 0 0 (s.now - d.fetchNs))) ∧
    (∀ later, s.halts = (q.val, d) :: later → d.index = index.toNat →
      ∃ t, exec (.halt q index) s = .next t ∧ t.set.running = false ∧
        (∀ e ∈ s.toAbort, t.descOf e.1 e.2.order = none) ∧
        (s.set.running = true → ∀ n ∈ s.set.cores, (t.core n).seq.run = .idle ∧ (t.core n).moveQ = []) ∧
        (∀ e ∈ t.rings, e.2.use = .opened ∨ e.2.toOpen = true) ∧
        (later = [] → s.toAbort = [] → s.set.running = false → Completes s t q.val d 0 0))

/-- After R46, R69, R289 to R291, R307, R308, Table 14-13, in part: a COPY and a roster's LOAD_ROSTER begin a transfer: the COPY with reads
of its first chunk, of 64 bytes at most each, the roster with writes to its core's region; no memory changes yet. A unit reads its bytes
as its Pocket ring serves it, and writes them as the last ring of its path does; with the last unit of a transfer its descriptor
completes, the COPY with its length and its engine free, the roster with the status of its checks. A ring image is stored at once, and a
LOAD_ROSTER while a set is active is refused. That a COPY and a load are one row each, and in which order units are served, is the
model's choice: log entries 8 and 21. -/
def Obligations.DataReachesDevice : Prop :=
  ∀ (q : RingQ) (index : BitVec 16) (d : Desc) (s : State) (read : HostRead), s.isUp = true →
    let begins (i : Instr) (tr : Transfer) : Prop :=
      exec i s = .next { s with host := { s.host with transfers := s.host.transfers ++ [tr] } }
    (s.startedThat q index 1 (fun d => !s.moving q.val d) = some d → d.srcHost = true → 0 < d.copyLen →
      ∃ tr, begins (.copy q index read none) tr ∧ tr.desc = d ∧ tr.agent = 0x200 + d.copyEngine ∧ tr.read = read.bytes ∧
        tr.writing = false ∧ tr.off = 0 ∧ tr.got = [] ∧ tr.fail = none ∧ (tr.units.map (·.len)).sum = min d.copyLen 65536 ∧
        ∀ u ∈ tr.units, u.route = [ringKey 3 29] ∧ u.data = none ∧ u.addr = d.copySrc + u.off ∧ u.len ≤ 64) ∧
    (s.started q index 2 = some d → s.loadTurn d = true → s.moving q.val d = false →
      (s.set.running = true → ∃ t, exec (.loadRoster q index read) s = .next t ∧ Completes s t q.val d 0x04 0 ∧ t.mem = s.mem) ∧
      (s.set.running = false → bit d.raw 160 = false →
        let n := d.get 176 9
        let len := d.get 128 32
        let bytes := read.bytes.take len
        (s.entry n).state ≠ .absent → s.panelAnswers (n / 64) = true → read.failed = false → len ≤ read.bytes.length →
        16 ≤ len → rosterFits (s.core n).seq (parseHeader bytes) len = true →
        16 * regionFirst (s.core n).seq + 64 + len ≤ pocketSlotBytes →
        ∃ tr, begins (.loadRoster q index read) tr ∧ tr.desc = d ∧ tr.agent = 0x210 ∧ tr.read = bytes ∧ tr.whole = true ∧
          tr.writing = true ∧ (tr.units.map (·.len)).sum = len ∧
          ∀ u ∈ tr.units, u.addr = s.regionAddr n + 64 + u.off ∧ u.data = some ((bytes.drop u.off).take u.len) ∧
            u.route = [ringKey 3 (s.seamPort n), seamRing (s.seamPort n) 0, s.pocketRing n]) ∧
      (s.set.running = false → bit d.raw 160 = true →
        let len := d.get 128 32
        let p := parseImage (read.bytes.take len)
        read.failed = false → len = read.bytes.length → 16 ≤ len → len = 16 + 4 * p.count →
        (s.ring (ringKey p.cls p.inst)).use = .opened →
        imageValid p (s.ring (ringKey p.cls p.inst)) (s.imageRate p) (s.mappedRing p) = true → p.image.reqFl ≤ s.yoke.level →
        ∃ t, exec (.loadRoster q index read) s = .next t ∧ Completes s t q.val d 0 0 ∧
          (if p.image.cool then (t.ring (ringKey p.cls p.inst)).cool = some p.image ∧ (t.ring (ringKey p.cls p.inst)).coolLoaded = true
           else (t.ring (ringKey p.cls p.inst)).normal = some p.image ∧ (t.ring (ringKey p.cls p.inst)).normalLoaded = true))) ∧
    (∀ (inst n : Nat) (slot : RingSlot) (tr : Transfer) (u : HubUnit),
      let key := ringKey 2 inst
      s.openingAt key .host = some slot → 0 < slot.units → s.host.requests = [] → s.host.partials = [] → (s.ring key).clashes = [] →
      s.host.fences = [] → s.host.transfers = [tr] → tr.units = [u] → tr.orphan = false → tr.fail = none → tr.atHost = false → u.len = 64 →
      u.addr % 64 = 0 → s.place tr.by u.addr = .pocket n → key = s.pocketRing n →
      (if tr.loads then tr.agent = 0x210 else ∃ e, e < 8 ∧ tr.agent = 0x200 + e) →
      (∀ port, tr.writing = false → u.data = none → u.route = [key, seamRing port 1, ringKey 3 29] →
        (s.column (s.columnOf n)).readable (wordOf u.addr) = true →
        ∃ t, exec (.hostOpening 2 inst) s = .next t ∧ t.mem = s.mem ∧ t.host.transfers = [{ tr with
          units := [{ u with route := [seamRing port 1, ringKey 3 29], data := some (memRead s.mem u.addr 64) }] }]) ∧
      (∀ bs, tr.writing = true → u.data = some bs → bs.length = 64 → u.route = [key] → tr.total ≤ tr.chunkEnd →
        ∃ t, exec (.hostOpening 2 inst) s = .next t ∧ memRead t.mem u.addr 64 = bs ∧ t.host.transfers = [] ∧
          (∀ a, (a < u.addr ∨ u.addr + 64 ≤ a) → memGet t.mem a = memGet s.mem a) ∧
          (tr.loads = false → tr.desc.opcode = 1 → Completes s t tr.q tr.desc 0 tr.total ∧ bit t.host.busy (tr.agent - 0x200) = false) ∧
          (tr.loads = true → tr.whole = true →
            Completes s t tr.q tr.desc (s.headerStatus (parseHeader tr.read) (tr.desc.get 176 9)) 0 ∧
            (s.headerStatus (parseHeader tr.read) (tr.desc.get 176 9) = 0 → tr.desc.get 176 9 ∉ t.badRosters))))

/-- After R41, R42, R309, in part: a LAUNCH whose checks pass makes its set active: every core of its mask runs from lap 0 with zero
registers, every window is its own core's, and every ring starts at lap 0 of its normal image; a LAUNCH that fails a check
completes with that status. CO_ROSTER_REGION as last written is in effect from the LAUNCH on. A LAUNCH is one row; registers before it are zero: log entries 10 and 21. That its completion, whatever the status, ends the loaded mark
of every image is log entry 47. -/
def Obligations.LaunchStartsSet : Prop :=
  ∀ (q : RingQ) (index : BitVec 16) (d : Desc) (s : State) (read : HostRead),
    s.isUp = true → s.started q index 3 = some d → ¬(s.set.running = true ∧ s.set.sq = q.val ∧ s.set.order = d.order) →
    s.bankWaits = false → read.failed = false → 64 ≤ read.bytes.length →
    let cores := maskCores (read.bytes.take 64)
    let buildId : BitVec 32 := field d.raw 64 32
    let status := (if s.set.running then s else s.applyRegions).launchStatus buildId cores
    (status = 0 →
      ∃ t, exec (.launch q index read) s = .next t ∧ t.set.running = true ∧ t.set.buildId = buildId ∧ t.set.cores = cores ∧
        (∀ n ∈ cores, (t.core n).seq.run = .running ∧ (t.core n).seq.lap = 0 ∧ (t.core n).seq.wordsIssued = 0 ∧
          ∀ r, t.sreg n r = 0) ∧
        (∀ n w, t.holder n w = .core n) ∧ t.credit = [] ∧
        (∀ e ∈ t.rings, e.2.lap = 0 ∧ e.2.use = if e.2.normalLoaded then .normal else .opened)) ∧
    (status ≠ 0 →
      ∃ t, exec (.launch q index read) s = .next t ∧ Completes s t q.val d status 0 ∧ t.set = s.set ∧
        (∀ e ∈ t.rings, e.2.normalLoaded = false ∧ e.2.coolLoaded = false) ∧ t.mem = s.mem)

/-- After R22, R296, R299, R300, R337, in part: a BAR4 access while the module is not READY reads all ones or is discarded, and so does
one that reaches an unmapped address; an access of memory waits for host openings of the rings on its path, one of setup space acts at once, a write reaches the memory in the last
of its openings, and a read that waits too long is answered with all ones; configuration requests are retried until READY has been set once; the link trains at the widest width that its lanes allow. What
the configuration space holds, when a BAR4 access is served, that an access in part unmapped is refused whole, and that a limit which passes
moves the time on, is the model's choice: log entries 6, 14 and 20. -/
def Obligations.HostPortAnswers : Prop :=
  ∀ (s : State), 4 ≤ s.power.step →
    (∀ (off len : Nat) (bytes : List Byte) (env : WriteEnv), s.power.ready = false →
      (∃ t, exec (.bar4Read off len) s = .next t ∧
        t.out.answers = .bar4 (s.bar4Addr off) (List.replicate len 0xFF) :: s.out.answers ∧ t.mem = s.mem) ∧
      exec (.bar4Write off bytes false env) s = .next s) ∧
    (∀ (off len n : Nat) (bytes : List Byte) (env : WriteEnv), s.power.ready = true → s.mgmt.testMode = false → s.awake = true →
      s.host.requests = [] →
      let place := s.place .bar4 (s.bar4Addr off)
      let mapped (k : Nat) : Bool := (pieces (k / 64 + 2) (s.bar4Addr off) k).all fun p => s.place .bar4 p.1 != .unmapped
      (mapped len = false → ∃ t, exec (.bar4Read off len) s = .next t ∧
        t.out.answers = .bar4 (s.bar4Addr off) (List.replicate len 0xFF) :: s.out.answers ∧ t.mem = s.mem ∧ t.host.requests = []) ∧
      (mapped bytes.length = false → ∃ t, exec (.bar4Write off bytes false env) s = .next t ∧ t.mem = s.mem ∧ t.host.requests = []) ∧
      (mapped len = true → mapped bytes.length = true → place = .pocket n ∨ place = .cap ∨ place = .scratch n →
        (∃ t r, exec (.bar4Read off len) s = .next t ∧ t.host.requests = [.access r] ∧ r.addr = s.bar4Addr off ∧ r.len = len ∧
          r.data = none ∧ r.deadline = s.now + s.bar4Limit ∧ t.mem = s.mem) ∧
        ∃ t r, exec (.bar4Write off bytes false env) s = .next t ∧ t.host.requests = [.access r] ∧ r.addr = s.bar4Addr off ∧
          r.data = some bytes ∧ t.mem = s.mem) ∧
      (mapped len = true → mapped bytes.length = true → place = .setup →
        let o := s.bar4Addr off - setupBase
        exec (.bar4Write off bytes false env) s = .next (s.writeSetup o bytes.length (BitVec.ofNat 64 (leNat (bytes.take 8))) env) ∧
        exec (.bar4Read off len) s =
          .next ((s.readSetup .pcie o len).1.answer (.bar4 (s.bar4Addr off) (s.readSetup .pcie o len).2)))) ∧
    (∀ (cls inst n units : Nat) (slot : RingSlot) (r : Bar4Request) (bytes : List Byte),
      let key := ringKey cls inst
      s.openingAt key .host = some slot → s.host.requests = [.access r] → r.path = [(key, units)] → 0 < units → units ≤ slot.units →
      s.host.transfers = [] → s.host.partials = [] → (s.ring key).clashes = [] → s.host.fences = [] →
      s.place .bar4 r.addr = .pocket n → r.data = some bytes → bytes.length = 64 → r.len = 64 → r.addr % 64 = 0 →
      ∃ t, exec (.hostOpening cls inst) s = .next t ∧ t.host.requests = [] ∧ memRead t.mem r.addr 64 = bytes ∧
        ∀ a, (a < r.addr ∨ r.addr + 64 ≤ a) → memGet t.mem a = memGet s.mem a) ∧
    (∀ r : Bar4Request, s.host.requests = [.access r] → r.data = none → ∃ t, exec .bar4Timeout s = .next t ∧ t.host.requests = [] ∧
      t.out.answers = .bar4 r.addr (List.replicate r.len 0xFF) :: s.out.answers ∧ t.now = max s.now r.deadline) ∧
    (∀ (path : Path) (value : Word), s.pathOpen path 0x400 = true → ∃ t, exec (.ykBar4Window path value) s = .next t ∧
      t.host.window = field value 0 18) ∧
    (∀ (off : BitVec 12) (v : Word),
      (s.power.everReady = false → ∀ w, ∃ t, exec (.configurationRequest off w) s = .next t ∧
        t.out.answers = .config off.toNat none :: s.out.answers) ∧
      (s.power.everReady = true →
        (∃ t, exec (.configurationRequest off none) s = .next t ∧
          t.out.answers = .config off.toNat (some (configWord off.toNat s.host.configWrites)) :: s.out.answers) ∧
        ∃ t, exec (.configurationRequest off (some v)) s = .next t ∧
          t.host.configWrites = (off.toNat, v) :: s.host.configWrites)) ∧
    (∀ (l16 l8 l4 : Bool) (rate : Fin 7), s.host.perst = false →
      ∃ t, exec (.pcieLinkTraining l16 l8 l4 rate) s = .next t ∧
        t.host.linkWidth = (if l16 then 16 else if l8 then 8 else if l4 then 4 else 0) ∧
        (t.host.linkUp = true ↔ (l16 || l8 || l4) = true))

/-! ## Resets and start-up -/

/-- After R333 to R335, R375, Table 15-5, in part: what each reset kind clears and keeps. A host reset and a function-level reset
end the set, reset the host queue engine's rings and registers and, with no set active, keep memory, cores and the timebase;
only a host reset takes the link down; a roster whose load is cut short counts as not loaded. A cold reset clears memory, cores and rings and keeps the tag area and the fuse. A Panel
reset isolates the Panel, resets its cores and keeps its Pocket memory; a Panel power cycle zeroes that too, and keeps nothing of the Panel's
scratchpads, of which nothing is said here. The Collar refuses these commands while MCTP_RESET is 0. The values that memory and registers
have without a reset value are the model's choices: log entries 9, 10, 21 and 28. -/
def Obligations.ResetKinds : Prop :=
  ∀ (s : State) (kind : HostResetKind) (p : PanelId) (path : Path) (value : Word),
    let hostSide (t : State) (k : Byte) : Prop := t.set.running = false ∧ (∀ q, t.sq q = Sq.reset ∧ t.cq q = Cq.reset) ∧
      t.host.window = 0 ∧ t.host.msixTable = [] ∧ t.power.lastReset = k ∧
      (∀ tr ∈ s.host.transfers, tr.loads = true → tr.desc.get 176 9 ∈ t.badRosters) ∧
      (s.set.running = false → t.mem = s.mem ∧ t.cores = s.cores ∧ t.now = s.now)
    let refused (i : Instr) (code : Nat) : Prop :=
      ∃ t, exec i s = .next t ∧ t = { s with out := t.out } ∧ t.out.answers = .command code false [] :: s.out.answers
    let cores (t : State) : Prop := ∀ n, n / 64 = p.val → (s.entry n).state ≠ .absent →
      (t.core n).seq.run = .idle ∧ ∀ r, t.sreg n r = 0
    let panel (t : State) : Prop := (t.panel p.val).state = .isolated ∧
      (t.panel p.val).isolations = satAdd (s.panel p.val).isolations 1 ∧ (∀ q, q ≠ p.val → t.panel q = s.panel q) ∧ cores t
    let resets (i : Instr) : Prop := ∃ t, exec i s = .next t ∧ panel t ∧ t.power.lastReset = 4 ∧ t.mem = s.mem
    let cycles (i : Instr) : Prop := ∃ t, exec i s = .next t ∧ panel t ∧ t.power.lastReset = 5 ∧
      ∀ a, (a < scratchAddr (64 * p.val) 0 ∨ scratchAddr (64 * (p.val + 1)) 0 ≤ a) → memGet t.mem a =
        if 64 * p.val * pocketSlotBytes ≤ a ∧ a < 64 * (p.val + 1) * pocketSlotBytes then 0 else memGet s.mem a
    (∃ t, exec (.hostReset kind) s = .next t ∧ hostSide t 2 ∧ t.host.linkUp = false) ∧
    (∃ t, exec .functionLevelReset s = .next t ∧ hostSide t 3 ∧ (s.set.running = false → t.host.linkUp = s.host.linkUp)) ∧
    (s.collarUp = true → s.mctpReset = true →
      ∃ t, exec .coldReset s = .next t ∧ (∀ a, memGet t.mem a = 0) ∧ (∀ n, t.core n = Core.reset) ∧ t.rings = State.reset.rings ∧
        t.set.running = false ∧ t.power.stage = false ∧ t.power.ready = false ∧ t.mgmt.tagBytes = s.mgmt.tagBytes ∧
        t.mgmt.tagLocked = s.mgmt.tagLocked ∧ t.mgmt.debugLocked = s.mgmt.debugLocked ∧
        t.out.answers = .command 3 true [] :: s.out.answers) ∧
    (s.collarUp = true → s.mctpReset = false →
      refused .coldReset 3 ∧ refused (.panelReset p) 4 ∧ refused (.panelCycle p) 5) ∧
    (s.panelsUp = true → (s.panel p.val).state = .present →
      (s.collarUp = true → s.mctpReset = true → resets (.panelReset p)) ∧
      (s.pathOpen path 0x01000024 = true → (field value 0 3).toNat = p.val → bit value 8 = true → bit value 9 = false →
        resets (.resetPanel path value)) ∧
      (s.power.fold = .running →
        (s.collarUp = true → s.mctpReset = true → cycles (.panelCycle p)) ∧ cycles (.feedSwitchTrip p) ∧
        (s.pathOpen path 0x01000024 = true → (field value 0 3).toNat = p.val → bit value 9 = true → bit value 8 = false →
          cycles (.cyclePanel path value))))

/-- After R320, R332, R333, R336, R340, R341, R349, R355, in part: power comes and goes. A supply that comes up, an input excursion and the loss of
standby power leave the module off with its memory cleared; POWER_STAGE_ENABLE starts it to READY where its conditions hold and
every step succeeds, and leaves power as it is where a condition is not met or a comparator has not tripped; a wake event ends Fold with
Pocket memory kept, every ring in its open image, and the core supply at its setting or, while a clamp is asked for, at 0.55 V; on the way
into Fold it is noted. What registers without a reset value hold, that one row is a whole start-up, and when the ring of a wake starts,
are the model's choices: log entries 10, 21, 36 and 42. -/
def Obligations.PowerComesAndGoes : Prop :=
  ∀ (s : State) (report : StartupReport) (path : Path) (value : Word),
    let off (t : State) : Prop := t.power.stage = false ∧ t.power.ready = false ∧ (∀ a, memGet t.mem a = 0) ∧
      (∀ n, t.core n = Core.reset) ∧ t.mgmt.tagBytes = s.mgmt.tagBytes
    let wakes (i : Instr) : Prop := ∃ t, exec i s = .next t ∧ t.power.fold = .running ∧ t.power.lastWakeUs.toNat ≤ 1500 ∧
      t.now = s.now ∧ t.power.supplyMv = s.supplyAt s.coreSetting ∧ (∀ e ∈ t.rings, e.2.use = .opened) ∧
      (∀ n r, t.sreg n r = 0) ∧ (∀ n off, n < 512 → off < 6291456 → memGet t.mem (scratchAddr n off) = 0) ∧
      ∀ a, a < scratchBase → memGet t.mem a = memGet s.mem a
    (s.power.jIn = false → ∃ t, exec (.powerOn .j1) s = .next t ∧ off t ∧ t.power.jIn = true) ∧
    (s.power.standby = false → ∃ t, exec (.powerOn .standby) s = .next t ∧ off t ∧ t.power.standby = true) ∧
    (∃ t, exec .lossOfStandbyPower s = .next t ∧ off t ∧ t.power.standby = false ∧ t.power.step = 0 ∧ t.thermal.latched = false) ∧
    (s.power.stage = true → ∃ t, exec .inputExcursion s = .next t ∧ off t ∧ t.power.jIn = false) ∧
    (∃ t, exec .inputFaultRecovery s = .next t ∧ t = { s with power := { s.power with jIn := true } }) ∧
    (s.enableBarred = false → s.startWaits ≠ [] ∨ report.failedComparators ≠ [] →
      ∃ t, exec (.powerStageEnable report) s = .next t ∧ t.power = s.power ∧ t.mem = s.mem) ∧
    (s.enableBarred = false → s.startWaits = [] → report.failedComparators = [] → report.failedStep = none →
      (∀ c, 2 ≤ c → c ≤ 5 → (s.fw c).boot.running ≠ none) →
      ∃ t, exec (.powerStageEnable report) s = .next t ∧ t.power.stage = true ∧ t.power.ready = true ∧
        t.power.everReady = true ∧ t.power.step = 10 ∧ t.power.failed = s.power.failed ∧ t.time.locked = true ∧ t.now = 0 ∧
        t.yoke.level = reportLevel report) ∧
    (s.power.fold = .folded → s.power.deferred = [] →
      (s.collarUp = true → wakes .wake) ∧ wakes .perstDeassertion ∧
      (s.pathOpen path 0x01000018 = true → bit value 0 = true → wakes (.pwFold path value))) ∧
    (s.power.fold = .running → s.collarUp = true → ∃ t, exec .wake s = .next t ∧ t = { s with out := t.out } ∧
      t.out.answers = .command 7 false [] :: s.out.answers) ∧
    (s.power.fold = .entering → s.collarUp = true → ∃ t, exec .wake s = .next t ∧
      t = { s with out := t.out, power := { s.power with wakeAsked := true } } ∧ t.out.answers = .command 7 true [] :: s.out.answers)

/-! ## Supplies and cooling -/

/-- After R322, R323, R326 to R332, R353, in part: the supply gate of a core closes below 500 mV and opens at 520 mV, its lowest level is
captured, and a gate that stays closed darkens the core, as its fourth failed tile does; each cap period steps the supply down
above the cap and up below the margin, and takes a new setting of PW_SUPPLY_EXPERT; bump groups that rise more than their neighbours are flagged once. When each limit acts
is the model's reading: log entry 35. -/
def Obligations.PowerControl : Prop :=
  ∀ (s : State) (n : CoreId) (x : PhysId) (tile : Fin 16) (selfTest : Bool) (path : Path) (value : Word),
    let u := (s.core n.val).supply
    (∀ mv : BitVec 10, s.corePowered n.val = true →
      ∃ t, exec (.undervoltageGate n mv) s = .next t ∧ t = { s with cores := t.cores } ∧ (∀ m, m ≠ n.val → t.core m = s.core m) ∧
        (u.gateClosed = false → mv.toNat < 500 → (t.core n.val).supply.gateClosed = true ∧
          (t.core n.val).supply.gateEvents = satAdd u.gateEvents 1 ∧ (t.core n.val).supply.gateSince = s.now) ∧
        (u.gateClosed = false → 500 ≤ mv.toNat → (t.core n.val).supply.gateClosed = false) ∧
        (u.gateClosed = true → ((t.core n.val).supply.gateClosed = true ↔ mv.toNat < 520)) ∧
        (t.core n.val).supply.minMv.toNat = min u.minMv.toNat (mv.toNat / 5 * 5)) ∧
    (s.corePowered n.val = true → u.gateClosed = true → s.physState (s.physOf n.val) = .active →
      ∃ t, exec (.gateTimeout n selfTest) s = .next t ∧ physDark (t.physState (s.physOf n.val)) = true) ∧
    (s.power.stage = true → (s.panel (x.val / 68)).powered = true → bit (s.tilesOf x.val) tile.val = false →
      ∃ t, exec (.tileFail (.core x tile) selfTest) s = .next t ∧ bit (t.tilesOf x.val) tile.val = true ∧
        (tileCount (s.tilesOf x.val) = 3 → s.physState x.val = .active → physDark (t.physState x.val) = true)) ∧
    (s.power.stage = true → ∃ t, exec (.tileFail .yoke selfTest) s = .next t ∧
      (s.power.yokeTiles < 48 → t = { s with power := { s.power with yokeTiles := s.power.yokeTiles + 1 } }) ∧
      (48 ≤ s.power.yokeTiles → t.power.stage = false ∧ t.power.barred = true)) ∧
    (∀ watts volts : BitVec 16, s.power.stage = true →
      let y := s.applyPowerExpert.takeSettings s
      let p := y.power
      ∃ t, exec (.capPeriod watts volts) s = .next t ∧ t.power.inputW = watts ∧ t.power.inputV = volts ∧
        (s.thermal.clamp.asked = true → t.power.supplyMv = 550 ∧ t.power.duty = 0) ∧
        (s.thermal.clamp.asked = false → s.capW < watts.toNat →
          (550 < p.supplyMv → t.power.supplyMv = min (max 550 (p.supplyMv - y.capStep)) y.coreSetting ∧ t.power.duty = p.duty) ∧
          (p.supplyMv ≤ 550 → t.power.supplyMv = min p.supplyMv y.coreSetting ∧ t.power.duty = p.duty - 1)) ∧
        (s.thermal.clamp.asked = false → watts.toNat * 100 < s.capW * (100 - y.raiseMargin) →
          (p.duty < 16 → t.power.duty = p.duty + 1) ∧
          (16 ≤ p.duty → t.power.supplyMv = min y.coreSetting (p.supplyMv + y.capStep) ∧ t.power.duty = p.duty)) ∧
        (s.thermal.clamp.asked = false → watts.toNat ≤ s.capW → s.capW * (100 - y.raiseMargin) ≤ watts.toNat * 100 →
          t.power.supplyMv = (if s.power.supplyMv = s.coreSetting then y.coreSetting else min s.power.supplyMv y.coreSetting) ∧
          t.power.duty = s.power.duty)) ∧
    (∀ drops : List BumpDrop, s.power.stage = true →
      ∃ t, exec (.bumpCheck drops) s = .next t ∧
        ∀ g, g ∈ t.power.bumpFlagged ↔ g ∈ s.power.bumpFlagged ∨
          ∃ d ∈ drops, d.group = g ∧ bumpSuspect (calibrate s.power.bumpCal drops) drops d = true) ∧
    (∀ (scope : BitVec 2) (drops : List BumpDrop), s.collarUp = true → s.power.stage = true →
      ∃ t, exec (.recalibrate scope drops) s = .next t ∧ t.out.answers = .command 8 true [] :: s.out.answers ∧
        (bit scope 0 = false → t.power = s.power) ∧
        (bit scope 0 = true → (drops.map (·.group)).Nodup → ∀ d ∈ drops, mapGet 0 t.power.bumpCal d.group = d.mv) ∧
        (bit scope 1 = true → t.thermal.baseL = [] ∧ t.thermal.baseD = []) ∧
        (bit scope 1 = false → t.thermal = s.thermal)) ∧
    (s.pathOpen path (coBase n.val + 0x1C0) = true → (s.entry n.val).state ≠ .absent → s.panelAnswers (n.val / 64) = true →
      bit value 31 = true →
      ∃ t, exec (.coMinVolt path n value) s = .next t ∧ (t.core n.val).supply = { u with minMv := 0x3FF } ∧
        ∀ m, m ≠ n.val → t.core m = s.core m)

/-- After R344 to R355, in part: a valid reading is kept and one that fails makes its sensor invalid; the Yoke above 100 °C is a
limit excursion, and above 105 °C asks for the clamp; during an excursion above the limits the thermal cap is 90 % of the input power or
the computed cap where that is lower; the thermal cap follows the smallest Panel cap; three low flow readings ask for the clamp, which a
second of flow releases; a comparator trip latches the module off until the restart. Sensor readings are operands: log entries 7 and
36. -/
def Obligations.ThermalControl : Prop :=
  ∀ (s : State) (k : Nat) (v : Int) (collarMs : Nat),
    (sensorExists k = true → s.sensorRead k = true → (s.sensor k).invalid = false →
      (readingValid k v = true → v < 108 → s.firmwareTrip = false → ∃ t, exec (.sensorSample k (some v)) s = .next t ∧ (t.sensor k).value = v ∧
        (isYoke k = true → 100 < v → t.thermal.excursion = true) ∧
        (isYoke k = true → 105 < v → t.thermal.clamp.temp = true ∧
          (s.thermal.clamp.temp = false → t.power.supplyMv = 550 ∧ t.power.duty = 0))) ∧
      ((s.failSensor k).firmwareTrip = false → ∃ t, exec (.sensorSample k none) s = .next t ∧ (t.sensor k).invalid = true ∧
        t.thermal.invalidCount = satAdd s.thermal.invalidCount 1) ∧
      ((s.failSensor k).firmwareTrip = true → ∃ t, exec (.sensorSample k none) s = .next t ∧ t.power.stage = false)) ∧
    (∀ watts : Nat,
      (s.thermal.excursion = true → s.above 100 95 = true → ∃ t, exec (.limitExcursion watts) s = .next t ∧
        t.thermal.thermalW = capField (min (watts * 9 / 10) (s.thermal.computedW.getD 0xFFFF)) ∧ t.power = s.power) ∧
      (s.above 100 95 = false → exec (.limitExcursion watts) s = .next s)) ∧
    (∀ (powers : List Nat) (watts : Nat), ∃ t, exec (.thermalCapCompute powers watts) s = .next t ∧
      let ps := s.countedPanels
      let w (p : Nat) : Nat := (powers[p]?).getD 0
      (∀ p ∈ ps, s.panelAnswers p = true → 100 ≤ w p →
        mapGet ⟨0, 1⟩ t.thermal.thetaL p = ⟨s.hotLogic p * 10 - s.inletDc, w p⟩ ∧
        mapGet ⟨0, 1⟩ t.thermal.thetaD p = ⟨s.hotDram p * 10 - s.inletDc, w p⟩) ∧
      t.thermal.computedW = (smallestCap (ps.map fun p => (p, t.capOf p))).map
        (fun b => thermalCap ((watts : Int) - (ps.map w).sum) ps.length b.2) ∧
      (s.thermal.excursion = false → t.thermal.thermalW = (t.thermal.computedW.map capField).getD 0xFFFF) ∧
      (∀ c, t.thermal.computedW = some c → c < 600 → t.thermal.clamp.cap = true)) ∧
    (∀ flow : Nat, s.power.standby = true → (s.sensor flowKey).invalid = false →
      ∃ t, exec (.flowSample (some flow)) s = .next t ∧ (t.sensor flowKey).value = flow ∧
        t.thermal.lowFlow = (if flow < s.stopFlow then s.thermal.lowFlow + 1 else 0) ∧
        (flow < s.stopFlow → 2 ≤ s.thermal.lowFlow → s.power.fold ≠ .folded → t.thermal.clamp.flow = true) ∧
        (60 ≤ flow → 2000 ≤ s.thermal.clamp.flowClear → t.thermal.clamp.flow = false)) ∧
    (∀ (diode : Fin 36) (peak : BitVec 8), s.thermal.latched = false → (s.sensor diode.val).invalid = false →
      ∃ t, exec (.comparatorTrip diode peak collarMs) s = .next t ∧ t.power.stage = false ∧ t.thermal.latched = true ∧
        t.thermal.shutdowns = satAdd s.thermal.shutdowns 1 ∧ t.thermal.lastDiode = BitVec.ofNat 6 diode.val ∧
        ⟨.thermalShutdown, diode.val, 1⟩ ∈ t.out.events ∧
        (2 ≤ (s.thermal.trips.filter fun m => decide (collarMs < m + 3600000)).length → t.thermal.held = true)) ∧
    (s.thermal.latched = true → s.thermal.held = false → s.startWaits = [] →
      ∃ t, exec (.thermalRestart collarMs) s = .next t ∧ t.thermal.latched = false ∧ t = { s with thermal := t.thermal }) ∧
    (s.collarUp = true → s.thermal.held = true → ∃ t, exec .restart s = .next t ∧ t.thermal = { s.thermal with held := false } ∧
      t.out.answers = .command 6 true [] :: s.out.answers) ∧
    (s.power.stage = false → exec .cycleSample s = .next s) ∧
    (s.power.stage = true → ∃ t, exec .cycleSample s = .next t ∧ t = { s with thermal := t.thermal } ∧
      (∀ p, p < 8 → mapGet Cycles.reset t.thermal.cycles p = (mapGet Cycles.reset s.thermal.cycles p).sample (s.hotLogic p)) ∧
      (s.thermal.lastSave + hourNs ≤ s.now → t.thermal.saved = t.thermal.cycles))

/-! ## The log, the Collar and the test chain -/

/-- After R276, R367, R380, R382, R385, R386, R388 to R392, in part: the end of a coalescing hold; the computations and reads of the
fingerprint, from the record that the Collar holds while the Yoke is off; the tag area, the debug lock and test mode; the accesses of the
test chain, of which the instruments of a Cuff are reached only with no set active. That the end of a hold moves the time on, and what the
chain's accesses return, is the model's reading: log entries 6, 39 and 55. -/
def Obligations.CollarCommands : Prop :=
  ∀ (s : State) (strap : Bool),
    let done (i : Instr) (code : Nat) (q : State → Prop) : Prop :=
      ∃ t, exec i s = .next t ∧ t.out.answers = .command code true [] :: s.out.answers ∧ q t
    let refused (i : Instr) (code : Nat) : Prop := ∃ t, exec i s = .next t ∧ t.out.answers = .command code false [] :: s.out.answers ∧
      t = { s with out := t.out, mgmt := t.mgmt } ∧ t.mgmt.tagBytes = s.mgmt.tagBytes ∧ t.mgmt.tagLocked = s.mgmt.tagLocked ∧
      t.mgmt.debugLocked = s.mgmt.debugLocked ∧ t.mgmt.testMode = s.mgmt.testMode
    let chained (i : Instr) (a : ChainAccess) : Prop :=
      (s.chainAccepts a = true → ∃ t, exec i s = .next t ∧ .chain true (s.chainResult a) ∈ t.out.answers ∧
        (a = .scan → t.mgmt.scanned = true) ∧
        (∀ k w, a = .dramRepair k w → (s.column k.val).spareLeft w = true →
          (t.column k.val).repairs = (s.column k.val).repairs ++ [w]) ∧
        (∀ k j, a = .repairLogClear k j → j.val ∈ (t.column k.val).logCleared)) ∧
      (s.chainAccepts a = false → ∃ t, exec i s = .next t ∧ .chain false .none ∈ t.out.answers ∧ t = { s with out := t.out }) ∧
      (∀ x, a = .readInstrument x → 10 ≤ x.val → s.set.running = true → s.chainAccepts a = false)
    (∀ (g : Fin 23) (e : LogEntry), e ∈ (s.logSource g.val).entries → (∀ f ∈ (s.logSource g.val).entries, f.waits = false) →
      ((s.logSource g.val).entries.map fun f => (f.cls, f.location, f.detail)).Nodup →
      (∀ l ∈ (s.logSource g.val).lost, l.2 = []) →
      (e.pending = none → ∃ t, exec (.coalesceHoldEnd g e.cls e.location e.detail) s = .next t ∧
        (t.logSource g.val).entries = (s.logSource g.val).entries.erase e ∧ (t.logSource g.val).queue = (s.logSource g.val).queue ∧
        t.now = max s.now e.holdEnd) ∧
      (∀ r, e.pending = some r → (s.logSource g.val).queue.length < 16 →
        ∃ t, exec (.coalesceHoldEnd g e.cls e.location e.detail) s = .next t ∧
          (t.logSource g.val).queue = (s.logSource g.val).queue ++ [{ r with lost := (s.logSource g.val).flag.contains r.cls.toNat }] ∧
          t.now = max s.now e.holdEnd)) ∧
    (∀ unstable : Bool,
      (s.yokeUp = true → bit s.mgmt.fprintCtrl 0 = true → s.mgmt.gen ≠ s.mgmt.genDone →
        ∃ t, exec (.fprintCompute unstable) s = .next t ∧ t.mgmt.digest = sha3 s.canonicalRecord ∧ t.mgmt.genDone = s.mgmt.gen ∧
          t.mgmt.computations = wrapAdd s.mgmt.computations 1 ∧ t.mem = s.mem) ∧
      (s.collarUp = true → s.mgmt.scanned = false → ∀ h (o : Nat), s.yokeUp = false → s.mgmt.held = some h →
        ∃ t, exec (.fprintRead (some o) unstable) s = .next t ∧ t = { s with out := t.out } ∧
          t.out.answers = .command 0x0C true ((h.record.drop o).take 240) :: s.out.answers) ∧
      (s.collarUp = true → s.yokeUp = true → s.mgmt.scanned = false →
        (∃ t, exec (.fprintRead none unstable) s = .next t ∧
          t.out.answers = .command 0x0C true (sha3 s.canonicalRecord) :: s.out.answers) ∧
        ∀ o : Nat, ∃ t, exec (.fprintRead (some o) unstable) s = .next t ∧ t = { s with out := t.out } ∧
          t.out.answers = .command 0x0C true ((s.canonicalRecord.drop o).take 240) :: s.out.answers)) ∧
    (s.collarUp = true →
      (∀ (off : BitVec 12) (bytes : List Byte),
        (s.mgmt.tagLocked = false → bit s.mgmt.serviceCtrl 2 = true → done (.tagWriteCommand off bytes) 9 fun t =>
          memRead t.mgmt.tagBytes off.toNat bytes.length = bytes ∧ t.mgmt.tagWrites = satAdd s.mgmt.tagWrites 1 ∧ t.mem = s.mem) ∧
        (s.mgmt.tagLocked = true ∨ bit s.mgmt.serviceCtrl 2 = false → refused (.tagWriteCommand off bytes) 9)) ∧
      done .tagLock 0x0A (fun t => t.mgmt.tagLocked = true ∧ t.mgmt.tagBytes = s.mgmt.tagBytes) ∧
      (strap = true → done (.tagUnlock strap) 0x0B fun t => t.mgmt.tagLocked = false ∧ t.mgmt.tagBytes = s.mgmt.tagBytes) ∧
      (strap = false → refused (.tagUnlock strap) 0x0B) ∧
      (strap = true → s.set.running = false → s.mgmt.debugLocked = false →
        done (.testMode strap) 0x0E fun t => t.mgmt.testMode = true ∧ t.set.running = false ∧
          ∀ e ∈ t.rings, e.2.use = .opened ∨ e.2.toOpen = true) ∧
      (strap = false ∨ s.set.running = true ∨ s.mgmt.debugLocked = true → refused (.testMode strap) 0x0E) ∧
      (strap = true → s.mgmt.testMode = false → done (.debugLock strap) 0x0F fun t => t.mgmt.debugLocked = true) ∧
      (strap = false ∨ s.mgmt.testMode = true → refused (.debugLock strap) 0x0F)) ∧
    (∀ a : ChainAccess,
      (s.collarUp = true → s.mgmt.chain ≠ .external → s.mgmt.debugLocked = false → chained (.chainOp a) a) ∧
      (s.mgmt.chain = .external → chained (.chainAccess a) a)) ∧
    (∃ t, exec (.externalChainTake strap) s = .next t ∧ t = { s with mgmt := t.mgmt } ∧
      (strap = true → s.mgmt.chain ≠ .collarBusy → t.mgmt.chain = .external) ∧
      (strap = false → s.mgmt.chain = .external → t.mgmt.chain = .collar))

/-- After R376 to R379, Table 18-4, in part: an image that verifies becomes the pending bank of its component, and one that does not
leaves that bank without an image; the attestation requests are answered, by slots and blocks, with the device's signature.
Verification and signature are opaque functions, and the message layouts the model's choice: log entries 15 and 27. What a scan has
destroyed is measured as free values: log entry 2. -/
def Obligations.FirmwareAndAttestation : Prop :=
  ∀ (s : State),
    (∀ image : FirmwareImage, s.updates = true → 1 ≤ image.component → image.component ≤ 5 →
      let f := s.fw image.component
      let t := (s.setFw image.component (f.update image (s.verifies image))).answer (.firmware image.component (s.verifies image))
      exec (.pldmFirmwareUpdate image) s = .next t ∧
        (s.verifies image = true → (t.fw image.component).pending = true ∧
          (if (t.fw image.component).activeB then (t.fw image.component).bankB else (t.fw image.component).bankA) =
            some ⟨image.version, image.svn, image.digest⟩) ∧
        (s.verifies image = false → (t.fw image.component).pending = false ∧
          (if f.inactiveB then (t.fw image.component).bankB else (t.fw image.component).bankA) = none) ∧
        (t.fw image.component).running = f.running ∧ (t.fw image.component).counter = f.counter ∧
        ∀ c, c ≠ image.component → t.fw c = s.fw c) ∧
    (∀ tr : Transport, s.responds tr = true →
      let answers (i : Instr) (a : Answer) : Prop := ∃ t, exec i s = .next t ∧ t.out.answers = a :: s.out.answers ∧
        t = { s with out := t.out, mgmt := t.mgmt, freeTick := t.freeTick } ∧
        t.mgmt = { s.mgmt with mctp := t.mgmt.mctp, doe := t.mgmt.doe }
      let offered := s.slotsOf tr
      answers (.getVersion tr) (.spdm 1 true [0x14]) ∧
      answers (.getCapabilities tr) (.spdm 2 true (Config.spdmBody 2 [])) ∧
      answers (.negotiateAlgorithms tr) (.spdm 3 true (Config.spdmBody 3 [])) ∧
      answers (.getDigests tr) (.spdm 4 true (offered.flatMap fun i => sha3 (Config.certificateChain i))) ∧
      (∀ (slot : Fin 8) (nonce : List Byte) (block : Byte),
        (slot.val < 2 → slot.val ∈ offered →
          answers (.getCertificate tr slot) (.spdm 5 true (Config.certificateChain slot.val)) ∧
          answers (.challenge tr slot nonce) (.spdm 6 true (Config.deviceSignature (BitVec.ofNat 8 slot.val :: nonce))) ∧
          (1 ≤ block.toNat → block.toNat ≤ 7 → answers (.getMeasurements tr slot block nonce)
            (.spdm 7 true (s.measurement block.toNat ++
              Config.deviceSignature (BitVec.ofNat 8 slot.val :: (nonce ++ s.measurement block.toNat)))))) ∧
        (slot.val < 2 → slot.val ∉ offered →
          answers (.getCertificate tr slot) (.busy 5) ∧ answers (.challenge tr slot nonce) (.busy 6) ∧
          (block.toNat ≤ 7 → answers (.getMeasurements tr slot block nonce) (.busy 7)))))

/-- R374: the Collar sends no second event of the same name and source within the holdoff. At the end of the holdoff it sends one
event carrying the current state, if that state differs from the last state it sent. The holdoff never suppresses
THERMAL_SHUTDOWN. That the end of a holdoff moves the time on to it is the model's reading: log entry 6. -/
def Obligations.HoldoffsLimitEvents : Prop :=
  ∀ (name : EventName) (source state : Nat) (s : State),
    (name ≠ .thermalShutdown → (∃ h ∈ s.mgmt.holdoffs, h.name = name ∧ h.source = source) →
      (s.event name source state).out = s.out ∧
      (s.event name source state).mgmt.holdoffs =
        s.mgmt.holdoffs.map fun h => if h.name = name ∧ h.source = source then { h with current := state } else h) ∧
    (name ≠ .thermalShutdown → (∀ h ∈ s.mgmt.holdoffs, ¬(h.name = name ∧ h.source = source)) →
      (s.event name source state).out.events = ⟨name, source, state⟩ :: s.out.events ∧
      (0 < s.holdoffNs → ⟨name, source, s.now + s.holdoffNs, state, state⟩ ∈ (s.event name source state).mgmt.holdoffs)) ∧
    ((s.event .thermalShutdown source state).out.events = ⟨.thermalShutdown, source, state⟩ :: s.out.events) ∧
    (∀ h, h ∈ s.mgmt.holdoffs → h.name = name → h.source = source →
      (s.mgmt.holdoffs.map fun g => (g.name, g.source)).Nodup →
      ∃ t, exec (.eventHoldoffEnd name source) s = .next t ∧ t.now = max s.now h.until_ ∧
        (h.current = h.sent → t.out = s.out ∧ t.mgmt.holdoffs = s.mgmt.holdoffs.erase h) ∧
        (h.current ≠ h.sent → t.out.events = ⟨name, source, h.current⟩ :: s.out.events))

/-! ## Setup registers -/

/-- R5: a read of a setup register that is not 32-bit aligned, or not 32 bits wide, returns all ones and has no side effect; a write
of either kind is discarded; each is recorded with class SETUP_ACCESS. The MSI-X structures are R298's exception. -/
def Obligations.MisalignedSetupAccess : Prop :=
  ∀ (path : Path) (off : BitVec 28) (width : Nat) (value : DWord) (env : WriteEnv) (s : State),
    s.pathOpen path off.toNat = true → width ≠ 4 ∨ off.toNat % 4 ≠ 0 → ¬(path = .pcie ∧ msixAccess off.toNat width = true) →
    (∃ t, exec (.setupRegisterRead path off width) s = .next t ∧
      t = { s.file (mkReport 0x01 grpYoke 0xFFF off.toNat width) with out := t.out } ∧
      t.out.answers = .setup off.toNat (List.replicate width 0xFF) :: s.out.answers) ∧
    exec (.setupRegisterWrite path off width value env) s = .next (s.file (mkReport 0x01 grpYoke 0xFFF off.toNat width))

/-- After R7, R9, R59, R66, R67, R216, R291, R301, R361, R362, R370, R375, R382, in part: what a write of each register with an effect of its
own does; where YK_CORE_DARKEN takes a core from a set that can replay and its crossover core passes its test, every ring starts at slot 0
of the lowest lap, and every core restarts at its mark for that lap with zero registers. When a written ring register takes effect, and that
the substitution is one row, is the model's reading: log entries 22 and 41. -/
def Obligations.RegisterWrites : Prop :=
  ∀ (path : Path) (n : CoreId) (q : RingQ) (value : Word) (s : State),
    let c := s.core n.val
    let co (off : Nat) : Prop := s.pathOpen path (coBase n.val + off) = true ∧ (s.entry n.val).state ≠ .absent ∧
      s.panelAnswers (n.val / 64) = true
    let others (t : State) : Prop := ∀ m, m ≠ n.val → t.core m = s.core m
    let logged (i : Instr) : Prop := ∃ t, exec i s = .next t ∧ t = { s with log := t.log }
    (s.pathOpen path 0x20 = true → ∃ t, exec (.ykExpertEnable path value) s = .next t ∧
      t.yoke.expertEnable = value &&& 0xFF ∧ t.mem = s.mem) ∧
    (co 0x84 → ∃ t, exec (.coRosterFault path n value) s = .next t ∧ others t ∧ t.core n.val =
      if bit value 31 then { c with seq := { c.seq with fault := { c.seq.fault with faulted := false } } } else c) ∧
    (co 0x90 →
      let size := (field value 16 16).toNat
      (size = 0 ∨ 49152 < (field value 0 16).toNat + size → logged (.coRosterRegion path n value)) ∧
      (0 < size → (field value 0 16).toNat + size ≤ 49152 → ∃ t, exec (.coRosterRegion path n value) s = .next t ∧ others t ∧
        (t.core n.val).seq.regionReg = value ∧
        (t.core n.val).seq.regionNow = if s.set.running then c.seq.regionNow else value)) ∧
    (∀ w : Fin 16, co (0x160 + 4 * w.val) →
      let fits := (field value 0 3).toNat + (field value 4 3).toNat + 1 ≤ 8
      (¬fits → logged (.coCreditWin path n w value)) ∧
      (fits → ∃ t, exec (.coCreditWin path n w value) s = .next t ∧ others t ∧
        mapGet 0 (t.core n.val).scr.windows w.val = field value 0 8 &&& 0xF7 ∧
        (t.core n.val).scr.windowsNow = c.scr.windowsNow)) ∧
    (s.pathOpen path 0x330 = true → ∃ t, exec (.ykDmaStatus path value) s = .next t ∧
      t.host.halted = s.host.halted &&& ~~~ field value 0 8 ∧ t.host.busy = s.host.busy) ∧
    (∀ env : WriteEnv, s.pathOpen path 0x520 = true → bit value 9 = true → (field value 0 9).toNat = n.val →
      (s.entry n.val).state ≠ .absent → s.physState (s.physOf n.val) = .active →
      ∃ t, exec (.ykCoreDarken path value env) s = .next t ∧ physDark (t.physState (s.physOf n.val)) = true ∧
        let x := crossoverOf (s.physOf n.val)
        (s.logicalOf (s.physOf n.val) = some n.val → s.physOf n.val ≠ x → s.physState x = .inactive → env.selfTest = true →
          n.val ∈ s.set.cores → s.canReplay = true → (s.rings.any fun e => e.2.use != .opened) = true →
          (t.entry n.val).state = .crossover ∧ t.physState x = .active ∧ t.credit = [] ∧
          (∀ k ∈ allRings, (t.ring k).lap = s.minLap ∧ (t.ring k).slot = 0 ∧ (t.ring k).atEnd = false) ∧
          ∀ m ∈ s.replayCores, (t.core m).seq.run = .running ∧ (t.core m).seq.lap = BitVec.ofNat 32 s.minLap ∧
            (t.core m).seq.position.toNat = restartWord (s.core m).seq s.minLap ∧ (t.core m).moveQ = [] ∧ ∀ r, t.sreg m r = 0)) ∧
    (s.pathOpen path 0x0900000C = true → bit value 0 = true → ∃ t, exec (.clTagCtrl path value) s = .next t ∧
      t.mgmt.tagLocked = true ∧ t.mgmt.tagBytes = s.mgmt.tagBytes) ∧
    (s.pathOpen path (0x1008 + 0x20 * q.val) = true → log2Fits 6 value = true →
      ((s.sq q.val).acts = false → bit value 31 = true → (s.cq (field value 16 6).toNat).enable = true →
        ∃ t, exec (.sqEnable path q value) s = .next t ∧ t.sq q.val = { s.sq q.val with
          cq := field value 16 6, log2 := field value 0 5, enable := true, disabling := false, head := 0, tail := 0,
          state := .running }) ∧
      ((s.sq q.val).enable = true → bit value 31 = true → bit value 30 = true → field value 16 6 = (s.sq q.val).cq →
        field value 0 5 = (s.sq q.val).log2 → (s.sq q.val).state = .stopped ∨ (s.sq q.val).state = .error →
        ∃ t, exec (.sqResume path q value) s = .next t ∧ t.sq q.val = { s.sq q.val with state := .running })) ∧
    (s.pathOpen path (0x1018 + 0x20 * q.val) = true → log2Fits 6 value = true → (s.cq q.val).enable = false →
      bit value 31 = true → (s.cq q.val).held = [] →
      ∃ t, exec (.cqEnable path q value) s = .next t ∧ t.cq q.val = { s.cq q.val with
        irqEnable := bit value 30, vector := field value 16 6, log2 := field value 0 5, enable := true, tail := 0, phase := true,
        head := 0, full := false }) ∧
    (s.pathOpen path 0x508 = true → log2Fits 10 value = true → bit s.log.ctrl 31 = false → bit value 31 = true →
      ∃ t, exec (.logEnable path value) s = .next t ∧ t.log.ctrl = value &&& 0xC000FF1F ∧ t.log.tail = 0 ∧ t.log.phase = true) ∧
    (s.pathOpen path 0x510 = true → ∃ t, exec (.ykLogHead path value) s = .next t ∧ t.log.head = field value 0 16) ∧
    (∀ env : WriteEnv, s.pathOpen path 0x100 = true →
      ∃ t, exec (.setupRegisterWrite path 0x100 4 (value.setWidth 64) env) s = .next t ∧
        t.yoke = { s.yoke with mapIndex := value &&& 0x1FF } ∧ t.cores = s.cores) ∧
    (∀ env : WriteEnv, s.collarUp = true → s.regPowered 0x01000004 = true →
      ∃ t, exec (.regWrite 0x1000004 value env) s = .next t ∧ t.power = { s.power with hostCap := field value 0 16 } ∧
        t.out.answers = .command 2 true [] :: s.out.answers) ∧
    (∀ (off : BitVec 28) (env : WriteEnv), s.collarUp = true → s.regPowered off.toNat = false →
      ∃ t, exec (.regWrite off value env) s = .next t ∧ t = { s with out := t.out } ∧
        t.out.answers = .unavailable 2 :: s.out.answers)

/-- After R4, R40, R328, R375, R386, in part: a read of a register that answers returns its value through the path's latches and
changes nothing else than those; a read of a low half latches the high half, and one of YK_FPRINT0 the other words of the
digest. -/
def Obligations.RegisterReads : Prop :=
  ∀ (path : Path) (n : CoreId) (off : BitVec 28) (r : Reg) (s : State), s.mgmt.scanned = false →
    let c := s.core n.val
    let low (v : Nat) : List Byte := leBytes 4 (v % 2 ^ 32)
    let reads (i : Instr) (o : Nat) (bytes : List Byte) (q : Latches → Prop) : Prop :=
      ∃ t, exec i s = .next t ∧ t = { s with out := t.out, time := t.time } ∧ t.out.answers = .setup o bytes :: s.out.answers ∧
        t.now = s.now ∧ q (t.latches path) ∧ ∀ x, x ≠ path → t.latches x = s.latches x
    (s.pathOpen path off.toNat = true → off.toNat % 4 = 0 → regAt off.toNat = some r → s.regAnswers r = true →
      reads (.setupRegisterRead path off 4) off.toNat (leBytes 4 (s.regValue (s.latches path) r).toNat) fun _ => True) ∧
    (s.pathOpen path 0x40 = true → reads (.ykTimebaseLo path) 0x40 (low s.now) fun l =>
      l = { s.latches path with timebase := BitVec.ofNat 32 (s.now / 2 ^ 32) }) ∧
    (s.pathOpen path 0x44 = true → reads (.setupRegisterRead path 0x44 4) 0x44 (leBytes 4 (s.latches path).timebase.toNat) fun l =>
      l = s.latches path) ∧
    ((s.entry n.val).state ≠ .absent → s.panelAnswers (n.val / 64) = true →
      (s.pathOpen path (coBase n.val + 0x44) = true →
        reads (.coBeatCountLo path n) (coBase n.val + 0x44) (low c.seq.beats) fun l =>
          mapGet 0 l.beats n.val = BitVec.ofNat 32 (c.seq.beats / 2 ^ 32)) ∧
      (s.pathOpen path (coBase n.val + 0x1C4) = true →
        reads (.coMinVoltNsLo path n) (coBase n.val + 0x1C4) (low c.supply.minTime.toNat) fun l =>
          mapGet 0 l.minVolt n.val = BitVec.ofNat 32 (c.supply.minTime.toNat / 2 ^ 32))) ∧
    (s.pathOpen path 0x600 = true → s.mgmt.digest.length = 64 →
      reads (.ykFprint0 path) 0x600 (s.mgmt.digest.take 4) fun l => l.fprint.length = 15 ∧
        ∀ i, i < 15 → leBytes 4 ((l.fprint[i]?).getD 0).toNat = (s.mgmt.digest.drop (4 * (i + 1))).take 4) ∧
    (s.collarUp = true → s.regPowered off.toNat = true → off.toNat % 4 = 0 → regAt off.toNat = some r → s.regAnswers r = true →
      ∃ t, exec (.regRead off) s = .next t ∧ t = { s with out := t.out, time := t.time } ∧
        t.out.answers = .command 1 true (leBytes 4 (s.regValue (s.latches .collar) r).toNat) :: s.out.answers) ∧
    (s.collarUp = true → s.regPowered off.toNat = false →
      ∃ t, exec (.regRead off) s = .next t ∧ t = { s with out := t.out } ∧
        t.out.answers = .unavailable 1 :: s.out.answers)

/-- What reset leaves: memory in canonical form, no set active, nothing waiting; and registers of every block at the values of the
spec's Reset columns, read through a fresh path. Only values that the Reset columns give are stated here. -/
def Obligations.ResetValues : Prop :=
  State.reset.memoryWf = true ∧ State.reset.pending = [] ∧ State.reset.set.running = false ∧ State.reset.now = 0 ∧
  ∀ e : Nat × Word, e ∈ [((0x20 : Nat), (0 : Word)), (0x210, 0x01020000), (0x220, 1), (0x224, 0x00640301), (0x228, 0x000F4240), (0x310, 1),
      (0x314, 0x308), (0x400, 0), (0x508, 0x100A), (0x514, 0x64), (0x640, 1), (0x1008, 6), (0x1018, 6), (0x01000000, 4),
      (0x01000010, 0x000A0A05), (0x01000014, 0x00141414), (0x02000004, 0x00027D0A), (0x04000090, 0x00100000), (0x040000C0, 1),
      (0x040000C4, 2), (0x040000F4, 0x201), (0x04000104, 0x201), (0x04000120, 1), (0x04000140, 3), (0x04000160, 0), (0x06000000, 3),
      (0x07000000, 0xC7), (0x07000004, 0x00406400), (0x09000004, 7), (0x09000008, 5)] →
    ∃ r, regAt e.1 = some r ∧ State.reset.regValue Latches.reset r = e.2
end

