-- ==== Sys2Proof/Laws/Memory.lean ====
section
/-!
SUPPORT. Laws of sparse maps and of byte-addressed memory: a read after a write, and that every memory operation keeps the
canonical form.
-/

namespace Sys2Proof.Machine

/-! ### Maps -/

theorem mapGet_mapPut_same {α : Type} (d : α) (m : List (Nat × α)) (k : Nat) (v : α) : mapGet d (mapPut m k v) k = v := by
  induction m with
  | nil => simp [mapPut, mapGet]
  | cons e r ih =>
    simp only [mapPut]
    split
    · simp [mapGet]
    · split
      · simp [mapGet]
      · have : e.1 ≠ k := by omega
        simp [mapGet, this, ih]

theorem mapGet_mapPut_other {α : Type} (d : α) (m : List (Nat × α)) (k j : Nat) (v : α) (h : j ≠ k) :
    mapGet d (mapPut m k v) j = mapGet d m j := by
  induction m with
  | nil => simp [mapPut, mapGet, Ne.symm h]
  | cons e r ih =>
    simp only [mapPut]
    split
    · simp [mapGet, Ne.symm h]
    · split
      · rename_i _ hk
        simp [mapGet, Ne.symm h, ← hk]
      · simp [mapGet, ih]

theorem mapGet_mapPut {α : Type} (d : α) (m : List (Nat × α)) (k j : Nat) (v : α) :
    mapGet d (mapPut m k v) j = if j = k then v else mapGet d m j := by
  by_cases h : j = k
  · subst h; simp [mapGet_mapPut_same]
  · simp [h, mapGet_mapPut_other]

/-- Strictly rising keys, read from the front: the rest rises and lies above the first key. -/
theorem keysRise_cons {α : Type} (e : Nat × α) (r : List (Nat × α)) :
    keysRise (e :: r) = true ↔ (∀ f ∈ r, e.1 < f.1) ∧ keysRise r = true := by
  induction r generalizing e with
  | nil => simp [keysRise]
  | cons f t ih =>
    simp only [keysRise, Bool.and_eq_true, decide_eq_true_eq]
    constructor
    · rintro ⟨h1, h2⟩
      refine ⟨?_, h2⟩
      intro g hg
      rcases List.mem_cons.mp hg with rfl | hg
      · exact h1
      · exact Nat.lt_trans h1 (((ih f).mp h2).1 g hg)
    · rintro ⟨h1, h2⟩
      exact ⟨h1 f (List.mem_cons_self ..), h2⟩

theorem mem_mapPut {α : Type} (m : List (Nat × α)) (k : Nat) (v : α) (f : Nat × α) (h : f ∈ mapPut m k v) :
    f = (k, v) ∨ f ∈ m := by
  induction m with
  | nil => simpa [mapPut] using h
  | cons e r ih =>
    simp only [mapPut] at h
    split at h
    · rcases List.mem_cons.mp h with h | h
      · exact .inl h
      · exact .inr h
    · split at h
      · rcases List.mem_cons.mp h with h | h
        · exact .inl h
        · exact .inr (List.mem_cons_of_mem _ h)
      · rcases List.mem_cons.mp h with h | h
        · exact .inr (h ▸ List.mem_cons_self ..)
        · rcases ih h with h | h
          · exact .inl h
          · exact .inr (List.mem_cons_of_mem _ h)

theorem keysRise_mapPut {α : Type} (m : List (Nat × α)) (k : Nat) (v : α) (h : keysRise m = true) :
    keysRise (mapPut m k v) = true := by
  induction m with
  | nil => rfl
  | cons e r ih =>
    have he := (keysRise_cons e r).mp h
    simp only [mapPut]
    split
    · rename_i hk
      refine (keysRise_cons _ _).mpr ⟨?_, h⟩
      intro f hf
      rcases List.mem_cons.mp hf with rfl | hf
      · exact hk
      · exact Nat.lt_trans hk (he.1 f hf)
    · split
      · rename_i _ hk
        refine (keysRise_cons _ _).mpr ⟨?_, he.2⟩
        intro f hf
        have := he.1 f hf
        show k < f.1
        omega
      · refine (keysRise_cons _ _).mpr ⟨?_, ih he.2⟩
        intro f hf
        rcases mem_mapPut r k v f hf with rfl | hf
        · show e.1 < k
          omega
        · exact he.1 f hf

theorem keysRise_filter {α : Type} (m : List (Nat × α)) (p : Nat × α → Bool) (h : keysRise m = true) :
    keysRise (m.filter p) = true := by
  induction m with
  | nil => rfl
  | cons e r ih =>
    have he := (keysRise_cons e r).mp h
    simp only [List.filter_cons]
    split
    · exact (keysRise_cons _ _).mpr ⟨fun f hf => he.1 f (List.mem_of_mem_filter hf), ih he.2⟩
    · exact ih he.2

/-- A key below the first of a rising map is not listed. -/
theorem mapGet_below {α : Type} (d : α) (m : List (Nat × α)) (k : Nat) (h : ∀ f ∈ m, k < f.1) : mapGet d m k = d := by
  induction m with
  | nil => rfl
  | cons e r ih =>
    have h1 := h e (List.mem_cons_self ..)
    have : e.1 ≠ k := by omega
    simp only [mapGet, if_neg this]
    exact ih fun f hf => h f (List.mem_cons_of_mem _ hf)

theorem mapGet_filter {α : Type} (d : α) (m : List (Nat × α)) (p : Nat → Bool) (k : Nat) :
    mapGet d (m.filter fun e => p e.1) k = if p k = true then mapGet d m k else d := by
  induction m with
  | nil => simp [mapGet]
  | cons e r ih =>
    simp only [List.filter_cons]
    by_cases hk : e.1 = k
    · subst hk
      by_cases hp : p e.1 = true
      · simp [hp, mapGet]
      · simp [hp, ih]
    · by_cases hp : p e.1 = true
      · simp [hp, mapGet, hk, ih]
      · simp [hp, mapGet, hk, ih]

/-! ### Memory -/

theorem memGet_memPut (m : List Host.Cell) (a x : Nat) (b : Byte) :
    memGet (memPut m a b) x = if x = a then b else memGet m x := by
  unfold memPut memGet
  split
  · rename_i hb
    have := mapGet_filter unlistedByte m (fun e => e ≠ a) x
    simp only [mapErase] at *
    rw [this]
    by_cases hx : x = a
    · simp [hx, hb]
    · simp [hx]
  · rw [mapGet_mapPut]

/-- A byte outside the written range reads as before. -/
theorem memGet_memWrite_out (m : List Host.Cell) (a x : Nat) (bs : List Byte) (h : x < a ∨ a + bs.length ≤ x) :
    memGet (memWrite m a bs) x = memGet m x := by
  induction bs generalizing m a with
  | nil => rfl
  | cons b r ih =>
    simp only [memWrite]
    simp only [List.length_cons] at h
    rw [ih _ _ (by omega), memGet_memPut, if_neg (by omega)]

/-- A byte inside the written range reads as written. -/
theorem memGet_memWrite_in (m : List Host.Cell) (a i : Nat) (bs : List Byte) (h : i < bs.length) :
    memGet (memWrite m a bs) (a + i) = bs[i] := by
  induction bs generalizing m a i with
  | nil => simp at h
  | cons b r ih =>
    simp only [memWrite]
    cases i with
    | zero =>
      rw [memGet_memWrite_out _ _ _ _ (by omega), memGet_memPut]
      simp
    | succ j =>
      have hj : j < r.length := by simpa using h
      have := ih (memPut m a b) (a + 1) j hj
      simp only [List.getElem_cons_succ]
      rw [← this]
      congr 1
      omega

theorem memRead_length (m : List Host.Cell) (a n : Nat) : (memRead m a n).length = n := by
  induction n generalizing a with
  | zero => rfl
  | succ k ih => simp [memRead, ih]

/-- A read of the written range gives the bytes written. -/
theorem memRead_memWrite (m : List Host.Cell) (a : Nat) (bs : List Byte) : memRead (memWrite m a bs) a bs.length = bs := by
  have key : ∀ (n : Nat) (m : List Host.Cell) (a : Nat) (l : List Byte), l.length = n →
      (∀ i (h : i < l.length), memGet m (a + i) = l[i]) → memRead m a n = l := by
    intro n
    induction n with
    | zero => intro m a l hl _; simp [memRead, List.length_eq_zero_iff.mp hl]
    | succ k ih =>
      intro m a l hl hg
      cases l with
      | nil => simp at hl
      | cons b r =>
        have h0 := hg 0 (by simp)
        simp only [memRead]
        rw [ih m (a + 1) r (by simpa using hl) ?_]
        · simpa using h0
        · intro i hi
          have := hg (i + 1) (by simpa using hi)
          simp only [List.getElem_cons_succ] at this
          rw [← this]
          congr 1
          omega
  exact key _ _ _ _ rfl fun i h => memGet_memWrite_in m a i bs h

/-- A cleared range reads as unlisted, every other byte as before. -/
theorem memGet_memClear (m : List Host.Cell) (a n x : Nat) :
    memGet (memClear m a n) x = if x < a ∨ a + n ≤ x then memGet m x else unlistedByte := by
  have := mapGet_filter unlistedByte m (fun e => e < a || a + n ≤ e) x
  simp only [memGet, memClear]
  rw [this]
  simp

theorem wf_memPut (m : List Host.Cell) (a : Nat) (b : Byte) (h : Memory.wf m = true) : Memory.wf (memPut m a b) = true := by
  simp only [Memory.wf, Bool.and_eq_true] at h ⊢
  unfold memPut
  split
  · refine ⟨keysRise_filter _ _ h.1, ?_⟩
    rw [List.all_eq_true] at h ⊢
    exact fun x hx => h.2 x (List.mem_of_mem_filter hx)
  · rename_i hb
    refine ⟨keysRise_mapPut _ _ _ h.1, ?_⟩
    rw [List.all_eq_true] at h ⊢
    intro x hx
    rcases mem_mapPut _ _ _ _ hx with rfl | hx
    · simpa using hb
    · exact h.2 x hx

theorem wf_memWrite (m : List Host.Cell) (a : Nat) (bs : List Byte) (h : Memory.wf m = true) :
    Memory.wf (memWrite m a bs) = true := by
  induction bs generalizing m a with
  | nil => exact h
  | cons b r ih => exact ih _ _ (wf_memPut _ _ _ h)

theorem wf_memClear (m : List Host.Cell) (a n : Nat) (h : Memory.wf m = true) : Memory.wf (memClear m a n) = true := by
  simp only [Memory.wf, Bool.and_eq_true] at h ⊢
  refine ⟨keysRise_filter _ _ h.1, ?_⟩
  rw [List.all_eq_true] at h ⊢
  exact fun x hx => h.2 x (List.mem_of_mem_filter hx)

end Sys2Proof.Machine
end

