-- ==== Sys2Proof/Laws/Keeps.lean ====
section
/-!
SUPPORT. What no command may break, as a relation between a state and a later one: the queue of commands stays as it is, and
each byte memory (device, host, tag) keeps its canonical form. One lemma per shared operation composes it; the same for what a
unit of one core does (`LocalKeeps`).
-/

namespace Sys2Proof.Machine

/-- `t` comes after `s` with the same queue, and canonical memories stay canonical. -/
structure StateKeeps (s t : State) : Prop where
  pending : t.pending = s.pending
  mem : Memory.wf s.mem = true → Memory.wf t.mem = true
  hostMem : Memory.wf s.out.hostMem = true → Memory.wf t.out.hostMem = true
  tagBytes : Memory.wf s.mgmt.tagBytes = true → Memory.wf t.mgmt.tagBytes = true

/-- `m` comes after `l` on the same core with the same surroundings, and canonical memory stays canonical. -/
structure LocalKeeps (l m : Local) : Prop where
  env : m.env = l.env
  mem : Memory.wf l.mem = true → Memory.wf m.mem = true

theorem StateKeeps.refl (s : State) : StateKeeps s s := ⟨rfl, id, id, id⟩

theorem StateKeeps.trans {s t u : State} (h : StateKeeps s t) (k : StateKeeps t u) : StateKeeps s u :=
  ⟨k.pending.trans h.pending, fun x => k.mem (h.mem x), fun x => k.hostMem (h.hostMem x), fun x => k.tagBytes (h.tagBytes x)⟩

/-- A change of fields other than the queue and the memories. -/
theorem StateKeeps.upd {s x : State} {c r co cu pa se ma ti yo ca st ba sc cr ho po th lo} {mg : Mgmt} {o : Outputs} {ft}
    (hout : o.hostMem = x.out.hostMem) (ht : mg.tagBytes = x.mgmt.tagBytes) :
    StateKeeps s ⟨x.pending, x.mem, c, r, co, cu, pa, se, ma, ti, yo, ca, st, ba, sc, cr, ho, po, th, lo, mg, o, ft⟩ ↔
      StateKeeps s x :=
  ⟨fun h => ⟨h.pending, h.mem, fun k => hout ▸ h.hostMem k, fun k => ht ▸ h.tagBytes k⟩,
   fun h => ⟨h.pending, h.mem, fun k => hout ▸ h.hostMem k, fun k => ht ▸ h.tagBytes k⟩⟩

/-- Bytes written to device memory, with a change of other fields. -/
theorem StateKeeps.write {s x : State} (h : StateKeeps s x) {a bs c r co cu pa se ma ti yo ca st ba sc cr ho po th lo} {mg : Mgmt}
    {o : Outputs} {ft} (hout : o.hostMem = x.out.hostMem) (ht : mg.tagBytes = x.mgmt.tagBytes) :
    StateKeeps s ⟨x.pending, memWrite x.mem a bs, c, r, co, cu, pa, se, ma, ti, yo, ca, st, ba, sc, cr, ho, po, th, lo, mg, o, ft⟩ :=
  ⟨h.pending, fun k => wf_memWrite _ _ _ (h.mem k), fun k => hout ▸ h.hostMem k, fun k => ht ▸ h.tagBytes k⟩

/-- Device memory cleared over a range, with a change of other fields. -/
theorem StateKeeps.clear {s x : State} (h : StateKeeps s x) {a n c r co cu pa se ma ti yo ca st ba sc cr ho po th lo} {mg : Mgmt}
    {o : Outputs} {ft} (hout : o.hostMem = x.out.hostMem) (ht : mg.tagBytes = x.mgmt.tagBytes) :
    StateKeeps s ⟨x.pending, memClear x.mem a n, c, r, co, cu, pa, se, ma, ti, yo, ca, st, ba, sc, cr, ho, po, th, lo, mg, o, ft⟩ :=
  ⟨h.pending, fun k => wf_memClear _ _ _ (h.mem k), fun k => hout ▸ h.hostMem k, fun k => ht ▸ h.tagBytes k⟩

theorem LocalKeeps.refl (l : Local) : LocalKeeps l l := ⟨rfl, id⟩

theorem LocalKeeps.trans {l m k : Local} (h : LocalKeeps l m) (g : LocalKeeps m k) : LocalKeeps l k :=
  ⟨g.env.trans h.env, fun x => g.mem (h.mem x)⟩

/-- A change of anything but memory and surroundings. -/
theorem LocalKeeps.upd {l x : Local} {c r k w} : LocalKeeps l ⟨x.env, c, x.mem, r, k, w⟩ ↔ LocalKeeps l x :=
  ⟨fun h => ⟨h.env, h.mem⟩, fun h => ⟨h.env, h.mem⟩⟩

/-- Bytes written to memory, with a change of other fields. -/
theorem LocalKeeps.write {l x : Local} (h : LocalKeeps l x) {c r k w a bs} :
    LocalKeeps l ⟨x.env, c, memWrite x.mem a bs, r, k, w⟩ := ⟨h.env, fun y => wf_memWrite _ _ _ (h.mem y)⟩

/-- A unit's progress applied any number of times. -/
theorem LocalKeeps.iter {l : Local} (f : Local → Local) (hf : ∀ x, LocalKeeps x (f x)) (n : Nat) {x : Local} (h : LocalKeeps l x) :
    LocalKeeps l (iterate n f x) := by
  induction n generalizing x with
  | zero => exact h
  | succ k ih => exact ih (h.trans (hf x))

theorem LocalKeeps.foldl {α : Type} {l : Local} (as : List α) (f : Local → α → Local)
    (hf : ∀ x a, LocalKeeps x (f x a)) {x : Local} (h : LocalKeeps l x) : LocalKeeps l (as.foldl f x) := by
  induction as generalizing x with
  | nil => exact h
  | cons a r ih => exact ih (h.trans (hf x a))

/-- Items of a list applied in turn. -/
theorem StateKeeps.fold {α : Type} {s : State} (l : List α) (f : State → α → State)
    (hf : ∀ t a, StateKeeps t (f t a)) {x : State} (h : StateKeeps s x) : StateKeeps s (foldOver l f x) := by
  induction l generalizing x with
  | nil => exact h
  | cons a r ih => exact ih (h.trans (hf x a))

theorem StateKeeps.foldl {α : Type} {s : State} (l : List α) (f : State → α → State)
    (hf : ∀ t a, StateKeeps t (f t a)) {x : State} (h : StateKeeps s x) : StateKeeps s (l.foldl f x) :=
  StateKeeps.fold l f hf h

end Sys2Proof.Machine
end

