-- ==== Sys2Proof/Laws/KeepsCore.lean ====
section
/-!
SUPPORT. What every unit of a core does keeps the surroundings and the canonical form of device memory: one lemma per operation.
-/

namespace Sys2Proof.Machine

theorem Local.report_keeps {l x : Local} (h : LocalKeeps l x) (r : Report) : LocalKeeps l (Local.report x r) := by
  unfold Local.report
  repeat' (first | with_reducible exact h | with_reducible exact LocalKeeps.refl _ | simp only [LocalKeeps.upd])

theorem Local.rosterFault_keeps {l x : Local} (h : LocalKeeps l x) (kind : Nat) (slot : Nat) (word : BitVec 28) : LocalKeeps l (Local.rosterFault x kind slot word) := by
  unfold Local.rosterFault
  repeat' (first | with_reducible exact h | with_reducible exact LocalKeeps.refl _ | with_reducible apply Local.report_keeps | simp only [LocalKeeps.upd] | with_reducible apply LocalKeeps.write | split)

theorem Local.scrUpd_keeps {l x : Local} (h : LocalKeeps l x) (f : ScratchState → ScratchState) : LocalKeeps l (Local.scrUpd x f) := by
  unfold Local.scrUpd
  repeat' (first | with_reducible exact h | with_reducible exact LocalKeeps.refl _ | simp only [LocalKeeps.upd])

theorem Local.stepParity_keeps {l x : Local} (h : LocalKeeps l x) : LocalKeeps l (Local.stepParity x) := by
  unfold Local.stepParity
  repeat' (first | with_reducible exact h | with_reducible exact LocalKeeps.refl _ | with_reducible apply Local.rosterFault_keeps | simp only [LocalKeeps.upd] | with_reducible apply LocalKeeps.write | split)

theorem Local.findParity_keeps {l x : Local} (h : LocalKeeps l x) (port : Nat) (bad : List Nat) : LocalKeeps l (Local.findParity x port bad) := by
  induction bad generalizing x port with
  | nil =>
    unfold Local.findParity
    repeat' (first | with_reducible exact h)
  | cons a r ih =>
    unfold Local.findParity
    repeat' (first | with_reducible exact h | with_reducible apply ih | with_reducible exact LocalKeeps.refl _ | with_reducible apply Local.report_keeps | with_reducible apply Local.stepParity_keeps | simp only [LocalKeeps.upd] | with_reducible apply LocalKeeps.write | split)

theorem Local.readScr_keeps {l x : Local} (h : LocalKeeps l x) (port : Nat) (off : Nat) (len : Nat) : LocalKeeps l (Local.readScr x port off len).2 := by
  unfold Local.readScr
  repeat' (first | with_reducible exact h | with_reducible exact LocalKeeps.refl _ | with_reducible apply Local.findParity_keeps)

theorem Local.writeScr_keeps {l x : Local} (h : LocalKeeps l x) (off : Nat) (bytes : List Byte) : LocalKeeps l (Local.writeScr x off bytes) := by
  unfold Local.writeScr
  repeat' (first | with_reducible exact h | with_reducible exact LocalKeeps.refl _ | dsimp only | with_reducible apply LocalKeeps.write)

theorem Local.readRuns_keeps {l x : Local} (h : LocalKeeps l x) (port : Nat) (len : Nat) (starts : List Int) : LocalKeeps l (Local.readRuns x port len starts).2 := by
  induction starts generalizing x port len with
  | nil =>
    unfold Local.readRuns
    repeat' (first | with_reducible exact h)
  | cons a r ih =>
    unfold Local.readRuns
    repeat' (first | with_reducible exact h | with_reducible apply ih | with_reducible exact LocalKeeps.refl _ | with_reducible apply Local.readScr_keeps)

theorem Local.writeRuns_keeps {l x : Local} (h : LocalKeeps l x) (starts : List Int) (runs : List (List Byte)) : LocalKeeps l (Local.writeRuns x starts runs) := by
  induction starts generalizing x runs with
  | nil => exact h
  | cons a r ih =>
    cases runs with
    | nil => exact h
    | cons b t => exact ih (Local.writeScr_keeps h _ _) t

theorem Local.cross_keeps {l x : Local} (h : LocalKeeps l x) (port : Nat) (lines : List Nat) : LocalKeeps l (Local.cross x port lines) := by
  unfold Local.cross
  repeat' (first | with_reducible exact h | with_reducible exact LocalKeeps.refl _ | with_reducible apply Local.scrUpd_keeps | dsimp only | with_reducible apply LocalKeeps.write | split)

theorem Local.crossAll_keeps {l x : Local} (h : LocalKeeps l x) (ps : List (Nat × Pattern)) : LocalKeeps l (Local.crossAll x ps) := by
  unfold Local.crossAll
  induction ps generalizing x with
  | nil => exact h
  | cons p r ih => exact ih (Local.cross_keeps h _ _)

theorem Local.arrUpd_keeps {l x : Local} (h : LocalKeeps l x) (f : ArrayState → ArrayState) : LocalKeeps l (Local.arrUpd x f) := by
  unfold Local.arrUpd
  repeat' (first | with_reducible exact h | with_reducible exact LocalKeeps.refl _ | simp only [LocalKeeps.upd])

theorem Local.runWload_keeps {l x : Local} (h : LocalKeeps l x) (sy : Bool) (x' : Pattern) (packed : Bool) : LocalKeeps l (Local.runWload x sy x' packed) := by
  unfold Local.runWload
  repeat' (first | with_reducible exact h | with_reducible exact LocalKeeps.refl _ | with_reducible apply Local.arrUpd_keeps | with_reducible apply Local.cross_keeps | with_reducible apply Local.readRuns_keeps)

theorem Local.frontStart_keeps {l x : Local} (h : LocalKeeps l x) : LocalKeeps l (Local.frontStart x) := by
  unfold Local.frontStart
  repeat' (first | with_reducible exact h | with_reducible exact LocalKeeps.refl _ | with_reducible apply Local.arrUpd_keeps | simp only [LocalKeeps.upd] | with_reducible apply LocalKeeps.write | split)

theorem Local.readActivations_keeps {l x : Local} (h : LocalKeeps l x) (xs : List Pattern) : LocalKeeps l (Local.readActivations x xs).2 := by
  induction xs generalizing x with
  | nil =>
    unfold Local.readActivations
    repeat' (first | with_reducible exact h)
  | cons a r ih =>
    unfold Local.readActivations
    repeat' (first | with_reducible exact h | with_reducible apply ih | with_reducible exact LocalKeeps.refl _ | with_reducible apply Local.readRuns_keeps)

theorem Local.fillActivations_keeps {l x : Local} (h : LocalKeeps l x) (k : Nat) (o : ArrOp) : LocalKeeps l (Local.fillActivations x k o) := by
  unfold Local.fillActivations
  repeat' (first | with_reducible exact h | with_reducible exact LocalKeeps.refl _ | with_reducible apply Local.arrUpd_keeps | with_reducible apply Local.readActivations_keeps | dsimp only | with_reducible apply LocalKeeps.write | split)

theorem Local.passStart_keeps {l x : Local} (h : LocalKeeps l x) : LocalKeeps l (Local.passStart x) := by
  unfold Local.passStart
  repeat' (first | with_reducible exact h | with_reducible exact LocalKeeps.refl _ | with_reducible apply Local.arrUpd_keeps | with_reducible apply Local.frontStart_keeps | with_reducible apply Local.fillActivations_keeps | with_reducible apply Local.load_keeps | dsimp only | with_reducible apply LocalKeeps.write | split)

theorem Local.readResults_keeps {l x : Local} (h : LocalKeeps l x) (y : Pattern) : LocalKeeps l (Local.readResults x y).2 := by
  unfold Local.readResults
  repeat' (first | with_reducible exact h | with_reducible exact LocalKeeps.refl _ | with_reducible apply Local.readRuns_keeps)

theorem Local.activationRuns_keeps {l x : Local} (h : LocalKeeps l x) (x' : Pattern) (held : Option (List (List Byte))) : LocalKeeps l (Local.activationRuns x x' held).2 := by
  unfold Local.activationRuns
  repeat' (first | with_reducible exact h | with_reducible exact LocalKeeps.refl _ | with_reducible apply Local.readRuns_keeps | simp only [LocalKeeps.upd] | with_reducible apply LocalKeeps.write | split)

theorem Local.applyLoad_keeps {l x : Local} (h : LocalKeeps l x) (h' : WeightLoad) (x' : Pattern) (y : Pattern) (acc : Bool) (held : Option (List (List Byte))) (times : Nat) : LocalKeeps l (Local.applyLoad x h' x' y acc held times) := by
  unfold Local.applyLoad
  repeat' (first | with_reducible exact h | with_reducible exact LocalKeeps.refl _ | with_reducible apply Local.arrUpd_keeps | with_reducible apply Local.readResults_keeps | with_reducible apply Local.activationRuns_keeps | with_reducible apply Local.load_keeps | with_reducible apply Local.writeRuns_keeps | simp only [LocalKeeps.upd] | with_reducible apply LocalKeeps.write | split)

theorem Local.applyBatch_keeps {l x : Local} (h : LocalKeeps l x) (h' : WeightLoad) (batch : List GatherEntry) (held : List (List (List Byte))) (times : Nat) : LocalKeeps l (Local.applyBatch x h' batch held times) := by
  induction batch generalizing x h' held times with
  | nil =>
    unfold Local.applyBatch
    repeat' (first | with_reducible exact h)
  | cons a r ih =>
    unfold Local.applyBatch
    repeat' (first | with_reducible exact h | with_reducible apply ih | with_reducible exact LocalKeeps.refl _ | with_reducible apply Local.applyLoad_keeps)

theorem Local.passEnd_keeps {l x : Local} (h : LocalKeeps l x) : LocalKeeps l (Local.passEnd x) := by
  unfold Local.passEnd
  repeat' (first | with_reducible exact h | with_reducible exact LocalKeeps.refl _ | with_reducible apply Local.arrUpd_keeps | with_reducible apply Local.applyLoad_keeps | with_reducible apply Local.applyBatch_keeps | with_reducible apply Local.crossAll_keeps | with_reducible apply Local.load_keeps | simp only [LocalKeeps.upd] | with_reducible apply LocalKeeps.write | split)

theorem Local.vecUpd_keeps {l x : Local} (h : LocalKeeps l x) (f : VectorState → VectorState) : LocalKeeps l (Local.vecUpd x f) := by
  unfold Local.vecUpd
  repeat' (first | with_reducible exact h | with_reducible exact LocalKeeps.refl _ | simp only [LocalKeeps.upd])

theorem Local.runVld_keeps {l x : Local} (h : LocalKeeps l x) (vd : RegId) (p : Pattern) : LocalKeeps l (Local.runVld x vd p) := by
  unfold Local.runVld
  repeat' (first | with_reducible exact h | with_reducible exact LocalKeeps.refl _ | with_reducible apply Local.readRuns_keeps | with_reducible apply Local.vecUpd_keeps)

theorem Local.countNumeric_keeps {l x : Local} (h : LocalKeeps l x) (clamps : Nat) (nans : Nat) : LocalKeeps l (Local.countNumeric x clamps nans) := by
  unfold Local.countNumeric
  repeat' (first | with_reducible exact h | with_reducible exact LocalKeeps.refl _ | simp only [LocalKeeps.upd])

theorem Local.runVst_keeps {l x : Local} (h : LocalKeeps l x) (va : RegId) (p : Pattern) : LocalKeeps l (Local.runVst x va p) := by
  unfold Local.runVst
  repeat' (first | with_reducible exact h | with_reducible exact LocalKeeps.refl _ | with_reducible apply Local.writeRuns_keeps | with_reducible apply Local.countNumeric_keeps)

theorem Local.runVtload_keeps {l x : Local} (h : LocalKeeps l x) (p : Pattern) : LocalKeeps l (Local.runVtload x p) := by
  unfold Local.runVtload
  repeat' (first | with_reducible exact h | with_reducible exact LocalKeeps.refl _ | with_reducible apply Local.readRuns_keeps | with_reducible apply Local.vecUpd_keeps)

theorem Local.runVcvt_keeps {l x : Local} (h : LocalKeeps l x) (vd : RegId) (va : RegId) (fn : Nat) : LocalKeeps l (Local.runVcvt x vd va fn) := by
  unfold Local.runVcvt
  repeat' (first | with_reducible exact h | with_reducible exact LocalKeeps.refl _ | with_reducible apply Local.vecUpd_keeps | with_reducible apply Local.countNumeric_keeps)

theorem Local.setLanes_keeps {l x : Local} (h : LocalKeeps l x) (vd : RegId) (lanes : List Word) : LocalKeeps l (Local.setLanes x vd lanes) := by
  unfold Local.setLanes
  repeat' (first | with_reducible exact h | with_reducible exact LocalKeeps.refl _ | with_reducible apply Local.vecUpd_keeps)

theorem Local.runVec_keeps {l x : Local} (h : LocalKeeps l x) (v : VOp) (pat : Option Pattern) (scalar : DWord) : LocalKeeps l (Local.runVec x v pat scalar) := by
  unfold Local.runVec
  repeat' (first | with_reducible exact h | with_reducible exact LocalKeeps.refl _ | with_reducible apply Local.runVld_keeps | with_reducible apply Local.runVst_keeps | with_reducible apply Local.runVtload_keeps | with_reducible apply Local.runVcvt_keeps | with_reducible apply Local.setLanes_keeps | dsimp only | with_reducible apply LocalKeeps.write | split)

theorem Local.vecDispatch_keeps {l x : Local} (h : LocalKeeps l x) : LocalKeeps l (Local.vecDispatch x) := by
  unfold Local.vecDispatch
  repeat' (first | with_reducible exact h | with_reducible exact LocalKeeps.refl _ | with_reducible apply Local.crossAll_keeps | with_reducible apply Local.vecUpd_keeps | with_reducible apply Local.runVec_keeps | simp only [LocalKeeps.upd] | with_reducible apply LocalKeeps.write | split)

theorem Local.attUpd_keeps {l x : Local} (h : LocalKeeps l x) (f : AttState → AttState) : LocalKeeps l (Local.attUpd x f) := by
  unfold Local.attUpd
  repeat' (first | with_reducible exact h | with_reducible exact LocalKeeps.refl _ | simp only [LocalKeeps.upd])

theorem Local.runAttMode_keeps {l x : Local} (h : LocalKeeps l x) (x' : Pattern) : LocalKeeps l (Local.runAttMode x x') := by
  unfold Local.runAttMode
  repeat' (first | with_reducible exact h | with_reducible exact LocalKeeps.refl _ | with_reducible apply Local.attUpd_keeps | with_reducible apply Local.cross_keeps | with_reducible apply Local.readRuns_keeps)

theorem Local.loadQueries_keeps {l x : Local} (h : LocalKeeps l x) (x' : Pattern) (y : Option Pattern) : LocalKeeps l (Local.loadQueries x x' y) := by
  unfold Local.loadQueries
  repeat' (first | with_reducible exact h | with_reducible exact LocalKeeps.refl _ | with_reducible apply Local.attUpd_keeps | with_reducible apply Local.crossAll_keeps | with_reducible apply Local.readRuns_keeps | simp only [LocalKeeps.upd] | with_reducible apply LocalKeeps.write | split)

theorem Local.readKeys_keeps {l x : Local} (h : LocalKeeps l x) (x' : Pattern) (y : Pattern) (i : Nat) : LocalKeeps l (Local.readKeys x x' y i).2 := by
  unfold Local.readKeys
  repeat' (first | with_reducible exact h | with_reducible exact LocalKeeps.refl _ | with_reducible apply Local.cross_keeps | with_reducible apply Local.readRuns_keeps)

theorem Local.scoreStage_keeps {l x : Local} (h : LocalKeeps l x) : LocalKeeps l (Local.scoreStage x) := by
  unfold Local.scoreStage
  repeat' (first | with_reducible exact h | with_reducible exact LocalKeeps.refl _ | with_reducible apply Local.attUpd_keeps | with_reducible apply Local.readKeys_keeps | dsimp only | with_reducible apply LocalKeeps.write | split)

theorem Local.valueStage_keeps {l x : Local} (h : LocalKeeps l x) : LocalKeeps l (Local.valueStage x) := by
  unfold Local.valueStage
  repeat' (first | with_reducible exact h | with_reducible exact LocalKeeps.refl _ | with_reducible apply Local.attUpd_keeps | dsimp only | with_reducible apply LocalKeeps.write | split)

theorem Local.runAttOut_keeps {l x : Local} (h : LocalKeeps l x) (x' : Pattern) (y : Option Pattern) : LocalKeeps l (Local.runAttOut x x' y) := by
  unfold Local.runAttOut
  repeat' (first | with_reducible exact h | with_reducible exact LocalKeeps.refl _ | with_reducible apply Local.attUpd_keeps | with_reducible apply Local.crossAll_keeps | with_reducible apply Local.writeRuns_keeps | with_reducible apply Local.countNumeric_keeps | dsimp only | with_reducible apply LocalKeeps.write | split)

theorem readProbes_keeps {l x : Local} (h : LocalKeeps l x) (r : WalkRecord) : LocalKeeps l (readProbes x r).2 := by
  unfold readProbes
  repeat' (first | with_reducible exact h | with_reducible exact LocalKeeps.refl _ | with_reducible apply Local.cross_keeps | with_reducible apply Local.readScr_keeps)

theorem Local.startWalk_keeps {l x : Local} (h : LocalKeeps l x) (x' : Pattern) (lap : BitVec 2) (word : BitVec 28) : LocalKeeps l (Local.startWalk x x' lap word) := by
  unfold Local.startWalk
  repeat' (first | with_reducible exact h | with_reducible exact LocalKeeps.refl _ | with_reducible apply Local.attUpd_keeps | with_reducible apply Local.cross_keeps | with_reducible apply Local.readRuns_keeps | with_reducible apply readProbes_keeps | dsimp only | with_reducible apply LocalKeeps.write | split)

theorem Local.deliverNext_keeps {l x : Local} (h : LocalKeeps l x) (fuel : Nat) : LocalKeeps l (Local.deliverNext fuel x) := by
  induction fuel generalizing x with
  | zero => exact h
  | succ k ih =>
    unfold Local.deliverNext
    split
    · next j w hk _ =>
      obtain rfl : k = j := by simpa using hk
      repeat' (first | with_reducible exact h | with_reducible apply ih | with_reducible apply Local.attUpd_keeps | dsimp only | split)
    · exact h

theorem Local.beginDelivery_keeps {l x : Local} (h : LocalKeeps l x) (w : Walk) : LocalKeeps l (Local.beginDelivery x w) := by
  unfold Local.beginDelivery
  repeat' (first | with_reducible exact h | with_reducible exact LocalKeeps.refl _ | with_reducible apply Local.attUpd_keeps | with_reducible apply Local.deliverNext_keeps | simp only [LocalKeeps.upd] | with_reducible apply LocalKeeps.write | split)

theorem Local.walkArrived_keeps {l x : Local} (h : LocalKeeps l x) (w : Walk) (got : List Host.Cell) (failed : Bool) : LocalKeeps l (Local.walkArrived x w got failed) := by
  unfold Local.walkArrived
  repeat' (first | with_reducible exact h | with_reducible exact LocalKeeps.refl _ | with_reducible apply Local.attUpd_keeps | with_reducible apply Local.deliverNext_keeps | with_reducible apply Local.beginDelivery_keeps | dsimp only | with_reducible apply LocalKeeps.write | split)

theorem Local.listArrived_keeps {l x : Local} (h : LocalKeeps l x) (w : Walk) (h' : TableHeader) (k : Nat) (r : WalkRead) : LocalKeeps l (Local.listArrived x w h' k r) := by
  unfold Local.listArrived
  repeat' (first | with_reducible exact h | with_reducible exact LocalKeeps.refl _ | with_reducible apply Local.attUpd_keeps | dsimp only | with_reducible apply LocalKeeps.write | split)

theorem Local.takeLists_keeps {l x : Local} (h : LocalKeeps l x) (ks : List Nat) : LocalKeeps l (Local.takeLists x ks) := by
  unfold Local.takeLists
  repeat' (first | with_reducible exact h | with_reducible exact LocalKeeps.refl _ | with_reducible apply Local.listArrived_keeps | simp only [LocalKeeps.upd] | with_reducible apply LocalKeeps.write | refine LocalKeeps.foldl _ _ ?_ ?_ | intro _ _ | split)

theorem Local.listServe_keeps {l x : Local} (h : LocalKeeps l x) (w : Walk) (ring : Nat) : LocalKeeps l (Local.listServe x w ring) := by
  unfold Local.listServe
  repeat' (first | with_reducible exact h | with_reducible exact LocalKeeps.refl _ | with_reducible apply Local.attUpd_keeps | with_reducible apply Local.takeLists_keeps | dsimp only | with_reducible apply LocalKeeps.write | split)

theorem Local.commandServe_keeps {l x : Local} (h : LocalKeeps l x) (i : Nat) (ring : Nat) : LocalKeeps l (Local.commandServe x i ring) := by
  unfold Local.commandServe
  repeat' (first | with_reducible exact h | with_reducible exact LocalKeeps.refl _ | with_reducible apply Local.attUpd_keeps)

theorem Local.walkServe_keeps {l x : Local} (h : LocalKeeps l x) (ring : Nat) : LocalKeeps l (Local.walkServe x ring) := by
  unfold Local.walkServe
  repeat' (first | with_reducible exact h | with_reducible exact LocalKeeps.refl _ | with_reducible apply Local.attUpd_keeps | with_reducible apply Local.deliverNext_keeps | with_reducible apply Local.walkArrived_keeps | with_reducible apply Local.listServe_keeps | with_reducible apply Local.commandServe_keeps | dsimp only | with_reducible apply LocalKeeps.write | split)

theorem Local.walkScore_keeps {l x : Local} (h : LocalKeeps l x) (k : Nat) (gone : Bool) : LocalKeeps l (Local.walkScore x k gone) := by
  unfold Local.walkScore
  repeat' (first | with_reducible exact h | with_reducible exact LocalKeeps.refl _ | with_reducible apply Local.attUpd_keeps | with_reducible apply Local.takeLists_keeps | dsimp only | with_reducible apply LocalKeeps.write | split)

theorem Local.scoreServe_keeps {l x : Local} (h : LocalKeeps l x) (k : Nat) (ring : Nat) : LocalKeeps l (Local.scoreServe x k ring) := by
  unfold Local.scoreServe
  repeat' (first | with_reducible exact h | with_reducible exact LocalKeeps.refl _ | with_reducible apply Local.attUpd_keeps | with_reducible apply Local.takeLists_keeps)

theorem Local.walkMerge_keeps {l x : Local} (h : LocalKeeps l x) : LocalKeeps l (Local.walkMerge x) := by
  unfold Local.walkMerge
  repeat' (first | with_reducible exact h | with_reducible exact LocalKeeps.refl _ | with_reducible apply Local.beginDelivery_keeps | dsimp only | with_reducible apply LocalKeeps.write | split)

theorem Local.walkRetire_keeps {l x : Local} (h : LocalKeeps l x) : LocalKeeps l (Local.walkRetire x) := by
  unfold Local.walkRetire
  repeat' (first | with_reducible exact h | with_reducible exact LocalKeeps.refl _ | with_reducible apply Local.attUpd_keeps | with_reducible apply Local.cross_keeps | with_reducible apply Local.writeScr_keeps | dsimp only | with_reducible apply LocalKeeps.write | split)

theorem Local.seqr_keeps {l x : Local} (h : LocalKeeps l x) (f : Sequencer → Sequencer) : LocalKeeps l (Local.seqr x f) := by
  unfold Local.seqr
  repeat' (first | with_reducible exact h | with_reducible exact LocalKeeps.refl _ | simp only [LocalKeeps.upd])

theorem Local.movUpd_keeps {l x : Local} (h : LocalKeeps l x) (f : List MoveOp → List MoveOp) : LocalKeeps l (Local.movUpd x f) := by
  unfold Local.movUpd
  repeat' (first | with_reducible exact h | with_reducible exact LocalKeeps.refl _ | simp only [LocalKeeps.upd])

theorem Local.regUpd_keeps {l x : Local} (h : LocalKeeps l x) (f : Regions → Regions) : LocalKeeps l (Local.regUpd x f) := by
  unfold Local.regUpd
  repeat' (first | with_reducible exact h | with_reducible exact LocalKeeps.refl _ | simp only [LocalKeeps.upd])

theorem Local.misuse_keeps {l x : Local} (h : LocalKeeps l x) (t : Nat) (w : Nat) (row : Nat) : LocalKeeps l (Local.misuse x t w row) := by
  unfold Local.misuse
  repeat' (first | with_reducible exact h | with_reducible exact LocalKeeps.refl _ | with_reducible apply Local.report_keeps | with_reducible apply Local.scrUpd_keeps)

theorem judgeOp_keeps {l x : Local} (h : LocalKeeps l x) (before : List MoveOp) (o : MoveOp) : LocalKeeps l (judgeOp x before o).1 := by
  unfold judgeOp
  repeat' (first | with_reducible exact h | with_reducible exact LocalKeeps.refl _ | with_reducible apply Local.scrUpd_keeps | with_reducible apply Local.misuse_keeps | dsimp only | with_reducible apply LocalKeeps.write | split)

theorem judgeAll_keeps {l x : Local} (h : LocalKeeps l x) (before : List MoveOp) (rest : List MoveOp) : LocalKeeps l (judgeAll x before rest).1 := by
  induction rest generalizing x before with
  | nil =>
    unfold judgeAll
    repeat' (first | with_reducible exact h)
  | cons a r ih =>
    unfold judgeAll
    repeat' (first | with_reducible exact h | with_reducible apply ih | with_reducible exact LocalKeeps.refl _ | with_reducible apply judgeOp_keeps)

theorem Local.movePump_keeps {l x : Local} (h : LocalKeeps l x) : LocalKeeps l (Local.movePump x) := by
  unfold Local.movePump
  repeat' (first | with_reducible exact h | with_reducible exact LocalKeeps.refl _ | with_reducible apply Local.movUpd_keeps | with_reducible apply judgeAll_keeps)

theorem Local.placeBytes_keeps {l x : Local} (h : LocalKeeps l x) (fuel : Nat) (p : Pattern) (off : Nat) (bytes : List Byte) (bad : Bool) : LocalKeeps l (Local.placeBytes fuel x p off bytes bad) := by
  induction fuel generalizing x p off bytes bad with
  | zero =>
    unfold Local.placeBytes
    repeat' (first | with_reducible exact h)
  | succ k ih =>
    unfold Local.placeBytes
    repeat' (first | with_reducible exact h | with_reducible apply ih | with_reducible exact LocalKeeps.refl _ | with_reducible apply Local.scrUpd_keeps | dsimp only | with_reducible apply LocalKeeps.write | split)

theorem Local.addElems_keeps {l x : Local} (h : LocalKeeps l x) (f : Format) (addr : Nat) (addends : List Nat) : LocalKeeps l (Local.addElems x f addr addends) := by
  induction addends generalizing x f addr with
  | nil =>
    unfold Local.addElems
    repeat' (first | with_reducible exact h)
  | cons a r ih =>
    unfold Local.addElems
    repeat' (first | with_reducible exact h | with_reducible apply ih | with_reducible exact LocalKeeps.refl _ | simp only [LocalKeeps.upd] | with_reducible apply LocalKeeps.write)

theorem Local.setMove_keeps {l x : Local} (h : LocalKeeps l x) (i : Nat) (f : MoveOp → MoveOp) : LocalKeeps l (Local.setMove x i f) := by
  unfold Local.setMove
  repeat' (first | with_reducible exact h | with_reducible exact LocalKeeps.refl _ | with_reducible apply Local.movUpd_keeps)

theorem Local.haltStore_keeps {l x : Local} (h : LocalKeeps l x) (i : Nat) (bad : List Nat) : LocalKeeps l (Local.haltStore x i bad) := by
  unfold Local.haltStore
  repeat' (first | with_reducible exact h | with_reducible exact LocalKeeps.refl _ | with_reducible apply Local.findParity_keeps | with_reducible apply Local.setMove_keeps)

theorem Local.storeBytes_keeps {l x : Local} (h : LocalKeeps l x) (o : MoveOp) (u : MemUnit) : LocalKeeps l (Local.storeBytes x o u).1 := by
  unfold Local.storeBytes
  repeat' (first | with_reducible exact h | with_reducible exact LocalKeeps.refl _ | with_reducible apply Local.cross_keeps | dsimp only | with_reducible apply LocalKeeps.write | split)

theorem Local.storeUnit_keeps {l x : Local} (h : LocalKeeps l x) (i : Nat) (o : MoveOp) (u : MemUnit) (bs : List Byte) : LocalKeeps l (Local.storeUnit x i o u bs) := by
  unfold Local.storeUnit
  repeat' (first | with_reducible exact h | with_reducible exact LocalKeeps.refl _ | with_reducible apply Local.addElems_keeps | with_reducible apply Local.setMove_keeps | dsimp only | with_reducible apply LocalKeeps.write | split)

theorem Local.serveStore_keeps {l x : Local} (h : LocalKeeps l x) (i : Nat) (o : MoveOp) (u : MemUnit) : LocalKeeps l (Local.serveStore x i o u) := by
  unfold Local.serveStore
  repeat' (first | with_reducible exact h | with_reducible exact LocalKeeps.refl _ | with_reducible apply Local.setMove_keeps | with_reducible apply Local.haltStore_keeps | with_reducible apply Local.storeBytes_keeps | with_reducible apply Local.storeUnit_keeps | dsimp only | with_reducible apply LocalKeeps.write | split)

theorem Local.serveLoad_keeps {l x : Local} (h : LocalKeeps l x) (i : Nat) (o : MoveOp) (u : MemUnit) (p : Pattern) : LocalKeeps l (Local.serveLoad x i o u p) := by
  unfold Local.serveLoad
  repeat' (first | with_reducible exact h | with_reducible exact LocalKeeps.refl _ | with_reducible apply Local.cross_keeps | with_reducible apply Local.placeBytes_keeps | with_reducible apply Local.setMove_keeps | dsimp only | with_reducible apply LocalKeeps.write | split)

theorem Local.serveUnit_keeps {l x : Local} (h : LocalKeeps l x) (i : Nat) (o : MoveOp) (u : MemUnit) : LocalKeeps l (Local.serveUnit x i o u) := by
  unfold Local.serveUnit
  repeat' (first | with_reducible exact h | with_reducible exact LocalKeeps.refl _ | with_reducible apply Local.setMove_keeps | with_reducible apply Local.serveStore_keeps | with_reducible apply Local.serveLoad_keeps | with_reducible apply Local.seqr_keeps | simp only [LocalKeeps.upd] | with_reducible apply LocalKeeps.write | split)

theorem Local.moveServe_keeps {l x : Local} (h : LocalKeeps l x) (ring : Nat) : LocalKeeps l (Local.moveServe x ring) := by
  unfold Local.moveServe
  repeat' (first | with_reducible exact h | with_reducible exact LocalKeeps.refl _ | with_reducible apply Local.setMove_keeps | with_reducible apply Local.haltStore_keeps | with_reducible apply Local.serveUnit_keeps | dsimp only | with_reducible apply LocalKeeps.write | split)

theorem Local.writeLapRecord_keeps {l x : Local} (h : LocalKeeps l x) : LocalKeeps l (Local.writeLapRecord x) := by
  unfold Local.writeLapRecord
  repeat' (first | with_reducible exact h | with_reducible exact LocalKeeps.refl _ | with_reducible apply Local.seqr_keeps | simp only [LocalKeeps.upd] | with_reducible apply LocalKeeps.write)

theorem Local.arrayStep_keeps {l x : Local} (h : LocalKeeps l x) : LocalKeeps l (Local.arrayStep x) := by
  unfold Local.arrayStep
  repeat' (first | with_reducible exact h | with_reducible exact LocalKeeps.refl _ | with_reducible apply Local.arrUpd_keeps | with_reducible apply Local.runWload_keeps | dsimp only | with_reducible apply LocalKeeps.write | split)

theorem Local.attStep_keeps {l x : Local} (h : LocalKeeps l x) : LocalKeeps l (Local.attStep x) := by
  unfold Local.attStep
  repeat' (first | with_reducible exact h | with_reducible exact LocalKeeps.refl _ | with_reducible apply Local.attUpd_keeps | with_reducible apply Local.runAttMode_keeps | with_reducible apply Local.loadQueries_keeps | with_reducible apply Local.runAttOut_keeps | with_reducible apply Local.startWalk_keeps | with_reducible apply Local.deliverNext_keeps | dsimp only | with_reducible apply LocalKeeps.write | split)

theorem Local.preload_keeps {l x : Local} (h : LocalKeeps l x) : LocalKeeps l (Local.preload x) := by
  unfold Local.preload
  repeat' (first | with_reducible exact h | with_reducible exact LocalKeeps.refl _ | with_reducible apply Local.loadQueries_keeps | simp only [LocalKeeps.upd] | with_reducible apply LocalKeeps.write | split)

theorem Local.pump_keeps {l x : Local} (h : LocalKeeps l x) : LocalKeeps l (Local.pump x) := by
  unfold Local.pump
  repeat' (first | exact h | with_reducible apply Local.preload_keeps | refine LocalKeeps.iter _ (fun y => Local.attStep_keeps (.refl y)) _ ?_ | refine LocalKeeps.iter _ (fun y => Local.arrayStep_keeps (.refl y)) _ ?_ | with_reducible apply Local.movePump_keeps | with_reducible apply Local.arrUpd_keeps | simp only [LocalKeeps.upd] | split)

theorem Local.reach_keeps {l x : Local} (h : LocalKeeps l x) (w : Slots) : LocalKeeps l (Local.reach x w) := by
  unfold Local.reach
  repeat' (first | with_reducible exact h | with_reducible exact LocalKeeps.refl _ | with_reducible apply Local.arrUpd_keeps | simp only [LocalKeeps.upd] | with_reducible apply LocalKeeps.write | split)

theorem Local.setS_keeps {l x : Local} (h : LocalKeeps l x) (r : RegId) (v : DWord) : LocalKeeps l (Local.setS x r v) := by
  unfold Local.setS
  repeat' (first | with_reducible exact h | with_reducible exact LocalKeeps.refl _ | with_reducible apply Local.seqr_keeps)

theorem Local.load_keeps {l x : Local} (h : LocalKeeps l x) (sd : RegId) (w : Nat) (len : Nat) : LocalKeeps l (Local.load x sd w len) := by
  unfold Local.load
  repeat' (first | with_reducible exact h | with_reducible exact LocalKeeps.refl _ | with_reducible apply Local.cross_keeps | with_reducible apply Local.setS_keeps | with_reducible apply Local.readScr_keeps)

theorem Local.store_keeps {l x : Local} (h : LocalKeeps l x) (w : Nat) (bytes : List Byte) : LocalKeeps l (Local.store x w bytes) := by
  unfold Local.store
  repeat' (first | with_reducible exact h | with_reducible exact LocalKeeps.refl _ | with_reducible apply Local.cross_keeps | with_reducible apply Local.writeScr_keeps)

theorem Local.patLoad_keeps {l x : Local} (h : LocalKeeps l x) (w : Nat) (first : Nat) (count : Nat) : LocalKeeps l (Local.patLoad x w first count) := by
  unfold Local.patLoad
  repeat' (first | with_reducible exact h | with_reducible exact LocalKeeps.refl _ | with_reducible apply Local.cross_keeps | with_reducible apply Local.readScr_keeps | with_reducible apply Local.seqr_keeps)

theorem Local.applyC_keeps {l x : Local} (h : LocalKeeps l x) (v : Local) (c : COp) : LocalKeeps l (Local.applyC x v c) := by
  unfold Local.applyC
  repeat' (first | with_reducible exact h | with_reducible exact LocalKeeps.refl _ | with_reducible apply Local.setS_keeps | with_reducible apply Local.load_keeps | with_reducible apply Local.store_keeps | with_reducible apply Local.patLoad_keeps | with_reducible apply Local.seqr_keeps | simp only [LocalKeeps.upd] | with_reducible apply LocalKeeps.write | split)

theorem Local.applyM_keeps {l x : Local} (h : LocalKeeps l x) (v : Local) (m : MOp) : LocalKeeps l (Local.applyM x v m) := by
  unfold Local.applyM
  repeat' (first | with_reducible exact h | with_reducible exact LocalKeeps.refl _ | with_reducible apply Local.movUpd_keeps | with_reducible apply Local.regUpd_keeps | with_reducible apply Local.seqr_keeps | simp only [LocalKeeps.upd] | with_reducible apply LocalKeeps.write | split)

theorem Local.applyA_keeps {l x : Local} (h : LocalKeeps l x) (v : Local) (a : AOp) : LocalKeeps l (Local.applyA x v a) := by
  unfold Local.applyA
  repeat' (first | with_reducible exact h | with_reducible exact LocalKeeps.refl _ | with_reducible apply Local.arrUpd_keeps | with_reducible apply Local.attUpd_keeps | with_reducible apply Local.issue_keeps | simp only [LocalKeeps.upd] | with_reducible apply LocalKeeps.write | split)

theorem Local.applyV_keeps {l x : Local} (h : LocalKeeps l x) (v : Local) (o : VOp) : LocalKeeps l (Local.applyV x v o) := by
  unfold Local.applyV
  repeat' (first | with_reducible exact h | with_reducible exact LocalKeeps.refl _ | with_reducible apply Local.vecUpd_keeps | simp only [LocalKeeps.upd] | with_reducible apply LocalKeeps.write | split)

theorem Local.advance_keeps {l x : Local} (h : LocalKeeps l x) (v : Local) (c : COp) : LocalKeeps l (Local.advance x v c) := by
  unfold Local.advance
  repeat' (first | with_reducible exact h | with_reducible exact LocalKeeps.refl _ | with_reducible apply Local.seqr_keeps | simp only [LocalKeeps.upd])

theorem Local.applyOffs_keeps {l x : Local} (h : LocalKeeps l x) (m : MOp) : LocalKeeps l (Local.applyOffs x m) := by
  unfold Local.applyOffs
  repeat' (first | with_reducible exact h | with_reducible exact LocalKeeps.refl _ | simp only [LocalKeeps.upd] | with_reducible apply LocalKeeps.write | split)

theorem Local.onBeat_keeps {l x : Local} (h : LocalKeeps l x) : LocalKeeps l (Local.onBeat x) := by
  unfold Local.onBeat
  repeat' (first | with_reducible exact h | with_reducible exact LocalKeeps.refl _ | with_reducible apply Local.seqr_keeps)

theorem Local.actWord_keeps {l x : Local} (h : LocalKeeps l x) (w : Slots) : LocalKeeps l (Local.actWord x w) := by
  unfold Local.actWord
  repeat' (first | with_reducible exact h | with_reducible exact LocalKeeps.refl _ | with_reducible apply Local.applyC_keeps | with_reducible apply Local.applyM_keeps | with_reducible apply Local.applyA_keeps | with_reducible apply Local.applyV_keeps | with_reducible apply Local.advance_keeps | with_reducible apply Local.applyOffs_keeps | with_reducible apply Local.seqr_keeps | simp only [LocalKeeps.upd] | with_reducible apply LocalKeeps.write | split)

theorem Local.faultStop_keeps {l x : Local} (h : LocalKeeps l x) (kind : Nat) (slot : Nat) (word : BitVec 28) : LocalKeeps l (Local.faultStop x kind slot word) := by
  unfold Local.faultStop
  repeat' (first | with_reducible exact h | with_reducible exact LocalKeeps.refl _ | with_reducible apply Local.arrUpd_keeps | with_reducible apply Local.rosterFault_keeps)

theorem Local.noteClash_keeps {l x : Local} (h : LocalKeeps l x) (v : Local) (w : Slots) : LocalKeeps l (Local.noteClash x v w) := by
  unfold Local.noteClash
  repeat' (first | with_reducible exact h | with_reducible exact LocalKeeps.refl _ | with_reducible apply Local.faultStop_keeps | simp only [LocalKeeps.upd] | with_reducible apply LocalKeeps.write | split)

theorem Local.noteFaults_keeps {l x : Local} (h : LocalKeeps l x) (v : Local) (w : Slots) : LocalKeeps l (Local.noteFaults x v w) := by
  unfold Local.noteFaults
  repeat' (first | with_reducible exact h | with_reducible exact LocalKeeps.refl _ | with_reducible apply Local.faultStop_keeps | simp only [LocalKeeps.upd] | with_reducible apply LocalKeeps.write | split)

theorem Local.issueWord_keeps {l x : Local} (h : LocalKeeps l x) (w : Slots) : LocalKeeps l (Local.issueWord x w) := by
  unfold Local.issueWord
  repeat' (first | with_reducible exact h | with_reducible exact LocalKeeps.refl _ | with_reducible apply Local.pump_keeps | with_reducible apply Local.reach_keeps | with_reducible apply Local.onBeat_keeps | with_reducible apply Local.actWord_keeps | with_reducible apply Local.noteClash_keeps | with_reducible apply Local.noteFaults_keeps | dsimp only | with_reducible apply LocalKeeps.write | split)

theorem Local.issue_keeps {l x : Local} (h : LocalKeeps l x) (has : Slots → Bool) : LocalKeeps l (Local.issue x has) := by
  unfold Local.issue
  repeat' (first | with_reducible exact h | with_reducible exact LocalKeeps.refl _ | with_reducible apply Local.issueWord_keeps | simp only [LocalKeeps.upd] | with_reducible apply LocalKeeps.write | split)

theorem Local.illegalWord_keeps {l x : Local} (h : LocalKeeps l x) (cacheError : Bool) : LocalKeeps l (Local.illegalWord x cacheError) := by
  unfold Local.illegalWord
  repeat' (first | with_reducible exact h | with_reducible exact LocalKeeps.refl _ | with_reducible apply Local.pump_keeps | with_reducible apply Local.faultStop_keeps | with_reducible apply Local.seqr_keeps | dsimp only | with_reducible apply LocalKeeps.write | split)

theorem Local.reexecute_keeps {l x : Local} (h : LocalKeeps l x) : LocalKeeps l (Local.reexecute x) := by
  unfold Local.reexecute
  repeat' (first | with_reducible exact h | with_reducible exact LocalKeeps.refl _ | simp only [LocalKeeps.upd] | with_reducible apply LocalKeeps.write | split)

theorem Local.hostClash_keeps {l x : Local} (h : LocalKeeps l x) (off : Nat) (len : Nat) : LocalKeeps l (Local.hostClash x off len) := by
  unfold Local.hostClash
  repeat' (first | with_reducible exact h | with_reducible exact LocalKeeps.refl _ | with_reducible apply Local.faultStop_keeps | simp only [LocalKeeps.upd] | with_reducible apply LocalKeeps.write | split)

theorem Local.hostParity_keeps {l x : Local} (h : LocalKeeps l x) (bad : List Nat) : LocalKeeps l (Local.hostParity x bad) := by
  unfold Local.hostParity
  repeat' (first | with_reducible exact h | with_reducible exact LocalKeeps.refl _ | with_reducible apply Local.scrUpd_keeps | with_reducible apply Local.findParity_keeps)

theorem Local.hostRead_keeps {l x : Local} (h : LocalKeeps l x) (off : Nat) (len : Nat) : LocalKeeps l (Local.hostRead x off len).1 := by
  unfold Local.hostRead
  repeat' (first | with_reducible exact h | with_reducible exact LocalKeeps.refl _ | with_reducible apply Local.cross_keeps | with_reducible apply Local.hostClash_keeps | with_reducible apply Local.hostParity_keeps | dsimp only | with_reducible apply LocalKeeps.write | split)

theorem Local.hostWrite_keeps {l x : Local} (h : LocalKeeps l x) (off : Nat) (bs : List Byte) : LocalKeeps l (Local.hostWrite x off bs) := by
  unfold Local.hostWrite
  repeat' (first | with_reducible exact h | with_reducible exact LocalKeeps.refl _ | with_reducible apply Local.cross_keeps | with_reducible apply Local.scrUpd_keeps | with_reducible apply Local.hostClash_keeps | with_reducible apply Local.hostParity_keeps | simp only [LocalKeeps.upd] | with_reducible apply LocalKeeps.write | split)

theorem Local.rampEnd_keeps {l x : Local} (h : LocalKeeps l x) : LocalKeeps l (Local.rampEnd x) := by
  unfold Local.rampEnd
  repeat' (first | with_reducible exact h | with_reducible exact LocalKeeps.refl _ | simp only [LocalKeeps.upd])

theorem Local.unitRound_keeps {l x : Local} (h : LocalKeeps l x) : LocalKeeps l (Local.unitRound x) := by
  unfold Local.unitRound
  repeat' (first | with_reducible exact h | with_reducible exact LocalKeeps.refl _ | with_reducible apply Local.frontStart_keeps | with_reducible apply Local.passStart_keeps | with_reducible apply Local.passEnd_keeps | with_reducible apply Local.scoreStage_keeps | with_reducible apply Local.valueStage_keeps | with_reducible apply Local.pump_keeps | with_reducible apply Local.vecDispatch_keeps | with_reducible apply Local.walkRetire_keeps)

theorem Local.finish_keeps {l x : Local} (h : LocalKeeps l x) (fuel : Nat) : LocalKeeps l (Local.finish fuel x) := by
  induction fuel generalizing x with
  | zero =>
    unfold Local.finish
    repeat' (first | with_reducible exact h)
  | succ k ih =>
    unfold Local.finish
    repeat' (first | with_reducible exact h | with_reducible apply ih | with_reducible exact LocalKeeps.refl _ | with_reducible apply Local.unitRound_keeps | simp only [LocalKeeps.upd] | with_reducible apply LocalKeeps.write | split)

theorem Local.haltStop_keeps {l x : Local} (h : LocalKeeps l x) : LocalKeeps l (Local.haltStop x) := by
  unfold Local.haltStop
  repeat' (first | with_reducible exact h | with_reducible exact LocalKeeps.refl _ | with_reducible apply Local.arrUpd_keeps | with_reducible apply Local.finish_keeps | with_reducible apply Local.seqr_keeps | simp only [LocalKeeps.upd])

theorem Local.gatherTimeout_keeps {l x : Local} (h : LocalKeeps l x) : LocalKeeps l (Local.gatherTimeout x) := by
  unfold Local.gatherTimeout
  repeat' (first | with_reducible exact h | with_reducible exact LocalKeeps.refl _ | with_reducible apply Local.arrUpd_keeps | with_reducible apply Local.seqr_keeps | dsimp only | with_reducible apply LocalKeeps.write | split)

end Sys2Proof.Machine
end

