-- ==== Sys2Proof/Laws/KeepsModule.lean ====
section
/-!
SUPPORT. What every operation of the module does keeps the queue and the canonical form of each memory: cores, memory accesses, rings and resets.
-/

namespace Sys2Proof.Machine

theorem State.setCore_keeps {s x : State} (h : StateKeeps s x) (n : Nat) (c : Core) : StateKeeps s (State.setCore x n c) := by
  unfold State.setCore
  repeat' (first | with_reducible exact h | with_reducible exact StateKeeps.refl _ | simp (disch := rfl) only [StateKeeps.upd])

theorem State.setRing_keeps {s x : State} (h : StateKeeps s x) (key : Nat) (r : Ring) : StateKeeps s (State.setRing x key r) := by
  unfold State.setRing
  repeat' (first | with_reducible exact h | with_reducible exact StateKeeps.refl _ | simp (disch := rfl) only [StateKeeps.upd])

theorem State.setColumn_keeps {s x : State} (h : StateKeeps s x) (k : Nat) (c : Column) : StateKeeps s (State.setColumn x k c) := by
  unfold State.setColumn
  repeat' (first | with_reducible exact h | with_reducible exact StateKeeps.refl _ | simp (disch := rfl) only [StateKeeps.upd])

theorem State.setCuff_keeps {s x : State} (h : StateKeeps s x) (k : Nat) (c : Cuff) : StateKeeps s (State.setCuff x k c) := by
  unfold State.setCuff
  repeat' (first | with_reducible exact h | with_reducible exact StateKeeps.refl _ | simp (disch := rfl) only [StateKeeps.upd])

theorem State.setPanel_keeps {s x : State} (h : StateKeeps s x) (p : Nat) (x' : Panel) : StateKeeps s (State.setPanel x p x') := by
  unfold State.setPanel
  repeat' (first | with_reducible exact h | with_reducible exact StateKeeps.refl _ | simp (disch := rfl) only [StateKeeps.upd])

theorem State.setSeam_keeps {s x : State} (h : StateKeeps s x) (n : Nat) (x' : SeamPort) : StateKeeps s (State.setSeam x n x') := by
  unfold State.setSeam
  repeat' (first | with_reducible exact h | with_reducible exact StateKeeps.refl _ | simp (disch := rfl) only [StateKeeps.upd])

theorem State.setSq_keeps {s x : State} (h : StateKeeps s x) (q : Nat) (x' : Sq) : StateKeeps s (State.setSq x q x') := by
  unfold State.setSq
  repeat' (first | with_reducible exact h | with_reducible exact StateKeeps.refl _ | simp (disch := rfl) only [StateKeeps.upd])

theorem State.setCq_keeps {s x : State} (h : StateKeeps s x) (q : Nat) (x' : Cq) : StateKeeps s (State.setCq x q x') := by
  unfold State.setCq
  repeat' (first | with_reducible exact h | with_reducible exact StateKeeps.refl _ | simp (disch := rfl) only [StateKeeps.upd])

theorem State.updHost_keeps {s x : State} (h : StateKeeps s x) (f : HostIf → HostIf) : StateKeeps s (State.updHost x f) := by
  unfold State.updHost
  repeat' (first | with_reducible exact h | with_reducible exact StateKeeps.refl _ | simp (disch := rfl) only [StateKeeps.upd])

theorem State.drew_keeps {s x : State} (h : StateKeeps s x) : StateKeeps s (State.drew x) := by
  unfold State.drew
  repeat' (first | with_reducible exact h | with_reducible exact StateKeeps.refl _ | simp (disch := rfl) only [StateKeeps.upd])

theorem State.drewBytes_keeps {s x : State} (h : StateKeeps s x) (n : Nat) : StateKeeps s (State.drewBytes x n) := by
  unfold State.drewBytes
  repeat' (first | with_reducible exact h | with_reducible exact StateKeeps.refl _ | simp (disch := rfl) only [StateKeeps.upd])

theorem State.reach_keeps {s x : State} (h : StateKeeps s x) (t : Nat) : StateKeeps s (State.reach x t) := by
  unfold State.reach
  repeat' (first | with_reducible exact h | with_reducible exact StateKeeps.refl _ | simp (disch := rfl) only [StateKeeps.upd])

theorem State.tick_keeps {s x : State} (h : StateKeeps s x) : StateKeeps s (State.tick x) := by
  unfold State.tick
  repeat' (first | with_reducible exact h | with_reducible exact StateKeeps.refl _ | simp (disch := rfl) only [StateKeeps.upd] | with_reducible refine StateKeeps.write ?_ rfl rfl | with_reducible refine StateKeeps.clear ?_ rfl rfl | split)

theorem State.answer_keeps {s x : State} (h : StateKeeps s x) (a : Answer) : StateKeeps s (State.answer x a) := by
  unfold State.answer
  repeat' (first | with_reducible exact h | with_reducible exact StateKeeps.refl _ | simp (disch := rfl) only [StateKeeps.upd])

theorem State.signal_keeps {s x : State} (h : StateKeeps s x) (v : Nat) : StateKeeps s (State.signal x v) := by
  unfold State.signal
  repeat' (first | with_reducible exact h | with_reducible exact StateKeeps.refl _ | simp (disch := rfl) only [StateKeeps.upd] | with_reducible refine StateKeeps.write ?_ rfl rfl | with_reducible refine StateKeeps.clear ?_ rfl rfl | split)

theorem State.event_keeps {s x : State} (h : StateKeeps s x) (name : EventName) (source : Nat) (state : Nat) : StateKeeps s (State.event x name source state) := by
  unfold State.event
  repeat' (first | with_reducible exact h | with_reducible exact StateKeeps.refl _ | simp (disch := rfl) only [StateKeeps.upd] | with_reducible refine StateKeeps.write ?_ rfl rfl | with_reducible refine StateKeeps.clear ?_ rfl rfl | split)

theorem State.setLogSource_keeps {s x : State} (h : StateKeeps s x) (g : Nat) (x' : LogSource) : StateKeeps s (State.setLogSource x g x') := by
  unfold State.setLogSource
  repeat' (first | with_reducible exact h | with_reducible exact StateKeeps.refl _ | simp (disch := rfl) only [StateKeeps.upd])

theorem State.file_keeps {s x : State} (h : StateKeeps s x) (r : Report) : StateKeeps s (State.file x r) := by
  unfold State.file
  repeat' (first | with_reducible exact h | with_reducible exact StateKeeps.refl _ | with_reducible apply State.setLogSource_keeps | simp (disch := rfl) only [StateKeeps.upd] | with_reducible refine StateKeeps.write ?_ rfl rfl | with_reducible refine StateKeeps.clear ?_ rfl rfl | with_reducible exact LocalKeeps.refl _ | with_reducible apply Local.report_keeps | simp only [LocalKeeps.upd] | intro _ | split)

theorem State.fileAll_keeps {s x : State} (h : StateKeeps s x) (rs : List Report) : StateKeeps s (State.fileAll x rs) := by
  unfold State.fileAll
  repeat' (first | with_reducible exact h | with_reducible exact StateKeeps.refl _ | with_reducible apply foldOver_keeps | with_reducible apply State.file_keeps | simp (disch := rfl) only [StateKeeps.upd] | with_reducible refine StateKeeps.write ?_ rfl rfl | with_reducible refine StateKeeps.clear ?_ rfl rfl | refine StateKeeps.fold _ _ ?_ ?_ | intro _ _)

theorem State.note_keeps {s x : State} (h : StateKeeps s x) (cls : Nat) (group : Nat) (location : Nat) (detail : Nat) (aux : Nat) : StateKeeps s (State.note x cls group location detail aux) := by
  unfold State.note
  repeat' (first | with_reducible exact h | with_reducible exact StateKeeps.refl _ | with_reducible apply State.file_keeps)

theorem State.setupError_keeps {s x : State} (h : StateKeeps s x) (off : Nat) (width : Nat) : StateKeeps s (State.setupError x off width) := by
  unfold State.setupError
  repeat' (first | with_reducible exact h | with_reducible exact StateKeeps.refl _ | with_reducible apply State.note_keeps)

theorem State.changed_keeps {s x : State} (h : StateKeeps s x) : StateKeeps s (State.changed x) := by
  unfold State.changed
  repeat' (first | with_reducible exact h | with_reducible exact StateKeeps.refl _ | simp (disch := rfl) only [StateKeeps.upd])

theorem State.changedIf_keeps {s x : State} (h : StateKeeps s x) (b : Bool) : StateKeeps s (State.changedIf x b) := by
  unfold State.changedIf
  repeat' (first | with_reducible exact h | with_reducible exact StateKeeps.refl _ | with_reducible apply State.changed_keeps | simp (disch := rfl) only [StateKeeps.upd] | with_reducible refine StateKeeps.write ?_ rfl rfl | with_reducible refine StateKeeps.clear ?_ rfl rfl | split)

theorem State.changedBy_keeps {s x : State} (h : StateKeeps s x) (k : Nat) : StateKeeps s (State.changedBy x k) := by
  unfold State.changedBy
  repeat' (first | with_reducible exact h | with_reducible exact StateKeeps.refl _ | simp (disch := rfl) only [StateKeeps.upd])

theorem State.putLocal_keeps {s x : State} (h : StateKeeps s x) (n : Nat) (l : Local) (hl : LocalKeeps (x.localOf n) l) :
    StateKeeps s (x.putLocal n l) := by
  unfold State.putLocal
  apply State.fileAll_keeps
  have k : StateKeeps s { x.setCore n l.core with mem := l.mem } := ⟨h.pending, fun m => hl.mem (h.mem m), h.hostMem, h.tagBytes⟩
  dsimp only
  split
  · exact k
  · exact State.setPanel_keeps k _ _

theorem State.onCore_keeps {s x : State} (h : StateKeeps s x) (n : Nat) (f : Local → Local) (hf : ∀ l, LocalKeeps l (f l)) :
    StateKeeps s (x.onCore n f) := by
  unfold State.onCore
  split
  · exact State.putLocal_keeps h _ _ (hf _)
  · exact h

theorem State.releaseRings_keeps {s x : State} (h : StateKeeps s x) : StateKeeps s (State.releaseRings x) := by
  unfold State.releaseRings
  repeat' (first | with_reducible exact h | with_reducible exact StateKeeps.refl _ | simp (disch := rfl) only [StateKeeps.upd])

theorem State.updCuff_keeps {s x : State} (h : StateKeeps s x) (k : Nat) (f : Cuff → Cuff) : StateKeeps s (State.updCuff x k f) := by
  unfold State.updCuff
  repeat' (first | with_reducible exact h | with_reducible exact StateKeeps.refl _ | with_reducible apply State.setCuff_keeps)

theorem State.updChan_keeps {s x : State} (h : StateKeeps s x) (k : Nat) (slot : Nat) (f : Channel → Channel) : StateKeeps s (State.updChan x k slot f) := by
  unfold State.updChan
  repeat' (first | with_reducible exact h | with_reducible exact StateKeeps.refl _ | with_reducible apply State.updCuff_keeps)

theorem State.cuffNote_keeps {s x : State} (h : StateKeeps s x) (k : Nat) (cls : Nat) (location : Nat) (detail : Nat) (aux : Nat) : StateKeeps s (State.cuffNote x k cls location detail aux) := by
  unfold State.cuffNote
  repeat' (first | with_reducible exact h | with_reducible exact StateKeeps.refl _ | with_reducible apply State.note_keeps)

theorem State.setFault_keeps {s x : State} (h : StateKeeps s x) (a : Nat) (f : CapFault) : StateKeeps s (State.setFault x a f) := by
  unfold State.setFault
  repeat' (first | with_reducible exact h | with_reducible exact StateKeeps.refl _ | simp (disch := rfl) only [StateKeeps.upd])

theorem State.clearFault_keeps {s x : State} (h : StateKeeps s x) (a : Nat) : StateKeeps s (State.clearFault x a) := by
  unfold State.clearFault
  repeat' (first | with_reducible exact h | with_reducible exact StateKeeps.refl _ | simp (disch := rfl) only [StateKeeps.upd])

theorem State.capUpset_keeps {s x : State} (h : StateKeeps s x) (k : Nat) (slot : Nat) (e : UnitError) : StateKeeps s (State.capUpset k slot x e) := by
  unfold State.capUpset
  repeat' (first | with_reducible exact h | with_reducible exact StateKeeps.refl _ | simp (disch := rfl) only [StateKeeps.upd] | with_reducible refine StateKeeps.write ?_ rfl rfl | with_reducible refine StateKeeps.clear ?_ rfl rfl | split)

theorem State.transferred_keeps {s x : State} (h : StateKeeps s x) (a : Nat) : StateKeeps s (State.transferred x a) := by
  unfold State.transferred
  repeat' (first | with_reducible exact h | with_reducible exact StateKeeps.refl _ | with_reducible apply State.updCuff_keeps | with_reducible apply State.updChan_keeps | simp (disch := rfl) only [StateKeeps.upd] | with_reducible refine StateKeeps.write ?_ rfl rfl | with_reducible refine StateKeeps.clear ?_ rfl rfl | split)

theorem State.capFound_keeps {s x : State} (h : StateKeeps s x) (a : Nat) (f : CapFault) : StateKeeps s (State.capFound x a f) := by
  unfold State.capFound
  repeat' (first | with_reducible exact h | with_reducible exact StateKeeps.refl _ | with_reducible apply State.updCuff_keeps | with_reducible apply State.updChan_keeps | with_reducible apply State.cuffNote_keeps | dsimp only | with_reducible refine StateKeeps.write ?_ rfl rfl | with_reducible refine StateKeeps.clear ?_ rfl rfl | split)

theorem State.capRead_keeps {s x : State} (h : StateKeeps s x) (a : Nat) : StateKeeps s (State.capRead x a) := by
  unfold State.capRead
  repeat' (first | with_reducible exact h | with_reducible exact StateKeeps.refl _ | with_reducible apply State.updChan_keeps | with_reducible apply State.cuffNote_keeps | with_reducible apply State.transferred_keeps | with_reducible apply State.capFound_keeps | dsimp only | with_reducible refine StateKeeps.write ?_ rfl rfl | with_reducible refine StateKeeps.clear ?_ rfl rfl | split)

theorem State.discardUnit_keeps {s x : State} (h : StateKeeps s x) : StateKeeps s (State.discardUnit x) := by
  unfold State.discardUnit
  repeat' (first | with_reducible exact h | with_reducible exact StateKeeps.refl _ | simp (disch := rfl) only [StateKeeps.upd])

theorem State.remerge_keeps {s x : State} (h : StateKeeps s x) (a : Nat) (f : Option CapFault) : StateKeeps s (State.remerge x a f) := by
  unfold State.remerge
  repeat' (first | with_reducible exact h | with_reducible exact StateKeeps.refl _ | with_reducible apply State.setFault_keeps | with_reducible apply State.clearFault_keeps | simp (disch := rfl) only [StateKeeps.upd] | with_reducible refine StateKeeps.write ?_ rfl rfl | with_reducible refine StateKeeps.clear ?_ rfl rfl | split)

theorem State.markRow_keeps {s x : State} (h : StateKeeps s x) (a : Nat) : StateKeeps s (State.markRow x a) := by
  unfold State.markRow
  repeat' (first | with_reducible exact h | with_reducible exact StateKeeps.refl _ | with_reducible apply State.updCuff_keeps | dsimp only | with_reducible refine StateKeeps.write ?_ rfl rfl | with_reducible refine StateKeeps.clear ?_ rfl rfl | split)

theorem State.capWrite_keeps {s x : State} (h : StateKeeps s x) (a : Nat) (len : Nat) : StateKeeps s (State.capWrite x a len) := by
  unfold State.capWrite
  repeat' (first | with_reducible exact h | with_reducible exact StateKeeps.refl _ | with_reducible apply State.clearFault_keeps | with_reducible apply State.capRead_keeps | with_reducible apply State.discardUnit_keeps | with_reducible apply State.remerge_keeps | with_reducible apply State.markRow_keeps | simp (disch := rfl) only [StateKeeps.upd] | with_reducible refine StateKeeps.write ?_ rfl rfl | with_reducible refine StateKeeps.clear ?_ rfl rfl | split)

theorem State.capAtomic_keeps {s x : State} (h : StateKeeps s x) (a : Nat) (wraps : Nat) : StateKeeps s (State.capAtomic x a wraps) := by
  unfold State.capAtomic
  repeat' (first | with_reducible exact h | with_reducible exact StateKeeps.refl _ | with_reducible apply State.updCuff_keeps | with_reducible apply State.capRead_keeps | with_reducible apply State.discardUnit_keeps | with_reducible apply State.remerge_keeps | with_reducible apply State.markRow_keeps | simp (disch := rfl) only [StateKeeps.upd] | with_reducible refine StateKeeps.write ?_ rfl rfl | with_reducible refine StateKeeps.clear ?_ rfl rfl | split)

theorem State.channelDies_keeps {s x : State} (h : StateKeeps s x) (k : Nat) (slot : Nat) : StateKeeps s (State.channelDies x k slot) := by
  unfold State.channelDies
  repeat' (first | with_reducible exact h | with_reducible exact StateKeeps.refl _ | with_reducible apply State.updCuff_keeps | with_reducible apply State.updChan_keeps | with_reducible apply State.cuffNote_keeps | with_reducible apply State.changed_keeps | dsimp only | with_reducible refine StateKeeps.write ?_ rfl rfl | with_reducible refine StateKeeps.clear ?_ rfl rfl | split)

theorem State.laneTest_keeps {s x : State} (h : StateKeeps s x) (k : Nat) (low : Bool) (high : Bool) : StateKeeps s (State.laneTest x k low high) := by
  unfold State.laneTest
  repeat' (first | with_reducible exact h | with_reducible exact StateKeeps.refl _ | with_reducible apply State.updCuff_keeps | with_reducible apply State.cuffNote_keeps | with_reducible apply State.channelDies_keeps | with_reducible apply foldOver_keeps | with_reducible apply State.changedIf_keeps | dsimp only | with_reducible refine StateKeeps.write ?_ rfl rfl | with_reducible refine StateKeeps.clear ?_ rfl rfl | refine StateKeeps.fold _ _ ?_ ?_ | intro _ _ | split)

theorem State.retrainWait_keeps {s x : State} (h : StateKeeps s x) (k : Nat) (slot : Nat) : StateKeeps s (State.retrainWait x k slot) := by
  unfold State.retrainWait
  repeat' (first | with_reducible exact h | with_reducible exact StateKeeps.refl _ | with_reducible apply State.updCuff_keeps)

theorem State.retrainTrigger_keeps {s x : State} (h : StateKeeps s x) (k : Nat) (slot : Nat) (drift : Bool) : StateKeeps s (State.retrainTrigger x k slot drift) := by
  unfold State.retrainTrigger
  repeat' (first | with_reducible exact h | with_reducible exact StateKeeps.refl _ | with_reducible apply State.updChan_keeps | with_reducible apply State.retrainWait_keeps | dsimp only | with_reducible refine StateKeeps.write ?_ rfl rfl | with_reducible refine StateKeeps.clear ?_ rfl rfl | split)

theorem State.retrainStart_keeps {s x : State} (h : StateKeeps s x) (k : Nat) (passes : Bool) : StateKeeps s (State.retrainStart x k passes) := by
  unfold State.retrainStart
  repeat' (first | with_reducible exact h | with_reducible exact StateKeeps.refl _ | with_reducible apply State.updCuff_keeps | with_reducible apply State.updChan_keeps | with_reducible apply State.cuffNote_keeps | with_reducible apply State.changed_keeps | dsimp only | with_reducible refine StateKeeps.write ?_ rfl rfl | with_reducible refine StateKeeps.clear ?_ rfl rfl | split)

theorem State.copyUnits_keeps {s x : State} (h : StateKeeps s x) (k : Nat) (units : Nat) : StateKeeps s (State.copyUnits x k units) := by
  unfold State.copyUnits
  repeat' (first | with_reducible exact h | with_reducible exact StateKeeps.refl _ | with_reducible apply State.updCuff_keeps)

theorem State.switchOver_keeps {s x : State} (h : StateKeeps s x) (k : Nat) (q : Retrain) : StateKeeps s (State.switchOver x k q) := by
  unfold State.switchOver
  repeat' (first | with_reducible exact h | with_reducible exact StateKeeps.refl _ | with_reducible apply State.updCuff_keeps | with_reducible apply State.updChan_keeps | with_reducible apply State.drew_keeps | with_reducible apply State.changed_keeps | simp (disch := rfl) only [StateKeeps.upd])

theorem State.spareKeeps_keeps {s x : State} (h : StateKeeps s x) (k : Nat) (q : Retrain) : StateKeeps s (State.spareKeeps x k q) := by
  unfold State.spareKeeps
  repeat' (first | with_reducible exact h | with_reducible exact StateKeeps.refl _ | with_reducible apply State.updCuff_keeps | with_reducible apply State.updChan_keeps | with_reducible apply State.cuffNote_keeps | with_reducible apply State.changed_keeps)

theorem State.switchBack_keeps {s x : State} (h : StateKeeps s x) (k : Nat) (q : Retrain) : StateKeeps s (State.switchBack x k q) := by
  unfold State.switchBack
  repeat' (first | with_reducible exact h | with_reducible exact StateKeeps.refl _ | with_reducible apply State.updCuff_keeps | with_reducible apply State.updChan_keeps | with_reducible apply State.cuffNote_keeps | with_reducible apply State.drew_keeps | with_reducible apply State.changed_keeps | simp (disch := rfl) only [StateKeeps.upd])

theorem State.seqBoundary_keeps {s x : State} (h : StateKeeps s x) (k : Nat) (slot : Nat) : StateKeeps s (State.seqBoundary x k slot) := by
  unfold State.seqBoundary
  repeat' (first | with_reducible exact h | with_reducible exact StateKeeps.refl _ | with_reducible apply State.updCuff_keeps | with_reducible apply State.updChan_keeps | with_reducible apply State.switchOver_keeps | with_reducible apply State.spareKeeps_keeps | with_reducible apply State.switchBack_keeps | with_reducible apply State.changed_keeps | simp (disch := rfl) only [StateKeeps.upd] | with_reducible refine StateKeeps.write ?_ rfl rfl | with_reducible refine StateKeeps.clear ?_ rfl rfl | split)

theorem State.packageTemp_keeps {s x : State} (h : StateKeeps s x) (k : Nat) (pkg : Nat) (row : Option Nat) : StateKeeps s (State.packageTemp x k pkg row) := by
  unfold State.packageTemp
  repeat' (first | with_reducible exact h | with_reducible exact StateKeeps.refl _ | with_reducible apply State.updCuff_keeps | with_reducible apply State.cuffNote_keeps | with_reducible apply foldOver_keeps | dsimp only | with_reducible refine StateKeeps.write ?_ rfl rfl | with_reducible refine StateKeeps.clear ?_ rfl rfl | refine StateKeeps.fold _ _ ?_ ?_ | intro _ _ | split)

theorem State.updNear_keeps {s x : State} (h : StateKeeps s x) (k : Nat) (c : NearCommand) (f : NearTaken → NearTaken) : StateKeeps s (State.updNear x k c f) := by
  unfold State.updNear
  repeat' (first | with_reducible exact h | with_reducible exact StateKeeps.refl _ | simp (disch := rfl) only [StateKeeps.upd])

theorem State.nearDone_keeps {s x : State} (h : StateKeeps s x) (core : Nat) (k : Nat) : StateKeeps s (State.nearDone x core k) := by
  unfold State.nearDone
  dsimp only
  repeat' split
  · next j _ =>
    exact State.putLocal_keeps h _ _ (Local.movePump_keeps (l := x.localOf core) ⟨rfl, id⟩)
  · exact h

theorem State.nearRejects_keeps {s x : State} (h : StateKeeps s x) (k : Nat) (core : Nat) (op : Nat) : StateKeeps s (State.nearRejects x k core op) := by
  unfold State.nearRejects
  repeat' (first | with_reducible exact h | with_reducible exact StateKeeps.refl _ | with_reducible apply State.updCuff_keeps | with_reducible apply State.cuffNote_keeps | dsimp only | with_reducible refine StateKeeps.write ?_ rfl rfl | with_reducible refine StateKeeps.clear ?_ rfl rfl | split)

theorem State.countClamps_keeps {s x : State} (h : StateKeeps s x) (l' : List (Nat × Nat)) : StateKeeps s (State.countClamps x l') := by
  unfold State.countClamps
  repeat' (first | with_reducible exact h | with_reducible exact StateKeeps.refl _ | with_reducible apply State.updCuff_keeps | with_reducible apply foldOver_keeps | simp (disch := rfl) only [StateKeeps.upd] | with_reducible refine StateKeeps.write ?_ rfl rfl | with_reducible refine StateKeeps.clear ?_ rfl rfl | refine StateKeeps.fold _ _ ?_ ?_ | intro _ _)

theorem State.nearUnitEffect_keeps {s x : State} (h : StateKeeps s x) (k : Nat) (c : NearCommand) (x' : NearUnit) : StateKeeps s (State.nearUnitEffect x k c x') := by
  unfold State.nearUnitEffect
  repeat' (first | with_reducible exact h | with_reducible exact StateKeeps.refl _ | with_reducible apply State.capRead_keeps | with_reducible apply State.capWrite_keeps | with_reducible apply State.updNear_keeps | with_reducible apply State.countClamps_keeps | dsimp only | with_reducible refine StateKeeps.write ?_ rfl rfl | with_reducible refine StateKeeps.clear ?_ rfl rfl | split)

theorem State.nearEnds_keeps {s x : State} (h : StateKeeps s x) (k : Nat) (c : NearCommand) (lost : Bool) : StateKeeps s (State.nearEnds x k c lost) := by
  unfold State.nearEnds
  repeat' (first | with_reducible exact h | with_reducible exact StateKeeps.refl _ | with_reducible apply State.updCuff_keeps | with_reducible apply State.updNear_keeps)

theorem State.nearAdvance_keeps {s x : State} (h : StateKeeps s x) (k : Nat) : StateKeeps s (State.nearAdvance x k) := by
  unfold State.nearAdvance
  repeat' (first | with_reducible exact h | with_reducible exact StateKeeps.refl _ | with_reducible apply State.nearDone_keeps | with_reducible apply State.nearEnds_keeps | with_reducible apply State.command_keeps | simp (disch := rfl) only [StateKeeps.upd] | with_reducible refine StateKeeps.write ?_ rfl rfl | with_reducible refine StateKeeps.clear ?_ rfl rfl | intro _ | split)

theorem State.nearServe_keeps {s x : State} (h : StateKeeps s x) (k : Nat) (key : Nat) : StateKeeps s (State.nearServe x k key) := by
  unfold State.nearServe
  repeat' (first | with_reducible exact h | with_reducible exact StateKeeps.refl _ | with_reducible apply State.updCuff_keeps | with_reducible apply State.nearUnitEffect_keeps | with_reducible apply State.nearAdvance_keeps | with_reducible apply State.command_keeps | simp (disch := rfl) only [StateKeeps.upd] | with_reducible refine StateKeeps.write ?_ rfl rfl | with_reducible refine StateKeeps.clear ?_ rfl rfl | intro _ | split)

theorem State.nearSend_keeps {s x : State} (h : StateKeeps s x) (k : Nat) : StateKeeps s (State.nearSend x k) := by
  unfold State.nearSend
  repeat' (first | with_reducible exact h | with_reducible exact StateKeeps.refl _ | with_reducible apply State.updNear_keeps | with_reducible apply State.nearAdvance_keeps | with_reducible apply State.command_keeps | simp (disch := rfl) only [StateKeeps.upd] | with_reducible refine StateKeeps.write ?_ rfl rfl | with_reducible refine StateKeeps.clear ?_ rfl rfl | intro _ | split)

theorem State.noNear_keeps {s x : State} (h : StateKeeps s x) : StateKeeps s (State.noNear x) := by
  unfold State.noNear
  repeat' (first | with_reducible exact h | with_reducible exact StateKeeps.refl _ | simp (disch := rfl) only [StateKeeps.upd])

theorem State.nearAbandon_keeps {s x : State} (h : StateKeeps s x) (k : Nat) : StateKeeps s (State.nearAbandon x k) := by
  unfold State.nearAbandon
  repeat' (first | with_reducible exact h | with_reducible exact StateKeeps.refl _ | with_reducible apply State.updCuff_keeps | with_reducible apply State.nearEnds_keeps | with_reducible apply State.command_keeps | dsimp only | with_reducible refine StateKeeps.write ?_ rfl rfl | with_reducible refine StateKeeps.clear ?_ rfl rfl | intro _ | split)

theorem State.nearGone_keeps {s x : State} (h : StateKeeps s x) (k : Nat) : StateKeeps s (State.nearGone x k) := by
  unfold State.nearGone
  repeat' (first | with_reducible exact h | with_reducible exact StateKeeps.refl _ | with_reducible apply State.nearDone_keeps | with_reducible apply State.nearAbandon_keeps | with_reducible apply State.command_keeps | simp (disch := rfl) only [StateKeeps.upd] | with_reducible refine StateKeeps.write ?_ rfl rfl | with_reducible refine StateKeeps.clear ?_ rfl rfl | intro _ | split)

theorem State.nearCounts_keeps {s x : State} (h : StateKeeps s x) (k : Nat) (c : NearCommand) (us : List NearUnit) (bus : Nat) : StateKeeps s (State.nearCounts x k c us bus) := by
  unfold State.nearCounts
  repeat' (first | with_reducible exact h | with_reducible exact StateKeeps.refl _ | with_reducible apply State.updCuff_keeps)

theorem State.nearTake_keeps {s x : State} (h : StateKeeps s x) (k : Nat) (c : NearCommand) : StateKeeps s (State.nearTake x k c) := by
  unfold State.nearTake
  repeat' (first | with_reducible exact h | with_reducible exact StateKeeps.refl _ | with_reducible apply State.updCuff_keeps | with_reducible apply State.nearDone_keeps | with_reducible apply State.nearRejects_keeps | with_reducible apply State.nearEnds_keeps | with_reducible apply State.nearAdvance_keeps | with_reducible apply State.nearCounts_keeps | simp (disch := rfl) only [StateKeeps.upd] | with_reducible refine StateKeeps.write ?_ rfl rfl | with_reducible refine StateKeeps.clear ?_ rfl rfl | split)

theorem State.nearCommand_keeps {s x : State} (h : StateKeeps s x) (k : Nat) : StateKeeps s (State.nearCommand x k) := by
  unfold State.nearCommand
  repeat' (first | with_reducible exact h | with_reducible exact StateKeeps.refl _ | with_reducible apply State.updCuff_keeps | with_reducible apply State.nearTake_keeps | simp (disch := rfl) only [StateKeeps.upd] | with_reducible refine StateKeeps.write ?_ rfl rfl | with_reducible refine StateKeeps.clear ?_ rfl rfl | split)

theorem State.fillTier_keeps {s x : State} (h : StateKeeps s x) : StateKeeps s (State.fillTier x) := by
  unfold State.fillTier
  repeat' (first | with_reducible exact h | with_reducible exact StateKeeps.refl _ | dsimp only | with_reducible refine StateKeeps.write ?_ rfl rfl | with_reducible refine StateKeeps.clear ?_ rfl rfl)

theorem State.applyRates_keeps {s x : State} (h : StateKeeps s x) : StateKeeps s (State.applyRates x) := by
  unfold State.applyRates
  repeat' (first | with_reducible exact h | with_reducible exact StateKeeps.refl _ | with_reducible apply State.updCuff_keeps | with_reducible apply foldOver_keeps | simp (disch := rfl) only [StateKeeps.upd] | with_reducible refine StateKeeps.write ?_ rfl rfl | with_reducible refine StateKeeps.clear ?_ rfl rfl | refine StateKeeps.fold _ _ ?_ ?_ | intro _ _)

theorem State.capRemap_keeps {s x : State} (h : StateKeeps s x) : StateKeeps s (State.capRemap x) := by
  unfold State.capRemap
  repeat' (first | with_reducible exact h | with_reducible exact StateKeeps.refl _ | with_reducible apply State.updCuff_keeps | with_reducible apply State.fillTier_keeps | with_reducible apply State.applyRates_keeps | with_reducible apply foldOver_keeps | with_reducible apply State.changedBy_keeps | simp (disch := rfl) only [StateKeeps.upd] | with_reducible refine StateKeeps.write ?_ rfl rfl | with_reducible refine StateKeeps.clear ?_ rfl rfl | refine StateKeeps.fold _ _ ?_ ?_ | intro _ _)

theorem State.sendHost_keeps {s x : State} (h : StateKeeps s x) (relaxed : Bool) (a : Nat) (bs : List Byte) (wrote : HostWrite) : StateKeeps s (State.sendHost relaxed x a bs wrote) := by
  exact ⟨h.pending, h.mem, fun k => wf_memWrite _ _ _ (h.hostMem k), h.tagBytes⟩

theorem State.hostWrite_keeps {s x : State} (h : StateKeeps s x) (a : Nat) (bs : List Byte) (wrote : HostWrite) : StateKeeps s (State.hostWrite x a bs wrote) := by
  unfold State.hostWrite
  repeat' (first | with_reducible exact h | with_reducible exact StateKeeps.refl _ | with_reducible apply State.sendHost_keeps)

theorem State.hostData_keeps {s x : State} (h : StateKeeps s x) (d : Desc) (a : Nat) (bs : List Byte) (wrote : HostWrite) : StateKeeps s (State.hostData x d a bs wrote) := by
  unfold State.hostData
  repeat' (first | with_reducible exact h | with_reducible exact StateKeeps.refl _ | with_reducible apply State.sendHost_keeps)

theorem State.writeEntry_keeps {s x : State} (h : StateKeeps s x) (cq : Nat) (e : HeldEntry) : StateKeeps s (State.writeEntry x cq e) := by
  unfold State.writeEntry
  repeat' (first | with_reducible exact h | with_reducible exact StateKeeps.refl _ | with_reducible apply State.hostWrite_keeps | with_reducible apply State.setCq_keeps | with_reducible apply State.signal_keeps | dsimp only | with_reducible refine StateKeeps.write ?_ rfl rfl | with_reducible refine StateKeeps.clear ?_ rfl rfl | with_reducible exact LocalKeeps.refl _ | with_reducible apply Local.hostWrite_keeps | simp only [LocalKeeps.upd] | intro _ | split)

theorem State.flushCq_keeps {s x : State} (h : StateKeeps s x) (fuel : Nat) (cq : Nat) : StateKeeps s (State.flushCq fuel x cq) := by
  induction fuel generalizing x cq with
  | zero =>
    unfold State.flushCq
    repeat' (first | with_reducible exact h)
  | succ k ih =>
    unfold State.flushCq
    repeat' (first | with_reducible exact h | with_reducible apply ih | with_reducible exact StateKeeps.refl _ | with_reducible apply State.writeEntry_keeps | with_reducible apply State.setCq_keeps | dsimp only | with_reducible refine StateKeeps.write ?_ rfl rfl | with_reducible refine StateKeeps.clear ?_ rfl rfl | split)

theorem State.postEntry_keeps {s x : State} (h : StateKeeps s x) (q : Nat) (d : Desc) (status : Nat) (specific : Nat) : StateKeeps s (State.postEntry x q d status specific) := by
  unfold State.postEntry
  repeat' (first | with_reducible exact h | with_reducible exact StateKeeps.refl _ | with_reducible apply State.writeEntry_keeps | with_reducible apply State.setCq_keeps | simp (disch := rfl) only [StateKeeps.upd] | with_reducible refine StateKeeps.write ?_ rfl rfl | with_reducible refine StateKeeps.clear ?_ rfl rfl | split)

theorem State.unloadImages_keeps {s x : State} (h : StateKeeps s x) : StateKeeps s (State.unloadImages x) := by
  unfold State.unloadImages
  repeat' (first | with_reducible exact h | with_reducible exact StateKeeps.refl _ | simp (disch := rfl) only [StateKeeps.upd])

theorem State.dropDesc_keeps {s x : State} (h : StateKeeps s x) (q : Nat) (d : Desc) : StateKeeps s (State.dropDesc x q d) := by
  unfold State.dropDesc
  repeat' (first | with_reducible exact h | with_reducible exact StateKeeps.refl _ | with_reducible apply State.setSq_keeps)

theorem State.complete_keeps {s x : State} (h : StateKeeps s x) (q : Nat) (d : Desc) (status : Nat) (specific : Nat) : StateKeeps s (State.complete x q d status specific) := by
  unfold State.complete
  repeat' (first | with_reducible exact h | with_reducible exact StateKeeps.refl _ | with_reducible apply State.postEntry_keeps | with_reducible apply State.unloadImages_keeps | with_reducible apply State.dropDesc_keeps | dsimp only | with_reducible refine StateKeeps.write ?_ rfl rfl | with_reducible refine StateKeeps.clear ?_ rfl rfl | split)

theorem State.endSet_keeps {s x : State} (h : StateKeeps s x) (status : Nat) : StateKeeps s (State.endSet x status) := by
  unfold State.endSet
  repeat' (first | with_reducible exact h | with_reducible exact StateKeeps.refl _ | with_reducible apply State.releaseRings_keeps | with_reducible apply State.complete_keeps | simp (disch := rfl) only [StateKeeps.upd] | with_reducible refine StateKeeps.write ?_ rfl rfl | with_reducible refine StateKeeps.clear ?_ rfl rfl | split)

theorem State.checkSet_keeps {s x : State} (h : StateKeeps s x) : StateKeeps s (State.checkSet x) := by
  unfold State.checkSet
  repeat' (first | with_reducible exact h | with_reducible exact StateKeeps.refl _ | with_reducible apply State.endSet_keeps | simp (disch := rfl) only [StateKeeps.upd] | with_reducible refine StateKeeps.write ?_ rfl rfl | with_reducible refine StateKeeps.clear ?_ rfl rfl | split)

theorem State.writeLog_keeps {s x : State} (h : StateKeeps s x) (fuel : Nat) : StateKeeps s (State.writeLog fuel x).1 := by
  induction fuel generalizing x with
  | zero => exact h
  | succ k ih =>
    unfold State.writeLog
    split
    · next j r rest hk _ =>
      obtain rfl : k = j := by simpa using hk
      dsimp only
      have w (a b : _) : StateKeeps s (x.hostWrite a b none) := State.hostWrite_keeps h _ _ _
      repeat' (first | with_reducible exact h | with_reducible exact w _ _ | with_reducible apply ih | with_reducible apply State.signal_keeps | simp (disch := rfl) only [StateKeeps.upd] | split)
    · exact h

theorem State.onColumn_keeps {s x : State} (h : StateKeeps s x) (col : Nat) (f : Column → ColSite → ColStep) : StateKeeps s (State.onColumn x col f) := by
  unfold State.onColumn
  repeat' (first | with_reducible exact h | with_reducible exact StateKeeps.refl _ | with_reducible apply State.setColumn_keeps | with_reducible apply State.fileAll_keeps)

theorem State.readUnit_keeps {s x : State} (h : StateKeeps s x) (ag : Agent) (a : Nat) (len : Nat) : StateKeeps s (State.readUnit x ag a len).state := by
  unfold State.readUnit
  repeat' (first | with_reducible exact h | with_reducible exact StateKeeps.refl _ | with_reducible apply State.capRead_keeps | with_reducible apply State.putLocal_keeps | with_reducible apply State.onColumn_keeps | dsimp only | with_reducible refine StateKeeps.write ?_ rfl rfl | with_reducible refine StateKeeps.clear ?_ rfl rfl | with_reducible exact LocalKeeps.refl _ | with_reducible apply Local.hostRead_keeps | simp only [LocalKeeps.upd] | intro _ | split)

theorem State.writePocket_keeps {s x : State} (h : StateKeeps s x) (ag : Agent) (n : Nat) (a : Nat) (bs : List Byte) : StateKeeps s (State.writePocket x ag n a bs) := by
  unfold State.writePocket
  repeat' (first | with_reducible exact h | with_reducible exact StateKeeps.refl _ | with_reducible apply State.onColumn_keeps | with_reducible apply State.updHost_keeps | dsimp only | with_reducible refine StateKeeps.write ?_ rfl rfl | with_reducible refine StateKeeps.clear ?_ rfl rfl | split)

theorem State.writeUnit_keeps {s x : State} (h : StateKeeps s x) (ag : Agent) (a : Nat) (bs : List Byte) : StateKeeps s (State.writeUnit x ag a bs).1 := by
  unfold State.writeUnit
  repeat' (first | with_reducible exact h | with_reducible exact StateKeeps.refl _ | with_reducible apply State.capWrite_keeps | with_reducible apply State.putLocal_keeps | with_reducible apply State.hostWrite_keeps | with_reducible apply State.writePocket_keeps | dsimp only | with_reducible refine StateKeeps.write ?_ rfl rfl | with_reducible refine StateKeeps.clear ?_ rfl rfl | with_reducible exact LocalKeeps.refl _ | with_reducible apply Local.hostWrite_keeps | simp only [LocalKeeps.upd] | intro _ | split)

theorem readPieces_keeps {s x : State} (h : StateKeeps s x) (ag : Agent) (ps : List (Nat × Nat)) : StateKeeps s (readPieces x ag ps).state := by
  induction ps generalizing x ag with
  | nil =>
    unfold readPieces
    repeat' (first | with_reducible exact h)
  | cons a r ih =>
    unfold readPieces
    repeat' (first | with_reducible exact h | with_reducible apply ih | with_reducible exact StateKeeps.refl _ | with_reducible apply State.readUnit_keeps | dsimp only | with_reducible refine StateKeeps.write ?_ rfl rfl | with_reducible refine StateKeeps.clear ?_ rfl rfl | split)

theorem writePieces_keeps {s x : State} (h : StateKeeps s x) (ag : Agent) (ps : List (Nat × Nat)) (bs : List Byte) : StateKeeps s (writePieces x ag ps bs).1 := by
  induction ps generalizing x ag bs with
  | nil =>
    unfold writePieces
    repeat' (first | with_reducible exact h)
  | cons a r ih =>
    unfold writePieces
    repeat' (first | with_reducible exact h | with_reducible apply ih | with_reducible exact StateKeeps.refl _ | with_reducible apply State.writeUnit_keeps | dsimp only | with_reducible refine StateKeeps.write ?_ rfl rfl | with_reducible refine StateKeeps.clear ?_ rfl rfl | split)

theorem State.readRange_keeps {s x : State} (h : StateKeeps s x) (ag : Agent) (a : Nat) (len : Nat) : StateKeeps s (State.readRange x ag a len).state := by
  unfold State.readRange
  repeat' (first | with_reducible exact h | with_reducible exact StateKeeps.refl _ | with_reducible apply readPieces_keeps)

theorem State.writeRange_keeps {s x : State} (h : StateKeeps s x) (ag : Agent) (a : Nat) (bs : List Byte) : StateKeeps s (State.writeRange x ag a bs).1 := by
  unfold State.writeRange
  repeat' (first | with_reducible exact h | with_reducible exact StateKeeps.refl _ | with_reducible apply writePieces_keeps)

theorem State.markRoster_keeps {s x : State} (h : StateKeeps s x) (n : Nat) (bad : Bool) : StateKeeps s (State.markRoster x n bad) := by
  unfold State.markRoster
  repeat' (first | with_reducible exact h | with_reducible exact StateKeeps.refl _ | simp (disch := rfl) only [StateKeeps.upd])

theorem State.setTransfer_keeps {s x : State} (h : StateKeeps s x) (i : Nat) (t : Transfer) : StateKeeps s (State.setTransfer x i t) := by
  unfold State.setTransfer
  repeat' (first | with_reducible exact h | with_reducible exact StateKeeps.refl _ | with_reducible apply State.updHost_keeps)

theorem State.hubRead_keeps {s x : State} (h : StateKeeps s x) (t : Transfer) (u : HubUnit) : StateKeeps s (State.hubRead x t u).state := by
  unfold State.hubRead
  repeat' (first | with_reducible exact h | with_reducible exact StateKeeps.refl _ | with_reducible apply State.readUnit_keeps | dsimp only | with_reducible refine StateKeeps.write ?_ rfl rfl | with_reducible refine StateKeeps.clear ?_ rfl rfl | split)

theorem State.hubWrite_keeps {s x : State} (h : StateKeeps s x) (t : Transfer) (u : HubUnit) (bs : List Byte) : StateKeeps s (State.hubWrite x t u bs).1 := by
  unfold State.hubWrite
  repeat' (first | with_reducible exact h | with_reducible exact StateKeeps.refl _ | with_reducible apply State.hostData_keeps | with_reducible apply State.writeUnit_keeps | dsimp only | with_reducible refine StateKeeps.write ?_ rfl rfl | with_reducible refine StateKeeps.clear ?_ rfl rfl | split)

theorem State.hubServe_keeps {s x : State} (h : StateKeeps s x) (i : Nat) (t : Transfer) (u : HubUnit) : StateKeeps s (State.hubServe x i t u) := by
  unfold State.hubServe
  repeat' (first | with_reducible exact h | with_reducible exact StateKeeps.refl _ | with_reducible apply State.setTransfer_keeps | with_reducible apply State.hubRead_keeps | with_reducible apply State.hubWrite_keeps | dsimp only | with_reducible refine StateKeeps.write ?_ rfl rfl | with_reducible refine StateKeeps.clear ?_ rfl rfl | split)

theorem State.rosterStored_keeps {s x : State} (h : StateKeeps s x) (t : Transfer) (status : Nat) : StateKeeps s (State.rosterStored x t status).1 := by
  unfold State.rosterStored
  repeat' (first | with_reducible exact h | with_reducible exact StateKeeps.refl _ | with_reducible apply State.markRoster_keeps | dsimp only | with_reducible refine StateKeeps.write ?_ rfl rfl | with_reducible refine StateKeeps.clear ?_ rfl rfl | split)

theorem State.hubEnd_keeps {s x : State} (h : StateKeeps s x) (i : Nat) (t : Transfer) (status : Nat) (count : Nat) : StateKeeps s (State.hubEnd x i t status count) := by
  unfold State.hubEnd
  repeat' (first | with_reducible exact h | with_reducible exact StateKeeps.refl _ | with_reducible apply State.complete_keeps | with_reducible apply State.updHost_keeps | with_reducible apply State.rosterStored_keeps | dsimp only | with_reducible refine StateKeeps.write ?_ rfl rfl | with_reducible refine StateKeeps.clear ?_ rfl rfl | split)

theorem State.hubSettle_keeps {s x : State} (h : StateKeeps s x) (fuel : Nat) (i : Nat) : StateKeeps s (State.hubSettle fuel x i) := by
  induction fuel generalizing x i with
  | zero => exact h
  | succ k ih =>
    unfold State.hubSettle
    split
    · next j t0 hk _ =>
      obtain rfl : k = j := by simpa using hk
      repeat' (first | with_reducible exact h | with_reducible apply ih | with_reducible apply State.setTransfer_keeps | with_reducible apply State.hubEnd_keeps | dsimp only | split)
    · exact h

theorem State.settleTransfers_keeps {s x : State} (h : StateKeeps s x) : StateKeeps s (State.settleTransfers x) := by
  unfold State.settleTransfers
  repeat' (first | with_reducible exact h | with_reducible exact StateKeeps.refl _ | with_reducible apply foldOver_keeps | with_reducible apply State.hubSettle_keeps | simp (disch := rfl) only [StateKeeps.upd] | with_reducible refine StateKeeps.write ?_ rfl rfl | with_reducible refine StateKeeps.clear ?_ rfl rfl | refine StateKeeps.fold _ _ ?_ ?_ | intro _ _)

theorem State.beginTransfer_keeps {s x : State} (h : StateKeeps s x) (t : Transfer) : StateKeeps s (State.beginTransfer x t) := by
  unfold State.beginTransfer
  repeat' (first | with_reducible exact h | with_reducible exact StateKeeps.refl _ | with_reducible apply State.updHost_keeps | with_reducible apply State.hubSettle_keeps)

theorem State.hubUnit_keeps {s x : State} (h : StateKeeps s x) (key : Nat) (owner : Nat) : StateKeeps s (State.hubUnit x key owner) := by
  unfold State.hubUnit
  repeat' (first | with_reducible exact h | with_reducible exact StateKeeps.refl _ | with_reducible apply State.hubServe_keeps | with_reducible apply State.hubSettle_keeps | simp (disch := rfl) only [StateKeeps.upd] | with_reducible refine StateKeeps.write ?_ rfl rfl | with_reducible refine StateKeeps.clear ?_ rfl rfl | split)

theorem State.hubServes_keeps {s x : State} (h : StateKeeps s x) (n : Nat) (key : Nat) (owner : Nat) : StateKeeps s (State.hubServes n x key owner) := by
  induction n generalizing x key owner with
  | zero =>
    unfold State.hubServes
    repeat' (first | with_reducible exact h)
  | succ k ih =>
    unfold State.hubServes
    repeat' (first | with_reducible exact h | with_reducible apply ih | with_reducible exact StateKeeps.refl _ | with_reducible apply State.hubUnit_keeps)

theorem State.partialEnds_keeps {s x : State} (h : StateKeeps s x) (w : PartialWrite) : StateKeeps s (State.partialEnds x w) := by
  unfold State.partialEnds
  repeat' (first | with_reducible exact h | with_reducible exact StateKeeps.refl _ | with_reducible apply State.setTransfer_keeps | simp (disch := rfl) only [StateKeeps.upd] | with_reducible refine StateKeeps.write ?_ rfl rfl | with_reducible refine StateKeeps.clear ?_ rfl rfl | split)

theorem State.endPartials_keeps {s x : State} (h : StateKeeps s x) : StateKeeps s (State.endPartials x) := by
  unfold State.endPartials
  repeat' (first | with_reducible exact h | with_reducible exact StateKeeps.refl _ | with_reducible apply foldOver_keeps | with_reducible apply State.updHost_keeps | with_reducible apply State.settleTransfers_keeps | with_reducible apply State.partialEnds_keeps | simp (disch := rfl) only [StateKeeps.upd] | with_reducible refine StateKeeps.write ?_ rfl rfl | with_reducible refine StateKeeps.clear ?_ rfl rfl | refine StateKeeps.fold _ _ ?_ ?_ | intro _ _ | split)

theorem State.updRing_keeps {s x : State} (h : StateKeeps s x) (key : Nat) (f : Ring → Ring) : StateKeeps s (State.updRing x key f) := by
  unfold State.updRing
  repeat' (first | with_reducible exact h | with_reducible exact StateKeeps.refl _ | with_reducible apply State.setRing_keeps)

theorem State.updSeam_keeps {s x : State} (h : StateKeeps s x) (n : Nat) (f : SeamPort → SeamPort) : StateKeeps s (State.updSeam x n f) := by
  unfold State.updSeam
  repeat' (first | with_reducible exact h | with_reducible exact StateKeeps.refl _ | with_reducible apply State.setSeam_keeps)

theorem State.drainRing_keeps {s x : State} (h : StateKeeps s x) (key : Nat) : StateKeeps s (State.drainRing x key) := by
  unfold State.drainRing
  repeat' (first | with_reducible exact h | with_reducible exact StateKeeps.refl _ | with_reducible apply State.onColumn_keeps | simp (disch := rfl) only [StateKeeps.upd] | with_reducible refine StateKeeps.write ?_ rfl rfl | with_reducible refine StateKeeps.clear ?_ rfl rfl | split)

theorem State.alternate_keeps {s x : State} (h : StateKeeps s x) (key : Nat) : StateKeeps s (State.alternate x key) := by
  unfold State.alternate
  repeat' (first | with_reducible exact h | with_reducible exact StateKeeps.refl _ | with_reducible apply State.updSeam_keeps | dsimp only | with_reducible refine StateKeeps.write ?_ rfl rfl | with_reducible refine StateKeeps.clear ?_ rfl rfl | split)

theorem State.moveRing_keeps {s x : State} (h : StateKeeps s x) (key : Nat) (r : Ring) : StateKeeps s (State.moveRing x key r) := by
  unfold State.moveRing
  repeat' (first | with_reducible exact h | with_reducible exact StateKeeps.refl _ | with_reducible apply State.seqBoundary_keeps | with_reducible apply State.setRing_keeps | with_reducible apply State.drainRing_keeps | with_reducible apply State.alternate_keeps | dsimp only | with_reducible refine StateKeeps.write ?_ rfl rfl | with_reducible refine StateKeeps.clear ?_ rfl rfl | split)

theorem State.useSlot_keeps {s x : State} (h : StateKeeps s x) (key : Nat) (units : Nat) (last : Bool) : StateKeeps s (State.useSlot x key units last) := by
  unfold State.useSlot
  repeat' (first | with_reducible exact h | with_reducible exact StateKeeps.refl _ | with_reducible apply State.moveRing_keeps)

theorem State.endTurn_keeps {s x : State} (h : StateKeeps s x) (key : Nat) : StateKeeps s (State.endTurn x key) := by
  unfold State.endTurn
  repeat' (first | with_reducible exact h | with_reducible exact StateKeeps.refl _ | with_reducible apply State.useSlot_keeps)

theorem State.payRefresh_keeps {s x : State} (h : StateKeeps s x) (key : Nat) : StateKeeps s (State.payRefresh x key) := by
  unfold State.payRefresh
  repeat' (first | with_reducible exact h | with_reducible exact StateKeeps.refl _ | with_reducible apply State.updChan_keeps | with_reducible apply State.setColumn_keeps | dsimp only | with_reducible refine StateKeeps.write ?_ rfl rfl | with_reducible refine StateKeeps.clear ?_ rfl rfl | split)

theorem State.beginSlot_keeps {s x : State} (h : StateKeeps s x) (key : Nat) : StateKeeps s (State.beginSlot x key) := by
  unfold State.beginSlot
  repeat' (first | with_reducible exact h | with_reducible exact StateKeeps.refl _ | with_reducible apply State.updRing_keeps | with_reducible apply State.payRefresh_keeps | dsimp only | with_reducible refine StateKeeps.write ?_ rfl rfl | with_reducible refine StateKeeps.clear ?_ rfl rfl | split)

theorem State.setNearWork_keeps {s x : State} (h : StateKeeps s x) (key : Nat) (k : Nat) (l' : List TurnWork) : StateKeeps s (State.setNearWork x key k l') := by
  unfold State.setNearWork
  repeat' (first | with_reducible exact h | with_reducible exact StateKeeps.refl _ | with_reducible apply State.updCuff_keeps | with_reducible apply State.updChan_keeps | simp (disch := rfl) only [StateKeeps.upd] | with_reducible refine StateKeeps.write ?_ rfl rfl | with_reducible refine StateKeeps.clear ?_ rfl rfl | split)

theorem State.payWaiting_keeps {s x : State} (h : StateKeeps s x) (key : Nat) (owner : Nat) : StateKeeps s (State.payWaiting x key owner) := by
  unfold State.payWaiting
  repeat' (first | with_reducible exact h | with_reducible exact StateKeeps.refl _ | with_reducible apply State.copyUnits_keeps | with_reducible apply State.updRing_keeps | with_reducible apply State.payRefresh_keeps | dsimp only | with_reducible refine StateKeeps.write ?_ rfl rfl | with_reducible refine StateKeeps.clear ?_ rfl rfl | split)

theorem State.payDue_keeps {s x : State} (h : StateKeeps s x) (key : Nat) : StateKeeps s (State.payDue x key) := by
  unfold State.payDue
  repeat' (first | with_reducible exact h | with_reducible exact StateKeeps.refl _ | with_reducible apply State.payRefresh_keeps | simp (disch := rfl) only [StateKeeps.upd] | with_reducible refine StateKeeps.write ?_ rfl rfl | with_reducible refine StateKeeps.clear ?_ rfl rfl | split)

theorem State.settle_keeps {s x : State} (h : StateKeeps s x) (fuel : Nat) (key : Nat) : StateKeeps s (State.settle fuel x key) := by
  induction fuel generalizing x key with
  | zero =>
    unfold State.settle
    repeat' (first | with_reducible exact h)
  | succ k ih =>
    unfold State.settle
    repeat' (first | with_reducible exact h | with_reducible apply ih | with_reducible exact StateKeeps.refl _ | with_reducible apply State.endTurn_keeps | with_reducible apply State.beginSlot_keeps | with_reducible apply State.payWaiting_keeps | dsimp only | with_reducible refine StateKeeps.write ?_ rfl rfl | with_reducible refine StateKeeps.clear ?_ rfl rfl | split)

theorem State.settleRing_keeps {s x : State} (h : StateKeeps s x) (key : Nat) : StateKeeps s (State.settleRing x key) := by
  unfold State.settleRing
  repeat' (first | with_reducible exact h | with_reducible exact StateKeeps.refl _ | with_reducible apply State.settle_keeps)

theorem State.clashRequest_keeps {s x : State} (h : StateKeeps s x) (key : Nat) (code : Nat) : StateKeeps s (State.clashRequest x key code) := by
  unfold State.clashRequest
  repeat' (first | with_reducible exact h | with_reducible exact StateKeeps.refl _ | with_reducible apply State.setRing_keeps | simp (disch := rfl) only [StateKeeps.upd] | with_reducible refine StateKeeps.write ?_ rfl rfl | with_reducible refine StateKeeps.clear ?_ rfl rfl | split)

theorem State.moveEffect_keeps {s x : State} (h : StateKeeps s x) (o : MoveOp) (u : MemUnit) (wraps : Nat) : StateKeeps s (State.moveEffect x o u wraps) := by
  unfold State.moveEffect
  repeat' (first | with_reducible exact h | with_reducible exact StateKeeps.refl _ | with_reducible apply State.capRead_keeps | with_reducible apply State.capWrite_keeps | with_reducible apply State.capAtomic_keeps | with_reducible apply State.onColumn_keeps | dsimp only | with_reducible refine StateKeeps.write ?_ rfl rfl | with_reducible refine StateKeeps.clear ?_ rfl rfl | split)

theorem State.nearArrives_keeps {s x : State} (h : StateKeeps s x) (n : Nat) (k : Nat) (o : MoveOp) : StateKeeps s (State.nearArrives x n k o) := by
  unfold State.nearArrives
  repeat' (first | with_reducible exact h | with_reducible exact StateKeeps.refl _ | with_reducible apply State.updCuff_keeps | with_reducible apply State.nearTake_keeps | dsimp only | with_reducible refine StateKeeps.write ?_ rfl rfl | with_reducible refine StateKeeps.clear ?_ rfl rfl | split)

theorem State.turnMismatch_keeps {s x : State} (h : StateKeeps s x) (n : Nat) (slot : Nat) (word : BitVec 28) (stop : Local → Local) (hf : ∀ t, LocalKeeps t (stop t)) : StateKeeps s (State.turnMismatch x n slot word stop) := by
  unfold State.turnMismatch
  repeat' (first | with_reducible exact h | with_reducible exact StateKeeps.refl _ | with_reducible exact hf _ | with_reducible apply State.putLocal_keeps | simp (disch := rfl) only [StateKeeps.upd] | with_reducible refine StateKeeps.write ?_ rfl rfl | with_reducible refine StateKeeps.clear ?_ rfl rfl | with_reducible exact LocalKeeps.refl _ | with_reducible apply Local.pump_keeps | with_reducible apply Local.faultStop_keeps)

theorem State.dropIsolated_keeps {s x : State} (h : StateKeeps s x) (n : Nat) : StateKeeps s (State.dropIsolated x n) := by
  unfold State.dropIsolated
  repeat' (first | with_reducible exact h | with_reducible exact StateKeeps.refl _ | with_reducible apply State.setCore_keeps | dsimp only | with_reducible refine StateKeeps.write ?_ rfl rfl | with_reducible refine StateKeeps.clear ?_ rfl rfl | refine StateKeeps.foldl _ _ ?_ ?_ | intro _ _ | split)

theorem State.moveTurn_keeps {s x : State} (h : StateKeeps s x) (key : Nat) (n : Nat) (checkLap : Bool) : StateKeeps s (State.moveTurn x key n checkLap).1 := by
  unfold State.moveTurn
  repeat' (first | with_reducible exact h | with_reducible exact StateKeeps.refl _ | with_reducible apply State.putLocal_keeps | with_reducible apply State.moveEffect_keeps | with_reducible apply State.nearArrives_keeps | with_reducible apply State.turnMismatch_keeps | with_reducible apply State.creditTake_keeps | dsimp only | with_reducible refine StateKeeps.write ?_ rfl rfl | with_reducible refine StateKeeps.clear ?_ rfl rfl | with_reducible exact LocalKeeps.refl _ | with_reducible apply Local.pump_keeps | with_reducible apply Local.setMove_keeps | with_reducible apply Local.moveServe_keeps | simp only [LocalKeeps.upd] | intro _ | intro _ | split)

theorem State.walkUnit_keeps {s x : State} (h : StateKeeps s x) (key : Nat) (n : Nat) : StateKeeps s (State.walkUnit x key n) := by
  unfold State.walkUnit
  repeat' (first | with_reducible exact h | with_reducible exact StateKeeps.refl _ | with_reducible apply State.capRead_keeps | with_reducible apply State.putLocal_keeps | with_reducible apply State.onColumn_keeps | dsimp only | with_reducible refine StateKeeps.write ?_ rfl rfl | with_reducible refine StateKeeps.clear ?_ rfl rfl | with_reducible exact LocalKeeps.refl _ | with_reducible apply Local.pump_keeps | with_reducible apply Local.walkServe_keeps | simp only [LocalKeeps.upd] | intro _ | split)

theorem State.walkMismatch_keeps {s x : State} (h : StateKeeps s x) (n : Nat) (t : WalkTurns) : StateKeeps s (State.walkMismatch x n t) := by
  unfold State.walkMismatch
  repeat' (first | with_reducible exact h | with_reducible exact StateKeeps.refl _ | with_reducible apply State.turnMismatch_keeps | simp (disch := rfl) only [StateKeeps.upd] | with_reducible refine StateKeeps.write ?_ rfl rfl | with_reducible refine StateKeeps.clear ?_ rfl rfl | with_reducible exact LocalKeeps.refl _ | with_reducible apply Local.attUpd_keeps | simp only [LocalKeeps.upd] | intro _)

theorem State.walkTurn_keeps {s x : State} (h : StateKeeps s x) (key : Nat) (n : Nat) : StateKeeps s (State.walkTurn x key n).1 := by
  unfold State.walkTurn
  repeat' (first | with_reducible exact h | with_reducible exact StateKeeps.refl _ | with_reducible apply State.walkUnit_keeps | with_reducible apply State.walkMismatch_keeps | dsimp only | with_reducible refine StateKeeps.write ?_ rfl rfl | with_reducible refine StateKeeps.clear ?_ rfl rfl | split)

theorem State.countWalkTurn_keeps {s x : State} (h : StateKeeps s x) (key : Nat) (n : Nat) : StateKeeps s (State.countWalkTurn x key n) := by
  unfold State.countWalkTurn
  repeat' (first | with_reducible exact h | with_reducible exact StateKeeps.refl _ | with_reducible apply State.setCore_keeps | dsimp only | with_reducible refine StateKeeps.write ?_ rfl rfl | with_reducible refine StateKeeps.clear ?_ rfl rfl | split)

theorem State.coreTurn_keeps {s x : State} (h : StateKeeps s x) (key : Nat) (n : Nat) (walk : Bool) : StateKeeps s (State.coreTurn x key n walk).1 := by
  unfold State.coreTurn
  repeat' (first | with_reducible exact h | with_reducible exact StateKeeps.refl _ | with_reducible apply State.putLocal_keeps | with_reducible apply State.onColumn_keeps | with_reducible apply State.moveTurn_keeps | with_reducible apply State.walkTurn_keeps | dsimp only | with_reducible refine StateKeeps.write ?_ rfl rfl | with_reducible refine StateKeeps.clear ?_ rfl rfl | with_reducible exact LocalKeeps.refl _ | with_reducible apply Local.writeLapRecord_keeps | simp only [LocalKeeps.upd] | intro _ | split)

theorem State.logTurn_keeps {s x : State} (h : StateKeeps s x) : StateKeeps s (State.logTurn x).1 := by
  unfold State.logTurn
  repeat' (first | with_reducible exact h | with_reducible exact StateKeeps.refl _ | with_reducible apply State.writeLog_keeps | simp (disch := rfl) only [StateKeeps.upd] | with_reducible refine StateKeeps.write ?_ rfl rfl | with_reducible refine StateKeeps.clear ?_ rfl rfl | split)

theorem State.hubTurn_keeps {s x : State} (h : StateKeeps s x) (key : Nat) (owner : Nat) : StateKeeps s (State.hubTurn x key owner).1 := by
  unfold State.hubTurn
  repeat' (first | with_reducible exact h | with_reducible exact StateKeeps.refl _ | with_reducible apply State.settleTransfers_keeps | with_reducible apply State.hubUnit_keeps | with_reducible apply State.endPartials_keeps | dsimp only | with_reducible refine StateKeeps.write ?_ rfl rfl | with_reducible refine StateKeeps.clear ?_ rfl rfl | split)

theorem State.nearMismatch_keeps {s x : State} (h : StateKeeps s x) (key : Nat) (k : Nat) (i : Nat) (w : TurnWork) : StateKeeps s (State.nearMismatch x key k i w) := by
  unfold State.nearMismatch
  dsimp only
  repeat' (first | with_reducible exact h | with_reducible apply State.setNearWork_keeps | with_reducible apply State.nearAbandon_keeps | (refine State.turnMismatch_keeps ?_ _ _ _ _ (fun t => .refl t)) | split)

theorem State.scoreServe_keeps {s x : State} (h : StateKeeps s x) (n : Nat) (k : Nat) (key : Nat) : StateKeeps s (State.scoreServe x n k key) := by
  unfold State.scoreServe
  repeat' (first | with_reducible exact h | with_reducible exact StateKeeps.refl _ | with_reducible apply State.capRead_keeps | with_reducible apply State.putLocal_keeps | simp (disch := rfl) only [StateKeeps.upd] | with_reducible refine StateKeeps.write ?_ rfl rfl | with_reducible refine StateKeeps.clear ?_ rfl rfl | with_reducible exact LocalKeeps.refl _ | with_reducible apply Local.pump_keeps | with_reducible apply Local.scoreServe_keeps | simp only [LocalKeeps.upd] | intro _ | split)

theorem State.workUnit_keeps {s x : State} (h : StateKeeps s x) (key : Nat) (k : Nat) (w : TurnWork) : StateKeeps s (State.workUnit x key k w) := by
  unfold State.workUnit
  repeat' (first | with_reducible exact h | with_reducible exact StateKeeps.refl _ | with_reducible apply State.nearServe_keeps | with_reducible apply State.nearSend_keeps | with_reducible apply State.scoreServe_keeps | simp (disch := rfl) only [StateKeeps.upd] | with_reducible refine StateKeeps.write ?_ rfl rfl | with_reducible refine StateKeeps.clear ?_ rfl rfl | with_reducible exact LocalKeeps.refl _ | with_reducible apply Local.scoreServe_keeps | simp only [LocalKeeps.upd] | intro _ | split)

theorem State.nearUnit_keeps {s x : State} (h : StateKeeps s x) (key : Nat) (k : Nat) (host : Bool) : StateKeeps s (State.nearUnit x key k host).1 := by
  unfold State.nearUnit
  repeat' (first | with_reducible exact h | with_reducible exact StateKeeps.refl _ | with_reducible apply State.setNearWork_keeps | with_reducible apply State.nearMismatch_keeps | with_reducible apply State.workUnit_keeps | dsimp only | with_reducible refine StateKeeps.write ?_ rfl rfl | with_reducible refine StateKeeps.clear ?_ rfl rfl | split)

theorem State.nearTurn_keeps {s x : State} (h : StateKeeps s x) (key : Nat) (k : Nat) : StateKeeps s (State.nearTurn x key k).1 := by
  have k1 := State.nearUnit_keeps h key k false
  unfold State.nearTurn
  repeat' (first | with_reducible exact h | split)
  all_goals first | (rename_i he _; rw [he] at k1; exact k1) | (rename_i he; rw [he] at k1; exact k1)

theorem State.countNearTurn_keeps {s x : State} (h : StateKeeps s x) (key : Nat) (k : Nat) : StateKeeps s (State.countNearTurn x key k) := by
  unfold State.countNearTurn
  repeat' (first | with_reducible exact h | with_reducible exact StateKeeps.refl _ | with_reducible apply State.setNearWork_keeps | dsimp only | with_reducible refine StateKeeps.write ?_ rfl rfl | with_reducible refine StateKeeps.clear ?_ rfl rfl | split)

theorem State.present_keeps {s x : State} (h : StateKeeps s x) (key : Nat) (n : Nat) : StateKeeps s (State.present x key n) := by
  unfold State.present
  repeat' (first | with_reducible exact h | with_reducible exact StateKeeps.refl _ | with_reducible apply State.setCore_keeps | dsimp only | with_reducible refine StateKeeps.write ?_ rfl rfl | with_reducible refine StateKeeps.clear ?_ rfl rfl | split)

theorem State.unpresent_keeps {s x : State} (h : StateKeeps s x) (key : Nat) (n : Nat) : StateKeeps s (State.unpresent x key n) := by
  unfold State.unpresent
  repeat' (first | with_reducible exact h | with_reducible exact StateKeeps.refl _ | with_reducible apply State.setCore_keeps | dsimp only | with_reducible refine StateKeeps.write ?_ rfl rfl | with_reducible refine StateKeeps.clear ?_ rfl rfl | split)

theorem State.outsideRequest_keeps {s x : State} (h : StateKeeps s x) (key : Nat) (n : Nat) (walk : Bool) : StateKeeps s (State.outsideRequest x key n walk) := by
  unfold State.outsideRequest
  repeat' (first | with_reducible exact h | with_reducible exact StateKeeps.refl _ | with_reducible apply State.updRing_keeps | with_reducible apply State.clashRequest_keeps | dsimp only | with_reducible refine StateKeeps.write ?_ rfl rfl | with_reducible refine StateKeeps.clear ?_ rfl rfl | split)

theorem State.ownerTurn_keeps {s x : State} (h : StateKeeps s x) (key : Nat) (owner : Nat) (walk : Bool) : StateKeeps s (State.ownerTurn x key owner walk) := by
  unfold State.ownerTurn
  repeat' (first | with_reducible exact h | with_reducible exact StateKeeps.refl _ | with_reducible apply State.useSlot_keeps | with_reducible apply State.settleRing_keeps | with_reducible apply State.countWalkTurn_keeps | with_reducible apply State.coreTurn_keeps | with_reducible apply State.logTurn_keeps | with_reducible apply State.hubTurn_keeps | with_reducible apply State.nearTurn_keeps | with_reducible apply State.countNearTurn_keeps | with_reducible apply State.present_keeps | with_reducible apply State.unpresent_keeps | dsimp only | with_reducible refine StateKeeps.write ?_ rfl rfl | with_reducible refine StateKeeps.clear ?_ rfl rfl | split)

theorem State.unslotted_keeps {s x : State} (h : StateKeeps s x) (key : Nat) (k : Nat) : StateKeeps s (State.unslotted x key k) := by
  unfold State.unslotted
  repeat' (first | with_reducible exact h | with_reducible exact StateKeeps.refl _ | with_reducible apply State.setNearWork_keeps)

theorem State.otherRequest_keeps {s x : State} (h : StateKeeps s x) (key : Nat) (owner : Nat) (walk : Bool) : StateKeeps s (State.otherRequest x key owner walk) := by
  unfold State.otherRequest
  repeat' (first | with_reducible exact h | with_reducible exact StateKeeps.refl _ | with_reducible apply State.clashRequest_keeps | with_reducible apply State.present_keeps | with_reducible apply State.outsideRequest_keeps | with_reducible apply State.unslotted_keeps | dsimp only | with_reducible refine StateKeeps.write ?_ rfl rfl | with_reducible refine StateKeeps.clear ?_ rfl rfl | split)

theorem State.ownerRequest_keeps {s x : State} (h : StateKeeps s x) (cls : Nat) (inst : Nat) (owner : Nat) (walk : Bool) : StateKeeps s (State.ownerRequest x cls inst owner walk) := by
  unfold State.ownerRequest
  repeat' (first | with_reducible exact h | with_reducible exact StateKeeps.refl _ | with_reducible apply State.settleRing_keeps | with_reducible apply State.dropIsolated_keeps | with_reducible apply State.ownerTurn_keeps | with_reducible apply State.otherRequest_keeps | dsimp only | with_reducible refine StateKeeps.write ?_ rfl rfl | with_reducible refine StateKeeps.clear ?_ rfl rfl | split)

theorem State.badMessage_keeps {s x : State} (h : StateKeeps s x) (receiver : Nat) (window : Nat) : StateKeeps s (State.badMessage x receiver window) := by
  unfold State.badMessage
  repeat' (first | with_reducible exact h | with_reducible exact StateKeeps.refl _ | with_reducible apply State.note_keeps)

theorem State.setHolder_keeps {s x : State} (h : StateKeeps s x) (t : Nat) (w : Nat) (h' : WindowHolder) : StateKeeps s (State.setHolder x t w h') := by
  unfold State.setHolder
  repeat' (first | with_reducible exact h | with_reducible exact StateKeeps.refl _ | with_reducible apply State.setCore_keeps)

theorem State.sendCredit_keeps {s x : State} (h : StateKeeps s x) (kind : CreditKind) (target : Nat) (taker : Nat) (window : Nat) : StateKeeps s (State.sendCredit x kind target taker window) := by
  unfold State.sendCredit
  repeat' (first | with_reducible exact h | with_reducible exact StateKeeps.refl _ | simp (disch := rfl) only [StateKeeps.upd])

theorem State.takeMismatch_keeps {s x : State} (h : StateKeeps s x) (taker : Nat) (o : MoveOp) : StateKeeps s (State.takeMismatch x taker o) := by
  unfold State.takeMismatch
  repeat' (first | with_reducible exact h | with_reducible exact StateKeeps.refl _ | with_reducible apply State.turnMismatch_keeps | simp (disch := rfl) only [StateKeeps.upd] | with_reducible refine StateKeeps.write ?_ rfl rfl | with_reducible refine StateKeeps.clear ?_ rfl rfl | with_reducible exact LocalKeeps.refl _ | with_reducible apply Local.movUpd_keeps | simp only [LocalKeeps.upd] | intro _)

theorem State.takeServe_keeps {s x y : State} (h : StateKeeps s x) {key target taker window : Nat}
    (hy : x.takeServe key target taker window = some y) : StateKeeps s y := by
  have a (key' : Nat) : StateKeeps s (x.putLocal taker ((x.localOf taker).moveServe key')) :=
    State.putLocal_keeps h _ _ (Local.moveServe_keeps (.refl _) _)
  unfold State.takeServe at hy
  dsimp only at hy
  repeat' split at hy
  all_goals first | cases hy
  · exact State.sendCredit_keeps (a _) _ _ _ _
  · exact State.sendCredit_keeps (State.setHolder_keeps (a _) _ _ _) _ _ _ _
  · exact State.sendCredit_keeps (a _) _ _ _ _

theorem State.creditTake_keeps {s x : State} (h : StateKeeps s x) (target taker window : Nat) (upset : BitVec 128) :
    StateKeeps s (State.creditTake x target taker window upset) := by
  have h0 := State.settleRing_keeps h (ringKey 1 target)
  unfold State.creditTake
  dsimp only
  generalize x.settleRing (ringKey 1 target) = y at h0
  repeat' (first | with_reducible exact h0 | with_reducible apply State.badMessage_keeps | with_reducible apply State.clashRequest_keeps | with_reducible apply State.takeMismatch_keeps | (rename_i hs; exact State.settleRing_keeps (State.useSlot_keeps (State.takeServe_keeps h0 hs) _ _ _) _) | split)

theorem State.creditAnswer_keeps {s x : State} (h : StateKeeps s x) (kind : CreditKind) (target : Nat) (taker : Nat) (window : Nat) (upset : BitVec 128) : StateKeeps s (State.creditAnswer x kind target taker window upset) := by
  unfold State.creditAnswer
  dsimp only
  have e (m : CreditMessage) : StateKeeps s { x with credit := x.credit.erase m } := ⟨h.pending, h.mem, h.hostMem, h.tagBytes⟩
  repeat' (first | with_reducible exact h | exact e _ | exact State.badMessage_keeps (e _) _ _ | split)
  all_goals refine State.putLocal_keeps (e _) _ _ ?_
  all_goals apply Local.pump_keeps
  all_goals refine LocalKeeps.trans (m := x.localOf taker) ⟨rfl, id⟩ ?_
  all_goals repeat' (first | exact .refl _ | with_reducible apply Local.misuse_keeps | with_reducible apply Local.scrUpd_keeps | with_reducible apply Local.setMove_keeps)

theorem State.creditGive_keeps {s x : State} (h : StateKeeps s x) (target : Nat) (giver : Nat) (window : Nat) (upset : BitVec 128) : StateKeeps s (State.creditGive x target giver window upset) := by
  unfold State.creditGive
  repeat' (first | with_reducible exact h | with_reducible exact StateKeeps.refl _ | with_reducible apply State.putLocal_keeps | with_reducible apply State.badMessage_keeps | with_reducible apply State.setHolder_keeps | dsimp only | with_reducible refine StateKeeps.write ?_ rfl rfl | with_reducible refine StateKeeps.clear ?_ rfl rfl | with_reducible exact LocalKeeps.refl _ | with_reducible apply Local.pump_keeps | with_reducible apply Local.setMove_keeps | simp only [LocalKeeps.upd] | intro _ | split)

theorem State.creditWrite_keeps {s x : State} (h : StateKeeps s x) (target : Nat) (sender : Nat) (window : Nat) (upset : BitVec 128) : StateKeeps s (State.creditWrite x target sender window upset) := by
  unfold State.creditWrite
  repeat' (first | with_reducible exact h | with_reducible exact StateKeeps.refl _ | with_reducible apply State.putLocal_keeps | with_reducible apply State.dropIsolated_keeps | with_reducible apply State.badMessage_keeps | dsimp only | with_reducible refine StateKeeps.write ?_ rfl rfl | with_reducible refine StateKeeps.clear ?_ rfl rfl | with_reducible exact LocalKeeps.refl _ | with_reducible apply Local.cross_keeps | with_reducible apply Local.pump_keeps | with_reducible apply Local.writeScr_keeps | with_reducible apply Local.setMove_keeps | simp only [LocalKeeps.upd] | intro _ | split)

theorem State.endOpening_keeps {s x : State} (h : StateKeeps s x) (key : Nat) (k : SlotKind) (used : Bool) : StateKeeps s (State.endOpening x key k used) := by
  unfold State.endOpening
  repeat' (first | with_reducible exact h | with_reducible exact StateKeeps.refl _ | with_reducible apply State.moveRing_keeps | with_reducible apply State.settleRing_keeps)

theorem State.bar4Refuse_keeps {s x : State} (h : StateKeeps s x) (r : Bar4Request) : StateKeeps s (State.bar4Refuse x r) := by
  unfold State.bar4Refuse
  repeat' (first | with_reducible exact h | with_reducible exact StateKeeps.refl _ | with_reducible apply State.answer_keeps | simp (disch := rfl) only [StateKeeps.upd] | with_reducible refine StateKeeps.write ?_ rfl rfl | with_reducible refine StateKeeps.clear ?_ rfl rfl | split)

theorem State.bar4Expire_keeps {s x : State} (h : StateKeeps s x) (r : Bar4Request) : StateKeeps s (State.bar4Expire x r) := by
  unfold State.bar4Expire
  repeat' (first | with_reducible exact h | with_reducible exact StateKeeps.refl _ | with_reducible apply State.bar4Refuse_keeps | with_reducible apply State.note_keeps)

theorem State.hostShare_keeps {s x : State} (h : StateKeeps s x) (key : Nat) (owner : Nat) (left : Nat) : StateKeeps s (State.hostShare x key owner left).1 := by
  unfold State.hostShare
  repeat' (first | with_reducible exact h | with_reducible exact StateKeeps.refl _ | with_reducible apply State.hubServes_keeps)

theorem State.dmaShares_keeps {s x : State} (h : StateKeeps s x) (key : Nat) (left : Nat) (es : List Nat) : StateKeeps s (State.dmaShares x key left es).1 := by
  induction es generalizing x key left with
  | nil =>
    unfold State.dmaShares
    repeat' (first | with_reducible exact h)
  | cons a r ih =>
    unfold State.dmaShares
    repeat' (first | with_reducible exact h | with_reducible apply ih | with_reducible exact StateKeeps.refl _ | with_reducible apply State.hostShare_keeps)

theorem State.clashWalk_keeps {s x : State} (h : StateKeeps s x) (key : Nat) (n : Nat) : StateKeeps s (State.clashWalk x key n).1 := by
  unfold State.clashWalk
  repeat' (first | with_reducible exact h | with_reducible exact StateKeeps.refl _ | with_reducible apply State.walkUnit_keeps | with_reducible apply State.walkMismatch_keeps | dsimp only | with_reducible refine StateKeeps.write ?_ rfl rfl | with_reducible refine StateKeeps.clear ?_ rfl rfl | split)

theorem State.clashMove_keeps {s x : State} (h : StateKeeps s x) (key : Nat) (n : Nat) : StateKeeps s (State.clashMove x key n).1 := by
  unfold State.clashMove
  dsimp only
  repeat' (first | with_reducible exact h | (rename_i hs; exact State.takeServe_keeps h hs) | with_reducible apply State.takeMismatch_keeps | with_reducible apply State.moveTurn_keeps | split)

theorem State.clashServe_keeps {s x : State} (h : StateKeeps s x) (key : Nat) (code : Nat) : StateKeeps s (State.clashServe x key code).1 := by
  unfold State.clashServe
  repeat' (first | with_reducible exact h | with_reducible exact StateKeeps.refl _ | with_reducible apply State.clashWalk_keeps | with_reducible apply State.clashMove_keeps | with_reducible apply State.logTurn_keeps | with_reducible apply State.nearUnit_keeps | dsimp only | with_reducible refine StateKeeps.write ?_ rfl rfl | with_reducible refine StateKeeps.clear ?_ rfl rfl | split)

theorem State.clashShares_keeps {s x : State} (h : StateKeeps s x) (key : Nat) (left : Nat) (cs : List Nat) : StateKeeps s (State.clashShares x key left cs).1 := by
  induction cs generalizing x key left with
  | nil =>
    unfold State.clashShares
    repeat' (first | with_reducible exact h)
  | cons a r ih =>
    unfold State.clashShares
    repeat' (first | with_reducible exact h | with_reducible apply ih | with_reducible exact StateKeeps.refl _ | with_reducible apply State.clashServe_keeps | with_reducible apply State.updRing_keeps | dsimp only | with_reducible refine StateKeeps.write ?_ rfl rfl | with_reducible refine StateKeeps.clear ?_ rfl rfl | split)

theorem State.fenceSends_keeps {s x : State} (h : StateKeeps s x) (port : Nat) : StateKeeps s (State.fenceSends x port) := by
  unfold State.fenceSends
  repeat' (first | with_reducible exact h | with_reducible exact StateKeeps.refl _ | simp (disch := rfl) only [StateKeeps.upd])

theorem State.fenceReports_keeps {s x : State} (h : StateKeeps s x) (p : Nat) : StateKeeps s (State.fenceReports x p) := by
  unfold State.fenceReports
  repeat' (first | with_reducible exact h | with_reducible exact StateKeeps.refl _ | simp (disch := rfl) only [StateKeeps.upd])

theorem State.fencesDone_keeps {s x : State} (h : StateKeeps s x) (fuel : Nat) : StateKeeps s (State.fencesDone fuel x) := by
  induction fuel generalizing x with
  | zero => exact h
  | succ k ih =>
    unfold State.fencesDone
    split
    · next j w rest hk _ =>
      obtain rfl : k = j := by simpa using hk
      dsimp only
      split
      · apply ih
        split
        · apply State.complete_keeps; simp (disch := rfl) only [StateKeeps.upd]; exact h
        · simp (disch := rfl) only [StateKeeps.upd]; exact h
      · exact h
    · exact h

theorem State.refreshOpening_keeps {s x : State} (h : StateKeeps s x) (cls : Nat) (inst : Nat) : StateKeeps s (State.refreshOpening x cls inst) := by
  unfold State.refreshOpening
  repeat' (first | with_reducible exact h | with_reducible exact StateKeeps.refl _ | with_reducible apply State.updChan_keeps | with_reducible apply State.endOpening_keeps | with_reducible apply State.setColumn_keeps | with_reducible apply State.settleRing_keeps | dsimp only | with_reducible refine StateKeeps.write ?_ rfl rfl | with_reducible refine StateKeeps.clear ?_ rfl rfl | split)

theorem State.pocketDue_keeps {s x : State} (h : StateKeeps s x) (col : Nat) : StateKeeps s (State.pocketDue x col) := by
  unfold State.pocketDue
  repeat' (first | with_reducible exact h | with_reducible exact StateKeeps.refl _ | with_reducible apply State.setColumn_keeps | with_reducible apply State.payDue_keeps | with_reducible apply State.settleRing_keeps | dsimp only | with_reducible refine StateKeeps.write ?_ rfl rfl | with_reducible refine StateKeeps.clear ?_ rfl rfl | split)

theorem State.cuffDue_keeps {s x : State} (h : StateKeeps s x) (k : Nat) (slot : Nat) : StateKeeps s (State.cuffDue x k slot) := by
  unfold State.cuffDue
  repeat' (first | with_reducible exact h | with_reducible exact StateKeeps.refl _ | with_reducible apply State.updCuff_keeps | with_reducible apply State.updChan_keeps | with_reducible apply State.payDue_keeps | with_reducible apply State.settleRing_keeps | dsimp only | with_reducible refine StateKeeps.write ?_ rfl rfl | with_reducible refine StateKeeps.clear ?_ rfl rfl | split)

theorem State.updRegions_keeps {s x : State} (h : StateKeeps s x) (n : Nat) (f : Regions → Regions) : StateKeeps s (State.updRegions x n f) := by
  unfold State.updRegions
  repeat' (first | with_reducible exact h | with_reducible exact StateKeeps.refl _ | with_reducible apply State.setCore_keeps)

theorem State.switchOnOpening_keeps {s x : State} (h : StateKeeps s x) (n : Nat) : StateKeeps s (State.switchOnOpening x n) := by
  unfold State.switchOnOpening
  repeat' (first | with_reducible exact h | with_reducible exact StateKeeps.refl _ | with_reducible apply State.endOpening_keeps | with_reducible apply State.updRegions_keeps | with_reducible apply State.settleRing_keeps | dsimp only | with_reducible refine StateKeeps.write ?_ rfl rfl | with_reducible refine StateKeeps.clear ?_ rfl rfl | split)

theorem State.capVerifyFails_keeps {s x : State} (h : StateKeeps s x) (a : Nat) (syn : BitVec 16) (n : ScrubCounts) : StateKeeps s (State.capVerifyFails x a syn n).1 := by
  unfold State.capVerifyFails
  repeat' (first | with_reducible exact h | with_reducible exact StateKeeps.refl _ | with_reducible apply State.updChan_keeps | with_reducible apply State.cuffNote_keeps | with_reducible apply State.retrainTrigger_keeps)

theorem State.capScrubUnit_keeps {s x : State} (h : StateKeeps s x) (a : Nat) (n : ScrubCounts) : StateKeeps s (State.capScrubUnit x a n).1 := by
  unfold State.capScrubUnit
  repeat' (first | with_reducible exact h | with_reducible exact StateKeeps.refl _ | with_reducible apply State.setFault_keeps | with_reducible apply State.clearFault_keeps | with_reducible apply State.capRead_keeps | with_reducible apply State.discardUnit_keeps | with_reducible apply State.markRow_keeps | with_reducible apply State.capVerifyFails_keeps | dsimp only | with_reducible refine StateKeeps.write ?_ rfl rfl | with_reducible refine StateKeeps.clear ?_ rfl rfl | split)

theorem State.capScrubRow_keeps {s x : State} (h : StateKeeps s x) (inst : Nat) (row : Nat) (n : ScrubCounts) : StateKeeps s (State.capScrubRow x inst row n).1 := by
  unfold State.capScrubRow
  dsimp only
  generalize (x.cap.list.findIdx? fun x => x == inst).getD 0 = i
  suffices g : ∀ (l : List Nat) (a : State × ScrubCounts), StateKeeps s a.1 →
      StateKeeps s (l.foldl (fun (a : State × ScrubCounts) c => a.1.capScrubUnit (capUnitAddr x.cap.list i (31 * row + c)) a.2) a).1 from
    g _ _ h
  intro l
  induction l with
  | nil => exact fun a h => h
  | cons c r ih => exact fun a h => ih _ (State.capScrubUnit_keeps h _ _)

theorem State.scrubOpening_keeps {s x : State} (h : StateKeeps s x) (cls : Nat) (inst : Nat) : StateKeeps s (State.scrubOpening x cls inst) := by
  unfold State.scrubOpening
  repeat' (first | with_reducible exact h | with_reducible exact StateKeeps.refl _ | with_reducible apply State.copyUnits_keeps | with_reducible apply State.scrub_keeps | with_reducible apply State.endOpening_keeps | with_reducible apply State.capScrubRow_keeps | with_reducible apply State.setColumn_keeps | with_reducible apply State.fileAll_keeps | with_reducible apply State.changedBy_keeps | with_reducible apply State.settleRing_keeps | simp (disch := rfl) only [StateKeeps.upd] | with_reducible refine StateKeeps.write ?_ rfl rfl | with_reducible refine StateKeeps.clear ?_ rfl rfl | split)

theorem State.moveRecords_keeps {s x : State} (h : StateKeeps s x) (g : Nat) (units : Nat) : StateKeeps s (State.moveRecords x g units).1 := by
  unfold State.moveRecords
  repeat' (first | with_reducible exact h | with_reducible exact StateKeeps.refl _ | with_reducible apply State.setLogSource_keeps | simp (disch := rfl) only [StateKeeps.upd] | with_reducible refine StateKeeps.write ?_ rfl rfl | with_reducible refine StateKeeps.clear ?_ rfl rfl | split)

theorem State.logOpening_keeps {s x : State} (h : StateKeeps s x) (cls : Nat) (inst : Nat) : StateKeeps s (State.logOpening x cls inst) := by
  unfold State.logOpening
  repeat' (first | with_reducible exact h | with_reducible exact StateKeeps.refl _ | with_reducible apply State.writeLog_keeps | with_reducible apply State.endOpening_keeps | with_reducible apply State.moveRecords_keeps | with_reducible apply State.setLogSource_keeps | with_reducible apply State.settleRing_keeps | dsimp only | with_reducible refine StateKeeps.write ?_ rfl rfl | with_reducible refine StateKeeps.clear ?_ rfl rfl | split)

theorem State.coolSample_keeps {s x : State} (h : StateKeeps s x) (key : Nat) (t : Nat) : StateKeeps s (State.coolSample x key t) := by
  unfold State.coolSample
  repeat' (first | with_reducible exact h | with_reducible exact StateKeeps.refl _ | with_reducible apply State.updRing_keeps)

theorem State.applyColumn_keeps {s x : State} (h : StateKeeps s x) (col : Nat) : StateKeeps s (State.applyColumn x col) := by
  unfold State.applyColumn
  repeat' (first | with_reducible exact h | with_reducible exact StateKeeps.refl _ | with_reducible apply State.setColumn_keeps)

theorem State.settleColumns_keeps {s x : State} (h : StateKeeps s x) : StateKeeps s (State.settleColumns x) := by
  unfold State.settleColumns
  repeat' (first | with_reducible exact h | with_reducible exact StateKeeps.refl _ | with_reducible apply State.applyColumn_keeps | with_reducible apply foldOver_keeps | simp (disch := rfl) only [StateKeeps.upd] | with_reducible refine StateKeeps.write ?_ rfl rfl | with_reducible refine StateKeeps.clear ?_ rfl rfl | refine StateKeeps.fold _ _ ?_ ?_ | intro _ _ | split)

theorem State.atBoundary_keeps {s x : State} (h : StateKeeps s x) (key : Nat) : StateKeeps s (State.atBoundary x key) := by
  unfold State.atBoundary
  repeat' (first | with_reducible exact h | with_reducible exact StateKeeps.refl _ | with_reducible apply State.updRegions_keeps | with_reducible apply State.applyColumn_keeps | with_reducible apply State.updRing_keeps | dsimp only | with_reducible refine StateKeeps.write ?_ rfl rfl | with_reducible refine StateKeeps.clear ?_ rfl rfl | split)

theorem State.ringBoundary_keeps {s x : State} (h : StateKeeps s x) (cls : Nat) (inst : Nat) : StateKeeps s (State.ringBoundary x cls inst) := by
  unfold State.ringBoundary
  repeat' (first | with_reducible exact h | with_reducible exact StateKeeps.refl _ | with_reducible apply State.atBoundary_keeps | with_reducible apply State.setRing_keeps | with_reducible apply State.settleRing_keeps | dsimp only | with_reducible refine StateKeeps.write ?_ rfl rfl | with_reducible refine StateKeeps.clear ?_ rfl rfl | split)

theorem State.turnStall_keeps {s x : State} (h : StateKeeps s x) (cls : Nat) (inst : Nat) : StateKeeps s (State.turnStall x cls inst) := by
  unfold State.turnStall
  repeat' (first | with_reducible exact h | with_reducible exact StateKeeps.refl _ | with_reducible apply State.setRing_keeps | with_reducible apply State.reach_keeps | with_reducible apply State.note_keeps | with_reducible apply State.settleRing_keeps | dsimp only | with_reducible refine StateKeeps.write ?_ rfl rfl | with_reducible refine StateKeeps.clear ?_ rfl rfl | with_reducible exact LocalKeeps.refl _ | with_reducible apply Local.reach_keeps | simp only [LocalKeeps.upd] | intro _ | split)

theorem State.serveShown_keeps {s x : State} (h : StateKeeps s x) (n : Nat) : StateKeeps s (State.serveShown x n) := by
  unfold State.serveShown
  repeat' (first | with_reducible exact h | with_reducible exact StateKeeps.refl _ | with_reducible apply foldOver_keeps | with_reducible apply State.moveTurn_keeps | simp (disch := rfl) only [StateKeeps.upd] | with_reducible refine StateKeeps.write ?_ rfl rfl | with_reducible refine StateKeeps.clear ?_ rfl rfl | refine StateKeeps.fold _ _ ?_ ?_ | intro _ _)

theorem State.stopSet_keeps {s x : State} (h : StateKeeps s x) : StateKeeps s (State.stopSet x) := by
  unfold State.stopSet
  repeat' (first | with_reducible exact h | with_reducible exact StateKeeps.refl _ | with_reducible apply State.serveShown_keeps | with_reducible apply State.putLocal_keeps | with_reducible apply foldOver_keeps | simp (disch := rfl) only [StateKeeps.upd] | with_reducible refine StateKeeps.write ?_ rfl rfl | with_reducible refine StateKeeps.clear ?_ rfl rfl | with_reducible exact LocalKeeps.refl _ | with_reducible apply Local.haltStop_keeps | simp only [LocalKeeps.upd] | intro _ | refine StateKeeps.fold _ _ ?_ ?_)

theorem State.fillScratch_keeps {s x : State} (h : StateKeeps s x) (n : Nat) : StateKeeps s (State.fillScratch x n) := by
  unfold State.fillScratch
  repeat' (first | with_reducible exact h | with_reducible exact StateKeeps.refl _ | simp (disch := rfl) only [StateKeeps.upd] | with_reducible refine StateKeeps.write ?_ rfl rfl | with_reducible refine StateKeeps.clear ?_ rfl rfl)

theorem State.noteFill_keeps {s x : State} (h : StateKeeps s x) (n : Nat) (w : Nat) (last : Nat) : StateKeeps s (State.noteFill x n w last) := by
  unfold State.noteFill
  repeat' (first | with_reducible exact h | with_reducible exact StateKeeps.refl _ | with_reducible apply State.onColumn_keeps | with_reducible apply foldOver_keeps | dsimp only | with_reducible refine StateKeeps.write ?_ rfl rfl | with_reducible refine StateKeeps.clear ?_ rfl rfl | refine StateKeeps.fold _ _ ?_ ?_ | intro _ _ | split)

theorem State.restartCore_keeps {s x : State} (h : StateKeeps s x) (lap : Nat) (n : Nat) : StateKeeps s (State.restartCore x lap n) := by
  unfold State.restartCore
  repeat' (first | with_reducible exact h | with_reducible exact StateKeeps.refl _ | with_reducible apply State.noteFill_keeps | with_reducible apply State.setCore_keeps | dsimp only | with_reducible refine StateKeeps.write ?_ rfl rfl | with_reducible refine StateKeeps.clear ?_ rfl rfl | split)

theorem State.lapReplay_keeps {s x : State} (h : StateKeeps s x) (cause : Nat) : StateKeeps s (State.lapReplay x cause) := by
  unfold State.lapReplay
  repeat' (first | with_reducible exact h | with_reducible exact StateKeeps.refl _ | with_reducible apply State.noNear_keeps | with_reducible apply State.restartCore_keeps | with_reducible apply foldOver_keeps | with_reducible apply State.note_keeps | with_reducible apply State.updRing_keeps | with_reducible apply State.drainRing_keeps | simp (disch := rfl) only [StateKeeps.upd] | with_reducible refine StateKeeps.write ?_ rfl rfl | with_reducible refine StateKeeps.clear ?_ rfl rfl | refine StateKeeps.fold _ _ ?_ ?_ | intro _ _ | split)

theorem State.setPhys_keeps {s x : State} (h : StateKeeps s x) (k : Nat) (p : PhysState) : StateKeeps s (State.setPhys x k p) := by
  unfold State.setPhys
  repeat' (first | with_reducible exact h | with_reducible exact StateKeeps.refl _ | simp (disch := rfl) only [StateKeeps.upd])

theorem State.setEntry_keeps {s x : State} (h : StateKeeps s x) (n : Nat) (e : MapEntry) : StateKeeps s (State.setEntry x n e) := by
  unfold State.setEntry
  repeat' (first | with_reducible exact h | with_reducible exact StateKeeps.refl _ | simp (disch := rfl) only [StateKeeps.upd])

theorem State.dropScrubParts_keeps {s x : State} (h : StateKeeps s x) (gone : Nat → Bool) (status : Byte) : StateKeeps s (State.dropScrubParts x gone status) := by
  unfold State.dropScrubParts
  repeat' (first | with_reducible exact h | with_reducible exact StateKeeps.refl _ | simp (disch := rfl) only [StateKeeps.upd])

theorem State.darkRecord_keeps {s x : State} (h : StateKeeps s x) (phys : Nat) (logical : Nat) (cause : Nat) (outcome : Nat) : StateKeeps s (State.darkRecord x phys logical cause outcome) := by
  unfold State.darkRecord
  repeat' (first | with_reducible exact h | with_reducible exact StateKeeps.refl _ | with_reducible apply State.note_keeps)

theorem State.makeAbsent_keeps {s x : State} (h : StateKeeps s x) (n : Nat) (unreachable : List Nat) : StateKeeps s (State.makeAbsent x n unreachable) := by
  unfold State.makeAbsent
  repeat' (first | with_reducible exact h | with_reducible exact StateKeeps.refl _ | with_reducible apply State.setEntry_keeps | with_reducible apply State.dropScrubParts_keeps | with_reducible apply State.settleColumns_keeps | with_reducible apply State.setCore_keeps | simp (disch := rfl) only [StateKeeps.upd])

theorem State.stopReplayable_keeps {s x : State} (h : StateKeeps s x) (n : Nat) : StateKeeps s (State.stopReplayable x n) := by
  unfold State.stopReplayable
  repeat' (first | with_reducible exact h | with_reducible exact StateKeeps.refl _ | with_reducible apply State.setCore_keeps | with_reducible apply foldOver_keeps | dsimp only | with_reducible refine StateKeeps.write ?_ rfl rfl | with_reducible refine StateKeeps.clear ?_ rfl rfl | refine StateKeeps.fold _ _ ?_ ?_ | intro _ _ | split)

theorem State.loseNumber_keeps {s x : State} (h : StateKeeps s x) (phys : Nat) (n : Nat) (cause : Nat) (outcome : Nat) (unreachable : List Nat) : StateKeeps s (State.loseNumber x phys n cause outcome unreachable) := by
  unfold State.loseNumber
  repeat' (first | with_reducible exact h | with_reducible exact StateKeeps.refl _ | with_reducible apply State.darkRecord_keeps | with_reducible apply State.makeAbsent_keeps | with_reducible apply State.stopReplayable_keeps)

theorem State.goDark_keeps {s x : State} (h : StateKeeps s x) (phys : Nat) (cause : Nat) (selfTest : Bool) : StateKeeps s (State.goDark x phys cause selfTest).1 := by
  unfold State.goDark
  repeat' (first | with_reducible exact h | with_reducible exact StateKeeps.refl _ | with_reducible apply State.fillScratch_keeps | with_reducible apply State.setPhys_keeps | with_reducible apply State.setEntry_keeps | with_reducible apply State.darkRecord_keeps | with_reducible apply State.loseNumber_keeps | with_reducible apply State.setCore_keeps | dsimp only | with_reducible refine StateKeeps.write ?_ rfl rfl | with_reducible refine StateKeeps.clear ?_ rfl rfl | split)

theorem State.darkenCore_keeps {s x : State} (h : StateKeeps s x) (phys : Nat) (cause : Nat) (selfTest : Bool) : StateKeeps s (State.darkenCore x phys cause selfTest).1 := by
  unfold State.darkenCore
  repeat' (first | with_reducible exact h | with_reducible exact StateKeeps.refl _ | with_reducible apply State.goDark_keeps | with_reducible apply State.changedBy_keeps | dsimp only | with_reducible refine StateKeeps.write ?_ rfl rfl | with_reducible refine StateKeeps.clear ?_ rfl rfl | split)

theorem State.darken_keeps {s x : State} (h : StateKeeps s x) (phys : Nat) (cause : Nat) (selfTest : Bool) : StateKeeps s (State.darken x phys cause selfTest) := by
  unfold State.darken
  repeat' (first | with_reducible exact h | with_reducible exact StateKeeps.refl _ | with_reducible apply State.lapReplay_keeps | with_reducible apply State.darkenCore_keeps | dsimp only | with_reducible refine StateKeeps.write ?_ rfl rfl | with_reducible refine StateKeeps.clear ?_ rfl rfl | split)

theorem State.bankRetire_keeps {s x : State} (h : StateKeeps s x) (n : Nat) (selfTest : Bool) : StateKeeps s (State.bankRetire x n selfTest) := by
  unfold State.bankRetire
  repeat' (first | with_reducible exact h | with_reducible exact StateKeeps.refl _ | with_reducible apply State.darken_keeps | with_reducible apply State.setCore_keeps | with_reducible apply State.note_keeps | with_reducible apply State.changed_keeps | dsimp only | with_reducible refine StateKeeps.write ?_ rfl rfl | with_reducible refine StateKeeps.clear ?_ rfl rfl | split)

theorem State.updPanel_keeps {s x : State} (h : StateKeeps s x) (p : Nat) (f : Panel → Panel) : StateKeeps s (State.updPanel x p f) := by
  unfold State.updPanel
  repeat' (first | with_reducible exact h | with_reducible exact StateKeeps.refl _ | with_reducible apply State.setPanel_keeps)

theorem State.dropWalks_keeps {s x : State} (h : StateKeeps s x) (p : Nat) : StateKeeps s (State.dropWalks x p) := by
  unfold State.dropWalks
  repeat' (first | with_reducible exact h | with_reducible exact StateKeeps.refl _ | with_reducible apply State.setCore_keeps | with_reducible apply foldOver_keeps | dsimp only | with_reducible refine StateKeeps.write ?_ rfl rfl | with_reducible refine StateKeeps.clear ?_ rfl rfl | refine StateKeeps.fold _ _ ?_ ?_ | intro _ _ | split)

theorem State.dropBar4_keeps {s x : State} (h : StateKeeps s x) (p : Nat) : StateKeeps s (State.dropBar4 x p) := by
  unfold State.dropBar4
  repeat' (first | with_reducible exact h | with_reducible exact StateKeeps.refl _ | with_reducible apply State.doorbell_keeps | with_reducible apply State.bar4Refuse_keeps | with_reducible apply foldOver_keeps | simp (disch := rfl) only [StateKeeps.upd] | with_reducible refine StateKeeps.write ?_ rfl rfl | with_reducible refine StateKeeps.clear ?_ rfl rfl | intro _ | refine StateKeeps.fold _ _ ?_ ?_ | intro _ _ | split)

theorem State.dropFences_keeps {s x : State} (h : StateKeeps s x) (p : Nat) : StateKeeps s (State.dropFences x p) := by
  unfold State.dropFences
  repeat' (first | with_reducible exact h | with_reducible exact StateKeeps.refl _ | with_reducible apply State.fencesDone_keeps | simp (disch := rfl) only [StateKeeps.upd])

theorem State.isolate_keeps {s x : State} (h : StateKeeps s x) (p : Nat) (cause : Nat) (lost : Bool) : StateKeeps s (State.isolate x p cause lost) := by
  unfold State.isolate
  repeat' (first | with_reducible exact h | with_reducible exact StateKeeps.refl _ | with_reducible apply State.dropScrubParts_keeps | with_reducible apply State.updPanel_keeps | with_reducible apply State.dropWalks_keeps | with_reducible apply State.dropBar4_keeps | with_reducible apply State.dropFences_keeps | with_reducible apply State.settleColumns_keeps | with_reducible apply foldOver_keeps | with_reducible apply State.note_keeps | with_reducible apply State.changedIf_keeps | with_reducible apply State.updSeam_keeps | simp (disch := rfl) only [StateKeeps.upd] | with_reducible refine StateKeeps.write ?_ rfl rfl | with_reducible refine StateKeeps.clear ?_ rfl rfl | refine StateKeeps.fold _ _ ?_ ?_ | intro _ _ | split)

theorem State.retirePort_keeps {s x : State} (h : StateKeeps s x) (port : Nat) (module : Nat) (cause : Nat) : StateKeeps s (State.retirePort x port module cause) := by
  unfold State.retirePort
  repeat' (first | with_reducible exact h | with_reducible exact StateKeeps.refl _ | with_reducible apply State.isolate_keeps | with_reducible apply foldOver_keeps | with_reducible apply State.note_keeps | with_reducible apply State.changed_keeps | with_reducible apply State.updSeam_keeps | dsimp only | with_reducible refine StateKeeps.write ?_ rfl rfl | with_reducible refine StateKeeps.clear ?_ rfl rfl | refine StateKeeps.fold _ _ ?_ ?_ | intro _ _ | split)

theorem State.trainPort_keeps {s x : State} (h : StateKeeps s x) (port : Nat) (t : PortTraining) : StateKeeps s (State.trainPort x port t) := by
  unfold State.trainPort
  repeat' (first | with_reducible exact h | with_reducible exact StateKeeps.refl _ | with_reducible apply State.retirePort_keeps | with_reducible apply State.changed_keeps | with_reducible apply State.updSeam_keeps | simp (disch := rfl) only [StateKeeps.upd] | with_reducible refine StateKeeps.write ?_ rfl rfl | with_reducible refine StateKeeps.clear ?_ rfl rfl | split)

theorem State.trainPorts_keeps {s x : State} (h : StateKeeps s x) (p : Nat) (attempts : List (PortTraining × PortTraining)) : StateKeeps s (State.trainPorts x p attempts).1 := by
  unfold State.trainPorts
  repeat' (first | with_reducible exact h | with_reducible exact StateKeeps.refl _ | with_reducible apply State.trainPort_keeps | with_reducible apply foldOver_keeps | dsimp only | with_reducible refine StateKeeps.write ?_ rfl rfl | with_reducible refine StateKeeps.clear ?_ rfl rfl | refine StateKeeps.fold _ _ ?_ ?_ | intro _ _)

theorem State.reinitCore_keeps {s x : State} (h : StateKeeps s x) (n : Nat) : StateKeeps s (State.reinitCore x n) := by
  unfold State.reinitCore
  repeat' (first | with_reducible exact h | with_reducible exact StateKeeps.refl _ | with_reducible apply State.fillScratch_keeps | with_reducible apply State.setCore_keeps | simp (disch := rfl) only [StateKeeps.upd] | with_reducible refine StateKeeps.write ?_ rfl rfl | with_reducible refine StateKeeps.clear ?_ rfl rfl | split)

theorem State.returnWindows_keeps {s x : State} (h : StateKeeps s x) (p : Nat) : StateKeeps s (State.returnWindows x p) := by
  unfold State.returnWindows
  repeat' (first | with_reducible exact h | with_reducible exact StateKeeps.refl _ | simp (disch := rfl) only [StateKeeps.upd])

theorem State.rejoinEnd_keeps {s x : State} (h : StateKeeps s x) (p : Nat) (ports : Nat) (lost : Bool) : StateKeeps s (State.rejoinEnd x p ports lost) := by
  unfold State.rejoinEnd
  repeat' (first | with_reducible exact h | with_reducible exact StateKeeps.refl _ | with_reducible apply State.lapReplay_keeps | with_reducible apply State.updPanel_keeps | with_reducible apply State.note_keeps | with_reducible apply State.present_keeps | dsimp only | with_reducible refine StateKeeps.write ?_ rfl rfl | with_reducible refine StateKeeps.clear ?_ rfl rfl | split)

theorem State.admitPanels_keeps {s x : State} (h : StateKeeps s x) : StateKeeps s (State.admitPanels x) := by
  unfold State.admitPanels
  repeat' (first | with_reducible exact h | with_reducible exact StateKeeps.refl _ | with_reducible apply State.updPanel_keeps | with_reducible apply foldOver_keeps | with_reducible apply State.present_keeps | simp (disch := rfl) only [StateKeeps.upd] | with_reducible refine StateKeeps.write ?_ rfl rfl | with_reducible refine StateKeeps.clear ?_ rfl rfl | refine StateKeeps.fold _ _ ?_ ?_ | intro _ _ | split)

theorem State.rejoin_keeps {s x : State} (h : StateKeeps s x) (p : PanelId) (attempts : List (PortTraining × PortTraining)) (level : BitVec 2) (failed : List (CoreId × Bool)) : StateKeeps s (State.rejoin x p attempts level failed) := by
  unfold State.rejoin
  repeat' (first | with_reducible exact h | with_reducible exact StateKeeps.refl _ | with_reducible apply State.darkenCore_keeps | with_reducible apply State.updPanel_keeps | with_reducible apply State.isolate_keeps | with_reducible apply State.trainPorts_keeps | with_reducible apply State.reinitCore_keeps | with_reducible apply State.returnWindows_keeps | with_reducible apply State.rejoinEnd_keeps | with_reducible apply foldOver_keeps | with_reducible apply State.note_keeps | simp (disch := rfl) only [StateKeeps.upd] | with_reducible refine StateKeeps.write ?_ rfl rfl | with_reducible refine StateKeeps.clear ?_ rfl rfl | refine StateKeeps.fold _ _ ?_ ?_ | intro _ _ | split)

theorem State.setFw_keeps {s x : State} (h : StateKeeps s x) (c : Nat) (f : Firmware) : StateKeeps s (State.setFw x c f) := by
  unfold State.setFw
  repeat' (first | with_reducible exact h | with_reducible exact StateKeeps.refl _ | simp (disch := rfl) only [StateKeeps.upd])

theorem State.bootFw_keeps {s x : State} (h : StateKeeps s x) (c : Nat) : StateKeeps s (State.bootFw x c).1 := by
  unfold State.bootFw
  repeat' (first | with_reducible exact h | with_reducible exact StateKeeps.refl _ | with_reducible apply State.event_keeps | with_reducible apply State.setFw_keeps | dsimp only | with_reducible refine StateKeeps.write ?_ rfl rfl | with_reducible refine StateKeeps.clear ?_ rfl rfl | split)

theorem State.bootCollar_keeps {s x : State} (h : StateKeeps s x) : StateKeeps s (State.bootCollar x) := by
  unfold State.bootCollar
  repeat' (first | with_reducible exact h | with_reducible exact StateKeeps.refl _ | with_reducible apply State.bootFw_keeps | simp (disch := rfl) only [StateKeeps.upd] | with_reducible refine StateKeeps.write ?_ rfl rfl | with_reducible refine StateKeeps.clear ?_ rfl rfl | split)

theorem State.coldBase_keeps {s x : State} (h : StateKeeps s x) : StateKeeps s (State.coldBase x) := by
  exact ⟨h.pending, fun _ => rfl, h.hostMem, h.tagBytes⟩

theorem State.coldReset_keeps {s x : State} (h : StateKeeps s x) : StateKeeps s (State.coldReset x) := by
  unfold State.coldReset
  repeat' (first | with_reducible exact h | with_reducible exact StateKeeps.refl _ | with_reducible apply State.bootCollar_keeps | with_reducible apply State.coldBase_keeps)

theorem State.removeEnable_keeps {s x : State} (h : StateKeeps s x) (barred : Bool) : StateKeeps s (State.removeEnable x barred) := by
  unfold State.removeEnable
  repeat' (first | with_reducible exact h | with_reducible exact StateKeeps.refl _ | with_reducible apply State.coldReset_keeps | simp (disch := rfl) only [StateKeeps.upd])

theorem State.stopQuietly_keeps {s x : State} (h : StateKeeps s x) : StateKeeps s (State.stopQuietly x) := by
  unfold State.stopQuietly
  repeat' (first | with_reducible exact h | with_reducible exact StateKeeps.refl _ | with_reducible apply State.stopSet_keeps | with_reducible apply State.admitPanels_keeps | with_reducible apply State.releaseRings_keeps | with_reducible apply State.unloadImages_keeps | simp (disch := rfl) only [StateKeeps.upd] | with_reducible refine StateKeeps.write ?_ rfl rfl | with_reducible refine StateKeeps.clear ?_ rfl rfl | split)

theorem State.hostResetBase_keeps {s x : State} (h : StateKeeps s x) (kind : Byte) : StateKeeps s (State.hostResetBase x kind) := by
  unfold State.hostResetBase
  repeat' (first | with_reducible exact h | with_reducible exact StateKeeps.refl _ | with_reducible apply foldOver_keeps | with_reducible apply State.stopQuietly_keeps | with_reducible apply State.hostReset_keeps | with_reducible apply State.reset_keeps | with_reducible apply State.markRoster_keeps | simp (disch := rfl) only [StateKeeps.upd] | with_reducible refine StateKeeps.write ?_ rfl rfl | with_reducible refine StateKeeps.clear ?_ rfl rfl | refine StateKeeps.fold _ _ ?_ ?_ | intro _ _)

theorem State.hostReset_keeps {s x : State} (h : StateKeeps s x) (kind : HostResetKind) : StateKeeps s (State.hostReset x kind) := by
  unfold State.hostReset
  repeat' (first | with_reducible exact h | with_reducible exact StateKeeps.refl _ | with_reducible apply State.hostResetBase_keeps | simp (disch := rfl) only [StateKeeps.upd])

theorem State.resetCores_keeps {s x : State} (h : StateKeeps s x) (p : Nat) : StateKeeps s (State.resetCores x p) := by
  unfold State.resetCores
  repeat' (first | with_reducible exact h | with_reducible exact StateKeeps.refl _ | with_reducible apply State.setCore_keeps | with_reducible apply foldOver_keeps | with_reducible apply State.panelReset_keeps | simp (disch := rfl) only [StateKeeps.upd] | with_reducible refine StateKeeps.write ?_ rfl rfl | with_reducible refine StateKeeps.clear ?_ rfl rfl | refine StateKeeps.fold _ _ ?_ ?_ | intro _ _ | split)

theorem State.panelReset_keeps {s x : State} (h : StateKeeps s x) (p : Nat) : StateKeeps s (State.panelReset x p) := by
  unfold State.panelReset
  repeat' (first | with_reducible exact h | with_reducible exact StateKeeps.refl _ | with_reducible apply State.isolate_keeps | with_reducible apply State.resetCores_keeps | simp (disch := rfl) only [StateKeeps.upd])

theorem State.clearPanel_keeps {s x : State} (h : StateKeeps s x) (p : Nat) : StateKeeps s (State.clearPanel x p) := by
  unfold State.clearPanel
  repeat' (first | with_reducible exact h | with_reducible exact StateKeeps.refl _ | simp (disch := rfl) only [StateKeeps.upd] | with_reducible refine StateKeeps.write ?_ rfl rfl | with_reducible refine StateKeeps.clear ?_ rfl rfl)

theorem State.panelCycle_keeps {s x : State} (h : StateKeeps s x) (p : Nat) : StateKeeps s (State.panelCycle x p) := by
  unfold State.panelCycle
  repeat' (first | with_reducible exact h | with_reducible exact StateKeeps.refl _ | with_reducible apply State.updPanel_keeps | with_reducible apply State.isolate_keeps | with_reducible apply State.changedBy_keeps | with_reducible apply State.resetCores_keeps | with_reducible apply State.clearPanel_keeps | simp (disch := rfl) only [StateKeeps.upd])

theorem State.cyclePanel_keeps {s x : State} (h : StateKeeps s x) (p : Nat) : StateKeeps s (State.cyclePanel x p) := by
  unfold State.cyclePanel
  repeat' (first | with_reducible exact h | with_reducible exact StateKeeps.refl _ | with_reducible apply State.panelCycle_keeps | simp (disch := rfl) only [StateKeeps.upd] | with_reducible refine StateKeeps.write ?_ rfl rfl | with_reducible refine StateKeeps.clear ?_ rfl rfl | split)

theorem State.resetPanel_keeps {s x : State} (h : StateKeeps s x) (p : Nat) : StateKeeps s (State.resetPanel x p) := by
  unfold State.resetPanel
  repeat' (first | with_reducible exact h | with_reducible exact StateKeeps.refl _ | with_reducible apply State.panelReset_keeps | simp (disch := rfl) only [StateKeeps.upd] | with_reducible refine StateKeeps.write ?_ rfl rfl | with_reducible refine StateKeeps.clear ?_ rfl rfl | split)

end Sys2Proof.Machine
end

