-- ==== Sys2Proof/Laws/KeepsEvents.lean ====
section
/-!
SUPPORT. What every operation of the module does keeps the queue and the canonical form of each memory: power, thermal, Seam, host and management.
-/

namespace Sys2Proof.Machine

theorem State.endRetrains_keeps {s x : State} (h : StateKeeps s x) : StateKeeps s (State.endRetrains x) := by
  unfold State.endRetrains
  repeat' (first | with_reducible exact h | with_reducible exact StateKeeps.refl _ | with_reducible apply State.spareKeeps_keeps | with_reducible apply foldOver_keeps | simp (disch := rfl) only [StateKeeps.upd] | with_reducible refine StateKeeps.write ?_ rfl rfl | with_reducible refine StateKeeps.clear ?_ rfl rfl | refine StateKeeps.fold _ _ ?_ ?_ | intro _ _ | split)

theorem State.applyColumns_keeps {s x : State} (h : StateKeeps s x) : StateKeeps s (State.applyColumns x) := by
  unfold State.applyColumns
  repeat' (first | with_reducible exact h | with_reducible exact StateKeeps.refl _ | with_reducible apply State.applyColumn_keeps | with_reducible apply foldOver_keeps | simp (disch := rfl) only [StateKeeps.upd] | with_reducible refine StateKeeps.write ?_ rfl rfl | with_reducible refine StateKeeps.clear ?_ rfl rfl | refine StateKeeps.fold _ _ ?_ ?_ | intro _ _)

theorem State.folded_keeps {s x : State} (h : StateKeeps s x) : StateKeeps s (State.folded x) := by
  unfold State.folded
  repeat' (first | with_reducible exact h | with_reducible exact StateKeeps.refl _ | with_reducible apply State.applyColumns_keeps | simp (disch := rfl) only [StateKeeps.upd])

theorem State.wakeCores_keeps {s x : State} (h : StateKeeps s x) : StateKeeps s (State.wakeCores x) := by
  unfold State.wakeCores
  repeat' (first | with_reducible exact h | with_reducible exact StateKeeps.refl _ | with_reducible apply State.wake_keeps | simp (disch := rfl) only [StateKeeps.upd])

theorem State.wakeSteps_keeps {s x : State} (h : StateKeeps s x) : StateKeeps s (State.wakeSteps x) := by
  unfold State.wakeSteps
  repeat' (first | with_reducible exact h | with_reducible exact StateKeeps.refl _ | with_reducible apply State.applyColumns_keeps | with_reducible apply State.wakeCores_keeps | with_reducible apply foldOver_keeps | with_reducible apply State.drew_keeps | with_reducible apply State.panelCycle_keeps | dsimp only | with_reducible refine StateKeeps.write ?_ rfl rfl | with_reducible refine StateKeeps.clear ?_ rfl rfl | refine StateKeeps.fold _ _ ?_ ?_ | intro _ _)

theorem State.wake_keeps {s x : State} (h : StateKeeps s x) : StateKeeps s (State.wake x) := by
  unfold State.wake
  repeat' (first | with_reducible exact h | with_reducible exact StateKeeps.refl _ | with_reducible apply State.folded_keeps | with_reducible apply State.wakeSteps_keeps | simp (disch := rfl) only [StateKeeps.upd] | with_reducible refine StateKeeps.write ?_ rfl rfl | with_reducible refine StateKeeps.clear ?_ rfl rfl | split)

theorem State.foldSteps_keeps {s x : State} (h : StateKeeps s x) (q : Nat) (d : Desc) : StateKeeps s (State.foldSteps x q d) := by
  unfold State.foldSteps
  repeat' (first | with_reducible exact h | with_reducible exact StateKeeps.refl _ | with_reducible apply State.endRetrains_keeps | with_reducible apply State.folded_keeps | with_reducible apply State.wakeSteps_keeps | with_reducible apply State.complete_keeps | simp (disch := rfl) only [StateKeeps.upd] | with_reducible refine StateKeeps.write ?_ rfl rfl | with_reducible refine StateKeeps.clear ?_ rfl rfl | split)

theorem State.updClamp_keeps {s x : State} (h : StateKeeps s x) (f : Clamp → Clamp) : StateKeeps s (State.updClamp x f) := by
  unfold State.updClamp
  repeat' (first | with_reducible exact h | with_reducible exact StateKeeps.refl _ | simp (disch := rfl) only [StateKeeps.upd])

theorem State.applyClamp_keeps {s x : State} (h : StateKeeps s x) : StateKeeps s (State.applyClamp x) := by
  unfold State.applyClamp
  repeat' (first | with_reducible exact h | with_reducible exact StateKeeps.refl _ | simp (disch := rfl) only [StateKeeps.upd])

theorem State.clampOn_keeps {s x : State} (h : StateKeeps s x) (r : ClampRow) : StateKeeps s (State.clampOn x r) := by
  unfold State.clampOn
  repeat' (first | with_reducible exact h | with_reducible exact StateKeeps.refl _ | with_reducible apply State.event_keeps | with_reducible apply State.note_keeps | with_reducible apply State.updClamp_keeps | with_reducible apply State.applyClamp_keeps | simp (disch := rfl) only [StateKeeps.upd] | with_reducible refine StateKeeps.write ?_ rfl rfl | with_reducible refine StateKeeps.clear ?_ rfl rfl | split)

theorem State.clampOff_keeps {s x : State} (h : StateKeeps s x) (r : ClampRow) : StateKeeps s (State.clampOff x r) := by
  unfold State.clampOff
  repeat' (first | with_reducible exact h | with_reducible exact StateKeeps.refl _ | with_reducible apply State.event_keeps | with_reducible apply State.note_keeps | with_reducible apply State.updClamp_keeps | simp (disch := rfl) only [StateKeeps.upd] | with_reducible refine StateKeeps.write ?_ rfl rfl | with_reducible refine StateKeeps.clear ?_ rfl rfl | split)

theorem State.tempClears_keeps {s x : State} (h : StateKeeps s x) (clear : Bool) : StateKeeps s (State.tempClears x clear) := by
  unfold State.tempClears
  repeat' (first | with_reducible exact h | with_reducible exact StateKeeps.refl _ | with_reducible apply State.updClamp_keeps | with_reducible apply State.clampOff_keeps | simp (disch := rfl) only [StateKeeps.upd] | with_reducible refine StateKeeps.write ?_ rfl rfl | with_reducible refine StateKeeps.clear ?_ rfl rfl | split)

theorem State.flowClears_keeps {s x : State} (h : StateKeeps s x) (clear : Bool) : StateKeeps s (State.flowClears x clear) := by
  unfold State.flowClears
  repeat' (first | with_reducible exact h | with_reducible exact StateKeeps.refl _ | with_reducible apply State.updClamp_keeps | with_reducible apply State.clampOff_keeps | simp (disch := rfl) only [StateKeeps.upd] | with_reducible refine StateKeeps.write ?_ rfl rfl | with_reducible refine StateKeeps.clear ?_ rfl rfl | split)

theorem State.judgeExcursion_keeps {s x : State} (h : StateKeeps s x) (k : Nat) : StateKeeps s (State.judgeExcursion x k) := by
  unfold State.judgeExcursion
  repeat' (first | with_reducible exact h | with_reducible exact StateKeeps.refl _ | with_reducible apply State.note_keeps | simp (disch := rfl) only [StateKeeps.upd] | with_reducible refine StateKeeps.write ?_ rfl rfl | with_reducible refine StateKeeps.clear ?_ rfl rfl | split)

theorem State.judgeClamp_keeps {s x : State} (h : StateKeeps s x) : StateKeeps s (State.judgeClamp x) := by
  unfold State.judgeClamp
  repeat' (first | with_reducible exact h | with_reducible exact StateKeeps.refl _ | with_reducible apply State.clampOn_keeps | with_reducible apply State.tempClears_keeps | simp (disch := rfl) only [StateKeeps.upd] | with_reducible refine StateKeeps.write ?_ rfl rfl | with_reducible refine StateKeeps.clear ?_ rfl rfl | split)

theorem State.disagree_keeps {s x : State} (h : StateKeeps s x) (k : Nat) (e : Nat × Nat) : StateKeeps s (State.disagree x k e) := by
  unfold State.disagree
  repeat' (first | with_reducible exact h | with_reducible exact StateKeeps.refl _ | with_reducible apply State.note_keeps | simp (disch := rfl) only [StateKeeps.upd] | with_reducible refine StateKeeps.write ?_ rfl rfl | with_reducible refine StateKeeps.clear ?_ rfl rfl | split)

theorem State.dramSample_keeps {s x : State} (h : StateKeeps s x) (k : Nat) (v : Int) (ok : Bool) : StateKeeps s (State.dramSample x k v ok) := by
  unfold State.dramSample
  repeat' (first | with_reducible exact h | with_reducible exact StateKeeps.refl _ | with_reducible apply State.coolSample_keeps | with_reducible apply State.setColumn_keeps | with_reducible apply State.sample_keeps | dsimp only | with_reducible refine StateKeeps.write ?_ rfl rfl | with_reducible refine StateKeeps.clear ?_ rfl rfl | split)

theorem State.judgeInlet_keeps {s x : State} (h : StateKeeps s x) : StateKeeps s (State.judgeInlet x) := by
  unfold State.judgeInlet
  repeat' (first | with_reducible exact h | with_reducible exact StateKeeps.refl _ | with_reducible apply State.event_keeps | simp (disch := rfl) only [StateKeeps.upd] | with_reducible refine StateKeeps.write ?_ rfl rfl | with_reducible refine StateKeeps.clear ?_ rfl rfl | split)

theorem State.failSensor_keeps {s x : State} (h : StateKeeps s x) (k : Nat) : StateKeeps s (State.failSensor x k) := by
  unfold State.failSensor
  repeat' (first | with_reducible exact h | with_reducible exact StateKeeps.refl _ | with_reducible apply State.note_keeps | simp (disch := rfl) only [StateKeeps.upd] | with_reducible refine StateKeeps.write ?_ rfl rfl | with_reducible refine StateKeeps.clear ?_ rfl rfl | split)

theorem State.judgeLimits_keeps {s x : State} (h : StateKeeps s x) (k : Nat) : StateKeeps s (State.judgeLimits x k) := by
  unfold State.judgeLimits
  repeat' (first | with_reducible exact h | with_reducible exact StateKeeps.refl _ | with_reducible apply State.removeEnable_keeps | with_reducible apply State.judgeExcursion_keeps | with_reducible apply State.judgeClamp_keeps | simp (disch := rfl) only [StateKeeps.upd] | with_reducible refine StateKeeps.write ?_ rfl rfl | with_reducible refine StateKeeps.clear ?_ rfl rfl | split)

theorem State.tookSample_keeps {s x : State} (h : StateKeeps s x) (k : Nat) (v : Int) : StateKeeps s (State.tookSample x k v) := by
  unfold State.tookSample
  repeat' (first | with_reducible exact h | with_reducible exact StateKeeps.refl _ | with_reducible apply foldOver_keeps | with_reducible apply State.disagree_keeps | with_reducible apply State.dramSample_keeps | with_reducible apply State.judgeInlet_keeps | with_reducible apply State.judgeLimits_keeps | simp (disch := rfl) only [StateKeeps.upd] | with_reducible refine StateKeeps.write ?_ rfl rfl | with_reducible refine StateKeeps.clear ?_ rfl rfl | refine StateKeeps.fold _ _ ?_ ?_ | intro _ _ | split)

theorem State.lostSample_keeps {s x : State} (h : StateKeeps s x) (k : Nat) : StateKeeps s (State.lostSample x k) := by
  unfold State.lostSample
  repeat' (first | with_reducible exact h | with_reducible exact StateKeeps.refl _ | with_reducible apply State.dramSample_keeps | with_reducible apply State.judgeInlet_keeps | with_reducible apply State.failSensor_keeps | with_reducible apply State.judgeLimits_keeps | simp (disch := rfl) only [StateKeeps.upd] | with_reducible refine StateKeeps.write ?_ rfl rfl | with_reducible refine StateKeeps.clear ?_ rfl rfl | split)

theorem State.sample_keeps {s x : State} (h : StateKeeps s x) (k : Nat) (reading : Option Int) : StateKeeps s (State.sample x k reading) := by
  unfold State.sample
  repeat' (first | with_reducible exact h | with_reducible exact StateKeeps.refl _ | with_reducible apply State.tookSample_keeps | with_reducible apply State.lostSample_keeps | simp (disch := rfl) only [StateKeeps.upd] | with_reducible refine StateKeeps.write ?_ rfl rfl | with_reducible refine StateKeeps.clear ?_ rfl rfl | split)

theorem State.judgeFlow_keeps {s x : State} (h : StateKeeps s x) : StateKeeps s (State.judgeFlow x) := by
  unfold State.judgeFlow
  repeat' (first | with_reducible exact h | with_reducible exact StateKeeps.refl _ | with_reducible apply State.event_keeps | simp (disch := rfl) only [StateKeeps.upd] | with_reducible refine StateKeeps.write ?_ rfl rfl | with_reducible refine StateKeeps.clear ?_ rfl rfl | split)

theorem State.flowRead_keeps {s x : State} (h : StateKeeps s x) (reading : Option Nat) : StateKeeps s (State.flowRead x reading) := by
  unfold State.flowRead
  repeat' (first | with_reducible exact h | with_reducible exact StateKeeps.refl _ | with_reducible apply State.folded_keeps | with_reducible apply State.clampOn_keeps | with_reducible apply State.flowClears_keeps | with_reducible apply State.failSensor_keeps | with_reducible apply State.judgeFlow_keeps | simp (disch := rfl) only [StateKeeps.upd] | with_reducible refine StateKeeps.write ?_ rfl rfl | with_reducible refine StateKeeps.clear ?_ rfl rfl | split)

theorem State.flowSample_keeps {s x : State} (h : StateKeeps s x) (reading : Option Nat) : StateKeeps s (State.flowSample x reading) := by
  unfold State.flowSample
  repeat' (first | with_reducible exact h | with_reducible exact StateKeeps.refl _ | with_reducible apply State.flowRead_keeps | simp (disch := rfl) only [StateKeeps.upd] | with_reducible refine StateKeeps.write ?_ rfl rfl | with_reducible refine StateKeeps.clear ?_ rfl rfl | split)

theorem State.measure_keeps {s x : State} (h : StateKeeps s x) (p : Nat) (watts : Nat) : StateKeeps s (State.measure x p watts) := by
  unfold State.measure
  repeat' (first | with_reducible exact h | with_reducible exact StateKeeps.refl _ | simp (disch := rfl) only [StateKeeps.upd] | with_reducible refine StateKeeps.write ?_ rfl rfl | with_reducible refine StateKeeps.clear ?_ rfl rfl | split)

theorem State.baseline_keeps {s x : State} (h : StateKeeps s x) (p : Nat) (watts : Nat) : StateKeeps s (State.baseline x p watts) := by
  unfold State.baseline
  repeat' (first | with_reducible exact h | with_reducible exact StateKeeps.refl _ | simp (disch := rfl) only [StateKeeps.upd] | with_reducible refine StateKeeps.write ?_ rfl rfl | with_reducible refine StateKeeps.clear ?_ rfl rfl | split)

theorem State.warn_keeps {s x : State} (h : StateKeeps s x) (p : Nat) : StateKeeps s (State.warn x p) := by
  unfold State.warn
  repeat' (first | with_reducible exact h | with_reducible exact StateKeeps.refl _ | with_reducible apply State.event_keeps | simp (disch := rfl) only [StateKeeps.upd] | with_reducible refine StateKeeps.write ?_ rfl rfl | with_reducible refine StateKeeps.clear ?_ rfl rfl | split)

theorem State.computeCap_keeps {s x : State} (h : StateKeeps s x) (powers : List Nat) (watts : Nat) : StateKeeps s (State.computeCap x powers watts) := by
  unfold State.computeCap
  repeat' (first | with_reducible exact h | with_reducible exact StateKeeps.refl _ | simp (disch := rfl) only [StateKeeps.upd])

theorem State.judgeCap_keeps {s x : State} (h : StateKeeps s x) : StateKeeps s (State.judgeCap x) := by
  unfold State.judgeCap
  repeat' (first | with_reducible exact h | with_reducible exact StateKeeps.refl _ | with_reducible apply State.clampOn_keeps | with_reducible apply State.clampOff_keeps | simp (disch := rfl) only [StateKeeps.upd] | with_reducible refine StateKeeps.write ?_ rfl rfl | with_reducible refine StateKeeps.clear ?_ rfl rfl | split)

theorem State.capCompute_keeps {s x : State} (h : StateKeeps s x) (powers : List Nat) (watts : Nat) : StateKeeps s (State.capCompute x powers watts) := by
  unfold State.capCompute
  repeat' (first | with_reducible exact h | with_reducible exact StateKeeps.refl _ | with_reducible apply foldOver_keeps | with_reducible apply State.measure_keeps | with_reducible apply State.baseline_keeps | with_reducible apply State.warn_keeps | with_reducible apply State.computeCap_keeps | with_reducible apply State.judgeCap_keeps | simp (disch := rfl) only [StateKeeps.upd] | with_reducible refine StateKeeps.write ?_ rfl rfl | with_reducible refine StateKeeps.clear ?_ rfl rfl | refine StateKeeps.fold _ _ ?_ ?_ | intro _ _)

theorem State.cycleSample_keeps {s x : State} (h : StateKeeps s x) : StateKeeps s (State.cycleSample x) := by
  unfold State.cycleSample
  repeat' (first | with_reducible exact h | with_reducible exact StateKeeps.refl _ | with_reducible apply State.reset_keeps | with_reducible apply State.sample_keeps | simp (disch := rfl) only [StateKeeps.upd] | with_reducible refine StateKeeps.write ?_ rfl rfl | with_reducible refine StateKeeps.clear ?_ rfl rfl | refine StateKeeps.foldl _ _ ?_ ?_ | intro _ _ | split)

theorem State.trip_keeps {s x : State} (h : StateKeeps s x) (d : Nat) (peak : Nat) (collarMs : Nat) : StateKeeps s (State.trip x d peak collarMs) := by
  unfold State.trip
  repeat' (first | with_reducible exact h | with_reducible exact StateKeeps.refl _ | with_reducible apply State.event_keeps | with_reducible apply State.removeEnable_keeps | simp (disch := rfl) only [StateKeeps.upd] | with_reducible refine StateKeeps.write ?_ rfl rfl | with_reducible refine StateKeeps.clear ?_ rfl rfl | split)

theorem State.thermalRestart_keeps {s x : State} (h : StateKeeps s x) (collarMs : Nat) : StateKeeps s (State.thermalRestart x collarMs) := by
  unfold State.thermalRestart
  repeat' (first | with_reducible exact h | with_reducible exact StateKeeps.refl _ | simp (disch := rfl) only [StateKeeps.upd] | with_reducible refine StateKeeps.write ?_ rfl rfl | with_reducible refine StateKeeps.clear ?_ rfl rfl | split)

theorem State.limitExcursion_keeps {s x : State} (h : StateKeeps s x) (watts : Nat) : StateKeeps s (State.limitExcursion x watts) := by
  unfold State.limitExcursion
  repeat' (first | with_reducible exact h | with_reducible exact StateKeeps.refl _ | simp (disch := rfl) only [StateKeeps.upd] | with_reducible refine StateKeeps.write ?_ rfl rfl | with_reducible refine StateKeeps.clear ?_ rfl rfl | split)

theorem State.inputExcursion_keeps {s x : State} (h : StateKeeps s x) : StateKeeps s (State.inputExcursion x) := by
  unfold State.inputExcursion
  repeat' (first | with_reducible exact h | with_reducible exact StateKeeps.refl _ | with_reducible apply State.event_keeps | with_reducible apply State.removeEnable_keeps | simp (disch := rfl) only [StateKeeps.upd] | with_reducible refine StateKeeps.write ?_ rfl rfl | with_reducible refine StateKeeps.clear ?_ rfl rfl | split)

theorem State.coreTile_keeps {s x : State} (h : StateKeeps s x) (x' : Nat) (tile : Nat) (selfTest : Bool) : StateKeeps s (State.coreTile x x' tile selfTest) := by
  unfold State.coreTile
  repeat' (first | with_reducible exact h | with_reducible exact StateKeeps.refl _ | with_reducible apply State.darken_keeps | with_reducible apply State.note_keeps | with_reducible apply State.changedIf_keeps | simp (disch := rfl) only [StateKeeps.upd] | with_reducible refine StateKeeps.write ?_ rfl rfl | with_reducible refine StateKeeps.clear ?_ rfl rfl | split)

theorem State.moduleFault_keeps {s x : State} (h : StateKeeps s x) (source : Nat) : StateKeeps s (State.moduleFault x source) := by
  unfold State.moduleFault
  repeat' (first | with_reducible exact h | with_reducible exact StateKeeps.refl _ | with_reducible apply State.event_keeps | with_reducible apply State.removeEnable_keeps)

theorem State.tileFail_keeps {s x : State} (h : StateKeeps s x) (site : TileSite) (selfTest : Bool) : StateKeeps s (State.tileFail x site selfTest) := by
  unfold State.tileFail
  repeat' (first | with_reducible exact h | with_reducible exact StateKeeps.refl _ | with_reducible apply State.coreTile_keeps | with_reducible apply State.moduleFault_keeps | simp (disch := rfl) only [StateKeeps.upd] | with_reducible refine StateKeeps.write ?_ rfl rfl | with_reducible refine StateKeeps.clear ?_ rfl rfl | split)

theorem State.capStepNow_keeps {s x : State} (h : StateKeeps s x) (watts : Nat) : StateKeeps s (State.capStepNow x watts) := by
  unfold State.capStepNow
  repeat' (first | with_reducible exact h | with_reducible exact StateKeeps.refl _ | with_reducible apply State.applyClamp_keeps | simp (disch := rfl) only [StateKeeps.upd] | with_reducible refine StateKeeps.write ?_ rfl rfl | with_reducible refine StateKeeps.clear ?_ rfl rfl | split)

theorem State.boundSupplies_keeps {s x : State} (h : StateKeeps s x) : StateKeeps s (State.boundSupplies x) := by
  unfold State.boundSupplies
  repeat' (first | with_reducible exact h | with_reducible exact StateKeeps.refl _ | simp (disch := rfl) only [StateKeeps.upd])

theorem State.applyPowerExpert_keeps {s x : State} (h : StateKeeps s x) : StateKeeps s (State.applyPowerExpert x) := by
  unfold State.applyPowerExpert
  repeat' (first | with_reducible exact h | with_reducible exact StateKeeps.refl _ | simp (disch := rfl) only [StateKeeps.upd])

theorem State.takeSettings_keeps {s x : State} (h : StateKeeps s x) (old : State) : StateKeeps s (State.takeSettings x old) := by
  unfold State.takeSettings
  repeat' (first | with_reducible exact h | with_reducible exact StateKeeps.refl _ | simp (disch := rfl) only [StateKeeps.upd])

theorem State.capPeriod_keeps {s x : State} (h : StateKeeps s x) (watts : BitVec 16) (volts : BitVec 16) : StateKeeps s (State.capPeriod x watts volts) := by
  unfold State.capPeriod
  repeat' (first | with_reducible exact h | with_reducible exact StateKeeps.refl _ | with_reducible apply State.capStepNow_keeps | with_reducible apply State.boundSupplies_keeps | with_reducible apply State.applyPowerExpert_keeps | with_reducible apply State.takeSettings_keeps | simp (disch := rfl) only [StateKeeps.upd])

theorem State.flagBump_keeps {s x : State} (h : StateKeeps s x) (cal : List (Nat × Nat)) (drops : List BumpDrop) (d : BumpDrop) : StateKeeps s (State.flagBump x cal drops d) := by
  unfold State.flagBump
  repeat' (first | with_reducible exact h | with_reducible exact StateKeeps.refl _ | with_reducible apply State.note_keeps | simp (disch := rfl) only [StateKeeps.upd] | with_reducible refine StateKeeps.write ?_ rfl rfl | with_reducible refine StateKeeps.clear ?_ rfl rfl | split)

theorem State.bumpCheck_keeps {s x : State} (h : StateKeeps s x) (drops : List BumpDrop) : StateKeeps s (State.bumpCheck x drops) := by
  unfold State.bumpCheck
  repeat' (first | with_reducible exact h | with_reducible exact StateKeeps.refl _ | with_reducible apply foldOver_keeps | with_reducible apply State.flagBump_keeps | simp (disch := rfl) only [StateKeeps.upd] | with_reducible refine StateKeeps.write ?_ rfl rfl | with_reducible refine StateKeeps.clear ?_ rfl rfl | refine StateKeeps.fold _ _ ?_ ?_ | intro _ _)

theorem State.recalibrate_keeps {s x : State} (h : StateKeeps s x) (scope : BitVec 2) (drops : List BumpDrop) : StateKeeps s (State.recalibrate x scope drops) := by
  unfold State.recalibrate
  repeat' (first | with_reducible exact h | with_reducible exact StateKeeps.refl _ | simp (disch := rfl) only [StateKeeps.upd] | with_reducible refine StateKeeps.write ?_ rfl rfl | with_reducible refine StateKeeps.clear ?_ rfl rfl | refine StateKeeps.foldl _ _ ?_ ?_ | intro _ _ | split)

theorem State.powerOn_keeps {s x : State} (h : StateKeeps s x) (src : PowerSource) : StateKeeps s (State.powerOn x src) := by
  unfold State.powerOn
  repeat' (first | with_reducible exact h | with_reducible exact StateKeeps.refl _ | with_reducible apply State.coldReset_keeps | simp (disch := rfl) only [StateKeeps.upd] | with_reducible refine StateKeeps.write ?_ rfl rfl | with_reducible refine StateKeeps.clear ?_ rfl rfl | split)

theorem State.loseStandby_keeps {s x : State} (h : StateKeeps s x) : StateKeeps s (State.loseStandby x) := by
  unfold State.loseStandby
  repeat' (first | with_reducible exact h | with_reducible exact StateKeeps.refl _ | with_reducible apply State.coldBase_keeps | simp (disch := rfl) only [StateKeeps.upd])

theorem State.linkTraining_keeps {s x : State} (h : StateKeeps s x) (w : Nat) (rate : Nat) : StateKeeps s (State.linkTraining x w rate) := by
  unfold State.linkTraining
  repeat' (first | with_reducible exact h | with_reducible exact StateKeeps.refl _ | with_reducible apply State.event_keeps | simp (disch := rfl) only [StateKeeps.upd] | with_reducible refine StateKeeps.write ?_ rfl rfl | with_reducible refine StateKeeps.clear ?_ rfl rfl | split)

theorem State.command_keeps {s x : State} (h : StateKeeps s x) (code : Nat) (accepted : Bool) (f : State → State) (hf : ∀ t, StateKeeps t (f t)) : StateKeeps s (State.command x code accepted f) := by
  unfold State.command
  repeat' (first | with_reducible exact h | with_reducible exact StateKeeps.refl _ | with_reducible refine StateKeeps.trans ?_ (hf _) | with_reducible apply State.answer_keeps | simp (disch := rfl) only [StateKeeps.upd] | with_reducible refine StateKeeps.write ?_ rfl rfl | with_reducible refine StateKeeps.clear ?_ rfl rfl | split)

theorem State.keepDigest_keeps {s x : State} (h : StateKeeps s x) (record : List Byte) (digest : List Byte) (unstable : Bool) : StateKeeps s (State.keepDigest x record digest unstable) := by
  unfold State.keepDigest
  repeat' (first | with_reducible exact h | with_reducible exact StateKeeps.refl _ | with_reducible apply State.event_keeps | simp (disch := rfl) only [StateKeeps.upd] | with_reducible refine StateKeeps.write ?_ rfl rfl | with_reducible refine StateKeeps.clear ?_ rfl rfl | split)

theorem State.computeFingerprint_keeps {s x : State} (h : StateKeeps s x) (unstable : Bool) : StateKeeps s (State.computeFingerprint x unstable) := by
  unfold State.computeFingerprint
  repeat' (first | with_reducible exact h | with_reducible exact StateKeeps.refl _ | with_reducible apply State.keepDigest_keeps)

theorem State.countChanges_keeps {s x : State} (h : StateKeeps s x) (a : State) (rs : List Reg) : StateKeeps s (State.countChanges x a rs) := by
  unfold State.countChanges
  repeat' (first | with_reducible exact h | with_reducible exact StateKeeps.refl _ | simp (disch := rfl) only [StateKeeps.upd])

theorem State.mapBank_keeps {s x : State} (h : StateKeeps s x) (n : Nat) : StateKeeps s (State.mapBank x n) := by
  unfold State.mapBank
  repeat' (first | with_reducible exact h | with_reducible exact StateKeeps.refl _ | with_reducible apply State.setCore_keeps | dsimp only | with_reducible refine StateKeeps.write ?_ rfl rfl | with_reducible refine StateKeeps.clear ?_ rfl rfl | split)

theorem State.startYoke_keeps {s x : State} (h : StateKeeps s x) : StateKeeps s (State.startYoke x) := by
  unfold State.startYoke
  repeat' (first | with_reducible exact h | with_reducible exact StateKeeps.refl _ | simp (disch := rfl) only [StateKeeps.upd])

theorem State.startPanel_keeps {s x : State} (h : StateKeeps s x) (r : StartupReport) (p : Nat) : StateKeeps s (State.startPanel x r p) := by
  unfold State.startPanel
  repeat' (first | with_reducible exact h | with_reducible exact StateKeeps.refl _ | with_reducible apply State.updPanel_keeps)

theorem State.startPanels_keeps {s x : State} (h : StateKeeps s x) (r : StartupReport) : StateKeeps s (State.startPanels x r) := by
  unfold State.startPanels
  repeat' (first | with_reducible exact h | with_reducible exact StateKeeps.refl _ | with_reducible apply State.retirePort_keeps | with_reducible apply State.countChanges_keeps | with_reducible apply foldOver_keeps | with_reducible apply State.startPanel_keeps | simp (disch := rfl) only [StateKeeps.upd] | with_reducible refine StateKeeps.write ?_ rfl rfl | with_reducible refine StateKeeps.clear ?_ rfl rfl | refine StateKeeps.fold _ _ ?_ ?_ | intro _ _)

theorem State.startCuff_keeps {s x : State} (h : StateKeeps s x) (r : StartupReport) (k : Nat) : StateKeeps s (State.startCuff x r k) := by
  unfold State.startCuff
  repeat' (first | with_reducible exact h | with_reducible exact StateKeeps.refl _ | with_reducible apply State.updCuff_keeps | with_reducible apply State.cuffNote_keeps | with_reducible apply foldOver_keeps | with_reducible apply State.changedBy_keeps | dsimp only | with_reducible refine StateKeeps.write ?_ rfl rfl | with_reducible refine StateKeeps.clear ?_ rfl rfl | refine StateKeeps.fold _ _ ?_ ?_ | intro _ _ | refine StateKeeps.foldl _ _ ?_ ?_ | intro _ _ | split)

theorem State.tileRecords_keeps {s x : State} (h : StateKeeps s x) (r : StartupReport) (k : Nat) : StateKeeps s (State.tileRecords x r k) := by
  unfold State.tileRecords
  repeat' (first | with_reducible exact h | with_reducible exact StateKeeps.refl _ | with_reducible apply foldOver_keeps | with_reducible apply State.note_keeps | dsimp only | with_reducible refine StateKeeps.write ?_ rfl rfl | with_reducible refine StateKeeps.clear ?_ rfl rfl | refine StateKeeps.fold _ _ ?_ ?_ | intro _ _)

theorem State.startCores_keeps {s x : State} (h : StateKeeps s x) (r : StartupReport) : StateKeeps s (State.startCores x r) := by
  unfold State.startCores
  repeat' (first | with_reducible exact h | with_reducible exact StateKeeps.refl _ | with_reducible apply foldOver_keeps | with_reducible apply State.changedBy_keeps | with_reducible apply State.mapBank_keeps | with_reducible apply State.tileRecords_keeps | simp (disch := rfl) only [StateKeeps.upd] | with_reducible refine StateKeeps.write ?_ rfl rfl | with_reducible refine StateKeeps.clear ?_ rfl rfl | refine StateKeeps.fold _ _ ?_ ?_ | intro _ _)

theorem State.raiseCounter_keeps {s x : State} (h : StateKeeps s x) (c : Nat) : StateKeeps s (State.raiseCounter x c) := by
  unfold State.raiseCounter
  repeat' (first | with_reducible exact h | with_reducible exact StateKeeps.refl _ | with_reducible apply State.setFw_keeps | dsimp only | with_reducible refine StateKeeps.write ?_ rfl rfl | with_reducible refine StateKeeps.clear ?_ rfl rfl | split)

theorem State.startReady_keeps {s x : State} (h : StateKeeps s x) (r : StartupReport) : StateKeeps s (State.startReady x r) := by
  unfold State.startReady
  repeat' (first | with_reducible exact h | with_reducible exact StateKeeps.refl _ | with_reducible apply State.computeFingerprint_keeps | with_reducible apply foldOver_keeps | with_reducible apply State.raiseCounter_keeps | simp (disch := rfl) only [StateKeeps.upd] | with_reducible refine StateKeeps.write ?_ rfl rfl | with_reducible refine StateKeeps.clear ?_ rfl rfl | refine StateKeeps.fold _ _ ?_ ?_ | intro _ _)

theorem State.startStep_keeps {s x : State} (h : StateKeeps s x) (r : StartupReport) (k : Nat) : StateKeeps s (State.startStep x r k).1 := by
  unfold State.startStep
  repeat' (first | with_reducible exact h | with_reducible exact StateKeeps.refl _ | with_reducible apply State.fillTier_keeps | with_reducible apply State.countChanges_keeps | with_reducible apply foldOver_keeps | with_reducible apply State.bootFw_keeps | with_reducible apply State.startYoke_keeps | with_reducible apply State.startPanels_keeps | with_reducible apply State.startCuff_keeps | with_reducible apply State.startCores_keeps | with_reducible apply State.startReady_keeps | dsimp only | with_reducible refine StateKeeps.write ?_ rfl rfl | with_reducible refine StateKeeps.clear ?_ rfl rfl | refine StateKeeps.fold _ _ ?_ ?_ | intro _ _ | split)

theorem State.failStart_keeps {s x : State} (h : StateKeeps s x) (k : Nat) : StateKeeps s (State.failStart x k) := by
  unfold State.failStart
  repeat' (first | with_reducible exact h | with_reducible exact StateKeeps.refl _ | with_reducible apply State.event_keeps | simp (disch := rfl) only [StateKeeps.upd])

theorem State.startSteps_keeps {s x : State} (h : StateKeeps s x) (fuel : Nat) (r : StartupReport) (k : Nat) : StateKeeps s (State.startSteps fuel x r k) := by
  induction fuel generalizing x r k with
  | zero =>
    unfold State.startSteps
    repeat' (first | with_reducible exact h)
  | succ k ih =>
    unfold State.startSteps
    repeat' (first | with_reducible exact h | with_reducible apply ih | with_reducible exact StateKeeps.refl _ | with_reducible apply State.startStep_keeps | with_reducible apply State.failStart_keeps | simp (disch := rfl) only [StateKeeps.upd] | with_reducible refine StateKeeps.write ?_ rfl rfl | with_reducible refine StateKeeps.clear ?_ rfl rfl | split)

theorem State.enableStage_keeps {s x : State} (h : StateKeeps s x) (r : StartupReport) : StateKeeps s (State.enableStage x r) := by
  unfold State.enableStage
  repeat' (first | with_reducible exact h | with_reducible exact StateKeeps.refl _ | with_reducible apply foldOver_keeps | with_reducible apply State.event_keeps | with_reducible apply State.startSteps_keeps | simp (disch := rfl) only [StateKeeps.upd] | with_reducible refine StateKeeps.write ?_ rfl rfl | with_reducible refine StateKeeps.clear ?_ rfl rfl | refine StateKeeps.fold _ _ ?_ ?_ | intro _ _ | split)

theorem State.flit_keeps {s x : State} (h : StateKeeps s x) (f : SeamFlit) (kind : Nat) (act : State → State) (hf : ∀ t, StateKeeps t (act t)) : StateKeeps s (State.flit x f kind act) := by
  unfold State.flit
  repeat' (first | with_reducible exact h | with_reducible exact StateKeeps.refl _ | with_reducible refine StateKeeps.trans ?_ (hf _) | with_reducible apply State.setSeam_keeps | dsimp only | with_reducible refine StateKeeps.write ?_ rfl rfl | with_reducible refine StateKeeps.clear ?_ rfl rfl | split)

theorem State.seamReplay_keeps {s x : State} (h : StateKeeps s x) (f : SeamFlit) : StateKeeps s (State.seamReplay x f) := by
  unfold State.seamReplay
  repeat' (first | with_reducible exact h | with_reducible exact StateKeeps.refl _ | with_reducible apply State.updSeam_keeps)

theorem State.syncPanel_keeps {s x : State} (h : StateKeeps s x) (p : Nat) : StateKeeps s (State.syncPanel x p) := by
  unfold State.syncPanel
  repeat' (first | with_reducible exact h | with_reducible exact StateKeeps.refl _ | simp (disch := rfl) only [StateKeeps.upd])

theorem State.fenceMarker_keeps {s x : State} (h : StateKeeps s x) (p : Nat) : StateKeeps s (State.fenceMarker x p) := by
  unfold State.fenceMarker
  repeat' (first | with_reducible exact h | with_reducible exact StateKeeps.refl _ | simp (disch := rfl) only [StateKeeps.upd] | with_reducible refine StateKeeps.write ?_ rfl rfl | with_reducible refine StateKeeps.clear ?_ rfl rfl | split)

theorem State.refLoss_keeps {s x : State} (h : StateKeeps s x) : StateKeeps s (State.refLoss x) := by
  unfold State.refLoss
  repeat' (first | with_reducible exact h | with_reducible exact StateKeeps.refl _ | with_reducible apply State.note_keeps | simp (disch := rfl) only [StateKeeps.upd])

theorem State.coolChannels_keeps {s x : State} (h : StateKeeps s x) (k : Nat) (pkg : Nat) (t : Nat) : StateKeeps s (State.coolChannels x k pkg t) := by
  unfold State.coolChannels
  repeat' (first | with_reducible exact h | with_reducible exact StateKeeps.refl _ | with_reducible apply State.coolSample_keeps | with_reducible apply foldOver_keeps | simp (disch := rfl) only [StateKeeps.upd] | with_reducible refine StateKeeps.write ?_ rfl rfl | with_reducible refine StateKeeps.clear ?_ rfl rfl | refine StateKeeps.fold _ _ ?_ ?_ | intro _ _ | split)

theorem State.linkFlit_keeps {s x : State} (h : StateKeeps s x) (k : Nat) (flit : Option (List Byte)) (good : Bool) : StateKeeps s (State.linkFlit x k flit good) := by
  unfold State.linkFlit
  repeat' (first | with_reducible exact h | with_reducible exact StateKeeps.refl _ | with_reducible apply State.updCuff_keeps | with_reducible apply State.flit_keeps | dsimp only | with_reducible refine StateKeeps.write ?_ rfl rfl | with_reducible refine StateKeeps.clear ?_ rfl rfl | intro _ | split)

theorem State.busTransfer_keeps {s x : State} (h : StateKeeps s x) (k : Nat) (resends : Nat) : StateKeeps s (State.busTransfer x k resends) := by
  unfold State.busTransfer
  repeat' (first | with_reducible exact h | with_reducible exact StateKeeps.refl _ | with_reducible apply State.updCuff_keeps | with_reducible apply State.cuffNote_keeps | with_reducible apply State.useSlot_keeps | with_reducible apply State.settleRing_keeps | with_reducible apply State.nearUnit_keeps | with_reducible apply State.countNearTurn_keeps | dsimp only | with_reducible refine StateKeeps.write ?_ rfl rfl | with_reducible refine StateKeeps.clear ?_ rfl rfl | split)

theorem State.setLatches_keeps {s x : State} (h : StateKeeps s x) (p : Path) (l' : Latches) : StateKeeps s (State.setLatches x p l') := by
  unfold State.setLatches
  repeat' (first | with_reducible exact h | with_reducible exact StateKeeps.refl _ | simp (disch := rfl) only [StateKeeps.upd] | with_reducible refine StateKeeps.write ?_ rfl rfl | with_reducible refine StateKeeps.clear ?_ rfl rfl | split)

theorem State.readReg_keeps {s x : State} (h : StateKeeps s x) (p : Path) (r : Reg) : StateKeeps s (State.readReg x p r).1 := by
  unfold State.readReg
  repeat' (first | with_reducible exact h | with_reducible exact StateKeeps.refl _ | with_reducible apply State.setLatches_keeps)

theorem State.readSetup_keeps {s x : State} (h : StateKeeps s x) (p : Path) (o : Nat) (width : Nat) : StateKeeps s (State.readSetup x p o width).1 := by
  unfold State.readSetup
  repeat' (first | with_reducible exact h | with_reducible exact StateKeeps.refl _ | with_reducible apply State.drew_keeps | with_reducible apply State.setupError_keeps | with_reducible apply State.readReg_keeps | dsimp only | with_reducible refine StateKeeps.write ?_ rfl rfl | with_reducible refine StateKeeps.clear ?_ rfl rfl | split)

theorem State.msixFire_keeps {s x : State} (h : StateKeeps s x) (v : Nat) : StateKeeps s (State.msixFire x v) := by
  unfold State.msixFire
  repeat' (first | with_reducible exact h | with_reducible exact StateKeeps.refl _ | with_reducible apply State.signal_keeps | simp (disch := rfl) only [StateKeeps.upd] | with_reducible refine StateKeeps.write ?_ rfl rfl | with_reducible refine StateKeeps.clear ?_ rfl rfl | split)

theorem State.msixWrite_keeps {s x : State} (h : StateKeeps s x) (o : Nat) (width : Nat) (v : Nat) : StateKeeps s (State.msixWrite x o width v) := by
  unfold State.msixWrite
  repeat' (first | with_reducible exact h | with_reducible exact StateKeeps.refl _ | with_reducible apply State.msixFire_keeps | simp (disch := rfl) only [StateKeeps.upd] | with_reducible refine StateKeeps.write ?_ rfl rfl | with_reducible refine StateKeeps.clear ?_ rfl rfl | split)

theorem State.discard_keeps {s x : State} (h : StateKeeps s x) (o : Nat) : StateKeeps s (State.discard x o) := by
  unfold State.discard
  repeat' (first | with_reducible exact h | with_reducible exact StateKeeps.refl _ | with_reducible apply State.setupError_keeps)

theorem State.writeSq_keeps {s x : State} (h : StateKeeps s x) (q : Nat) (o : Nat) (v : Word) : StateKeeps s (State.writeSq x q o v) := by
  unfold State.writeSq
  repeat' (first | with_reducible exact h | with_reducible exact StateKeeps.refl _ | with_reducible apply State.setSq_keeps | with_reducible apply State.discard_keeps | dsimp only | with_reducible refine StateKeeps.write ?_ rfl rfl | with_reducible refine StateKeeps.clear ?_ rfl rfl | split)

theorem State.writeCq_keeps {s x : State} (h : StateKeeps s x) (q : Nat) (o : Nat) (v : Word) : StateKeeps s (State.writeCq x q o v) := by
  unfold State.writeCq
  repeat' (first | with_reducible exact h | with_reducible exact StateKeeps.refl _ | with_reducible apply State.flushCq_keeps | with_reducible apply State.setCq_keeps | with_reducible apply State.discard_keeps | dsimp only | with_reducible refine StateKeeps.write ?_ rfl rfl | with_reducible refine StateKeeps.clear ?_ rfl rfl | split)

theorem State.noteRestart_keeps {s x : State} (h : StateKeeps s x) : StateKeeps s (State.noteRestart x) := by
  unfold State.noteRestart
  repeat' (first | with_reducible exact h | with_reducible exact StateKeeps.refl _ | with_reducible apply State.note_keeps | simp (disch := rfl) only [StateKeeps.upd] | with_reducible refine StateKeeps.write ?_ rfl rfl | with_reducible refine StateKeeps.clear ?_ rfl rfl | split)

theorem State.noteRetired_keeps {s x : State} (h : StateKeeps s x) : StateKeeps s (State.noteRetired x) := by
  unfold State.noteRetired
  repeat' (first | with_reducible exact h | with_reducible exact StateKeeps.refl _ | with_reducible apply foldOver_keeps | with_reducible apply State.note_keeps | simp (disch := rfl) only [StateKeeps.upd] | with_reducible refine StateKeeps.write ?_ rfl rfl | with_reducible refine StateKeeps.clear ?_ rfl rfl | refine StateKeeps.fold _ _ ?_ ?_ | intro _ _ | split)

theorem State.startLog_keeps {s x : State} (h : StateKeeps s x) : StateKeeps s (State.startLog x) := by
  unfold State.startLog
  repeat' (first | with_reducible exact h | with_reducible exact StateKeeps.refl _ | with_reducible apply State.noteRestart_keeps | with_reducible apply State.noteRetired_keeps | simp (disch := rfl) only [StateKeeps.upd])

theorem State.writeLogCtrl_keeps {s x : State} (h : StateKeeps s x) (o : Nat) (v : Word) : StateKeeps s (State.writeLogCtrl x o v) := by
  unfold State.writeLogCtrl
  repeat' (first | with_reducible exact h | with_reducible exact StateKeeps.refl _ | with_reducible apply State.discard_keeps | with_reducible apply State.startLog_keeps | simp (disch := rfl) only [StateKeeps.upd] | with_reducible refine StateKeeps.write ?_ rfl rfl | with_reducible refine StateKeeps.clear ?_ rfl rfl | split)

theorem State.updCore_keeps {s x : State} (h : StateKeeps s x) (n : Nat) (f : Core → Core) : StateKeeps s (State.updCore x n f) := by
  unfold State.updCore
  repeat' (first | with_reducible exact h | with_reducible exact StateKeeps.refl _ | with_reducible apply State.setCore_keeps)

theorem State.putCtrl_keeps {s x : State} (h : StateKeeps s x) (n : Nat) (f : CoreCtrl → CoreCtrl) (g : CoreCtrl → CoreCtrl) : StateKeeps s (State.putCtrl x n f g) := by
  unfold State.putCtrl
  repeat' (first | with_reducible exact h | with_reducible exact StateKeeps.refl _ | with_reducible apply State.folded_keeps | with_reducible apply State.updCore_keeps)

theorem State.writeRegion_keeps {s x : State} (h : StateKeeps s x) (n : Nat) (o : Nat) (v : Word) : StateKeeps s (State.writeRegion x n o v) := by
  unfold State.writeRegion
  repeat' (first | with_reducible exact h | with_reducible exact StateKeeps.refl _ | with_reducible apply State.discard_keeps | with_reducible apply State.updCore_keeps | dsimp only | with_reducible refine StateKeeps.write ?_ rfl rfl | with_reducible refine StateKeeps.clear ?_ rfl rfl | split)

theorem State.writeWindow_keeps {s x : State} (h : StateKeeps s x) (n : Nat) (w : Nat) (o : Nat) (v : Word) : StateKeeps s (State.writeWindow x n w o v) := by
  unfold State.writeWindow
  repeat' (first | with_reducible exact h | with_reducible exact StateKeeps.refl _ | with_reducible apply State.discard_keeps | with_reducible apply State.updCore_keeps | dsimp only | with_reducible refine StateKeeps.write ?_ rfl rfl | with_reducible refine StateKeeps.clear ?_ rfl rfl | split)

theorem State.restartCapture_keeps {s x : State} (h : StateKeeps s x) (n : Nat) (v : Word) : StateKeeps s (State.restartCapture x n v) := by
  unfold State.restartCapture
  repeat' (first | with_reducible exact h | with_reducible exact StateKeeps.refl _ | with_reducible apply State.updCore_keeps | dsimp only | with_reducible refine StateKeeps.write ?_ rfl rfl | with_reducible refine StateKeeps.clear ?_ rfl rfl | split)

theorem State.clearFaulted_keeps {s x : State} (h : StateKeeps s x) (n : Nat) (v : Word) : StateKeeps s (State.clearFaulted x n v) := by
  unfold State.clearFaulted
  repeat' (first | with_reducible exact h | with_reducible exact StateKeeps.refl _ | with_reducible apply State.updCore_keeps | dsimp only | with_reducible refine StateKeeps.write ?_ rfl rfl | with_reducible refine StateKeeps.clear ?_ rfl rfl | split)

theorem State.writeCo_keeps {s x : State} (h : StateKeeps s x) (n : Nat) (r : CoReg) (o : Nat) (v : Word) : StateKeeps s (State.writeCo x n r o v) := by
  unfold State.writeCo
  repeat' (first | with_reducible exact h | with_reducible exact StateKeeps.refl _ | with_reducible apply State.folded_keeps | with_reducible apply State.updCore_keeps | with_reducible apply State.putCtrl_keeps | with_reducible apply State.writeRegion_keeps | with_reducible apply State.writeWindow_keeps | with_reducible apply State.restartCapture_keeps | with_reducible apply State.clearFaulted_keeps | dsimp only | with_reducible refine StateKeeps.write ?_ rfl rfl | with_reducible refine StateKeeps.clear ?_ rfl rfl | with_reducible exact LocalKeeps.refl _ | with_reducible apply Local.rosterFault_keeps | simp only [LocalKeeps.upd] | intro _ | split)

theorem State.writePk_keeps {s x : State} (h : StateKeeps s x) (k : Nat) (r : PkReg) (v : Word) : StateKeeps s (State.writePk x k r v) := by
  unfold State.writePk
  repeat' (first | with_reducible exact h | with_reducible exact StateKeeps.refl _ | with_reducible apply State.folded_keeps | with_reducible apply State.applyColumn_keeps | with_reducible apply State.setColumn_keeps | dsimp only | with_reducible refine StateKeeps.write ?_ rfl rfl | with_reducible refine StateKeeps.clear ?_ rfl rfl | split)

theorem State.requestRetrain_keeps {s x : State} (h : StateKeeps s x) (k : Nat) (v : Word) : StateKeeps s (State.requestRetrain x k v) := by
  unfold State.requestRetrain
  repeat' (first | with_reducible exact h | with_reducible exact StateKeeps.refl _ | with_reducible apply State.retrainWait_keeps | dsimp only | with_reducible refine StateKeeps.write ?_ rfl rfl | with_reducible refine StateKeeps.clear ?_ rfl rfl | split)

theorem State.writeCf_keeps {s x : State} (h : StateKeeps s x) (k : Nat) (r : CfReg) (v : Word) : StateKeeps s (State.writeCf x k r v) := by
  unfold State.writeCf
  repeat' (first | with_reducible exact h | with_reducible exact StateKeeps.refl _ | with_reducible apply State.updCuff_keeps | with_reducible apply State.requestRetrain_keeps | simp (disch := rfl) only [StateKeeps.upd] | with_reducible refine StateKeeps.write ?_ rfl rfl | with_reducible refine StateKeeps.clear ?_ rfl rfl | split)

theorem State.writePwCtrl_keeps {s x : State} (h : StateKeeps s x) (v : Word) : StateKeeps s (State.writePwCtrl x v) := by
  unfold State.writePwCtrl
  repeat' (first | with_reducible exact h | with_reducible exact StateKeeps.refl _ | simp (disch := rfl) only [StateKeeps.upd])

theorem State.writeFold_keeps {s x : State} (h : StateKeeps s x) (v : Word) : StateKeeps s (State.writeFold x v) := by
  unfold State.writeFold
  repeat' (first | with_reducible exact h | with_reducible exact StateKeeps.refl _ | with_reducible apply State.wake_keeps | simp (disch := rfl) only [StateKeeps.upd] | with_reducible refine StateKeeps.write ?_ rfl rfl | with_reducible refine StateKeeps.clear ?_ rfl rfl | split)

theorem State.askReset_keeps {s x : State} (h : StateKeeps s x) (v : Word) : StateKeeps s (State.askReset x v) := by
  unfold State.askReset
  repeat' (first | with_reducible exact h | with_reducible exact StateKeeps.refl _ | with_reducible apply State.resetPanel_keeps | simp (disch := rfl) only [StateKeeps.upd] | with_reducible refine StateKeeps.write ?_ rfl rfl | with_reducible refine StateKeeps.clear ?_ rfl rfl | split)

theorem State.askCycle_keeps {s x : State} (h : StateKeeps s x) (v : Word) : StateKeeps s (State.askCycle x v) := by
  unfold State.askCycle
  repeat' (first | with_reducible exact h | with_reducible exact StateKeeps.refl _ | with_reducible apply State.cyclePanel_keeps | simp (disch := rfl) only [StateKeeps.upd] | with_reducible refine StateKeeps.write ?_ rfl rfl | with_reducible refine StateKeeps.clear ?_ rfl rfl | split)

theorem State.writeService_keeps {s x : State} (h : StateKeeps s x) (v : Word) : StateKeeps s (State.writeService x v) := by
  unfold State.writeService
  repeat' (first | with_reducible exact h | with_reducible exact StateKeeps.refl _ | simp (disch := rfl) only [StateKeeps.upd] | with_reducible refine StateKeeps.write ?_ rfl rfl | with_reducible refine StateKeeps.clear ?_ rfl rfl | split)

theorem State.lockTags_keeps {s x : State} (h : StateKeeps s x) : StateKeeps s (State.lockTags x) := by
  unfold State.lockTags
  repeat' (first | with_reducible exact h | with_reducible exact StateKeeps.refl _ | simp (disch := rfl) only [StateKeeps.upd])

theorem State.writeExpert_keeps {s x : State} (h : StateKeeps s x) (v : Word) : StateKeeps s (State.writeExpert x v) := by
  unfold State.writeExpert
  repeat' (first | with_reducible exact h | with_reducible exact StateKeeps.refl _ | with_reducible apply State.folded_keeps | with_reducible apply State.settleColumns_keeps | simp (disch := rfl) only [StateKeeps.upd] | with_reducible refine StateKeeps.write ?_ rfl rfl | with_reducible refine StateKeeps.clear ?_ rfl rfl | split)

theorem State.askRejoin_keeps {s x : State} (h : StateKeeps s x) (v : Word) (e : WriteEnv) : StateKeeps s (State.askRejoin x v e) := by
  unfold State.askRejoin
  repeat' (first | with_reducible exact h | with_reducible exact StateKeeps.refl _ | with_reducible apply State.rejoin_keeps | simp (disch := rfl) only [StateKeeps.upd] | with_reducible refine StateKeeps.write ?_ rfl rfl | with_reducible refine StateKeeps.clear ?_ rfl rfl | split)

theorem State.askDarken_keeps {s x : State} (h : StateKeeps s x) (v : Word) (selfTest : Bool) : StateKeeps s (State.askDarken x v selfTest) := by
  unfold State.askDarken
  repeat' (first | with_reducible exact h | with_reducible exact StateKeeps.refl _ | with_reducible apply State.darken_keeps | dsimp only | with_reducible refine StateKeeps.write ?_ rfl rfl | with_reducible refine StateKeeps.clear ?_ rfl rfl | split)

theorem State.clearHalted_keeps {s x : State} (h : StateKeeps s x) (v : Word) : StateKeeps s (State.clearHalted x v) := by
  unfold State.clearHalted
  repeat' (first | with_reducible exact h | with_reducible exact StateKeeps.refl _ | simp (disch := rfl) only [StateKeeps.upd])

theorem State.updYoke_keeps {s x : State} (h : StateKeeps s x) (f : YokeRegs → YokeRegs) : StateKeeps s (State.updYoke x f) := by
  unfold State.updYoke
  repeat' (first | with_reducible exact h | with_reducible exact StateKeeps.refl _ | simp (disch := rfl) only [StateKeeps.upd])

theorem State.updLog_keeps {s x : State} (h : StateKeeps s x) (f : LogState → LogState) : StateKeeps s (State.updLog x f) := by
  unfold State.updLog
  repeat' (first | with_reducible exact h | with_reducible exact StateKeeps.refl _ | simp (disch := rfl) only [StateKeeps.upd])

theorem State.writeSqBase_keeps {s x : State} (h : StateKeeps s x) (q : Nat) (o : Nat) (high : Bool) (v : Word) : StateKeeps s (State.writeSqBase x q o high v) := by
  unfold State.writeSqBase
  repeat' (first | with_reducible exact h | with_reducible exact StateKeeps.refl _ | with_reducible apply State.setSq_keeps | with_reducible apply State.discard_keeps | dsimp only | with_reducible refine StateKeeps.write ?_ rfl rfl | with_reducible refine StateKeeps.clear ?_ rfl rfl | split)

theorem State.writeCqBase_keeps {s x : State} (h : StateKeeps s x) (q : Nat) (o : Nat) (high : Bool) (v : Word) : StateKeeps s (State.writeCqBase x q o high v) := by
  unfold State.writeCqBase
  repeat' (first | with_reducible exact h | with_reducible exact StateKeeps.refl _ | with_reducible apply State.setCq_keeps | with_reducible apply State.discard_keeps | dsimp only | with_reducible refine StateKeeps.write ?_ rfl rfl | with_reducible refine StateKeeps.clear ?_ rfl rfl | split)

theorem State.writeLogBase_keeps {s x : State} (h : StateKeeps s x) (o : Nat) (high : Bool) (v : Word) : StateKeeps s (State.writeLogBase x o high v) := by
  unfold State.writeLogBase
  repeat' (first | with_reducible exact h | with_reducible exact StateKeeps.refl _ | with_reducible apply State.discard_keeps | with_reducible apply State.updLog_keeps | simp (disch := rfl) only [StateKeeps.upd] | with_reducible refine StateKeeps.write ?_ rfl rfl | with_reducible refine StateKeeps.clear ?_ rfl rfl | split)

theorem State.writeReg_keeps {s x : State} (h : StateKeeps s x) (r : Reg) (o : Nat) (v : Word) (e : WriteEnv) : StateKeeps s (State.writeReg x r o v e) := by
  unfold State.writeReg
  repeat' (first | with_reducible exact h | with_reducible exact StateKeeps.refl _ | with_reducible apply State.turnStall_keeps | with_reducible apply State.updHost_keeps | with_reducible apply State.writeSq_keeps | with_reducible apply State.writeCq_keeps | with_reducible apply State.writeLogCtrl_keeps | with_reducible apply State.writeCo_keeps | with_reducible apply State.writePk_keeps | with_reducible apply State.writeCf_keeps | with_reducible apply State.writePwCtrl_keeps | with_reducible apply State.writeFold_keeps | with_reducible apply State.askReset_keeps | with_reducible apply State.askCycle_keeps | with_reducible apply State.writeService_keeps | with_reducible apply State.lockTags_keeps | with_reducible apply State.writeExpert_keeps | with_reducible apply State.askRejoin_keeps | with_reducible apply State.askDarken_keeps | with_reducible apply State.clearHalted_keeps | with_reducible apply State.updYoke_keeps | with_reducible apply State.updLog_keeps | with_reducible apply State.writeSqBase_keeps | with_reducible apply State.writeCqBase_keeps | with_reducible apply State.writeLogBase_keeps | simp (disch := rfl) only [StateKeeps.upd] | with_reducible refine StateKeeps.write ?_ rfl rfl | with_reducible refine StateKeeps.clear ?_ rfl rfl | split)

theorem State.putReg_keeps {s x : State} (h : StateKeeps s x) (r : Reg) (o : Nat) (v : Word) (e : WriteEnv) : StateKeeps s (State.putReg x r o v e) := by
  unfold State.putReg
  repeat' (first | with_reducible exact h | with_reducible exact StateKeeps.refl _ | with_reducible apply State.countChanges_keeps | with_reducible apply State.writeReg_keeps)

theorem State.writeSetup_keeps {s x : State} (h : StateKeeps s x) (o : Nat) (width : Nat) (v : DWord) (e : WriteEnv) : StateKeeps s (State.writeSetup x o width v e) := by
  unfold State.writeSetup
  repeat' (first | with_reducible exact h | with_reducible exact StateKeeps.refl _ | with_reducible apply State.setupError_keeps | with_reducible apply State.putReg_keeps | simp (disch := rfl) only [StateKeeps.upd] | with_reducible refine StateKeeps.write ?_ rfl rfl | with_reducible refine StateKeeps.clear ?_ rfl rfl | split)

theorem State.setupRead_keeps {s x : State} (h : StateKeeps s x) (p : Path) (o : Nat) (width : Nat) : StateKeeps s (State.setupRead x p o width) := by
  unfold State.setupRead
  repeat' (first | with_reducible exact h | with_reducible exact StateKeeps.refl _ | with_reducible apply State.answer_keeps | with_reducible apply State.readSetup_keeps | dsimp only | with_reducible refine StateKeeps.write ?_ rfl rfl | with_reducible refine StateKeeps.clear ?_ rfl rfl | split)

theorem State.setupWrite_keeps {s x : State} (h : StateKeeps s x) (p : Path) (o : Nat) (width : Nat) (v : DWord) (e : WriteEnv) : StateKeeps s (State.setupWrite x p o width v e) := by
  unfold State.setupWrite
  repeat' (first | with_reducible exact h | with_reducible exact StateKeeps.refl _ | with_reducible apply State.answer_keeps | with_reducible apply State.msixWrite_keeps | with_reducible apply State.writeSetup_keeps | simp (disch := rfl) only [StateKeeps.upd] | with_reducible refine StateKeeps.write ?_ rfl rfl | with_reducible refine StateKeeps.clear ?_ rfl rfl | split)

theorem State.setRegister_keeps {s x : State} (h : StateKeeps s x) (p : Path) (o : Nat) (v : Word) : StateKeeps s (State.setRegister x p o v) := by
  unfold State.setRegister
  repeat' (first | with_reducible exact h | with_reducible exact StateKeeps.refl _ | with_reducible apply State.setupWrite_keeps)

theorem State.getRegister_keeps {s x : State} (h : StateKeeps s x) (p : Path) (o : Nat) : StateKeeps s (State.getRegister x p o) := by
  unfold State.getRegister
  repeat' (first | with_reducible exact h | with_reducible exact StateKeeps.refl _ | with_reducible apply State.setupRead_keeps)

theorem State.commandRead_keeps {s x : State} (h : StateKeeps s x) (o : Nat) : StateKeeps s (State.commandRead x o) := by
  unfold State.commandRead
  repeat' (first | with_reducible exact h | with_reducible exact StateKeeps.refl _ | with_reducible apply State.answer_keeps | with_reducible apply State.command_keeps | with_reducible apply State.readSetup_keeps | dsimp only | with_reducible refine StateKeeps.write ?_ rfl rfl | with_reducible refine StateKeeps.clear ?_ rfl rfl | intro _ | split)

theorem State.commandWrite_keeps {s x : State} (h : StateKeeps s x) (o : Nat) (v : Word) (e : WriteEnv) : StateKeeps s (State.commandWrite x o v e) := by
  unfold State.commandWrite
  repeat' (first | with_reducible exact h | with_reducible exact StateKeeps.refl _ | with_reducible apply State.answer_keeps | with_reducible apply State.command_keeps | with_reducible apply State.writeSetup_keeps | simp (disch := rfl) only [StateKeeps.upd] | with_reducible refine StateKeeps.write ?_ rfl rfl | with_reducible refine StateKeeps.clear ?_ rfl rfl | intro _ | split)

theorem State.configRequest_keeps {s x : State} (h : StateKeeps s x) (o : Nat) (write : Option Word) : StateKeeps s (State.configRequest x o write) := by
  unfold State.configRequest
  repeat' (first | with_reducible exact h | with_reducible exact StateKeeps.refl _ | with_reducible apply State.updHost_keeps | with_reducible apply State.answer_keeps | simp (disch := rfl) only [StateKeeps.upd] | with_reducible refine StateKeeps.write ?_ rfl rfl | with_reducible refine StateKeeps.clear ?_ rfl rfl | split)

theorem State.hostNote_keeps {s x : State} (h : StateKeeps s x) (cls : Nat) (detail : Nat) (aux : Nat) : StateKeeps s (State.hostNote x cls detail aux) := by
  unfold State.hostNote
  repeat' (first | with_reducible exact h | with_reducible exact StateKeeps.refl _ | with_reducible apply State.note_keeps)

theorem State.bar4Fails_keeps {s x : State} (h : StateKeeps s x) (r : Bar4Request) (cls : Nat) (aux : Nat) : StateKeeps s (State.bar4Fails x r cls aux) := by
  unfold State.bar4Fails
  repeat' (first | with_reducible exact h | with_reducible exact StateKeeps.refl _ | with_reducible apply State.hostNote_keeps | with_reducible apply State.bar4Refuse_keeps)

theorem State.bar4Setup_keeps {s x : State} (h : StateKeeps s x) (r : Bar4Request) : StateKeeps s (State.bar4Setup x r) := by
  unfold State.bar4Setup
  repeat' (first | with_reducible exact h | with_reducible exact StateKeeps.refl _ | with_reducible apply State.answer_keeps | with_reducible apply State.readSetup_keeps | with_reducible apply State.writeSetup_keeps | dsimp only | with_reducible refine StateKeeps.write ?_ rfl rfl | with_reducible refine StateKeeps.clear ?_ rfl rfl | split)

theorem State.bar4Fetch_keeps {s x : State} (h : StateKeeps s x) (r : Bar4Request) : StateKeeps s (State.bar4Fetch x r).1 := by
  unfold State.bar4Fetch
  repeat' (first | with_reducible exact h | with_reducible exact StateKeeps.refl _ | with_reducible apply State.readRange_keeps | dsimp only | with_reducible refine StateKeeps.write ?_ rfl rfl | with_reducible refine StateKeeps.clear ?_ rfl rfl | split)

theorem State.bar4Done_keeps {s x : State} (h : StateKeeps s x) (r : Bar4Request) : StateKeeps s (State.bar4Done x r) := by
  unfold State.bar4Done
  repeat' (first | with_reducible exact h | with_reducible exact StateKeeps.refl _ | with_reducible apply State.writeRange_keeps | with_reducible apply State.answer_keeps | simp (disch := rfl) only [StateKeeps.upd] | with_reducible refine StateKeeps.write ?_ rfl rfl | with_reducible refine StateKeeps.clear ?_ rfl rfl | split)

theorem State.bar4Serve_keeps {s x : State} (h : StateKeeps s x) (r : Bar4Request) (key : Nat) (units : Nat) : StateKeeps s (State.bar4Serve x r key units).1 := by
  unfold State.bar4Serve
  repeat' (first | with_reducible exact h | with_reducible exact StateKeeps.refl _ | with_reducible apply State.bar4Fetch_keeps | with_reducible apply State.bar4Done_keeps | dsimp only | with_reducible refine StateKeeps.write ?_ rfl rfl | with_reducible refine StateKeeps.clear ?_ rfl rfl | split)

theorem State.badDoorbell_keeps {s x : State} (h : StateKeeps s x) (q : Nat) (off : Nat) : StateKeeps s (State.badDoorbell x q off) := by
  unfold State.badDoorbell
  repeat' (first | with_reducible exact h | with_reducible exact StateKeeps.refl _ | with_reducible apply State.updHost_keeps | with_reducible apply State.note_keeps)

theorem State.ringDoorbell_keeps {s x : State} (h : StateKeeps s x) (q : Nat) (off : Nat) (width : Nat) (size : Nat) (enabled : Bool) (value : Nat) (f : State → State) (hf : ∀ t, StateKeeps t (f t)) : StateKeeps s (State.ringDoorbell x q off width size enabled value f) := by
  unfold State.ringDoorbell
  repeat' (first | with_reducible exact h | with_reducible exact StateKeeps.refl _ | with_reducible refine StateKeeps.trans ?_ (hf _) | with_reducible apply State.badDoorbell_keeps | with_reducible apply State.updHost_keeps | simp (disch := rfl) only [StateKeeps.upd] | with_reducible refine StateKeeps.write ?_ rfl rfl | with_reducible refine StateKeeps.clear ?_ rfl rfl | split)

theorem State.doorbellWrite_keeps {s x : State} (h : StateKeeps s x) (q : Nat) (off : Nat) (width : Nat) (value : Nat) : StateKeeps s (State.doorbellWrite x q off width value) := by
  unfold State.doorbellWrite
  repeat' (first | with_reducible exact h | with_reducible exact StateKeeps.refl _ | with_reducible apply State.flushCq_keeps | with_reducible apply State.badDoorbell_keeps | with_reducible apply State.ringDoorbell_keeps | with_reducible apply State.setSq_keeps | with_reducible apply State.setCq_keeps | dsimp only | with_reducible refine StateKeeps.write ?_ rfl rfl | with_reducible refine StateKeeps.clear ?_ rfl rfl | intro _ | split)

theorem State.doorbells_keeps {s x : State} (h : StateKeeps s x) (fuel : Nat) : StateKeeps s (State.doorbells fuel x) := by
  induction fuel generalizing x with
  | zero => exact h
  | succ k ih =>
    unfold State.doorbells
    split
    · next j q off width value hk _ =>
      obtain rfl : k = j := by simpa using hk
      exact ih (State.doorbellWrite_keeps (State.updHost_keeps h _) _ _ _ _)
    · exact h

theorem State.bar4Judge_keeps {s x y : State} (h : StateKeeps s x) {r : Bar4Request} (hy : x.bar4Judge r = some y) :
    StateKeeps s y := by
  unfold State.bar4Judge at hy
  repeat' split at hy
  all_goals cases hy
  all_goals first | exact State.bar4Expire_keeps h _ | exact State.bar4Fails_keeps h _ _ _ | exact State.bar4Refuse_keeps h _ | exact State.bar4Setup_keeps h _

theorem State.bar4Drain_keeps {s x : State} (h : StateKeeps s x) (fuel key units : Nat) :
    StateKeeps s (State.bar4Drain fuel x key units).1 := by
  induction fuel generalizing x units with
  | zero => exact h
  | succ k ih =>
    have h1 := State.doorbells_keeps h x.host.requests.length
    unfold State.bar4Drain
    dsimp only
    generalize x.doorbells x.host.requests.length = y at h1
    split
    · next r rest _ =>
      have ht := State.updHost_keeps h1 fun h => { h with requests := rest }
      generalize (y.updHost fun h => { h with requests := rest }) = z at ht
      split
      · next hj => exact ih (State.bar4Judge_keeps ht hj) _
      · split
        · exact h1
        · have hs := State.bar4Serve_keeps ht r key units
          generalize z.bar4Serve r key units = v at hs
          split
          · exact State.updHost_keeps hs fun h => { h with requests := _ }
          · exact ih hs _
    · exact h1

theorem State.bar4Settle_keeps {s x : State} (h : StateKeeps s x) : StateKeeps s (State.bar4Settle x) := by
  unfold State.bar4Settle
  repeat' (first | with_reducible exact h | with_reducible exact StateKeeps.refl _ | with_reducible apply State.bar4Drain_keeps)

theorem State.bar4Access_keeps {s x : State} (h : StateKeeps s x) (r : Bar4Request) (poisoned : Bool) : StateKeeps s (State.bar4Access x r poisoned) := by
  unfold State.bar4Access
  repeat' (first | with_reducible exact h | with_reducible exact StateKeeps.refl _ | with_reducible apply State.hostNote_keeps | with_reducible apply State.bar4Fails_keeps | with_reducible apply State.bar4Settle_keeps | with_reducible apply State.bar4Refuse_keeps | with_reducible apply State.updHost_keeps | simp (disch := rfl) only [StateKeeps.upd] | with_reducible refine StateKeeps.write ?_ rfl rfl | with_reducible refine StateKeeps.clear ?_ rfl rfl | split)

theorem State.bar4Timeout_keeps {s x : State} (h : StateKeeps s x) : StateKeeps s (State.bar4Timeout x) := by
  unfold State.bar4Timeout
  repeat' (first | with_reducible exact h | with_reducible exact StateKeeps.refl _ | with_reducible apply State.bar4Settle_keeps | with_reducible apply State.bar4Expire_keeps | with_reducible apply State.updHost_keeps | with_reducible apply State.reach_keeps | simp (disch := rfl) only [StateKeeps.upd] | with_reducible refine StateKeeps.write ?_ rfl rfl | with_reducible refine StateKeeps.clear ?_ rfl rfl | with_reducible exact LocalKeeps.refl _ | with_reducible apply Local.reach_keeps | simp only [LocalKeeps.upd] | intro _ | split)

theorem State.doorbell_keeps {s x : State} (h : StateKeeps s x) (q : Nat) (off : Nat) (width : Nat) (value : Nat) : StateKeeps s (State.doorbell x q off width value) := by
  unfold State.doorbell
  repeat' (first | with_reducible exact h | with_reducible exact StateKeeps.refl _ | with_reducible apply State.wake_keeps | with_reducible apply State.doorbells_keeps | with_reducible apply State.updHost_keeps | dsimp only | with_reducible refine StateKeeps.write ?_ rfl rfl | with_reducible refine StateKeeps.clear ?_ rfl rfl | split)

theorem State.hostOpening_keeps {s x : State} (h : StateKeeps s x) (cls : Nat) (inst : Nat) : StateKeeps s (State.hostOpening x cls inst) := by
  unfold State.hostOpening
  repeat' (first | with_reducible exact h | with_reducible exact StateKeeps.refl _ | with_reducible apply State.bar4Drain_keeps | with_reducible apply State.endOpening_keeps | with_reducible apply State.hostShare_keeps | with_reducible apply State.dmaShares_keeps | with_reducible apply State.clashShares_keeps | with_reducible apply State.fenceSends_keeps | with_reducible apply State.fenceReports_keeps | with_reducible apply State.fencesDone_keeps | with_reducible apply State.settleRing_keeps | with_reducible apply State.settleTransfers_keeps | with_reducible apply State.endPartials_keeps | dsimp only | with_reducible refine StateKeeps.write ?_ rfl rfl | with_reducible refine StateKeeps.clear ?_ rfl rfl | split)

theorem State.fetched_keeps {s x : State} (h : StateKeeps s x) (q : Nat) (read : HostRead) : StateKeeps s (State.fetched x q read) := by
  unfold State.fetched
  repeat' (first | with_reducible exact h | with_reducible exact StateKeeps.refl _ | with_reducible apply State.setSq_keeps | with_reducible apply State.updHost_keeps)

theorem State.fetchFails_keeps {s x : State} (h : StateKeeps s x) (q : Nat) : StateKeeps s (State.fetchFails x q) := by
  unfold State.fetchFails
  repeat' (first | with_reducible exact h | with_reducible exact StateKeeps.refl _ | with_reducible apply State.setSq_keeps | with_reducible apply State.updHost_keeps | with_reducible apply State.note_keeps)

theorem State.fetch_keeps {s x : State} (h : StateKeeps s x) (q : Nat) (read : HostRead) : StateKeeps s (State.fetch x q read) := by
  unfold State.fetch
  repeat' (first | with_reducible exact h | with_reducible exact StateKeeps.refl _ | with_reducible apply State.fetched_keeps | with_reducible apply State.fetchFails_keeps | with_reducible apply State.updHost_keeps | simp (disch := rfl) only [StateKeeps.upd] | with_reducible refine StateKeeps.write ?_ rfl rfl | with_reducible refine StateKeeps.clear ?_ rfl rfl | split)

theorem State.startEffect_keeps {s x : State} (h : StateKeeps s x) (q : Nat) (d : Desc) : StateKeeps s (State.startEffect x q d) := by
  unfold State.startEffect
  repeat' (first | with_reducible exact h | with_reducible exact StateKeeps.refl _ | with_reducible apply State.updHost_keeps | simp (disch := rfl) only [StateKeeps.upd] | with_reducible refine StateKeeps.write ?_ rfl rfl | with_reducible refine StateKeeps.clear ?_ rfl rfl | split)

theorem State.start_keeps {s x : State} (h : StateKeeps s x) (q : Nat) (d : Desc) : StateKeeps s (State.start x q d) := by
  unfold State.start
  repeat' (first | with_reducible exact h | with_reducible exact StateKeeps.refl _ | with_reducible apply State.complete_keeps | with_reducible apply State.startEffect_keeps | with_reducible apply State.setSq_keeps | with_reducible apply State.updHost_keeps | dsimp only | with_reducible refine StateKeeps.write ?_ rfl rfl | with_reducible refine StateKeeps.clear ?_ rfl rfl | split)

theorem State.onStartedThat_keeps {s x : State} (h : StateKeeps s x) (q : RingQ) (index : BitVec 16) (op : Nat) (p : Desc → Bool) (f : Desc → State) (hf : ∀ d, StateKeeps s (f d)) : StateKeeps s (State.onStartedThat x q index op p f) := by
  unfold State.onStartedThat
  repeat' (first | with_reducible exact h | with_reducible exact StateKeeps.refl _ | with_reducible exact hf _ | simp (disch := rfl) only [StateKeeps.upd] | with_reducible refine StateKeeps.write ?_ rfl rfl | with_reducible refine StateKeeps.clear ?_ rfl rfl | split)

theorem State.onStarted_keeps {s x : State} (h : StateKeeps s x) (q : RingQ) (index : BitVec 16) (op : Nat) (f : Desc → State) (hf : ∀ d, StateKeeps s (f d)) : StateKeeps s (State.onStarted x q index op f) := by
  unfold State.onStarted
  repeat' (first | with_reducible exact h | with_reducible exact StateKeeps.refl _ | with_reducible exact hf _ | simp (disch := rfl) only [StateKeeps.upd] | with_reducible refine StateKeeps.write ?_ rfl rfl | with_reducible refine StateKeeps.clear ?_ rfl rfl | split)

theorem State.stopRings_keeps {s x : State} (h : StateKeeps s x) (m : BitVec 64) : StateKeeps s (State.stopRings x m) := by
  unfold State.stopRings
  repeat' (first | with_reducible exact h | with_reducible exact StateKeeps.refl _ | with_reducible apply State.updHost_keeps)

theorem State.drained_keeps {s x : State} (h : StateKeeps s x) (q : Nat) (d : Desc) (w : DrainWait) : StateKeeps s (State.drained x q d w) := by
  unfold State.drained
  repeat' (first | with_reducible exact h | with_reducible exact StateKeeps.refl _ | with_reducible apply State.complete_keeps | with_reducible apply State.stopRings_keeps | with_reducible apply State.updHost_keeps)

theorem State.drewTimes_keeps {s x : State} (h : StateKeeps s x) (p : ScrubPass) : StateKeeps s (State.drewTimes x p) := by
  unfold State.drewTimes
  repeat' (first | with_reducible exact h | with_reducible exact StateKeeps.refl _ | with_reducible apply State.drew_keeps | simp (disch := rfl) only [StateKeeps.upd] | with_reducible refine StateKeeps.write ?_ rfl rfl | with_reducible refine StateKeeps.clear ?_ rfl rfl | split)

theorem State.endScrub_keeps {s x : State} (h : StateKeeps s x) (p : ScrubPass) (d : Desc) (code : Nat) (status : Nat) (wrote : HostWrite) : StateKeeps s (State.endScrub x p d code status wrote) := by
  unfold State.endScrub
  repeat' (first | with_reducible exact h | with_reducible exact StateKeeps.refl _ | with_reducible apply State.hostData_keeps | with_reducible apply State.complete_keeps | with_reducible apply State.drewTimes_keeps | simp (disch := rfl) only [StateKeeps.upd])

theorem State.abort_keeps {s x : State} (h : StateKeeps s x) (q : Nat) (d : Desc) : StateKeeps s (State.abort x q d) := by
  unfold State.abort
  repeat' (first | with_reducible exact h | with_reducible exact StateKeeps.refl _ | with_reducible apply State.complete_keeps | with_reducible apply State.endScrub_keeps | simp (disch := rfl) only [StateKeeps.upd] | with_reducible refine StateKeeps.write ?_ rfl rfl | with_reducible refine StateKeeps.clear ?_ rfl rfl | split)

theorem State.haltBody_keeps {s x : State} (h : StateKeeps s x) : StateKeeps s (State.haltBody x) := by
  unfold State.haltBody
  repeat' (first | with_reducible exact h | with_reducible exact StateKeeps.refl _ | with_reducible apply State.stopSet_keeps | with_reducible apply State.admitPanels_keeps | with_reducible apply State.releaseRings_keeps | with_reducible apply State.endSet_keeps | with_reducible apply State.abort_keeps | with_reducible apply foldOver_keeps | with_reducible apply State.updHost_keeps | simp (disch := rfl) only [StateKeeps.upd] | with_reducible refine StateKeeps.write ?_ rfl rfl | with_reducible refine StateKeeps.clear ?_ rfl rfl | refine StateKeeps.fold _ _ ?_ ?_ | intro _ _ | split)

theorem State.haltSteps_keeps {s x : State} (h : StateKeeps s x) (q : Nat) (d : Desc) (later : List (Nat × Desc)) : StateKeeps s (State.haltSteps x q d later) := by
  unfold State.haltSteps
  repeat' (first | with_reducible exact h | with_reducible exact StateKeeps.refl _ | with_reducible apply State.complete_keeps | with_reducible apply State.haltBody_keeps | with_reducible apply foldOver_keeps | simp (disch := rfl) only [StateKeeps.upd] | with_reducible refine StateKeeps.write ?_ rfl rfl | with_reducible refine StateKeeps.clear ?_ rfl rfl | refine StateKeeps.fold _ _ ?_ ?_ | intro _ _)

theorem State.raiseFence_keeps {s x : State} (h : StateKeeps s x) (q : Nat) (d : Desc) : StateKeeps s (State.raiseFence x q d) := by
  unfold State.raiseFence
  repeat' (first | with_reducible exact h | with_reducible exact StateKeeps.refl _ | with_reducible apply State.fencesDone_keeps | with_reducible apply State.updHost_keeps)

theorem State.coalesceTimeout_keeps {s x : State} (h : StateKeeps s x) (q : Nat) : StateKeeps s (State.coalesceTimeout x q) := by
  unfold State.coalesceTimeout
  repeat' (first | with_reducible exact h | with_reducible exact StateKeeps.refl _ | with_reducible apply State.setCq_keeps | with_reducible apply State.reach_keeps | with_reducible apply State.signal_keeps | dsimp only | with_reducible refine StateKeeps.write ?_ rfl rfl | with_reducible refine StateKeeps.clear ?_ rfl rfl | with_reducible exact LocalKeeps.refl _ | with_reducible apply Local.reach_keeps | simp only [LocalKeeps.upd] | intro _ | split)

theorem State.beginCopy_keeps {s x : State} (h : StateKeeps s x) (t : Transfer) : StateKeeps s (State.beginCopy x t) := by
  unfold State.beginCopy
  repeat' (first | with_reducible exact h | with_reducible exact StateKeeps.refl _ | with_reducible apply State.beginTransfer_keeps)

theorem State.orphanCopy_keeps {s x : State} (h : StateKeeps s x) (q : Nat) (index : Nat) (read : HostRead) (wrote : HostWrite) : StateKeeps s (State.orphanCopy x q index read wrote) := by
  unfold State.orphanCopy
  repeat' (first | with_reducible exact h | with_reducible exact StateKeeps.refl _ | with_reducible apply State.beginCopy_keeps | with_reducible apply State.updHost_keeps | simp (disch := rfl) only [StateKeeps.upd] | with_reducible refine StateKeeps.write ?_ rfl rfl | with_reducible refine StateKeeps.clear ?_ rfl rfl | split)

theorem State.copy_keeps {s x : State} (h : StateKeeps s x) (q : Nat) (d : Desc) (read : HostRead) (wrote : HostWrite) : StateKeeps s (State.copy x q d read wrote) := by
  unfold State.copy
  repeat' (first | with_reducible exact h | with_reducible exact StateKeeps.refl _ | with_reducible apply State.beginCopy_keeps | simp (disch := rfl) only [StateKeeps.upd] | with_reducible refine StateKeeps.write ?_ rfl rfl | with_reducible refine StateKeeps.clear ?_ rfl rfl | split)

theorem State.loadRoster_keeps {s x : State} (h : StateKeeps s x) (q : Nat) (d : Desc) (n : Nat) (len : Nat) (read : HostRead) : StateKeeps s (State.loadRoster x q d n len read) := by
  unfold State.loadRoster
  repeat' (first | with_reducible exact h | with_reducible exact StateKeeps.refl _ | with_reducible apply State.complete_keeps | with_reducible apply State.beginTransfer_keeps | dsimp only | with_reducible refine StateKeeps.write ?_ rfl rfl | with_reducible refine StateKeeps.clear ?_ rfl rfl | split)

theorem State.loadImage_keeps {s x : State} (h : StateKeeps s x) (len : Nat) (read : HostRead) : StateKeeps s (State.loadImage x len read).1 := by
  unfold State.loadImage
  repeat' (first | with_reducible exact h | with_reducible exact StateKeeps.refl _ | with_reducible apply State.updRing_keeps | dsimp only | with_reducible refine StateKeeps.write ?_ rfl rfl | with_reducible refine StateKeeps.clear ?_ rfl rfl | with_reducible exact LocalKeeps.refl _ | with_reducible apply Local.store_keeps | simp only [LocalKeeps.upd] | intro _ | split)

theorem State.load_keeps {s x : State} (h : StateKeeps s x) (q : Nat) (d : Desc) (read : HostRead) : StateKeeps s (State.load x q d read) := by
  unfold State.load
  repeat' (first | with_reducible exact h | with_reducible exact StateKeeps.refl _ | with_reducible apply State.loadRoster_keeps | with_reducible apply State.loadImage_keeps | with_reducible apply State.complete_keeps | dsimp only | with_reducible refine StateKeeps.write ?_ rfl rfl | with_reducible refine StateKeeps.clear ?_ rfl rfl | split)

theorem State.readHeaders_keeps {s x : State} (h : StateKeeps s x) (cores : List Nat) : StateKeeps s (State.readHeaders x cores) := by
  unfold State.readHeaders
  repeat' (first | with_reducible exact h | with_reducible exact StateKeeps.refl _ | with_reducible apply State.onColumn_keeps | with_reducible apply foldOver_keeps | simp (disch := rfl) only [StateKeeps.upd] | with_reducible refine StateKeeps.write ?_ rfl rfl | with_reducible refine StateKeeps.clear ?_ rfl rfl | refine StateKeeps.fold _ _ ?_ ?_ | intro _ _)

theorem State.launchCore_keeps {s x : State} (h : StateKeeps s x) (buildId : BitVec 32) (n : Nat) : StateKeeps s (State.launchCore buildId x n) := by
  unfold State.launchCore
  repeat' (first | with_reducible exact h | with_reducible exact StateKeeps.refl _ | with_reducible apply State.noteFill_keeps | with_reducible apply State.launch_keeps | with_reducible apply State.writePocket_keeps | with_reducible apply State.setCore_keeps)

theorem State.launchWindows_keeps {s x : State} (h : StateKeeps s x) : StateKeeps s (State.launchWindows x) := by
  unfold State.launchWindows
  repeat' (first | with_reducible exact h | with_reducible exact StateKeeps.refl _ | simp (disch := rfl) only [StateKeeps.upd])

theorem State.launchRings_keeps {s x : State} (h : StateKeeps s x) : StateKeeps s (State.launchRings x) := by
  unfold State.launchRings
  repeat' (first | with_reducible exact h | with_reducible exact StateKeeps.refl _ | with_reducible apply State.noNear_keeps | with_reducible apply State.launch_keeps | with_reducible apply State.atBoundary_keeps | with_reducible apply foldOver_keeps | with_reducible apply State.drainRing_keeps | simp (disch := rfl) only [StateKeeps.upd] | with_reducible refine StateKeeps.write ?_ rfl rfl | with_reducible refine StateKeeps.clear ?_ rfl rfl | refine StateKeeps.fold _ _ ?_ ?_ | intro _ _)

theorem State.launchSet_keeps {s x : State} (h : StateKeeps s x) (q : Nat) (d : Desc) (buildId : BitVec 32) (cores : List Nat) : StateKeeps s (State.launchSet x q d buildId cores) := by
  unfold State.launchSet
  repeat' (first | with_reducible exact h | with_reducible exact StateKeeps.refl _ | with_reducible apply State.launchCore_keeps | with_reducible apply State.launchWindows_keeps | with_reducible apply State.launchRings_keeps | with_reducible apply State.postEntry_keeps | with_reducible apply foldOver_keeps | simp (disch := rfl) only [StateKeeps.upd] | with_reducible refine StateKeeps.write ?_ rfl rfl | with_reducible refine StateKeeps.clear ?_ rfl rfl | refine StateKeeps.fold _ _ ?_ ?_ | intro _ _ | split)

theorem State.applyRegions_keeps {s x : State} (h : StateKeeps s x) : StateKeeps s (State.applyRegions x) := by
  unfold State.applyRegions
  repeat' (first | with_reducible exact h | with_reducible exact StateKeeps.refl _ | simp (disch := rfl) only [StateKeeps.upd])

theorem State.launchAfter_keeps {s x : State} (h : StateKeeps s x) (q : Nat) (d : Desc) (cores : List Nat) : StateKeeps s (State.launchAfter x q d cores) := by
  unfold State.launchAfter
  repeat' (first | with_reducible exact h | with_reducible exact StateKeeps.refl _ | with_reducible apply State.readHeaders_keeps | with_reducible apply State.launchSet_keeps | with_reducible apply State.complete_keeps | dsimp only | with_reducible refine StateKeeps.write ?_ rfl rfl | with_reducible refine StateKeeps.clear ?_ rfl rfl | split)

theorem State.launch_keeps {s x : State} (h : StateKeeps s x) (q : Nat) (d : Desc) (read : HostRead) : StateKeeps s (State.launch x q d read) := by
  unfold State.launch
  repeat' (first | with_reducible exact h | with_reducible exact StateKeeps.refl _ | with_reducible apply State.applyRegions_keeps | with_reducible apply State.launchAfter_keeps | with_reducible apply State.complete_keeps | dsimp only | with_reducible refine StateKeeps.write ?_ rfl rfl | with_reducible refine StateKeeps.clear ?_ rfl rfl | split)

theorem State.beginScrub_keeps {s x : State} (h : StateKeeps s x) (q : Nat) (d : Desc) (ps : List ScrubPart) : StateKeeps s (State.beginScrub x q d ps) := by
  unfold State.beginScrub
  repeat' (first | with_reducible exact h | with_reducible exact StateKeeps.refl _ | simp (disch := rfl) only [StateKeeps.upd])

theorem State.scrub_keeps {s x : State} (h : StateKeeps s x) (q : Nat) (d : Desc) : StateKeeps s (State.scrub x q d) := by
  unfold State.scrub
  repeat' (first | with_reducible exact h | with_reducible exact StateKeeps.refl _ | with_reducible apply State.beginScrub_keeps | with_reducible apply State.complete_keeps | dsimp only | with_reducible refine StateKeeps.write ?_ rfl rfl | with_reducible refine StateKeeps.clear ?_ rfl rfl | split)

theorem State.scrubEnd_keeps {s x : State} (h : StateKeeps s x) (wrote : HostWrite) : StateKeeps s (State.scrubEnd x wrote) := by
  unfold State.scrubEnd
  repeat' (first | with_reducible exact h | with_reducible exact StateKeeps.refl _ | with_reducible apply State.endScrub_keeps | simp (disch := rfl) only [StateKeeps.upd] | with_reducible refine StateKeeps.write ?_ rfl rfl | with_reducible refine StateKeeps.clear ?_ rfl rfl | split)

theorem State.hostWrites_keeps {s x : State} (h : StateKeeps s x) (d : Desc) (ws : List (Nat × List Byte)) (wrote : HostWrite) : StateKeeps s (State.hostWrites x d ws wrote) := by
  induction ws generalizing x d wrote with
  | nil =>
    unfold State.hostWrites
    repeat' (first | with_reducible exact h)
  | cons a r ih =>
    unfold State.hostWrites
    repeat' (first | with_reducible exact h | with_reducible apply ih | with_reducible exact StateKeeps.refl _ | with_reducible apply State.hostData_keeps)

theorem State.fingerprint_keeps {s x : State} (h : StateKeeps s x) (q : Nat) (d : Desc) (unstable : Bool) (wrote : HostWrite) : StateKeeps s (State.fingerprint x q d unstable wrote) := by
  unfold State.fingerprint
  repeat' (first | with_reducible exact h | with_reducible exact StateKeeps.refl _ | with_reducible apply State.computeFingerprint_keeps | with_reducible apply State.hostWrites_keeps | with_reducible apply State.complete_keeps)

theorem State.putTags_keeps {s x : State} (h : StateKeeps s x) (off : Nat) (bs : List Byte) : StateKeeps s (State.putTags x off bs) := by
  exact ⟨h.pending, h.mem, h.hostMem, fun k => wf_memWrite _ _ _ (h.tagBytes k)⟩

theorem State.tagDescriptor_keeps {s x : State} (h : StateKeeps s x) (q : Nat) (d : Desc) (read : HostRead) : StateKeeps s (State.tagDescriptor x q d read) := by
  unfold State.tagDescriptor
  repeat' (first | with_reducible exact h | with_reducible exact StateKeeps.refl _ | with_reducible apply State.putTags_keeps | with_reducible apply State.complete_keeps | dsimp only | with_reducible refine StateKeeps.write ?_ rfl rfl | with_reducible refine StateKeeps.clear ?_ rfl rfl | split)

theorem State.holdEnd_keeps {s x : State} (h : StateKeeps s x) (g : Nat) (cls : Nat) (loc : Nat) (detail : BitVec 48) : StateKeeps s (State.holdEnd x g cls loc detail) := by
  unfold State.holdEnd
  repeat' (first | with_reducible exact h | with_reducible exact StateKeeps.refl _ | with_reducible apply State.reach_keeps | with_reducible apply State.setLogSource_keeps | dsimp only | with_reducible refine StateKeeps.write ?_ rfl rfl | with_reducible refine StateKeeps.clear ?_ rfl rfl | with_reducible exact LocalKeeps.refl _ | with_reducible apply Local.reach_keeps | simp only [LocalKeeps.upd] | intro _ | split)

theorem State.holdoffEnd_keeps {s x : State} (h : StateKeeps s x) (name : EventName) (source : Nat) : StateKeeps s (State.holdoffEnd x name source) := by
  unfold State.holdoffEnd
  repeat' (first | with_reducible exact h | with_reducible exact StateKeeps.refl _ | with_reducible apply State.reach_keeps | with_reducible apply State.event_keeps | simp (disch := rfl) only [StateKeeps.upd] | with_reducible refine StateKeeps.write ?_ rfl rfl | with_reducible refine StateKeeps.clear ?_ rfl rfl | with_reducible exact LocalKeeps.refl _ | with_reducible apply Local.reach_keeps | simp only [LocalKeeps.upd] | intro _ | split)

theorem State.fprintRead_keeps {s x : State} (h : StateKeeps s x) (off : Option Nat) (unstable : Bool) : StateKeeps s (State.fprintRead x off unstable) := by
  unfold State.fprintRead
  repeat' (first | with_reducible exact h | with_reducible exact StateKeeps.refl _ | with_reducible apply State.computeFingerprint_keeps | with_reducible apply State.drewBytes_keeps | with_reducible apply State.answer_keeps | with_reducible apply State.command_keeps | dsimp only | with_reducible refine StateKeeps.write ?_ rfl rfl | with_reducible refine StateKeeps.clear ?_ rfl rfl | intro _ | split)

theorem State.sampleStrap_keeps {s x : State} (h : StateKeeps s x) (strap : Bool) : StateKeeps s (State.sampleStrap x strap) := by
  unfold State.sampleStrap
  repeat' (first | with_reducible exact h | with_reducible exact StateKeeps.refl _ | simp (disch := rfl) only [StateKeeps.upd])

theorem State.tagUnlock_keeps {s x : State} (h : StateKeeps s x) (strap : Bool) : StateKeeps s (State.tagUnlock x strap) := by
  unfold State.tagUnlock
  repeat' (first | with_reducible exact h | with_reducible exact StateKeeps.refl _ | with_reducible apply State.sampleStrap_keeps | with_reducible apply State.event_keeps | with_reducible apply State.command_keeps | simp (disch := rfl) only [StateKeeps.upd] | with_reducible refine StateKeeps.write ?_ rfl rfl | with_reducible refine StateKeeps.clear ?_ rfl rfl | intro _ | split)

theorem State.repairRow_keeps {s x : State} (h : StateKeeps s x) (k : Nat) (slot : Nat) (row : Nat) : StateKeeps s (State.repairRow x k slot row) := by
  unfold State.repairRow
  repeat' (first | with_reducible exact h | with_reducible exact StateKeeps.refl _ | with_reducible apply foldOver_keeps | dsimp only | with_reducible refine StateKeeps.write ?_ rfl rfl | with_reducible refine StateKeeps.clear ?_ rfl rfl | refine StateKeeps.fold _ _ ?_ ?_ | intro _ _ | split)

theorem State.chainEffect_keeps {s x : State} (h : StateKeeps s x) (a : ChainAccess) : StateKeeps s (State.chainEffect x a) := by
  cases a
  case repairLogClear => exact State.setColumn_keeps h _ _
  case dramRepair =>
    unfold State.chainEffect
    dsimp only
    split
    · exact State.setColumn_keeps h _ _
    · exact h
  case packageRepair k slot row done =>
    cases done
    · exact h
    · exact State.repairRow_keeps h _ _ _
  case scan => exact ⟨h.pending, h.mem, h.hostMem, h.tagBytes⟩
  all_goals exact h

theorem State.chainAccess_keeps {s x : State} (h : StateKeeps s x) (a : ChainAccess) : StateKeeps s (State.chainAccess x a) := by
  unfold State.chainAccess
  repeat' (first | with_reducible exact h | with_reducible exact StateKeeps.refl _ | with_reducible apply State.chainEffect_keeps | with_reducible apply State.drew_keeps | with_reducible apply State.answer_keeps | simp (disch := rfl) only [StateKeeps.upd] | with_reducible refine StateKeeps.write ?_ rfl rfl | with_reducible refine StateKeeps.clear ?_ rfl rfl | split)

theorem State.spdm_keeps {s x : State} (h : StateKeeps s x) (t : Transport) (req : Nat) (data : List Byte) : StateKeeps s (State.spdm x t req data) := by
  unfold State.spdm
  repeat' (first | with_reducible exact h | with_reducible exact StateKeeps.refl _ | with_reducible apply State.answer_keeps | simp (disch := rfl) only [StateKeeps.upd] | with_reducible refine StateKeeps.write ?_ rfl rfl | with_reducible refine StateKeeps.clear ?_ rfl rfl | split)

theorem State.setSpdm_keeps {s x : State} (h : StateKeeps s x) (t : Transport) (c : Spdm) : StateKeeps s (State.setSpdm x t c) := by
  unfold State.setSpdm
  repeat' (first | with_reducible exact h | with_reducible exact StateKeeps.refl _ | simp (disch := rfl) only [StateKeeps.upd] | with_reducible refine StateKeeps.write ?_ rfl rfl | with_reducible refine StateKeeps.clear ?_ rfl rfl | split)

theorem State.onSlot_keeps {s x : State} (h : StateKeeps s x) (t : Transport) (req : Nat) (slot : Nat) (data : List Byte) : StateKeeps s (State.onSlot x t req slot data) := by
  unfold State.onSlot
  repeat' (first | with_reducible exact h | with_reducible exact StateKeeps.refl _ | with_reducible apply State.spdm_keeps | with_reducible apply State.answer_keeps | simp (disch := rfl) only [StateKeeps.upd] | with_reducible refine StateKeeps.write ?_ rfl rfl | with_reducible refine StateKeeps.clear ?_ rfl rfl | split)

theorem State.issueOn_keeps {s x : State} (h : StateKeeps s x) (n : CoreId) (has : Slots → Bool) : StateKeeps s (State.issueOn x n has) := by
  unfold State.issueOn
  repeat' (first | with_reducible exact h | with_reducible exact StateKeeps.refl _ | with_reducible apply State.onCore_keeps | with_reducible apply State.checkSet_keeps | simp (disch := rfl) only [StateKeeps.upd] | with_reducible refine StateKeeps.write ?_ rfl rfl | with_reducible refine StateKeeps.clear ?_ rfl rfl | with_reducible exact LocalKeeps.refl _ | with_reducible apply Local.issue_keeps | simp only [LocalKeeps.upd] | intro _ | split)

theorem State.scoreTurns_keeps {s x : State} (h : StateKeeps s x) (n : Nat) (k : Nat) (t : WalkTurns) (us : List MemUnit) : StateKeeps s (State.scoreTurns x n k t us) := by
  unfold State.scoreTurns
  repeat' (first | with_reducible exact h | with_reducible exact StateKeeps.refl _ | with_reducible apply State.updCuff_keeps | with_reducible apply foldOver_keeps | with_reducible apply State.updRing_keeps | dsimp only | with_reducible refine StateKeeps.write ?_ rfl rfl | with_reducible refine StateKeeps.clear ?_ rfl rfl | refine StateKeeps.fold _ _ ?_ ?_ | intro _ _ | split)

theorem State.scoreCommand_keeps {s x : State} (h : StateKeeps s x) (n : Nat) (k : Nat) : StateKeeps s (State.scoreCommand x n k) := by
  unfold State.scoreCommand
  repeat' (first | with_reducible exact h | with_reducible exact StateKeeps.refl _ | with_reducible apply State.capRead_keeps | with_reducible apply State.putLocal_keeps | with_reducible apply foldOver_keeps | with_reducible apply State.scoreTurns_keeps | dsimp only | with_reducible refine StateKeeps.write ?_ rfl rfl | with_reducible refine StateKeeps.clear ?_ rfl rfl | with_reducible exact LocalKeeps.refl _ | with_reducible apply Local.attUpd_keeps | with_reducible apply Local.pump_keeps | with_reducible apply Local.walkScore_keeps | simp only [LocalKeeps.upd] | intro _ | refine StateKeeps.fold _ _ ?_ ?_ | intro _ _ | split)

theorem State.beatWindow_keeps {s x : State} (h : StateKeeps s x) (n : Nat) (beats : Nat) : StateKeeps s (State.beatWindow x n beats) := by
  unfold State.beatWindow
  repeat' (first | with_reducible exact h | with_reducible exact StateKeeps.refl _ | with_reducible apply State.setCore_keeps | with_reducible apply State.reach_keeps)

end Sys2Proof.Machine
end

