-- ==== Sys2Proof/Laws/KeepsExec.lean ====
section
/-!
SUPPORT. Every command keeps the queue and the canonical form of each memory: one lemma per meaning, in the order of the files.
-/

namespace Sys2Proof.Machine

theorem execSensorSample_keeps (key : Nat) (reading : Option Int) {s t : State} (h : execSensorSample key reading s = .next t) : StateKeeps s t := by
  unfold execSensorSample at h
  obtain rfl := Host.Outcome.next.inj h
  repeat' (first | with_reducible exact StateKeeps.refl _ | with_reducible apply State.sample_keeps)

theorem execLimitExcursion_keeps (watts : Nat) {s t : State} (h : execLimitExcursion watts s = .next t) : StateKeeps s t := by
  unfold execLimitExcursion at h
  obtain rfl := Host.Outcome.next.inj h
  repeat' (first | with_reducible exact StateKeeps.refl _ | with_reducible apply State.limitExcursion_keeps)

theorem execThermalCapCompute_keeps (powers : List Nat) (watts : Nat) {s t : State} (h : execThermalCapCompute powers watts s = .next t) : StateKeeps s t := by
  unfold execThermalCapCompute at h
  obtain rfl := Host.Outcome.next.inj h
  repeat' (first | with_reducible exact StateKeeps.refl _ | with_reducible apply State.capCompute_keeps)

theorem execFlowSample_keeps (reading : Option Nat) {s t : State} (h : execFlowSample reading s = .next t) : StateKeeps s t := by
  unfold execFlowSample at h
  obtain rfl := Host.Outcome.next.inj h
  repeat' (first | with_reducible exact StateKeeps.refl _ | with_reducible apply State.flowSample_keeps)

theorem execComparatorTrip_keeps (diode : Fin 36) (peak : BitVec 8) (collarMs : Nat) {s t : State} (h : execComparatorTrip diode peak collarMs s = .next t) : StateKeeps s t := by
  unfold execComparatorTrip at h
  obtain rfl := Host.Outcome.next.inj h
  repeat' (first | with_reducible exact StateKeeps.refl _ | with_reducible apply State.trip_keeps)

theorem execThermalRestart_keeps (collarMs : Nat) {s t : State} (h : execThermalRestart collarMs s = .next t) : StateKeeps s t := by
  unfold execThermalRestart at h
  obtain rfl := Host.Outcome.next.inj h
  repeat' (first | with_reducible exact StateKeeps.refl _ | with_reducible apply State.thermalRestart_keeps)

theorem execCycleSample_keeps {s t : State} (h : execCycleSample s = .next t) : StateKeeps s t := by
  unfold execCycleSample at h
  obtain rfl := Host.Outcome.next.inj h
  repeat' (first | with_reducible exact StateKeeps.refl _ | with_reducible apply State.cycleSample_keeps)

theorem execInputExcursion_keeps {s t : State} (h : execInputExcursion s = .next t) : StateKeeps s t := by
  unfold execInputExcursion at h
  obtain rfl := Host.Outcome.next.inj h
  repeat' (first | with_reducible exact StateKeeps.refl _ | with_reducible apply State.inputExcursion_keeps)

theorem execInputFaultRecovery_keeps {s t : State} (h : execInputFaultRecovery s = .next t) : StateKeeps s t := by
  unfold execInputFaultRecovery at h
  obtain rfl := Host.Outcome.next.inj h
  repeat' (first | with_reducible exact StateKeeps.refl _ | simp (disch := rfl) only [StateKeeps.upd])

theorem execFeedSwitchTrip_keeps (p : PanelId) {s t : State} (h : execFeedSwitchTrip p s = .next t) : StateKeeps s t := by
  unfold execFeedSwitchTrip at h
  obtain rfl := Host.Outcome.next.inj h
  repeat' (first | with_reducible exact StateKeeps.refl _ | with_reducible apply State.cyclePanel_keeps)

theorem execUndervoltageGate_keeps (n : CoreId) (mv : BitVec 10) {s t : State} (h : execUndervoltageGate n mv s = .next t) : StateKeeps s t := by
  unfold execUndervoltageGate at h
  obtain rfl := Host.Outcome.next.inj h
  repeat' (first | with_reducible exact StateKeeps.refl _ | with_reducible apply State.setCore_keeps | simp (disch := rfl) only [StateKeeps.upd] | intro _ | split)

theorem execGateTimeout_keeps (n : CoreId) (selfTest : Bool) {s t : State} (h : execGateTimeout n selfTest s = .next t) : StateKeeps s t := by
  unfold execGateTimeout at h
  obtain rfl := Host.Outcome.next.inj h
  repeat' (first | with_reducible exact StateKeeps.refl _ | with_reducible apply State.reach_keeps | with_reducible apply State.darken_keeps | with_reducible apply Local.reach_keeps | simp (disch := rfl) only [StateKeeps.upd] | intro _ | split)

theorem execTileFail_keeps (site : TileSite) (selfTest : Bool) {s t : State} (h : execTileFail site selfTest s = .next t) : StateKeeps s t := by
  unfold execTileFail at h
  obtain rfl := Host.Outcome.next.inj h
  repeat' (first | with_reducible exact StateKeeps.refl _ | with_reducible apply State.tileFail_keeps)

theorem execCapPeriod_keeps (watts : BitVec 16) (volts : BitVec 16) {s t : State} (h : execCapPeriod watts volts s = .next t) : StateKeeps s t := by
  unfold execCapPeriod at h
  obtain rfl := Host.Outcome.next.inj h
  repeat' (first | with_reducible exact StateKeeps.refl _ | with_reducible apply State.capPeriod_keeps | simp (disch := rfl) only [StateKeeps.upd] | intro _ | split)

theorem execBumpCheck_keeps (drops : List BumpDrop) {s t : State} (h : execBumpCheck drops s = .next t) : StateKeeps s t := by
  unfold execBumpCheck at h
  obtain rfl := Host.Outcome.next.inj h
  repeat' (first | with_reducible exact StateKeeps.refl _ | with_reducible apply State.bumpCheck_keeps | simp (disch := rfl) only [StateKeeps.upd] | intro _ | split)

theorem execPowerOn_keeps (source : PowerSource) {s t : State} (h : execPowerOn source s = .next t) : StateKeeps s t := by
  unfold execPowerOn at h
  obtain rfl := Host.Outcome.next.inj h
  repeat' (first | with_reducible exact StateKeeps.refl _ | with_reducible apply State.powerOn_keeps)

theorem execLossOfStandbyPower_keeps {s t : State} (h : execLossOfStandbyPower s = .next t) : StateKeeps s t := by
  unfold execLossOfStandbyPower at h
  obtain rfl := Host.Outcome.next.inj h
  repeat' (first | with_reducible exact StateKeeps.refl _ | with_reducible apply State.loseStandby_keeps)

theorem execHostReset_keeps (kind : HostResetKind) {s t : State} (h : execHostReset kind s = .next t) : StateKeeps s t := by
  unfold execHostReset at h
  obtain rfl := Host.Outcome.next.inj h
  repeat' (first | with_reducible exact StateKeeps.refl _ | with_reducible apply State.hostReset_keeps)

theorem execFunctionLevelReset_keeps {s t : State} (h : execFunctionLevelReset s = .next t) : StateKeeps s t := by
  unfold execFunctionLevelReset at h
  obtain rfl := Host.Outcome.next.inj h
  repeat' (first | with_reducible exact StateKeeps.refl _ | with_reducible apply State.hostResetBase_keeps)

theorem execPerstDeassertion_keeps {s t : State} (h : execPerstDeassertion s = .next t) : StateKeeps s t := by
  unfold execPerstDeassertion at h
  obtain rfl := Host.Outcome.next.inj h
  repeat' (first | with_reducible exact StateKeeps.refl _ | with_reducible apply State.wake_keeps | simp (disch := rfl) only [StateKeeps.upd])

theorem execPcieLinkTraining_keeps (lanes16 : Bool) (lanes8 : Bool) (lanes4 : Bool) (rate : Fin 7) {s t : State} (h : execPcieLinkTraining lanes16 lanes8 lanes4 rate s = .next t) : StateKeeps s t := by
  unfold execPcieLinkTraining at h
  obtain rfl := Host.Outcome.next.inj h
  repeat' (first | with_reducible exact StateKeeps.refl _ | with_reducible apply State.linkTraining_keeps)

theorem execColdReset_keeps {s t : State} (h : execColdReset s = .next t) : StateKeeps s t := by
  unfold execColdReset at h
  obtain rfl := Host.Outcome.next.inj h
  repeat' (first | with_reducible exact StateKeeps.refl _ | with_reducible apply State.coldReset_keeps | with_reducible apply State.command_keeps | simp (disch := rfl) only [StateKeeps.upd] | intro _)

theorem execPanelReset_keeps (p : PanelId) {s t : State} (h : execPanelReset p s = .next t) : StateKeeps s t := by
  unfold execPanelReset at h
  obtain rfl := Host.Outcome.next.inj h
  repeat' (first | with_reducible exact StateKeeps.refl _ | with_reducible apply State.resetPanel_keeps | with_reducible apply State.command_keeps | simp (disch := rfl) only [StateKeeps.upd] | intro _)

theorem execPanelCycle_keeps (p : PanelId) {s t : State} (h : execPanelCycle p s = .next t) : StateKeeps s t := by
  unfold execPanelCycle at h
  obtain rfl := Host.Outcome.next.inj h
  repeat' (first | with_reducible exact StateKeeps.refl _ | with_reducible apply State.cyclePanel_keeps | with_reducible apply State.command_keeps | simp (disch := rfl) only [StateKeeps.upd] | intro _)

theorem execWake_keeps {s t : State} (h : execWake s = .next t) : StateKeeps s t := by
  unfold execWake at h
  obtain rfl := Host.Outcome.next.inj h
  repeat' (first | with_reducible exact StateKeeps.refl _ | with_reducible apply State.wake_keeps | with_reducible apply State.command_keeps | simp (disch := rfl) only [StateKeeps.upd] | intro _)

theorem execRestart_keeps {s t : State} (h : execRestart s = .next t) : StateKeeps s t := by
  unfold execRestart at h
  obtain rfl := Host.Outcome.next.inj h
  repeat' (first | with_reducible exact StateKeeps.refl _ | with_reducible apply State.command_keeps | simp (disch := rfl) only [StateKeeps.upd] | intro _)

theorem execRecalibrate_keeps (scope : BitVec 2) (drops : List BumpDrop) {s t : State} (h : execRecalibrate scope drops s = .next t) : StateKeeps s t := by
  unfold execRecalibrate at h
  obtain rfl := Host.Outcome.next.inj h
  repeat' (first | with_reducible exact StateKeeps.refl _ | with_reducible apply State.recalibrate_keeps | with_reducible apply State.command_keeps | simp (disch := rfl) only [StateKeeps.upd] | intro _)

theorem execPowerStageEnable_keeps (report : StartupReport) {s t : State} (h : execPowerStageEnable report s = .next t) : StateKeeps s t := by
  unfold execPowerStageEnable at h
  obtain rfl := Host.Outcome.next.inj h
  repeat' (first | with_reducible exact StateKeeps.refl _ | with_reducible apply Local.report_keeps | with_reducible apply State.enableStage_keeps)

theorem execData_keeps (f : SeamFlit) {s t : State} (h : execData f s = .next t) : StateKeeps s t := by
  unfold execData at h
  obtain rfl := Host.Outcome.next.inj h
  exact State.flit_keeps (.refl _) _ _ _ fun t => .refl t

theorem execIdle_keeps (f : SeamFlit) {s t : State} (h : execIdle f s = .next t) : StateKeeps s t := by
  unfold execIdle at h
  obtain rfl := Host.Outcome.next.inj h
  exact State.flit_keeps (.refl _) _ _ _ fun t => .refl t

theorem execAck_keeps (f : SeamFlit) {s t : State} (h : execAck f s = .next t) : StateKeeps s t := by
  unfold execAck at h
  obtain rfl := Host.Outcome.next.inj h
  exact State.flit_keeps (.refl _) _ _ _ fun t => .refl t

theorem execNak_keeps (f : SeamFlit) {s t : State} (h : execNak f s = .next t) : StateKeeps s t := by
  unfold execNak at h
  obtain rfl := Host.Outcome.next.inj h
  repeat' (first | with_reducible exact StateKeeps.refl _ | with_reducible apply State.flit_keeps | with_reducible apply State.seamReplay_keeps | simp (disch := rfl) only [StateKeeps.upd] | intro _)

theorem execTimeSync_keeps (f : SeamFlit) {s t : State} (h : execTimeSync f s = .next t) : StateKeeps s t := by
  unfold execTimeSync at h
  obtain rfl := Host.Outcome.next.inj h
  repeat' (first | with_reducible exact StateKeeps.refl _ | with_reducible apply State.syncPanel_keeps | with_reducible apply State.flit_keeps | simp (disch := rfl) only [StateKeeps.upd] | intro _ | split)

theorem execTrain_keeps (f : SeamFlit) {s t : State} (h : execTrain f s = .next t) : StateKeeps s t := by
  unfold execTrain at h
  obtain rfl := Host.Outcome.next.inj h
  exact State.flit_keeps (.refl _) _ _ _ fun t => .refl t

theorem execSeamPortRetire_keeps (port : PortId) (module : Fin 16) (cause : RetireCause) {s t : State} (h : execSeamPortRetire port module cause s = .next t) : StateKeeps s t := by
  unfold execSeamPortRetire at h
  obtain rfl := Host.Outcome.next.inj h
  repeat' (first | with_reducible exact StateKeeps.refl _ | with_reducible apply State.retirePort_keeps | with_reducible apply State.laneTest_keeps | simp (disch := rfl) only [StateKeeps.upd] | intro _ | split)

theorem execStrobeLoss_keeps (port : PortId) (module : Fin 16) {s t : State} (h : execStrobeLoss port module s = .next t) : StateKeeps s t := by
  unfold execStrobeLoss at h
  obtain rfl := Host.Outcome.next.inj h
  repeat' (first | with_reducible exact StateKeeps.refl _ | with_reducible apply State.retirePort_keeps)

theorem execSeamPllLoss_keeps (p : PanelId) {s t : State} (h : execSeamPllLoss p s = .next t) : StateKeeps s t := by
  unfold execSeamPllLoss at h
  obtain rfl := Host.Outcome.next.inj h
  repeat' (first | with_reducible exact StateKeeps.refl _ | with_reducible apply State.isolate_keeps)

theorem execPanelRejoin_keeps (p : PanelId) (port0 : List PortTraining) (port1 : List PortTraining) (level : BitVec 2) (failed : List (CoreId × Bool)) {s t : State} (h : execPanelRejoin p port0 port1 level failed s = .next t) : StateKeeps s t := by
  unfold execPanelRejoin at h
  obtain rfl := Host.Outcome.next.inj h
  repeat' (first | with_reducible exact StateKeeps.refl _ | with_reducible apply State.rejoin_keeps | simp (disch := rfl) only [StateKeeps.upd] | intro _ | split)

theorem execFenceMarker_keeps (p : PanelId) {s t : State} (h : execFenceMarker p s = .next t) : StateKeeps s t := by
  unfold execFenceMarker at h
  obtain rfl := Host.Outcome.next.inj h
  repeat' (first | with_reducible exact StateKeeps.refl _ | with_reducible apply State.fenceMarker_keeps)

theorem execRefLoss_keeps {s t : State} (h : execRefLoss s = .next t) : StateKeeps s t := by
  unfold execRefLoss at h
  obtain rfl := Host.Outcome.next.inj h
  repeat' (first | with_reducible exact StateKeeps.refl _ | with_reducible apply State.refLoss_keeps)

theorem execPackageTempRead_keeps (k : CuffId) (pkg : Fin 5) (reading : TempField) {s t : State} (h : execPackageTempRead k pkg reading s = .next t) : StateKeeps s t := by
  unfold execPackageTempRead at h
  obtain rfl := Host.Outcome.next.inj h
  repeat' (first | with_reducible exact StateKeeps.refl _ | with_reducible apply State.coolChannels_keeps | with_reducible apply State.packageTemp_keeps | simp (disch := rfl) only [StateKeeps.upd] | intro _ | split)

theorem execCuffLinkFlit_keeps (k : CuffId) (flit : LinkFlit) (crc : Word) {s t : State} (h : execCuffLinkFlit k flit crc s = .next t) : StateKeeps s t := by
  unfold execCuffLinkFlit at h
  obtain rfl := Host.Outcome.next.inj h
  repeat' (first | with_reducible exact StateKeeps.refl _ | with_reducible apply State.linkFlit_keeps)

theorem execLinkLaneTest_keeps (k : CuffId) (low : Bool) (high : Bool) {s t : State} (h : execLinkLaneTest k low high s = .next t) : StateKeeps s t := by
  unfold execLinkLaneTest at h
  obtain rfl := Host.Outcome.next.inj h
  repeat' (first | with_reducible exact StateKeeps.refl _ | with_reducible apply State.laneTest_keeps | with_reducible apply State.nearGone_keeps | simp (disch := rfl) only [StateKeeps.upd] | intro _ | split)

theorem execRetrainTrigger_keeps (k : CuffId) (slot : Fin 16) (drift : Bool) {s t : State} (h : execRetrainTrigger k slot drift s = .next t) : StateKeeps s t := by
  unfold execRetrainTrigger at h
  obtain rfl := Host.Outcome.next.inj h
  repeat' (first | with_reducible exact StateKeeps.refl _ | with_reducible apply State.retrainTrigger_keeps)

theorem execRetrainStart_keeps (k : CuffId) (passes : Bool) {s t : State} (h : execRetrainStart k passes s = .next t) : StateKeeps s t := by
  unfold execRetrainStart at h
  obtain rfl := Host.Outcome.next.inj h
  repeat' (first | with_reducible exact StateKeeps.refl _ | with_reducible apply State.retrainStart_keeps)

theorem execChannelDead_keeps (k : CuffId) (slot : Fin 16) {s t : State} (h : execChannelDead k slot s = .next t) : StateKeeps s t := by
  unfold execChannelDead at h
  obtain rfl := Host.Outcome.next.inj h
  repeat' (first | with_reducible exact StateKeeps.refl _ | with_reducible apply State.channelDies_keeps)

theorem execNearOpCommand_keeps (k : CuffId) {s t : State} (h : execNearOpCommand k s = .next t) : StateKeeps s t := by
  unfold execNearOpCommand at h
  obtain rfl := Host.Outcome.next.inj h
  repeat' (first | with_reducible exact StateKeeps.refl _ | with_reducible apply State.nearCommand_keeps | simp (disch := rfl) only [StateKeeps.upd] | intro _ | split)

theorem execCuffBusTransfer_keeps (k : CuffId) (resends : Nat) {s t : State} (h : execCuffBusTransfer k resends s = .next t) : StateKeeps s t := by
  unfold execCuffBusTransfer at h
  obtain rfl := Host.Outcome.next.inj h
  repeat' (first | with_reducible exact StateKeeps.refl _ | with_reducible apply State.busTransfer_keeps)

theorem execYkExpertEnable_keeps (path : Path) (value : Word) {s t : State} (h : execYkExpertEnable path value s = .next t) : StateKeeps s t := by
  unfold execYkExpertEnable at h
  obtain rfl := Host.Outcome.next.inj h
  repeat' (first | with_reducible exact StateKeeps.refl _ | with_reducible apply State.setRegister_keeps)

theorem execCoRosterFault_keeps (path : Path) (n : CoreId) (value : Word) {s t : State} (h : execCoRosterFault path n value s = .next t) : StateKeeps s t := by
  unfold execCoRosterFault at h
  obtain rfl := Host.Outcome.next.inj h
  repeat' (first | with_reducible exact StateKeeps.refl _ | with_reducible apply State.setRegister_keeps)

theorem execYkDmaStatus_keeps (path : Path) (value : Word) {s t : State} (h : execYkDmaStatus path value s = .next t) : StateKeeps s t := by
  unfold execYkDmaStatus at h
  obtain rfl := Host.Outcome.next.inj h
  repeat' (first | with_reducible exact StateKeeps.refl _ | with_reducible apply State.setRegister_keeps)

theorem execCfRetrain_keeps (path : Path) (k : CuffId) (value : Word) {s t : State} (h : execCfRetrain path k value s = .next t) : StateKeeps s t := by
  unfold execCfRetrain at h
  obtain rfl := Host.Outcome.next.inj h
  repeat' (first | with_reducible exact StateKeeps.refl _ | with_reducible apply State.setRegister_keeps)

theorem execYkPanelRejoin_keeps (path : Path) (value : Word) (env : WriteEnv) {s t : State} (h : execYkPanelRejoin path value env s = .next t) : StateKeeps s t := by
  unfold execYkPanelRejoin at h
  obtain rfl := Host.Outcome.next.inj h
  repeat' (first | with_reducible exact StateKeeps.refl _ | with_reducible apply State.setupWrite_keeps)

theorem execYkCoreDarken_keeps (path : Path) (value : Word) (env : WriteEnv) {s t : State} (h : execYkCoreDarken path value env s = .next t) : StateKeeps s t := by
  unfold execYkCoreDarken at h
  obtain rfl := Host.Outcome.next.inj h
  repeat' (first | with_reducible exact StateKeeps.refl _ | with_reducible apply State.setupWrite_keeps)

theorem execPwFold_keeps (path : Path) (value : Word) {s t : State} (h : execPwFold path value s = .next t) : StateKeeps s t := by
  unfold execPwFold at h
  obtain rfl := Host.Outcome.next.inj h
  repeat' (first | with_reducible exact StateKeeps.refl _ | with_reducible apply State.setRegister_keeps)

theorem execResetPanel_keeps (path : Path) (value : Word) {s t : State} (h : execResetPanel path value s = .next t) : StateKeeps s t := by
  unfold execResetPanel at h
  obtain rfl := Host.Outcome.next.inj h
  repeat' (first | with_reducible exact StateKeeps.refl _ | with_reducible apply State.setRegister_keeps)

theorem execCyclePanel_keeps (path : Path) (value : Word) {s t : State} (h : execCyclePanel path value s = .next t) : StateKeeps s t := by
  unfold execCyclePanel at h
  obtain rfl := Host.Outcome.next.inj h
  repeat' (first | with_reducible exact StateKeeps.refl _ | with_reducible apply State.setRegister_keeps)

theorem execCoMinVolt_keeps (path : Path) (n : CoreId) (value : Word) {s t : State} (h : execCoMinVolt path n value s = .next t) : StateKeeps s t := by
  unfold execCoMinVolt at h
  obtain rfl := Host.Outcome.next.inj h
  repeat' (first | with_reducible exact StateKeeps.refl _ | with_reducible apply State.setRegister_keeps)

theorem execClTagCtrl_keeps (path : Path) (value : Word) {s t : State} (h : execClTagCtrl path value s = .next t) : StateKeeps s t := by
  unfold execClTagCtrl at h
  obtain rfl := Host.Outcome.next.inj h
  repeat' (first | with_reducible exact StateKeeps.refl _ | with_reducible apply State.setRegister_keeps)

theorem execSqEnable_keeps (path : Path) (q : RingQ) (value : Word) {s t : State} (h : execSqEnable path q value s = .next t) : StateKeeps s t := by
  unfold execSqEnable at h
  obtain rfl := Host.Outcome.next.inj h
  repeat' (first | with_reducible exact StateKeeps.refl _ | with_reducible apply State.setRegister_keeps)

theorem execSqResume_keeps (path : Path) (q : RingQ) (value : Word) {s t : State} (h : execSqResume path q value s = .next t) : StateKeeps s t := by
  unfold execSqResume at h
  obtain rfl := Host.Outcome.next.inj h
  repeat' (first | with_reducible exact StateKeeps.refl _ | with_reducible apply State.setRegister_keeps)

theorem execCqEnable_keeps (path : Path) (q : RingQ) (value : Word) {s t : State} (h : execCqEnable path q value s = .next t) : StateKeeps s t := by
  unfold execCqEnable at h
  obtain rfl := Host.Outcome.next.inj h
  repeat' (first | with_reducible exact StateKeeps.refl _ | with_reducible apply State.setRegister_keeps)

theorem execLogEnable_keeps (path : Path) (value : Word) {s t : State} (h : execLogEnable path value s = .next t) : StateKeeps s t := by
  unfold execLogEnable at h
  obtain rfl := Host.Outcome.next.inj h
  repeat' (first | with_reducible exact StateKeeps.refl _ | with_reducible apply State.setRegister_keeps)

theorem execYkLogHead_keeps (path : Path) (value : Word) {s t : State} (h : execYkLogHead path value s = .next t) : StateKeeps s t := by
  unfold execYkLogHead at h
  obtain rfl := Host.Outcome.next.inj h
  repeat' (first | with_reducible exact StateKeeps.refl _ | with_reducible apply State.setRegister_keeps)

theorem execYkBar4Window_keeps (path : Path) (value : Word) {s t : State} (h : execYkBar4Window path value s = .next t) : StateKeeps s t := by
  unfold execYkBar4Window at h
  obtain rfl := Host.Outcome.next.inj h
  repeat' (first | with_reducible exact StateKeeps.refl _ | with_reducible apply State.setRegister_keeps)

theorem execYkTimebaseLo_keeps (path : Path) {s t : State} (h : execYkTimebaseLo path s = .next t) : StateKeeps s t := by
  unfold execYkTimebaseLo at h
  obtain rfl := Host.Outcome.next.inj h
  repeat' (first | with_reducible exact StateKeeps.refl _ | with_reducible apply State.getRegister_keeps)

theorem execCoBeatCountLo_keeps (path : Path) (n : CoreId) {s t : State} (h : execCoBeatCountLo path n s = .next t) : StateKeeps s t := by
  unfold execCoBeatCountLo at h
  obtain rfl := Host.Outcome.next.inj h
  repeat' (first | with_reducible exact StateKeeps.refl _ | with_reducible apply State.getRegister_keeps)

theorem execCoMinVoltNsLo_keeps (path : Path) (n : CoreId) {s t : State} (h : execCoMinVoltNsLo path n s = .next t) : StateKeeps s t := by
  unfold execCoMinVoltNsLo at h
  obtain rfl := Host.Outcome.next.inj h
  repeat' (first | with_reducible exact StateKeeps.refl _ | with_reducible apply State.getRegister_keeps)

theorem execYkFprint0_keeps (path : Path) {s t : State} (h : execYkFprint0 path s = .next t) : StateKeeps s t := by
  unfold execYkFprint0 at h
  obtain rfl := Host.Outcome.next.inj h
  repeat' (first | with_reducible exact StateKeeps.refl _ | with_reducible apply State.getRegister_keeps)

theorem execCoRosterRegion_keeps (path : Path) (n : CoreId) (value : Word) {s t : State} (h : execCoRosterRegion path n value s = .next t) : StateKeeps s t := by
  unfold execCoRosterRegion at h
  obtain rfl := Host.Outcome.next.inj h
  repeat' (first | with_reducible exact StateKeeps.refl _ | with_reducible apply State.setRegister_keeps)

theorem execCoCreditWin_keeps (path : Path) (n : CoreId) (w : Fin 16) (value : Word) {s t : State} (h : execCoCreditWin path n w value s = .next t) : StateKeeps s t := by
  unfold execCoCreditWin at h
  obtain rfl := Host.Outcome.next.inj h
  repeat' (first | with_reducible exact StateKeeps.refl _ | with_reducible apply State.setRegister_keeps)

theorem execSetupRegisterWrite_keeps (path : Path) (off : BitVec 28) (width : Nat) (value : DWord) (env : WriteEnv) {s t : State} (h : execSetupRegisterWrite path off width value env s = .next t) : StateKeeps s t := by
  unfold execSetupRegisterWrite at h
  obtain rfl := Host.Outcome.next.inj h
  repeat' (first | with_reducible exact StateKeeps.refl _ | with_reducible apply State.setupWrite_keeps)

theorem execSetupRegisterRead_keeps (path : Path) (off : BitVec 28) (width : Nat) {s t : State} (h : execSetupRegisterRead path off width s = .next t) : StateKeeps s t := by
  unfold execSetupRegisterRead at h
  obtain rfl := Host.Outcome.next.inj h
  repeat' (first | with_reducible exact StateKeeps.refl _ | with_reducible apply State.setupRead_keeps)

theorem execRegRead_keeps (off : BitVec 28) {s t : State} (h : execRegRead off s = .next t) : StateKeeps s t := by
  unfold execRegRead at h
  obtain rfl := Host.Outcome.next.inj h
  repeat' (first | with_reducible exact StateKeeps.refl _ | with_reducible apply State.commandRead_keeps)

theorem execRegWrite_keeps (off : BitVec 28) (value : Word) (env : WriteEnv) {s t : State} (h : execRegWrite off value env s = .next t) : StateKeeps s t := by
  unfold execRegWrite at h
  obtain rfl := Host.Outcome.next.inj h
  repeat' (first | with_reducible exact StateKeeps.refl _ | with_reducible apply State.commandWrite_keeps)

theorem execConfigurationRequest_keeps (off : BitVec 12) (write : Option Word) {s t : State} (h : execConfigurationRequest off write s = .next t) : StateKeeps s t := by
  unfold execConfigurationRequest at h
  obtain rfl := Host.Outcome.next.inj h
  repeat' (first | with_reducible exact StateKeeps.refl _ | with_reducible apply State.configRequest_keeps)

theorem execBar4Read_keeps (off : Nat) (len : Nat) {s t : State} (h : execBar4Read off len s = .next t) : StateKeeps s t := by
  unfold execBar4Read at h
  obtain rfl := Host.Outcome.next.inj h
  repeat' (first | with_reducible exact StateKeeps.refl _ | with_reducible apply State.bar4Access_keeps)

theorem execBar4Write_keeps (off : Nat) (bytes : List Byte) (poisoned : Bool) (env : WriteEnv) {s t : State} (h : execBar4Write off bytes poisoned env s = .next t) : StateKeeps s t := by
  unfold execBar4Write at h
  obtain rfl := Host.Outcome.next.inj h
  repeat' (first | with_reducible exact StateKeeps.refl _ | with_reducible apply State.bar4Access_keeps)

theorem execBar4Timeout_keeps {s t : State} (h : execBar4Timeout s = .next t) : StateKeeps s t := by
  unfold execBar4Timeout at h
  obtain rfl := Host.Outcome.next.inj h
  repeat' (first | with_reducible exact StateKeeps.refl _ | with_reducible apply State.bar4Timeout_keeps)

theorem execSqTail_keeps (q : RingQ) (off : BitVec 12) (value : Word) (width : Nat) {s t : State} (h : execSqTail q off value width s = .next t) : StateKeeps s t := by
  unfold execSqTail at h
  obtain rfl := Host.Outcome.next.inj h
  repeat' (first | with_reducible exact StateKeeps.refl _ | with_reducible apply State.doorbell_keeps)

theorem execCqHead_keeps (q : RingQ) (value : Word) (width : Nat) {s t : State} (h : execCqHead q value width s = .next t) : StateKeeps s t := by
  unfold execCqHead at h
  obtain rfl := Host.Outcome.next.inj h
  repeat' (first | with_reducible exact StateKeeps.refl _ | with_reducible apply State.doorbell_keeps)

theorem execDescriptorFetch_keeps (q : RingQ) (read : HostRead) {s t : State} (h : execDescriptorFetch q read s = .next t) : StateKeeps s t := by
  unfold execDescriptorFetch at h
  obtain rfl := Host.Outcome.next.inj h
  repeat' (first | with_reducible exact StateKeeps.refl _ | with_reducible apply State.fetch_keeps)

theorem execDescriptorStart_keeps (q : RingQ) (index : BitVec 16) {s t : State} (h : execDescriptorStart q index s = .next t) : StateKeeps s t := by
  unfold execDescriptorStart at h
  obtain rfl := Host.Outcome.next.inj h
  repeat' (first | with_reducible exact StateKeeps.refl _ | with_reducible apply State.start_keeps | simp (disch := rfl) only [StateKeeps.upd] | intro _ | split)

theorem execFence_keeps (q : RingQ) (index : BitVec 16) {s t : State} (h : execFence q index s = .next t) : StateKeeps s t := by
  unfold execFence at h
  obtain rfl := Host.Outcome.next.inj h
  repeat' (first | with_reducible exact StateKeeps.refl _ | with_reducible apply State.complete_keeps | with_reducible apply State.onStartedThat_keeps | simp (disch := rfl) only [StateKeeps.upd] | intro _)

theorem execDrain_keeps (q : RingQ) (index : BitVec 16) {s t : State} (h : execDrain q index s = .next t) : StateKeeps s t := by
  unfold execDrain at h
  obtain rfl := Host.Outcome.next.inj h
  repeat' (first | with_reducible exact StateKeeps.refl _ | with_reducible apply State.onStarted_keeps | with_reducible apply State.drained_keeps | simp (disch := rfl) only [StateKeeps.upd] | intro _ | split)

theorem execHalt_keeps (q : RingQ) (index : BitVec 16) {s t : State} (h : execHalt q index s = .next t) : StateKeeps s t := by
  unfold execHalt at h
  obtain rfl := Host.Outcome.next.inj h
  repeat' (first | with_reducible exact StateKeeps.refl _ | with_reducible apply State.haltSteps_keeps | simp (disch := rfl) only [StateKeeps.upd] | intro _ | split)

theorem execPageReleaseFence_keeps (q : RingQ) (index : BitVec 16) {s t : State} (h : execPageReleaseFence q index s = .next t) : StateKeeps s t := by
  unfold execPageReleaseFence at h
  obtain rfl := Host.Outcome.next.inj h
  repeat' (first | with_reducible exact StateKeeps.refl _ | with_reducible apply State.onStarted_keeps | with_reducible apply State.raiseFence_keeps | simp (disch := rfl) only [StateKeeps.upd] | intro _ | split)

theorem execSetPowerCap_keeps (q : RingQ) (index : BitVec 16) {s t : State} (h : execSetPowerCap q index s = .next t) : StateKeeps s t := by
  unfold execSetPowerCap at h
  obtain rfl := Host.Outcome.next.inj h
  repeat' (first | with_reducible exact StateKeeps.refl _ | with_reducible apply State.onStarted_keeps | with_reducible apply State.complete_keeps | simp (disch := rfl) only [StateKeeps.upd] | intro _)

theorem execFold_keeps (q : RingQ) (index : BitVec 16) {s t : State} (h : execFold q index s = .next t) : StateKeeps s t := by
  unfold execFold at h
  obtain rfl := Host.Outcome.next.inj h
  repeat' (first | with_reducible exact StateKeeps.refl _ | with_reducible apply State.onStarted_keeps | with_reducible apply State.foldSteps_keeps)

theorem execNopDescriptor_keeps (q : RingQ) (index : BitVec 16) {s t : State} (h : execNopDescriptor q index s = .next t) : StateKeeps s t := by
  unfold execNopDescriptor at h
  obtain rfl := Host.Outcome.next.inj h
  repeat' (first | with_reducible exact StateKeeps.refl _ | with_reducible apply State.onStarted_keeps | with_reducible apply State.complete_keeps | simp (disch := rfl) only [StateKeeps.upd] | intro _)

theorem execCapRemap_keeps (q : RingQ) (index : BitVec 16) {s t : State} (h : execCapRemap q index s = .next t) : StateKeeps s t := by
  unfold execCapRemap at h
  obtain rfl := Host.Outcome.next.inj h
  repeat' (first | with_reducible exact StateKeeps.refl _ | with_reducible apply State.onStarted_keeps | with_reducible apply State.complete_keeps | with_reducible apply State.capRemap_keeps | simp (disch := rfl) only [StateKeeps.upd] | intro _ | split)

theorem execMsixCoalesceTimeout_keeps (q : RingQ) {s t : State} (h : execMsixCoalesceTimeout q s = .next t) : StateKeeps s t := by
  unfold execMsixCoalesceTimeout at h
  obtain rfl := Host.Outcome.next.inj h
  repeat' (first | with_reducible exact StateKeeps.refl _ | with_reducible apply State.coalesceTimeout_keeps)

theorem execCopy_keeps (q : RingQ) (index : BitVec 16) (read : HostRead) (wrote : HostWrite) {s t : State} (h : execCopy q index read wrote s = .next t) : StateKeeps s t := by
  unfold execCopy at h
  obtain rfl := Host.Outcome.next.inj h
  repeat' (first | with_reducible exact StateKeeps.refl _ | with_reducible apply State.copy_keeps | with_reducible apply State.orphanCopy_keeps | with_reducible apply State.onStartedThat_keeps | simp (disch := rfl) only [StateKeeps.upd] | intro _ | split)

theorem execLoadRoster_keeps (q : RingQ) (index : BitVec 16) (read : HostRead) {s t : State} (h : execLoadRoster q index read s = .next t) : StateKeeps s t := by
  unfold execLoadRoster at h
  obtain rfl := Host.Outcome.next.inj h
  repeat' (first | with_reducible exact StateKeeps.refl _ | with_reducible apply State.onStarted_keeps | with_reducible apply Local.load_keeps | with_reducible apply State.load_keeps | simp (disch := rfl) only [StateKeeps.upd] | intro _)

theorem execLaunch_keeps (q : RingQ) (index : BitVec 16) (read : HostRead) {s t : State} (h : execLaunch q index read s = .next t) : StateKeeps s t := by
  unfold execLaunch at h
  obtain rfl := Host.Outcome.next.inj h
  repeat' (first | with_reducible exact StateKeeps.refl _ | with_reducible apply State.onStarted_keeps | with_reducible apply State.launch_keeps | simp (disch := rfl) only [StateKeeps.upd] | intro _)

theorem execScrub_keeps (q : RingQ) (index : BitVec 16) {s t : State} (h : execScrub q index s = .next t) : StateKeeps s t := by
  unfold execScrub at h
  obtain rfl := Host.Outcome.next.inj h
  repeat' (first | with_reducible exact StateKeeps.refl _ | with_reducible apply State.scrub_keeps | with_reducible apply State.onStartedThat_keeps)

theorem execScrubPassEnd_keeps (wrote : HostWrite) {s t : State} (h : execScrubPassEnd wrote s = .next t) : StateKeeps s t := by
  unfold execScrubPassEnd at h
  obtain rfl := Host.Outcome.next.inj h
  repeat' (first | with_reducible exact StateKeeps.refl _ | with_reducible apply State.scrubEnd_keeps | simp (disch := rfl) only [StateKeeps.upd] | intro _ | split)

theorem execConfigFingerprint_keeps (q : RingQ) (index : BitVec 16) (unstable : Bool) (wrote : HostWrite) {s t : State} (h : execConfigFingerprint q index unstable wrote s = .next t) : StateKeeps s t := by
  unfold execConfigFingerprint at h
  obtain rfl := Host.Outcome.next.inj h
  repeat' (first | with_reducible exact StateKeeps.refl _ | with_reducible apply State.onStarted_keeps | with_reducible apply State.fingerprint_keeps | simp (disch := rfl) only [StateKeeps.upd] | intro _)

theorem execTagWrite_keeps (q : RingQ) (index : BitVec 16) (read : HostRead) {s t : State} (h : execTagWrite q index read s = .next t) : StateKeeps s t := by
  unfold execTagWrite at h
  obtain rfl := Host.Outcome.next.inj h
  repeat' (first | with_reducible exact StateKeeps.refl _ | with_reducible apply State.onStarted_keeps | with_reducible apply State.tagDescriptor_keeps | simp (disch := rfl) only [StateKeeps.upd] | intro _)

theorem execCoalesceHoldEnd_keeps (group : Fin 23) (cls : Byte) (location : BitVec 12) (detail : BitVec 48) {s t : State} (h : execCoalesceHoldEnd group cls location detail s = .next t) : StateKeeps s t := by
  unfold execCoalesceHoldEnd at h
  obtain rfl := Host.Outcome.next.inj h
  repeat' (first | with_reducible exact StateKeeps.refl _ | with_reducible apply State.holdEnd_keeps)

theorem execEventHoldoffEnd_keeps (name : EventName) (source : Nat) {s t : State} (h : execEventHoldoffEnd name source s = .next t) : StateKeeps s t := by
  unfold execEventHoldoffEnd at h
  obtain rfl := Host.Outcome.next.inj h
  repeat' (first | with_reducible exact StateKeeps.refl _ | with_reducible apply State.holdoffEnd_keeps)

theorem execFprintCompute_keeps (unstable : Bool) {s t : State} (h : execFprintCompute unstable s = .next t) : StateKeeps s t := by
  unfold execFprintCompute at h
  obtain rfl := Host.Outcome.next.inj h
  repeat' (first | with_reducible exact StateKeeps.refl _ | with_reducible apply State.computeFingerprint_keeps | simp (disch := rfl) only [StateKeeps.upd] | intro _ | split)

theorem execFprintRead_keeps (off : Option Nat) (unstable : Bool) {s t : State} (h : execFprintRead off unstable s = .next t) : StateKeeps s t := by
  unfold execFprintRead at h
  obtain rfl := Host.Outcome.next.inj h
  repeat' (first | with_reducible exact StateKeeps.refl _ | with_reducible apply State.fprintRead_keeps)

theorem execTagWriteCommand_keeps (off : BitVec 12) (bytes : List Byte) {s t : State} (h : execTagWriteCommand off bytes s = .next t) : StateKeeps s t := by
  unfold execTagWriteCommand at h
  obtain rfl := Host.Outcome.next.inj h
  repeat' (first | with_reducible exact StateKeeps.refl _ | with_reducible apply State.putTags_keeps | with_reducible apply State.command_keeps | simp (disch := rfl) only [StateKeeps.upd] | intro _)

theorem execTagLock_keeps {s t : State} (h : execTagLock s = .next t) : StateKeeps s t := by
  unfold execTagLock at h
  obtain rfl := Host.Outcome.next.inj h
  repeat' (first | with_reducible exact StateKeeps.refl _ | with_reducible apply State.command_keeps | with_reducible apply State.lockTags_keeps | simp (disch := rfl) only [StateKeeps.upd] | intro _)

theorem execTagUnlock_keeps (strap : Bool) {s t : State} (h : execTagUnlock strap s = .next t) : StateKeeps s t := by
  unfold execTagUnlock at h
  obtain rfl := Host.Outcome.next.inj h
  repeat' (first | with_reducible exact StateKeeps.refl _ | with_reducible apply State.tagUnlock_keeps)

theorem execTestMode_keeps (strap : Bool) {s t : State} (h : execTestMode strap s = .next t) : StateKeeps s t := by
  unfold execTestMode at h
  obtain rfl := Host.Outcome.next.inj h
  repeat' (first | with_reducible exact StateKeeps.refl _ | with_reducible apply State.sampleStrap_keeps | with_reducible apply State.haltBody_keeps | with_reducible apply State.command_keeps | simp (disch := rfl) only [StateKeeps.upd] | intro _)

theorem execDebugLock_keeps (strap : Bool) {s t : State} (h : execDebugLock strap s = .next t) : StateKeeps s t := by
  unfold execDebugLock at h
  obtain rfl := Host.Outcome.next.inj h
  repeat' (first | with_reducible exact StateKeeps.refl _ | with_reducible apply State.sampleStrap_keeps | with_reducible apply State.command_keeps | simp (disch := rfl) only [StateKeeps.upd] | intro _)

theorem execChainOp_keeps (access : ChainAccess) {s t : State} (h : execChainOp access s = .next t) : StateKeeps s t := by
  unfold execChainOp at h
  obtain rfl := Host.Outcome.next.inj h
  repeat' (first | with_reducible exact StateKeeps.refl _ | with_reducible apply State.chainAccess_keeps | with_reducible apply State.command_keeps | simp (disch := rfl) only [StateKeeps.upd] | intro _)

theorem execChainAccess_keeps (access : ChainAccess) {s t : State} (h : execChainAccess access s = .next t) : StateKeeps s t := by
  unfold execChainAccess at h
  obtain rfl := Host.Outcome.next.inj h
  repeat' (first | with_reducible exact StateKeeps.refl _ | with_reducible apply State.chainAccess_keeps | simp (disch := rfl) only [StateKeeps.upd] | intro _ | split)

theorem execExternalChainTake_keeps (strap : Bool) {s t : State} (h : execExternalChainTake strap s = .next t) : StateKeeps s t := by
  unfold execExternalChainTake at h
  obtain rfl := Host.Outcome.next.inj h
  repeat' (first | with_reducible exact StateKeeps.refl _ | with_reducible apply State.sampleStrap_keeps | simp (disch := rfl) only [StateKeeps.upd])

theorem execPldmFirmwareUpdate_keeps (image : FirmwareImage) {s t : State} (h : execPldmFirmwareUpdate image s = .next t) : StateKeeps s t := by
  unfold execPldmFirmwareUpdate at h
  obtain rfl := Host.Outcome.next.inj h
  repeat' (first | with_reducible exact StateKeeps.refl _ | with_reducible apply State.setFw_keeps | with_reducible apply State.answer_keeps | simp (disch := rfl) only [StateKeeps.upd] | intro _ | split)

theorem execGetVersion_keeps (t' : Transport) {s t : State} (h : execGetVersion t' s = .next t) : StateKeeps s t := by
  unfold execGetVersion at h
  obtain rfl := Host.Outcome.next.inj h
  repeat' (first | with_reducible exact StateKeeps.refl _ | with_reducible apply State.spdm_keeps | with_reducible apply State.setSpdm_keeps)

theorem execGetCapabilities_keeps (t' : Transport) {s t : State} (h : execGetCapabilities t' s = .next t) : StateKeeps s t := by
  unfold execGetCapabilities at h
  obtain rfl := Host.Outcome.next.inj h
  repeat' (first | with_reducible exact StateKeeps.refl _ | with_reducible apply State.spdm_keeps)

theorem execNegotiateAlgorithms_keeps (t' : Transport) {s t : State} (h : execNegotiateAlgorithms t' s = .next t) : StateKeeps s t := by
  unfold execNegotiateAlgorithms at h
  obtain rfl := Host.Outcome.next.inj h
  repeat' (first | with_reducible exact StateKeeps.refl _ | with_reducible apply State.spdm_keeps | with_reducible apply State.setSpdm_keeps)

theorem execGetDigests_keeps (t' : Transport) {s t : State} (h : execGetDigests t' s = .next t) : StateKeeps s t := by
  unfold execGetDigests at h
  obtain rfl := Host.Outcome.next.inj h
  repeat' (first | with_reducible exact StateKeeps.refl _ | with_reducible apply State.spdm_keeps)

theorem execGetCertificate_keeps (t' : Transport) (slot : Fin 8) {s t : State} (h : execGetCertificate t' slot s = .next t) : StateKeeps s t := by
  unfold execGetCertificate at h
  obtain rfl := Host.Outcome.next.inj h
  repeat' (first | with_reducible exact StateKeeps.refl _ | with_reducible apply State.onSlot_keeps)

theorem execChallenge_keeps (t' : Transport) (slot : Fin 8) (nonce : List Byte) {s t : State} (h : execChallenge t' slot nonce s = .next t) : StateKeeps s t := by
  unfold execChallenge at h
  obtain rfl := Host.Outcome.next.inj h
  repeat' (first | with_reducible exact StateKeeps.refl _ | with_reducible apply State.onSlot_keeps)

theorem execGetMeasurements_keeps (t' : Transport) (slot : Fin 8) (block : Byte) (nonce : List Byte) {s t : State} (h : execGetMeasurements t' slot block nonce s = .next t) : StateKeeps s t := by
  unfold execGetMeasurements at h
  obtain rfl := Host.Outcome.next.inj h
  repeat' (first | with_reducible exact StateKeeps.refl _ | with_reducible apply State.spdm_keeps | with_reducible apply State.drewBytes_keeps | with_reducible apply State.answer_keeps | with_reducible apply State.onSlot_keeps | simp (disch := rfl) only [StateKeeps.upd] | intro _ | split)

theorem execTake_keeps (target : CoreId) (taker : CoreId) (window : BitVec 4) (upset : BitVec 128) {s t : State} (h : execTake target taker window upset s = .next t) : StateKeeps s t := by
  unfold execTake at h
  obtain rfl := Host.Outcome.next.inj h
  repeat' (first | with_reducible exact StateKeeps.refl _ | with_reducible apply State.creditTake_keeps)

theorem execGrant_keeps (target : CoreId) (taker : CoreId) (window : BitVec 4) (upset : BitVec 128) {s t : State} (h : execGrant target taker window upset s = .next t) : StateKeeps s t := by
  unfold execGrant at h
  obtain rfl := Host.Outcome.next.inj h
  repeat' (first | with_reducible exact StateKeeps.refl _ | with_reducible apply State.creditAnswer_keeps)

theorem execRefuse_keeps (target : CoreId) (taker : CoreId) (window : BitVec 4) (upset : BitVec 128) {s t : State} (h : execRefuse target taker window upset s = .next t) : StateKeeps s t := by
  unfold execRefuse at h
  obtain rfl := Host.Outcome.next.inj h
  repeat' (first | with_reducible exact StateKeeps.refl _ | with_reducible apply State.creditAnswer_keeps)

theorem execGive_keeps (target : CoreId) (giver : CoreId) (window : BitVec 4) (upset : BitVec 128) {s t : State} (h : execGive target giver window upset s = .next t) : StateKeeps s t := by
  unfold execGive at h
  obtain rfl := Host.Outcome.next.inj h
  repeat' (first | with_reducible exact StateKeeps.refl _ | with_reducible apply State.creditGive_keeps)

theorem execWrite_keeps (target : CoreId) (sender : CoreId) (window : BitVec 4) (upset : BitVec 128) {s t : State} (h : execWrite target sender window upset s = .next t) : StateKeeps s t := by
  unfold execWrite at h
  obtain rfl := Host.Outcome.next.inj h
  repeat' (first | with_reducible exact StateKeeps.refl _ | with_reducible apply State.creditWrite_keeps)

theorem execOwnerRequest_keeps (cls : Nat) (inst : Nat) (owner : Nat) (walk : Bool) {s t : State} (h : execOwnerRequest cls inst owner walk s = .next t) : StateKeeps s t := by
  unfold execOwnerRequest at h
  obtain rfl := Host.Outcome.next.inj h
  repeat' (first | with_reducible exact StateKeeps.refl _ | with_reducible apply State.ownerRequest_keeps)

theorem execHostOpening_keeps (cls : Nat) (inst : Nat) {s t : State} (h : execHostOpening cls inst s = .next t) : StateKeeps s t := by
  unfold execHostOpening at h
  obtain rfl := Host.Outcome.next.inj h
  repeat' (first | with_reducible exact StateKeeps.refl _ | with_reducible apply State.hostOpening_keeps)

theorem execRefreshOpening_keeps (cls : Nat) (inst : Nat) {s t : State} (h : execRefreshOpening cls inst s = .next t) : StateKeeps s t := by
  unfold execRefreshOpening at h
  obtain rfl := Host.Outcome.next.inj h
  repeat' (first | with_reducible exact StateKeeps.refl _ | with_reducible apply State.refreshOpening_keeps)

theorem execSwitchOnOpening_keeps (n : CoreId) {s t : State} (h : execSwitchOnOpening n s = .next t) : StateKeeps s t := by
  unfold execSwitchOnOpening at h
  obtain rfl := Host.Outcome.next.inj h
  repeat' (first | with_reducible exact StateKeeps.refl _ | with_reducible apply State.switchOnOpening_keeps)

theorem execScrubOpening_keeps (cls : Nat) (inst : Nat) {s t : State} (h : execScrubOpening cls inst s = .next t) : StateKeeps s t := by
  unfold execScrubOpening at h
  obtain rfl := Host.Outcome.next.inj h
  repeat' (first | with_reducible exact StateKeeps.refl _ | with_reducible apply State.scrubOpening_keeps)

theorem execLogOpening_keeps (cls : Nat) (inst : Nat) {s t : State} (h : execLogOpening cls inst s = .next t) : StateKeeps s t := by
  unfold execLogOpening at h
  obtain rfl := Host.Outcome.next.inj h
  repeat' (first | with_reducible exact StateKeeps.refl _ | with_reducible apply State.logOpening_keeps)

theorem execRingBoundary_keeps (cls : Nat) (inst : Nat) {s t : State} (h : execRingBoundary cls inst s = .next t) : StateKeeps s t := by
  unfold execRingBoundary at h
  obtain rfl := Host.Outcome.next.inj h
  repeat' (first | with_reducible exact StateKeeps.refl _ | with_reducible apply State.ringBoundary_keeps)

theorem execTurnStall_keeps (cls : Nat) (inst : Nat) {s t : State} (h : execTurnStall cls inst s = .next t) : StateKeeps s t := by
  unfold execTurnStall at h
  obtain rfl := Host.Outcome.next.inj h
  repeat' (first | with_reducible exact StateKeeps.refl _ | with_reducible apply State.turnStall_keeps)

theorem execPocketRefreshDue_keeps (due : ColumnRefresh) {s t : State} (h : execPocketRefreshDue due s = .next t) : StateKeeps s t := by
  unfold execPocketRefreshDue at h
  obtain rfl := Host.Outcome.next.inj h
  repeat' (first | with_reducible exact StateKeeps.refl _ | with_reducible apply State.setColumn_keeps | with_reducible apply State.pocketDue_keeps | simp (disch := rfl) only [StateKeeps.upd] | refine StateKeeps.fold _ _ ?_ ?_ | intro _)

theorem execCuffRefreshDue_keeps (k : CuffId) (due : ChannelRefresh) {s t : State} (h : execCuffRefreshDue k due s = .next t) : StateKeeps s t := by
  unfold execCuffRefreshDue at h
  obtain rfl := Host.Outcome.next.inj h
  repeat' (first | with_reducible exact StateKeeps.refl _ | with_reducible apply State.cuffDue_keeps | with_reducible apply State.capUpset_keeps | simp (disch := rfl) only [StateKeeps.upd] | refine StateKeeps.fold _ _ ?_ ?_ | intro _)

theorem execArrWload_keeps (n : CoreId) (sy : Bool) (x : BitVec 8) (packed : Bool) {s t : State} (h : execArrWload n sy x packed s = .next t) : StateKeeps s t := by
  unfold execArrWload at h
  obtain rfl := Host.Outcome.next.inj h
  repeat' (first | with_reducible exact StateKeeps.refl _ | with_reducible apply State.issueOn_keeps)

theorem execArrPass_keeps (n : CoreId) (sy : Bool) (x : BitVec 8) (y : BitVec 8) (acc : Bool) {s t : State} (h : execArrPass n sy x y acc s = .next t) : StateKeeps s t := by
  unfold execArrPass at h
  obtain rfl := Host.Outcome.next.inj h
  repeat' (first | with_reducible exact StateKeeps.refl _ | with_reducible apply State.issueOn_keeps)

theorem execArrGcfg_keeps (n : CoreId) (threshold : BitVec 6) (timeout : BitVec 14) {s t : State} (h : execArrGcfg n threshold timeout s = .next t) : StateKeeps s t := by
  unfold execArrGcfg at h
  obtain rfl := Host.Outcome.next.inj h
  repeat' (first | with_reducible exact StateKeeps.refl _ | with_reducible apply State.issueOn_keeps)

theorem execArrGather_keeps (n : CoreId) (sy : Bool) (x : BitVec 8) (y : BitVec 8) {s t : State} (h : execArrGather n sy x y s = .next t) : StateKeeps s t := by
  unfold execArrGather at h
  obtain rfl := Host.Outcome.next.inj h
  repeat' (first | with_reducible exact StateKeeps.refl _ | with_reducible apply State.issueOn_keeps)

theorem execAttMode_keeps (n : CoreId) (sy : Bool) (x : BitVec 8) {s t : State} (h : execAttMode n sy x s = .next t) : StateKeeps s t := by
  unfold execAttMode at h
  obtain rfl := Host.Outcome.next.inj h
  repeat' (first | with_reducible exact StateKeeps.refl _ | with_reducible apply State.issueOn_keeps)

theorem execAttQ_keeps (n : CoreId) (sy : Bool) (x : BitVec 8) (y : BitVec 8) {s t : State} (h : execAttQ n sy x y s = .next t) : StateKeeps s t := by
  unfold execAttQ at h
  obtain rfl := Host.Outcome.next.inj h
  repeat' (first | with_reducible exact StateKeeps.refl _ | with_reducible apply State.issueOn_keeps)

theorem execAttKv_keeps (n : CoreId) (sy : Bool) (x : BitVec 8) (y : BitVec 8) {s t : State} (h : execAttKv n sy x y s = .next t) : StateKeeps s t := by
  unfold execAttKv at h
  obtain rfl := Host.Outcome.next.inj h
  repeat' (first | with_reducible exact StateKeeps.refl _ | with_reducible apply State.issueOn_keeps)

theorem execAttWalk_keeps (n : CoreId) (sy : Bool) (x : BitVec 8) {s t : State} (h : execAttWalk n sy x s = .next t) : StateKeeps s t := by
  unfold execAttWalk at h
  obtain rfl := Host.Outcome.next.inj h
  repeat' (first | with_reducible exact StateKeeps.refl _ | with_reducible apply State.issueOn_keeps)

theorem execAttOut_keeps (n : CoreId) (sy : Bool) (x : BitVec 8) (y : BitVec 8) {s t : State} (h : execAttOut n sy x y s = .next t) : StateKeeps s t := by
  unfold execAttOut at h
  obtain rfl := Host.Outcome.next.inj h
  repeat' (first | with_reducible exact StateKeeps.refl _ | with_reducible apply State.issueOn_keeps)

theorem execNop_keeps (n : CoreId) {s t : State} (h : execNop n s = .next t) : StateKeeps s t := by
  unfold execNop at h
  obtain rfl := Host.Outcome.next.inj h
  repeat' (first | with_reducible exact StateKeeps.refl _ | with_reducible apply State.issueOn_keeps)

theorem execEndRoster_keeps (n : CoreId) {s t : State} (h : execEndRoster n s = .next t) : StateKeeps s t := by
  unfold execEndRoster at h
  obtain rfl := Host.Outcome.next.inj h
  repeat' (first | with_reducible exact StateKeeps.refl _ | with_reducible apply State.issueOn_keeps)

theorem execLapMark_keeps (n : CoreId) {s t : State} (h : execLapMark n s = .next t) : StateKeeps s t := by
  unfold execLapMark at h
  obtain rfl := Host.Outcome.next.inj h
  repeat' (first | with_reducible exact StateKeeps.refl _ | with_reducible apply State.issueOn_keeps)

theorem execPrivateBegin_keeps (n : CoreId) {s t : State} (h : execPrivateBegin n s = .next t) : StateKeeps s t := by
  unfold execPrivateBegin at h
  obtain rfl := Host.Outcome.next.inj h
  repeat' (first | with_reducible exact StateKeeps.refl _ | with_reducible apply State.issueOn_keeps)

theorem execPrivateEnd_keeps (n : CoreId) {s t : State} (h : execPrivateEnd n s = .next t) : StateKeeps s t := by
  unfold execPrivateEnd at h
  obtain rfl := Host.Outcome.next.inj h
  repeat' (first | with_reducible exact StateKeeps.refl _ | with_reducible apply State.issueOn_keeps)

theorem execStepMark_keeps (n : CoreId) {s t : State} (h : execStepMark n s = .next t) : StateKeeps s t := by
  unfold execStepMark at h
  obtain rfl := Host.Outcome.next.inj h
  repeat' (first | with_reducible exact StateKeeps.refl _ | with_reducible apply State.issueOn_keeps)

theorem execWait_keeps (n : CoreId) (u : Machine.UnitCode) (count : BitVec 16) {s t : State} (h : execWait n u count s = .next t) : StateKeeps s t := by
  unfold execWait at h
  obtain rfl := Host.Outcome.next.inj h
  repeat' (first | with_reducible exact StateKeeps.refl _ | with_reducible apply State.issueOn_keeps)

theorem execLoop_keeps (n : CoreId) (count : BitVec 12) (body : BitVec 14) {s t : State} (h : execLoop n count body s = .next t) : StateKeeps s t := by
  unfold execLoop at h
  obtain rfl := Host.Outcome.next.inj h
  repeat' (first | with_reducible exact StateKeeps.refl _ | with_reducible apply State.issueOn_keeps)

theorem execLoopr_keeps (n : CoreId) (sa : RegId) (body : BitVec 14) {s t : State} (h : execLoopr n sa body s = .next t) : StateKeeps s t := by
  unfold execLoopr at h
  obtain rfl := Host.Outcome.next.inj h
  repeat' (first | with_reducible exact StateKeeps.refl _ | with_reducible apply State.issueOn_keeps)

theorem execJmp_keeps (n : CoreId) (off : BitVec 16) {s t : State} (h : execJmp n off s = .next t) : StateKeeps s t := by
  unfold execJmp at h
  obtain rfl := Host.Outcome.next.inj h
  repeat' (first | with_reducible exact StateKeeps.refl _ | with_reducible apply State.issueOn_keeps)

theorem execBeq_keeps (n : CoreId) (sa : RegId) (sb : RegId) (off : BitVec 16) {s t : State} (h : execBeq n sa sb off s = .next t) : StateKeeps s t := by
  unfold execBeq at h
  obtain rfl := Host.Outcome.next.inj h
  repeat' (first | with_reducible exact StateKeeps.refl _ | with_reducible apply State.issueOn_keeps)

theorem execBne_keeps (n : CoreId) (sa : RegId) (sb : RegId) (off : BitVec 16) {s t : State} (h : execBne n sa sb off s = .next t) : StateKeeps s t := by
  unfold execBne at h
  obtain rfl := Host.Outcome.next.inj h
  repeat' (first | with_reducible exact StateKeeps.refl _ | with_reducible apply State.issueOn_keeps)

theorem execBlt_keeps (n : CoreId) (sa : RegId) (sb : RegId) (off : BitVec 16) {s t : State} (h : execBlt n sa sb off s = .next t) : StateKeeps s t := by
  unfold execBlt at h
  obtain rfl := Host.Outcome.next.inj h
  repeat' (first | with_reducible exact StateKeeps.refl _ | with_reducible apply State.issueOn_keeps)

theorem execBge_keeps (n : CoreId) (sa : RegId) (sb : RegId) (off : BitVec 16) {s t : State} (h : execBge n sa sb off s = .next t) : StateKeeps s t := by
  unfold execBge at h
  obtain rfl := Host.Outcome.next.inj h
  repeat' (first | with_reducible exact StateKeeps.refl _ | with_reducible apply State.issueOn_keeps)

theorem execBltu_keeps (n : CoreId) (sa : RegId) (sb : RegId) (off : BitVec 16) {s t : State} (h : execBltu n sa sb off s = .next t) : StateKeeps s t := by
  unfold execBltu at h
  obtain rfl := Host.Outcome.next.inj h
  repeat' (first | with_reducible exact StateKeeps.refl _ | with_reducible apply State.issueOn_keeps)

theorem execBgeu_keeps (n : CoreId) (sa : RegId) (sb : RegId) (off : BitVec 16) {s t : State} (h : execBgeu n sa sb off s = .next t) : StateKeeps s t := by
  unfold execBgeu at h
  obtain rfl := Host.Outcome.next.inj h
  repeat' (first | with_reducible exact StateKeeps.refl _ | with_reducible apply State.issueOn_keeps)

theorem execMoveIn_keeps (n : CoreId) (tl : Bool) (sy : Bool) (sa : RegId) (patS : BitVec 8) (patF : BitVec 8) {s t : State} (h : execMoveIn n tl sy sa patS patF s = .next t) : StateKeeps s t := by
  unfold execMoveIn at h
  obtain rfl := Host.Outcome.next.inj h
  repeat' (first | with_reducible exact StateKeeps.refl _ | with_reducible apply State.issueOn_keeps)

theorem execMoveOut_keeps (n : CoreId) (tl : Bool) (sy : Bool) (sa : RegId) (patS : BitVec 8) (patF : BitVec 8) {s t : State} (h : execMoveOut n tl sy sa patS patF s = .next t) : StateKeeps s t := by
  unfold execMoveOut at h
  obtain rfl := Host.Outcome.next.inj h
  repeat' (first | with_reducible exact StateKeeps.refl _ | with_reducible apply State.issueOn_keeps)

theorem execMoveRemote_keeps (n : CoreId) (tl : Bool) (sy : Bool) (sa : RegId) (patS : BitVec 8) (win : BitVec 4) {s t : State} (h : execMoveRemote n tl sy sa patS win s = .next t) : StateKeeps s t := by
  unfold execMoveRemote at h
  obtain rfl := Host.Outcome.next.inj h
  repeat' (first | with_reducible exact StateKeeps.refl _ | with_reducible apply State.issueOn_keeps)

theorem execCreditTake_keeps (n : CoreId) (tl : Bool) (sy : Bool) (sa : RegId) (win : BitVec 4) {s t : State} (h : execCreditTake n tl sy sa win s = .next t) : StateKeeps s t := by
  unfold execCreditTake at h
  obtain rfl := Host.Outcome.next.inj h
  repeat' (first | with_reducible exact StateKeeps.refl _ | with_reducible apply State.issueOn_keeps)

theorem execCreditGive_keeps (n : CoreId) (tl : Bool) (sy : Bool) (sa : RegId) (win : BitVec 4) {s t : State} (h : execCreditGive n tl sy sa win s = .next t) : StateKeeps s t := by
  unfold execCreditGive at h
  obtain rfl := Host.Outcome.next.inj h
  repeat' (first | with_reducible exact StateKeeps.refl _ | with_reducible apply State.issueOn_keeps)

theorem execTurnEnd_keeps (n : CoreId) (sa : RegId) (cls : BitVec 8) {s t : State} (h : execTurnEnd n sa cls s = .next t) : StateKeeps s t := by
  unfold execTurnEnd at h
  obtain rfl := Host.Outcome.next.inj h
  repeat' (first | with_reducible exact StateKeeps.refl _ | with_reducible apply State.issueOn_keeps)

theorem execFetchRoster_keeps (n : CoreId) (tl : Bool) (sy : Bool) (sa : RegId) (block : BitVec 4) {s t : State} (h : execFetchRoster n tl sy sa block s = .next t) : StateKeeps s t := by
  unfold execFetchRoster at h
  obtain rfl := Host.Outcome.next.inj h
  repeat' (first | with_reducible exact StateKeeps.refl _ | with_reducible apply State.issueOn_keeps)

theorem execAtomicAdd_keeps (n : CoreId) (tl : Bool) (sy : Bool) (sa : RegId) (patS : BitVec 8) (patF : BitVec 8) {s t : State} (h : execAtomicAdd n tl sy sa patS patF s = .next t) : StateKeeps s t := by
  unfold execAtomicAdd at h
  obtain rfl := Host.Outcome.next.inj h
  repeat' (first | with_reducible exact StateKeeps.refl _ | with_reducible apply State.issueOn_keeps)

theorem execNearOp_keeps (n : CoreId) (tl : Bool) (sy : Bool) (sa : RegId) (patS : BitVec 8) {s t : State} (h : execNearOp n tl sy sa patS s = .next t) : StateKeeps s t := by
  unfold execNearOp at h
  obtain rfl := Host.Outcome.next.inj h
  repeat' (first | with_reducible exact StateKeeps.refl _ | with_reducible apply State.issueOn_keeps)

theorem execBankOff_keeps (n : CoreId) (tl : Bool) (sy : Bool) (sa : RegId) {s t : State} (h : execBankOff n tl sy sa s = .next t) : StateKeeps s t := by
  unfold execBankOff at h
  obtain rfl := Host.Outcome.next.inj h
  repeat' (first | with_reducible exact StateKeeps.refl _ | with_reducible apply State.issueOn_keeps)

theorem execRegionOn_keeps (n : CoreId) (sy : Bool) (mask : BitVec 4) {s t : State} (h : execRegionOn n sy mask s = .next t) : StateKeeps s t := by
  unfold execRegionOn at h
  obtain rfl := Host.Outcome.next.inj h
  repeat' (first | with_reducible exact StateKeeps.refl _ | with_reducible apply State.issueOn_keeps)

theorem execRegionOff_keeps (n : CoreId) (sy : Bool) (mask : BitVec 4) {s t : State} (h : execRegionOff n sy mask s = .next t) : StateKeeps s t := by
  unfold execRegionOff at h
  obtain rfl := Host.Outcome.next.inj h
  repeat' (first | with_reducible exact StateKeeps.refl _ | with_reducible apply State.issueOn_keeps)

theorem execAdd_keeps (n : CoreId) (sd : RegId) (sa : RegId) (sb : RegId) {s t : State} (h : execAdd n sd sa sb s = .next t) : StateKeeps s t := by
  unfold execAdd at h
  obtain rfl := Host.Outcome.next.inj h
  repeat' (first | with_reducible exact StateKeeps.refl _ | with_reducible apply State.issueOn_keeps)

theorem execSub_keeps (n : CoreId) (sd : RegId) (sa : RegId) (sb : RegId) {s t : State} (h : execSub n sd sa sb s = .next t) : StateKeeps s t := by
  unfold execSub at h
  obtain rfl := Host.Outcome.next.inj h
  repeat' (first | with_reducible exact StateKeeps.refl _ | with_reducible apply State.issueOn_keeps)

theorem execAnd_keeps (n : CoreId) (sd : RegId) (sa : RegId) (sb : RegId) {s t : State} (h : execAnd n sd sa sb s = .next t) : StateKeeps s t := by
  unfold execAnd at h
  obtain rfl := Host.Outcome.next.inj h
  repeat' (first | with_reducible exact StateKeeps.refl _ | with_reducible apply State.issueOn_keeps)

theorem execOr_keeps (n : CoreId) (sd : RegId) (sa : RegId) (sb : RegId) {s t : State} (h : execOr n sd sa sb s = .next t) : StateKeeps s t := by
  unfold execOr at h
  obtain rfl := Host.Outcome.next.inj h
  repeat' (first | with_reducible exact StateKeeps.refl _ | with_reducible apply State.issueOn_keeps)

theorem execXor_keeps (n : CoreId) (sd : RegId) (sa : RegId) (sb : RegId) {s t : State} (h : execXor n sd sa sb s = .next t) : StateKeeps s t := by
  unfold execXor at h
  obtain rfl := Host.Outcome.next.inj h
  repeat' (first | with_reducible exact StateKeeps.refl _ | with_reducible apply State.issueOn_keeps)

theorem execShl_keeps (n : CoreId) (sd : RegId) (sa : RegId) (sb : RegId) {s t : State} (h : execShl n sd sa sb s = .next t) : StateKeeps s t := by
  unfold execShl at h
  obtain rfl := Host.Outcome.next.inj h
  repeat' (first | with_reducible exact StateKeeps.refl _ | with_reducible apply State.issueOn_keeps)

theorem execShr_keeps (n : CoreId) (sd : RegId) (sa : RegId) (sb : RegId) {s t : State} (h : execShr n sd sa sb s = .next t) : StateKeeps s t := by
  unfold execShr at h
  obtain rfl := Host.Outcome.next.inj h
  repeat' (first | with_reducible exact StateKeeps.refl _ | with_reducible apply State.issueOn_keeps)

theorem execSra_keeps (n : CoreId) (sd : RegId) (sa : RegId) (sb : RegId) {s t : State} (h : execSra n sd sa sb s = .next t) : StateKeeps s t := by
  unfold execSra at h
  obtain rfl := Host.Outcome.next.inj h
  repeat' (first | with_reducible exact StateKeeps.refl _ | with_reducible apply State.issueOn_keeps)

theorem execMul_keeps (n : CoreId) (sd : RegId) (sa : RegId) (sb : RegId) {s t : State} (h : execMul n sd sa sb s = .next t) : StateKeeps s t := by
  unfold execMul at h
  obtain rfl := Host.Outcome.next.inj h
  repeat' (first | with_reducible exact StateKeeps.refl _ | with_reducible apply State.issueOn_keeps)

theorem execMulhu_keeps (n : CoreId) (sd : RegId) (sa : RegId) (sb : RegId) {s t : State} (h : execMulhu n sd sa sb s = .next t) : StateKeeps s t := by
  unfold execMulhu at h
  obtain rfl := Host.Outcome.next.inj h
  repeat' (first | with_reducible exact StateKeeps.refl _ | with_reducible apply State.issueOn_keeps)

theorem execSlt_keeps (n : CoreId) (sd : RegId) (sa : RegId) (sb : RegId) {s t : State} (h : execSlt n sd sa sb s = .next t) : StateKeeps s t := by
  unfold execSlt at h
  obtain rfl := Host.Outcome.next.inj h
  repeat' (first | with_reducible exact StateKeeps.refl _ | with_reducible apply State.issueOn_keeps)

theorem execSltu_keeps (n : CoreId) (sd : RegId) (sa : RegId) (sb : RegId) {s t : State} (h : execSltu n sd sa sb s = .next t) : StateKeeps s t := by
  unfold execSltu at h
  obtain rfl := Host.Outcome.next.inj h
  repeat' (first | with_reducible exact StateKeeps.refl _ | with_reducible apply State.issueOn_keeps)

theorem execAddi_keeps (n : CoreId) (sd : RegId) (sa : RegId) (imm : BitVec 16) {s t : State} (h : execAddi n sd sa imm s = .next t) : StateKeeps s t := by
  unfold execAddi at h
  obtain rfl := Host.Outcome.next.inj h
  repeat' (first | with_reducible exact StateKeeps.refl _ | with_reducible apply State.issueOn_keeps)

theorem execAndi_keeps (n : CoreId) (sd : RegId) (sa : RegId) (imm : BitVec 16) {s t : State} (h : execAndi n sd sa imm s = .next t) : StateKeeps s t := by
  unfold execAndi at h
  obtain rfl := Host.Outcome.next.inj h
  repeat' (first | with_reducible exact StateKeeps.refl _ | with_reducible apply State.issueOn_keeps)

theorem execOri_keeps (n : CoreId) (sd : RegId) (sa : RegId) (imm : BitVec 16) {s t : State} (h : execOri n sd sa imm s = .next t) : StateKeeps s t := by
  unfold execOri at h
  obtain rfl := Host.Outcome.next.inj h
  repeat' (first | with_reducible exact StateKeeps.refl _ | with_reducible apply State.issueOn_keeps)

theorem execXori_keeps (n : CoreId) (sd : RegId) (sa : RegId) (imm : BitVec 16) {s t : State} (h : execXori n sd sa imm s = .next t) : StateKeeps s t := by
  unfold execXori at h
  obtain rfl := Host.Outcome.next.inj h
  repeat' (first | with_reducible exact StateKeeps.refl _ | with_reducible apply State.issueOn_keeps)

theorem execShli_keeps (n : CoreId) (sd : RegId) (sa : RegId) (imm : BitVec 16) {s t : State} (h : execShli n sd sa imm s = .next t) : StateKeeps s t := by
  unfold execShli at h
  obtain rfl := Host.Outcome.next.inj h
  repeat' (first | with_reducible exact StateKeeps.refl _ | with_reducible apply State.issueOn_keeps)

theorem execShri_keeps (n : CoreId) (sd : RegId) (sa : RegId) (imm : BitVec 16) {s t : State} (h : execShri n sd sa imm s = .next t) : StateKeeps s t := by
  unfold execShri at h
  obtain rfl := Host.Outcome.next.inj h
  repeat' (first | with_reducible exact StateKeeps.refl _ | with_reducible apply State.issueOn_keeps)

theorem execSrai_keeps (n : CoreId) (sd : RegId) (sa : RegId) (imm : BitVec 16) {s t : State} (h : execSrai n sd sa imm s = .next t) : StateKeeps s t := by
  unfold execSrai at h
  obtain rfl := Host.Outcome.next.inj h
  repeat' (first | with_reducible exact StateKeeps.refl _ | with_reducible apply State.issueOn_keeps)

theorem execLih_keeps (n : CoreId) (sd : RegId) (q : BitVec 2) (imm : BitVec 16) {s t : State} (h : execLih n sd q imm s = .next t) : StateKeeps s t := by
  unfold execLih at h
  obtain rfl := Host.Outcome.next.inj h
  repeat' (first | with_reducible exact StateKeeps.refl _ | with_reducible apply State.issueOn_keeps)

theorem execLdw_keeps (n : CoreId) (sd : RegId) (sa : RegId) (imm : BitVec 16) {s t : State} (h : execLdw n sd sa imm s = .next t) : StateKeeps s t := by
  unfold execLdw at h
  obtain rfl := Host.Outcome.next.inj h
  repeat' (first | with_reducible exact StateKeeps.refl _ | with_reducible apply State.issueOn_keeps)

theorem execLdd_keeps (n : CoreId) (sd : RegId) (sa : RegId) (imm : BitVec 16) {s t : State} (h : execLdd n sd sa imm s = .next t) : StateKeeps s t := by
  unfold execLdd at h
  obtain rfl := Host.Outcome.next.inj h
  repeat' (first | with_reducible exact StateKeeps.refl _ | with_reducible apply State.issueOn_keeps)

theorem execStw_keeps (n : CoreId) (sd : RegId) (sa : RegId) (imm : BitVec 16) {s t : State} (h : execStw n sd sa imm s = .next t) : StateKeeps s t := by
  unfold execStw at h
  obtain rfl := Host.Outcome.next.inj h
  repeat' (first | with_reducible exact StateKeeps.refl _ | with_reducible apply State.issueOn_keeps)

theorem execStd_keeps (n : CoreId) (sd : RegId) (sa : RegId) (imm : BitVec 16) {s t : State} (h : execStd n sd sa imm s = .next t) : StateKeeps s t := by
  unfold execStd at h
  obtain rfl := Host.Outcome.next.inj h
  repeat' (first | with_reducible exact StateKeeps.refl _ | with_reducible apply State.issueOn_keeps)

theorem execPatLoad_keeps (n : CoreId) (sa : RegId) (first : BitVec 8) (number : BitVec 8) {s t : State} (h : execPatLoad n sa first number s = .next t) : StateKeeps s t := by
  unfold execPatLoad at h
  obtain rfl := Host.Outcome.next.inj h
  repeat' (first | with_reducible exact StateKeeps.refl _ | with_reducible apply State.issueOn_keeps)

theorem execRdctr_keeps (n : CoreId) (sd : RegId) (counter : BitVec 16) {s t : State} (h : execRdctr n sd counter s = .next t) : StateKeeps s t := by
  unfold execRdctr at h
  obtain rfl := Host.Outcome.next.inj h
  repeat' (first | with_reducible exact StateKeeps.refl _ | with_reducible apply State.issueOn_keeps)

theorem execVld_keeps (n : CoreId) (sy : Bool) (bf : Bool) (vd : RegId) (pat : BitVec 8) {s t : State} (h : execVld n sy bf vd pat s = .next t) : StateKeeps s t := by
  unfold execVld at h
  obtain rfl := Host.Outcome.next.inj h
  repeat' (first | with_reducible exact StateKeeps.refl _ | with_reducible apply State.issueOn_keeps)

theorem execVst_keeps (n : CoreId) (sy : Bool) (bf : Bool) (va : RegId) (pat : BitVec 8) {s t : State} (h : execVst n sy bf va pat s = .next t) : StateKeeps s t := by
  unfold execVst at h
  obtain rfl := Host.Outcome.next.inj h
  repeat' (first | with_reducible exact StateKeeps.refl _ | with_reducible apply State.issueOn_keeps)

theorem execVadd_keeps (n : CoreId) (sy : Bool) (bf : Bool) (vd : RegId) (va : RegId) (vb : RegId) {s t : State} (h : execVadd n sy bf vd va vb s = .next t) : StateKeeps s t := by
  unfold execVadd at h
  obtain rfl := Host.Outcome.next.inj h
  repeat' (first | with_reducible exact StateKeeps.refl _ | with_reducible apply State.issueOn_keeps)

theorem execVsub_keeps (n : CoreId) (sy : Bool) (bf : Bool) (vd : RegId) (va : RegId) (vb : RegId) {s t : State} (h : execVsub n sy bf vd va vb s = .next t) : StateKeeps s t := by
  unfold execVsub at h
  obtain rfl := Host.Outcome.next.inj h
  repeat' (first | with_reducible exact StateKeeps.refl _ | with_reducible apply State.issueOn_keeps)

theorem execVmul_keeps (n : CoreId) (sy : Bool) (bf : Bool) (vd : RegId) (va : RegId) (vb : RegId) {s t : State} (h : execVmul n sy bf vd va vb s = .next t) : StateKeeps s t := by
  unfold execVmul at h
  obtain rfl := Host.Outcome.next.inj h
  repeat' (first | with_reducible exact StateKeeps.refl _ | with_reducible apply State.issueOn_keeps)

theorem execVfma_keeps (n : CoreId) (sy : Bool) (bf : Bool) (vd : RegId) (va : RegId) (vb : RegId) (vc : RegId) {s t : State} (h : execVfma n sy bf vd va vb vc s = .next t) : StateKeeps s t := by
  unfold execVfma at h
  obtain rfl := Host.Outcome.next.inj h
  repeat' (first | with_reducible exact StateKeeps.refl _ | with_reducible apply State.issueOn_keeps)

theorem execVmax_keeps (n : CoreId) (sy : Bool) (bf : Bool) (vd : RegId) (va : RegId) (vb : RegId) {s t : State} (h : execVmax n sy bf vd va vb s = .next t) : StateKeeps s t := by
  unfold execVmax at h
  obtain rfl := Host.Outcome.next.inj h
  repeat' (first | with_reducible exact StateKeeps.refl _ | with_reducible apply State.issueOn_keeps)

theorem execVmin_keeps (n : CoreId) (sy : Bool) (bf : Bool) (vd : RegId) (va : RegId) (vb : RegId) {s t : State} (h : execVmin n sy bf vd va vb s = .next t) : StateKeeps s t := by
  unfold execVmin at h
  obtain rfl := Host.Outcome.next.inj h
  repeat' (first | with_reducible exact StateKeeps.refl _ | with_reducible apply State.issueOn_keeps)

theorem execVsf_keeps (n : CoreId) (sy : Bool) (bf : Bool) (vd : RegId) (va : RegId) (fn : BitVec 4) {s t : State} (h : execVsf n sy bf vd va fn s = .next t) : StateKeeps s t := by
  unfold execVsf at h
  obtain rfl := Host.Outcome.next.inj h
  repeat' (first | with_reducible exact StateKeeps.refl _ | with_reducible apply State.issueOn_keeps)

theorem execVtbl_keeps (n : CoreId) (sy : Bool) (bf : Bool) (vd : RegId) (va : RegId) (fn : BitVec 4) {s t : State} (h : execVtbl n sy bf vd va fn s = .next t) : StateKeeps s t := by
  unfold execVtbl at h
  obtain rfl := Host.Outcome.next.inj h
  repeat' (first | with_reducible exact StateKeeps.refl _ | with_reducible apply State.issueOn_keeps)

theorem execVred_keeps (n : CoreId) (sy : Bool) (bf : Bool) (vd : RegId) (va : RegId) (fn : BitVec 4) {s t : State} (h : execVred n sy bf vd va fn s = .next t) : StateKeeps s t := by
  unfold execVred at h
  obtain rfl := Host.Outcome.next.inj h
  repeat' (first | with_reducible exact StateKeeps.refl _ | with_reducible apply State.issueOn_keeps)

theorem execVcvt_keeps (n : CoreId) (sy : Bool) (bf : Bool) (vd : RegId) (va : RegId) (fn : BitVec 4) {s t : State} (h : execVcvt n sy bf vd va fn s = .next t) : StateKeeps s t := by
  unfold execVcvt at h
  obtain rfl := Host.Outcome.next.inj h
  repeat' (first | with_reducible exact StateKeeps.refl _ | with_reducible apply State.issueOn_keeps)

theorem execVcmp_keeps (n : CoreId) (sy : Bool) (bf : Bool) (vd : RegId) (va : RegId) (vb : RegId) (fn : BitVec 4) {s t : State} (h : execVcmp n sy bf vd va vb fn s = .next t) : StateKeeps s t := by
  unfold execVcmp at h
  obtain rfl := Host.Outcome.next.inj h
  repeat' (first | with_reducible exact StateKeeps.refl _ | with_reducible apply State.issueOn_keeps)

theorem execVsel_keeps (n : CoreId) (sy : Bool) (bf : Bool) (vd : RegId) (va : RegId) (vb : RegId) (vc : RegId) {s t : State} (h : execVsel n sy bf vd va vb vc s = .next t) : StateKeeps s t := by
  unfold execVsel at h
  obtain rfl := Host.Outcome.next.inj h
  repeat' (first | with_reducible exact StateKeeps.refl _ | with_reducible apply State.issueOn_keeps)

theorem execVsplat_keeps (n : CoreId) (sy : Bool) (bf : Bool) (vd : RegId) (sa : RegId) (fn : BitVec 4) {s t : State} (h : execVsplat n sy bf vd sa fn s = .next t) : StateKeeps s t := by
  unfold execVsplat at h
  obtain rfl := Host.Outcome.next.inj h
  repeat' (first | with_reducible exact StateKeeps.refl _ | with_reducible apply State.issueOn_keeps)

theorem execVtload_keeps (n : CoreId) (sy : Bool) (bf : Bool) (pat : BitVec 8) {s t : State} (h : execVtload n sy bf pat s = .next t) : StateKeeps s t := by
  unfold execVtload at h
  obtain rfl := Host.Outcome.next.inj h
  repeat' (first | with_reducible exact StateKeeps.refl _ | with_reducible apply State.issueOn_keeps)

theorem execVectorDispatch_keeps (n : CoreId) {s t : State} (h : execVectorDispatch n s = .next t) : StateKeeps s t := by
  unfold execVectorDispatch at h
  obtain rfl := Host.Outcome.next.inj h
  repeat' (first | with_reducible exact StateKeeps.refl _ | with_reducible exact LocalKeeps.refl _ | with_reducible apply Local.pump_keeps | with_reducible apply State.onCore_keeps | with_reducible apply Local.vecDispatch_keeps | simp (disch := rfl) only [StateKeeps.upd] | intro _)

theorem execArrayFrontStart_keeps (n : CoreId) {s t : State} (h : execArrayFrontStart n s = .next t) : StateKeeps s t := by
  unfold execArrayFrontStart at h
  obtain rfl := Host.Outcome.next.inj h
  repeat' (first | with_reducible exact StateKeeps.refl _ | with_reducible exact LocalKeeps.refl _ | with_reducible apply Local.frontStart_keeps | with_reducible apply Local.pump_keeps | with_reducible apply State.onCore_keeps | simp (disch := rfl) only [StateKeeps.upd] | intro _)

theorem execArrayPassStart_keeps (n : CoreId) {s t : State} (h : execArrayPassStart n s = .next t) : StateKeeps s t := by
  unfold execArrayPassStart at h
  obtain rfl := Host.Outcome.next.inj h
  repeat' (first | with_reducible exact StateKeeps.refl _ | with_reducible exact LocalKeeps.refl _ | with_reducible apply Local.pump_keeps | with_reducible apply State.onCore_keeps | with_reducible apply Local.passStart_keeps | simp (disch := rfl) only [StateKeeps.upd] | intro _)

theorem execArrayPassEnd_keeps (n : CoreId) {s t : State} (h : execArrayPassEnd n s = .next t) : StateKeeps s t := by
  unfold execArrayPassEnd at h
  obtain rfl := Host.Outcome.next.inj h
  repeat' (first | with_reducible exact StateKeeps.refl _ | with_reducible exact LocalKeeps.refl _ | with_reducible apply Local.pump_keeps | with_reducible apply State.onCore_keeps | with_reducible apply Local.passEnd_keeps | simp (disch := rfl) only [StateKeeps.upd] | intro _)

theorem execGatherTimeout_keeps (n : CoreId) {s t : State} (h : execGatherTimeout n s = .next t) : StateKeeps s t := by
  unfold execGatherTimeout at h
  obtain rfl := Host.Outcome.next.inj h
  repeat' (first | with_reducible exact StateKeeps.refl _ | with_reducible exact LocalKeeps.refl _ | with_reducible apply Local.pump_keeps | with_reducible apply State.onCore_keeps | with_reducible apply Local.gatherTimeout_keeps | simp (disch := rfl) only [StateKeeps.upd] | intro _)

theorem execAttScoreStage_keeps (n : CoreId) {s t : State} (h : execAttScoreStage n s = .next t) : StateKeeps s t := by
  unfold execAttScoreStage at h
  obtain rfl := Host.Outcome.next.inj h
  repeat' (first | with_reducible exact StateKeeps.refl _ | with_reducible exact LocalKeeps.refl _ | with_reducible apply Local.scoreStage_keeps | with_reducible apply Local.pump_keeps | with_reducible apply State.onCore_keeps | simp (disch := rfl) only [StateKeeps.upd] | intro _)

theorem execAttValueStage_keeps (n : CoreId) {s t : State} (h : execAttValueStage n s = .next t) : StateKeeps s t := by
  unfold execAttValueStage at h
  obtain rfl := Host.Outcome.next.inj h
  repeat' (first | with_reducible exact StateKeeps.refl _ | with_reducible exact LocalKeeps.refl _ | with_reducible apply Local.pump_keeps | with_reducible apply State.onCore_keeps | with_reducible apply Local.valueStage_keeps | simp (disch := rfl) only [StateKeeps.upd] | intro _)

theorem execWalkScoreCommand_keeps (n : CoreId) (k : CuffId) {s t : State} (h : execWalkScoreCommand n k s = .next t) : StateKeeps s t := by
  unfold execWalkScoreCommand at h
  obtain rfl := Host.Outcome.next.inj h
  repeat' (first | with_reducible exact StateKeeps.refl _ | with_reducible apply State.scoreCommand_keeps | simp (disch := rfl) only [StateKeeps.upd] | intro _ | split)

theorem execWalkMerge_keeps (n : CoreId) {s t : State} (h : execWalkMerge n s = .next t) : StateKeeps s t := by
  unfold execWalkMerge at h
  obtain rfl := Host.Outcome.next.inj h
  repeat' (first | with_reducible exact StateKeeps.refl _ | with_reducible exact LocalKeeps.refl _ | with_reducible apply Local.walkMerge_keeps | with_reducible apply Local.pump_keeps | with_reducible apply State.onCore_keeps | simp (disch := rfl) only [StateKeeps.upd] | intro _)

theorem execWalkRetire_keeps (n : CoreId) {s t : State} (h : execWalkRetire n s = .next t) : StateKeeps s t := by
  unfold execWalkRetire at h
  obtain rfl := Host.Outcome.next.inj h
  repeat' (first | with_reducible exact StateKeeps.refl _ | with_reducible exact LocalKeeps.refl _ | with_reducible apply Local.walkRetire_keeps | with_reducible apply Local.pump_keeps | with_reducible apply State.onCore_keeps | simp (disch := rfl) only [StateKeeps.upd] | intro _)

theorem execIllegalWord_keeps (word : ReachedWord) {s t : State} (h : execIllegalWord word s = .next t) : StateKeeps s t := by
  unfold execIllegalWord at h
  obtain rfl := Host.Outcome.next.inj h
  repeat' (first | with_reducible exact StateKeeps.refl _ | with_reducible exact LocalKeeps.refl _ | with_reducible apply State.onCore_keeps | with_reducible apply Local.illegalWord_keeps | simp (disch := rfl) only [StateKeeps.upd] | intro _ | split)

theorem execStepReexecution_keeps (n : CoreId) {s t : State} (h : execStepReexecution n s = .next t) : StateKeeps s t := by
  unfold execStepReexecution at h
  obtain rfl := Host.Outcome.next.inj h
  repeat' (first | with_reducible exact StateKeeps.refl _ | with_reducible exact LocalKeeps.refl _ | with_reducible apply Local.reexecute_keeps | with_reducible apply Local.pump_keeps | with_reducible apply State.onCore_keeps | simp (disch := rfl) only [StateKeeps.upd] | intro _)

theorem execBankRetire_keeps (n : CoreId) (selfTest : Bool) {s t : State} (h : execBankRetire n selfTest s = .next t) : StateKeeps s t := by
  unfold execBankRetire at h
  obtain rfl := Host.Outcome.next.inj h
  repeat' (first | with_reducible exact StateKeeps.refl _ | with_reducible apply State.bankRetire_keeps)

theorem execRegionRampEnd_keeps (n : CoreId) {s t : State} (h : execRegionRampEnd n s = .next t) : StateKeeps s t := by
  unfold execRegionRampEnd at h
  obtain rfl := Host.Outcome.next.inj h
  repeat' (first | with_reducible exact StateKeeps.refl _ | with_reducible exact LocalKeeps.refl _ | with_reducible apply Local.pump_keeps | with_reducible apply State.onCore_keeps | with_reducible apply Local.rampEnd_keeps | simp (disch := rfl) only [StateKeeps.upd] | intro _)

theorem execBeatRateWindow_keeps (n : CoreId) (beats : Nat) {s t : State} (h : execBeatRateWindow n beats s = .next t) : StateKeeps s t := by
  unfold execBeatRateWindow at h
  obtain rfl := Host.Outcome.next.inj h
  repeat' (first | with_reducible exact StateKeeps.refl _ | with_reducible apply State.beatWindow_keeps | with_reducible apply State.folded_keeps | simp (disch := rfl) only [StateKeeps.upd] | intro _ | split)

end Sys2Proof.Machine
end

