-- ==== Sys2Proof/Laws/State.lean ====
section
/-!
SUPPORT. Laws of the named updates of State: one per field and update, true by definition, the read of a part after its
write, and what the log, an event, a signal and an idle step can change.
-/

namespace Sys2Proof.Machine

/-! ### withPending -/

@[simp] theorem State.withPending_pending (s : State) (l : List Instr) : (s.withPending l).pending = l := rfl
@[simp] theorem State.withPending_mem (s : State) (l : List Instr) : (s.withPending l).mem = s.mem := rfl
@[simp] theorem State.withPending_cores (s : State) (l : List Instr) : (s.withPending l).cores = s.cores := rfl
@[simp] theorem State.withPending_rings (s : State) (l : List Instr) : (s.withPending l).rings = s.rings := rfl
@[simp] theorem State.withPending_columns (s : State) (l : List Instr) : (s.withPending l).columns = s.columns := rfl
@[simp] theorem State.withPending_cuffs (s : State) (l : List Instr) : (s.withPending l).cuffs = s.cuffs := rfl
@[simp] theorem State.withPending_panels (s : State) (l : List Instr) : (s.withPending l).panels = s.panels := rfl
@[simp] theorem State.withPending_seams (s : State) (l : List Instr) : (s.withPending l).seams = s.seams := rfl
@[simp] theorem State.withPending_map (s : State) (l : List Instr) : (s.withPending l).map = s.map := rfl
@[simp] theorem State.withPending_time (s : State) (l : List Instr) : (s.withPending l).time = s.time := rfl
@[simp] theorem State.withPending_yoke (s : State) (l : List Instr) : (s.withPending l).yoke = s.yoke := rfl
@[simp] theorem State.withPending_cap (s : State) (l : List Instr) : (s.withPending l).cap = s.cap := rfl
@[simp] theorem State.withPending_set (s : State) (l : List Instr) : (s.withPending l).set = s.set := rfl
@[simp] theorem State.withPending_badRosters (s : State) (l : List Instr) : (s.withPending l).badRosters = s.badRosters := rfl
@[simp] theorem State.withPending_scrubs (s : State) (l : List Instr) : (s.withPending l).scrubs = s.scrubs := rfl
@[simp] theorem State.withPending_credit (s : State) (l : List Instr) : (s.withPending l).credit = s.credit := rfl
@[simp] theorem State.withPending_host (s : State) (l : List Instr) : (s.withPending l).host = s.host := rfl
@[simp] theorem State.withPending_power (s : State) (l : List Instr) : (s.withPending l).power = s.power := rfl
@[simp] theorem State.withPending_thermal (s : State) (l : List Instr) : (s.withPending l).thermal = s.thermal := rfl
@[simp] theorem State.withPending_log (s : State) (l : List Instr) : (s.withPending l).log = s.log := rfl
@[simp] theorem State.withPending_mgmt (s : State) (l : List Instr) : (s.withPending l).mgmt = s.mgmt := rfl
@[simp] theorem State.withPending_out (s : State) (l : List Instr) : (s.withPending l).out = s.out := rfl
@[simp] theorem State.withPending_freeTick (s : State) (l : List Instr) : (s.withPending l).freeTick = s.freeTick := rfl

/-! ### setCore -/

@[simp] theorem State.setCore_pending (s : State) (n : Nat) (c : Core) : (s.setCore n c).pending = s.pending := rfl
@[simp] theorem State.setCore_mem (s : State) (n : Nat) (c : Core) : (s.setCore n c).mem = s.mem := rfl
@[simp] theorem State.setCore_cores (s : State) (n : Nat) (c : Core) : (s.setCore n c).cores = mapPut s.cores n c := rfl
@[simp] theorem State.setCore_rings (s : State) (n : Nat) (c : Core) : (s.setCore n c).rings = s.rings := rfl
@[simp] theorem State.setCore_columns (s : State) (n : Nat) (c : Core) : (s.setCore n c).columns = s.columns := rfl
@[simp] theorem State.setCore_cuffs (s : State) (n : Nat) (c : Core) : (s.setCore n c).cuffs = s.cuffs := rfl
@[simp] theorem State.setCore_panels (s : State) (n : Nat) (c : Core) : (s.setCore n c).panels = s.panels := rfl
@[simp] theorem State.setCore_seams (s : State) (n : Nat) (c : Core) : (s.setCore n c).seams = s.seams := rfl
@[simp] theorem State.setCore_map (s : State) (n : Nat) (c : Core) : (s.setCore n c).map = s.map := rfl
@[simp] theorem State.setCore_time (s : State) (n : Nat) (c : Core) : (s.setCore n c).time = s.time := rfl
@[simp] theorem State.setCore_yoke (s : State) (n : Nat) (c : Core) : (s.setCore n c).yoke = s.yoke := rfl
@[simp] theorem State.setCore_cap (s : State) (n : Nat) (c : Core) : (s.setCore n c).cap = s.cap := rfl
@[simp] theorem State.setCore_set (s : State) (n : Nat) (c : Core) : (s.setCore n c).set = s.set := rfl
@[simp] theorem State.setCore_badRosters (s : State) (n : Nat) (c : Core) : (s.setCore n c).badRosters = s.badRosters := rfl
@[simp] theorem State.setCore_scrubs (s : State) (n : Nat) (c : Core) : (s.setCore n c).scrubs = s.scrubs := rfl
@[simp] theorem State.setCore_credit (s : State) (n : Nat) (c : Core) : (s.setCore n c).credit = s.credit := rfl
@[simp] theorem State.setCore_host (s : State) (n : Nat) (c : Core) : (s.setCore n c).host = s.host := rfl
@[simp] theorem State.setCore_power (s : State) (n : Nat) (c : Core) : (s.setCore n c).power = s.power := rfl
@[simp] theorem State.setCore_thermal (s : State) (n : Nat) (c : Core) : (s.setCore n c).thermal = s.thermal := rfl
@[simp] theorem State.setCore_log (s : State) (n : Nat) (c : Core) : (s.setCore n c).log = s.log := rfl
@[simp] theorem State.setCore_mgmt (s : State) (n : Nat) (c : Core) : (s.setCore n c).mgmt = s.mgmt := rfl
@[simp] theorem State.setCore_out (s : State) (n : Nat) (c : Core) : (s.setCore n c).out = s.out := rfl
@[simp] theorem State.setCore_freeTick (s : State) (n : Nat) (c : Core) : (s.setCore n c).freeTick = s.freeTick := rfl

/-! ### setRing -/

@[simp] theorem State.setRing_pending (s : State) (k : Nat) (r : Ring) : (s.setRing k r).pending = s.pending := rfl
@[simp] theorem State.setRing_mem (s : State) (k : Nat) (r : Ring) : (s.setRing k r).mem = s.mem := rfl
@[simp] theorem State.setRing_cores (s : State) (k : Nat) (r : Ring) : (s.setRing k r).cores = s.cores := rfl
@[simp] theorem State.setRing_rings (s : State) (k : Nat) (r : Ring) : (s.setRing k r).rings = mapPut s.rings k r := rfl
@[simp] theorem State.setRing_columns (s : State) (k : Nat) (r : Ring) : (s.setRing k r).columns = s.columns := rfl
@[simp] theorem State.setRing_cuffs (s : State) (k : Nat) (r : Ring) : (s.setRing k r).cuffs = s.cuffs := rfl
@[simp] theorem State.setRing_panels (s : State) (k : Nat) (r : Ring) : (s.setRing k r).panels = s.panels := rfl
@[simp] theorem State.setRing_seams (s : State) (k : Nat) (r : Ring) : (s.setRing k r).seams = s.seams := rfl
@[simp] theorem State.setRing_map (s : State) (k : Nat) (r : Ring) : (s.setRing k r).map = s.map := rfl
@[simp] theorem State.setRing_time (s : State) (k : Nat) (r : Ring) : (s.setRing k r).time = s.time := rfl
@[simp] theorem State.setRing_yoke (s : State) (k : Nat) (r : Ring) : (s.setRing k r).yoke = s.yoke := rfl
@[simp] theorem State.setRing_cap (s : State) (k : Nat) (r : Ring) : (s.setRing k r).cap = s.cap := rfl
@[simp] theorem State.setRing_set (s : State) (k : Nat) (r : Ring) : (s.setRing k r).set = s.set := rfl
@[simp] theorem State.setRing_badRosters (s : State) (k : Nat) (r : Ring) : (s.setRing k r).badRosters = s.badRosters := rfl
@[simp] theorem State.setRing_scrubs (s : State) (k : Nat) (r : Ring) : (s.setRing k r).scrubs = s.scrubs := rfl
@[simp] theorem State.setRing_credit (s : State) (k : Nat) (r : Ring) : (s.setRing k r).credit = s.credit := rfl
@[simp] theorem State.setRing_host (s : State) (k : Nat) (r : Ring) : (s.setRing k r).host = s.host := rfl
@[simp] theorem State.setRing_power (s : State) (k : Nat) (r : Ring) : (s.setRing k r).power = s.power := rfl
@[simp] theorem State.setRing_thermal (s : State) (k : Nat) (r : Ring) : (s.setRing k r).thermal = s.thermal := rfl
@[simp] theorem State.setRing_log (s : State) (k : Nat) (r : Ring) : (s.setRing k r).log = s.log := rfl
@[simp] theorem State.setRing_mgmt (s : State) (k : Nat) (r : Ring) : (s.setRing k r).mgmt = s.mgmt := rfl
@[simp] theorem State.setRing_out (s : State) (k : Nat) (r : Ring) : (s.setRing k r).out = s.out := rfl
@[simp] theorem State.setRing_freeTick (s : State) (k : Nat) (r : Ring) : (s.setRing k r).freeTick = s.freeTick := rfl

/-! ### setColumn -/

@[simp] theorem State.setColumn_pending (s : State) (k : Nat) (c : Column) : (s.setColumn k c).pending = s.pending := rfl
@[simp] theorem State.setColumn_mem (s : State) (k : Nat) (c : Column) : (s.setColumn k c).mem = s.mem := rfl
@[simp] theorem State.setColumn_cores (s : State) (k : Nat) (c : Column) : (s.setColumn k c).cores = s.cores := rfl
@[simp] theorem State.setColumn_rings (s : State) (k : Nat) (c : Column) : (s.setColumn k c).rings = s.rings := rfl
@[simp] theorem State.setColumn_columns (s : State) (k : Nat) (c : Column) : (s.setColumn k c).columns = mapPut s.columns k c := rfl
@[simp] theorem State.setColumn_cuffs (s : State) (k : Nat) (c : Column) : (s.setColumn k c).cuffs = s.cuffs := rfl
@[simp] theorem State.setColumn_panels (s : State) (k : Nat) (c : Column) : (s.setColumn k c).panels = s.panels := rfl
@[simp] theorem State.setColumn_seams (s : State) (k : Nat) (c : Column) : (s.setColumn k c).seams = s.seams := rfl
@[simp] theorem State.setColumn_map (s : State) (k : Nat) (c : Column) : (s.setColumn k c).map = s.map := rfl
@[simp] theorem State.setColumn_time (s : State) (k : Nat) (c : Column) : (s.setColumn k c).time = s.time := rfl
@[simp] theorem State.setColumn_yoke (s : State) (k : Nat) (c : Column) : (s.setColumn k c).yoke = s.yoke := rfl
@[simp] theorem State.setColumn_cap (s : State) (k : Nat) (c : Column) : (s.setColumn k c).cap = s.cap := rfl
@[simp] theorem State.setColumn_set (s : State) (k : Nat) (c : Column) : (s.setColumn k c).set = s.set := rfl
@[simp] theorem State.setColumn_badRosters (s : State) (k : Nat) (c : Column) : (s.setColumn k c).badRosters = s.badRosters := rfl
@[simp] theorem State.setColumn_scrubs (s : State) (k : Nat) (c : Column) : (s.setColumn k c).scrubs = s.scrubs := rfl
@[simp] theorem State.setColumn_credit (s : State) (k : Nat) (c : Column) : (s.setColumn k c).credit = s.credit := rfl
@[simp] theorem State.setColumn_host (s : State) (k : Nat) (c : Column) : (s.setColumn k c).host = s.host := rfl
@[simp] theorem State.setColumn_power (s : State) (k : Nat) (c : Column) : (s.setColumn k c).power = s.power := rfl
@[simp] theorem State.setColumn_thermal (s : State) (k : Nat) (c : Column) : (s.setColumn k c).thermal = s.thermal := rfl
@[simp] theorem State.setColumn_log (s : State) (k : Nat) (c : Column) : (s.setColumn k c).log = s.log := rfl
@[simp] theorem State.setColumn_mgmt (s : State) (k : Nat) (c : Column) : (s.setColumn k c).mgmt = s.mgmt := rfl
@[simp] theorem State.setColumn_out (s : State) (k : Nat) (c : Column) : (s.setColumn k c).out = s.out := rfl
@[simp] theorem State.setColumn_freeTick (s : State) (k : Nat) (c : Column) : (s.setColumn k c).freeTick = s.freeTick := rfl

/-! ### setCuff -/

@[simp] theorem State.setCuff_pending (s : State) (k : Nat) (c : Cuff) : (s.setCuff k c).pending = s.pending := rfl
@[simp] theorem State.setCuff_mem (s : State) (k : Nat) (c : Cuff) : (s.setCuff k c).mem = s.mem := rfl
@[simp] theorem State.setCuff_cores (s : State) (k : Nat) (c : Cuff) : (s.setCuff k c).cores = s.cores := rfl
@[simp] theorem State.setCuff_rings (s : State) (k : Nat) (c : Cuff) : (s.setCuff k c).rings = s.rings := rfl
@[simp] theorem State.setCuff_columns (s : State) (k : Nat) (c : Cuff) : (s.setCuff k c).columns = s.columns := rfl
@[simp] theorem State.setCuff_cuffs (s : State) (k : Nat) (c : Cuff) : (s.setCuff k c).cuffs = mapPut s.cuffs k c := rfl
@[simp] theorem State.setCuff_panels (s : State) (k : Nat) (c : Cuff) : (s.setCuff k c).panels = s.panels := rfl
@[simp] theorem State.setCuff_seams (s : State) (k : Nat) (c : Cuff) : (s.setCuff k c).seams = s.seams := rfl
@[simp] theorem State.setCuff_map (s : State) (k : Nat) (c : Cuff) : (s.setCuff k c).map = s.map := rfl
@[simp] theorem State.setCuff_time (s : State) (k : Nat) (c : Cuff) : (s.setCuff k c).time = s.time := rfl
@[simp] theorem State.setCuff_yoke (s : State) (k : Nat) (c : Cuff) : (s.setCuff k c).yoke = s.yoke := rfl
@[simp] theorem State.setCuff_cap (s : State) (k : Nat) (c : Cuff) : (s.setCuff k c).cap = s.cap := rfl
@[simp] theorem State.setCuff_set (s : State) (k : Nat) (c : Cuff) : (s.setCuff k c).set = s.set := rfl
@[simp] theorem State.setCuff_badRosters (s : State) (k : Nat) (c : Cuff) : (s.setCuff k c).badRosters = s.badRosters := rfl
@[simp] theorem State.setCuff_scrubs (s : State) (k : Nat) (c : Cuff) : (s.setCuff k c).scrubs = s.scrubs := rfl
@[simp] theorem State.setCuff_credit (s : State) (k : Nat) (c : Cuff) : (s.setCuff k c).credit = s.credit := rfl
@[simp] theorem State.setCuff_host (s : State) (k : Nat) (c : Cuff) : (s.setCuff k c).host = s.host := rfl
@[simp] theorem State.setCuff_power (s : State) (k : Nat) (c : Cuff) : (s.setCuff k c).power = s.power := rfl
@[simp] theorem State.setCuff_thermal (s : State) (k : Nat) (c : Cuff) : (s.setCuff k c).thermal = s.thermal := rfl
@[simp] theorem State.setCuff_log (s : State) (k : Nat) (c : Cuff) : (s.setCuff k c).log = s.log := rfl
@[simp] theorem State.setCuff_mgmt (s : State) (k : Nat) (c : Cuff) : (s.setCuff k c).mgmt = s.mgmt := rfl
@[simp] theorem State.setCuff_out (s : State) (k : Nat) (c : Cuff) : (s.setCuff k c).out = s.out := rfl
@[simp] theorem State.setCuff_freeTick (s : State) (k : Nat) (c : Cuff) : (s.setCuff k c).freeTick = s.freeTick := rfl

/-! ### setPanel -/

@[simp] theorem State.setPanel_pending (s : State) (p : Nat) (x : Panel) : (s.setPanel p x).pending = s.pending := rfl
@[simp] theorem State.setPanel_mem (s : State) (p : Nat) (x : Panel) : (s.setPanel p x).mem = s.mem := rfl
@[simp] theorem State.setPanel_cores (s : State) (p : Nat) (x : Panel) : (s.setPanel p x).cores = s.cores := rfl
@[simp] theorem State.setPanel_rings (s : State) (p : Nat) (x : Panel) : (s.setPanel p x).rings = s.rings := rfl
@[simp] theorem State.setPanel_columns (s : State) (p : Nat) (x : Panel) : (s.setPanel p x).columns = s.columns := rfl
@[simp] theorem State.setPanel_cuffs (s : State) (p : Nat) (x : Panel) : (s.setPanel p x).cuffs = s.cuffs := rfl
@[simp] theorem State.setPanel_panels (s : State) (p : Nat) (x : Panel) : (s.setPanel p x).panels = mapPut s.panels p x := rfl
@[simp] theorem State.setPanel_seams (s : State) (p : Nat) (x : Panel) : (s.setPanel p x).seams = s.seams := rfl
@[simp] theorem State.setPanel_map (s : State) (p : Nat) (x : Panel) : (s.setPanel p x).map = s.map := rfl
@[simp] theorem State.setPanel_time (s : State) (p : Nat) (x : Panel) : (s.setPanel p x).time = s.time := rfl
@[simp] theorem State.setPanel_yoke (s : State) (p : Nat) (x : Panel) : (s.setPanel p x).yoke = s.yoke := rfl
@[simp] theorem State.setPanel_cap (s : State) (p : Nat) (x : Panel) : (s.setPanel p x).cap = s.cap := rfl
@[simp] theorem State.setPanel_set (s : State) (p : Nat) (x : Panel) : (s.setPanel p x).set = s.set := rfl
@[simp] theorem State.setPanel_badRosters (s : State) (p : Nat) (x : Panel) : (s.setPanel p x).badRosters = s.badRosters := rfl
@[simp] theorem State.setPanel_scrubs (s : State) (p : Nat) (x : Panel) : (s.setPanel p x).scrubs = s.scrubs := rfl
@[simp] theorem State.setPanel_credit (s : State) (p : Nat) (x : Panel) : (s.setPanel p x).credit = s.credit := rfl
@[simp] theorem State.setPanel_host (s : State) (p : Nat) (x : Panel) : (s.setPanel p x).host = s.host := rfl
@[simp] theorem State.setPanel_power (s : State) (p : Nat) (x : Panel) : (s.setPanel p x).power = s.power := rfl
@[simp] theorem State.setPanel_thermal (s : State) (p : Nat) (x : Panel) : (s.setPanel p x).thermal = s.thermal := rfl
@[simp] theorem State.setPanel_log (s : State) (p : Nat) (x : Panel) : (s.setPanel p x).log = s.log := rfl
@[simp] theorem State.setPanel_mgmt (s : State) (p : Nat) (x : Panel) : (s.setPanel p x).mgmt = s.mgmt := rfl
@[simp] theorem State.setPanel_out (s : State) (p : Nat) (x : Panel) : (s.setPanel p x).out = s.out := rfl
@[simp] theorem State.setPanel_freeTick (s : State) (p : Nat) (x : Panel) : (s.setPanel p x).freeTick = s.freeTick := rfl

/-! ### setSeam -/

@[simp] theorem State.setSeam_pending (s : State) (n : Nat) (x : SeamPort) : (s.setSeam n x).pending = s.pending := rfl
@[simp] theorem State.setSeam_mem (s : State) (n : Nat) (x : SeamPort) : (s.setSeam n x).mem = s.mem := rfl
@[simp] theorem State.setSeam_cores (s : State) (n : Nat) (x : SeamPort) : (s.setSeam n x).cores = s.cores := rfl
@[simp] theorem State.setSeam_rings (s : State) (n : Nat) (x : SeamPort) : (s.setSeam n x).rings = s.rings := rfl
@[simp] theorem State.setSeam_columns (s : State) (n : Nat) (x : SeamPort) : (s.setSeam n x).columns = s.columns := rfl
@[simp] theorem State.setSeam_cuffs (s : State) (n : Nat) (x : SeamPort) : (s.setSeam n x).cuffs = s.cuffs := rfl
@[simp] theorem State.setSeam_panels (s : State) (n : Nat) (x : SeamPort) : (s.setSeam n x).panels = s.panels := rfl
@[simp] theorem State.setSeam_seams (s : State) (n : Nat) (x : SeamPort) : (s.setSeam n x).seams = mapPut s.seams n x := rfl
@[simp] theorem State.setSeam_map (s : State) (n : Nat) (x : SeamPort) : (s.setSeam n x).map = s.map := rfl
@[simp] theorem State.setSeam_time (s : State) (n : Nat) (x : SeamPort) : (s.setSeam n x).time = s.time := rfl
@[simp] theorem State.setSeam_yoke (s : State) (n : Nat) (x : SeamPort) : (s.setSeam n x).yoke = s.yoke := rfl
@[simp] theorem State.setSeam_cap (s : State) (n : Nat) (x : SeamPort) : (s.setSeam n x).cap = s.cap := rfl
@[simp] theorem State.setSeam_set (s : State) (n : Nat) (x : SeamPort) : (s.setSeam n x).set = s.set := rfl
@[simp] theorem State.setSeam_badRosters (s : State) (n : Nat) (x : SeamPort) : (s.setSeam n x).badRosters = s.badRosters := rfl
@[simp] theorem State.setSeam_scrubs (s : State) (n : Nat) (x : SeamPort) : (s.setSeam n x).scrubs = s.scrubs := rfl
@[simp] theorem State.setSeam_credit (s : State) (n : Nat) (x : SeamPort) : (s.setSeam n x).credit = s.credit := rfl
@[simp] theorem State.setSeam_host (s : State) (n : Nat) (x : SeamPort) : (s.setSeam n x).host = s.host := rfl
@[simp] theorem State.setSeam_power (s : State) (n : Nat) (x : SeamPort) : (s.setSeam n x).power = s.power := rfl
@[simp] theorem State.setSeam_thermal (s : State) (n : Nat) (x : SeamPort) : (s.setSeam n x).thermal = s.thermal := rfl
@[simp] theorem State.setSeam_log (s : State) (n : Nat) (x : SeamPort) : (s.setSeam n x).log = s.log := rfl
@[simp] theorem State.setSeam_mgmt (s : State) (n : Nat) (x : SeamPort) : (s.setSeam n x).mgmt = s.mgmt := rfl
@[simp] theorem State.setSeam_out (s : State) (n : Nat) (x : SeamPort) : (s.setSeam n x).out = s.out := rfl
@[simp] theorem State.setSeam_freeTick (s : State) (n : Nat) (x : SeamPort) : (s.setSeam n x).freeTick = s.freeTick := rfl

/-! ### setSq -/

@[simp] theorem State.setSq_pending (s : State) (q : Nat) (x : Sq) : (s.setSq q x).pending = s.pending := rfl
@[simp] theorem State.setSq_mem (s : State) (q : Nat) (x : Sq) : (s.setSq q x).mem = s.mem := rfl
@[simp] theorem State.setSq_cores (s : State) (q : Nat) (x : Sq) : (s.setSq q x).cores = s.cores := rfl
@[simp] theorem State.setSq_rings (s : State) (q : Nat) (x : Sq) : (s.setSq q x).rings = s.rings := rfl
@[simp] theorem State.setSq_columns (s : State) (q : Nat) (x : Sq) : (s.setSq q x).columns = s.columns := rfl
@[simp] theorem State.setSq_cuffs (s : State) (q : Nat) (x : Sq) : (s.setSq q x).cuffs = s.cuffs := rfl
@[simp] theorem State.setSq_panels (s : State) (q : Nat) (x : Sq) : (s.setSq q x).panels = s.panels := rfl
@[simp] theorem State.setSq_seams (s : State) (q : Nat) (x : Sq) : (s.setSq q x).seams = s.seams := rfl
@[simp] theorem State.setSq_map (s : State) (q : Nat) (x : Sq) : (s.setSq q x).map = s.map := rfl
@[simp] theorem State.setSq_time (s : State) (q : Nat) (x : Sq) : (s.setSq q x).time = s.time := rfl
@[simp] theorem State.setSq_yoke (s : State) (q : Nat) (x : Sq) : (s.setSq q x).yoke = s.yoke := rfl
@[simp] theorem State.setSq_cap (s : State) (q : Nat) (x : Sq) : (s.setSq q x).cap = s.cap := rfl
@[simp] theorem State.setSq_set (s : State) (q : Nat) (x : Sq) : (s.setSq q x).set = s.set := rfl
@[simp] theorem State.setSq_badRosters (s : State) (q : Nat) (x : Sq) : (s.setSq q x).badRosters = s.badRosters := rfl
@[simp] theorem State.setSq_scrubs (s : State) (q : Nat) (x : Sq) : (s.setSq q x).scrubs = s.scrubs := rfl
@[simp] theorem State.setSq_credit (s : State) (q : Nat) (x : Sq) : (s.setSq q x).credit = s.credit := rfl
@[simp] theorem State.setSq_host (s : State) (q : Nat) (x : Sq) : (s.setSq q x).host = { s.host with sqs := mapPut s.host.sqs q x } := rfl
@[simp] theorem State.setSq_power (s : State) (q : Nat) (x : Sq) : (s.setSq q x).power = s.power := rfl
@[simp] theorem State.setSq_thermal (s : State) (q : Nat) (x : Sq) : (s.setSq q x).thermal = s.thermal := rfl
@[simp] theorem State.setSq_log (s : State) (q : Nat) (x : Sq) : (s.setSq q x).log = s.log := rfl
@[simp] theorem State.setSq_mgmt (s : State) (q : Nat) (x : Sq) : (s.setSq q x).mgmt = s.mgmt := rfl
@[simp] theorem State.setSq_out (s : State) (q : Nat) (x : Sq) : (s.setSq q x).out = s.out := rfl
@[simp] theorem State.setSq_freeTick (s : State) (q : Nat) (x : Sq) : (s.setSq q x).freeTick = s.freeTick := rfl

/-! ### setCq -/

@[simp] theorem State.setCq_pending (s : State) (q : Nat) (x : Cq) : (s.setCq q x).pending = s.pending := rfl
@[simp] theorem State.setCq_mem (s : State) (q : Nat) (x : Cq) : (s.setCq q x).mem = s.mem := rfl
@[simp] theorem State.setCq_cores (s : State) (q : Nat) (x : Cq) : (s.setCq q x).cores = s.cores := rfl
@[simp] theorem State.setCq_rings (s : State) (q : Nat) (x : Cq) : (s.setCq q x).rings = s.rings := rfl
@[simp] theorem State.setCq_columns (s : State) (q : Nat) (x : Cq) : (s.setCq q x).columns = s.columns := rfl
@[simp] theorem State.setCq_cuffs (s : State) (q : Nat) (x : Cq) : (s.setCq q x).cuffs = s.cuffs := rfl
@[simp] theorem State.setCq_panels (s : State) (q : Nat) (x : Cq) : (s.setCq q x).panels = s.panels := rfl
@[simp] theorem State.setCq_seams (s : State) (q : Nat) (x : Cq) : (s.setCq q x).seams = s.seams := rfl
@[simp] theorem State.setCq_map (s : State) (q : Nat) (x : Cq) : (s.setCq q x).map = s.map := rfl
@[simp] theorem State.setCq_time (s : State) (q : Nat) (x : Cq) : (s.setCq q x).time = s.time := rfl
@[simp] theorem State.setCq_yoke (s : State) (q : Nat) (x : Cq) : (s.setCq q x).yoke = s.yoke := rfl
@[simp] theorem State.setCq_cap (s : State) (q : Nat) (x : Cq) : (s.setCq q x).cap = s.cap := rfl
@[simp] theorem State.setCq_set (s : State) (q : Nat) (x : Cq) : (s.setCq q x).set = s.set := rfl
@[simp] theorem State.setCq_badRosters (s : State) (q : Nat) (x : Cq) : (s.setCq q x).badRosters = s.badRosters := rfl
@[simp] theorem State.setCq_scrubs (s : State) (q : Nat) (x : Cq) : (s.setCq q x).scrubs = s.scrubs := rfl
@[simp] theorem State.setCq_credit (s : State) (q : Nat) (x : Cq) : (s.setCq q x).credit = s.credit := rfl
@[simp] theorem State.setCq_host (s : State) (q : Nat) (x : Cq) : (s.setCq q x).host = { s.host with cqs := mapPut s.host.cqs q x } := rfl
@[simp] theorem State.setCq_power (s : State) (q : Nat) (x : Cq) : (s.setCq q x).power = s.power := rfl
@[simp] theorem State.setCq_thermal (s : State) (q : Nat) (x : Cq) : (s.setCq q x).thermal = s.thermal := rfl
@[simp] theorem State.setCq_log (s : State) (q : Nat) (x : Cq) : (s.setCq q x).log = s.log := rfl
@[simp] theorem State.setCq_mgmt (s : State) (q : Nat) (x : Cq) : (s.setCq q x).mgmt = s.mgmt := rfl
@[simp] theorem State.setCq_out (s : State) (q : Nat) (x : Cq) : (s.setCq q x).out = s.out := rfl
@[simp] theorem State.setCq_freeTick (s : State) (q : Nat) (x : Cq) : (s.setCq q x).freeTick = s.freeTick := rfl

/-! ### answer -/

@[simp] theorem State.answer_pending (s : State) (a : Answer) : (s.answer a).pending = s.pending := rfl
@[simp] theorem State.answer_mem (s : State) (a : Answer) : (s.answer a).mem = s.mem := rfl
@[simp] theorem State.answer_cores (s : State) (a : Answer) : (s.answer a).cores = s.cores := rfl
@[simp] theorem State.answer_rings (s : State) (a : Answer) : (s.answer a).rings = s.rings := rfl
@[simp] theorem State.answer_columns (s : State) (a : Answer) : (s.answer a).columns = s.columns := rfl
@[simp] theorem State.answer_cuffs (s : State) (a : Answer) : (s.answer a).cuffs = s.cuffs := rfl
@[simp] theorem State.answer_panels (s : State) (a : Answer) : (s.answer a).panels = s.panels := rfl
@[simp] theorem State.answer_seams (s : State) (a : Answer) : (s.answer a).seams = s.seams := rfl
@[simp] theorem State.answer_map (s : State) (a : Answer) : (s.answer a).map = s.map := rfl
@[simp] theorem State.answer_time (s : State) (a : Answer) : (s.answer a).time = s.time := rfl
@[simp] theorem State.answer_yoke (s : State) (a : Answer) : (s.answer a).yoke = s.yoke := rfl
@[simp] theorem State.answer_cap (s : State) (a : Answer) : (s.answer a).cap = s.cap := rfl
@[simp] theorem State.answer_set (s : State) (a : Answer) : (s.answer a).set = s.set := rfl
@[simp] theorem State.answer_badRosters (s : State) (a : Answer) : (s.answer a).badRosters = s.badRosters := rfl
@[simp] theorem State.answer_scrubs (s : State) (a : Answer) : (s.answer a).scrubs = s.scrubs := rfl
@[simp] theorem State.answer_credit (s : State) (a : Answer) : (s.answer a).credit = s.credit := rfl
@[simp] theorem State.answer_host (s : State) (a : Answer) : (s.answer a).host = s.host := rfl
@[simp] theorem State.answer_power (s : State) (a : Answer) : (s.answer a).power = s.power := rfl
@[simp] theorem State.answer_thermal (s : State) (a : Answer) : (s.answer a).thermal = s.thermal := rfl
@[simp] theorem State.answer_log (s : State) (a : Answer) : (s.answer a).log = s.log := rfl
@[simp] theorem State.answer_mgmt (s : State) (a : Answer) : (s.answer a).mgmt = s.mgmt := rfl
@[simp] theorem State.answer_out (s : State) (a : Answer) : (s.answer a).out = { s.out with answers := a :: s.out.answers } := rfl
@[simp] theorem State.answer_freeTick (s : State) (a : Answer) : (s.answer a).freeTick = s.freeTick := rfl

/-! ### drew -/

@[simp] theorem State.drew_pending (s : State) : (s.drew).pending = s.pending := rfl
@[simp] theorem State.drew_mem (s : State) : (s.drew).mem = s.mem := rfl
@[simp] theorem State.drew_cores (s : State) : (s.drew).cores = s.cores := rfl
@[simp] theorem State.drew_rings (s : State) : (s.drew).rings = s.rings := rfl
@[simp] theorem State.drew_columns (s : State) : (s.drew).columns = s.columns := rfl
@[simp] theorem State.drew_cuffs (s : State) : (s.drew).cuffs = s.cuffs := rfl
@[simp] theorem State.drew_panels (s : State) : (s.drew).panels = s.panels := rfl
@[simp] theorem State.drew_seams (s : State) : (s.drew).seams = s.seams := rfl
@[simp] theorem State.drew_map (s : State) : (s.drew).map = s.map := rfl
@[simp] theorem State.drew_time (s : State) : (s.drew).time = s.time := rfl
@[simp] theorem State.drew_yoke (s : State) : (s.drew).yoke = s.yoke := rfl
@[simp] theorem State.drew_cap (s : State) : (s.drew).cap = s.cap := rfl
@[simp] theorem State.drew_set (s : State) : (s.drew).set = s.set := rfl
@[simp] theorem State.drew_badRosters (s : State) : (s.drew).badRosters = s.badRosters := rfl
@[simp] theorem State.drew_scrubs (s : State) : (s.drew).scrubs = s.scrubs := rfl
@[simp] theorem State.drew_credit (s : State) : (s.drew).credit = s.credit := rfl
@[simp] theorem State.drew_host (s : State) : (s.drew).host = s.host := rfl
@[simp] theorem State.drew_power (s : State) : (s.drew).power = s.power := rfl
@[simp] theorem State.drew_thermal (s : State) : (s.drew).thermal = s.thermal := rfl
@[simp] theorem State.drew_log (s : State) : (s.drew).log = s.log := rfl
@[simp] theorem State.drew_mgmt (s : State) : (s.drew).mgmt = s.mgmt := rfl
@[simp] theorem State.drew_out (s : State) : (s.drew).out = s.out := rfl
@[simp] theorem State.drew_freeTick (s : State) : (s.drew).freeTick = s.freeTick + 1 := rfl

/-! ### reach -/

@[simp] theorem State.reach_pending (s : State) (t : Nat) : (s.reach t).pending = s.pending := rfl
@[simp] theorem State.reach_mem (s : State) (t : Nat) : (s.reach t).mem = s.mem := rfl
@[simp] theorem State.reach_cores (s : State) (t : Nat) : (s.reach t).cores = s.cores := rfl
@[simp] theorem State.reach_rings (s : State) (t : Nat) : (s.reach t).rings = s.rings := rfl
@[simp] theorem State.reach_columns (s : State) (t : Nat) : (s.reach t).columns = s.columns := rfl
@[simp] theorem State.reach_cuffs (s : State) (t : Nat) : (s.reach t).cuffs = s.cuffs := rfl
@[simp] theorem State.reach_panels (s : State) (t : Nat) : (s.reach t).panels = s.panels := rfl
@[simp] theorem State.reach_seams (s : State) (t : Nat) : (s.reach t).seams = s.seams := rfl
@[simp] theorem State.reach_map (s : State) (t : Nat) : (s.reach t).map = s.map := rfl
@[simp] theorem State.reach_time (s : State) (t : Nat) : (s.reach t).time = { s.time with now := max s.time.now t } := rfl
@[simp] theorem State.reach_yoke (s : State) (t : Nat) : (s.reach t).yoke = s.yoke := rfl
@[simp] theorem State.reach_cap (s : State) (t : Nat) : (s.reach t).cap = s.cap := rfl
@[simp] theorem State.reach_set (s : State) (t : Nat) : (s.reach t).set = s.set := rfl
@[simp] theorem State.reach_badRosters (s : State) (t : Nat) : (s.reach t).badRosters = s.badRosters := rfl
@[simp] theorem State.reach_scrubs (s : State) (t : Nat) : (s.reach t).scrubs = s.scrubs := rfl
@[simp] theorem State.reach_credit (s : State) (t : Nat) : (s.reach t).credit = s.credit := rfl
@[simp] theorem State.reach_host (s : State) (t : Nat) : (s.reach t).host = s.host := rfl
@[simp] theorem State.reach_power (s : State) (t : Nat) : (s.reach t).power = s.power := rfl
@[simp] theorem State.reach_thermal (s : State) (t : Nat) : (s.reach t).thermal = s.thermal := rfl
@[simp] theorem State.reach_log (s : State) (t : Nat) : (s.reach t).log = s.log := rfl
@[simp] theorem State.reach_mgmt (s : State) (t : Nat) : (s.reach t).mgmt = s.mgmt := rfl
@[simp] theorem State.reach_out (s : State) (t : Nat) : (s.reach t).out = s.out := rfl
@[simp] theorem State.reach_freeTick (s : State) (t : Nat) : (s.reach t).freeTick = s.freeTick := rfl

/-! ### setLogSource -/

@[simp] theorem State.setLogSource_pending (s : State) (g : Nat) (x : LogSource) : (s.setLogSource g x).pending = s.pending := rfl
@[simp] theorem State.setLogSource_mem (s : State) (g : Nat) (x : LogSource) : (s.setLogSource g x).mem = s.mem := rfl
@[simp] theorem State.setLogSource_cores (s : State) (g : Nat) (x : LogSource) : (s.setLogSource g x).cores = s.cores := rfl
@[simp] theorem State.setLogSource_rings (s : State) (g : Nat) (x : LogSource) : (s.setLogSource g x).rings = s.rings := rfl
@[simp] theorem State.setLogSource_columns (s : State) (g : Nat) (x : LogSource) : (s.setLogSource g x).columns = s.columns := rfl
@[simp] theorem State.setLogSource_cuffs (s : State) (g : Nat) (x : LogSource) : (s.setLogSource g x).cuffs = s.cuffs := rfl
@[simp] theorem State.setLogSource_panels (s : State) (g : Nat) (x : LogSource) : (s.setLogSource g x).panels = s.panels := rfl
@[simp] theorem State.setLogSource_seams (s : State) (g : Nat) (x : LogSource) : (s.setLogSource g x).seams = s.seams := rfl
@[simp] theorem State.setLogSource_map (s : State) (g : Nat) (x : LogSource) : (s.setLogSource g x).map = s.map := rfl
@[simp] theorem State.setLogSource_time (s : State) (g : Nat) (x : LogSource) : (s.setLogSource g x).time = s.time := rfl
@[simp] theorem State.setLogSource_yoke (s : State) (g : Nat) (x : LogSource) : (s.setLogSource g x).yoke = s.yoke := rfl
@[simp] theorem State.setLogSource_cap (s : State) (g : Nat) (x : LogSource) : (s.setLogSource g x).cap = s.cap := rfl
@[simp] theorem State.setLogSource_set (s : State) (g : Nat) (x : LogSource) : (s.setLogSource g x).set = s.set := rfl
@[simp] theorem State.setLogSource_badRosters (s : State) (g : Nat) (x : LogSource) : (s.setLogSource g x).badRosters = s.badRosters := rfl
@[simp] theorem State.setLogSource_scrubs (s : State) (g : Nat) (x : LogSource) : (s.setLogSource g x).scrubs = s.scrubs := rfl
@[simp] theorem State.setLogSource_credit (s : State) (g : Nat) (x : LogSource) : (s.setLogSource g x).credit = s.credit := rfl
@[simp] theorem State.setLogSource_host (s : State) (g : Nat) (x : LogSource) : (s.setLogSource g x).host = s.host := rfl
@[simp] theorem State.setLogSource_power (s : State) (g : Nat) (x : LogSource) : (s.setLogSource g x).power = s.power := rfl
@[simp] theorem State.setLogSource_thermal (s : State) (g : Nat) (x : LogSource) : (s.setLogSource g x).thermal = s.thermal := rfl
@[simp] theorem State.setLogSource_log (s : State) (g : Nat) (x : LogSource) : (s.setLogSource g x).log = { s.log with sources := mapPut s.log.sources g x } := rfl
@[simp] theorem State.setLogSource_mgmt (s : State) (g : Nat) (x : LogSource) : (s.setLogSource g x).mgmt = s.mgmt := rfl
@[simp] theorem State.setLogSource_out (s : State) (g : Nat) (x : LogSource) : (s.setLogSource g x).out = s.out := rfl
@[simp] theorem State.setLogSource_freeTick (s : State) (g : Nat) (x : LogSource) : (s.setLogSource g x).freeTick = s.freeTick := rfl

/-! ### updHost -/

@[simp] theorem State.updHost_pending (s : State) (f : HostIf → HostIf) : (s.updHost f).pending = s.pending := rfl
@[simp] theorem State.updHost_mem (s : State) (f : HostIf → HostIf) : (s.updHost f).mem = s.mem := rfl
@[simp] theorem State.updHost_cores (s : State) (f : HostIf → HostIf) : (s.updHost f).cores = s.cores := rfl
@[simp] theorem State.updHost_rings (s : State) (f : HostIf → HostIf) : (s.updHost f).rings = s.rings := rfl
@[simp] theorem State.updHost_columns (s : State) (f : HostIf → HostIf) : (s.updHost f).columns = s.columns := rfl
@[simp] theorem State.updHost_cuffs (s : State) (f : HostIf → HostIf) : (s.updHost f).cuffs = s.cuffs := rfl
@[simp] theorem State.updHost_panels (s : State) (f : HostIf → HostIf) : (s.updHost f).panels = s.panels := rfl
@[simp] theorem State.updHost_seams (s : State) (f : HostIf → HostIf) : (s.updHost f).seams = s.seams := rfl
@[simp] theorem State.updHost_map (s : State) (f : HostIf → HostIf) : (s.updHost f).map = s.map := rfl
@[simp] theorem State.updHost_time (s : State) (f : HostIf → HostIf) : (s.updHost f).time = s.time := rfl
@[simp] theorem State.updHost_yoke (s : State) (f : HostIf → HostIf) : (s.updHost f).yoke = s.yoke := rfl
@[simp] theorem State.updHost_cap (s : State) (f : HostIf → HostIf) : (s.updHost f).cap = s.cap := rfl
@[simp] theorem State.updHost_set (s : State) (f : HostIf → HostIf) : (s.updHost f).set = s.set := rfl
@[simp] theorem State.updHost_badRosters (s : State) (f : HostIf → HostIf) : (s.updHost f).badRosters = s.badRosters := rfl
@[simp] theorem State.updHost_scrubs (s : State) (f : HostIf → HostIf) : (s.updHost f).scrubs = s.scrubs := rfl
@[simp] theorem State.updHost_credit (s : State) (f : HostIf → HostIf) : (s.updHost f).credit = s.credit := rfl
@[simp] theorem State.updHost_host (s : State) (f : HostIf → HostIf) : (s.updHost f).host = f s.host := rfl
@[simp] theorem State.updHost_power (s : State) (f : HostIf → HostIf) : (s.updHost f).power = s.power := rfl
@[simp] theorem State.updHost_thermal (s : State) (f : HostIf → HostIf) : (s.updHost f).thermal = s.thermal := rfl
@[simp] theorem State.updHost_log (s : State) (f : HostIf → HostIf) : (s.updHost f).log = s.log := rfl
@[simp] theorem State.updHost_mgmt (s : State) (f : HostIf → HostIf) : (s.updHost f).mgmt = s.mgmt := rfl
@[simp] theorem State.updHost_out (s : State) (f : HostIf → HostIf) : (s.updHost f).out = s.out := rfl
@[simp] theorem State.updHost_freeTick (s : State) (f : HostIf → HostIf) : (s.updHost f).freeTick = s.freeTick := rfl

/-! ### setTransfer -/

@[simp] theorem State.setTransfer_pending (s : State) (i : Nat) (t : Transfer) : (s.setTransfer i t).pending = s.pending := rfl
@[simp] theorem State.setTransfer_mem (s : State) (i : Nat) (t : Transfer) : (s.setTransfer i t).mem = s.mem := rfl
@[simp] theorem State.setTransfer_cores (s : State) (i : Nat) (t : Transfer) : (s.setTransfer i t).cores = s.cores := rfl
@[simp] theorem State.setTransfer_rings (s : State) (i : Nat) (t : Transfer) : (s.setTransfer i t).rings = s.rings := rfl
@[simp] theorem State.setTransfer_columns (s : State) (i : Nat) (t : Transfer) : (s.setTransfer i t).columns = s.columns := rfl
@[simp] theorem State.setTransfer_cuffs (s : State) (i : Nat) (t : Transfer) : (s.setTransfer i t).cuffs = s.cuffs := rfl
@[simp] theorem State.setTransfer_panels (s : State) (i : Nat) (t : Transfer) : (s.setTransfer i t).panels = s.panels := rfl
@[simp] theorem State.setTransfer_seams (s : State) (i : Nat) (t : Transfer) : (s.setTransfer i t).seams = s.seams := rfl
@[simp] theorem State.setTransfer_map (s : State) (i : Nat) (t : Transfer) : (s.setTransfer i t).map = s.map := rfl
@[simp] theorem State.setTransfer_time (s : State) (i : Nat) (t : Transfer) : (s.setTransfer i t).time = s.time := rfl
@[simp] theorem State.setTransfer_yoke (s : State) (i : Nat) (t : Transfer) : (s.setTransfer i t).yoke = s.yoke := rfl
@[simp] theorem State.setTransfer_cap (s : State) (i : Nat) (t : Transfer) : (s.setTransfer i t).cap = s.cap := rfl
@[simp] theorem State.setTransfer_set (s : State) (i : Nat) (t : Transfer) : (s.setTransfer i t).set = s.set := rfl
@[simp] theorem State.setTransfer_badRosters (s : State) (i : Nat) (t : Transfer) : (s.setTransfer i t).badRosters = s.badRosters := rfl
@[simp] theorem State.setTransfer_scrubs (s : State) (i : Nat) (t : Transfer) : (s.setTransfer i t).scrubs = s.scrubs := rfl
@[simp] theorem State.setTransfer_credit (s : State) (i : Nat) (t : Transfer) : (s.setTransfer i t).credit = s.credit := rfl
@[simp] theorem State.setTransfer_host (s : State) (i : Nat) (t : Transfer) : (s.setTransfer i t).host = { s.host with transfers := s.host.transfers.set i t } := rfl
@[simp] theorem State.setTransfer_power (s : State) (i : Nat) (t : Transfer) : (s.setTransfer i t).power = s.power := rfl
@[simp] theorem State.setTransfer_thermal (s : State) (i : Nat) (t : Transfer) : (s.setTransfer i t).thermal = s.thermal := rfl
@[simp] theorem State.setTransfer_log (s : State) (i : Nat) (t : Transfer) : (s.setTransfer i t).log = s.log := rfl
@[simp] theorem State.setTransfer_mgmt (s : State) (i : Nat) (t : Transfer) : (s.setTransfer i t).mgmt = s.mgmt := rfl
@[simp] theorem State.setTransfer_out (s : State) (i : Nat) (t : Transfer) : (s.setTransfer i t).out = s.out := rfl
@[simp] theorem State.setTransfer_freeTick (s : State) (i : Nat) (t : Transfer) : (s.setTransfer i t).freeTick = s.freeTick := rfl

/-! ### updNear -/

@[simp] theorem State.updNear_pending (s : State) (k : Nat) (c : NearCommand) (f : NearTaken → NearTaken) : (s.updNear k c f).pending = s.pending := rfl
@[simp] theorem State.updNear_mem (s : State) (k : Nat) (c : NearCommand) (f : NearTaken → NearTaken) : (s.updNear k c f).mem = s.mem := rfl
@[simp] theorem State.updNear_cores (s : State) (k : Nat) (c : NearCommand) (f : NearTaken → NearTaken) : (s.updNear k c f).cores = s.cores := rfl
@[simp] theorem State.updNear_rings (s : State) (k : Nat) (c : NearCommand) (f : NearTaken → NearTaken) : (s.updNear k c f).rings = s.rings := rfl
@[simp] theorem State.updNear_columns (s : State) (k : Nat) (c : NearCommand) (f : NearTaken → NearTaken) : (s.updNear k c f).columns = s.columns := rfl
@[simp] theorem State.updNear_cuffs (s : State) (k : Nat) (c : NearCommand) (f : NearTaken → NearTaken) : (s.updNear k c f).cuffs = s.cuffs := rfl
@[simp] theorem State.updNear_panels (s : State) (k : Nat) (c : NearCommand) (f : NearTaken → NearTaken) : (s.updNear k c f).panels = s.panels := rfl
@[simp] theorem State.updNear_seams (s : State) (k : Nat) (c : NearCommand) (f : NearTaken → NearTaken) : (s.updNear k c f).seams = s.seams := rfl
@[simp] theorem State.updNear_map (s : State) (k : Nat) (c : NearCommand) (f : NearTaken → NearTaken) : (s.updNear k c f).map = s.map := rfl
@[simp] theorem State.updNear_time (s : State) (k : Nat) (c : NearCommand) (f : NearTaken → NearTaken) : (s.updNear k c f).time = s.time := rfl
@[simp] theorem State.updNear_yoke (s : State) (k : Nat) (c : NearCommand) (f : NearTaken → NearTaken) : (s.updNear k c f).yoke = s.yoke := rfl
@[simp] theorem State.updNear_cap (s : State) (k : Nat) (c : NearCommand) (f : NearTaken → NearTaken) : (s.updNear k c f).cap = { s.cap with near := changeNear s.cap.near c k f } := rfl
@[simp] theorem State.updNear_set (s : State) (k : Nat) (c : NearCommand) (f : NearTaken → NearTaken) : (s.updNear k c f).set = s.set := rfl
@[simp] theorem State.updNear_badRosters (s : State) (k : Nat) (c : NearCommand) (f : NearTaken → NearTaken) : (s.updNear k c f).badRosters = s.badRosters := rfl
@[simp] theorem State.updNear_scrubs (s : State) (k : Nat) (c : NearCommand) (f : NearTaken → NearTaken) : (s.updNear k c f).scrubs = s.scrubs := rfl
@[simp] theorem State.updNear_credit (s : State) (k : Nat) (c : NearCommand) (f : NearTaken → NearTaken) : (s.updNear k c f).credit = s.credit := rfl
@[simp] theorem State.updNear_host (s : State) (k : Nat) (c : NearCommand) (f : NearTaken → NearTaken) : (s.updNear k c f).host = s.host := rfl
@[simp] theorem State.updNear_power (s : State) (k : Nat) (c : NearCommand) (f : NearTaken → NearTaken) : (s.updNear k c f).power = s.power := rfl
@[simp] theorem State.updNear_thermal (s : State) (k : Nat) (c : NearCommand) (f : NearTaken → NearTaken) : (s.updNear k c f).thermal = s.thermal := rfl
@[simp] theorem State.updNear_log (s : State) (k : Nat) (c : NearCommand) (f : NearTaken → NearTaken) : (s.updNear k c f).log = s.log := rfl
@[simp] theorem State.updNear_mgmt (s : State) (k : Nat) (c : NearCommand) (f : NearTaken → NearTaken) : (s.updNear k c f).mgmt = s.mgmt := rfl
@[simp] theorem State.updNear_out (s : State) (k : Nat) (c : NearCommand) (f : NearTaken → NearTaken) : (s.updNear k c f).out = s.out := rfl
@[simp] theorem State.updNear_freeTick (s : State) (k : Nat) (c : NearCommand) (f : NearTaken → NearTaken) : (s.updNear k c f).freeTick = s.freeTick := rfl

/-! ### updClamp -/

@[simp] theorem State.updClamp_pending (s : State) (f : Clamp → Clamp) : (s.updClamp f).pending = s.pending := rfl
@[simp] theorem State.updClamp_mem (s : State) (f : Clamp → Clamp) : (s.updClamp f).mem = s.mem := rfl
@[simp] theorem State.updClamp_cores (s : State) (f : Clamp → Clamp) : (s.updClamp f).cores = s.cores := rfl
@[simp] theorem State.updClamp_rings (s : State) (f : Clamp → Clamp) : (s.updClamp f).rings = s.rings := rfl
@[simp] theorem State.updClamp_columns (s : State) (f : Clamp → Clamp) : (s.updClamp f).columns = s.columns := rfl
@[simp] theorem State.updClamp_cuffs (s : State) (f : Clamp → Clamp) : (s.updClamp f).cuffs = s.cuffs := rfl
@[simp] theorem State.updClamp_panels (s : State) (f : Clamp → Clamp) : (s.updClamp f).panels = s.panels := rfl
@[simp] theorem State.updClamp_seams (s : State) (f : Clamp → Clamp) : (s.updClamp f).seams = s.seams := rfl
@[simp] theorem State.updClamp_map (s : State) (f : Clamp → Clamp) : (s.updClamp f).map = s.map := rfl
@[simp] theorem State.updClamp_time (s : State) (f : Clamp → Clamp) : (s.updClamp f).time = s.time := rfl
@[simp] theorem State.updClamp_yoke (s : State) (f : Clamp → Clamp) : (s.updClamp f).yoke = s.yoke := rfl
@[simp] theorem State.updClamp_cap (s : State) (f : Clamp → Clamp) : (s.updClamp f).cap = s.cap := rfl
@[simp] theorem State.updClamp_set (s : State) (f : Clamp → Clamp) : (s.updClamp f).set = s.set := rfl
@[simp] theorem State.updClamp_badRosters (s : State) (f : Clamp → Clamp) : (s.updClamp f).badRosters = s.badRosters := rfl
@[simp] theorem State.updClamp_scrubs (s : State) (f : Clamp → Clamp) : (s.updClamp f).scrubs = s.scrubs := rfl
@[simp] theorem State.updClamp_credit (s : State) (f : Clamp → Clamp) : (s.updClamp f).credit = s.credit := rfl
@[simp] theorem State.updClamp_host (s : State) (f : Clamp → Clamp) : (s.updClamp f).host = s.host := rfl
@[simp] theorem State.updClamp_power (s : State) (f : Clamp → Clamp) : (s.updClamp f).power = s.power := rfl
@[simp] theorem State.updClamp_thermal (s : State) (f : Clamp → Clamp) : (s.updClamp f).thermal = { s.thermal with clamp := f s.thermal.clamp } := rfl
@[simp] theorem State.updClamp_log (s : State) (f : Clamp → Clamp) : (s.updClamp f).log = s.log := rfl
@[simp] theorem State.updClamp_mgmt (s : State) (f : Clamp → Clamp) : (s.updClamp f).mgmt = s.mgmt := rfl
@[simp] theorem State.updClamp_out (s : State) (f : Clamp → Clamp) : (s.updClamp f).out = s.out := rfl
@[simp] theorem State.updClamp_freeTick (s : State) (f : Clamp → Clamp) : (s.updClamp f).freeTick = s.freeTick := rfl

/-! ### A part read after a write -/

theorem State.core_setCore (s : State) (n m : Nat) (x : Core) : (s.setCore n x).core m = if m = n then x else s.core m :=
  mapGet_mapPut _ _ _ _ _

@[simp] theorem State.core_setCore_same (s : State) (n : Nat) (x : Core) : (s.setCore n x).core n = x :=
  mapGet_mapPut_same _ _ _ _

theorem State.ring_setRing (s : State) (n m : Nat) (x : Ring) : (s.setRing n x).ring m = if m = n then x else s.ring m :=
  mapGet_mapPut _ _ _ _ _

@[simp] theorem State.ring_setRing_same (s : State) (n : Nat) (x : Ring) : (s.setRing n x).ring n = x :=
  mapGet_mapPut_same _ _ _ _

theorem State.column_setColumn (s : State) (n m : Nat) (x : Column) : (s.setColumn n x).column m = if m = n then x else s.column m :=
  mapGet_mapPut _ _ _ _ _

@[simp] theorem State.column_setColumn_same (s : State) (n : Nat) (x : Column) : (s.setColumn n x).column n = x :=
  mapGet_mapPut_same _ _ _ _

theorem State.cuff_setCuff (s : State) (n m : Nat) (x : Cuff) : (s.setCuff n x).cuff m = if m = n then x else s.cuff m :=
  mapGet_mapPut _ _ _ _ _

@[simp] theorem State.cuff_setCuff_same (s : State) (n : Nat) (x : Cuff) : (s.setCuff n x).cuff n = x :=
  mapGet_mapPut_same _ _ _ _

theorem State.panel_setPanel (s : State) (n m : Nat) (x : Panel) : (s.setPanel n x).panel m = if m = n then x else s.panel m :=
  mapGet_mapPut _ _ _ _ _

@[simp] theorem State.panel_setPanel_same (s : State) (n : Nat) (x : Panel) : (s.setPanel n x).panel n = x :=
  mapGet_mapPut_same _ _ _ _

theorem State.seam_setSeam (s : State) (n m : Nat) (x : SeamPort) : (s.setSeam n x).seam m = if m = n then x else s.seam m :=
  mapGet_mapPut _ _ _ _ _

@[simp] theorem State.seam_setSeam_same (s : State) (n : Nat) (x : SeamPort) : (s.setSeam n x).seam n = x :=
  mapGet_mapPut_same _ _ _ _

theorem State.sq_setSq (s : State) (n m : Nat) (x : Sq) : (s.setSq n x).sq m = if m = n then x else s.sq m :=
  mapGet_mapPut _ _ _ _ _

@[simp] theorem State.sq_setSq_same (s : State) (n : Nat) (x : Sq) : (s.setSq n x).sq n = x :=
  mapGet_mapPut_same _ _ _ _

theorem State.cq_setCq (s : State) (n m : Nat) (x : Cq) : (s.setCq n x).cq m = if m = n then x else s.cq m :=
  mapGet_mapPut _ _ _ _ _

@[simp] theorem State.cq_setCq_same (s : State) (n : Nat) (x : Cq) : (s.setCq n x).cq n = x :=
  mapGet_mapPut_same _ _ _ _

/-! ### The log, events, signals and time -/

/-- A report changes the log alone. -/
theorem State.file_only (s : State) (r : Report) : s.file r = { s with log := (s.file r).log } := by
  unfold State.file
  dsimp only
  split <;> rfl

/-- Reports filed in order change the log alone. -/
theorem State.fileAll_only (s : State) (rs : List Report) : s.fileAll rs = { s with log := (s.fileAll rs).log } := by
  unfold State.fileAll foldOver
  induction rs generalizing s with
  | nil => rfl
  | cons r t ih =>
    rw [List.foldl_cons, ih, State.file_only]

/-- A record noted changes the log alone. -/
theorem State.note_only (s : State) (cls group location detail aux : Nat) :
    s.note cls group location detail aux = { s with log := (s.note cls group location detail aux).log } :=
  s.file_only _

/-- A vector's signal changes the pending bits and the messages sent alone. -/
theorem State.signal_only (s : State) (v : Nat) :
    s.signal v = { s with host := { s.host with msixPending := (s.signal v).host.msixPending },
                          out := { s.out with msix := (s.signal v).out.msix } } := by
  unfold State.signal
  split <;> rfl

/-- An event changes the holdoffs and the events sent alone. -/
theorem State.event_only (s : State) (name : EventName) (source state : Nat) :
    s.event name source state =
      { s with mgmt := { s.mgmt with holdoffs := (s.event name source state).mgmt.holdoffs },
               out := { s.out with events := (s.event name source state).out.events } } := by
  unfold State.event
  dsimp only
  repeat' (first | rfl | split)

/-- An idle step changes the timebase alone. -/
theorem State.tick_only (s : State) : s.tick = { s with time := { s.time with now := s.tick.time.now } } := by
  unfold State.tick
  split <;> rfl

@[simp] theorem State.fileAll_nil (s : State) : s.fileAll [] = s := rfl

/-- What a unit of a core did comes back, where it neither reports nor clashes: its core and the memory. -/
theorem State.putLocal_quiet (s : State) (n : Nat) (l : Local) (hc : l.clashes = 0) (hr : l.reports = []) :
    s.putLocal n l = { s with cores := mapPut s.cores n l.core, mem := l.mem } := by
  unfold State.putLocal
  simp [hc, hr, State.setCore]

/-- A unit of a core that is up acts. -/
theorem State.onCore_up (s : State) (n : Nat) (f : Local → Local) (h : s.coreUp n = true) :
    s.onCore n f = s.putLocal n (f (s.localOf n)) := by
  unfold State.onCore
  simp [h]

/-- A unit of a core that is not up does nothing. -/
theorem State.onCore_down (s : State) (n : Nat) (f : Local → Local) (h : s.coreUp n = false) : s.onCore n f = s := by
  unfold State.onCore
  simp [h]

end Sys2Proof.Machine
end

