-- ==== Sys2Proof/Laws/Pump.lean ====
section
/-!
SUPPORT. What the progress of a core's units between words cannot touch (`UnitKeeps`): the sequencer but for a roster fault, the
step bookkeeping but for a parity mark, the vector unit, the controls, the supply, the MOVE queue and the regions.
-/

namespace Sys2Proof.Machine

/-- `m` comes after `l` by a unit's progress. -/
structure UnitKeeps (l m : Local) : Prop where
  env : m.env = l.env
  seq : m.core.seq = { l.core.seq with fault := m.core.seq.fault, run := m.core.seq.run, stoppedByFault := m.core.seq.stoppedByFault }
  step : m.core.step = { l.core.step with parity := m.core.step.parity }
  vec : m.core.vec = l.core.vec
  ctrl : m.core.ctrl = l.core.ctrl
  supply : m.core.supply = l.core.supply
  shown : m.core.shown = l.core.shown
  moveQ : m.core.moveQ = l.core.moveQ
  regions : m.core.regions = l.core.regions

theorem UnitKeeps.refl (l : Local) : UnitKeeps l l := ⟨rfl, rfl, rfl, rfl, rfl, rfl, rfl, rfl, rfl⟩

theorem UnitKeeps.trans {l m k : Local} (h : UnitKeeps l m) (g : UnitKeeps m k) : UnitKeeps l k :=
  ⟨g.env.trans h.env, by rw [g.seq, h.seq], by rw [g.step, h.step], g.vec.trans h.vec, g.ctrl.trans h.ctrl,
   g.supply.trans h.supply, g.shown.trans h.shown, g.moveQ.trans h.moveQ, g.regions.trans h.regions⟩

theorem Local.report_unit {l x : Local} (h : UnitKeeps l x) (r : Report) : UnitKeeps l (x.report r) :=
  ⟨h.env, h.seq, h.step, h.vec, h.ctrl, h.supply, h.shown, h.moveQ, h.regions⟩

theorem Local.rosterFault_unit {l x : Local} (h : UnitKeeps l x) (kind slot : Nat) (word : BitVec 28) :
    UnitKeeps l (x.rosterFault kind slot word) := by
  refine h.trans ?_
  unfold Local.rosterFault
  split
  · exact .refl x
  · exact ⟨rfl, rfl, rfl, rfl, rfl, rfl, rfl, rfl, rfl⟩

theorem Local.stepParity_unit {l x : Local} (h : UnitKeeps l x) : UnitKeeps l x.stepParity := by
  refine h.trans ?_
  unfold Local.stepParity
  split
  · exact ⟨rfl, rfl, rfl, rfl, rfl, rfl, rfl, rfl, rfl⟩
  · exact Local.rosterFault_unit (.refl x) _ _ _

/-- The mark of a bank changes the scratchpad's state alone. -/
theorem countParity_core (c : Core) (port w : Nat) : countParity c port w = { c with scr := (countParity c port w).scr } := by
  unfold countParity markBank
  dsimp only
  repeat' (first | rfl | split)

theorem Local.findParity_unit {l x : Local} (h : UnitKeeps l x) (port : Nat) (bad : List Nat) :
    UnitKeeps l (x.findParity port bad) := by
  induction bad generalizing x with
  | nil => exact h
  | cons w r ih =>
    unfold Local.findParity
    apply ih
    have k : UnitKeeps l (({ x with core := countParity x.core port w } : Local).report (parityReport x port w)) := by
      rw [countParity_core]
      exact h.trans ⟨rfl, rfl, rfl, rfl, rfl, rfl, rfl, rfl, rfl⟩
    split
    · exact Local.stepParity_unit k
    · exact k

theorem Local.writeScr_unit {l x : Local} (h : UnitKeeps l x) (off : Nat) (bytes : List Byte) : UnitKeeps l (x.writeScr off bytes) :=
  h.trans ⟨rfl, rfl, rfl, rfl, rfl, rfl, rfl, rfl, rfl⟩

theorem Local.arrUpd_unit {l x : Local} (h : UnitKeeps l x) (f : ArrayState → ArrayState) : UnitKeeps l (x.arrUpd f) :=
  h.trans ⟨rfl, rfl, rfl, rfl, rfl, rfl, rfl, rfl, rfl⟩

theorem Local.attUpd_unit {l x : Local} (h : UnitKeeps l x) (f : AttState → AttState) : UnitKeeps l (x.attUpd f) :=
  h.trans ⟨rfl, rfl, rfl, rfl, rfl, rfl, rfl, rfl, rfl⟩

theorem Local.countNumeric_unit {l x : Local} (h : UnitKeeps l x) (clamps nans : Nat) : UnitKeeps l (x.countNumeric clamps nans) :=
  h.trans ⟨rfl, rfl, rfl, rfl, rfl, rfl, rfl, rfl, rfl⟩

theorem Local.scrUpd_unit {l x : Local} (h : UnitKeeps l x) (f : ScratchState → ScratchState) : UnitKeeps l (x.scrUpd f) :=
  h.trans ⟨rfl, rfl, rfl, rfl, rfl, rfl, rfl, rfl, rfl⟩

theorem Local.cross_unit {l x : Local} (h : UnitKeeps l x) (port : Nat) (lines : List Nat) : UnitKeeps l (Local.cross x port lines) := by
  unfold Local.cross
  repeat' (first | with_reducible exact h | with_reducible apply Local.scrUpd_unit | dsimp only | split)

theorem Local.crossAll_unit {l x : Local} (h : UnitKeeps l x) (ps : List (Nat × Pattern)) : UnitKeeps l (Local.crossAll x ps) := by
  unfold Local.crossAll
  induction ps generalizing x with
  | nil => exact h
  | cons p r ih => exact ih (Local.cross_unit h _ _)

theorem Local.readScr_unit {l x : Local} (h : UnitKeeps l x) (port : Nat) (off : Nat) (len : Nat) : UnitKeeps l (Local.readScr x port off len).2 := by
  unfold Local.readScr
  repeat' (first | with_reducible exact h | with_reducible apply Local.findParity_unit | dsimp only | split)

theorem Local.readRuns_unit {l x : Local} (h : UnitKeeps l x) (port : Nat) (len : Nat) (starts : List Int) : UnitKeeps l (Local.readRuns x port len starts).2 := by
  induction starts generalizing x with
  | nil => exact h
  | cons a r ih => exact ih (Local.readScr_unit h _ _ _)

theorem Local.writeRuns_unit {l x : Local} (h : UnitKeeps l x) (starts : List Int) (runs : List (List Byte)) : UnitKeeps l (Local.writeRuns x starts runs) := by
  induction starts generalizing x runs with
  | nil => exact h
  | cons a r ih =>
    cases runs with
    | nil => exact h
    | cons b t => exact ih (Local.writeScr_unit h _ _) t

theorem Local.runWload_unit {l x : Local} (h : UnitKeeps l x) (sy : Bool) (x' : Pattern) (packed : Bool) : UnitKeeps l (Local.runWload x sy x' packed) := by
  unfold Local.runWload
  repeat' (first | with_reducible exact h | with_reducible apply Local.arrUpd_unit | with_reducible apply Local.cross_unit | with_reducible apply Local.readRuns_unit | dsimp only | split)

theorem Local.runAttMode_unit {l x : Local} (h : UnitKeeps l x) (x' : Pattern) : UnitKeeps l (Local.runAttMode x x') := by
  unfold Local.runAttMode
  repeat' (first | with_reducible exact h | with_reducible apply Local.attUpd_unit | with_reducible apply Local.cross_unit | with_reducible apply Local.readRuns_unit | dsimp only | split)

theorem Local.loadQueries_unit {l x : Local} (h : UnitKeeps l x) (x' : Pattern) (y : Option Pattern) : UnitKeeps l (Local.loadQueries x x' y) := by
  unfold Local.loadQueries
  repeat' (first | with_reducible exact h | with_reducible apply Local.attUpd_unit | with_reducible apply Local.crossAll_unit | with_reducible apply Local.readRuns_unit | dsimp only | split)

theorem Local.runAttOut_unit {l x : Local} (h : UnitKeeps l x) (x' : Pattern) (y : Option Pattern) : UnitKeeps l (Local.runAttOut x x' y) := by
  unfold Local.runAttOut
  repeat' (first | with_reducible exact h | with_reducible apply Local.attUpd_unit | with_reducible apply Local.countNumeric_unit | with_reducible apply Local.crossAll_unit | with_reducible apply Local.writeRuns_unit | dsimp only | split)

theorem readProbes_unit {l x : Local} (h : UnitKeeps l x) (r : WalkRecord) : UnitKeeps l (readProbes x r).2 := by
  unfold readProbes
  repeat' (first | with_reducible exact h | with_reducible apply Local.cross_unit | with_reducible apply Local.readScr_unit | dsimp only | split)

theorem Local.startWalk_unit {l x : Local} (h : UnitKeeps l x) (x' : Pattern) (lap : BitVec 2) (word : BitVec 28) : UnitKeeps l (Local.startWalk x x' lap word) := by
  unfold Local.startWalk
  repeat' (first | with_reducible exact h | with_reducible apply Local.attUpd_unit | with_reducible apply Local.cross_unit | with_reducible apply Local.readRuns_unit | with_reducible apply readProbes_unit | dsimp only | split)

theorem Local.deliverNext_unit {l x : Local} (h : UnitKeeps l x) (fuel : Nat) : UnitKeeps l (Local.deliverNext fuel x) := by
  induction fuel generalizing x with
  | zero => exact h
  | succ k ih =>
    unfold Local.deliverNext
    split
    · next j w hk _ =>
      obtain rfl : k = j := by simpa using hk
      repeat' (first | with_reducible exact h | with_reducible apply ih | with_reducible apply Local.attUpd_unit | dsimp only | split)
    · exact h

theorem Local.arrayStep_unit {l x : Local} (h : UnitKeeps l x) : UnitKeeps l (Local.arrayStep x) := by
  unfold Local.arrayStep
  repeat' (first | with_reducible exact h | with_reducible apply Local.arrUpd_unit | with_reducible apply Local.runWload_unit | dsimp only | split)

theorem Local.attStep_unit {l x : Local} (h : UnitKeeps l x) : UnitKeeps l (Local.attStep x) := by
  unfold Local.attStep
  repeat' (first | with_reducible exact h | with_reducible apply Local.attUpd_unit | with_reducible apply Local.runAttMode_unit | with_reducible apply Local.loadQueries_unit | with_reducible apply Local.runAttOut_unit | with_reducible apply Local.startWalk_unit | with_reducible apply Local.deliverNext_unit | dsimp only | split)

theorem Local.preload_unit {l x : Local} (h : UnitKeeps l x) : UnitKeeps l (Local.preload x) := by
  unfold Local.preload
  repeat' (first | with_reducible exact h | with_reducible apply Local.loadQueries_unit | dsimp only | split)

/-- Progress made a number of times. -/
theorem iterate_unit (f : Local → Local) (hf : ∀ {l x : Local}, UnitKeeps l x → UnitKeeps l (f x)) {l x : Local} (h : UnitKeeps l x)
    (n : Nat) : UnitKeeps l (iterate n f x) := by
  induction n generalizing x with
  | zero => exact h
  | succ k ih => exact ih (hf h)

/-! ### The MOVE queue -/

/-- What the judgement of credit operations can change of a core, its queue apart: the scratchpad's windows and the records. -/
structure JudgeKeeps (l m : Local) : Prop where
  core : m.core = { l.core with scr := m.core.scr }
  env : m.env = l.env
  mem : m.mem = l.mem
  clashes : m.clashes = l.clashes

theorem JudgeKeeps.refl (l : Local) : JudgeKeeps l l := ⟨rfl, rfl, rfl, rfl⟩

theorem JudgeKeeps.trans {l m k : Local} (h : JudgeKeeps l m) (g : JudgeKeeps m k) : JudgeKeeps l k :=
  ⟨by rw [g.core, h.core], g.env.trans h.env, g.mem.trans h.mem, g.clashes.trans h.clashes⟩

/-- One judgement: the operation keeps what it captured. -/
theorem judgeOp_op (l : Local) (before : List MoveOp) (o : MoveOp) :
    (judgeOp l before o).2 = { o with judged := (judgeOp l before o).2.judged, resp := (judgeOp l before o).2.resp,
                                      units := (judgeOp l before o).2.units, transit := (judgeOp l before o).2.transit } := by
  unfold judgeOp
  dsimp only
  repeat' (first | rfl | split)

/-- An operation that is no credit operation is not judged. -/
theorem judgeOp_other (l : Local) (before : List MoveOp) (o : MoveOp) (h : creditOf o = none) : judgeOp l before o = (l, o) := by
  unfold judgeOp
  simp [h]

theorem judgeOp_keeps_core (l : Local) (before : List MoveOp) (o : MoveOp) : JudgeKeeps l (judgeOp l before o).1 := by
  unfold judgeOp
  dsimp only
  repeat' (first | exact ⟨rfl, rfl, rfl, rfl⟩ | split)

theorem judgeAll_keeps_core (l : Local) (before rest : List MoveOp) : JudgeKeeps l (judgeAll l before rest).1 := by
  induction rest generalizing l before with
  | nil => exact .refl l
  | cons o r ih => exact (judgeOp_keeps_core l before o).trans (ih _ _)

/-- The operation at the end of the queue is judged last. -/
theorem judgeAll_append (l : Local) (before q : List MoveOp) (o : MoveOp) :
    judgeAll l before (q ++ [o]) =
      let a := judgeAll l before q
      let j := judgeOp a.1 a.2 o
      (j.1, a.2 ++ [j.2]) := by
  induction q generalizing l before with
  | nil => rfl
  | cons p r ih => exact ih _ _

theorem movePump_keeps_core (l : Local) :
    JudgeKeeps { l with core := { l.core with moveQ := l.movePump.core.moveQ } } l.movePump := by
  have k := judgeAll_keeps_core l [] l.core.moveQ
  refine ⟨?_, k.env, k.mem, k.clashes⟩
  unfold Local.movePump Local.movUpd
  dsimp only
  rw [k.core]

/-- An operation that has not completed stays at the end of the queue, with what it captured. -/
theorem movePump_last (l : Local) (q : List MoveOp) (o : MoveOp) (hq : l.core.moveQ = q ++ [o])
    (h : ∀ (j : Local) (b : List MoveOp), moveDone l.core.regions (judgeOp j b o).2 = false) :
    ∃ j b, l.movePump.core.moveQ.getLast? = some (judgeOp j b o).2 := by
  refine ⟨(judgeAll l [] q).1, (judgeAll l [] q).2, ?_⟩
  have k := judgeAll_keeps_core l [] l.core.moveQ
  have hr : (judgeAll l [] l.core.moveQ).1.core.regions = l.core.regions := by rw [k.core]
  unfold Local.movePump Local.movUpd
  dsimp only
  rw [hr, hq, judgeAll_append]
  dsimp only
  have hd := h (judgeAll l [] q).1 (judgeAll l [] q).2
  generalize (judgeOp (judgeAll l [] q).1 (judgeAll l [] q).2 o).2 = x at hd
  generalize (judgeAll l [] q).2 = p
  induction p with
  | nil => simp [hd]
  | cons a r ih =>
    simp only [List.cons_append, List.dropWhile_cons]
    split
    · exact ih
    · rw [List.getLast?_cons, List.getLast?_append]
      simp

/-! ### The whole progress -/

/-- The core before its switch-offs take effect. -/
theorem pump_units (l : Local) :
    ∃ m, UnitKeeps (if l.core.seq.run = .stopped then l.arrUpd forceFlush else l).movePump m ∧
      l.pump = { m with core := { abandonOpen (applyOff m.core) with regions := autoWake (abandonOpen (applyOff m.core)) } } :=
  ⟨_, Local.preload_unit (iterate_unit _ Local.attStep_unit (iterate_unit _ Local.arrayStep_unit (.refl _) 16) 8), rfl⟩

/-- What the abandoning of an open sequence leaves: all but the attention state. -/
theorem abandonOpen_core (c : Core) : abandonOpen c = { c with att := (abandonOpen c).att } := by
  unfold abandonOpen
  split <;> rfl

/-- A switch-off that is not at the head of the vector queue leaves the vector unit. -/
theorem applyOff_vec (c : Core) (h : c.vec.queue.head? ≠ some .off) : (applyOff c).vec = c.vec := by
  have key : ∀ (a t g : Bool), bit ((if a = true then (1 : BitVec 4) else 0) ||| (if t = true then 2 else 0)
      ||| (if false = true then 4 else 0) ||| (if g = true then 8 else 0)) 2 = false := by decide
  have hv : (c.vec.queue.head? == some VecOp.off) = false := by simpa using h
  unfold applyOff offReady
  dsimp only
  rw [hv, Bool.false_and, if_neg]
  exact Bool.eq_false_iff.mp (key _ _ _)

/-- What a core's own progress leaves of its sequencer, its step, its controls, its supply and its surroundings, and of a
vector unit whose queue has no switch-off at its head. -/
theorem pump_core (l : Local) :
    l.pump.env = l.env
    ∧ l.pump.core.seq =
        { l.core.seq with
          fault := l.pump.core.seq.fault, run := l.pump.core.seq.run, stoppedByFault := l.pump.core.seq.stoppedByFault }
    ∧ l.pump.core.step = { l.core.step with parity := l.pump.core.step.parity }
    ∧ l.pump.core.ctrl = l.core.ctrl ∧ l.pump.core.supply = l.core.supply ∧ l.pump.core.shown = l.core.shown
    ∧ (l.core.vec.queue.head? ≠ some .off → l.pump.core.vec = l.core.vec) := by
  obtain ⟨m, hm, hp⟩ := pump_units l
  have hl : ∀ x : Local, x.movePump.env = x.env ∧ x.movePump.core.seq = x.core.seq ∧ x.movePump.core.step = x.core.step
      ∧ x.movePump.core.ctrl = x.core.ctrl ∧ x.movePump.core.supply = x.core.supply ∧ x.movePump.core.shown = x.core.shown
      ∧ x.movePump.core.vec = x.core.vec := by
    intro x
    have k := movePump_keeps_core x
    refine ⟨k.env, ?_⟩
    rw [k.core]
    exact ⟨rfl, rfl, rfl, rfl, rfl, rfl⟩
  generalize hx : (if l.core.seq.run = .stopped then l.arrUpd forceFlush else l) = x at hm
  have hs : x.env = l.env ∧ x.core.seq = l.core.seq ∧ x.core.step = l.core.step ∧ x.core.ctrl = l.core.ctrl
      ∧ x.core.supply = l.core.supply ∧ x.core.shown = l.core.shown ∧ x.core.vec = l.core.vec := by
    rw [← hx]
    split <;> exact ⟨rfl, rfl, rfl, rfl, rfl, rfl, rfl⟩
  obtain ⟨a1, a2, a3, a4, a5, a6, a7⟩ := hl x
  obtain ⟨b1, b2, b3, b4, b5, b6, b7⟩ := hs
  rw [hp]
  refine ⟨by rw [hm.env, a1, b1], ?_, ?_, ?_, ?_, ?_, ?_⟩
  · rw [abandonOpen_core]
    simp only [applyOff]
    rw [hm.seq, a2, b2]
  · rw [abandonOpen_core]
    simp only [applyOff]
    rw [hm.step, a3, b3]
  · rw [abandonOpen_core]
    exact hm.ctrl.trans (a4.trans b4)
  · rw [abandonOpen_core]
    exact hm.supply.trans (a5.trans b5)
  · rw [abandonOpen_core]
    exact hm.shown.trans (a6.trans b6)
  · intro hv
    have hmv : m.core.vec = l.core.vec := by rw [hm.vec, a7, b7]
    rw [abandonOpen_core]
    exact (applyOff_vec m.core (by rw [hmv]; exact hv)).trans hmv

end Sys2Proof.Machine
end

