-- ==== Sys2Proof/Laws/Word.lean ====
section
/-!
SUPPORT. Issue of a roster word, step by step: the core that issues, what the end of a set can change, and what the four slots
leave of the sequencer.
-/

namespace Sys2Proof.Machine

/-! ### The end of a set (R42) -/

/-- The end of a set changes the host side, what the device puts out, the rings and the set alone. -/
structure HostOnly (s t : State) : Prop where
  eq : t = { s with host := t.host, out := t.out, rings := t.rings, set := t.set }

theorem HostOnly.refl (s : State) : HostOnly s s := ⟨rfl⟩

theorem HostOnly.trans {s t u : State} (h : HostOnly s t) (k : HostOnly t u) : HostOnly s u :=
  ⟨by rw [k.eq, h.eq]⟩

theorem State.setCq_hostOnly {s x : State} (h : HostOnly s x) (q : Nat) (c : Cq) : HostOnly s (x.setCq q c) := h.trans ⟨rfl⟩

theorem State.setSq_hostOnly {s x : State} (h : HostOnly s x) (q : Nat) (c : Sq) : HostOnly s (x.setSq q c) := h.trans ⟨rfl⟩

theorem State.hostWrite_hostOnly {s x : State} (h : HostOnly s x) (a : Nat) (bs : List Byte) (w : HostWrite) :
    HostOnly s (x.hostWrite a bs w) := h.trans ⟨rfl⟩

theorem State.signal_hostOnly {s x : State} (h : HostOnly s x) (v : Nat) : HostOnly s (x.signal v) := by
  refine h.trans ?_
  unfold State.signal
  split <;> exact ⟨rfl⟩

theorem State.writeEntry_hostOnly {s x : State} (h : HostOnly s x) (cq : Nat) (e : HeldEntry) : HostOnly s (x.writeEntry cq e) := by
  unfold State.writeEntry
  dsimp only
  repeat' (first | with_reducible exact h | with_reducible apply State.signal_hostOnly | with_reducible apply State.setCq_hostOnly | with_reducible apply State.hostWrite_hostOnly | split)

theorem State.postEntry_hostOnly {s x : State} (h : HostOnly s x) (q : Nat) (d : Desc) (status specific : Nat) :
    HostOnly s (x.postEntry q d status specific) := by
  unfold State.postEntry
  dsimp only
  split
  · exact State.writeEntry_hostOnly h _ _
  · exact h.trans ⟨rfl⟩

theorem State.complete_hostOnly {s x : State} (h : HostOnly s x) (q : Nat) (d : Desc) (status specific : Nat) :
    HostOnly s (x.complete q d status specific) := by
  have k := State.postEntry_hostOnly (x := x.dropDesc q d) (State.setSq_hostOnly h _ _) q d status specific
  unfold State.complete
  dsimp only
  split
  · exact k.trans ⟨rfl⟩
  · exact k

theorem State.checkSet_hostOnly (s : State) : HostOnly s s.checkSet := by
  unfold State.checkSet
  split
  · unfold State.endSet
    dsimp only
    split
    · exact (State.complete_hostOnly (.refl s) _ _ _ _).trans ⟨rfl⟩
    · exact ⟨rfl⟩
  · exact .refl s

theorem State.checkSet_core (s : State) (m : Nat) : s.checkSet.core m = s.core m := by
  unfold State.core
  rw [(State.checkSet_hostOnly s).eq]

theorem State.checkSet_mem (s : State) : s.checkSet.mem = s.mem := by
  rw [(State.checkSet_hostOnly s).eq]

/-! ### The core that issues -/

/-- Core `n` issues word `w` whole. -/
theorem issueOn_issues (s : State) (n : CoreId) (has : Slots → Bool) (w : Slots) (h : Issues s n.val w) (hw : has w = true) :
    s.issueOn n has = (s.putLocal n.val ((s.localOf n.val).issueWord w)).checkSet := by
  unfold State.issueOn
  have hc : mayIssue (s.localOf n.val).core = true := h.runs
  rw [if_neg h.duty, State.onCore_up _ _ _ h.up]
  simp only [Local.issue, hc, h.word, hw, if_true]

/-- Core `n` waits with word `w` at the issue logic. -/
theorem issueOn_waits (s : State) (n : CoreId) (has : Slots → Bool) (w : Slots) (h : Waits s n.val w) (hw : has w = true) :
    s.issueOn n has = (s.putLocal n.val ((s.localOf n.val).reach w).pump).checkSet := by
  unfold State.issueOn
  have hc : mayIssue (s.localOf n.val).core = true := h.runs
  rw [if_neg h.duty, State.onCore_up _ _ _ h.up]
  simp only [Local.issue, hc, h.word, hw, if_true, Local.issueWord, h.held]

/-- The beat in which a word issues moves the sequencer's beat alone. -/
theorem onBeat_only (l : Local) :
    l.onBeat = { l with core := { l.core with seq := { l.core.seq with beats := dutyBeat l.env.duty l.core.seq.beats } } } := rfl

/-- The word that issues: its slots act in its beat, faults and clashes are noted, and the units make progress. -/
theorem issueWord_ready (l : Local) (w : Slots) (h : holdsWord (l.reach w) w = false) :
    l.issueWord w =
      ((((l.reach w).onBeat.actWord (issuing (l.reach w).onBeat w)).noteFaults (l.reach w).onBeat w).noteClash (l.reach w).onBeat
        (issuing (l.reach w).onBeat w)).pump := by
  unfold Local.issueWord
  simp [h]

theorem putLocal_core (s : State) (n m : Nat) (l : Local) : (s.putLocal n l).core m = if m = n then l.core else s.core m := by
  unfold State.putLocal
  dsimp only
  rw [State.fileAll_only]
  unfold State.core
  dsimp only
  split <;> exact mapGet_mapPut _ _ _ _ _

theorem putLocal_mem (s : State) (n : Nat) (l : Local) : (s.putLocal n l).mem = l.mem := by
  unfold State.putLocal
  dsimp only
  rw [State.fileAll_only]
  dsimp only
  split <;> rfl

/-- What a unit of a core did comes back: its core and the memory, the Panel's clash count and the log. -/
theorem putLocal_only (s : State) (n : Nat) (l : Local) :
    s.putLocal n l = { s with cores := mapPut s.cores n l.core, mem := l.mem, panels := (s.putLocal n l).panels,
                              log := (s.putLocal n l).log } := by
  unfold State.putLocal
  dsimp only
  rw [State.fileAll_only]
  split <;> rfl

/-! ### What faults, clashes and the issue logic leave of the sequencer -/

theorem reach_seq (l : Local) (w : Slots) :
    (l.reach w).core.seq = l.core.seq ∧ (l.reach w).env = l.env ∧ (l.reach w).mem = l.mem ∧ (l.reach w).core.step = l.core.step
    ∧ (l.reach w).core.vec = l.core.vec ∧ (l.reach w).core.moveQ = l.core.moveQ ∧ (l.reach w).core.att = l.core.att
    ∧ (l.reach w).core.ctrl = l.core.ctrl ∧ (l.reach w).core.scr = l.core.scr := by
  unfold Local.reach
  repeat' (first | exact ⟨rfl, rfl, rfl, rfl, rfl, rfl, rfl, rfl, rfl⟩ | split)

theorem faultStop_unit {l x : Local} (h : UnitKeeps l x) (kind slot : Nat) (word : BitVec 28) :
    UnitKeeps l (x.faultStop kind slot word) :=
  Local.arrUpd_unit (Local.rosterFault_unit h _ _ _) _

theorem noteFaults_unit {l x : Local} (h : UnitKeeps l x) (v : Local) (w : Slots) : UnitKeeps l (x.noteFaults v w) := by
  unfold Local.noteFaults
  repeat' (first | with_reducible exact h | with_reducible apply faultStop_unit | split)

theorem noteClash_unit {l x : Local} (h : UnitKeeps l x) (v : Local) (w : Slots) : UnitKeeps l (x.noteClash v w) := by
  unfold Local.noteClash
  dsimp only
  have k (c : Nat) : UnitKeeps l { x with clashes := c } := h.trans ⟨rfl, rfl, rfl, rfl, rfl, rfl, rfl, rfl, rfl⟩
  repeat' (first | with_reducible exact h | exact k _ | exact faultStop_unit (k _) _ _ _ | split)

/-- After a word has issued, the core's sequencer is what its slots made of it, but for a roster fault. -/
theorem issued_seq (l : Local) (w : Slots) (h : holdsWord (l.reach w) w = false) :
    (l.issueWord w).core.seq =
      { ((l.reach w).onBeat.actWord (issuing (l.reach w).onBeat w)).core.seq with
        fault := (l.issueWord w).core.seq.fault, run := (l.issueWord w).core.seq.run,
        stoppedByFault := (l.issueWord w).core.seq.stoppedByFault } := by
  rw [issueWord_ready l w h]
  generalize hx : (l.reach w).onBeat.actWord (issuing (l.reach w).onBeat w) = x
  have hu := noteClash_unit (noteFaults_unit (.refl x) (l.reach w).onBeat w) (l.reach w).onBeat (issuing (l.reach w).onBeat w)
  generalize ((x.noteFaults (l.reach w).onBeat w).noteClash (l.reach w).onBeat (issuing (l.reach w).onBeat w)) = y at hu ⊢
  have hp := (pump_core y).2.1
  rw [hp, hu.seq]

/-! ### What the four slots leave of the sequencer -/

theorem applyV_seq (l v : Local) (o : VOp) : (l.applyV v o).core.seq = l.core.seq := by
  unfold Local.applyV
  split <;> rfl

theorem applyA_seq (l v : Local) (o : AOp) : (l.applyA v o).core.seq = l.core.seq := by
  unfold Local.applyA
  split <;> rfl

theorem applyM_seq (l v : Local) (o : MOp) : (l.applyM v o).core.seq = { l.core.seq with cache := (l.applyM v o).core.seq.cache } := by
  unfold Local.applyM
  have hr (q : Sequencer) (d : DWord) : retag q o d = { q with cache := (retag q o d).cache } := by
    unfold retag
    split <;> rfl
  split
  · rfl
  · dsimp only
    split
    · split <;> rfl
    · exact hr _ _

/-- The word's advance (R73, R81). -/
theorem advance_seq (l v : Local) (c : COp) :
    (l.advance v c).core.seq =
      { l.core.seq with
        loops := (nextWord v c).1, position := wordIndex (nextWord v c).2, lastIssued := v.core.seq.position,
        wordsIssued := wrapAdd l.core.seq.wordsIssued 1, beats := l.core.seq.beats + 1 + Config.extraBeats l.env.n l.env.now l.core.seq.beats,
        replayMark := false, run := if c = .endRoster then .ended else l.core.seq.run } := rfl

end Sys2Proof.Machine
end

