-- ==== Sys2Proof/Tests/Slice0.lean ====
section
/-!
SUPPORT. Tests: ill-formed commands that the well-formedness checks refuse, words of the spec's encodings that decode to their
operations, single steps with results worked out from the spec, and for every statement with hypotheses a state that meets them.
-/

namespace Sys2Proof.Tests

set_option Elab.async false

open Sys2Proof Sys2Proof.Machine

/-! ## Small states -/

/-- A module that has started: every Panel powered, the power stage on, READY set, the timebase running. -/
def up : State :=
  { State.reset with
    panels := (List.range 8).map fun p => (p, { Panel.reset with powered := true }),
    power := { Power.reset with jIn := true, stage := true, step := 10, ready := true, everReady := true },
    time := { TimeState.reset with locked := true, now := 1000 },
    cap := { CapTier.reset with populatedMib := 1523712 } }

/-- Slot words from their fields (Tables 04-6 to 04-15). -/
def cw (op d a imm : Nat) : Nat := op * 2 ^ 26 + d * 2 ^ 21 + a * 2 ^ 16 + imm
def mw (op sy sa ps pf : Nat) : Nat := op * 2 ^ 26 + sy * 2 ^ 24 + sa * 2 ^ 19 + ps * 2 ^ 8 + pf
def aw (op sy x y z : Nat) : Nat := op * 2 ^ 26 + sy * 2 ^ 25 + x * 2 ^ 16 + y * 2 ^ 8 + z
def vw (op d a b c sy fn : Nat) : Nat := op * 2 ^ 26 + d * 2 ^ 21 + a * 2 ^ 16 + b * 2 ^ 11 + c * 2 ^ 6 + sy * 16 + fn

/-- A roster word from its slots (Table 04-4); `cNop` is the NOP of the C slot. -/
def word (c m a v : Nat) : RosterWord := BitVec.ofNat 128 (c + m * 2 ^ 32 + a * 2 ^ 64 + v * 2 ^ 96)
def cNop : Nat := cw 1 0 0 0

/-- A pattern record from its fields (Table 04-8): format, N0, N1, S1, BASE, FAR; VALID set. -/
def pat (fmt n0 n1 s1 base far : Nat) : PatternRecord :=
  BitVec.ofNat 256 ((n0 - 1) + (n1 - 1) * 2 ^ 16 + s1 * 2 ^ 64 + base * 2 ^ 160 + 2 ^ 192 + far * 2 ^ 193 + fmt * 2 ^ 194)

/-- A running core at word 5 of its roster, which is `w`. -/
def core (w : RosterWord) (regs : List (Nat × DWord)) (pats : List (Nat × PatternRecord)) : Core :=
  { Core.reset with seq := { Sequencer.reset with
      run := .running, wordCount := 100, position := 5, regs := regs, patterns := pats,
      cache := [(0, ⟨0, false, [0, 0, 0, 0, 0, w], []⟩)] } }

/-- The started module with core 0 as given. -/
def withCore (c : Core) : State := { up with cores := [(0, c)] }

/-- The hypotheses of `Issues`, as a check. -/
def issues (s : State) (w : Slots) : Bool :=
  s.power.duty != 0 && s.coreUp 0 && mayIssue (s.core 0) && (legalWord (s.localOf 0) == some w) && !holdsWord ((s.localOf 0).reach w) w

theorem issues_of {s : State} {w : Slots} (h : issues s w = true) : Issues s 0 w := by
  simp only [issues, Bool.and_eq_true, bne_iff_ne, ne_eq, beq_iff_eq, Bool.not_eq_true'] at h
  exact ⟨h.1.1.1.1, h.1.1.1.2, h.1.1.2, h.1.2, h.2⟩

/-- The hypotheses of `IssuesClean`, as a check; nothing is stored from the C slot. -/
def issuesClean (s : State) (w : Slots) : Bool :=
  issues s w && !privateM (s.localOf 0) w.m && !privateA (s.localOf 0) w.a && !unmappedM (s.localOf 0) w.m && offMask w.m == 0 &&
    w.c == .nop && (s.core 0).scr.badParity.isEmpty && !(s.core 0).seq.clashFaultNow

/-- Neither slot fault of `noSlotFault` arises. -/
def clean (s : State) (w : Slots) : Bool :=
  !privateM (s.localOf 0) w.m && !privateA (s.localOf 0) w.a && !unmappedM (s.localOf 0) w.m

theorem clean_of {s : State} {w : Slots} (h : clean s w = true) : noSlotFault s 0 w := by
  simpa [clean, noSlotFault, and_assoc] using h

/-! ## Witnesses: roster words -/

/-- Words with one operation in the C slot, each with the operation it encodes. -/
def cWord (c : Nat) (o : COp) (pr : Bool := false) (f : Core → Core := id) : Bool :=
  let k := core (word c 0 0 0) [(1, 0xFFFFFFFFFFFFFFF3), (2, 70), (3, 40)] []
  issues (withCore (f { k with seq := { k.seq with priv := pr } })) ⟨o, .nop, .nop, .nop⟩

theorem witness_ScalarArithmetic :
    cWord (cw 0x11 31 1 (2 * 2048)) (.alu .add 31 1 2) ∧ cWord (cw 0x12 0 1 (2 * 2048)) (.alu .sub 0 1 2) ∧
    cWord (cw 0x13 4 1 (2 * 2048)) (.alu .and 4 1 2) ∧ cWord (cw 0x14 4 1 (2 * 2048)) (.alu .or 4 1 2) ∧
    cWord (cw 0x15 4 1 (2 * 2048)) (.alu .xor 4 1 2) ∧ cWord (cw 0x16 4 1 (2 * 2048)) (.alu .shl 4 1 2) ∧
    cWord (cw 0x17 4 1 (2 * 2048)) (.alu .shr 4 1 2) ∧ cWord (cw 0x18 4 1 (2 * 2048)) (.alu .sra 4 1 2) ∧
    cWord (cw 0x19 4 1 (2 * 2048)) (.alu .mul 4 1 2) ∧ cWord (cw 0x1A 4 1 (2 * 2048)) (.alu .mulhu 4 1 2) ∧
    cWord (cw 0x1B 4 1 (2 * 2048)) (.alu .slt 4 1 2) ∧ cWord (cw 0x1C 4 1 (2 * 2048)) (.alu .sltu 4 1 2) := by
  decide +kernel

theorem witness_ScalarArithmetic_immediate :
    cWord (cw 0x20 4 1 0x8000) (.alui .addi 4 1 0x8000) ∧ cWord (cw 0x21 4 1 0xFFFF) (.alui .andi 4 1 0xFFFF) ∧
    cWord (cw 0x22 4 1 0xFFFF) (.alui .ori 4 1 0xFFFF) ∧ cWord (cw 0x23 4 1 1) (.alui .xori 4 1 1) ∧
    cWord (cw 0x24 4 1 63) (.alui .shli 4 1 63) ∧ cWord (cw 0x25 4 1 0) (.alui .shri 4 1 0) ∧
    cWord (cw 0x26 4 1 63) (.alui .srai 4 1 63) ∧ cWord (cw 0x27 4 3 0x15) (.lih 4 3 0x15) ∧
    cWord (cw 0x27 0 0 0xFFFF) (.lih 0 0 0xFFFF) := by
  decide +kernel

theorem witness_ScalarMemoryAndCounters :
    cWord (cw 0x28 4 3 0xFFD8) (.ldw 4 3 0xFFD8) ∧ cWord (cw 0x29 4 3 2) (.ldd 4 3 2) ∧
    cWord (cw 0x2A 1 3 0) (.stw 1 3 0) ∧ cWord (cw 0x2B 1 3 2) (.std 1 3 2) ∧
    cWord (cw 0x2C 0 3 (254 * 256)) (.patLoad 3 254 0) ∧ cWord (cw 0x2C 0 3 (5 * 256 + 1)) (.patLoad 3 5 1) ∧
    cWord (cw 0x2D 4 0 0) (.rdctr 4 0) ∧ cWord (cw 0x2D 4 0 1) (.rdctr 4 1) ∧ cWord (cw 0x2D 4 0 2) (.rdctr 4 2) ∧
    cWord (cw 0x2D 4 0 3) (.rdctr 4 3) ∧ cWord (cw 0x2D 4 0 4) (.rdctr 4 4) ∧
    (withCore (core (word (cw 0x2A 1 3 0) 0 0 0) [] [])).mem = [] ∧ Core.reset.att.queue = [] := by
  decide +kernel

theorem witness_ControlTransfers :
    cWord cNop .nop ∧ cWord (cw 7 2 0 0) (.wait .array 0) ∧ cWord (cw 7 6 0 255) (.wait .vector 255) ∧
    cWord (cw 0xA 0 0 99) (.jmp 99) ∧ cWord (cw 0xA 0 0 9) (.jmp 9) ∧ cWord (cw 0xA 0 0 0) (.jmp 0) ∧
    cWord (cw 0xB 1 2 9) (.branch .eq 1 2 9) true ∧ cWord (cw 0xC 1 2 9) (.branch .ne 1 2 9) true ∧
    cWord (cw 0xD 1 2 9) (.branch .lt 1 2 9) true ∧ cWord (cw 0xE 1 2 9) (.branch .ge 1 2 9) true ∧
    cWord (cw 0xF 1 2 9) (.branch .ltu 1 2 9) true ∧ cWord (cw 0x10 1 2 9) (.branch .geu 1 2 9) true ∧
    cWord (cw 8 0 0 (2 * 2 ^ 14 + 3)) (.loop 2 3) ∧ cWord (cw 8 0 0 0) (.loop 0 0) ∧
    cWord (cw 9 0 3 3) (.loopr 3 3) true ∧ cWord (cw 9 0 0 3) (.loopr 0 3) true := by
  decide +kernel

/-- A word that waits: its WAIT holds while an operation of the vector unit has not completed. -/
theorem witness_WordIssuesWholeOrWaits :
    let i : Instr := .wait 0 .vector 0
    let w : Slots := ⟨.wait .vector 0, .nop, .nop, .nop⟩
    let c := core (word (cw 7 6 0 0) 0 0 0) [] []
    let s := withCore c
    let held := withCore { c with regions := { c.regions with vector := .ramping }, vec := { c.vec with
      queue := [.op (.vred true false 3 4 2) none 0] } }
    (wordRow i).isSome ∧ w.holds (.c (.wait .vector 0)) = true ∧ issues s w ∧
    held.power.duty ≠ 0 ∧ held.coreUp 0 ∧ mayIssue (held.core 0) ∧ legalWord (held.localOf 0) = some w ∧
    holdsWord ((held.localOf 0).reach w) w := by
  decide +kernel

theorem witness_EndCompletesSet :
    let s := withCore (core (word (cw 2 0 0 0) 0 0 0) [] [])
    issues { s with set := { s.set with running := true, cores := [0] } } ⟨.endRoster, .nop, .nop, .nop⟩ ∧
    issues { s with set := { s.set with running := true, cores := [0, 1] } } ⟨.endRoster, .nop, .nop, .nop⟩ := by
  decide +kernel

theorem witness_MarksAndSegments :
    cWord (cw 3 0 0 0) .lapMark ∧ cWord (cw 6 0 0 0) .stepMark ∧ cWord (cw 4 0 0 0) .privateBegin ∧
    cWord (cw 5 0 0 0) .privateEnd true ∧ markIsNop (core 0 [] []) = false ∧
    (let s := withCore (core (word (cw 3 0 0 0) 0 0 0) [(1, 1)] [])
     issues { s with set := { s.set with running := true, cores := [0], replayable := true } } ⟨.lapMark, .nop, .nop, .nop⟩) := by
  decide +kernel

theorem witness_IllegalWordStops :
    (List.range 4).all fun slot =>
      let w := word (if slot = 0 then cw 0x3F 0 0 0 else cNop) (if slot = 1 then mw 0x3F 0 0 0 0 else 0)
        (if slot = 2 then aw 0x3F 0 0 0 0 else 0) (if slot = 3 then vw 0x3F 0 0 0 0 0 0 else 0)
      let s := withCore (core w [] [])
      s.power.duty != 0 && s.coreUp 0 && mayIssue (s.core 0) && !(s.core 0).seq.stoppedByFault &&
        (lookup (s.core 0).seq == .word w) && (illegalSlot (s.localOf 0) w == some slot) && (s.core 0).moveQ.isEmpty &&
        (s.core 0).arr.queue.isEmpty && (s.core 0).arr.gather.isEmpty && (s.core 0).att.queue.isEmpty := by
  decide +kernel

/-- Words with one operation in the M slot that raise no slot fault. -/
def mWord (m : Nat) (o : MOp) (s1 : DWord) (f : Core → Core := id) : Bool :=
  let c := core (word cNop m 0 0) [(1, s1)] [(1, pat 0 64 1 0 16 0), (2, pat 0 64 1 0 0 1), (3, pat 2 64 1 0 100 0), (4, pat 2 64 1 0 0 1),
    (5, pat 0 64 1 0 32 0)]
  let s := withCore (f c)
  issues s ⟨.nop, o, .nop, .nop⟩ && clean s ⟨.nop, o, .nop, .nop⟩ && (s.core 0).step.log.isEmpty && (s.core 0).moveQ.isEmpty

theorem witness_MoveOpsEnterQueue :
    mWord (mw 1 1 1 1 2) (.moveIn false true 1 1 2) 0x200000 ∧ mWord (mw 2 1 1 1 2) (.moveOut false true 1 1 2) 0x200000 ∧
    mWord (mw 8 1 1 3 4) (.atomicAdd false true 1 3 4) (BitVec.ofNat 64 capBase) ∧
    mWord (mw 9 1 1 5 0) (.nearOp false true 1 5) (BitVec.ofNat 64 capBase) ∧ mWord (mw 10 1 1 0 0) (.bankOff false true 1) 3 ∧
    mWord (mw 6 0 1 2 0) (.turnEnd 1 2) 3 ∧ mWord (mw 4 1 1 0 0x30) (.creditTake false true 1 3) 7 ∧
    mWord (mw 7 1 1 0 4) (.fetchRoster false true 1 4) 256 ∧ mWord (mw 7 1 1 0 15) (.fetchRoster false true 1 15) 256 := by
  decide +kernel

theorem witness_CreditOpsAreJudged :
    let far : DWord := BitVec.ofNat 64 (scratchAddr 7 (4 * groupWords))
    let holds (c : Core) : Core := { c with scr := { c.scr with granted := [(7, 15, 0x81)] } }
    let l (m : Nat) (s1 : DWord) (f : Core → Core) : Local :=
      (withCore (f (core (word cNop m 0 0) [(1, s1)] [(1, pat 0 64 1 0 16 0)]))).localOf 0
    mWord (mw 3 1 1 1 0xF0) (.moveRemote false true 1 1 15) far holds ∧ mWord (mw 3 1 1 1 0xF0) (.moveRemote false true 1 1 15) far ∧
    mWord (mw 5 1 1 0 0xF0) (.creditGive false true 1 15) 7 holds ∧ mWord (mw 5 1 1 0 0xF0) (.creditGive false true 1 15) 7 ∧
    (remoteTarget far.toNat).1 = 7 ∧ heldWindow (l (mw 3 1 1 1 0xF0) far holds) 7 15 = some 0x81 ∧
    writesGranted 0x81 (presents (l (mw 3 1 1 1 0xF0) far holds) (.moveRemote false true 1 1 15)).1 = true ∧
    heldWindow (l (mw 3 1 1 1 0xF0) far id) 7 15 = none ∧ heldWindow (l (mw 5 1 1 0 0xF0) 7 holds) 7 15 = some 0x81 := by
  decide +kernel

theorem witness_RegionRequests :
    mWord (mw 11 1 0 0 15) (.regionOn true 15) 0 (fun c => { c with regions := ⟨.off, .ramping, .on, .off, 0, 0, 0⟩ }) ∧
    mWord (mw 12 1 0 0 1) (.regionOff true 1) 0 ∧ mWord (mw 12 1 0 0 15) (.regionOff true 15) 0 := by
  decide +kernel

/-- Words with one operation in the A slot. -/
def aPats : List (Nat × PatternRecord) :=
  [(1, pat 2 4 2 2 0 0), (2, pat 2 4 1 0 16 0), (3, pat 1 2 1 0 32 0), (6, pat 0 8 1 0 40 0), (7, pat 2 4 2 2 48 0), (8, pat 1 2 2 2 60 0),
   (9, pat 0 64 1 0 64 0)]
def aPat (i : Nat) : Pattern := decodePattern (mapGet 0 aPats i)
def aWord (a : Nat) (o : AOp) (f : Core → Core) : Bool :=
  let s := withCore (f (core (word cNop 0 a 0) [] aPats))
  issues s ⟨.nop, .nop, o, .nop⟩ && clean s ⟨.nop, .nop, o, .nop⟩
def loaded (c : Core) : Core := { c with arr := { c.arr with current := some (loadRecordOf (aPat 1) false) } }
def attOff (issue : AttIssue) (rows : Nat) (c : Core) : Core :=
  { c with regions := { c.regions with attention := .off }, att := { c.att with issue := issue, issueRows := rows } }

theorem witness_ArrayOpsEnterQueue :
    aWord (aw 1 1 1 0 0) (.wload true 1 false) id ∧
    aWord (aw 1 1 1 0 0) (.wload true 1 false) (fun c => { c with regions := { c.regions with array := .off } }) ∧
    aWord (aw 2 1 2 3 0) (.pass true 2 3 false) loaded ∧ aWord (aw 3 0 0 0 0 + 63 * 2 ^ 14 + 1) (.gcfg 63 1) loaded ∧
    aWord (aw 3 0 0 0 0) (.gcfg 0 0) loaded ∧ aWord (aw 4 1 2 3 0) (.gather true 2 3) loaded ∧
    aWord (aw 4 1 2 3 0) (.gather true 2 3) (fun c => { loaded c with regions := { c.regions with gather := .ramping } }) ∧
    (let l := (withCore (loaded (core (word cNop 0 (aw 4 1 2 3 0) 0) [] aPats))).localOf 0
     gatherCount l.core.arr + rowsOf l 2 ≤ 64 ∧ l.core.arr.gather.length + 1 < l.core.arr.gatherCfg.threshold ∧
     l.core.seq.clashFaultNow = false ∧ l.core.scr.badParity = [] ∧ l.core.regions.gather = .on ∧ gathersWait l.core.arr = false) := by
  decide +kernel

theorem witness_AttentionOpsEnterQueue :
    aWord (aw 8 1 6 255 0) (.attMode true 6) (attOff .idle 0) ∧ aWord (aw 9 1 7 255 0) (.attQ true 7 255) (attOff .moded 0) ∧
    aWord (aw 10 1 7 8 0) (.attKv true 7 8) (attOff .opened 2) ∧ aWord (aw 11 1 9 255 0) (.attWalk true 9) (attOff .opened 2) ∧
    aWord (aw 12 1 8 255 0) (.attOut true 8 255) (attOff .opened 2) := by
  decide +kernel

/-- Words with one operation in the V slot. -/
def vWord (v : Nat) (i : Instr) (o : VOp) : Bool :=
  issues (withCore (core (word cNop 0 0 v) [(4, 99)] [(1, pat 1 8 1 0 0 0), (2, pat 0 2112 1 0 0 0)])) ⟨.nop, .nop, .nop, o⟩ &&
    (vectorRow i == some (0, o))

theorem witness_VectorOpsEnterQueue :
    vWord (vw 1 3 0 0 0 1 0 + 256) (.vld 0 true false 3 1) (.vld true false 3 1) ∧
    vWord (vw 2 0 3 0 0 1 0 + 256) (.vst 0 true false 3 1) (.vst true false 3 1) ∧
    vWord (vw 3 3 4 5 0 1 0) (.vadd 0 true false 3 4 5) (.arith .add true false 3 4 5) ∧
    vWord (vw 4 3 4 5 0 1 0) (.vsub 0 true false 3 4 5) (.arith .sub true false 3 4 5) ∧
    vWord (vw 5 3 4 5 0 1 0) (.vmul 0 true false 3 4 5) (.arith .mul true false 3 4 5) ∧
    vWord (vw 6 3 4 5 6 1 0) (.vfma 0 true false 3 4 5 6) (.vfma true false 3 4 5 6) ∧
    vWord (vw 7 3 4 5 0 1 0) (.vmax 0 true false 3 4 5) (.arith .max true false 3 4 5) ∧
    vWord (vw 8 3 4 5 0 1 0) (.vmin 0 true false 3 4 5) (.arith .min true false 3 4 5) ∧
    vWord (vw 9 3 4 0 0 1 4) (.vsf 0 true false 3 4 4) (.vsf true false 3 4 4) ∧
    vWord (vw 10 3 4 0 0 1 0) (.vtbl 0 true false 3 4 0) (.vtbl true false 3 4 0) ∧
    vWord (vw 11 3 4 0 0 1 2) (.vred 0 true false 3 4 2) (.vred true false 3 4 2) ∧
    vWord (vw 12 3 4 0 0 1 2) (.vcvt 0 true false 3 4 2) (.vcvt true false 3 4 2) ∧
    vWord (vw 13 3 4 5 0 1 2) (.vcmp 0 true false 3 4 5 2) (.vcmp true false 3 4 5 2) ∧
    vWord (vw 14 3 4 5 6 1 0) (.vsel 0 true false 3 4 5 6) (.vsel true false 3 4 5 6) ∧
    vWord (vw 15 3 4 0 0 1 1) (.vsplat 0 true false 3 4 1) (.vsplat true false 3 4 1) ∧
    vWord (vw 16 0 0 0 0 1 0 + 512) (.vtload 0 true false 2) (.vtload true false 2) := by
  decide +kernel

/-! ## Witnesses: the core's units -/

/-- The state after a command. -/
def exec' (i : Instr) (s : State) : State := match exec i s with | .next t => t | _ => s

def idleCore : Core := core 0 [] []
def vecCore (q : VecOp) : Core := { idleCore with vec := { idleCore.vec with queue := [q, .clear] } }
def vecReady (q : VecOp) : Bool :=
  let s := withCore (vecCore q)
  s.coreUp 0 && ((s.core 0).vec.queue == [q, .clear]) && ((s.core 0).regions.vector == .on) &&
    (s.core 0).att.queue.isEmpty

theorem witness_VectorLaneResults :
    vecReady (.op (.arith .add true false 31 31 5) none 0) ∧ vecReady (.op (.vfma true false 3 4 5 6) none 0) ∧
    vecReady (.op (.vsf true true 3 4 4) none 0) ∧ vecReady (.op (.vtbl true false 3 4 3) none 0) ∧
    vecReady (.op (.vred true false 3 4 2) none 0) ∧ vecReady (.op (.vcvt true false 3 4 2) none 0) ∧
    vecReady (.op (.vcmp true false 3 4 5 1) none 0) ∧ vecReady (.op (.vsel true false 3 4 5 6) none 0) ∧
    vecReady (.op (.vsplat true false 0 4 1) none 77) := by
  decide +kernel

theorem witness_VectorMemoryOps :
    vecReady (.op (.vld true false 31 1) (some (decodePattern (pat 1 8 2 16 10 0))) 0) ∧
    vecReady (.op (.vst true false 0 1) (some (decodePattern (pat 1 8 2 16 10 0))) 0) ∧
    vecReady (.op (.vtload true false 2) (some (decodePattern (pat 0 2112 1 0 0 0))) 0) ∧ vecReady .clear := by
  decide +kernel

/-- A load of two rows of four BF16 weights, and its array core. -/
def load2 : WeightLoad := ⟨loadRecordOf (aPat 1) false, [⟨[some (ofFp32 0x3F800000)], []⟩]⟩
def arrCore (f : ArrayState → ArrayState) : Core := { idleCore with arr := f { idleCore.arr with halves := [load2] } }

theorem witness_ArrayPassWritesResults_flush :
    let s := withCore (arrCore fun a => { a with running := some (.flush [⟨true, aPat 2, aPat 3, 1⟩], load2) })
    s.coreUp 0 ∧ (s.core 0).arr.running = some (.flush [⟨true, aPat 2, aPat 3, 1⟩], load2) ∧ (s.core 0).att.queue = [] := by
  decide +kernel

theorem witness_ArrayStages :
    let s := withCore (arrCore fun a => { a with
      queue := [.pass true (aPat 2) (aPat 3) false, .pass true (aPat 2) (aPat 3) true],
      gather := [⟨true, aPat 2, aPat 3, 1⟩], gatherCfg := ⟨64, 16383⟩ })
    s.coreUp 0 ∧ (s.core 0).seq.run = .running ∧ gathersWait (s.core 0).arr = false ∧ (s.core 0).scr.badParity = [] ∧
    (s.core 0).arr.queue.all occupies ∧ (s.core 0).arr.running = none ∧
    (s.core 0).arr.halves = [load2] ∧ (s.core 0).arr.front = false ∧ (s.core 0).arr.gather ≠ [] ∧ (s.core 0).arr.gatherCfg.timeout ≠ 0 ∧
    (s.core 0).arr.queue = [.pass true (aPat 2) (aPat 3) false, .pass true (aPat 2) (aPat 3) true] := by
  decide +kernel

theorem witness_ArrayPassWritesResults :
    let s := withCore (arrCore fun a => { a with running := some (.pass true (aPat 2) (aPat 3) false, load2) })
    s.coreUp 0 ∧ (s.core 0).arr.running = some (.pass true (aPat 2) (aPat 3) false, load2) ∧ (s.core 0).att.queue = [] := by
  decide +kernel

/-- An open sequence of one row with head dimension 4 (Table 08-4), and keys of four BF16 elements. -/
def attMode4 : DWord := BitVec.ofNat 64 (3 * 2 ^ 35)
def attSeq : Sequence :=
  { queries := [decodeRun .bf16 4 (List.replicate 8 0)], narrowed := false, rows := 1, qPos := 0, kvPos := 0, kBlocks := 0, bitmap := [],
    error := false, state := [⟨0xFF800000, 0, [0, 0, 0, 0], false⟩] }
def keys : Pattern := decodePattern (pat 2 4 3 2 0 0)
def attCore (f : AttState → AttState) : Core :=
  { idleCore with att := f { idleCore.att with issue := .opened, mode := attMode4, seq := some attSeq, queue := [.kv true keys keys] } }

theorem witness_AttentionStages :
    let s := withCore (attCore id)
    let causal : DWord := attMode4 ||| BitVec.ofNat 64 (2 ^ 49)
    let late := withCore (attCore fun a => { a with mode := causal, nextKv := 100 })
    let tile (s : State) : List KeyRow := (List.range 3).map fun j => ⟨(s.core 0).att.nextKv + j, decodeRun .bf16 4 [], decodeRun .bf16 4 []⟩
    let staged := withCore (attCore fun a => { a with staged := [tile s, tile s] })
    s.coreUp 0 ∧ (s.core 0).regions.attention = .on ∧ attSeq.error = false ∧ patRunCount keys = 3 ∧ (s.core 0).att.keysTaken = 0 ∧
    kvMismatch (s.coreEnv 0).level attMode4 keys keys = false ∧ kvMismatch (s.coreEnv 0).level causal keys keys = false ∧
    ((tile s).any fun k => eligibleAny attMode4 attSeq k.pos) = true ∧ ((tile late).any fun k => eligibleAny causal attSeq k.pos) = false ∧
    (s.core 0).att.queue = [.kv true keys keys] ∧ (staged.core 0).att.staged = [tile s, tile s] ∧ (s.core 0).seq.run ≠ .stopped ∧
    (s.core 0).scr.badParity = [] := by
  decide +kernel

/-- The words of the statement's first part, at a unit whose region is on: every output pattern fits or fails only in its format. -/
theorem witness_AttentionStages_issue :
    let pats := aPats ++ [(10, pat 1 4 1 4 80 0), (11, pat 1 2 1 2 90 0), (12, pat 2 4 1 2 100 0)]
    let s (a : Nat) (f : AttState → AttState) : State := withCore { core (word cNop 0 a 0) [] pats with
      att := f { Core.reset.att with mode := attMode4 } }
    let meets (a : Nat) (o : AOp) (f : AttState → AttState) : Bool :=
      issuesClean (s a f) ⟨.nop, .nop, o, .nop⟩ && ((s a f).core 0).regions.attention == .on && ((s a f).core 0).att.queue.isEmpty &&
        !((s a f).core 0).att.walkRetired
    let opened (a : AttState) : AttState := { a with issue := .opened, issueRows := 1, seq := some attSeq }
    let format (i : Nat) : Format := patFormat (decodePattern (mapGet 0 pats i))
    meets (aw 8 1 6 255 0) (.attMode true 6) id ∧ meets (aw 9 1 12 255 0) (.attQ true 12 255) (fun a => { a with issue := .moded }) ∧
    queryFormat attMode4 = some (.bf16, false) ∧ meets (aw 11 1 9 255 0) (.attWalk true 9) opened ∧
    recordError ((s (aw 11 1 9 255 0) opened).localOf 0) (parseWalkRecord (List.replicate 64 0)) = false ∧
    meets (aw 12 1 10 255 0) (.attOut true 10 255) opened ∧ meets (aw 12 1 10 11 0) (.attOut true 10 11) opened ∧
    meets (aw 12 1 12 255 0) (.attOut true 12 255) opened ∧ format 10 = outFormat attMode4 ∧ format 12 ≠ outFormat attMode4 ∧
    (decodePattern (mapGet 0 pats 10)).n0 = rowElems (outFormat attMode4) (headDim attMode4) := by
  decide +kernel

/-- A walk with retrieval over 40 pages of the capacity tier (Tables 09-1, 09-4). -/
def walkRecord : WalkRecord :=
  { table := capBase, reportWord := 1572848, probeWord := 0, probes := 1, lambda := 0, firstPage := 0, pageCount := 40, kTop := 2, sink := 1,
    recent := 0, turnsPocket := 0, turnsHub := 0, turnsScore := 0, reservedZero := true }
def tableHeader : TableHeader :=
  { valOffset := 1, headDim := 4, vFormat := 0, kFormat := 0, cSlots := 1, version := 1, pageCount := 40, generation := 7, reservedZero := true }
def walk : Walk :=
  { record := walkRecord, header := some tableHeader, probes := [⟨0x3F800000, [ofFp32 0x3F800000]⟩], phase := .score, status := .ok,
    startNs := 0, endNs := 0, genEnd := 0, next := 0, scores := [], lists := [], candidates := 0, forced := 0, unsummarised := 0, nanScores := 0,
    badPages := 0, kth := 0, selected := [], reads := [], delivered := 0, keysDelivered := 0 }
def walkTurns : WalkTurns := ⟨0, walkRecord, 0, 5, [], [(seamRing 0 1, 0)], [], [], false⟩
def walkState (w : Walk) : State := withCore (attCore fun a => { a with walk := some w, queue := [.walk true keys 0 5], turns := [walkTurns] })

theorem witness_WalkScoresAtCuff :
    let s := { walkState walk with cap := { up.cap with list := (List.range 12).map (20 * ·) } }
    let got := { walk with scores := [(1, ⟨none, [], [], [], false⟩)] }
    s.coreUp 0 ∧ s.cuffGone 1 = false ∧ (s.core 0).att.queue = [.walk true keys 0 5] ∧ (s.core 0).att.walkRetired = false ∧
    windsDown (s.core 0) = false ∧ (s.core 0).att.walk = some walk ∧ walk.phase = .score ∧ walk.header = some tableHeader ∧
    scoreUnits (s.localOf 0) walk tableHeader 1 ≠ [] ∧ scoringWalk (s.core 0).att 1 = some (0, walkTurns) ∧
    walkTurns.serial = (s.core 0).att.walkSerial ∧ 1 ∉ walkTurns.counted ∧ mapHas walk.scores 1 = false ∧ 0 < (s.cuff 1).channels.length ∧
    (got.scores.find? fun e => e.1 == 1 && readDone e.2) = some (1, ⟨none, [], [], [], false⟩) ∧ mapHas got.lists 1 = false := by
  decide +kernel

/-- A usable entry at the range's last index, and one that fails only on a reserved bit (Table 09-2). -/
theorem witness_CandidateEntries :
    let l := (walkState walk).localOf 0
    let entry : List Byte := leBytes 16 (1 + 2 + 64 * 2 ^ 32 + (capBase / 64) * 2 ^ 50)
    let bad : List Byte := leBytes 16 (1 + 2 + 64 * 2 ^ 32 + (capBase / 64) * 2 ^ 50 + 2 ^ 95)
    l.core.att.seq = some attSeq ∧ (filterEntry l walkRecord 39 entry).1.isSome = true ∧ (filterEntry l walkRecord 39 bad).2 = true ∧
    (filterEntry l walkRecord 39 (leBytes 16 0)).1.isSome = false ∧ (List.range 12).any (fun k => (cuffEntries l walkRecord tableHeader k).contains 39) ∧
    (List.range 12).all (fun k => !(cuffEntries l walkRecord tableHeader k).contains 40) := by
  decide +kernel

theorem witness_WalkSelectsBestPages :
    let c (i : Nat) (forced : Bool) (score : Word) : Candidate :=
      { index := i, basePos := i, frame := capBase, validKeys := 4, capTier := true, forced := forced, summarised := true, score := score }
    let w := { walk with
      phase := .merge,
      lists := [(0, [c 0 true 0, c 5 false 0x40000000, c 9 false 0x3F800000]), (3, [c 2 false 0x40400000, c 7 false 0x7FC00000])] }
    let s := walkState w
    s.coreUp 0 ∧ (s.core 0).att.queue = [.walk true keys 0 5] ∧ (s.core 0).att.walk = some w ∧
    (s.core 0).att.walkRetired = false ∧ windsDown (s.core 0) = false ∧ bit (s.core 0).ctrl.walkCtrlNow 0 = true ∧ w.phase = .merge ∧
    ((w.lists.flatMap (·.2)).map (·.index)).Nodup ∧
    (((exec' (.walkMerge 0) s).core 0).att.walk.map fun w => w.selected.map (·.index)) = some [0, 2, 5] := by
  decide +kernel

theorem witness_WalkRetiresWithReport :
    let s := walkState { walk with phase := .done }
    s.coreUp 0 ∧ (s.core 0).att.queue = [.walk true keys 0 5] ∧ walkRecord.reportWord + 16 = 1572864 := by
  decide +kernel

theorem witness_StepStartsAgain :
    let r := stepRecordOf (core 0 [(1, 9)] [])
    let s := withCore { idleCore with step := { idleCore.step with parity := true, record := some r } }
    s.coreUp 0 ∧ (s.core 0).step.parity = true ∧ (s.core 0).seq.run = .running ∧ settled (s.core 0) = true ∧ (s.core 0).step.record = some r := by
  decide +kernel

theorem witness_BankRetires :
    let s (spare : BitVec 8) := withCore { idleCore with scr := { idleCore.scr with pendingBank := 63, spareFor := spare } }
    (s 0xFF).set.running = false ∧ ((s 0xFF).entry 0).state ≠ .absent ∧ ((s 0).core 0).scr.spareFor ≠ 0xFF ∧
    (s 0).physState ((s 0).physOf 0) = .active := by
  decide +kernel

/-! ## Witnesses: credit messages and order rings -/

def image (slots : List RingSlot) : RingImage := ⟨0, 1, 1, true, false, slots⟩
def ringOf (slots : List RingSlot) : Ring := { Ring.reset with normal := some (image slots), normalLoaded := true, use := .normal }
def withRing (key : Nat) (r : Ring) : State := { up with rings := [(key, r)] }

/-- One operation in core 0's MOVE queue. -/
def moveOp (o : MOp) (units : List MemUnit) (f : MoveOp → MoveOp := id) : MoveOp :=
  f { op := o, sy := true, tl := false, lap := 0, sVal := 7, patS := none, patF := none, stepIndex := 0, word := 5, started := false,
      halted := false, judged := true, resp := none, units := units, transit := [], data := [] }
def withMove (o : MoveOp) (s : State) : State := { s with cores := mapPut s.cores 0 { idleCore with moveQ := [o] } }
/-- A hub agent's transfer with units that wait for a ring and then for another. -/
def transferOf (agent : Nat) (units : List HubUnit) : Transfer :=
  { q := 3, desc := ⟨4, BitVec.ofNat 512 1, 40, 0, true, 0, false⟩, agent := agent, orphan := false, dst := 0x300000, read := [], whole := true,
    wrote := none, off := 0, writing := true, units := units, got := [], fail := none }
def unitsOn (key : Nat) (n : Nat) : List HubUnit :=
  (List.range n).map fun i => ⟨0x300000 + 64 * i, 64, 64 * i, [key, ringKey 3 28], some (List.replicate 64 7)⟩
def window3 (cfg : BitVec 8) (h : List (Nat × WindowHolder)) (s : State) : State :=
  { s with cores := mapPut s.cores 7 { Core.reset with scr := { Core.reset.scr with windowsNow := [(3, cfg)], holders := h } } }

/-- Core 0 after it issued a CREDIT_TAKE of window 3 of core 7, in whose credit ring it owns the slot at hand. -/
def taking (s1 : DWord := 7) : State :=
  { exec' (.creditTake 0 false true 1 3) (withCore (core (word cNop (mw 4 1 1 0 0x30) 0 0) [(1, s1)] [])) with
    rings := [(ringKey 1 7, ringOf [⟨.owner, 0, 2⟩, ⟨.host, 0, 4⟩])] }

theorem witness_CreditHandshake_take :
    let key := ringKey 1 7
    let s := window3 0x81 [(3, .core 9)] taking
    s.ringTurn key = true ∧ s.coreHeld 0 = false ∧ (s.slotOf key).any (fun x => x.kind == .owner && x.owner == 0) ∧
    (nextMove (s.core 0).moveQ key).any (fun e => isTake e.2.op && creditOf e.2 == some (7, 3) && lapMatch e.2.lap (s.ring key).lap == .equal) ∧
    bit (windowNow ((window3 0x01 [] taking).core 7).scr 3) 7 = false ∧ bit (windowNow (s.core 7).scr 3) 7 = true ∧
    (window3 0x81 [(3, .free)] taking).holder 7 3 = .free ∧ (window3 0x81 [(3, .core 0)] taking).holder 7 3 = .core 0 ∧
    s.holder 7 3 = .core 9 := by
  decide +kernel

theorem witness_CreditHandshake_answers :
    let g := exec' (.take 7 0 3 0) (window3 0x81 [(3, .free)] taking)
    let r := exec' (.take 7 0 3 0) (window3 0 [] taking)
    g.credit = [⟨.grant, 7, 0, 3, 0, 0x81⟩] ∧ (g.core 0).moveQ.length = 1 ∧ awaiting (g.core 0).moveQ 7 3 = some 0 ∧
    r.credit = [⟨.refuse, 7, 0, 3, 0, 0⟩] ∧ (r.core 0).moveQ.length = 1 ∧ awaiting (r.core 0).moveQ 7 3 = some 0 := by
  decide +kernel

theorem witness_CreditHandshake_give :
    let c := core (word cNop (mw 5 1 1 0 0x30) 0 0) [(1, 7)] []
    let s := window3 0x81 [(3, .core 0)] (exec' (.creditGive 0 false true 1 3) (withCore { c with scr := { c.scr with granted := [(7, 3, 0x81)] } }))
    (s.core 0).moveQ.length = 1 ∧ (s.core 0).moveQ.all (fun o => isGive o.op && o.judged && o.resp.isNone && (creditOf o == some (7, 3))) ∧
    s.panelAnswers 0 = true ∧ s.coreHeld 0 = false ∧ s.holder 7 3 = .core 0 := by
  decide +kernel

theorem witness_WriteStoresAtTarget :
    let far : DWord := BitVec.ofNat 64 (scratchAddr 7 (4 * groupWords))
    let c := core (word cNop (mw 3 1 1 1 0x30) 0 0) [(1, far)] [(1, pat 0 64 1 0 16 0)]
    let t := exec' (.moveRemote 0 false true 1 1 3) (withCore { c with scr := { c.scr with granted := [(7, 3, 0x81)] } })
    let k := t.core 0
    let s := { t with cores := mapPut t.cores 0 { k with moveQ := k.moveQ.map (fun o : MoveOp => { o with transit := [] }) } }
    (readyWrite (s.localOf 0) 7 3).any (fun e => decide (1 ≤ e.2.2.len) && decide (e.2.2.len ≤ 1024) &&
      decide (e.2.2.addr + e.2.2.len ≤ 1572864)) ∧ (s.core 0).supply.gateClosed = false ∧ (s.core 0).att.queue = [] ∧ (List.range 8).all (fun p => s.panelAnswers p) := by
  decide +kernel

theorem witness_OwnerServesUnits :
    let c := core (word cNop (mw 2 1 1 1 2) 0 0) [(1, 0x300000)] [(1, pat 0 64 1 0 16 0), (2, pat 0 64 1 0 0 1)]
    let t := exec' (.moveOut 0 false true 1 1 2) (withCore c)
    let s (lap : Nat) := { t with rings := [(ringKey 2 0, { ringOf [⟨.owner, 0, 2⟩, ⟨.host, 0, 4⟩] with lap := lap })] }
    let meets (lap : Nat) (k : LapMatch) : Bool :=
      (nextMove ((s lap).core 0).moveQ (ringKey 2 0)).any fun e => lapMatch e.2.lap ((s lap).ring (ringKey 2 0)).lap == k &&
        e.2.op == .moveOut false true 1 1 2 && (e.2.patS == some (decodePattern (pat 0 64 1 0 16 0))) && !e.2.halted && e.2.data.isEmpty &&
        (e.2.units.find? fun x => unitRing e.2.op x == ringKey 2 0).any fun u => u.route.isEmpty &&
          ((s lap).localOf 0 |>.streamBytes 65 (decodePattern (pat 0 64 1 0 16 0)) u.off u.len).2.isEmpty &&
            !unitDead ((s lap).coreEnv 0) u.addr
    (s 0).ringTurn (ringKey 2 0) = true ∧ ((s 0).slotOf (ringKey 2 0)).any (fun x => x.kind == .owner && x.owner == 0) ∧
    (s 0 |>.core 0).seq.lapRecordDue = false ∧ (s 0 |>.core 0).seq.stoppedByFault = false ∧ (s 0 |>.core 0).supply.gateClosed = false ∧
    (List.range 8).all (fun p => (s 0).panelAnswers p) ∧ (s 0 |>.core 0).att.queue = [] ∧ ((s 0).core 0).moveQ.length = 1 ∧
    meets 0 .equal ∧ meets 3 .ahead ∧ meets 1 .mismatch := by
  decide +kernel

/-- The other forms of the statement: a store over further rings, an atomic add, and reads whose unit takes or carries its bytes. -/
theorem witness_OwnerServesUnits_forms :
    let pats := [(1, decodePattern (pat 0 64 1 0 16 0)), (2, decodePattern (pat 2 32 1 0 0 1))]
    let o (op : MOp) (u : MemUnit) (data : List (Nat × List Byte × Bool)) : MoveOp :=
      moveOp op [u] fun o => { o with patS := (pats[0]?).map (·.2), patF := (pats[1]?).map (·.2), data := data }
    let meets (key : Nat) (o : MoveOp) : Bool :=
      let s := withMove o (withRing key (ringOf [⟨.owner, 0, 2⟩, ⟨.host, 0, 4⟩]))
      s.ringTurn key && (nextMove (s.core 0).moveQ key == some (0, o)) && (lapMatch o.lap (s.ring key).lap == .equal) &&
        (o.units.find? fun x => unitRing o.op x == key).isSome && !unitBad (s.coreEnv 0) capBase && !unitDead (s.coreEnv 0) capBase
    let toCap : MemUnit := ⟨ringKey 5 0, capBase, 64, 0, [ringKey 4 0, ringKey 3 16, ringKey 5 0]⟩
    let atCap : MemUnit := ⟨ringKey 5 0, capBase, 64, 0, []⟩
    meets (ringKey 4 0) (o (.moveOut false true 1 1 2) toCap []) ∧ meets (ringKey 5 0) (o (.moveOut false true 1 1 2) atCap [(0, [7], false)]) ∧
    meets (ringKey 5 0) (o (.atomicAdd false true 1 1 2) atCap [(0, List.replicate 64 0, false)]) ∧
    meets (ringKey 2 0) (o (.moveIn false true 1 1 2) ⟨ringKey 2 0, 0x300000, 64, 0, []⟩ []) ∧
    meets (ringKey 5 0) (o (.moveIn false true 1 1 2) { toCap with route := [ringKey 3 0, ringKey 4 1] } []) ∧
    meets (ringKey 2 0) (o (.fetchRoster false true 1 4) ⟨ringKey 2 0, 0x4000, 64, 0, []⟩ []) := by
  decide +kernel

theorem witness_HubAgentsAreServed :
    [(4, 31), (3, 29), (2, 0)].all fun (cls, inst) =>
      let key := ringKey cls inst
      let moves (r : Ring) (ts : List Transfer) : State := { withRing key r with host := { up.host with transfers := ts } }
      let s := moves (ringOf [⟨.owner, 0x207, 3⟩, ⟨.host, 0, 4⟩]) [transferOf 0x207 (unitsOn key 2)]
      let e := moves (ringOf [⟨.owner, 0x206, 3⟩, ⟨.host, 0, 4⟩]) []
      let o := moves (ringOf [⟨.host, 0, 4⟩]) [transferOf 0x200 (unitsOn key 5), transferOf 0x207 (unitsOn key 2)]
      let fits (s : State) : Bool := s.host.partials.isEmpty && s.host.transfers.all fun x => !x.units.isEmpty && s.judgeTransfer x == x &&
        decide (x.units.map (·.off)).Nodup && x.units.all fun u => u.data.isSome && !u.route.tail.isEmpty && u.route.tail.head? != some key
      fits s && fits o && s.ringTurn key && (s.slotOf key).any (fun x => x.kind == .owner && x.owner == 0x207) && (s.hubPending key 0x207 == 2) &&
        e.ringTurn key && (e.hubPending key 0x206 == 0) && !bit e.host.busy 6 && (((e.ring key).slots key)[1]?.any fun x => x.kind == .host) &&
        (o.openingAt key .host).isSome && (o.hubPending key 0x200 == 5) && (o.hubPending key 0x207 == 2) && o.host.requests.isEmpty &&
        (o.ring key).clashes.isEmpty && o.host.fences.isEmpty := by
  decide +kernel

theorem witness_RefreshDebt :
    let slots : List RingSlot := [⟨.refresh, 0, 1⟩, ⟨.host, 0, 4⟩]
    let c := { withRing (ringKey 5 235) (ringOf slots) with
      cuffs := [(11, { up.cuff 11 with channels := (up.cuff 11).channels.modify 15 fun (c : Channel) => { c with debt := 9 } })] }
    let p := withRing (ringKey 2 511) (ringOf slots)
    let alone := { up with panels := [(7, { Panel.reset with powered := true, state := .isolated })] }
    (c.openingAt (ringKey 5 235) .refresh).isSome = true ∧ (((c.ring (ringKey 5 235)).slots (ringKey 5 235))[1]?.any fun x => x.kind == .host) ∧
    15 < (c.cuff 11).channels.length ∧ (c.cuff 11).seq = none ∧ c.debtOf (ringKey 5 235) = 9 ∧
    (p.openingAt (ringKey 2 511) .refresh).isSome = true ∧ p.debtOf (ringKey 2 511) = 0 ∧
    (p.panel 7).powered = true ∧ p.selfRefreshes 542 = false ∧ p.slotOwner 542 = some 511 ∧
    (p.slotOf (ringKey 2 511)).all (fun x => x.kind != .owner) ∧
    (alone.panel 7).powered = true ∧ alone.selfRefreshes 542 = true ∧
    (c.chan 11 15).state ≠ .mappedOut ∧ c.ringRuns (ringKey 5 235) = true ∧ (c.slotOf (ringKey 5 235)).all (fun x => x.kind != .owner) := by
  decide +kernel

theorem witness_RegionRamps :
    let s (asked : BitVec 4) := { withRing (ringKey 2 0) (ringOf [⟨.switchOn, 0, 1⟩, ⟨.host, 0, 4⟩]) with
      cores := [(0, { idleCore with regions := ⟨.off, .off, .ramping, .off, asked, 0, 0⟩ })] }
    ((s 8).openingAt (ringKey 2 0) .switchOn).isSome ∧ bit (startable ((s 8).core 0).regions) 3 = true ∧ bit (startable ((s 8).core 0).regions) 2 = false ∧
    ((s 0).openingAt (ringKey 2 0) .switchOn).isSome ∧ startable ((s 0).core 0).regions = 0 ∧ (s 8).coreUp 0 ∧
    offPending ((s 8).core 0) = 0 := by
  decide +kernel

def scrubPass (parts : List ScrubPart) : ScrubPass :=
  { sq := 3, order := 40, parts := parts, startNs := none, endNs := 0, firstUncorr := none, steps := 4, corrected := 1, uncorrectable := 0,
    verifyFails := 0, remapped := 0, retired := 0, wakes := 0, status := 0 }

theorem witness_ScrubAndLogOpenings :
    let p := scrubPass [⟨7, 0, 9⟩, ⟨ringKey 2 511, 0, 1⟩]
    let s := withRing (ringKey 2 511) (ringOf [⟨.scrub, 0, 1⟩, ⟨.host, 0, 4⟩])
    let log7 := (withRing (ringKey 7 0) (ringOf [⟨.log, 8, 1⟩, ⟨.host, 0, 4⟩])).note 0x01 8 0xFFF 0 0
    let log4 := (withRing (ringKey 4 31) (ringOf [⟨.log, 0, 1⟩, ⟨.host, 0, 4⟩])).note 0x16 7 0 0 0
    let r : ErrRecord := ⟨0x22, 8, 0, 0, 0, 1, 0, 0, false⟩
    let log3 (ctrl : Word) := { withRing (ringKey 3 28) (ringOf [⟨.log, 0, 1⟩, ⟨.host, 0, 4⟩]) with
      log := { up.log with writes := [r], ctrl := ctrl, base := 0x9000000, tail := 15, head := 3 } }
    let spare := withRing (ringKey 5 235) (ringOf [⟨.scrub, 0, 1⟩, ⟨.host, 0, 4⟩])
    (s.openingAt (ringKey 2 511) .scrub).isSome ∧ s.passOf (ringKey 2 511) = none ∧
    (spare.openingAt (ringKey 5 235) .scrub).isSome ∧ spare.copying 11 15 = none ∧
    ((log3 0xC0000104).openingAt (ringKey 3 28) .log) = some ⟨.log, 0, 1⟩ ∧ (log3 0xC0000104).log.enabled = true ∧ (log3 0xC0000104).log.hasSpace = true ∧
    (log3 0xC0000104).log.tail + 1 = (log3 0xC0000104).log.size ∧ logSignals (log3 0xC0000104).log r = true ∧ (log3 0x104).log.enabled = false ∧
    { s with scrubs := [scrubPass [⟨7, 0, 9⟩], p] }.passOf (ringKey 2 511) = some (1, p) ∧
    (log7.openingAt (ringKey 7 0) .log).isSome ∧ (log7.logSource 8).queue.length = 1 ∧
    (log4.openingAt (ringKey 4 31) .log).isSome ∧ (log4.logSource 7).queue.length = 1 ∧ (log4.logSource 7).crossed = 0 := by
  decide +kernel

theorem witness_RingLapsAndStalls :
    let key := ringKey 2 511
    let s := withRing key { ringOf [⟨.owner, 511, 1⟩] with atEnd := true, lap := 4 }
    let w (stalled : Bool) := withRing key { ringOf [⟨.owner, 511, 1⟩] with stalled := stalled }
    let u (stalled : Bool) := (w stalled).settleRing key
    s.ringRuns key = true ∧ s.ringHeld key = false ∧ (s.ring key).atEnd = true ∧ (u false).ringTurn key = true ∧ (u true).ringTurn key = true ∧
    ((u false).slotOf key).any (fun x => x.kind == .owner) ∧ ((u true).slotOf key).any (fun x => x.kind == .owner) ∧
    ((u false).ring key).stalled = false ∧ ((u true).ring key).stalled = true := by
  decide +kernel

/-! ## Witnesses: Cuffs, Seams and Panels -/

theorem witness_CuffDegrades :
    let s := { up with cuffs := [(11, { up.cuff 11 with replays := 8 })] }
    let blind := exec' (.packageTempRead 11 4 none) up
    s.cuffGone 11 = false ∧ (List.replicate 516 (7 : Byte)).length = 516 ∧ ([] : List Byte).length ≠ 516 ∧ (s.cuff 11).replays = 8 ∧
    (s.cuff 11).retry = [] ∧ (s.cuff 11).channels.length = 16 ∧ (s.chan 11 15).state = .active ∧ ((up.cuff 11).packages[4]?).any (fun p => !p.failed) ∧
    ((blind.cuff 11).packages[4]?).any (fun p => p.failed) := by
  decide +kernel

theorem witness_CuffDegrades_crc : Config.cuffCrc (List.replicate 516 7) = Config.cuffCrc (List.replicate 516 7) := rfl

theorem witness_ChannelsRetrain :
    let waits (bad : List Nat) := { up with cuffs := [(11, { up.cuff 11 with waiting := [15, 5], sparesBad := bad })] }
    (up.cuff 11).auto = true ∧ chanRetrains (up.chan 11 15) = true ∧ (0 : Nat) < up.retrainThreshold 11 ∧
    up.pathOpen .pcie (cfBase 11 + 0x18) = true ∧ up.cuffGone 11 = false ∧ bit (0x1F : Word) 4 = true ∧
    ((waits []).cuff 11).waiting = [15, 5] ∧ ((waits []).cuff 11).freeSpares = [0, 1, 2, 3] ∧
    ((waits [0, 1, 2, 3]).cuff 11).freeSpares = [] ∧ chanRetrains ((waits []).chan 11 15) = true ∧ ((waits []).cuff 11).seq = none ∧
    [(ChanState.mirroring, 0, 9000, true), (.switched, 5, 900, true), (.switched, 5, 900, false), (.returning, 0, 900, true)].all fun (st, left, ends, passes) =>
      let q : Retrain := ⟨15, 2, 1, 3, passes, left, [7], ends, []⟩
      let s := { up with cuffs := [(11, { up.cuff 11 with
        seq := some q, channels := (up.cuff 11).channels.modify 15 fun (c : Channel) => { c with state := st } })] }
      (s.cuff 11).seq == some q && decide (q.slot < (s.cuff 11).channels.length) && (s.chan 11 q.slot).state == st &&
        (decide (q.left = 0) || (decide (q.ends ≤ s.now) && q.passes == passes)) := by
  decide +kernel

/-- A near-memory record of Table 12-5 with operation `op` on 16 FP32 elements. -/
def nearRecord (op : Nat) : List Byte :=
  leBytes 64 (0x40 * 2 ^ 464 + 15 * 2 ^ 352 + 0x40000000 * 2 ^ 288 + 0x3F800000 * 2 ^ 256 + op * 2 ^ 248 + 1 * 2 ^ 240 + 1 * 2 ^ 232)

theorem witness_NearMemoryCommands :
    let a := capBase + 4096
    let cmd (op : Nat) : NearCommand := ⟨0, 0, 7, a, nearRecord op⟩
    let work : TurnWork := ⟨0, 1, 0, 7, 2, 3, false⟩
    let s := { up with
      cuffs := [(1, { up.cuff 1 with near := [cmd 1, cmd 0], busTurns := [work] })],
      rings := [(ringKey 6 0, ringOf [⟨.owner, 0x221, 3⟩, ⟨.host, 0, 2⟩])] }
    let key := ringKey 5 20
    let runs (units : List NearUnit) (got : List (Nat × List Byte)) : State := { up with
      rings := [(ringKey 5 20, ringOf [⟨.owner, 0x221, 3⟩, ⟨.host, 0, 2⟩]), (ringKey 6 0, ringOf [⟨.host, 0, 2⟩])],
      cuffs := [(1, { up.cuff 1 with
        channels := (up.cuff 1).channels.modify 0 fun (c : Channel) => { c with turns := [work] }, running := some ⟨cmd 1, units⟩ })],
      cap := { up.cap with near := [⟨cmd 1, [1], got, [], [], [], []⟩] } }
    let source : NearUnit := ⟨.source, ⟨key, a, 64, 0, []⟩⟩
    let result : NearUnit := ⟨.result [0], ⟨key, a + 64, 64, 0, []⟩⟩
    let meets (s : State) (x : NearUnit) : Bool :=
      s.isUp && !s.cuffGone 1 && (s.ring (ringKey 6 0)).use != .opened && s.ringTurn key && (s.slotOf key).any (fun y => y.kind == .owner && y.owner == 0x221) &&
        (s.chan 1 0).turns == [work] && lapMatch work.lap (s.ring key).lap == .equal && s.nearNext 1 key == some x
    s.isUp = true ∧ s.cuffGone 1 = false ∧ (s.cuff 1).near = [cmd 1, cmd 0] ∧ (s.cuff 1).running = none ∧ (s.ring (ringKey 6 0)).use ≠ .opened ∧
    nearUnits s.cap.list 1 a (parseNear (nearRecord 1)) = [source, result] ∧
    nearError s.capBytes a (parseNear (nearRecord 1)) = false ∧ nearError s.capBytes a (parseNear (nearRecord 0)) = true ∧
    meets (runs [source, result] []) source ∧ ((runs [source, result] []).nearEntry 1 (cmd 1)).done.length < 12 ∧
    ((runs [source, result] []).cap.near.any fun e => e.runs (cmd 1) 1) = true ∧
    meets (runs [result, { result with unit := { result.unit with addr := a + 128 } }] [(a, List.replicate 64 0)]) result ∧
    (let r := runs [result] [(a, List.replicate 64 0)]
     r.rowsReady 1 (r.nearEntry 1 (cmd 1)) [0] = true ∧ r.capAnswers (a + 64) = true) ∧
    (let b := { s with cuffs := [(1, { s.cuff 1 with running := some ⟨cmd 1, [result]⟩ })] }
     (b.cuff 1).busTurns = [work] ∧ b.busReady 1 = true ∧ (b.slotOf (ringKey 6 0)).any (fun x => x.units == 3) ∧ (b.ring (ringKey 6 0)).used = 0) := by
  decide +kernel

/-- A flit of a kind toward Panel 2, in order, its CRC right or not. -/
def flitOf (kind : Nat) (wrong : BitVec 16) : SeamFlit :=
  let f : SeamFlit := ⟨5, false, 15, 0, 15, 0, List.replicate 64 9, BitVec.ofNat 4 kind, []⟩
  { f with crc := crc16 (flitCovered f) + wrong }

theorem witness_SeamFlits :
    (List.range 6).all fun kind =>
      let f := flitOf kind 0
      let g := flitOf kind 1
      up.takesFlits f && flitPasses f kind ((up.seam 5).mod (flitKey f)) && up.takesFlits g && !flitPasses g kind ((up.seam 5).mod (flitKey g)) := by
  decide +kernel

/-- A NAK of a flit that 20 others followed: the 21 flits that the sender keeps reach back to it. -/
theorem witness_SeamFlits_nak :
    let f := flitOf 3 0
    let back : SeamModule := { SeamModule.reset with next := 21, buffer := List.replicate 21 (0, []) }
    let s := { up with seams := [(5, (up.seam 5).setMod (flitReverseKey f) back)] }
    s.takesFlits f = true ∧ flitPasses f 3 ((s.seam 5).mod (flitKey f)) = true ∧ (s.seam 5).mod (flitReverseKey f) = back ∧
    (back.next - back.expect).toNat ≤ back.buffer.length ∧ f.ackSeq.toNat = (back.expect.toNat + 15) % 16 := by
  decide +kernel

theorem witness_PortsRetire :
    let replays (n : Nat) := { up with seams := [(15, { up.seam 15 with modules := [(30, { SeamModule.reset with failures := n })] })] }
    let last := { up with seams := [(14, { up.seam 14 with state := .retired })] }
    (up.seam 15).state ≠ .retired ∧ (replays 200).replaysReached 15 15 = true ∧ (up.seam 14).state ≠ .retired ∧
    (last.seam 14).state = .retired ∧ (last.seam 15).state ≠ .retired ∧ (up.panel 7).state = .present := by
  decide +kernel

theorem witness_PanelRejoins :
    let s := exec' (.seamPllLoss 7) up
    let env : WriteEnv := ⟨[(.trained, .trained)], 0, [], false⟩
    (s.panel 7).state = .isolated ∧ (s.panel 7).powered = true ∧ s.set.running = false ∧ (s.seam 14).state = .down ∧
    (s.seam 15).state = .down ∧ env.attempts.head? = some (.trained, .trained) ∧ env.failed = [] ∧ env.level = (s.panel 7).feature ∧ s.rejoinAuto = true ∧ s.pathOpen .pcie 0x328 = true ∧
    bit (0x107 : Word) 8 = true ∧ (field (0x107 : Word) 0 3).toNat = 7 ∧ (s.entry 511).state ≠ .absent := by
  decide +kernel

theorem witness_MarkersAndRates :
    let w : FenceWait := ⟨0, 0, [2, 7], [4, 5, 14, 15], [2], [], 0, 0, 0⟩
    let s := { up with host := { up.host with fences := [⟨0, 1, [7], [14], [], [], 0, 0, 0⟩, w] } }
    (s.host.fences.findIdx? fun w => w.panels.contains 7 && w.sent.contains 14 && w.sent.contains 15 && !w.noted.contains 7) = some 1 ∧ s.host.fences[1]? = some w ∧
    s.panelAnswers 7 = true ∧ (up.panel (511 / 64)).powered = true ∧ up.power.fold ≠ .folded ∧
    up.now < (up.core 511).seq.windowNs + 2048 ∧ (up.entry 511).state ≠ .absent := by
  decide +kernel

/-! ## Witnesses: the host interface -/

/-- A descriptor with an opcode and further fields (Tables 14-11 to 14-13), started. -/
def descOf (index op fields : Nat) : Desc := ⟨index, BitVec.ofNat 512 (op + 77 * 2 ^ 32 + fields), 40, 0, true, 0, false⟩

/-- Ring 3 with these descriptors, whose completion queue 5 has space. -/
def hosted (ds : List Desc) : State :=
  { up with
    host := { up.host with
      sqs := [(3, { Sq.reset with enable := true, state := .running, cq := 5, head := 10, tail := 20, descs := ds })],
      cqs := [(5, { Cq.reset with enable := true, base := 0x7000000, tail := 2, phase := true, head := 0 })] } }

/-- The ring is up, its completion queue ready, and a descriptor of the opcode is started. -/
def serves (s : State) (op : Nat) (d : Desc) : Bool :=
  s.isUp && (s.cq (s.sq 3).cq.toNat).held.isEmpty && (s.cq (s.sq 3).cq.toNat).hasSpace && (s.started 3 (BitVec.ofNat 16 d.index) op == some d)

theorem witness_RingsTakeDescriptors :
    let s := hosted []
    let fresh (op : Nat) : Desc := { descOf 0xFFFF op 0 with started := false }
    let coal := { s with host := { s.host with cqs := [(5, { s.cq 5 with irqPending := 2, irqNs := 640, irqSince := 900, irqEnable := true, vector := 63 })], msixTable := [(63, 0)] } }
    s.power.step = 10 ∧ s.power.fold = .running ∧ (s.sq 3).acts = true ∧ (s.sq 3).size = 64 ∧ (s.cq 5).enable = true ∧ (s.cq 5).size = 64 ∧
    (s.cq 5).held = [] ∧ s.engineUp = true ∧ s.nextVisit = some 3 ∧ s.host.requests = [] ∧
    (hosted [fresh 14]).unstarted 3 0xFFFF = some (fresh 14) ∧ (hosted [fresh 14]).descOf 3 (fresh 14).order = some (fresh 14) ∧ (hosted [fresh 14]).canStart 3 (fresh 14) = true ∧ (fresh 14).valid = true ∧
    (hosted [fresh 99]).canStart 3 (fresh 99) = true ∧ (fresh 99).valid = false ∧
    (coal.cq 5).enable = true ∧ (coal.cq 5).irqEnable = true ∧ (coal.cq 5).irqPending = 2 ∧ (coal.cq 5).irqNs = 640 ∧ msixMasked coal.host 63 = false := by
  decide +kernel

theorem witness_DescriptorsComplete :
    let start (op fields : Nat) (f : State → State) (q : State → Desc → Bool) : Bool :=
      let d := descOf 0xFFFF op fields
      let s := f (hosted [d])
      serves s op d && q s d
    let setRuns (s : State) : State := { s with set := { s.set with running := true } }
    start 14 0 id (fun _ _ => true) ∧ start 4 (8 * 2 ^ 64) id (fun s d => s.startedThat 3 0xFFFF 4 s.maskDone == some d) ∧
    start 8 (0xFFFF * 2 ^ 64) id (fun _ _ => true) ∧
    start 10 (24 * 2 ^ 64) (fun s => { s with host := { s.host with drains := [⟨3, 40, 24, true⟩] } })
      (fun s d => (s.drainOf 3 d.order).isSome && s.maskDone d) ∧
    start 13 0 setRuns (fun s _ => s.set.running) ∧ start 13 0 id (fun s _ => !s.set.running && !s.tierBusy && !s.retraining) ∧
    start 13 0 (fun s => { s with cuffs := [(3, { up.cuff 3 with seq := some ⟨2, 0, 0, 1, true, 9, [], 0, []⟩ })] }) (fun s _ => !s.set.running && s.retraining) ∧
    start 12 (4088 * 2 ^ 128 + 8 * 2 ^ 144) id (fun _ d => d.get 144 13 == 8) ∧
    start 12 (4088 * 2 ^ 128 + 8 * 2 ^ 144) (fun s => { s with mgmt := { s.mgmt with tagLocked := true } }) (fun s _ => s.mgmt.tagLocked) ∧
    start 9 0 setRuns (fun s d => s.power.foldBy != some (3, d.order)) ∧
    start 9 0 id (fun s d => s.onlyStarted 3 d.order && !s.power.wakeAsked && !s.retraining) ∧
    start 7 0 id (fun _ _ => true) := by
  decide +kernel

/-- Two descriptors started: a FENCE waits for the earlier one, and a FOLD is not alone. -/
theorem witness_DescriptorsComplete_waiting :
    let fence := { descOf 4 4 (8 * 2 ^ 64) with order := 49 }
    let fold := descOf 4 9 0
    serves (hosted [descOf 3 14 0, fence]) 4 fence ∧ (hosted [descOf 3 14 0, fence]).maskDone fence = false ∧
    serves (hosted [fold, { descOf 6 14 0 with order := 41 }]) 9 fold ∧
    (hosted [fold, { descOf 6 14 0 with order := 41 }]).onlyStarted 3 40 = false := by
  decide +kernel

theorem witness_ScrubFenceAndHalt :
    let scrub := descOf 4 6 (4096 * 2 ^ 128)
    let odd := descOf 4 6 (2 ^ 47 * 2 ^ 64 + 4096 * 2 ^ 128)
    let ending := descOf 4 6 (4096 * 2 ^ 128 + 0x9000000 * 2 ^ 192)
    let ended := { hosted [ending] with scrubs := [scrubPass []] }
    let fence := descOf 4 5 0
    let dark := { hosted [fence] with panels := (List.range 8).map fun p => (p, { Panel.reset with powered := true, state := .isolated }) }
    let halt := descOf 4 11 0
    let busy := { hosted [{ descOf 3 1 0 with started := false, order := 39 }, halt] with
      set := { ActiveSet.none with running := true, cores := [0], sq := 9, order := 38 }, cores := [(0, idleCore)],
      rings := [(ringKey 2 0, { Ring.reset with use := .normal })] }
    serves (hosted [scrub]) 6 scrub ∧ (hosted [scrub]).startedThat 3 4 6 (fun d => !(hosted [scrub]).scrubbing 3 d) = some scrub ∧
    (hosted [odd]).startedThat 3 4 6 (fun d => !(hosted [odd]).scrubbing 3 d) = some odd ∧ ((hosted [scrub]).scrubParts (scrub.get 64 48) (scrub.get 128 48)).2 = 0 ∧
    ((hosted [odd]).scrubParts (odd.get 64 48) (odd.get 128 48)).2 ≠ 0 ∧
    (ended.scrubs.find? fun p => p.parts.isEmpty) = some (scrubPass []) ∧ ended.descOf 3 40 = some ending ∧
    (ended.cq 5).held = [] ∧ ended.entryAt 3 + 16 ≤ ending.summaryAt ∧
    serves (hosted [fence]) 5 fence ∧ (hosted [fence]).fenceTurn fence = true ∧ (hosted [fence]).panelAnswers 7 = true ∧
    serves dark 5 fence ∧ dark.fenceTurn fence = true ∧ dark.descOf 3 40 = some fence ∧ (List.range 8).all (fun p => !dark.panelAnswers p) ∧
    busy.halts = [(3, halt)] ∧ busy.toAbort.length = 1 ∧ (hosted [halt]).halts = [(3, halt)] ∧ (hosted [halt]).toAbort = [] := by
  decide +kernel

theorem witness_DataReachesDevice_copy :
    let d := descOf 4 1 (0x5000 * 2 ^ 64 + 0x300000 * 2 ^ 128 + 256 * 2 ^ 192 + 2 * 2 ^ 256 + 2 ^ 262)
    let s := hosted [d]
    serves s 1 d ∧ s.startedThat 3 4 1 (fun d => !s.moving 3 d) = some d ∧ d.srcHost = true ∧ d.copyLen = 256 := by
  decide +kernel

/-- A roster of two words, NOP and END, for word 5 on (Table 04-2), and an image of the credit ring of core 0 (Table 03-3). -/
def rosterBytes : List Byte :=
  leBytes 16 (1 + 2 * 2 ^ 32 + 5 * 2 ^ 60 + 1 * 2 ^ 92 + 0xABCD * 2 ^ 96) ++ leBytes 16 cNop ++ leBytes 16 (cw 2 0 0 0)
def imageBytes : List Byte :=
  leBytes 16 (1 * 2 ^ 56 + 1 * 2 ^ 68 + 1 * 2 ^ 72 + 0xABCD * 2 ^ 96) ++ leBytes 4 0 ++ leBytes 4 (2 ^ 28)
def leveled (ds : List Desc) : State := { hosted ds with yoke := { up.yoke with level := 1 } }

theorem witness_DataReachesDevice_load :
    let d := descOf 4 2 (0x5000 * 2 ^ 64 + 48 * 2 ^ 128 + 511 * 2 ^ 176)
    let i := descOf 4 2 (0x5000 * 2 ^ 64 + 24 * 2 ^ 128 + 2 ^ 160)
    let s := leveled [d]
    let h := parseHeader rosterBytes
    let p := parseImage imageBytes
    let r := (leveled [i]).ring (ringKey p.cls p.inst)
    serves s 2 d ∧ s.loadTurn d = true ∧ s.moving 3 d = false ∧ bit d.raw 160 = false ∧ d.get 176 9 = 511 ∧ (s.entry 511).state ≠ .absent ∧
    s.panelAnswers 7 = true ∧ rosterFits (s.core 511).seq h 48 = true ∧ 16 * regionFirst (s.core 511).seq + 64 + 48 ≤ pocketSlotBytes ∧
    serves (leveled [i]) 2 i ∧ (leveled [i]).loadTurn i = true ∧ bit i.raw 160 = true ∧ i.get 128 32 = 16 + 4 * p.count ∧ r.use = .opened ∧
    imageValid p r ((leveled [i]).imageRate p) ((leveled [i]).mappedRing p) = true ∧ p.image.reqFl ≤ (leveled [i]).yoke.level := by
  decide +kernel

/-- A COPY of one unit at the ring of its column: read from there toward the host, and written there from the host; the last unit of a
LOAD_ROSTER. -/
theorem witness_DataReachesDevice_opening :
    let key := ringKey 2 0
    let tr (d : Desc) (agent : Nat) (f : Transfer → Transfer) : Transfer := f { transferOf agent [] with desc := d, whole := true }
    let out := tr (descOf 4 1 (0x300000 * 2 ^ 64 + 0x5000 * 2 ^ 128 + 64 * 2 ^ 192 + 2 ^ 256 + 2 ^ 263)) 0x201 fun t =>
      { t with writing := false, units := [⟨0x300000, 64, 0, [key, seamRing 0 1, ringKey 3 29], none⟩] }
    let put (d : Desc) (agent : Nat) : Transfer := tr d agent fun t => { t with
      dst := d.copyDst, units := [⟨0x300000, 64, 0, [key], some (List.replicate 64 7)⟩] }
    let copy := put (descOf 4 1 (0x5000 * 2 ^ 64 + 0x300000 * 2 ^ 128 + 64 * 2 ^ 192 + 2 * 2 ^ 256)) 0x200
    let load := put (descOf 4 2 (0x5000 * 2 ^ 64 + 64 * 2 ^ 128)) 0x210
    let s (x : Transfer) : State := { withRing key (ringOf [⟨.host, 0, 4⟩]) with host := { (hosted [x.desc]).host with transfers := [x] } }
    let meets (x : Transfer) : Bool :=
      (s x).openingAt key .host == some ⟨.host, 0, 4⟩ && (s x).host.requests.isEmpty && (s x).host.partials.isEmpty && ((s x).ring key).clashes.isEmpty &&
        (s x).host.fences.isEmpty && !x.orphan && x.fail.isNone && !x.atHost && (s x).place x.by 0x300000 == .pocket 0 && (s x).pocketRing 0 == key
    meets out ∧ meets copy ∧ meets load ∧ out.loads = false ∧ copy.loads = false ∧ load.loads = true ∧
    ((s out).column ((s out).columnOf 0)).readable (wordOf 0x300000) = true ∧ copy.total ≤ copy.chunkEnd ∧ load.total ≤ load.chunkEnd ∧
    load.whole = true := by
  decide +kernel

theorem witness_LaunchStartsSet :
    let d := descOf 4 3 (0xABCD * 2 ^ 64 + 0x6000 * 2 ^ 128)
    let img : RingImage := ⟨0xABCD, 1, 1, true, false, [⟨.host, 0, 8⟩]⟩
    let s := { leveled [d] with
      mem := memWrite [] ((leveled []).regionAddr 2 + 64) rosterBytes, badRosters := [],
      rings := [(ringKey 2 2, { Ring.reset with normal := some img, normalLoaded := true })] }
    s.isUp = true ∧ s.started 3 4 3 = some d ∧ s.set.running = false ∧ s.bankWaits = false ∧ (field d.raw 64 32 : BitVec 32) = 0xABCD ∧
    maskCores (4 :: List.replicate 63 0) = [2] ∧ s.applyRegions.launchStatus 0xABCD [2] = 0 ∧ s.applyRegions.launchStatus 0xABCD [] ≠ 0 ∧
    (s.cq 5).held = [] ∧ (s.cq 5).hasSpace = true := by
  decide +kernel

theorem witness_HostPortAnswers :
    let starting := { up with power := { up.power with ready := false, everReady := false, step := 4 } }
    let env : WriteEnv := ⟨[], 0, [], false⟩
    let r : Bar4Request := { addr := 0x40, len := 8, data := none, deadline := 7777, env := env, path := [(ringKey 2 0, 1)], reply := none }
    let w : Bar4Request := { r with addr := 0xFC0, len := 64, data := some (List.replicate 64 3) }
    let waiting := { up with host := { up.host with requests := [.access r] } }
    let opening := { withRing (ringKey 2 0) (ringOf [⟨.host, 0, 8⟩]) with host := { up.host with requests := [.access w] } }
    let mapped (s : State) (off k : Nat) : Bool := (pieces (k / 64 + 2) (s.bar4Addr off) k).all fun p => s.place .bar4 p.1 != .unmapped
    let last := { up with host := { up.host with window := BitVec.ofNat 18 (scratchBase / 2 ^ 30) } }
    let setup := { up with host := { up.host with window := BitVec.ofNat 18 (setupBase / 2 ^ 30) } }
    starting.power.step = 4 ∧ starting.power.ready = false ∧ starting.power.everReady = false ∧ up.power.everReady = true ∧
    up.power.ready = true ∧ up.mgmt.testMode = false ∧ up.awake = true ∧ up.place .bar4 (up.bar4Addr 0) = .pocket 0 ∧
    up.host.requests = [] ∧ setup.place .bar4 (setup.bar4Addr 0x40) = .setup ∧ waiting.host.requests = [.access r] ∧ r.data = none ∧
    (opening.openingAt (ringKey 2 0) .host).any (fun x => decide (1 ≤ x.units)) ∧ opening.host.transfers = [] ∧ opening.host.partials = [] ∧
    mapped up 0 8 = true ∧ mapped up 0 0 = true ∧ mapped setup 0x40 8 = true ∧ mapped last (6291456 - 32) 64 = false ∧
    last.place .bar4 (last.bar4Addr (6291456 - 32)) = .scratch 0 ∧
    (opening.ring (ringKey 2 0)).clashes = [] ∧ opening.host.fences = [] ∧ opening.place .bar4 w.addr = .pocket 0 ∧ w.addr % 64 = 0 ∧
    up.pathOpen .collar 0x400 = true ∧ { up.host with perst := false }.perst = false := by
  decide +kernel

/-! ## Witnesses: resets, power, cooling -/

theorem witness_ResetKinds :
    let locked := { up with mgmt := { up.mgmt with serviceCtrl := 6 } }
    up.set.running = false ∧ up.collarUp = true ∧ up.mctpReset = true ∧ locked.collarUp = true ∧ locked.mctpReset = false ∧
    up.panelsUp = true ∧ (up.panel 7).state = .present ∧ up.pathOpen .pcie 0x01000024 = true ∧ up.power.fold = .running ∧
    (field (0x107 : Word) 0 3).toNat = 7 ∧ bit (0x107 : Word) 8 = true ∧ bit (0x107 : Word) 9 = false ∧
    (field (0x207 : Word) 0 3).toNat = 7 ∧ bit (0x207 : Word) 9 = true ∧ bit (0x207 : Word) 8 = false ∧ (up.entry 448).state ≠ .absent := by
  decide +kernel

/-- A module with standby power whose Collar waits for the enable. -/
def standby : State :=
  { State.reset with
    power := { Power.reset with step := 1, jIn := true },
    thermal := { Thermal.reset with sensors := [(0x3000, { Sensor.reset with value := 450 }), (0x3002, { Sensor.reset with value := 60 })] } }
def started : StartupReport := ⟨none, 900, 1, [1, 1, 1, 2, 1, 1, 1, 1], [], [16], [], [], [(2, 3)], [(5, 15)], [35]⟩

theorem witness_PowerComesAndGoes :
    let folded := { up with power := { up.power with fold := .folded } }
    ({ up.power with jIn := false }).jIn = false ∧ ({ up.power with standby := false }).standby = false ∧ up.power.stage = true ∧
    { standby with power := { standby.power with jIn := false } }.enableBarred = false ∧
    { standby with power := { standby.power with jIn := false } }.startWaits ≠ [] ∧
    standby.enableBarred = false ∧ standby.startWaits = [] ∧ started.failedStep = none ∧ started.failedComparators ≠ [] ∧
    ([2, 3, 4, 5].all fun c => (standby.fw c).boot.running.isSome) = true ∧
    folded.power.fold = .folded ∧ folded.power.deferred = [] ∧ folded.collarUp = true ∧ folded.pathOpen .pcie 0x01000018 = true ∧
    bit (1 : Word) 0 = true ∧ up.power.fold = .running ∧ up.collarUp = true ∧
    { up with power := { up.power with fold := .entering } }.collarUp = true ∧ { started with failedComparators := [] }.failedComparators = [] := by
  decide +kernel

theorem witness_PowerControl :
    let gate (closed : Bool) := withCore { idleCore with supply := { idleCore.supply with gateClosed := closed } }
    let tiles := { up with map := { up.map with tiles := [(5, 7)] } }
    let capped (mv duty : Nat) := { up with power := { up.power with hostCap := 2000, supplyMv := mv, duty := duty } }
    (gate true).corePowered 0 = true ∧ ((gate true).core 0).supply.gateClosed = true ∧ ((gate false).core 0).supply.gateClosed = false ∧
    (499#10).toNat < 500 ∧ 500 ≤ (500#10).toNat ∧ (gate true).physState ((gate true).physOf 0) = .active ∧
    (tiles.panel 0).powered = true ∧ bit (tiles.tilesOf 5) 15 = false ∧ tileCount (tiles.tilesOf 5) = 3 ∧ tiles.physState 5 = .active ∧
    ({ up.power with yokeTiles := 48 }).yokeTiles = 48 ∧ up.power.yokeTiles < 48 ∧
    (capped 551 16).thermal.clamp.asked = false ∧ (capped 551 16).capW < (2001#16).toNat ∧ (capped 550 16).power.supplyMv ≤ 550 ∧
    (1#16).toNat * 100 < (capped 551 16).capW * (100 - ((capped 551 16).applyPowerExpert.takeSettings (capped 551 16)).raiseMargin) ∧
    (2000#16).toNat ≤ (capped 551 16).capW ∧ (capped 551 16).capW * (100 - ((capped 551 16).applyPowerExpert.takeSettings (capped 551 16)).raiseMargin) ≤ (2000#16).toNat * 100 ∧ (capped 551 16).power.stage = true ∧ (capped 551 15).power.duty < 16 ∧
    { up.thermal.clamp with temp := true }.asked = true ∧ up.collarUp = true ∧
    (([⟨1, 40, [2]⟩, ⟨2495, 10, [1]⟩] : List BumpDrop).map (·.group)).Nodup ∧ bit (3#2) 0 = true ∧ bit (3#2) 1 = true ∧
    (gate false).pathOpen .pcie (coBase 0 + 0x1C0) = true ∧ ((gate false).entry 0).state ≠ .absent ∧ (gate false).panelAnswers 0 = true := by
  decide +kernel

theorem witness_ThermalControl :
    let latched := { standby with thermal := { standby.thermal with latched := true } }
    let trips : List Nat := [100, 3000000, 4000000]
    let logic (v : Int) := { up with thermal := { up.thermal with sensors := [(logicKey (diodeCore 0) 0, { Sensor.reset with value := v })] } }
    let hot := logic 108
    let excursion := { logic 101 with thermal := { (logic 101).thermal with excursion := true } }
    sensorExists 0x200F = true ∧ up.sensorRead 0x200F = true ∧ (up.sensor 0x200F).invalid = false ∧ readingValid 0x200F 106 = true ∧
    up.firmwareTrip = false ∧ (up.failSensor 0x200F).firmwareTrip = false ∧ hot.firmwareTrip = false ∧ (hot.failSensor 0).firmwareTrip = true ∧
    excursion.above 100 95 = true ∧ up.above 100 95 = false ∧ up.power.standby = true ∧ up.power.stage = true ∧ standby.power.stage = false ∧
    2000 ≤ { up.thermal.clamp with flowClear := 2000 }.flowClear ∧ readingValid 0x200F 101 = true ∧ isYoke 0x200F = true ∧ readingValid 35 107 = true ∧ sensorExists 35 = true ∧ up.sensorRead 35 = true ∧
    excursion.thermal.excursion = true ∧ up.countedPanels = [0, 1, 2, 3, 4, 5, 6, 7] ∧ up.panelAnswers 7 = true ∧
    (up.sensor flowKey).invalid = false ∧ 9 < up.stopFlow ∧ up.power.fold ≠ .folded ∧ up.thermal.latched = false ∧
    (up.sensor 35).invalid = false ∧ 2 ≤ (trips.filter fun m => decide (5000000 < m + 3600000)).length ∧
    latched.thermal.latched = true ∧ latched.thermal.held = false ∧ latched.startWaits = [] ∧
    { up with thermal := { up.thermal with held := true } }.collarUp = true ∧ up.thermal.lastSave + hourNs ≤ hourNs := by
  decide +kernel

/-! ## Witnesses: management and setup registers -/

theorem witness_CollarCommands :
    let one := up.note 0x16 2 3 4 0
    let two := one.note 0x16 2 3 4 0
    let s := { up with mgmt := { up.mgmt with serviceCtrl := 7, gen := 4 } }
    let external := { s with mgmt := { s.mgmt with chain := .external, testMode := true } }
    (one.logSource 2).entries.length = 1 ∧ (one.logSource 2).entries.all (fun e => e.pending.isNone && !e.waits) ∧
    (two.logSource 2).entries.length = 1 ∧ (two.logSource 2).entries.all (fun e => e.pending.isSome && !e.waits) ∧
    (two.logSource 2).lost = [] ∧ (two.logSource 2).queue.length < 16 ∧
    s.yokeUp = true ∧ bit s.mgmt.fprintCtrl 0 = true ∧ s.mgmt.gen ≠ s.mgmt.genDone ∧ s.collarUp = true ∧ s.mgmt.tagLocked = false ∧
    s.mgmt.scanned = false ∧ standby.collarUp = true ∧ standby.yokeUp = false ∧ standby.mgmt.scanned = false ∧
    { standby with mgmt := { standby.mgmt with held := some ⟨[], [], [7], 0⟩ } }.mgmt.held = some ⟨[], [], [7], 0⟩ ∧
    bit s.mgmt.serviceCtrl 2 = true ∧ bit (3#32) 2 = false ∧ s.set.running = false ∧ s.mgmt.debugLocked = false ∧ s.mgmt.testMode = false ∧
    s.mgmt.chain ≠ .external ∧ s.mgmt.chain ≠ .collarBusy ∧ s.chainAccepts .idcode = true ∧ s.chainAccepts .scan = false ∧
    external.chainAccepts .scan = true ∧ external.mgmt.chain = .external ∧ external.chainAccepts (.dramRepair 543 (.row 63 9)) = true ∧
    (external.column 543).spareLeft (.row 63 9) = true ∧ external.chainAccepts (.dramRepair 543 (.columnGroup 7 31)) = true ∧
    external.chainAccepts (.repairLogClear 543 7) = true := by
  decide +kernel

/-- Whether an image verifies rests on two opaque values, the fused key digest and the signature check (log entry 15): where both
hold, this image verifies; on a revoked slot none does. -/
theorem witness_FirmwareAndAttestation (key sig : List Byte) :
    let i : FirmwareImage := ⟨5, 1, 1, 3, sha3 [], key, [], sig⟩
    up.updates = true ∧ i.component = 5 ∧
    (sha3 key = Config.keyDigest 3 → Config.signatureValid (sha3 (Config.firmwareHeader 5 1 1 3 (sha3 []) ++ key)) (sha3 key) sig = true →
      up.verifies i = true) ∧
    { up with mgmt := { up.mgmt with revoked := 0xF } }.verifies i = false := by
  have hc : (up.fw 5).counter = 0 := by decide +kernel
  have hr : up.mgmt.revoked[3] = false := by decide +kernel
  refine ⟨by decide +kernel, rfl, fun hk hs => ?_, by simp [State.verifies]⟩
  simp [State.verifies, hc, hk] at hs ⊢
  exact ⟨hr, hs⟩

theorem witness_FirmwareAndAttestation_requests :
    up.responds .doe = true ∧ up.responds .mctp = true ∧ standby.responds .mctp = true ∧ 1 ∈ up.slotsOf .doe ∧ 0 ∉ standby.slotsOf .mctp ∧
    1 ∈ standby.slotsOf .mctp := by
  decide +kernel

theorem witness_HoldoffsLimitEvents :
    let h : Holdoff := ⟨.coolantRange, 1, 9000, 1, 0⟩
    let s := { up with mgmt := { up.mgmt with holdoffs := [h, { h with source := 2, current := 1 }] } }
    EventName.coolantRange ≠ .thermalShutdown ∧ s.mgmt.holdoffs.any (fun h => h.name == .coolantRange && h.source == 1) ∧
    (∀ h ∈ s.mgmt.holdoffs, ¬(h.name = .coolantRange ∧ h.source = 3)) ∧ 0 < s.holdoffNs ∧
    (s.mgmt.holdoffs.map fun g => (g.name, g.source)).Nodup ∧ h.current ≠ h.sent := by
  decide +kernel

theorem witness_MisalignedSetupAccess :
    up.pathOpen .pcie 0x42 = true ∧ 0x42 % 4 ≠ 0 ∧ msixAccess 0x42 4 = false ∧ up.pathOpen .collar 0x40 = true ∧ (8 : Nat) ≠ 4 := by
  decide +kernel

theorem witness_RegisterWrites :
    let s := hosted []
    let stopped (k : SqState) := { s with host := { s.host with sqs := [(3, { s.sq 3 with state := k })] } }
    s.pathOpen .pcie 0x20 = true ∧ s.pathOpen .pcie (coBase 511 + 0x84) = true ∧ s.pathOpen .pcie (coBase 511 + 0x90) = true ∧
    s.pathOpen .pcie (coBase 511 + 0x160 + 60) = true ∧ (s.entry 511).state ≠ .absent ∧ s.panelAnswers 7 = true ∧
    (field (0x00010000 : Word) 0 16).toNat + (field (0x0001BFFF : Word) 16 16).toNat ≤ 49152 ∧
    s.pathOpen .pcie 0x330 = true ∧ s.pathOpen .pcie 0x520 = true ∧ (field (0x3FF : Word) 0 9).toNat = 511 ∧ bit (0x3FF : Word) 9 = true ∧
    s.physState (s.physOf 511) = .active ∧ s.pathOpen .pcie 0x0900000C = true ∧
    s.pathOpen .pcie (0x1008 + 0x20 * 63) = true ∧ s.pathOpen .pcie (0x1018 + 0x20 * 63) = true ∧
    log2Fits 6 (0x80050006 : Word) = true ∧ log2Fits 6 (0x80050010 : Word) = true ∧ (s.sq 63).acts = false ∧ (s.cq 5).enable = true ∧
    (field (0xC0050006 : Word) 16 6 : BitVec 6) = ((stopped .stopped).sq 3).cq ∧ (field (0xC0050006 : Word) 0 5 : BitVec 5) = (s.sq 3).log2 ∧
    (s.sq 3).enable = true ∧ ((stopped .error).sq 3).state = .error ∧ (s.cq 63).enable = false ∧ (s.cq 63).held = [] ∧
    s.pathOpen .pcie 0x508 = true ∧ log2Fits 10 (0x8000100A : Word) = true ∧ bit s.log.ctrl 31 = false ∧ s.pathOpen .pcie 0x510 = true ∧
    s.pathOpen .pcie 0x100 = true ∧ s.collarUp = true ∧ s.regPowered 0x01000004 = true ∧
    { s with power := { s.power with stage := false } }.regPowered 0x01000004 = false := by
  decide +kernel

/-- A core of a running set that goes dark while its crossover core is inactive: the set replays. -/
theorem witness_RegisterWrites_replay :
    let s := { withRing (ringKey 2 3) (ringOf [⟨.owner, 511, 2⟩, ⟨.host, 0, 4⟩]) with
      set := { ActiveSet.none with running := true, cores := [3, 511], replayable := true } }
    let x := crossoverOf (s.physOf 511)
    s.logicalOf (s.physOf 511) = some 511 ∧ s.physOf 511 ≠ x ∧ s.physState x = .inactive ∧ s.canReplay = true ∧
    (s.rings.any fun e => e.2.use != .opened) = true := by
  decide +kernel

theorem witness_RegisterReads :
    let s := { up with mgmt := { up.mgmt with digest := List.replicate 64 7 } }
    s.mgmt.scanned = false ∧ s.pathOpen .pcie 0x20 = true ∧ (regAt 0x20).any (fun r => s.regAnswers r) ∧ s.pathOpen .collar 0x40 = true ∧
    s.pathOpen .collar 0x44 = true ∧ (s.entry 511).state ≠ .absent ∧ s.panelAnswers 7 = true ∧
    s.pathOpen .pcie (coBase 511 + 0x44) = true ∧ s.pathOpen .pcie (coBase 511 + 0x1C4) = true ∧ s.pathOpen .pcie 0x600 = true ∧
    s.mgmt.digest.length = 64 ∧ s.collarUp = true ∧ s.regPowered 0x20 = true ∧
    { s with power := { s.power with stage := false } }.regPowered 0x20 = false := by
  decide +kernel

/-- Reset meets the premises of the step invariant and of the idle step. -/
theorem witness_StepKeepsMemoryCanonical : State.reset.memoryWf = true ∧ State.reset.pending = [] ∧ wordRow (.nop 511) = some (511, .c .nop) := by
  decide +kernel

/-- A legal word of one ADD meets the premises of the frame of roster words: its row is executed, no ATT_OUT waits or stands in it, and
it stores nothing. -/
theorem witness_WordFrame :
    let s := withCore (core (word (cw 0x11 31 1 (2 * 2048)) 0 0 0) [(1, 5), (2, 7)] [])
    let w : Slots := ⟨.alu .add 31 1 2, .nop, .nop, .nop⟩
    wordRow (.add 0 31 1 2) = some (0, .c (.alu .add 31 1 2)) ∧
      (match exec (.add 0 31 1 2) s with | .next t => t.sreg 0 31 == 12 | _ => false) = true ∧
      (s.core 0).att.queue = [] ∧ legalWord (s.localOf 0) = some w ∧ s.storesAt 0 w 0 = false := by
  decide +kernel

/-! ## Ill-formed commands, one for each check of WellFormed -/

theorem test_illFormed_rings :
    Instr.wf (.ownerRequest 2 512 0 false) = false ∧ Instr.wf (.ownerRequest 2 0 0x208 false) = false ∧ Instr.wf (.ownerRequest 2 0 0x22C false) = false ∧
    Instr.wf (.hostOpening 8 0) = false ∧ Instr.wf (.refreshOpening 1 0) = false ∧ Instr.wf (.scrubOpening 4 0) = false ∧
    Instr.wf (.logOpening 2 0) = false ∧ Instr.wf (.ringBoundary 3 30) = false ∧ Instr.wf (.turnStall 5 240) = false ∧
    Instr.wf (.ownerRequest 5 239 0x22B true) = true ∧ Instr.wf (.refreshOpening 2 511) = true := by
  decide

theorem test_illFormed_links :
    Instr.wf (.cuffLinkFlit 0 ⟨none, [1]⟩ 0) = false ∧ ([Instr.data, .idle, .ack, .nak, .timeSync, .train].all fun mk =>
      !Instr.wf (mk ⟨0, true, 0, 0, 0, 0, [1], 0, []⟩)) = true ∧ Instr.wf (.bar4Read 0 0) = false ∧ Instr.wf (.bar4Read (2 ^ 36) 4) = false ∧
    Instr.wf (.bar4Write 0 [] false ⟨[], 0, [], false⟩) = false ∧ Instr.wf (.sqTail 0 4 0 4) = false ∧
    Instr.wf (.sqTail 0 0 0 3) = false ∧ Instr.wf (.cqHead 0 0 16) = false ∧
    Instr.wf (.descriptorFetch 0 ⟨List.replicate 65 0, false⟩) = false ∧ Instr.wf (.sqTail 63 0 0 4) = true := by
  decide

theorem test_illFormed_module :
    Instr.wf (.powerStageEnable ⟨some 2, 0, 1, List.replicate 8 1, [], [], [], [], [], [], []⟩) = false ∧
    Instr.wf (.powerStageEnable ⟨none, 0, 1, [1], [], [], [], [], [], [], []⟩) = false ∧ Instr.wf (.bumpCheck [⟨2496, 0, []⟩]) = false ∧
    Instr.wf (.recalibrate 1 [⟨2496, 0, []⟩]) = false ∧ Instr.wf (.sensorSample 36 none) = false ∧
    Instr.wf (.thermalCapCompute [1] 0) = false ∧ Instr.wf (.tagWriteCommand 4095 [1, 2]) = false ∧ Instr.wf (.tagWriteCommand 0 []) = false ∧
    Instr.wf (.pldmFirmwareUpdate ⟨6, 0, 0, 0, [], [], [], []⟩) = false ∧ Instr.wf (.challenge .doe 0 []) = false ∧
    Instr.wf (.getMeasurements .doe 0 1 []) = false ∧ Instr.wf (.setupRegisterRead .pcie 0 5) = false ∧
    Instr.wf (.setupRegisterWrite .pcie 0 0 0 ⟨[], 0, [], false⟩) = false ∧ Instr.wf (.tagWriteCommand 4094 [1, 2]) = true := by
  decide

/-! ## Words of the spec (Table 04-20), and one word of each further slot form written out from Tables 04-6 to 04-15 -/

theorem test_words_of_table_04_20 :
    decodeWord 0x00000000000000000000000080200000 = some ⟨.alui .addi 1 0 0, .nop, .nop, .nop⟩ ∧
    decodeWord 0x0000000000000000000000009C210015 = some ⟨.lih 1 1 0x15, .nop, .nop, .nop⟩ ∧
    decodeWord 0x0000000000000000000000009C420093 = some ⟨.lih 2 2 0x93, .nop, .nop, .nop⟩ ∧
    decodeWord 0x000000000000000000000000B0011006 = some ⟨.patLoad 1 0x10 6, .nop, .nop, .nop⟩ ∧
    decodeWord 0x00000000000000000510111004000000 = some ⟨.nop, .moveIn false true 2 0x11 0x10, .nop, .nop⟩ ∧
    decodeWord 0x0000000000000000000000002005C005 = some ⟨.loop 23 5, .nop, .nop, .nop⟩ ∧
    decodeWord 0x0000000006130000000000001C000001 = some ⟨.wait .move 1, .nop, .wload true 0x13 false, .nop⟩ ∧
    decodeWord 0x00000000081516010000000004000000 = some ⟨.nop, .nop, .pass false 0x15 0x16 true, .nop⟩ ∧
    decodeWord 0x000000000A1516010000000004000000 = some ⟨.nop, .nop, .pass true 0x15 0x16 true, .nop⟩ ∧
    decodeWord 0x0000000000000000051011101C400000 = some ⟨.wait .array 0, .moveIn false true 2 0x11 0x10, .nop, .nop⟩ := by
  decide +kernel

theorem test_words_of_further_forms :
    decodeWord (word (cw 0x0B 1 2 0xFFFF) 0 0 0) = some ⟨.branch .eq 1 2 0xFFFF, .nop, .nop, .nop⟩ ∧
    decodeWord (word cNop (mw 0x06 0 3 7 0) 0 0) = some ⟨.nop, .turnEnd 3 7, .nop, .nop⟩ ∧
    decodeWord (word cNop 0 (aw 0x03 0 0 0 0 + 63 * 2 ^ 14 + 16383) 0) = some ⟨.nop, .nop, .gcfg 63 16383, .nop⟩ ∧
    decodeWord (word cNop 0 (aw 0x09 1 7 0xFF 0) 0) = some ⟨.nop, .nop, .attQ true 7 0xFF, .nop⟩ ∧
    decodeWord (word cNop 0 0 (vw 0x06 31 1 2 3 1 0)) = some ⟨.nop, .nop, .nop, .vfma true false 31 1 2 3⟩ ∧
    decodeWord 0 = none := by
  decide +kernel

/-! ## Single steps and worked examples of the spec -/

/-- Scalar register 4 after a word with one C-slot operation; s1 = −13, s2 = 70, s3 = 40 (Table 04-9). -/
def s4After (c : Nat) (i : Instr) : DWord :=
  ((exec' i (withCore (core (word c 0 0 0) [(1, 0xFFFFFFFFFFFFFFF3), (2, 70), (3, 40)] []))).sreg 0 4)

theorem test_scalar :
    s4After (cw 0x11 4 1 (2 * 2048)) (.add 0 4 1 2) = 57 ∧ s4After (cw 0x12 4 3 (2 * 2048)) (.sub 0 4 3 2) = 0xFFFFFFFFFFFFFFE2 ∧
    s4After (cw 0x16 4 3 (2 * 2048)) (.shl 0 4 3 2) = 40 * 64 ∧ s4After (cw 0x18 4 1 (2 * 2048)) (.sra 0 4 1 2) = 0xFFFFFFFFFFFFFFFF ∧
    s4After (cw 0x17 4 1 (2 * 2048)) (.shr 0 4 1 2) = 0x03FFFFFFFFFFFFFF ∧ s4After (cw 0x1A 4 1 (2 * 2048)) (.mulhu 0 4 1 2) = 69 ∧
    s4After (cw 0x1B 4 1 (2 * 2048)) (.slt 0 4 1 2) = 1 ∧ s4After (cw 0x1C 4 1 (2 * 2048)) (.sltu 0 4 1 2) = 0 ∧
    s4After (cw 0x20 4 2 0x8000) (.addi 0 4 2 0x8000) = 0xFFFFFFFFFFFF8046 ∧ s4After (cw 0x22 4 2 0x8000) (.ori 0 4 2 0x8000) = 0x8046 ∧
    s4After (cw 0x27 4 1 0x15) (.lih 0 4 1 0x15) = 0x150000 ∧ s4After (cw 0x2D 4 0 0) (.rdctr 0 4 0) = 1000 := by
  decide +kernel

/-- The word after a control transfer at word 5 (Table 04-9). -/
def nextAfter (c : Nat) (i : Instr) : BitVec 28 :=
  let k := core (word c 0 0 0) [(1, 0xFFFFFFFFFFFFFFF3), (2, 70)] []
  ((exec' i (withCore { k with seq := { k.seq with priv := true } })).core 0).seq.position

theorem test_control :
    nextAfter cNop (.nop 0) = 6 ∧ nextAfter (cw 0xA 0 0 9) (.jmp 0 9) = 14 ∧ nextAfter (cw 0xD 1 2 9) (.blt 0 1 2 9) = 14 ∧
    nextAfter (cw 0xF 1 2 9) (.bltu 0 1 2 9) = 6 ∧ nextAfter (cw 9 0 0 3) (.loopr 0 0 3) = 10 ∧ nextAfter (cw 8 0 0 3) (.loop 0 0 3) = 6 := by
  decide +kernel

/-- STW stores the low word, low byte first. -/
theorem test_stw :
    memRead (exec' (.stw 0 1 3 2) (withCore (core (word (cw 0x2A 1 3 2) 0 0 0) [(1, 0x1122334455667788), (3, 40)] []))).mem
      (scratchAddr 0 168) 8 = [0x88, 0x77, 0x66, 0x55, 0, 0, 0, 0] := by
  decide +kernel

/-- The MXFP4 store of the worked example of Number formats. -/
theorem test_mxfp4_store :
    let lanes : List Word := [0x41500000, 0xBF333333, 0x40266666, 0x40A00000, 0x3E800000] ++ List.replicate 27 0
    (formatOf 0x14).map (fun f => (encodeRun f lanes).bytes) = some ([0x97, 0x43] ++ List.replicate 14 0 ++ [0x80]) := by
  decide +kernel

/-- Addresses of the worked examples: a granule of the capacity tier at full health and after a map-out, and core 197's window. -/
theorem test_addresses :
    capInstance CapTier.reset.list 0x02000C345A40 = 185 ∧
    capInstance (CapTier.reset.list.eraseIdx 69) 0x02000C345A40 = 20 * 7 + 11 ∧
    scratchAddr 197 0 = 0x040062800000 ∧ 197 * pocketSlotBytes = 0x0093C0000000 := by
  decide +kernel

/-- Lanes of the vector unit: 1 + 2 = 3, rounding to nearest even, NaN canonical (R138, R114). -/
theorem test_vector_lanes :
    vecLane2 .add false 0x3F800000 0x40000000 = 0x40400000 ∧ vecLane2 .add false 0x4B800000 0x3F800000 = 0x4B800000 ∧
    vecLane2 .mul false 0x7F800000 0 = 0x7FC00000 ∧ vecLaneFma false 0x3F800001 0x3F800001 0xBF800002 = 0x28800000 := by
  decide +kernel

/-- The gate closes below 500 mV and opens at 520 mV (R326). -/
theorem test_undervoltage :
    let gate (closed : Bool) (mv : BitVec 10) : Bool :=
      ((exec' (.undervoltageGate 0 mv) (withCore { idleCore with supply := { idleCore.supply with gateClosed := closed } })).core 0).supply.gateClosed
    gate false 499 = true ∧ gate false 500 = false ∧ gate true 519 = true ∧ gate true 520 = false := by
  decide +kernel

/-- SHA3-512 of the empty message (FIPS 202), and CRC-16 with polynomial 0x8BB7 from 0xFFFF (Table 13-2) of "123456789", worked out apart from the model. -/
theorem test_digests :
    (sha3 []).take 8 = [0xa6, 0x9f, 0x73, 0xcc, 0xa2, 0x3a, 0x9a, 0xc5] ∧
    crc16 [0x31, 0x32, 0x33, 0x34, 0x35, 0x36, 0x37, 0x38, 0x39] = 0x8E3C := by
  decide +kernel

end Sys2Proof.Tests
end

section
/-!
PROOF. Setup accesses that R5 turns away: the laws of an access over an open path, of a misaligned or wrong-width one, and the
statement that they are recorded and otherwise without effect.
-/

namespace Sys2Proof.Machine

/-! ### The commands and their path -/

theorem exec_setupRegisterRead (path : Path) (off : BitVec 28) (width : Nat) (s : State) :
    exec (.setupRegisterRead path off width) s = .next (s.setupRead path off.toNat width) := rfl

theorem exec_setupRegisterWrite (path : Path) (off : BitVec 28) (width : Nat) (value : DWord) (env : WriteEnv) (s : State) :
    exec (.setupRegisterWrite path off width value env) s = .next (s.setupWrite path off.toNat width value env) := rfl

/-- Over an open path, a read that R298 does not except is answered by setup space. -/
theorem State.setupRead_of_open {s : State} {p : Path} {o width : Nat} (hopen : s.pathOpen p o = true)
    (hmsix : ¬(p = .pcie ∧ msixAccess o width = true)) :
    s.setupRead p o width = (s.readSetup p o width).1.answer (.setup o (s.readSetup p o width).2) := by
  simp [State.setupRead, hopen, hmsix]

/-- Over an open path, a write that R298 does not except goes to setup space. -/
theorem State.setupWrite_of_open {s : State} {p : Path} {o width : Nat} (v : DWord) (e : WriteEnv)
    (hopen : s.pathOpen p o = true) (hmsix : ¬(p = .pcie ∧ msixAccess o width = true)) :
    s.setupWrite p o width v e = s.writeSetup o width v e := by
  simp [State.setupWrite, hopen, hmsix]

/-! ### Accesses that R5 turns away -/

/-- The SETUP_ACCESS record of Table 17-7: from the Yoke, no location, the offset and the width. -/
theorem State.setupError_eq_file (s : State) (o width : Nat) :
    s.setupError o width = s.file (mkReport 0x01 grpYoke 0xFFF o width) := rfl

theorem State.readSetup_of_misaligned (s : State) (p : Path) {o width : Nat} (h : width ≠ 4 ∨ o % 4 ≠ 0) :
    s.readSetup p o width = (s.setupError o width, List.replicate width 0xFF) :=
  if_pos h

theorem State.writeSetup_of_misaligned (s : State) {o width : Nat} (v : DWord) (e : WriteEnv) (h : width ≠ 4 ∨ o % 4 ≠ 0) :
    s.writeSetup o width v e = s.setupError o width :=
  if_pos h

@[simp] theorem State.file_out (s : State) (r : Report) : (s.file r).out = s.out := by
  rw [State.file_only]

end Sys2Proof.Machine

namespace Sys2Proof.Proofs

open Sys2Proof Sys2Proof.Machine

/-- Settles O57: R5's check stands before the register is looked up, so nothing but the record and the answer is left. -/
theorem misalignedSetupAccess : Obligations.MisalignedSetupAccess := by
  unfold Obligations.MisalignedSetupAccess
  intro path off width value env s hopen hbad hmsix
  constructor
  · rw [exec_setupRegisterRead, State.setupRead_of_open hopen hmsix, State.readSetup_of_misaligned s path hbad,
      State.setupError_eq_file]
    exact ⟨_, rfl, rfl, by simp⟩
  · rw [exec_setupRegisterWrite, State.setupWrite_of_open value env hopen hmsix, State.writeSetup_of_misaligned s value env hbad,
      State.setupError_eq_file]

end Sys2Proof.Proofs
end

section
/-!
PROOF. Events and their holdoffs (R374): what an event does while a holdoff of its name and source runs, and where none does; what the end
of a holdoff does where no two holdoffs share name and source; and the statement that holdoffs limit events, but never THERMAL_SHUTDOWN.
-/

namespace Sys2Proof.Machine

/-! ### An event sent, and one held -/

/-- No holdoff bears on THERMAL_SHUTDOWN, and it begins none. -/
theorem State.event_thermalShutdown (s : State) (source state : Nat) :
    s.event .thermalShutdown source state =
      { s with out := { s.out with events := ⟨.thermalShutdown, source, state⟩ :: s.out.events } } :=
  rfl

/-- While a holdoff of its name and source runs, an event is noted there and nothing else changes. -/
theorem State.event_of_held {s : State} {name : EventName} {source : Nat} (state : Nat) (hname : name ≠ .thermalShutdown)
    (held : ∃ h ∈ s.mgmt.holdoffs, h.name = name ∧ h.source = source) :
    s.event name source state =
      { s with
        mgmt := { s.mgmt with
          holdoffs := s.mgmt.holdoffs.map fun h => if h.name = name ∧ h.source = source then { h with current := state } else h } } := by
  have hany : (s.mgmt.holdoffs.any fun h => h.name == name && h.source == source) = true := by simpa using held
  simp only [State.event, if_neg hname, if_pos hany]

/-- Where no holdoff of its name and source runs, an event is sent, and begins one unless the holdoff in effect is zero. -/
theorem State.event_of_unheld {s : State} {name : EventName} {source : Nat} (state : Nat) (hname : name ≠ .thermalShutdown)
    (unheld : ∀ h ∈ s.mgmt.holdoffs, ¬(h.name = name ∧ h.source = source)) :
    s.event name source state =
      { s with
        mgmt := { s.mgmt with holdoffs :=
          if s.holdoffNs = 0 then s.mgmt.holdoffs
          else s.mgmt.holdoffs ++ [⟨name, source, s.now + s.holdoffNs, state, state⟩] },
        out := { s.out with events := ⟨name, source, state⟩ :: s.out.events } } := by
  have hany : ¬(s.mgmt.holdoffs.any fun h => h.name == name && h.source == source) = true := by simpa using unheld
  by_cases hns : s.holdoffNs = 0 <;> simp only [State.event, if_neg hname, if_neg hany, hns, if_true, if_false]

/-- Where no holdoff of its name and source runs, every event is sent. -/
theorem State.event_events_of_unheld {s : State} {name : EventName} {source : Nat} (state : Nat)
    (unheld : ∀ h ∈ s.mgmt.holdoffs, ¬(h.name = name ∧ h.source = source)) :
    (s.event name source state).out.events = ⟨name, source, state⟩ :: s.out.events := by
  by_cases hname : name = .thermalShutdown
  · subst hname
    rw [State.event_thermalShutdown]
  · rw [State.event_of_unheld state hname unheld]

@[simp] theorem State.event_now (s : State) (name : EventName) (source state : Nat) : (s.event name source state).now = s.now := by
  rw [State.event_only]

/-! ### Holdoffs told apart by name and source -/

/-- Where no two holdoffs share name and source, a search by them finds the one holdoff that has them. -/
theorem find?_holdoff_of_mem {hs : List Holdoff} {h : Holdoff} (mem : h ∈ hs) (nodup : (hs.map fun g => (g.name, g.source)).Nodup) :
    (hs.find? fun g => g.name == h.name && g.source == h.source) = some h := by
  cases found : hs.find? fun g => g.name == h.name && g.source == h.source with
  | none => simpa using List.find?_eq_none.mp found h mem
  | some g =>
    have same : (g.name, g.source) = (h.name, h.source) := by simpa using List.find?_some found
    rw [List.inj_on_of_nodup_map nodup (List.mem_of_find?_eq_some found) mem same]

/-- Where no two holdoffs share name and source, none of an ended holdoff's name and source is left. -/
theorem not_same_of_mem_erase_holdoff {hs : List Holdoff} {h : Holdoff} (mem : h ∈ hs)
    (nodup : (hs.map fun g => (g.name, g.source)).Nodup) : ∀ g ∈ hs.erase h, ¬(g.name = h.name ∧ g.source = h.source) := by
  rintro g hg ⟨hname, hsource⟩
  obtain ⟨hne, hmem⟩ := (List.Nodup.of_map _ nodup).mem_erase_iff.mp hg
  exact hne (List.inj_on_of_nodup_map nodup hmem mem (Prod.ext hname hsource))

/-! ### The end of a holdoff -/

/-- A holdoff is over: time has reached its end, and it is held no more. -/
def State.expireHoldoff (s : State) (h : Holdoff) : State :=
  { s.reach h.until_ with mgmt := { s.mgmt with holdoffs := s.mgmt.holdoffs.erase h } }

@[simp] theorem State.expireHoldoff_now (s : State) (h : Holdoff) : (s.expireHoldoff h).now = max s.now h.until_ := rfl
@[simp] theorem State.expireHoldoff_out (s : State) (h : Holdoff) : (s.expireHoldoff h).out = s.out := rfl
@[simp] theorem State.expireHoldoff_holdoffs (s : State) (h : Holdoff) :
    (s.expireHoldoff h).mgmt.holdoffs = s.mgmt.holdoffs.erase h := rfl

/-- The end of a holdoff in progress: it is over, and an event goes out where the state is not the one last sent. -/
theorem State.holdoffEnd_of_mem {s : State} {h : Holdoff} (mem : h ∈ s.mgmt.holdoffs)
    (nodup : (s.mgmt.holdoffs.map fun g => (g.name, g.source)).Nodup) :
    s.holdoffEnd h.name h.source =
      if h.current = h.sent then s.expireHoldoff h else (s.expireHoldoff h).event h.name h.source h.current := by
  rw [State.holdoffEnd, find?_holdoff_of_mem mem nodup]
  rfl

theorem exec_eventHoldoffEnd (name : EventName) (source : Nat) (s : State) :
    exec (.eventHoldoffEnd name source) s = .next (s.holdoffEnd name source) := rfl

end Sys2Proof.Machine

namespace Sys2Proof.Proofs

open Sys2Proof Sys2Proof.Machine

/-- Settles O56: the holdoff that ends is taken off before its event is given, so nothing holds that event back. -/
theorem holdoffsLimitEvents : Obligations.HoldoffsLimitEvents := by
  unfold Obligations.HoldoffsLimitEvents
  intro name source state s
  refine ⟨fun hname held => ?_, fun hname unheld => ?_, ?_, ?_⟩
  · rw [State.event_of_held state hname held]
    exact ⟨rfl, rfl⟩
  · refine ⟨State.event_events_of_unheld state unheld, fun hns => ?_⟩
    simp [State.event_of_unheld state hname unheld, hns.ne']
  · rw [State.event_thermalShutdown]
  · rintro h mem rfl rfl nodup
    have gone : ∀ g ∈ (s.expireHoldoff h).mgmt.holdoffs, ¬(g.name = h.name ∧ g.source = h.source) :=
      not_same_of_mem_erase_holdoff mem nodup
    refine ⟨_, exec_eventHoldoffEnd h.name h.source s, ?_⟩
    rw [State.holdoffEnd_of_mem mem nodup]
    by_cases same : h.current = h.sent
    · simp [same]
    · simp [same, State.event_events_of_unheld h.current gone]

end Sys2Proof.Proofs
end

section
/-!
PROOF. What every command keeps: the queue of commands and the canonical form of the three byte memories, one citation per command of
what its meaning keeps; then the statements about one step.
-/

namespace Sys2Proof.Machine

/-- Every command answers a next state. -/
theorem exec_next (i : Instr) (s : State) : ∃ t, exec i s = .next t := by
  cases i <;> exact ⟨_, rfl⟩

/-- Every command keeps the queue and the canonical memories: its own meaning does. -/
theorem exec_keeps {i : Instr} {s t : State} (h : exec i s = .next t) : StateKeeps s t := by
  cases i with
  | nop n => exact execNop_keeps _ h
  | endRoster n => exact execEndRoster_keeps _ h
  | lapMark n => exact execLapMark_keeps _ h
  | privateBegin n => exact execPrivateBegin_keeps _ h
  | privateEnd n => exact execPrivateEnd_keeps _ h
  | stepMark n => exact execStepMark_keeps _ h
  | wait n u count => exact execWait_keeps _ _ _ h
  | loop n count body => exact execLoop_keeps _ _ _ h
  | loopr n sa body => exact execLoopr_keeps _ _ _ h
  | jmp n off => exact execJmp_keeps _ _ h
  | beq n sa sb off => exact execBeq_keeps _ _ _ _ h
  | bne n sa sb off => exact execBne_keeps _ _ _ _ h
  | blt n sa sb off => exact execBlt_keeps _ _ _ _ h
  | bge n sa sb off => exact execBge_keeps _ _ _ _ h
  | bltu n sa sb off => exact execBltu_keeps _ _ _ _ h
  | bgeu n sa sb off => exact execBgeu_keeps _ _ _ _ h
  | add n sd sa sb => exact execAdd_keeps _ _ _ _ h
  | sub n sd sa sb => exact execSub_keeps _ _ _ _ h
  | and n sd sa sb => exact execAnd_keeps _ _ _ _ h
  | or n sd sa sb => exact execOr_keeps _ _ _ _ h
  | xor n sd sa sb => exact execXor_keeps _ _ _ _ h
  | shl n sd sa sb => exact execShl_keeps _ _ _ _ h
  | shr n sd sa sb => exact execShr_keeps _ _ _ _ h
  | sra n sd sa sb => exact execSra_keeps _ _ _ _ h
  | mul n sd sa sb => exact execMul_keeps _ _ _ _ h
  | mulhu n sd sa sb => exact execMulhu_keeps _ _ _ _ h
  | slt n sd sa sb => exact execSlt_keeps _ _ _ _ h
  | sltu n sd sa sb => exact execSltu_keeps _ _ _ _ h
  | addi n sd sa imm => exact execAddi_keeps _ _ _ _ h
  | andi n sd sa imm => exact execAndi_keeps _ _ _ _ h
  | ori n sd sa imm => exact execOri_keeps _ _ _ _ h
  | xori n sd sa imm => exact execXori_keeps _ _ _ _ h
  | shli n sd sa imm => exact execShli_keeps _ _ _ _ h
  | shri n sd sa imm => exact execShri_keeps _ _ _ _ h
  | srai n sd sa imm => exact execSrai_keeps _ _ _ _ h
  | lih n sd q imm => exact execLih_keeps _ _ _ _ h
  | ldw n sd sa imm => exact execLdw_keeps _ _ _ _ h
  | ldd n sd sa imm => exact execLdd_keeps _ _ _ _ h
  | stw n sd sa imm => exact execStw_keeps _ _ _ _ h
  | std n sd sa imm => exact execStd_keeps _ _ _ _ h
  | patLoad n sa first number => exact execPatLoad_keeps _ _ _ _ h
  | rdctr n sd counter => exact execRdctr_keeps _ _ _ h
  | moveIn n tl sy sa patS patF => exact execMoveIn_keeps _ _ _ _ _ _ h
  | moveOut n tl sy sa patS patF => exact execMoveOut_keeps _ _ _ _ _ _ h
  | moveRemote n tl sy sa patS win => exact execMoveRemote_keeps _ _ _ _ _ _ h
  | creditTake n tl sy sa win => exact execCreditTake_keeps _ _ _ _ _ h
  | creditGive n tl sy sa win => exact execCreditGive_keeps _ _ _ _ _ h
  | turnEnd n sa cls => exact execTurnEnd_keeps _ _ _ h
  | fetchRoster n tl sy sa block => exact execFetchRoster_keeps _ _ _ _ _ h
  | atomicAdd n tl sy sa patS patF => exact execAtomicAdd_keeps _ _ _ _ _ _ h
  | nearOp n tl sy sa patS => exact execNearOp_keeps _ _ _ _ _ h
  | bankOff n tl sy sa => exact execBankOff_keeps _ _ _ _ h
  | regionOn n sy mask => exact execRegionOn_keeps _ _ _ h
  | regionOff n sy mask => exact execRegionOff_keeps _ _ _ h
  | arrWload n sy x packed => exact execArrWload_keeps _ _ _ _ h
  | arrPass n sy x y acc => exact execArrPass_keeps _ _ _ _ _ h
  | arrGcfg n threshold timeout => exact execArrGcfg_keeps _ _ _ h
  | arrGather n sy x y => exact execArrGather_keeps _ _ _ _ h
  | attMode n sy x => exact execAttMode_keeps _ _ _ h
  | attQ n sy x y => exact execAttQ_keeps _ _ _ _ h
  | attKv n sy x y => exact execAttKv_keeps _ _ _ _ h
  | attWalk n sy x => exact execAttWalk_keeps _ _ _ h
  | attOut n sy x y => exact execAttOut_keeps _ _ _ _ h
  | vld n sy bf vd pat => exact execVld_keeps _ _ _ _ _ h
  | vst n sy bf va pat => exact execVst_keeps _ _ _ _ _ h
  | vadd n sy bf vd va vb => exact execVadd_keeps _ _ _ _ _ _ h
  | vsub n sy bf vd va vb => exact execVsub_keeps _ _ _ _ _ _ h
  | vmul n sy bf vd va vb => exact execVmul_keeps _ _ _ _ _ _ h
  | vfma n sy bf vd va vb vc => exact execVfma_keeps _ _ _ _ _ _ _ h
  | vmax n sy bf vd va vb => exact execVmax_keeps _ _ _ _ _ _ h
  | vmin n sy bf vd va vb => exact execVmin_keeps _ _ _ _ _ _ h
  | vsf n sy bf vd va fn => exact execVsf_keeps _ _ _ _ _ _ h
  | vtbl n sy bf vd va fn => exact execVtbl_keeps _ _ _ _ _ _ h
  | vred n sy bf vd va fn => exact execVred_keeps _ _ _ _ _ _ h
  | vcvt n sy bf vd va fn => exact execVcvt_keeps _ _ _ _ _ _ h
  | vcmp n sy bf vd va vb fn => exact execVcmp_keeps _ _ _ _ _ _ _ h
  | vsel n sy bf vd va vb vc => exact execVsel_keeps _ _ _ _ _ _ _ h
  | vsplat n sy bf vd sa fn => exact execVsplat_keeps _ _ _ _ _ _ h
  | vtload n sy bf pat => exact execVtload_keeps _ _ _ _ h
  | vectorDispatch n => exact execVectorDispatch_keeps _ h
  | arrayFrontStart n => exact execArrayFrontStart_keeps _ h
  | arrayPassStart n => exact execArrayPassStart_keeps _ h
  | arrayPassEnd n => exact execArrayPassEnd_keeps _ h
  | gatherTimeout n => exact execGatherTimeout_keeps _ h
  | attScoreStage n => exact execAttScoreStage_keeps _ h
  | attValueStage n => exact execAttValueStage_keeps _ h
  | walkScoreCommand n k => exact execWalkScoreCommand_keeps _ _ h
  | walkMerge n => exact execWalkMerge_keeps _ h
  | walkRetire n => exact execWalkRetire_keeps _ h
  | stepReexecution n => exact execStepReexecution_keeps _ h
  | bankRetire n selfTest => exact execBankRetire_keeps _ _ h
  | take target taker window upset => exact execTake_keeps _ _ _ _ h
  | grant target taker window upset => exact execGrant_keeps _ _ _ _ h
  | refuse target taker window upset => exact execRefuse_keeps _ _ _ _ h
  | give target giver window upset => exact execGive_keeps _ _ _ _ h
  | write target sender window upset => exact execWrite_keeps _ _ _ _ h
  | ownerRequest cls inst owner walk => exact execOwnerRequest_keeps _ _ _ _ h
  | hostOpening cls inst => exact execHostOpening_keeps _ _ h
  | refreshOpening cls inst => exact execRefreshOpening_keeps _ _ h
  | switchOnOpening n => exact execSwitchOnOpening_keeps _ h
  | regionRampEnd n => exact execRegionRampEnd_keeps _ h
  | scrubOpening cls inst => exact execScrubOpening_keeps _ _ h
  | logOpening cls inst => exact execLogOpening_keeps _ _ h
  | ringBoundary cls inst => exact execRingBoundary_keeps _ _ h
  | turnStall cls inst => exact execTurnStall_keeps _ _ h
  | pocketRefreshDue due => exact execPocketRefreshDue_keeps _ h
  | cuffRefreshDue k due => exact execCuffRefreshDue_keeps _ _ h
  | scrubPassEnd wrote => exact execScrubPassEnd_keeps _ h
  | packageTempRead k pkg reading => exact execPackageTempRead_keeps _ _ _ h
  | cuffLinkFlit k flit crc => exact execCuffLinkFlit_keeps _ _ _ h
  | linkLaneTest k low high => exact execLinkLaneTest_keeps _ _ _ h
  | retrainTrigger k slot drift => exact execRetrainTrigger_keeps _ _ _ h
  | retrainStart k passes => exact execRetrainStart_keeps _ _ h
  | channelDead k slot => exact execChannelDead_keeps _ _ h
  | nearOpCommand k => exact execNearOpCommand_keeps _ h
  | cuffBusTransfer k resends => exact execCuffBusTransfer_keeps _ _ h
  | data flit => exact execData_keeps _ h
  | idle flit => exact execIdle_keeps _ h
  | ack flit => exact execAck_keeps _ h
  | nak flit => exact execNak_keeps _ h
  | timeSync flit => exact execTimeSync_keeps _ h
  | train flit => exact execTrain_keeps _ h
  | seamPortRetire port module cause => exact execSeamPortRetire_keeps _ _ _ h
  | strobeLoss port module => exact execStrobeLoss_keeps _ _ h
  | seamPllLoss p => exact execSeamPllLoss_keeps _ h
  | panelRejoin p port0 port1 level failed => exact execPanelRejoin_keeps _ _ _ _ _ h
  | fenceMarker p => exact execFenceMarker_keeps _ h
  | refLoss => exact execRefLoss_keeps h
  | beatRateWindow n beats => exact execBeatRateWindow_keeps _ _ h
  | bar4Read off len => exact execBar4Read_keeps _ _ h
  | bar4Write off bytes poisoned env => exact execBar4Write_keeps _ _ _ _ h
  | bar4Timeout => exact execBar4Timeout_keeps h
  | sqTail q off value width => exact execSqTail_keeps _ _ _ _ h
  | cqHead q value width => exact execCqHead_keeps _ _ _ h
  | descriptorFetch q read => exact execDescriptorFetch_keeps _ _ h
  | descriptorStart q index => exact execDescriptorStart_keeps _ _ h
  | copy q index read wrote => exact execCopy_keeps _ _ _ _ h
  | loadRoster q index read => exact execLoadRoster_keeps _ _ _ h
  | launch q index read => exact execLaunch_keeps _ _ _ h
  | fence q index => exact execFence_keeps _ _ h
  | pageReleaseFence q index => exact execPageReleaseFence_keeps _ _ h
  | scrub q index => exact execScrub_keeps _ _ h
  | configFingerprint q index unstable wrote => exact execConfigFingerprint_keeps _ _ _ _ h
  | setPowerCap q index => exact execSetPowerCap_keeps _ _ h
  | fold q index => exact execFold_keeps _ _ h
  | drain q index => exact execDrain_keeps _ _ h
  | halt q index => exact execHalt_keeps _ _ h
  | tagWrite q index read => exact execTagWrite_keeps _ _ _ h
  | capRemap q index => exact execCapRemap_keeps _ _ h
  | nopDescriptor q index => exact execNopDescriptor_keeps _ _ h
  | msixCoalesceTimeout q => exact execMsixCoalesceTimeout_keeps _ h
  | hostReset kind => exact execHostReset_keeps _ h
  | functionLevelReset => exact execFunctionLevelReset_keeps h
  | powerOn source => exact execPowerOn_keeps _ h
  | powerStageEnable report => exact execPowerStageEnable_keeps _ h
  | inputExcursion => exact execInputExcursion_keeps h
  | inputFaultRecovery => exact execInputFaultRecovery_keeps h
  | feedSwitchTrip p => exact execFeedSwitchTrip_keeps _ h
  | undervoltageGate n mv => exact execUndervoltageGate_keeps _ _ h
  | gateTimeout n selfTest => exact execGateTimeout_keeps _ _ h
  | tileFail site selfTest => exact execTileFail_keeps _ _ h
  | capPeriod watts volts => exact execCapPeriod_keeps _ _ h
  | bumpCheck drops => exact execBumpCheck_keeps _ h
  | sensorSample key reading => exact execSensorSample_keeps _ _ h
  | limitExcursion watts => exact execLimitExcursion_keeps _ h
  | thermalCapCompute powers watts => exact execThermalCapCompute_keeps _ _ h
  | flowSample reading => exact execFlowSample_keeps _ h
  | comparatorTrip diode peak collarMs => exact execComparatorTrip_keeps _ _ _ h
  | thermalRestart collarMs => exact execThermalRestart_keeps _ h
  | cycleSample => exact execCycleSample_keeps h
  | coalesceHoldEnd group cls location detail => exact execCoalesceHoldEnd_keeps _ _ _ _ h
  | eventHoldoffEnd name source => exact execEventHoldoffEnd_keeps _ _ h
  | fprintCompute unstable => exact execFprintCompute_keeps _ h
  | regRead off => exact execRegRead_keeps _ h
  | regWrite off value env => exact execRegWrite_keeps _ _ _ h
  | coldReset => exact execColdReset_keeps h
  | panelReset p => exact execPanelReset_keeps _ h
  | panelCycle p => exact execPanelCycle_keeps _ h
  | restart => exact execRestart_keeps h
  | wake => exact execWake_keeps h
  | recalibrate scope drops => exact execRecalibrate_keeps _ _ h
  | tagWriteCommand off bytes => exact execTagWriteCommand_keeps _ _ h
  | tagLock => exact execTagLock_keeps h
  | tagUnlock strap => exact execTagUnlock_keeps _ h
  | fprintRead off unstable => exact execFprintRead_keeps _ _ h
  | chainOp access => exact execChainOp_keeps _ h
  | testMode strap => exact execTestMode_keeps _ h
  | debugLock strap => exact execDebugLock_keeps _ h
  | pldmFirmwareUpdate image => exact execPldmFirmwareUpdate_keeps _ h
  | getVersion t => exact execGetVersion_keeps _ h
  | getCapabilities t => exact execGetCapabilities_keeps _ h
  | negotiateAlgorithms t => exact execNegotiateAlgorithms_keeps _ h
  | getDigests t => exact execGetDigests_keeps _ h
  | getCertificate t slot => exact execGetCertificate_keeps _ _ h
  | challenge t slot nonce => exact execChallenge_keeps _ _ _ h
  | getMeasurements t slot block nonce => exact execGetMeasurements_keeps _ _ _ _ h
  | externalChainTake strap => exact execExternalChainTake_keeps _ h
  | chainAccess access => exact execChainAccess_keeps _ h
  | ykExpertEnable path value => exact execYkExpertEnable_keeps _ _ h
  | coRosterFault path n value => exact execCoRosterFault_keeps _ _ _ h
  | ykDmaStatus path value => exact execYkDmaStatus_keeps _ _ h
  | cfRetrain path k value => exact execCfRetrain_keeps _ _ _ h
  | ykPanelRejoin path value env => exact execYkPanelRejoin_keeps _ _ _ h
  | ykCoreDarken path value env => exact execYkCoreDarken_keeps _ _ _ h
  | pwFold path value => exact execPwFold_keeps _ _ h
  | resetPanel path value => exact execResetPanel_keeps _ _ h
  | cyclePanel path value => exact execCyclePanel_keeps _ _ h
  | coMinVolt path n value => exact execCoMinVolt_keeps _ _ _ h
  | clTagCtrl path value => exact execClTagCtrl_keeps _ _ h
  | sqEnable path q value => exact execSqEnable_keeps _ _ _ h
  | sqResume path q value => exact execSqResume_keeps _ _ _ h
  | cqEnable path q value => exact execCqEnable_keeps _ _ _ h
  | logEnable path value => exact execLogEnable_keeps _ _ h
  | ykLogHead path value => exact execYkLogHead_keeps _ _ h
  | ykBar4Window path value => exact execYkBar4Window_keeps _ _ h
  | ykTimebaseLo path => exact execYkTimebaseLo_keeps _ h
  | coBeatCountLo path n => exact execCoBeatCountLo_keeps _ _ h
  | coMinVoltNsLo path n => exact execCoMinVoltNsLo_keeps _ _ h
  | ykFprint0 path => exact execYkFprint0_keeps _ h
  | coRosterRegion path n value => exact execCoRosterRegion_keeps _ _ _ h
  | coCreditWin path n w value => exact execCoCreditWin_keeps _ _ _ _ h
  | setupRegisterWrite path off width value env => exact execSetupRegisterWrite_keeps _ _ _ _ _ h
  | illegalWord word => exact execIllegalWord_keeps _ h
  | setupRegisterRead path off width => exact execSetupRegisterRead_keeps _ _ _ h
  | perstDeassertion => exact execPerstDeassertion_keeps h
  | pcieLinkTraining lanes16 lanes8 lanes4 rate => exact execPcieLinkTraining_keeps _ _ _ _ h
  | configurationRequest off write => exact execConfigurationRequest_keeps _ _ h
  | lossOfStandbyPower => exact execLossOfStandbyPower_keeps h

theorem step_of_idle {s : State} (h : s.pending = []) : step s = .next s.tick := by
  simp only [step, h]

theorem step_of_pending {s : State} {c : Instr} {rest : List Instr} (h : s.pending = c :: rest) :
    step s = exec c (s.withPending rest) := by
  simp only [step, h]

theorem StateKeeps.memoryWf {s t : State} (k : StateKeeps s t) (h : s.memoryWf = true) : t.memoryWf = true := by
  simp only [State.memoryWf, Bool.and_eq_true] at h ⊢
  obtain ⟨⟨hmem, htags⟩, hhost⟩ := h
  exact ⟨⟨k.mem hmem, k.tagBytes htags⟩, k.hostMem hhost⟩

end Sys2Proof.Machine

namespace Sys2Proof.Proofs

open Sys2Proof Sys2Proof.Machine

/-- Settles O3: a step is the timebase's or one command's, and each keeps the three memories. -/
theorem stepKeepsMemoryCanonical : Obligations.StepKeepsMemoryCanonical := by
  unfold Obligations.StepKeepsMemoryCanonical
  intro s t hwf hstep
  cases hq : s.pending with
  | nil =>
    rw [step_of_idle hq] at hstep
    obtain rfl := Host.Outcome.next.inj hstep
    exact (State.tick_keeps (.refl s)).memoryWf hwf
  | cons c rest =>
    rw [step_of_pending hq] at hstep
    exact (exec_keeps hstep).memoryWf hwf

/-- Settles O1: the two branches of the step. -/
theorem stepRunsFrontCommand : Obligations.StepRunsFrontCommand := by
  unfold Obligations.StepRunsFrontCommand
  refine ⟨fun c rest s => step_of_pending rfl, fun s hq => ?_⟩
  rw [step_of_idle hq, State.tick]
  split <;> rfl

/-- Settles O2: no command faults or is refused, and what a command keeps includes the queue. -/
theorem commandsKeepQueue : Obligations.CommandsKeepQueue := by
  unfold Obligations.CommandsKeepQueue
  intro c s
  obtain ⟨t, ht⟩ := exec_next c s
  exact ⟨t, ht, (exec_keeps ht).pending⟩

end Sys2Proof.Proofs
end
section
/-!
PROOF. Roster words at the issue logic: a row is its word's issue, what the issued word leaves of the sequencer, and what legality says of
the slots; then the statements about issue, the scalar operations and control transfers.
-/

namespace Sys2Proof.Machine

/-! ### A row is the issue of the word that holds its operation -/

/-- A row of a roster word issues the core's next word where that word holds the row's operation. -/
theorem exec_wordRow {i : Instr} {n : CoreId} {o : SlotOp} (h : wordRow i = some (n, o)) (s : State) :
    exec i s = .next (s.issueOn n fun w => w.holds o) := by
  cases i <;> first | (obtain ⟨rfl, rfl⟩ := Prod.mk.inj (Option.some.inj h); rfl) | exact nomatch h

/-- The module after core `n` has issued word `w`. -/
def State.issued (s : State) (n : Nat) (w : Slots) : State :=
  (s.putLocal n ((s.localOf n).issueWord w)).checkSet

/-- The module after core `n` has met word `w`, which waits. -/
def State.waited (s : State) (n : Nat) (w : Slots) : State :=
  (s.putLocal n ((s.localOf n).reach w).pump).checkSet

theorem exec_of_issues {i : Instr} {n : CoreId} {o : SlotOp} {s : State} {w : Slots} (row : wordRow i = some (n, o))
    (holds : w.holds o = true) (h : Issues s n.val w) : exec i s = .next (s.issued n.val w) := by
  rw [exec_wordRow row, issueOn_issues s n _ w h holds]
  rfl

theorem exec_of_waits {i : Instr} {n : CoreId} {o : SlotOp} {s : State} {w : Slots} (row : wordRow i = some (n, o))
    (holds : w.holds o = true) (h : Waits s n.val w) : exec i s = .next (s.waited n.val w) := by
  rw [exec_wordRow row, issueOn_waits s n _ w h holds]
  rfl

@[simp] theorem State.issued_core (s : State) (n : Nat) (w : Slots) : (s.issued n w).core n = ((s.localOf n).issueWord w).core := by
  rw [State.issued, State.checkSet_core, putLocal_core, if_pos rfl]

@[simp] theorem State.issued_mem (s : State) (n : Nat) (w : Slots) : (s.issued n w).mem = ((s.localOf n).issueWord w).mem := by
  rw [State.issued, State.checkSet_mem, putLocal_mem]

@[simp] theorem State.waited_core (s : State) (n : Nat) (w : Slots) : (s.waited n w).core n = ((s.localOf n).reach w).pump.core := by
  rw [State.waited, State.checkSet_core, putLocal_core, if_pos rfl]

@[simp] theorem State.localOf_core (s : State) (n : Nat) : (s.localOf n).core = s.core n := rfl
@[simp] theorem State.localOf_mem (s : State) (n : Nat) : (s.localOf n).mem = s.mem := rfl
@[simp] theorem State.localOf_env_n (s : State) (n : Nat) : (s.localOf n).env.n = n := rfl

/-! ### The word at the issue logic, in its beat -/

/-- Reaching the issue logic can change the array's queues alone. -/
theorem reach_only (l : Local) (w : Slots) :
    l.reach w = { l with core := { l.core with arr := (l.reach w).core.arr } } := by
  unfold Local.reach
  split <;> rfl

/-- The core as the slots of its word see it: at the issue logic, in the beat in which the word issues. -/
def Local.atIssue (l : Local) (w : Slots) : Local := (l.reach w).onBeat

theorem atIssue_only (l : Local) (w : Slots) :
    l.atIssue w = { l with core := { l.core with
      arr := (l.reach w).core.arr, seq := { l.core.seq with beats := dutyBeat l.env.duty l.core.seq.beats } } } := by
  rw [Local.atIssue, onBeat_only, reach_only]

@[simp] theorem atIssue_seq (l : Local) (w : Slots) :
    (l.atIssue w).core.seq = { l.core.seq with beats := dutyBeat l.env.duty l.core.seq.beats } := by
  rw [atIssue_only]

@[simp] theorem atIssue_env (l : Local) (w : Slots) : (l.atIssue w).env = l.env := by rw [atIssue_only]
@[simp] theorem atIssue_mem (l : Local) (w : Slots) : (l.atIssue w).mem = l.mem := by rw [atIssue_only]
@[simp] theorem atIssue_step (l : Local) (w : Slots) : (l.atIssue w).core.step = l.core.step := by rw [atIssue_only]
@[simp] theorem atIssue_moveQ (l : Local) (w : Slots) : (l.atIssue w).core.moveQ = l.core.moveQ := by rw [atIssue_only]
@[simp] theorem atIssue_vec (l : Local) (w : Slots) : (l.atIssue w).core.vec = l.core.vec := by rw [atIssue_only]
@[simp] theorem atIssue_att (l : Local) (w : Slots) : (l.atIssue w).core.att = l.core.att := by rw [atIssue_only]
@[simp] theorem atIssue_regions (l : Local) (w : Slots) : (l.atIssue w).core.regions = l.core.regions := by rw [atIssue_only]
@[simp] theorem atIssue_scr (l : Local) (w : Slots) : (l.atIssue w).core.scr = l.core.scr := by rw [atIssue_only]
@[simp] theorem atIssue_s (l : Local) (w : Slots) (r : RegId) : (l.atIssue w).s r = l.s r := by simp [Local.s]
@[simp] theorem atIssue_pat (l : Local) (w : Slots) (i : BitVec 8) : (l.atIssue w).pat i = l.pat i := by simp [Local.pat, Local.record]
@[simp] theorem atIssue_markIsNop (l : Local) (w : Slots) : markIsNop (l.atIssue w).core = markIsNop l.core := by simp [markIsNop]

theorem nextWord_atIssue (l : Local) (w : Slots) (c : COp) : nextWord (l.atIssue w) c = nextWord l c := by
  cases c <;> simp [nextWord]

@[simp] theorem issuing_c (l : Local) (w : Slots) : (issuing l w).c = w.c := rfl
@[simp] theorem issuing_v (l : Local) (w : Slots) : (issuing l w).v = w.v := rfl

/-! ### The slots in turn -/

/-- The core once the records that the word names have advanced and its mark, if it has one, is taken. -/
def Local.markedBy (l : Local) (w : Slots) : Local :=
  let l1 := l.seqr fun s => { s with patterns := advanceAll s.patterns (wordNames w) }
  let marked := takeMark l w.c l.core
  if (w.c = .lapMark ∨ w.c = .stepMark) ∧ !markIsNop l.core then
    if w.c = .lapMark ∧ l.env.replayable then { l with core := marked }
    else { l1 with core := { marked with seq := { marked.seq with patterns := l1.core.seq.patterns } } }
  else l1

/-- The core once the C slot has acted. -/
def Local.slotC (l : Local) (w : Slots) : Local := (l.markedBy w).applyC l w.c

/-- The core once the C and M slots have acted. -/
def Local.slotM (l : Local) (w : Slots) : Local := (l.slotC w).applyM l w.m

/-- The core once the C, M and A slots have acted. -/
def Local.slotA (l : Local) (w : Slots) : Local := (l.slotM w).applyA l w.a

/-- The core once all four slots have acted. -/
def Local.slotV (l : Local) (w : Slots) : Local := (l.slotA w).applyV l w.v

theorem actWord_eq (l : Local) (w : Slots) : l.actWord w = ((l.slotV w).applyOffs w.m).advance l w.c := rfl

/-- A word with no mark that counts only advances its records before its slots act. -/
theorem markedBy_unmarked (l : Local) (w : Slots) (h : w.c ≠ .lapMark ∧ w.c ≠ .stepMark ∨ markIsNop l.core = true) :
    l.markedBy w = l.seqr fun s => { s with patterns := advanceAll s.patterns (wordNames w) } := by
  unfold Local.markedBy
  dsimp only
  rw [if_neg]
  rcases h with ⟨h1, h2⟩ | h <;> simp_all

/-- A mark leaves all of the sequencer but registers, patterns, the lap and the marks. -/
theorem markBank_core (c : Core) : markBank c = { c with scr := (markBank c).scr } := by
  unfold markBank
  repeat' (first | rfl | split)

theorem takeMark_lapMark (l : Local) (k : Core) (h : markIsNop k = false) :
    takeMark l .lapMark k =
      beginStep (if l.env.replayable then freshLap (markLap l.env.now (applyControls l.env.expert k))
        else markLap l.env.now (applyControls l.env.expert k)) := by
  simp [takeMark, h]

theorem takeMark_stepMark (l : Local) (k : Core) (h : markIsNop k = false) : takeMark l .stepMark k = beginStep k := by
  simp [takeMark, h]

/-- A mark changes of the sequencer at most the registers, the patterns, the lap, the marks and CLASH_FAULT in effect. -/
theorem takeMark_seq (l : Local) (c : COp) (k : Core) :
    (takeMark l c k).seq =
      { k.seq with
        regs := (takeMark l c k).seq.regs, patterns := (takeMark l c k).seq.patterns, lap := (takeMark l c k).seq.lap,
        markNew := (takeMark l c k).seq.markNew, markOld := (takeMark l c k).seq.markOld, markTime := (takeMark l c k).seq.markTime,
        lapRecordDue := (takeMark l c k).seq.lapRecordDue, clashFaultNow := (takeMark l c k).seq.clashFaultNow } := by
  by_cases h : markIsNop k = true
  · simp [takeMark, h]
  · have hf : markIsNop k = false := by simpa using h
    have hm : (applyControls l.env.expert k).seq = { k.seq with clashFaultNow := k.seq.clashFault } := by
      rw [applyControls, markBank_core]
    cases c with
    | lapMark =>
      rw [takeMark_lapMark l k hf]
      split <;> simp only [beginStep, freshLap, markLap, hm]
    | stepMark => rw [takeMark_stepMark l k hf]; rfl
    | _ => simp [takeMark]

theorem markedBy_seq (l : Local) (w : Slots) :
    (l.markedBy w).core.seq =
      { l.core.seq with
        regs := (l.markedBy w).core.seq.regs, patterns := (l.markedBy w).core.seq.patterns, lap := (l.markedBy w).core.seq.lap,
        markNew := (l.markedBy w).core.seq.markNew, markOld := (l.markedBy w).core.seq.markOld,
        markTime := (l.markedBy w).core.seq.markTime, lapRecordDue := (l.markedBy w).core.seq.lapRecordDue,
        clashFaultNow := (l.markedBy w).core.seq.clashFaultNow } := by
  have k := takeMark_seq l w.c l.core
  unfold Local.markedBy
  dsimp only
  split
  · split
    · exact k
    · dsimp only
      rw [k]
  · rfl

/-- A unit's progress seen on registers and sequencer: what a C slot that reads the scratchpad finds. -/
theorem applyC_seq (l v : Local) (c : COp) :
    (l.applyC v c).core.seq =
      { l.core.seq with
        regs := (l.applyC v c).core.seq.regs, patterns := (l.applyC v c).core.seq.patterns, priv := (l.applyC v c).core.seq.priv,
        privDepth := (l.applyC v c).core.seq.privDepth, fault := (l.applyC v c).core.seq.fault, run := (l.applyC v c).core.seq.run,
        stoppedByFault := (l.applyC v c).core.seq.stoppedByFault } := by
  have read (port : Nat) (lines : List Nat) (off len : Nat) :
      ((l.cross port lines).readScr port off len).2.core.seq =
        { l.core.seq with
          fault := ((l.cross port lines).readScr port off len).2.core.seq.fault,
          run := ((l.cross port lines).readScr port off len).2.core.seq.run,
          stoppedByFault := ((l.cross port lines).readScr port off len).2.core.seq.stoppedByFault } :=
    (Local.readScr_unit (Local.cross_unit (.refl l) port lines) port off len).seq
  cases c with
  | ldw sd sa imm | ldd sd sa imm =>
    simp only [Local.applyC, Local.load, Local.setS, Local.seqr]
    rw [read]
  | patLoad sa first number =>
    simp only [Local.applyC, Local.patLoad, Local.seqr]
    rw [read]
  | stw sd sa imm | std sd sa imm =>
    simp only [Local.applyC, Local.store]
    rw [(Local.writeScr_unit (Local.cross_unit (.refl l) _ _) _ _).seq]
  | _ => rfl

theorem applyOffs_seq (l : Local) (m : MOp) : (l.applyOffs m).core.seq = l.core.seq := by
  unfold Local.applyOffs
  split
  · rfl
  · unfold enterOff
    dsimp only
    split <;> rfl

/-- The M, A and V slots and a switch-off leave the sequencer but for the roster cache. -/
theorem slots_seq (l : Local) (w : Slots) :
    ((l.slotV w).applyOffs w.m).core.seq =
      { (l.slotC w).core.seq with cache := (l.slotM w).core.seq.cache } := by
  rw [applyOffs_seq, Local.slotV, applyV_seq, Local.slotA, applyA_seq, Local.slotM, applyM_seq]

theorem slotC_counts (l : Local) (w : Slots) :
    (l.slotC w).core.seq.wordsIssued = l.core.seq.wordsIssued ∧ (l.slotC w).core.seq.beats = l.core.seq.beats := by
  rw [Local.slotC, applyC_seq, markedBy_seq]
  exact ⟨rfl, rfl⟩

/-! ### The sequencer of a core that has issued -/

/-- The slots of a word as its core issues them. -/
def Local.acts (l : Local) (w : Slots) : Slots := issuing (l.atIssue w) w

/-- The core after the C slot of the word that it issues. -/
def Local.afterC (l : Local) (w : Slots) : Local := (l.atIssue w).slotC (l.acts w)

@[simp] theorem acts_c (l : Local) (w : Slots) : (l.acts w).c = w.c := rfl
@[simp] theorem acts_v (l : Local) (w : Slots) : (l.acts w).v = w.v := rfl

/-- What issue makes of the sequencer: the C slot's effect, the advance, and a roster fault if one stops the core. -/
theorem issueWord_seq (l : Local) (w : Slots) (h : holdsWord (l.reach w) w = false) :
    (l.issueWord w).core.seq =
      { (l.afterC w).core.seq with
        cache := ((l.atIssue w).slotM (l.acts w)).core.seq.cache, loops := (nextWord l w.c).1,
        position := wordIndex (nextWord l w.c).2, lastIssued := l.core.seq.position,
        wordsIssued := wrapAdd l.core.seq.wordsIssued 1, beats := (l.issueWord w).core.seq.beats, replayMark := false,
        fault := (l.issueWord w).core.seq.fault, run := (l.issueWord w).core.seq.run,
        stoppedByFault := (l.issueWord w).core.seq.stoppedByFault } := by
  have key := issued_seq l w h
  rw [key, show (l.reach w).onBeat = l.atIssue w from rfl, show issuing (l.atIssue w) w = l.acts w from rfl, actWord_eq,
    advance_seq, slots_seq, (slotC_counts _ _).1, atIssue_seq, acts_c, nextWord_atIssue]
  rfl

theorem issued_regs {s : State} {n : Nat} {w : Slots} (h : Issues s n w) :
    ((s.issued n w).core n).seq.regs = ((s.localOf n).afterC w).core.seq.regs := by
  rw [State.issued_core, issueWord_seq _ _ h.ready]

theorem issued_patterns {s : State} {n : Nat} {w : Slots} (h : Issues s n w) :
    ((s.issued n w).core n).seq.patterns = ((s.localOf n).afterC w).core.seq.patterns := by
  rw [State.issued_core, issueWord_seq _ _ h.ready]

theorem issued_control {s : State} {n : Nat} {w : Slots} (h : Issues s n w) :
    ((s.issued n w).core n).seq.lastIssued = (s.core n).seq.position ∧
    ((s.issued n w).core n).seq.wordsIssued = wrapAdd (s.core n).seq.wordsIssued 1 ∧
    ((s.issued n w).core n).seq.loops = (nextWord (s.localOf n) w.c).1 ∧
    ((s.issued n w).core n).seq.position = wordIndex (nextWord (s.localOf n) w.c).2 := by
  rw [State.issued_core, issueWord_seq _ _ h.ready]
  exact ⟨rfl, rfl, rfl, rfl⟩

theorem waited_seq (s : State) (n : Nat) (w : Slots) :
    ((s.waited n w).core n).seq =
      { (s.core n).seq with
        fault := ((s.waited n w).core n).seq.fault, run := ((s.waited n w).core n).seq.run,
        stoppedByFault := ((s.waited n w).core n).seq.stoppedByFault } := by
  rw [State.waited_core]
  conv_lhs => rw [(pump_core _).2.1, (reach_seq _ _).1]
  rfl

/-! ### The C slot's own effect -/

/-- A C slot that holds no mark acts on the registers and the memory as they stood. -/
theorem afterC_unmarked (l : Local) (w : Slots) (h : w.c ≠ .lapMark ∧ w.c ≠ .stepMark) :
    l.afterC w = ((l.atIssue w).seqr fun s => { s with patterns := advanceAll s.patterns (wordNames (l.acts w)) }).applyC
      (l.atIssue w) w.c := by
  rw [Local.afterC, Local.slotC, markedBy_unmarked (l.atIssue w) (l.acts w) (.inl h), acts_c]

theorem regGet_regPut (regs : List (Nat × DWord)) (sd r : RegId) (v : DWord) :
    regGet (regPut regs sd v) r = if r = sd ∧ r ≠ 0 then v else regGet regs r := by
  unfold regGet regPut
  by_cases hr : r = 0
  · simp [hr]
  · by_cases hd : sd = 0
    · simp [hd]
    · rw [if_neg hr, if_neg hd, if_neg hr, mapGet_mapPut]
      simp [BitVec.toNat_inj, show ¬r = 0#5 from hr]

/-- The scalar registers that issue leaves, where the C slot leaves `regs`. -/
theorem issued_sreg {s : State} {n : Nat} {w : Slots} (h : Issues s n w) (r : RegId) :
    (s.issued n w).sreg n r = regGet ((s.localOf n).afterC w).core.seq.regs r := by
  rw [State.sreg, issued_regs h]

theorem State.localOf_s (s : State) (n : Nat) (r : RegId) : (s.localOf n).s r = s.sreg n r := rfl

/-- A C slot that writes a value computed from the registers before the word writes it to SD and to no other register. -/
theorem issued_sreg_of_setS {s : State} {n : Nat} {w : Slots} (h : Issues s n w) {sd : RegId} {v : DWord}
    (unmarked : w.c ≠ .lapMark ∧ w.c ≠ .stepMark)
    (acts : ∀ x : Local, x.applyC ((s.localOf n).atIssue w) w.c = x.setS sd v) (r : RegId) :
    (s.issued n w).sreg n r = if r = sd ∧ r ≠ 0 then v else s.sreg n r := by
  rw [issued_sreg h, afterC_unmarked _ _ unmarked, acts]
  simp only [Local.setS, Local.seqr, atIssue_seq, regGet_regPut]
  rfl

/-- A C slot that leaves the core alone leaves the registers. -/
theorem issued_sreg_of_none {s : State} {n : Nat} {w : Slots} (h : Issues s n w) (unmarked : w.c ≠ .lapMark ∧ w.c ≠ .stepMark)
    (acts : ∀ x : Local, x.applyC ((s.localOf n).atIssue w) w.c = x) (r : RegId) : (s.issued n w).sreg n r = s.sreg n r := by
  rw [issued_sreg h, afterC_unmarked _ _ unmarked, acts]
  simp only [Local.seqr, atIssue_seq]
  rfl

/-! ### Scalar arithmetic (Table 04-9) -/

theorem shiftCount_toNat {w : Nat} (b : BitVec w) : (field b 0 6).toNat = b.toNat % 64 := by
  simp [BitVec.extractLsb'_toNat]

theorem alu_mul (a b : DWord) : alu .mul a b = BitVec.ofNat 64 (a.toNat * b.toNat) := by
  simp [alu, BitVec.ofNat_mul]

theorem aluImm_addi (a : DWord) (imm : BitVec 16) : aluImm .addi a imm = BitVec.ofInt 64 (a.toInt + imm.toInt) := by
  refine BitVec.eq_of_toInt_eq ?_
  rw [aluImm, BitVec.toInt_add, BitVec.toInt_ofInt, BitVec.toInt_signExtend_of_le (by decide)]

/-- A number with 16 bits at `lo` replaced, split at those bits. -/
theorem setField16_split (v lo x : Nat) :
    v - (v >>> lo) % 2 ^ 16 * 2 ^ lo + x * 2 ^ lo = 2 ^ lo * (2 ^ 16 * (v / 2 ^ (lo + 16)) + x) + v % 2 ^ lo := by
  have h1 : 2 ^ lo * (v / 2 ^ lo) + v % 2 ^ lo = v := Nat.div_add_mod v (2 ^ lo)
  have h2 : 2 ^ 16 * (v / 2 ^ lo / 2 ^ 16) + v / 2 ^ lo % 2 ^ 16 = v / 2 ^ lo := Nat.div_add_mod _ _
  have h3 : v / 2 ^ (lo + 16) = v / 2 ^ lo / 2 ^ 16 := by rw [pow_add, Nat.div_div_eq_div_mul]
  rw [Nat.shiftRight_eq_div_pow, h3]
  generalize v / 2 ^ lo % 2 ^ 16 = m at *
  generalize v / 2 ^ lo / 2 ^ 16 = t at *
  generalize v % 2 ^ lo = r at *
  rw [← h2, Nat.mul_add, Nat.mul_comm _ m] at h1
  rw [Nat.mul_add, Nat.mul_comm _ x]
  omega

/-- LIH: the quarter reads as the immediate, every other bit as before. -/
theorem getLsbD_insertQuarter (a : DWord) (q : BitVec 2) (imm : BitVec 16) {k : Nat} (hk : k < 64) :
    (insertQuarter a q imm).getLsbD k = if k / 16 = q.toNat then imm.getLsbD (k % 16) else a.getLsbD k := by
  have hlow : a.toNat % 2 ^ (16 * q.toNat) < 2 ^ (16 * q.toNat) := Nat.mod_lt _ (Nat.two_pow_pos _)
  have himm : imm.toNat < 2 ^ 16 := imm.isLt
  rw [insertQuarter, setField, BitVec.getLsbD_ofNat, Nat.mod_eq_of_lt himm, setField16_split, decide_eq_true hk, Bool.true_and,
    Nat.testBit_two_pow_mul_add _ hlow]
  split
  · next below =>
    rw [if_neg (by omega), Nat.testBit_mod_two_pow, decide_eq_true below, Bool.true_and]
    rfl
  · next above =>
    rw [Nat.testBit_two_pow_mul_add _ himm]
    split
    · rw [if_pos (by omega), show k % 16 = k - 16 * q.toNat by omega]
      rfl
    · rw [if_neg (by omega), Nat.testBit_div_two_pow, show k - 16 * q.toNat - 16 + (16 * q.toNat + 16) = k by omega]
      rfl

theorem alu_shl (a b : DWord) : alu .shl a b = a <<< (b.toNat % 64) := by rw [alu, shiftCount_toNat]
theorem alu_shr (a b : DWord) : alu .shr a b = a >>> (b.toNat % 64) := by rw [alu, shiftCount_toNat]
theorem alu_sra (a b : DWord) : alu .sra a b = a.sshiftRight (b.toNat % 64) := by rw [alu, shiftCount_toNat]

theorem alu_slt (a b : DWord) : alu .slt a b = if a.toInt < b.toInt then 1 else 0 := by
  simp [alu, BitVec.slt]

theorem alu_sltu (a b : DWord) : alu .sltu a b = if a.toNat < b.toNat then 1 else 0 := by
  simp [alu, BitVec.ult]

theorem aluImm_shli (a : DWord) (imm : BitVec 16) : aluImm .shli a imm = a <<< (imm.toNat % 64) := by rw [aluImm, shiftCount_toNat]
theorem aluImm_shri (a : DWord) (imm : BitVec 16) : aluImm .shri a imm = a >>> (imm.toNat % 64) := by rw [aluImm, shiftCount_toNat]
theorem aluImm_srai (a : DWord) (imm : BitVec 16) : aluImm .srai a imm = a.sshiftRight (imm.toNat % 64) := by
  rw [aluImm, shiftCount_toNat]

section
variable {s : State} {n : CoreId} {w : Slots} {i : Instr}

/-- A word issues with whatever operation its C slot holds. -/
theorem exec_of_issues_c (h : Issues s n.val w) {c : COp} (row : wordRow i = some (n, .c c)) (hc : w.c = c) :
    exec i s = .next (s.issued n.val w) :=
  exec_of_issues row (by simp [Slots.holds, hc]) h

theorem alu_writes (h : Issues s n.val w) {o : AluOp} {sd sa sb : RegId} (row : wordRow i = some (n, .c (.alu o sd sa sb)))
    (hc : w.c = .alu o sd sa sb) {v : DWord} (hv : alu o (s.sreg n.val sa) (s.sreg n.val sb) = v) :
    ∃ t, exec i s = .next t ∧ ∀ r, t.sreg n.val r = if r = sd ∧ r ≠ 0 then v else s.sreg n.val r := by
  refine ⟨_, exec_of_issues_c h row hc, issued_sreg_of_setS h (by simp [hc]) fun x => ?_⟩
  rw [hc, ← hv]
  simp [Local.applyC, State.localOf_s]

theorem aluImm_writes (h : Issues s n.val w) {o : AluImmOp} {sd sa : RegId} {imm : BitVec 16}
    (row : wordRow i = some (n, .c (.alui o sd sa imm))) (hc : w.c = .alui o sd sa imm) {v : DWord}
    (hv : aluImm o (s.sreg n.val sa) imm = v) :
    ∃ t, exec i s = .next t ∧ ∀ r, t.sreg n.val r = if r = sd ∧ r ≠ 0 then v else s.sreg n.val r := by
  refine ⟨_, exec_of_issues_c h row hc, issued_sreg_of_setS h (by simp [hc]) fun x => ?_⟩
  rw [hc, ← hv]
  simp [Local.applyC, State.localOf_s]

theorem lih_writes (h : Issues s n.val w) {sd : RegId} {q : BitVec 2} {imm : BitVec 16} (row : wordRow i = some (n, .c (.lih sd q imm)))
    (hc : w.c = .lih sd q imm) :
    ∃ t, exec i s = .next t ∧ ∀ r, t.sreg n.val r =
      if r = sd ∧ r ≠ 0 then insertQuarter (s.sreg n.val sd) q imm else s.sreg n.val r := by
  refine ⟨_, exec_of_issues_c h row hc, issued_sreg_of_setS h (by simp [hc]) fun x => ?_⟩
  rw [hc]
  simp [Local.applyC, State.localOf_s]

/-! ### Control transfers (R81) -/

/-- The C slots that leave registers, scratchpad and pattern table alone and are no marks: NOP, END, WAIT and the transfers of control. -/
def COp.onlyMoves : COp → Bool
  | .nop | .endRoster | .wait _ _ | .loop _ _ | .loopr _ _ | .jmp _ | .branch _ _ _ _ => true
  | _ => false

theorem applyC_of_onlyMoves {c : COp} (hc : c.onlyMoves = true) (x v : Local) : x.applyC v c = x := by
  cases c <;> first | rfl | exact absurd hc Bool.false_ne_true

theorem unmarked_of_onlyMoves {c : COp} (hc : c.onlyMoves = true) : c ≠ .lapMark ∧ c ≠ .stepMark := by
  constructor <;> rintro rfl <;> exact absurd hc Bool.false_ne_true

/-- A word whose C slot only moves control leads where `nextWord` says, and changes no register. -/
theorem control_goes (h : Issues s n.val w) {c : COp} (row : wordRow i = some (n, .c c)) (hc : w.c = c) (moves : c.onlyMoves = true)
    {l : List LoopFrame × Nat} (hl : nextWord (s.localOf n.val) c = l) :
    ∃ t, exec i s = .next t ∧ (t.core n.val).seq.loops = l.1 ∧ (t.core n.val).seq.position = BitVec.ofNat 28 l.2 ∧
      ∀ r, t.sreg n.val r = s.sreg n.val r := by
  subst hc hl
  obtain ⟨-, -, hloops, hpos⟩ := issued_control h
  exact ⟨_, exec_of_issues_c h row rfl, hloops, hpos,
    issued_sreg_of_none h (unmarked_of_onlyMoves moves) fun x => applyC_of_onlyMoves moves x _⟩

end

/-- A WAIT that lets its word issue finds at most COUNT operations. -/
theorem syCount_le_of_wait {l : Local} {w : Slots} {u : UnitCode} {count : BitVec 16} (ready : holdsWord (l.reach w) w = false)
    (hc : w.c = .wait u count) : syCount (l.reach w).core u ≤ count.toNat := by
  have : (!passesC (l.reach w) w.c) = false := (Bool.or_eq_false_iff.mp ready).2
  simpa [hc, passesC] using this

theorem condHolds_lt (a b : DWord) : condHolds .lt a b = true ↔ a.toInt < b.toInt := BitVec.slt_iff_toInt_lt
theorem condHolds_ltu (a b : DWord) : condHolds .ltu a b = true ↔ a.toNat < b.toNat := BitVec.ult_iff_lt

theorem condHolds_ge (a b : DWord) : condHolds .ge a b = true ↔ b.toInt ≤ a.toInt := by
  rw [show condHolds .ge a b = !condHolds .lt a b from rfl, Bool.not_eq_true', ← Bool.not_eq_true, condHolds_lt, not_lt]

theorem condHolds_geu (a b : DWord) : condHolds .geu a b = true ↔ b.toNat ≤ a.toNat := by
  rw [show condHolds .geu a b = !condHolds .ltu a b from rfl, Bool.not_eq_true', ← Bool.not_eq_true, condHolds_ltu, not_lt]

theorem nextWord_branch (l : Local) {k : Cond} {sa sb : RegId} (off : BitVec 16) {p : Prop} [Decidable p]
    (hp : condHolds k (l.s sa) (l.s sb) = true ↔ p) :
    nextWord l (.branch k sa sb off) =
      if p then (l.core.seq.loops, ((l.core.seq.position.toNat : Int) + off.toInt).toNat)
      else afterWord l.core.seq.loops l.core.seq.position.toNat := by
  simp only [nextWord, hp, jumpTarget]

theorem nextWord_loopr (l : Local) (sa : RegId) (body : BitVec 14) :
    nextWord l (.loopr sa body) =
      if l.s sa = 0 then afterWord l.core.seq.loops (l.core.seq.position.toNat + body.toNat + 1)
      else (⟨l.core.seq.position.toNat + 1, l.core.seq.position.toNat + body.toNat + 1, (l.s sa).toNat⟩ :: l.core.seq.loops,
        l.core.seq.position.toNat + 1) := by
  have : (l.s sa).toNat = 0 ↔ l.s sa = 0 := BitVec.toNat_eq (y := 0#64) |>.symm
  simp only [nextWord, this]

end Sys2Proof.Machine

namespace Sys2Proof.Proofs

open Sys2Proof Sys2Proof.Machine

/-- Settles O4: a row is its word's issue, and the advance of the word is the last of its slots' effects. -/
theorem wordIssuesWholeOrWaits : Obligations.WordIssuesWholeOrWaits := by
  unfold Obligations.WordIssuesWholeOrWaits
  refine ⟨fun i n o s w row holds h => ⟨_, exec_of_issues row holds h, issued_control h⟩, fun i n o s w row holds h => ?_⟩
  refine ⟨_, exec_of_waits row holds h, ?_⟩
  rw [waited_seq]
  exact ⟨rfl, rfl, rfl, rfl, rfl⟩

/-- Settles O6: the C slot's one write, with the operands read before the word. -/
theorem scalarArithmetic : Obligations.ScalarArithmetic := by
  unfold Obligations.ScalarArithmetic
  intro n s w sd sa sb imm q h
  refine ⟨fun hc => alu_writes h rfl hc rfl, fun hc => alu_writes h rfl hc rfl, fun hc => alu_writes h rfl hc rfl,
    fun hc => alu_writes h rfl hc rfl, fun hc => alu_writes h rfl hc rfl, fun hc => alu_writes h rfl hc (alu_shl _ _),
    fun hc => alu_writes h rfl hc (alu_shr _ _), fun hc => alu_writes h rfl hc (alu_sra _ _),
    fun hc => alu_writes h rfl hc (alu_mul _ _), fun hc => alu_writes h rfl hc rfl, fun hc => alu_writes h rfl hc (alu_slt _ _),
    fun hc => alu_writes h rfl hc (alu_sltu _ _), fun hc => aluImm_writes h rfl hc (aluImm_addi _ _),
    fun hc => aluImm_writes h rfl hc rfl, fun hc => aluImm_writes h rfl hc rfl, fun hc => aluImm_writes h rfl hc rfl,
    fun hc => aluImm_writes h rfl hc (aluImm_shli _ _), fun hc => aluImm_writes h rfl hc (aluImm_shri _ _),
    fun hc => aluImm_writes h rfl hc (aluImm_srai _ _), fun hc => ?_⟩
  obtain ⟨t, ht, hr⟩ := lih_writes (i := .lih n sd q imm) h rfl hc
  refine ⟨t, ht, fun r hne => by simp [hr, hne], by simp [State.sreg, regGet], fun hsd k hk => ?_⟩
  rw [hr, if_pos ⟨rfl, hsd⟩, getLsbD_insertQuarter _ _ _ hk]

/-- Settles O8: where the word leads is the model's `nextWord`, and none of these C slots writes a register. -/
theorem controlTransfers : Obligations.ControlTransfers := by
  unfold Obligations.ControlTransfers
  intro n s w u count off sa sb times body h
  refine ⟨fun hc => control_goes h rfl hc rfl rfl,
    fun hc => ⟨syCount_le_of_wait h.ready hc, control_goes h rfl hc rfl rfl⟩, fun hc => control_goes h rfl hc rfl rfl,
    fun hc => control_goes h rfl hc rfl (nextWord_branch _ _ beq_iff_eq), fun hc => control_goes h rfl hc rfl (nextWord_branch _ _ bne_iff_ne),
    fun hc => control_goes h rfl hc rfl (nextWord_branch _ _ (condHolds_lt _ _)),
    fun hc => control_goes h rfl hc rfl (nextWord_branch _ _ (condHolds_ge _ _)),
    fun hc => control_goes h rfl hc rfl (nextWord_branch _ _ (condHolds_ltu _ _)),
    fun hc => control_goes h rfl hc rfl (nextWord_branch _ _ (condHolds_geu _ _)),
    fun hc => control_goes h rfl hc rfl rfl, fun hc => control_goes h rfl hc rfl (nextWord_loopr _ _ _)⟩

end Sys2Proof.Proofs
end

section
/-!
PROOF. The layer below the statements about a core's units: what a read of the scratchpad leaves, what the heads of the ARRAY and ATTENTION
queues can change, and the progress of the units as a chain of such steps with a principle of induction over it.
-/

namespace Sys2Proof.Machine

/-! ### Reads of the scratchpad -/

/-- What a read through a port can change of a core: the parity bookkeeping, and the run state where a parity error stops the core. -/
structure ReadKeeps (l m : Local) : Prop where
  env : m.env = l.env
  mem : m.mem = l.mem
  clashes : m.clashes = l.clashes
  core : m.core = { l.core with
    seq := { l.core.seq with fault := m.core.seq.fault, run := m.core.seq.run, stoppedByFault := m.core.seq.stoppedByFault },
    step := { l.core.step with parity := m.core.step.parity },
    scr := { l.core.scr with
      lastErr := m.core.scr.lastErr, errors := m.core.scr.errors, bankErrors := m.core.scr.bankErrors, waits := m.core.scr.waits,
      pendingBank := m.core.scr.pendingBank, darkPending := m.core.scr.darkPending } }
  stopped : l.core.seq.stoppedByFault = true → m.core.seq = l.core.seq
  clean : l.core.scr.badParity = [] →
    m.reports = l.reports ∧ m.core = { l.core with scr := { l.core.scr with waits := m.core.scr.waits } }

theorem ReadKeeps.refl (l : Local) : ReadKeeps l l := ⟨rfl, rfl, rfl, rfl, fun _ => rfl, fun _ => ⟨rfl, rfl⟩⟩

theorem ReadKeeps.trans {l m k : Local} (h : ReadKeeps l m) (g : ReadKeeps m k) : ReadKeeps l k where
  env := g.env.trans h.env
  mem := g.mem.trans h.mem
  clashes := g.clashes.trans h.clashes
  core := by rw [g.core, h.core]
  stopped hs := by rw [g.stopped (by rw [h.stopped hs]; exact hs), h.stopped hs]
  clean hb := by
    obtain ⟨hr, hc⟩ := h.clean hb
    obtain ⟨gr, gc⟩ := g.clean (by rw [hc]; exact hb)
    exact ⟨gr.trans hr, by rw [gc, hc]⟩

namespace ReadKeeps
variable {l m : Local} (h : ReadKeeps l m)
include h

theorem arr : m.core.arr = l.core.arr := by rw [h.core]
theorem att : m.core.att = l.core.att := by rw [h.core]
theorem vec : m.core.vec = l.core.vec := by rw [h.core]
theorem moveQ : m.core.moveQ = l.core.moveQ := by rw [h.core]
theorem regions : m.core.regions = l.core.regions := by rw [h.core]
theorem ctrl : m.core.ctrl = l.core.ctrl := by rw [h.core]
theorem badParity : m.core.scr.badParity = l.core.scr.badParity := by rw [h.core]

end ReadKeeps

theorem rosterFault_of_stopped {l : Local} (h : l.core.seq.stoppedByFault = true) (kind slot : Nat) (word : BitVec 28) :
    l.rosterFault kind slot word = l := if_pos h

theorem rosterFault_of_running {l : Local} (h : l.core.seq.stoppedByFault = false) (kind slot : Nat) (word : BitVec 28) :
    l.rosterFault kind slot word =
      (l.seqr fun s =>
        { s with fault := ⟨true, BitVec.ofNat 2 slot, BitVec.ofNat 8 kind, word⟩, run := .stopped, stoppedByFault := true }).report
        ⟨0x10, BitVec.ofNat 8 l.env.panel, l.location, BitVec.ofNat 48 (l.env.n + word.toNat * 2 ^ 20),
          BitVec.ofNat 16 (kind * 256 + slot)⟩ :=
  if_neg (by simp [h])

/-- One parity error, found on a port of the core's own units. -/
theorem parityFound_reads (l : Local) (port w : Nat) :
    let k : Local := ({ l with core := countParity l.core port w } : Local).report (parityReport l port w)
    (k.core = { l.core with scr := { l.core.scr with
      lastErr := k.core.scr.lastErr, errors := k.core.scr.errors, bankErrors := k.core.scr.bankErrors,
      pendingBank := k.core.scr.pendingBank, darkPending := k.core.scr.darkPending } }) := by
  simp only [Local.report, countParity, markBank]
  repeat' (first | rfl | split)

theorem findParity_cons (l : Local) (port w : Nat) (r : List Nat) :
    l.findParity port (w :: r) =
      (if port < 15 then (({ l with core := countParity l.core port w } : Local).report (parityReport l port w)).stepParity
        else ({ l with core := countParity l.core port w } : Local).report (parityReport l port w)).findParity port r := rfl

/-- What finding bad words can change, whatever they are. -/
theorem findParity_reads (l : Local) (port : Nat) (bad : List Nat) :
    (l.findParity port bad).env = l.env ∧ (l.findParity port bad).mem = l.mem ∧ (l.findParity port bad).clashes = l.clashes ∧
    ((l.findParity port bad).core = { l.core with
      seq := { l.core.seq with
        fault := (l.findParity port bad).core.seq.fault, run := (l.findParity port bad).core.seq.run,
        stoppedByFault := (l.findParity port bad).core.seq.stoppedByFault },
      step := { l.core.step with parity := (l.findParity port bad).core.step.parity },
      scr := { l.core.scr with
        lastErr := (l.findParity port bad).core.scr.lastErr, errors := (l.findParity port bad).core.scr.errors,
        bankErrors := (l.findParity port bad).core.scr.bankErrors,
        pendingBank := (l.findParity port bad).core.scr.pendingBank, darkPending := (l.findParity port bad).core.scr.darkPending } }) ∧
    (l.core.seq.stoppedByFault = true → (l.findParity port bad).core.seq = l.core.seq) := by
  induction bad generalizing l with
  | nil => exact ⟨rfl, rfl, rfl, rfl, fun _ => rfl⟩
  | cons w r ih =>
    have hk := parityFound_reads l port w
    rw [findParity_cons]
    set k : Local := ({ l with core := countParity l.core port w } : Local).report (parityReport l port w) with kdef
    dsimp only at hk
    have henv : k.env = l.env := rfl
    have hmem : k.mem = l.mem := rfl
    have hcl : k.clashes = l.clashes := rfl
    clear_value k
    generalize hx : (if port < 15 then k.stepParity else k) = x
    have hxk : x.env = k.env ∧ x.mem = k.mem ∧ x.clashes = k.clashes ∧
        (x.core = { k.core with
          seq := { k.core.seq with fault := x.core.seq.fault, run := x.core.seq.run, stoppedByFault := x.core.seq.stoppedByFault },
          step := { k.core.step with parity := x.core.step.parity } }) ∧
        (k.core.seq.stoppedByFault = true → x.core.seq = k.core.seq) := by
      rw [← hx]
      split
      · unfold Local.stepParity
        split
        · exact ⟨rfl, rfl, rfl, rfl, fun _ => rfl⟩
        · by_cases hs : k.core.seq.stoppedByFault = true
          · rw [rosterFault_of_stopped hs]
            exact ⟨rfl, rfl, rfl, rfl, fun _ => rfl⟩
          · rw [rosterFault_of_running (by simpa using hs)]
            exact ⟨rfl, rfl, rfl, rfl, fun h => absurd h hs⟩
      · exact ⟨rfl, rfl, rfl, rfl, fun _ => rfl⟩
    obtain ⟨e1, e2, e3, e4, e5⟩ := ih x
    obtain ⟨f1, f2, f3, f4, f5⟩ := hxk
    refine ⟨by rw [e1, f1, henv], by rw [e2, f2, hmem], by rw [e3, f3, hcl], ?_, fun hs => ?_⟩
    · rw [e4, f4, hk]
    · have hks : k.core.seq = l.core.seq := by rw [hk]
      rw [e5 (by rw [f5 (by rw [hks]; exact hs), hks]; exact hs), f5 (by rw [hks]; exact hs), hks]

theorem badWords_nil (off len : Nat) : badWords [] off len = [] := rfl

theorem cross_reads (l : Local) (port : Nat) (lines : List Nat) : ReadKeeps l (l.cross port lines) := by
  unfold Local.cross
  split
  · exact .refl l
  · exact ⟨rfl, rfl, rfl, rfl, fun _ => rfl, fun _ => ⟨rfl, rfl⟩⟩

theorem readScr_reads (l : Local) (port off len : Nat) : ReadKeeps l (l.readScr port off len).2 := by
  obtain ⟨h1, h2, h3, h4, h5⟩ := findParity_reads l port (badWords l.core.scr.badParity off len)
  refine ⟨h1, h2, h3, ?_, h5, fun hb => ?_⟩
  · simp only [Local.readScr]
    rw [h4]
  · have none : (l.readScr port off len).2 = l := by
      rw [Local.readScr, hb]
      rfl
    rw [none]
    exact ⟨rfl, rfl⟩

theorem readScr_bytes (l : Local) (port off len : Nat) : (l.readScr port off len).1 = l.scr off len := rfl

theorem crossAll_reads (l : Local) (ps : List (Nat × Pattern)) : ReadKeeps l (l.crossAll ps) := by
  unfold Local.crossAll
  induction ps generalizing l with
  | nil => exact .refl l
  | cons p r ih => exact (cross_reads l _ _).trans (ih _)

theorem readRuns_reads (l : Local) (port len : Nat) (starts : List Int) : ReadKeeps l (l.readRuns port len starts).2 := by
  induction starts generalizing l with
  | nil => exact .refl l
  | cons a r ih => exact (readScr_reads l _ _ _).trans (ih _)

/-- The bytes of a core's scratchpad depend on its number and on memory alone. -/
theorem Local.scr_congr {l m : Local} (henv : m.env = l.env) (hmem : m.mem = l.mem) (off len : Nat) : m.scr off len = l.scr off len := by
  rw [Local.scr, Local.scr, henv, hmem]

/-- A read of runs gives the bytes of each as stored. -/
theorem readRuns_bytes (l : Local) (port len : Nat) (starts : List Int) :
    (l.readRuns port len starts).1 = starts.map fun w => l.scr (4 * w.toNat) len := by
  induction starts generalizing l with
  | nil => rfl
  | cons a r ih =>
    have k := readScr_reads l port (4 * a.toNat) len
    simp only [Local.readRuns, ih, List.map_cons, readScr_bytes]
    congr 1
    exact List.map_congr_left fun w _ => Local.scr_congr k.env k.mem _ _

/-! ### Steps of the ARRAY queue -/

/-- What the head of the ARRAY queue can change: the array alone, but for what a read finds. -/
structure ArrStep (l m : Local) : Prop where
  reads : ReadKeeps { l with core := { l.core with arr := m.core.arr } } m

theorem ArrStep.refl (l : Local) : ArrStep l l := ⟨.refl _⟩

theorem ReadKeeps.ofArr {l m : Local} (h : ReadKeeps l m) (a : ArrayState) :
    ReadKeeps { l with core := { l.core with arr := a } } { m with core := { m.core with arr := a } } where
  env := h.env
  mem := h.mem
  clashes := h.clashes
  core := by dsimp only; rw [h.core]
  stopped hs := by dsimp only; exact h.stopped hs
  clean hb := by
    obtain ⟨hr, hc⟩ := h.clean hb
    exact ⟨hr, by dsimp only; rw [hc]⟩

theorem ReadKeeps.ofAtt {l m : Local} (h : ReadKeeps l m) (a : AttState) :
    ReadKeeps { l with core := { l.core with att := a } } { m with core := { m.core with att := a } } where
  env := h.env
  mem := h.mem
  clashes := h.clashes
  core := by dsimp only; rw [h.core]
  stopped hs := by dsimp only; exact h.stopped hs
  clean hb := by
    obtain ⟨hr, hc⟩ := h.clean hb
    exact ⟨hr, by dsimp only; rw [hc]⟩

theorem ReadKeeps.arrUpd {l m : Local} (h : ReadKeeps l m) (f : ArrayState → ArrayState) : ArrStep l (m.arrUpd f) :=
  ⟨h.ofArr _⟩

theorem ArrStep.trans {l m k : Local} (h : ArrStep l m) (g : ArrStep m k) : ArrStep l k := by
  have h' := h.reads.ofArr k.core.arr
  exact ⟨h'.trans g.reads⟩

theorem arrUpd_arrStep (l : Local) (f : ArrayState → ArrayState) : ArrStep l (l.arrUpd f) := (ReadKeeps.refl l).arrUpd f

theorem runWload_arrStep (l : Local) (sy : Bool) (x : Pattern) (packed : Bool) : ArrStep l (l.runWload sy x packed) := by
  unfold Local.runWload
  exact ((cross_reads l _ _).trans (readRuns_reads _ _ _ _)).arrUpd _

theorem arrayStep_arrStep (l : Local) : ArrStep l l.arrayStep := by
  unfold Local.arrayStep
  dsimp only
  split
  · split
    · exact (arrUpd_arrStep l _).trans (runWload_arrStep _ _ _ _)
    · exact .refl l
  · split
    · exact arrUpd_arrStep l _
    · exact .refl l
  · exact arrUpd_arrStep l _
  · exact arrUpd_arrStep l _
  · exact .refl l

/-! ### Steps of the ATTENTION queue -/

/-- What the ATTENTION queue can change where it writes no byte: the attention state alone, but for what a read finds. -/
structure AttStep (l m : Local) : Prop where
  reads : ReadKeeps { l with core := { l.core with att := m.core.att } } m

theorem AttStep.refl (l : Local) : AttStep l l := ⟨.refl _⟩

theorem AttStep.trans {l m k : Local} (h : AttStep l m) (g : AttStep m k) : AttStep l k :=
  ⟨(h.reads.ofAtt k.core.att).trans g.reads⟩

theorem ReadKeeps.attUpd {l m : Local} (h : ReadKeeps l m) (f : AttState → AttState) : AttStep l (m.attUpd f) := ⟨h.ofAtt _⟩

theorem attUpd_attStep (l : Local) (f : AttState → AttState) : AttStep l (l.attUpd f) := (ReadKeeps.refl l).attUpd f

theorem runAttMode_attStep (l : Local) (x : Pattern) : AttStep l (l.runAttMode x) := by
  unfold Local.runAttMode
  exact ((cross_reads l _ _).trans (readRuns_reads _ _ _ _)).attUpd _

theorem loadQueries_attStep (l : Local) (x : Pattern) (y : Option Pattern) : AttStep l (l.loadQueries x y) := by
  have h := (crossAll_reads l (attPorts (.query false x y))).trans (readRuns_reads _ 4 (patRunBytes x) (patRuns x))
  unfold Local.loadQueries
  cases y with
  | none => exact h.attUpd _
  | some p => exact (h.trans (readRuns_reads _ 4 (patRunBytes p) (patRuns p))).attUpd _

theorem readProbes_reads (l : Local) (r : WalkRecord) : ReadKeeps l (readProbes l r).2 := by
  unfold readProbes
  dsimp only
  exact (cross_reads l _ _).trans (readScr_reads _ _ _ _)

theorem AttStep.ite {l a b : Local} {c : Prop} [Decidable c] (ha : AttStep l a) (hb : AttStep l b) : AttStep l (if c then a else b) := by
  split
  · exact ha
  · exact hb

theorem startWalk_attStep (l : Local) (x : Pattern) (lap : BitVec 2) (word : BitVec 28) : AttStep l (l.startWalk x lap word) := by
  have h := (cross_reads l 4 (patLines x)).trans (readRuns_reads _ 4 (patRunBytes x) (patRuns x))
  unfold Local.startWalk
  refine .ite (h.attUpd _) (.ite (h.attUpd _) (ReadKeeps.attUpd (h.trans ?_) _))
  split
  · exact readProbes_reads _ _
  · exact .refl _

theorem deliverNext_attStep (fuel : Nat) (l : Local) : AttStep l (l.deliverNext fuel) := by
  induction fuel generalizing l with
  | zero => exact .refl l
  | succ k ih =>
    unfold Local.deliverNext
    split
    · next j w hk _ =>
      obtain rfl : k = j := by simpa using hk
      repeat' (first | exact .refl l | exact attUpd_attStep l _ | exact (attUpd_attStep l _).trans (ih _) | dsimp only | split)
    · exact .refl l

theorem preload_attStep (l : Local) : AttStep l l.preload := by
  unfold Local.preload
  split
  · exact loadQueries_attStep l _ _
  · exact .refl l

/-- A step of the ATTENTION queue that does not write: its head is no ATT_OUT, or the region is not on. -/
theorem attStep_attStep (l : Local) (h : l.core.regions.attention = .on → ∀ sy x y, l.core.att.queue.head? ≠ some (.out sy x y)) :
    AttStep l l.attStep := by
  unfold Local.attStep
  split
  · exact (runAttMode_attStep l _).trans (attUpd_attStep _ _)
  · split
    · exact attUpd_attStep l _
    · exact (loadQueries_attStep l _ _).trans (attUpd_attStep _ _)
  · next hon hq => exact absurd (by rw [hq]; rfl) (h hon _ _ _)
  · dsimp only
    repeat' (first | exact .refl l | exact attUpd_attStep l _ | split)
  · dsimp only
    repeat' (first | exact .refl l | exact attUpd_attStep l _ | exact startWalk_attStep l _ _ _ | exact deliverNext_attStep _ l | split)
  · exact .refl l

end Sys2Proof.Machine
end

section
/-!
PROOF. The progress that a core's units make by themselves, as a chain of steps with an induction principle, and what it leaves: memory
where no ATT_OUT waits, the sequencer of a core that has stopped, the order of the queues.
-/

namespace Sys2Proof.Machine

/-! ### The chain of steps -/

/-- The core once its units have made progress, before switch-offs and switch-ons. -/
def Local.progress (l : Local) : Local :=
  (iterate 8 Local.attStep (iterate 16 Local.arrayStep
    (if l.core.seq.run = .stopped then l.arrUpd forceFlush else l).movePump)).preload

/-- The end of the progress: switch-offs take effect, an open sequence is abandoned, regions are asked for. -/
def settleRegions (c : Core) : Core :=
  let d := abandonOpen (applyOff c)
  { d with regions := autoWake d }

theorem pump_eq (l : Local) : l.pump = { l.progress with core := settleRegions l.progress.core } := rfl

theorem pump_mem (l : Local) : l.pump.mem = l.progress.mem := by rw [pump_eq]

/-- What holds of each step of the progress, and along chains of steps, holds of the whole. -/
theorem iterate_rel {R : Local → Local → Prop} (refl : ∀ x, R x x) (trans : ∀ x y z, R x y → R y z → R x z) {f : Local → Local}
    (hf : ∀ x, R x (f x)) (n : Nat) (l : Local) : R l (iterate n f l) := by
  induction n generalizing l with
  | zero => exact refl l
  | succ k ih => exact trans _ _ _ (hf l) (ih (f l))

theorem progress_rel {R : Local → Local → Prop} (refl : ∀ x, R x x) (trans : ∀ x y z, R x y → R y z → R x z)
    (flush : ∀ x, R x (x.arrUpd forceFlush)) (move : ∀ x, R x x.movePump) (arr : ∀ x, R x x.arrayStep) (att : ∀ x, R x x.attStep)
    (pre : ∀ x, R x x.preload) (l : Local) : R l l.progress := by
  refine trans _ _ _ (trans _ _ _ (trans _ _ _ (trans _ _ _ ?_ (move _)) (iterate_rel refl trans arr 16 _))
    (iterate_rel refl trans att 8 _)) (pre _)
  split
  · exact flush l
  · exact refl l

/-! ### The MOVE queue's step -/

theorem movePump_only (l : Local) : l.movePump.env = l.env ∧ l.movePump.mem = l.mem ∧ l.movePump.clashes = l.clashes ∧
    l.movePump.core = { l.core with moveQ := l.movePump.core.moveQ, scr := l.movePump.core.scr } := by
  have k := movePump_keeps_core l
  exact ⟨k.env, k.mem, k.clashes, k.core⟩

/-! ### A step of the ATTENTION queue -/

/-- An update of the attention state on what a read left. -/
theorem ReadKeeps.attUpd_att {l m : Local} (h : ReadKeeps l m) (f : AttState → AttState) : (m.attUpd f).core.att = f l.core.att := by
  rw [Local.attUpd, ← h.att]

theorem runAttMode_queue (l : Local) (x : Pattern) : (l.runAttMode x).core.att.queue = l.core.att.queue := by
  unfold Local.runAttMode
  rw [((cross_reads l _ _).trans (readRuns_reads _ _ _ _)).attUpd_att]

theorem loadQueries_queue (l : Local) (x : Pattern) (y : Option Pattern) : (l.loadQueries x y).core.att.queue = l.core.att.queue := by
  have h := (crossAll_reads l (attPorts (.query false x y))).trans (readRuns_reads _ 4 (patRunBytes x) (patRuns x))
  unfold Local.loadQueries
  cases y with
  | none => rw [h.attUpd_att]
  | some p => rw [(h.trans (readRuns_reads _ 4 (patRunBytes p) (patRuns p))).attUpd_att]

theorem seqError_queue (s : AttState) : (seqError s).queue = s.queue := by
  unfold seqError
  repeat' (first | rfl | split)

theorem openNext_queue (s : AttState) : (openNext s).queue = s.queue := by
  unfold openNext
  split <;> rfl

theorem endWalk_queue (e : CoreEnv) (s : AttState) (st : WalkStatus) : (endWalk e s st).queue = s.queue := by
  unfold endWalk sendCommand walkUpd
  dsimp only
  split <;> split <;> first | rfl | exact seqError_queue s

theorem walkAbandon_queue (s : AttState) : (walkAbandon s).queue = s.queue := by
  unfold walkAbandon countWalk
  split <;> rfl

theorem startWalk_queue (l : Local) (x : Pattern) (lap : BitVec 2) (word : BitVec 28) :
    (l.startWalk x lap word).core.att.queue = l.core.att.queue := by
  have h := (cross_reads l 4 (patLines x)).trans (readRuns_reads _ 4 (patRunBytes x) (patRuns x))
  have ends (f : AttState → AttState) (st : WalkStatus) (hf : ∀ s, (f s).queue = s.queue) :
      ((((l.cross 4 (patLines x)).readRuns 4 (patRunBytes x) (patRuns x)).2.attUpd fun s => endWalk l.env (f s) st).core.att.queue)
        = l.core.att.queue := by
    rw [h.attUpd_att, endWalk_queue, hf]
  unfold Local.startWalk
  refine iteInduction (motive := fun m : Local => m.core.att.queue = l.core.att.queue) (fun _ => ends _ _ fun _ => rfl) fun _ =>
    iteInduction (motive := fun m : Local => m.core.att.queue = l.core.att.queue) (fun _ => ends _ _ fun _ => rfl) fun _ => ?_
  dsimp only
  split
  · rw [(h.trans (readProbes_reads _ _)).attUpd_att]
  · rw [h.attUpd_att]

theorem deliverNext_queue (fuel : Nat) (l : Local) : (l.deliverNext fuel).core.att.queue = l.core.att.queue := by
  induction fuel generalizing l with
  | zero => rfl
  | succ k ih =>
    unfold Local.deliverNext
    split
    · next j w hk _ =>
      obtain rfl : k = j := by simpa using hk
      repeat' (first | rfl | exact endWalk_queue _ _ _ | exact ih _ | dsimp only | split)
    · rfl

/-- A write of runs changes the memory and the marks of bad parity. -/
structure WriteKeeps (l m : Local) : Prop where
  env : m.env = l.env
  reports : m.reports = l.reports
  clashes : m.clashes = l.clashes
  core : m.core = { l.core with scr := { l.core.scr with badParity := m.core.scr.badParity } }

theorem writeRuns_writes (l : Local) (starts : List Int) (runs : List (List Byte)) : WriteKeeps l (l.writeRuns starts runs) := by
  induction starts generalizing l runs with
  | nil => exact ⟨rfl, rfl, rfl, rfl⟩
  | cons a r ih =>
    cases runs with
    | nil => exact ⟨rfl, rfl, rfl, rfl⟩
    | cons b t =>
      obtain ⟨h1, h2, h3, h4⟩ := ih (l.writeScr (4 * a.toNat) b) t
      refine ⟨h1, h2, h3, ?_⟩
      rw [Local.writeRuns, h4]
      rfl

theorem runAttOut_queue (l : Local) (x : Pattern) (y : Option Pattern) : (l.runAttOut x y).core.att.queue = l.core.att.queue := by
  unfold Local.runAttOut
  split
  · rfl
  · next q hq =>
    dsimp only
    split
    · exact seqError_queue _
    · have hw (m : Local) (starts : List Int) (runs : List (List Byte)) : (m.writeRuns starts runs).core.att = m.core.att := by
        rw [(writeRuns_writes m starts runs).core]
      cases y with
      | none => simp only [Local.countNumeric, Local.attUpd, hw, (crossAll_reads l _).att]
      | some p => simp only [Local.countNumeric, Local.attUpd, hw, (crossAll_reads l _).att]

/-- A step of the ATTENTION queue leaves it, or takes its head off. -/
theorem attStep_queue (l : Local) : l.attStep.core.att.queue = l.core.att.queue ∨ l.attStep.core.att.queue = l.core.att.queue.drop 1 := by
  have popped (m : Local) (f : AttState → AttState) (hm : m.core.att.queue = l.core.att.queue) (hf : ∀ s, (f s).queue = s.queue) :
      (m.attUpd fun s => attPop (f s)).core.att.queue = l.core.att.queue.drop 1 := by
    simp only [Local.attUpd, attPop, hf, hm]
  unfold Local.attStep
  split
  · exact .inr (popped _ id (runAttMode_queue l _) fun _ => rfl)
  · refine .inr (popped _ openNext ?_ openNext_queue)
    split
    · rfl
    · exact loadQueries_queue l _ _
  · exact .inr (popped _ id (runAttOut_queue l _ _) fun _ => rfl)
  · dsimp only
    split
    · exact .inr (popped l (fun s => { s with staged := [] }) rfl fun _ => rfl)
    · split
      · exact .inr (popped l seqError rfl seqError_queue)
      · split
        · exact .inr (popped l id rfl fun _ => rfl)
        · exact .inl rfl
  · dsimp only
    split
    · split
      · exact .inr (popped l id rfl fun _ => rfl)
      · exact .inl rfl
    · split
      · exact .inr (popped l (fun s => { walkAbandon s with tiles := [], staged := [] }) rfl walkAbandon_queue)
      · split
        · exact .inl (startWalk_queue l _ _ _)
        · exact .inl (deliverNext_queue _ _)
  · exact .inl rfl

theorem preload_queue (l : Local) : l.preload.core.att.queue = l.core.att.queue := by
  unfold Local.preload
  split
  · exact loadQueries_queue l _ _
  · rfl

/-- No ATT_OUT waits in the ATTENTION queue. -/
def NoOutWaits (c : Core) : Prop := ∀ sy x y, AttOp.out sy x y ∉ c.att.queue

/-- Where no ATT_OUT waits, the progress of the units writes no byte of memory. -/
theorem progress_mem (l : Local) (h : NoOutWaits l.core) : l.progress.mem = l.mem ∧ NoOutWaits l.progress.core := by
  refine progress_rel (R := fun a b => NoOutWaits a.core → b.mem = a.mem ∧ NoOutWaits b.core) (fun _ h => ⟨rfl, h⟩) ?trans ?flush ?move
    ?arr ?att ?pre l h
  case trans => exact fun x y z hxy hyz h => ⟨(hyz (hxy h).2).1.trans (hxy h).1, (hyz (hxy h).2).2⟩
  case flush => exact fun x h => ⟨rfl, h⟩
  case move =>
    intro x h
    obtain ⟨-, hmem, -, hcore⟩ := movePump_only x
    exact ⟨hmem, by rw [hcore]; exact h⟩
  case arr =>
    intro x h
    have k := (arrayStep_arrStep x).reads
    refine ⟨k.mem, ?_⟩
    rw [NoOutWaits, k.att]
    exact h
  case att =>
    intro x h
    refine ⟨(attStep_attStep x fun _ sy p y hh => h sy p y (List.mem_of_head? hh)).reads.mem, fun sy p y hmem => h sy p y ?_⟩
    rcases attStep_queue x with hq | hq
    · rwa [hq] at hmem
    · rw [hq] at hmem
      exact List.mem_of_mem_drop hmem
  case pre =>
    intro x h
    refine ⟨(preload_attStep x).reads.mem, ?_⟩
    rw [NoOutWaits, preload_queue]
    exact h

theorem pump_mem_of_noOut {l : Local} (h : NoOutWaits l.core) : l.pump.mem = l.mem := by
  rw [pump_mem, (progress_mem l h).1]

end Sys2Proof.Machine
end

section
/-!
PROOF. What each slot of a word leaves, what legality says of the word, and the statements about the frame of a word, scalar memory, END,
marks and illegal words.
-/

namespace Sys2Proof.Machine

/-! ### Legal words -/

theorem decodeWord_slots {r : RosterWord} {w : Slots} (h : decodeWord r = some w) : rawSlots r = ⟨some w.c, some w.m, some w.a, some w.v⟩ := by
  unfold decodeWord at h
  split at h
  · next c m a v hc hm ha hv =>
    obtain rfl := Option.some.inj h
    simp only [rawSlots, hc, hm, ha, hv]
  · cases h

/-- A legal word stands at the core's position, decodes, and no slot of it is illegal. -/
theorem legalWord_some {l : Local} {w : Slots} (h : legalWord l = some w) :
    ∃ r, lookup l.core.seq = .word r ∧ illegalSlot l r = none ∧ rawSlots r = ⟨some w.c, some w.m, some w.a, some w.v⟩ := by
  unfold legalWord at h
  split at h
  · next r hr =>
    split at h
    · next hl => exact ⟨r, hr, hl, decodeWord_slots h⟩
    · cases h
  · cases h

theorem illegalSlot_none {l : Local} {r : RosterWord} (h : illegalSlot l r = none) :
    badC l (rawSlots r) = false ∧ badM l (rawSlots r) = false ∧ badA l (rawSlots r) = false ∧ badV l (rawSlots r) = false := by
  unfold illegalSlot at h
  dsimp only at h
  split_ifs at h
  simp_all

/-- The slots of a legal word meet the conditions on their operands; an END or STEP_MARK stands alone in its word. -/
structure LegalSlots (l : Local) (w : Slots) : Prop where
  c : legalC l w.c = true
  m : legalM l w.m = true
  a : legalA (markView l (some w.c)) w.a = true
  v : legalV l w.v = true
  alone : w.c = .endRoster ∨ w.c = .stepMark → w.m = .nop ∧ w.a = .nop ∧ w.v = .nop

theorem legalSlots {l : Local} {w : Slots} (h : legalWord l = some w) : LegalSlots l w := by
  obtain ⟨r, -, hl, hr⟩ := legalWord_some h
  obtain ⟨hc, hm, ha, hv⟩ := illegalSlot_none hl
  rw [hr] at hc hm ha hv
  simp only [badC, badM, badA, badV, Bool.or_eq_false_iff, Bool.not_eq_false'] at hc hm ha hv
  refine ⟨hc.1.1.1, hm.1.1, ha.1, hv.1, fun hends => ?_⟩
  have halone := hc.1.1.2
  rcases hends with he | he <;> simpa [aloneBroken, he, and_assoc] using halone

/-! ### What each slot leaves -/

theorem markedBy_mem (l : Local) (w : Slots) : (l.markedBy w).mem = l.mem := by
  unfold Local.markedBy
  dsimp only
  repeat' (first | rfl | split)

theorem markedBy_env (l : Local) (w : Slots) : (l.markedBy w).env = l.env := by
  unfold Local.markedBy
  dsimp only
  repeat' (first | rfl | split)

/-- A mark leaves the queues, the regions and the credit windows, but for the vector unit's clear. -/
theorem takeMark_core (l : Local) (c : COp) (k : Core) :
    takeMark l c k = { k with
      seq := (takeMark l c k).seq, step := (takeMark l c k).step, ctrl := (takeMark l c k).ctrl, vec := (takeMark l c k).vec,
      arr := { k.arr with current := (takeMark l c k).arr.current }, att := { k.att with issue := (takeMark l c k).att.issue },
      scr := (takeMark l c k).scr } := by
  by_cases h : markIsNop k = true
  · simp [takeMark, h]
  · have hf : markIsNop k = false := by simpa using h
    cases c with
    | lapMark =>
      rw [takeMark_lapMark l k hf, applyControls, markBank_core]
      split <;> rfl
    | stepMark => rw [takeMark_stepMark l k hf]; rfl
    | _ => simp [takeMark]

theorem markedBy_core (l : Local) (w : Slots) :
    (l.markedBy w).core = { l.core with
      seq := (l.markedBy w).core.seq, step := (l.markedBy w).core.step, ctrl := (l.markedBy w).core.ctrl,
      vec := (l.markedBy w).core.vec, arr := { l.core.arr with current := (l.markedBy w).core.arr.current },
      att := { l.core.att with issue := (l.markedBy w).core.att.issue }, scr := (l.markedBy w).core.scr } := by
  have k := takeMark_core l w.c l.core
  unfold Local.markedBy
  dsimp only
  split
  · split
    · exact k
    · dsimp only
      rw [k]
  · rfl

/-- What the C slot leaves: all but the sequencer, the parity mark of the step, the scratchpad's state and memory. -/
theorem applyC_core (l v : Local) (c : COp) :
    (l.applyC v c).env = l.env ∧ (l.applyC v c).core = { l.core with
      seq := (l.applyC v c).core.seq, step := { l.core.step with parity := (l.applyC v c).core.step.parity },
      scr := (l.applyC v c).core.scr } := by
  have read (port : Nat) (lines : List Nat) (off len : Nat) := (cross_reads l port lines).trans (readScr_reads _ port off len)
  have write (lines : List Nat) (off : Nat) (bs : List Byte) :
      ((l.cross 14 lines).writeScr off bs).env = l.env ∧ ((l.cross 14 lines).writeScr off bs).core =
        { l.core with scr := ((l.cross 14 lines).writeScr off bs).core.scr } := by
    have k := cross_reads l 14 lines
    obtain ⟨_, hc⟩ : _ ∧ (l.cross 14 lines).core = { l.core with scr := (l.cross 14 lines).core.scr } := by
      unfold Local.cross
      split <;> exact ⟨trivial, rfl⟩
    refine ⟨k.env, ?_⟩
    simp only [Local.writeScr]
    rw [hc]
  cases c with
  | ldw sd sa imm | ldd sd sa imm =>
    simp only [Local.applyC, Local.load, Local.setS, Local.seqr]
    refine ⟨(read _ _ _ _).env, ?_⟩
    rw [(read _ _ _ _).core]
  | patLoad sa first number =>
    simp only [Local.applyC, Local.patLoad, Local.seqr]
    refine ⟨(read _ _ _ _).env, ?_⟩
    rw [(read _ _ _ _).core]
  | stw sd sa imm | std sd sa imm =>
    simp only [Local.applyC, Local.store]
    obtain ⟨he, hc⟩ := write (linesOf (wordAddr (v.s sa) imm) ((leBytes _ (v.s sd).toNat).length / 4)) (4 * wordAddr (v.s sa) imm)
      (leBytes _ (v.s sd).toNat)
    refine ⟨he, ?_⟩
    rw [hc]
  | _ => exact ⟨rfl, rfl⟩

theorem applyM_only (l v : Local) (m : MOp) :
    l.applyM v m = { l with core := { l.core with
      seq := (l.applyM v m).core.seq, step := { l.core.step with opCount := (l.applyM v m).core.step.opCount },
      moveQ := (l.applyM v m).core.moveQ, regions := (l.applyM v m).core.regions } } := by
  unfold Local.applyM
  dsimp only
  repeat' (first | rfl | split)

theorem applyA_only (l v : Local) (a : AOp) :
    l.applyA v a = { l with core := { l.core with arr := (l.applyA v a).core.arr, att := (l.applyA v a).core.att } } := by
  cases a <;> rfl

theorem applyV_only (l v : Local) (o : VOp) :
    l.applyV v o = { l with core := { l.core with vec := (l.applyV v o).core.vec } } := by
  unfold Local.applyV
  split <;> rfl

theorem applyOffs_only (l : Local) (m : MOp) :
    l.applyOffs m = { l with core := { l.core with
      arr := (l.applyOffs m).core.arr, att := (l.applyOffs m).core.att, vec := (l.applyOffs m).core.vec } } := by
  unfold Local.applyOffs enterOff
  dsimp only
  repeat' (first | rfl | split)

theorem applyOffs_none (l : Local) {m : MOp} (h : offMask m = 0) : l.applyOffs m = l := if_pos h

theorem advance_only (l v : Local) (c : COp) :
    l.advance v c = { l with core := { l.core with
      seq := (l.advance v c).core.seq, step := { l.core.step with treatMarkAsNop := false } } } := rfl

/-- A roster fault leaves all but the run state, the fault registers and the gather queue that it flushes. -/
theorem faultStop_only (l : Local) (kind slot : Nat) (word : BitVec 28) :
    l.faultStop kind slot word = { l with
      reports := (l.faultStop kind slot word).reports,
      core := { l.core with
        seq := { l.core.seq with
          fault := (l.faultStop kind slot word).core.seq.fault, run := (l.faultStop kind slot word).core.seq.run,
          stoppedByFault := (l.faultStop kind slot word).core.seq.stoppedByFault },
        arr := forceFlush l.core.arr } } := by
  unfold Local.faultStop Local.rosterFault
  split <;> rfl

/-- What the notes of a word's faults and clash leave: all but the run state, the fault registers, the gather queue and the clash count. -/
structure NoteKeeps (l m : Local) : Prop where
  env : m.env = l.env
  mem : m.mem = l.mem
  core : m.core = { l.core with
    seq := { l.core.seq with fault := m.core.seq.fault, run := m.core.seq.run, stoppedByFault := m.core.seq.stoppedByFault },
    arr := m.core.arr }
  arr : m.core.arr = l.core.arr ∨ m.core.arr = forceFlush l.core.arr ∨ m.core.arr = forceFlush (forceFlush l.core.arr)

theorem faultStop_notes (l : Local) (kind slot : Nat) (word : BitVec 28) :
    (l.faultStop kind slot word).env = l.env ∧ (l.faultStop kind slot word).mem = l.mem ∧
    ((l.faultStop kind slot word).core = { l.core with
      seq := { l.core.seq with
        fault := (l.faultStop kind slot word).core.seq.fault, run := (l.faultStop kind slot word).core.seq.run,
        stoppedByFault := (l.faultStop kind slot word).core.seq.stoppedByFault },
      arr := forceFlush l.core.arr }) := by
  rw [faultStop_only]
  exact ⟨rfl, rfl, rfl⟩

/-- The core once its word has issued and its faults and its clash are noted, before its units make progress. -/
def Local.acted (l : Local) (w : Slots) : Local :=
  (((l.atIssue w).actWord (l.acts w)).noteFaults (l.atIssue w) w).noteClash (l.atIssue w) (l.acts w)

theorem issueWord_eq {l : Local} {w : Slots} (h : holdsWord (l.reach w) w = false) : l.issueWord w = (l.acted w).pump :=
  issueWord_ready l w h

theorem noteFaults_cases (l v : Local) (w : Slots) : l.noteFaults v w = l ∨ ∃ kind slot word, l.noteFaults v w = l.faultStop kind slot word := by
  unfold Local.noteFaults
  repeat' (first | exact .inl rfl | exact .inr ⟨_, _, _, rfl⟩ | split)

theorem noteClash_cases (l v : Local) (w : Slots) :
    ∃ c, l.noteClash v w = { l with clashes := c } ∨
      ∃ kind slot word, l.noteClash v w = Local.faultStop { l with clashes := c } kind slot word := by
  unfold Local.noteClash
  dsimp only
  split
  · exact ⟨l.clashes, .inl rfl⟩
  · split
    · exact ⟨l.clashes + 1, .inr ⟨_, _, _, rfl⟩⟩
    · exact ⟨l.clashes + 1, .inl rfl⟩

/-- Faults and clashes noted after a word. -/
theorem acted_notes (l : Local) (w : Slots) : NoteKeeps ((l.atIssue w).actWord (l.acts w)) (l.acted w) := by
  unfold Local.acted
  generalize (l.atIssue w).actWord (l.acts w) = x
  obtain hf | ⟨k1, s1, w1, hf⟩ := noteFaults_cases x (l.atIssue w) w <;>
  obtain ⟨c, hn | ⟨k2, s2, w2, hn⟩⟩ := noteClash_cases (x.noteFaults (l.atIssue w) w) (l.atIssue w) (l.acts w)
  · rw [hn, hf]
    exact ⟨rfl, rfl, rfl, .inl rfl⟩
  · rw [hn, hf, faultStop_only]
    exact ⟨rfl, rfl, rfl, .inr (.inl rfl)⟩
  · rw [hn, hf, faultStop_only]
    exact ⟨rfl, rfl, rfl, .inr (.inl rfl)⟩
  · rw [hn, hf, faultStop_only, faultStop_only x]
    exact ⟨rfl, rfl, rfl, .inr (.inr rfl)⟩

theorem actWord_mem (l : Local) (w : Slots) : (l.actWord w).mem = (l.slotC w).mem := by
  rw [actWord_eq, advance_only, applyOffs_only, Local.slotV, applyV_only, Local.slotA, applyA_only, Local.slotM, applyM_only]

theorem actWord_env (l : Local) (w : Slots) : (l.actWord w).env = l.env := by
  rw [actWord_eq, advance_only, applyOffs_only, Local.slotV, applyV_only, Local.slotA, applyA_only, Local.slotM, applyM_only]
  dsimp only
  rw [Local.slotC, (applyC_core _ _ _).1, markedBy_env]

theorem acted_mem (l : Local) (w : Slots) : (l.acted w).mem = (l.afterC w).mem := by
  rw [(acted_notes l w).mem, actWord_mem]
  rfl

/-! ### No ATT_OUT waits -/

theorem slotC_att (l : Local) (w : Slots) : (l.slotC w).core.att = { l.core.att with issue := (l.slotC w).core.att.issue } := by
  rw [Local.slotC, (applyC_core _ _ _).2, markedBy_core]

theorem slotM_att (l : Local) (w : Slots) : (l.slotM w).core.att = (l.slotC w).core.att := by
  rw [Local.slotM, applyM_only]

theorem acted_att (l : Local) (w : Slots) : (l.acted w).core.att = (((l.atIssue w).slotV (l.acts w)).applyOffs (l.acts w).m).core.att := by
  rw [(acted_notes l w).core, actWord_eq, advance_only]

theorem applyOffs_att_queue (l : Local) (m : MOp) :
    (l.applyOffs m).core.att.queue = l.core.att.queue ∨ (l.applyOffs m).core.att.queue = l.core.att.queue ++ [.off] := by
  unfold Local.applyOffs enterOff
  dsimp only
  repeat' (first | exact .inl rfl | exact .inr rfl | split)

theorem applyA_noOut {l v : Local} {a : AOp} (h : NoOutWaits l.core) (ha : ∀ sy x y, a ≠ .attOut sy x y) :
    NoOutWaits (l.applyA v a).core := by
  intro sy x y
  cases a with
  | attOut sy x y => exact absurd rfl (ha sy x y)
  | _ => simpa [Local.applyA, Local.attUpd, Local.arrUpd] using h sy x y

theorem acts_a (l : Local) (w : Slots) : (l.acts w).a = w.a ∨ (l.acts w).a = .nop := by
  unfold Local.acts issuing
  dsimp only
  split
  · exact .inr rfl
  · exact .inl rfl

/-- A word that holds no ATT_OUT leaves none waiting where none waited before. -/
theorem acted_noOut {l : Local} {w : Slots} (h : NoOutWaits l.core) (ha : ∀ sy x y, w.a ≠ .attOut sy x y) :
    NoOutWaits (l.acted w).core := by
  have hm : NoOutWaits ((l.atIssue w).slotM (l.acts w)).core := by
    intro sy x y
    rw [slotM_att, slotC_att, atIssue_att]
    exact h sy x y
  have hA : NoOutWaits ((l.atIssue w).slotA (l.acts w)).core := by
    refine applyA_noOut hm fun sy x y => ?_
    rcases acts_a l w with e | e <;> rw [e]
    · exact ha sy x y
    · exact AOp.noConfusion
  intro sy x y
  rw [acted_att]
  have hV : ((l.atIssue w).slotV (l.acts w)).core.att = ((l.atIssue w).slotA (l.acts w)).core.att := by
    rw [Local.slotV, applyV_only]
  rcases applyOffs_att_queue ((l.atIssue w).slotV (l.acts w)) (l.acts w).m with e | e <;> rw [e, hV]
  · exact hA sy x y
  · simpa using hA sy x y

/-- Where no ATT_OUT waits or comes with the word, memory is as the C slot leaves it. -/
theorem issueWord_mem {l : Local} {w : Slots} (ready : holdsWord (l.reach w) w = false) (h : NoOutWaits l.core)
    (ha : ∀ sy x y, w.a ≠ .attOut sy x y) : (l.issueWord w).mem = (l.afterC w).mem := by
  rw [issueWord_eq ready, pump_mem_of_noOut (acted_noOut h ha), acted_mem]

end Sys2Proof.Machine
end

section
/-!
PROOF. The statements about the frame of a word and about END.
-/

namespace Sys2Proof.Machine

/-! ### The frame of a word -/

theorem leBytes_length (n v : Nat) : (leBytes n v).length = n := by
  induction n generalizing v with
  | zero => rfl
  | succ k ih => simp [leBytes, ih]

theorem leBytes_getElem (n v i : Nat) (h : i < (leBytes n v).length) : (leBytes n v)[i] = BitVec.ofNat 8 (v / 256 ^ i) := by
  induction n generalizing v i with
  | zero => simp [leBytes] at h
  | succ k ih =>
    cases i with
    | zero => simp [leBytes]
    | succ j =>
      simp only [leBytes, List.getElem_cons_succ]
      rw [ih, Nat.div_div_eq_div_mul, pow_succ, Nat.mul_comm]

/-- A write of whole words to the scratchpad. -/
theorem writeScr_words (l : Local) (off : Nat) {bs : List Byte} (h : bs.length % 4 = 0) :
    (l.writeScr off bs).mem = memWrite l.mem (scratchAddr l.env.n off) bs := by
  simp [Local.writeScr, h]

theorem store_mem (l : Local) (word : Nat) {bs : List Byte} (h : bs.length % 4 = 0) :
    (l.store word bs).mem = memWrite l.mem (scratchAddr l.env.n (4 * word)) bs := by
  have k := cross_reads l 14 (linesOf word (bs.length / 4))
  rw [Local.store, writeScr_words _ _ h, k.env, k.mem]

/-- A C slot that is no store writes no memory. -/
theorem applyC_mem (l v : Local) {c : COp} (h4 : ∀ sd sa imm, c ≠ .stw sd sa imm) (h8 : ∀ sd sa imm, c ≠ .std sd sa imm) :
    (l.applyC v c).mem = l.mem := by
  cases c with
  | stw sd sa imm => exact absurd rfl (h4 _ _ _)
  | std sd sa imm => exact absurd rfl (h8 _ _ _)
  | ldw sd sa imm | ldd sd sa imm => exact ((cross_reads l _ _).trans (readScr_reads _ _ _ _)).mem
  | patLoad sa first number => exact ((cross_reads l _ _).trans (readScr_reads _ _ _ _)).mem
  | _ => rfl

/-- The memory that the C slot leaves, where it stores. -/
theorem afterC_mem_stw {l : Local} {w : Slots} {sd sa : RegId} {imm : BitVec 16} (hc : w.c = .stw sd sa imm) :
    (l.afterC w).mem = memWrite l.mem (scratchAddr l.env.n (4 * wordAddr (l.s sa) imm)) (leBytes 4 (l.s sd).toNat) := by
  rw [afterC_unmarked l w (by simp [hc]), hc, Local.applyC, store_mem _ _ (by rw [leBytes_length])]
  simp [Local.seqr]

theorem afterC_mem_std {l : Local} {w : Slots} {sd sa : RegId} {imm : BitVec 16} (hc : w.c = .std sd sa imm) :
    (l.afterC w).mem = memWrite l.mem (scratchAddr l.env.n (4 * wordAddr (l.s sa) imm)) (leBytes 8 (l.s sd).toNat) := by
  rw [afterC_unmarked l w (by simp [hc]), hc, Local.applyC, store_mem _ _ (by rw [leBytes_length])]
  simp [Local.seqr]

theorem afterC_mem_other {l : Local} {w : Slots} (h4 : ∀ sd sa imm, w.c ≠ .stw sd sa imm) (h8 : ∀ sd sa imm, w.c ≠ .std sd sa imm) :
    (l.afterC w).mem = l.mem := by
  rw [Local.afterC, Local.slotC, acts_c, applyC_mem _ _ h4 h8, markedBy_mem, atIssue_mem]

/-- Memory outside the words that the C slot stores to is as before the word. -/
theorem afterC_memGet {s : State} {n : Nat} {w : Slots} {x : Nat} (h : s.storesAt n w x = false) :
    memGet ((s.localOf n).afterC w).mem x = memGet s.mem x := by
  have outside (a len : Nat) (hx : (decide (a ≤ x) && decide (x < a + len)) = false) : x < a ∨ a + len ≤ x := by
    rw [Bool.and_eq_false_iff, decide_eq_false_iff_not, decide_eq_false_iff_not] at hx
    omega
  by_cases h4 : ∃ sd sa imm, w.c = .stw sd sa imm
  · obtain ⟨sd, sa, imm, hc⟩ := h4
    simp only [State.storesAt, hc] at h
    rw [afterC_mem_stw hc, memGet_memWrite_out _ _ _ _ (by rw [leBytes_length]; exact outside _ _ h)]
    rfl
  · by_cases h8 : ∃ sd sa imm, w.c = .std sd sa imm
    · obtain ⟨sd, sa, imm, hc⟩ := h8
      simp only [State.storesAt, hc] at h
      rw [afterC_mem_std hc, memGet_memWrite_out _ _ _ _ (by rw [leBytes_length]; exact outside _ _ h)]
      rfl
    · rw [afterC_mem_other (fun sd sa imm e => h4 ⟨sd, sa, imm, e⟩) (fun sd sa imm e => h8 ⟨sd, sa, imm, e⟩)]
      rfl

/-- What a unit of core `n` did, with the end of the set behind it, in the frame of the module. -/
theorem putLocal_checkSet_frame (s : State) (n : Nat) (l : Local) :
    let t := (s.putLocal n l).checkSet
    (∀ m, m ≠ n → t.core m = s.core m) ∧ (∀ p, p ≠ n / 64 → t.panel p = s.panel p) ∧ t.mem = l.mem ∧
    t = { s with cores := t.cores, mem := t.mem, panels := t.panels, log := t.log, rings := t.rings, host := t.host, out := t.out,
                 set := t.set } := by
  have hset := (State.checkSet_hostOnly (s.putLocal n l)).eq
  have hput := putLocal_only s n l
  refine ⟨fun m hm => ?_, fun p hp => ?_, ?_, ?_⟩
  · rw [State.checkSet_core, putLocal_core, if_neg hm]
  · rw [State.panel, hset]
    simp only [State.putLocal]
    rw [State.fileAll_only]
    dsimp only
    split
    · rfl
    · exact mapGet_mapPut_other _ _ _ _ _ hp
  · rw [State.checkSet_mem, putLocal_mem]
  · rw [hset, hput]

/-- What the issue logic of a core makes of a row: nothing, or one of its legal word's two ways. -/
theorem issueOn_cases (s : State) (n : CoreId) (has : Slots → Bool) :
    s.issueOn n has = s ∨ s.issueOn n has = s.checkSet ∨ ∃ l, s.issueOn n has = (s.putLocal n.val l).checkSet ∧
      (l = s.localOf n.val ∨ ∃ w, legalWord (s.localOf n.val) = some w ∧ l = (s.localOf n.val).issueWord w) := by
  unfold State.issueOn
  split
  · exact .inl rfl
  · by_cases hup : s.coreUp n.val = true
    · rw [State.onCore_up _ _ _ hup]
      refine .inr (.inr ⟨_, rfl, ?_⟩)
      unfold Local.issue
      split
      · split
        · next w hw =>
          split
          · exact .inr ⟨w, hw, rfl⟩
          · exact .inl rfl
        · exact .inl rfl
      · exact .inl rfl
    · rw [State.onCore_down _ _ _ (by simpa using hup)]
      exact .inr (.inl rfl)

/-- Memory after a legal word at the issue logic, where no ATT_OUT waits or comes with it. -/
theorem issueWord_memGet {s : State} {n : Nat} {w : Slots} (h : NoOutWaits (s.core n)) (ha : ∀ sy x y, w.a ≠ .attOut sy x y) {x : Nat}
    (hx : s.storesAt n w x = false) : memGet ((s.localOf n).issueWord w).mem x = memGet s.mem x := by
  by_cases held : holdsWord ((s.localOf n).reach w) w = true
  · have hr : NoOutWaits ((s.localOf n).reach w).core := by
      rw [reach_only]
      exact h
    have : (s.localOf n).issueWord w = ((s.localOf n).reach w).pump := by simp [Local.issueWord, held]
    rw [this, pump_mem_of_noOut hr, reach_only]
    rfl
  · rw [issueWord_mem (by simpa using held) h ha, afterC_memGet hx]

/-! ### Quiet units -/

/-- Nothing waits in the ARRAY, gather and ATTENTION queues. -/
structure QuietUnits (c : Core) : Prop where
  array : c.arr.queue = []
  gather : c.arr.gather = []
  attention : c.att.queue = []

theorem forceFlush_nothing {a : ArrayState} (hq : a.queue = []) (hg : a.gather = []) : forceFlush a = a := by
  simp [forceFlush, flushGather, hg, gathersWait, hq]

theorem iterate_fixed {α : Type} {f : α → α} {x : α} (h : f x = x) (n : Nat) : iterate n f x = x := by
  induction n with
  | zero => rfl
  | succ k ih => rw [iterate, h, ih]

theorem arrayStep_of_empty {l : Local} (h : l.core.arr.queue = []) : l.arrayStep = l := by
  simp only [Local.arrayStep, h]

theorem attStep_of_empty {l : Local} (h : l.core.att.queue = []) : l.attStep = l := by
  unfold Local.attStep
  rw [h]
  cases l.core.regions.attention <;> rfl

theorem preload_of_empty {l : Local} (h : l.core.att.queue = []) : l.preload = l := by
  unfold Local.preload
  rw [h]
  split
  · next hq => exact absurd hq (by simp [nextQuery])
  · rfl

/-- Where nothing waits in those queues, the MOVE queue alone makes progress. -/
theorem progress_of_quiet {l : Local} (h : QuietUnits l.core) : l.progress = l.movePump := by
  have hf : (if l.core.seq.run = .stopped then l.arrUpd forceFlush else l) = l := by
    split
    · rw [Local.arrUpd, forceFlush_nothing h.array h.gather]
    · rfl
  obtain ⟨-, -, -, hc⟩ := movePump_only l
  have hq : l.movePump.core.arr.queue = [] := by rw [hc]; exact h.array
  have ht : l.movePump.core.att.queue = [] := by rw [hc]; exact h.attention
  rw [Local.progress, hf, iterate_fixed (arrayStep_of_empty hq), iterate_fixed (attStep_of_empty ht), preload_of_empty ht]

theorem movePump_of_empty {l : Local} (h : l.core.moveQ = []) : l.movePump = l := by
  have : l.core = { l.core with moveQ := [] } := by rw [← h]
  simp only [Local.movePump, h, judgeAll, Local.movUpd, List.dropWhile_nil]
  rw [← this]

theorem settleRegions_seq (c : Core) : (settleRegions c).seq = c.seq := by
  unfold settleRegions
  rw [abandonOpen_core]
  rfl

theorem pump_seq_of_quiet {l : Local} (h : QuietUnits l.core) : l.pump.core.seq = l.core.seq := by
  rw [pump_eq, progress_of_quiet h]
  dsimp only
  rw [settleRegions_seq, (movePump_only l).2.2.2]

/-! ### The end of a set -/

theorem Ring.release_heads_back (r : Ring) : r.release.use = .opened ∨ r.release.toOpen = true := by
  unfold Ring.release
  split
  · next h => exact .inl h
  · exact .inr rfl

theorem endSet_released (s : State) (status : Nat) :
    (s.endSet status).set = ActiveSet.none ∧ ∀ e ∈ (s.endSet status).rings, e.2.use = .opened ∨ e.2.toOpen = true := by
  refine ⟨rfl, fun e he => ?_⟩
  obtain ⟨f, -, rfl⟩ := List.mem_map.mp he
  exact f.2.release_heads_back

theorem allEnded_iff (s : State) : s.allEnded = true ↔ s.set.running = true ∧ ∀ m ∈ s.set.cores, (s.core m).seq.run = .ended := by
  simp [State.allEnded]

theorem checkSet_set (s : State) :
    if s.set.running = true ∧ ∀ m ∈ s.set.cores, (s.core m).seq.run = .ended then
      s.checkSet.set = ActiveSet.none ∧ ∀ e ∈ s.checkSet.rings, e.2.use = .opened ∨ e.2.toOpen = true
    else s.checkSet.set = s.set := by
  unfold State.checkSet
  split
  · next h => rw [if_pos ((allEnded_iff s).mpr h)]; exact endSet_released _ _
  · next h => rw [if_neg fun e => h ((allEnded_iff s).mp e)]

/-- The queues of a core whose END issues are empty. -/
theorem quiet_of_end {l : Local} {w : Slots} (ready : holdsWord (l.reach w) w = false) (hc : w.c = .endRoster) :
    QuietUnits (l.reach w).core := by
  have hp : passesC (l.reach w) w.c = true := by simpa using (Bool.or_eq_false_iff.mp ready).2
  rw [hc] at hp
  simp only [passesC, drained, Bool.and_eq_true, List.isEmpty_iff] at hp
  obtain ⟨⟨⟨⟨⟨-, harr⟩, -⟩, hg⟩, hatt⟩, -⟩ := hp
  exact ⟨harr, hg, hatt⟩

/-- An END, alone in its word, does nothing but end its core. -/
theorem acted_of_end {l : Local} {w : Slots} (legal : LegalSlots l w) (hc : w.c = .endRoster) :
    l.acted w = (l.atIssue w).advance (l.atIssue w) .endRoster := by
  obtain ⟨hm, ha, hv⟩ := legal.alone (.inl hc)
  have hpriv : l.core.seq.priv = false := by
    have := legal.c
    rw [hc] at this
    simp only [legalC, Bool.and_eq_true, Bool.not_eq_true'] at this
    exact this.1
  have hw : w = ⟨.endRoster, .nop, .nop, .nop⟩ := by
    cases w
    simp_all
  have hi : l.acts w = w := by
    rw [hw]
    simp [Local.acts, issuing, privateM, unmappedM, presentsRing, privateA, hpriv]
  have hmark : (l.atIssue w).markedBy w = l.atIssue w := by
    rw [markedBy_unmarked _ _ (.inl (by simp [hc]))]
    rw [hw]
    rfl
  have hact : (l.atIssue w).actWord w = (l.atIssue w).advance (l.atIssue w) .endRoster := by
    rw [actWord_eq, Local.slotV, Local.slotA, Local.slotM, Local.slotC, hmark, hc, hm, ha, hv]
    rfl
  have hnoclash (v : Local) : clashSlot v (groupsC v w.c) (groupsM v w.m) (groupsA v w.a) (groupsV v w.v) = none := by
    rw [hw]
    rfl
  rw [Local.acted, hi, hact, Local.noteFaults]
  simp only [hm, ha, privateM, privateA, presentsRing, unmappedM, Bool.and_false, atIssue_seq, hpriv,
    Bool.false_eq_true, if_false, Local.noteClash]
  split
  · rfl
  · next slot h => exact absurd h (by rw [← hm, ← ha, hnoclash]; exact nofun)

end Sys2Proof.Machine

namespace Sys2Proof.Proofs

open Sys2Proof Sys2Proof.Machine

/-- Settles O5: whatever the issue logic does comes back through one core, and only a C slot's store or an ATT_OUT writes memory. -/
theorem wordFrame : Obligations.WordFrame := by
  unfold Obligations.WordFrame
  intro i n o s t row hexec
  rw [exec_wordRow row] at hexec
  obtain rfl := Host.Outcome.next.inj hexec
  rcases issueOn_cases s n (fun w => w.holds o) with h | h | ⟨l, h, hl⟩
  · rw [h]
    exact ⟨fun _ _ => rfl, fun _ _ => rfl, fun _ => ⟨fun _ => rfl, fun _ _ _ _ _ => rfl⟩, rfl⟩
  · rw [h]
    have hset := (State.checkSet_hostOnly s).eq
    refine ⟨fun m _ => s.checkSet_core m, fun p _ => by rw [State.panel, hset]; rfl,
      fun _ => ⟨fun _ => s.checkSet_mem, fun _ _ _ _ _ => by rw [s.checkSet_mem]⟩, ?_⟩
    rw [hset]
  · rw [h]
    obtain ⟨hcores, hpanels, hmem, hframe⟩ := putLocal_checkSet_frame s n.val l
    refine ⟨hcores, hpanels, fun noOut => ⟨fun hnone => ?_, fun w hw ha x hx => ?_⟩, hframe⟩
    · rcases hl with rfl | ⟨w, hw, rfl⟩
      · exact hmem
      · rw [hnone] at hw
        cases hw
    · rw [hmem]
      rcases hl with rfl | ⟨w', hw', rfl⟩
      · rfl
      · obtain rfl : w = w' := by rw [hw] at hw'; exact Option.some.inj hw'
        exact issueWord_memGet noOut ha hx

/-- Settles O9: END stands alone in its word and waits for empty queues, so nothing but its own advance happens to the core. -/
theorem endCompletesSet : Obligations.EndCompletesSet := by
  unfold Obligations.EndCompletesSet
  intro n s w h hc
  have hrun : ((s.localOf n.val).issueWord w).core.seq.run = .ended := by
    have quiet := quiet_of_end h.ready hc
    have hq : QuietUnits ((s.localOf n.val).acted w).core := by
      rw [acted_of_end (legalSlots h.word) hc, advance_only, Local.atIssue, onBeat_only]
      exact ⟨quiet.array, quiet.gather, quiet.attention⟩
    rw [issueWord_eq h.ready, pump_seq_of_quiet hq, acted_of_end (legalSlots h.word) hc, advance_seq, if_pos rfl]
  refine ⟨_, exec_of_issues_c h rfl hc, by rw [State.issued_core, hrun], ?_⟩
  have key := checkSet_set (s.putLocal n.val ((s.localOf n.val).issueWord w))
  have hset : (s.putLocal n.val ((s.localOf n.val).issueWord w)).set = s.set := by rw [putLocal_only]
  have hcores : (∀ m ∈ s.set.cores, ((s.putLocal n.val ((s.localOf n.val).issueWord w)).core m).seq.run = .ended) ↔
      ∀ m ∈ s.set.cores, m = n.val ∨ (s.core m).seq.run = .ended := by
    refine forall_congr' fun m => imp_congr_right fun _ => ?_
    rw [putLocal_core]
    split
    · next he => simp [he, hrun]
    · next he => simp [he]
  simp only [hset, hcores] at key
  exact key

end Sys2Proof.Proofs
end

section
/-!
PROOF. The statements about scalar loads and stores, counters and pattern loads, and about marks and the segments of R62.
-/

namespace Sys2Proof.Machine

/-! ### Runs of memory -/

theorem memRead_add (m : List Host.Cell) (a i j : Nat) : memRead m a (i + j) = memRead m a i ++ memRead m (a + i) j := by
  induction i generalizing a with
  | zero => simp [memRead]
  | succ k ih =>
    rw [show k + 1 + j = (k + j) + 1 by omega, memRead, ih, memRead, List.cons_append, show a + 1 + k = a + (k + 1) by omega]

theorem chunks_succ {α : Type} (n f : Nat) {l : List α} (h : l ≠ []) : chunks n (f + 1) l = l.take n :: chunks n f (l.drop n) := by
  cases l with
  | nil => exact absurd rfl h
  | cons a r => rfl

/-- Memory read in equal runs. -/
theorem chunks_memRead (m : List Host.Cell) (a len count : Nat) (hlen : 0 < len) :
    chunks len count (memRead m a (len * count)) = (List.range count).map fun k => memRead m (a + len * k) len := by
  induction count generalizing a with
  | zero => rfl
  | succ k ih =>
    have first : (memRead m a len).length = len := memRead_length _ _ _
    have hne : memRead m a len ++ memRead m (a + len) (len * k) ≠ [] := by
      refine List.append_ne_nil_of_left_ne_nil (List.ne_nil_of_length_pos ?_) _
      omega
    rw [show len * (k + 1) = len + len * k by rw [Nat.mul_succ, Nat.add_comm], memRead_add, chunks_succ _ _ hne,
      List.take_left' first, List.drop_left' first, ih, List.range_succ_eq_map, List.map_cons, List.map_map]
    simp [Function.comp_def, Nat.mul_succ, Nat.add_comm len, Nat.add_assoc]

/-! ### Loads and stores -/

theorem scr_of_mem {x l : Local} (henv : x.env = l.env) (hmem : x.mem = l.mem) (w len : Nat) :
    x.scr (4 * w) len = memRead l.mem (scratchAddr l.env.n (4 * w)) len := by
  rw [Local.scr, henv, hmem]

/-- A C slot that reads `len` bytes of the scratchpad into SD. -/
theorem load_regs (x : Local) (sd : RegId) (word len : Nat) :
    (x.load sd word len).core.seq.regs =
      regPut x.core.seq.regs sd (BitVec.ofNat 64 (leNat (memRead x.mem (scratchAddr x.env.n (4 * word)) len))) := by
  have k := (cross_reads x 14 (linesOf word (len / 4))).trans (readScr_reads _ 14 (4 * word) len)
  have kc := cross_reads x 14 (linesOf word (len / 4))
  simp only [Local.load, Local.setS, Local.seqr]
  rw [k.core, readScr_bytes, scr_of_mem kc.env kc.mem]

section
variable {s : State} {n : CoreId} {w : Slots} {i : Instr}

theorem load_writes (h : Issues s n.val w) {c : COp} {sd sa : RegId} {imm : BitVec 16} {len : Nat} (row : wordRow i = some (n, .c c))
    (hc : w.c = c) (unmarked : c ≠ .lapMark ∧ c ≠ .stepMark)
    (loads : ∀ x v : Local, x.applyC v c = x.load sd (wordAddr (v.s sa) imm) len) :
    ∃ t, exec i s = .next t ∧ ∀ r, t.sreg n.val r = if r = sd ∧ r ≠ 0 then
      BitVec.ofNat 64 (leNat (s.scratch n.val (s.sreg n.val sa + imm.signExtend 64).toNat len)) else s.sreg n.val r := by
  subst hc
  refine ⟨_, exec_of_issues_c h row rfl, fun r => ?_⟩
  rw [issued_sreg h, afterC_unmarked _ _ unmarked, loads, load_regs, regGet_regPut]
  simp only [Local.seqr, atIssue_seq, atIssue_s, atIssue_mem, atIssue_env]
  rfl

/-- A store of `len` bytes of SD: the bytes stand low byte first, and no other byte of memory and no register changes. -/
theorem store_stores (h : Issues s n.val w) {c : COp} {sd sa : RegId} {imm : BitVec 16} {len : Nat} (row : wordRow i = some (n, .c c))
    (hc : w.c = c) (unmarked : c ≠ .lapMark ∧ c ≠ .stepMark) (hlen : len % 4 = 0)
    (stores : ∀ x v : Local, x.applyC v c = x.store (wordAddr (v.s sa) imm) (leBytes len (v.s sd).toNat)) (ha : w.a = .nop)
    (hq : (s.core n.val).att.queue = []) :
    let a := scratchAddr n.val (4 * (s.sreg n.val sa + imm.signExtend 64).toNat)
    ∃ t, exec i s = .next t ∧ (∀ r, t.sreg n.val r = s.sreg n.val r) ∧
      ∀ x, memGet t.mem x =
        if a ≤ x ∧ x < a + len then (s.sreg n.val sd >>> (8 * (x - a))).setWidth 8 else memGet s.mem x := by
  subst hc
  refine ⟨_, exec_of_issues_c h row rfl, fun r => ?_, fun x => ?_⟩
  · rw [issued_sreg h, afterC_unmarked _ _ unmarked, stores, Local.store, (Local.writeScr_unit (Local.cross_unit (.refl _) _ _) _ _).seq]
    simp only [Local.seqr, atIssue_seq]
    rfl
  · have noOut : NoOutWaits (s.localOf n.val).core := fun sy p y => by simp [hq]
    rw [State.issued_mem, issueWord_mem h.ready noOut (by simp [ha]), afterC_unmarked _ _ unmarked, stores,
      store_mem _ _ (by rw [leBytes_length]; exact hlen)]
    simp only [Local.seqr, atIssue_s, atIssue_mem, atIssue_env]
    split
    · next hx =>
      obtain ⟨k, rfl⟩ := Nat.exists_eq_add_of_le hx.1
      have hk : k < (leBytes len ((s.localOf n.val).s sd).toNat).length := by rw [leBytes_length]; omega
      refine (memGet_memWrite_in s.mem _ k _ hk).trans ?_
      rw [leBytes_getElem, Nat.add_sub_cancel_left]
      refine BitVec.eq_of_toNat_eq ?_
      rw [show (256 : Nat) ^ k = 2 ^ (8 * k) by rw [pow_mul]; rfl]
      simp [Nat.shiftRight_eq_div_pow, State.localOf_s]
    · next hx =>
      refine memGet_memWrite_out _ _ _ _ ?_
      rw [leBytes_length]
      by_contra hn
      exact hx ⟨by simp only [not_or, not_lt] at hn; exact hn.1, by simp only [not_or, not_le] at hn; exact hn.2⟩

theorem counter_writes (h : Issues s n.val w) {sd : RegId} {k : BitVec 16} (hc : w.c = .rdctr sd k) :
    ∃ t, exec (.rdctr n sd k) s = .next t ∧ ∀ r, t.sreg n.val r =
      if r = sd ∧ r ≠ 0 then counterOf ((s.localOf n.val).atIssue w) k else s.sreg n.val r := by
  refine ⟨_, exec_of_issues_c h rfl hc, issued_sreg_of_setS h (by simp [hc]) fun x => ?_⟩
  rw [hc, Local.applyC]

end

/-! ### Pattern loads -/

theorem mapGet_putRecords (m : List (Nat × PatternRecord)) (i j : Nat) (rs : List PatternRecord) :
    mapGet 0 (putRecords m i rs) j = if h : i ≤ j ∧ j < i + rs.length then rs[j - i]'(by omega) else mapGet 0 m j := by
  induction rs generalizing m i with
  | nil => simp [putRecords]
  | cons r t ih =>
    rw [putRecords, ih, mapGet_mapPut]
    simp only [List.length_cons]
    by_cases hlt : i + 1 ≤ j ∧ j < i + 1 + t.length
    · rw [dif_pos hlt, dif_pos ⟨by omega, by omega⟩]
      simp [show j - i = (j - (i + 1)) + 1 by omega]
    · rw [dif_neg hlt]
      by_cases he : j = i
      · subst he
        simp
      · rw [if_neg he, dif_neg (by omega)]

theorem mapGet_advanceAll_other {ns : List (BitVec 8)} {i : BitVec 8} (h : i ∉ ns) (m : List (Nat × PatternRecord)) :
    mapGet 0 (advanceAll m ns) i.toNat = mapGet 0 m i.toNat := by
  induction ns generalizing m with
  | nil => rfl
  | cons j r ih =>
    rw [List.mem_cons, not_or] at h
    rw [advanceAll, ih h.2, mapGet_mapPut_other]
    exact fun e => h.1 (BitVec.eq_of_toNat_eq e)

/-- The records that a word names where its faulty slots do not issue are among those that it names. -/
theorem mem_wordNames_of_acts {l : Local} {w : Slots} {i : BitVec 8} (h : i ∈ wordNames (l.acts w)) : i ∈ wordNames w := by
  have hm : i ∈ namesM (l.acts w).m → i ∈ namesM w.m := by
    unfold Local.acts issuing
    dsimp only
    split
    · exact fun e => absurd e (by simp [namesM])
    · exact id
  have ha : i ∈ namesA (l.acts w).a → i ∈ namesA w.a := by
    unfold Local.acts issuing
    dsimp only
    split
    · exact fun e => absurd e (by simp [namesA])
    · exact id
  simp only [wordNames, List.mem_append, acts_v] at h ⊢
  exact h.imp_left (Or.imp hm ha)

theorem patLoad_seq (x : Local) (word first count : Nat) :
    (x.patLoad word first count).core.seq.patterns =
      putRecords x.core.seq.patterns first
        ((List.range count).map fun k => BitVec.ofNat 256 (leNat (memRead x.mem (scratchAddr x.env.n (4 * word) + 32 * k) 32))) ∧
    (x.patLoad word first count).core.seq.regs = x.core.seq.regs := by
  have kc := cross_reads x 13 (linesOf word (8 * count))
  have k := kc.trans (readScr_reads _ 13 (4 * word) (32 * count))
  simp only [Local.patLoad, Local.seqr]
  rw [k.core, readScr_bytes, scr_of_mem kc.env kc.mem, chunks_memRead _ _ _ _ (by decide), List.map_map]
  exact ⟨rfl, rfl⟩

/-- The pattern table after a word that holds a PAT_LOAD. -/
theorem issued_patLoad {s : State} {n : Nat} {w : Slots} (h : Issues s n w) {sa : RegId} {first number : BitVec 8}
    (hc : w.c = .patLoad sa first number) (j : Nat) :
    (s.issued n w).patRecord n j =
      if first.toNat ≤ j ∧ j ≤ first.toNat + number.toNat then
        BitVec.ofNat 256 (leNat (s.scratch n ((s.sreg n sa).toNat + 8 * (j - first.toNat)) 32))
      else mapGet 0 (advanceAll (s.core n).seq.patterns (wordNames ((s.localOf n).acts w))) j := by
  rw [State.patRecord, issued_patterns h, afterC_unmarked _ _ (by simp [hc]), hc, Local.applyC, (patLoad_seq _ _ _ _).1, mapGet_putRecords]
  simp only [List.length_map, List.length_range, Local.seqr, atIssue_seq, atIssue_mem, atIssue_env, atIssue_s]
  by_cases hj : first.toNat ≤ j ∧ j ≤ first.toNat + number.toNat
  · rw [if_pos hj, dif_pos ⟨hj.1, by omega⟩, List.getElem_map, List.getElem_range]
    simp only [State.scratch, scratchAddr, State.localOf_s, State.localOf_mem, State.localOf_env_n]
    rw [show scratchBase + n * scratchStride + 4 * (s.sreg n sa).toNat + 32 * (j - first.toNat)
      = scratchBase + n * scratchStride + 4 * ((s.sreg n sa).toNat + 8 * (j - first.toNat)) by omega]
  · rw [if_neg hj, dif_neg (by omega)]
    rfl

/-! ### Marks -/

/-- The progress of the units leaves the step but for a parity mark. -/
theorem issueWord_step {l : Local} {w : Slots} (ready : holdsWord (l.reach w) w = false) :
    (l.issueWord w).core.step.record = ((l.atIssue w).markedBy (l.acts w)).core.step.record ∧
    (l.issueWord w).core.step.opCount = ((l.atIssue w).slotM (l.acts w)).core.step.opCount := by
  rw [issueWord_eq ready, (pump_core _).2.2.1, (acted_notes l w).core, actWord_eq, advance_only, applyOffs_only, Local.slotV,
    applyV_only, Local.slotA, applyA_only, Local.slotM, applyM_only, Local.slotC, (applyC_core _ _ _).2]
  exact ⟨rfl, rfl⟩

theorem afterC_lapMark {l : Local} {w : Slots} (hc : w.c = .lapMark) : l.afterC w = (l.atIssue w).markedBy (l.acts w) := by
  rw [Local.afterC, Local.slotC, acts_c, hc]
  rfl

/-- The core as a LAP_MARK that counts leaves it before its word's other slots act. -/
theorem markedBy_lapMark {l : Local} {w : Slots} (hc : w.c = .lapMark) (hm : markIsNop l.core = false) :
    ((l.markedBy w).core.seq.lap = l.core.seq.lap + 1 ∧ (l.markedBy w).core.seq.markOld = l.core.seq.markNew ∧
      (l.markedBy w).core.seq.markNew = ⟨l.core.seq.lap + 1, l.core.seq.position⟩ ∧ (l.markedBy w).core.seq.lapRecordDue = true) ∧
    (l.markedBy w).core.step.record.map (·.word) = some l.core.seq.position.toNat ∧
    (l.env.replayable = true → (l.markedBy w).core.seq.regs = [] ∧ (l.markedBy w).core.seq.patterns = []) := by
  have hseq : (applyControls l.env.expert l.core).seq = { l.core.seq with clashFaultNow := l.core.seq.clashFault } := by
    rw [applyControls, markBank_core]
  unfold Local.markedBy
  dsimp only
  rw [if_pos ⟨.inl hc, by simp [hm]⟩, hc, takeMark_lapMark _ _ hm]
  split
  · next hr =>
    rw [if_pos hr.2]
    simp only [beginStep, freshLap, markLap, hseq, stepRecordOf]
    simp
  · next hr =>
    have hrep : ¬l.env.replayable = true := fun e => hr ⟨rfl, e⟩
    rw [if_neg hrep]
    simp only [beginStep, markLap, hseq, stepRecordOf]
    simp [hrep]

theorem markedBy_stepMark {l : Local} {w : Slots} (hc : w.c = .stepMark) (hm : markIsNop l.core = false) :
    (l.markedBy w).core.step.record = some (stepRecordOf l.core) ∧ (l.markedBy w).core.step.opCount = 0 := by
  unfold Local.markedBy
  dsimp only
  rw [if_pos ⟨.inr hc, by simp [hm]⟩, hc, takeMark_stepMark _ _ hm, if_neg (by simp)]
  exact ⟨rfl, rfl⟩

theorem forceFlush_records (a : ArrayState) : (forceFlush a).current = a.current ∧ (forceFlush a).gatherCfg = a.gatherCfg := by
  unfold forceFlush flushGather
  dsimp only
  repeat' (first | exact ⟨rfl, rfl⟩ | split)

/-- A word on its way through the issue logic has not changed the state of Table 10-5. -/
theorem stepRecordOf_atIssue (l : Local) (w : Slots) : stepRecordOf (l.atIssue w).core = stepRecordOf l.core := by
  have harr : (l.reach w).core.arr.current = l.core.arr.current ∧ (l.reach w).core.arr.gatherCfg = l.core.arr.gatherCfg := by
    unfold Local.reach
    split
    · exact forceFlush_records _
    · exact ⟨rfl, rfl⟩
  rw [atIssue_only]
  simp only [stepRecordOf, harr.1, harr.2]

end Sys2Proof.Machine

namespace Sys2Proof.Proofs

open Sys2Proof Sys2Proof.Machine

/-- Settles O7: each C slot reads or writes the scratchpad through its port, with the operands read before the word. -/
theorem scalarMemoryAndCounters : Obligations.ScalarMemoryAndCounters := by
  unfold Obligations.ScalarMemoryAndCounters
  refine ⟨fun n s w sd sa imm h => ?_, fun n s w sd sa imm h ha hq => ?_, fun n s w sd k h hc => ?_, fun n s w sa first number h hc => ?_⟩
  · have legal := (legalSlots h.word).c
    refine ⟨fun hc => ⟨?_, load_writes h rfl hc (by simp) fun _ _ => rfl⟩, fun hc => ?_⟩
    · rw [hc] at legal
      exact of_decide_eq_true legal
    · rw [hc] at legal
      simp only [legalC, wordFits, if_true, Bool.and_eq_true, beq_iff_eq, decide_eq_true_eq] at legal
      exact ⟨legal.1, legal.2, load_writes h rfl hc (by simp) fun _ _ => rfl⟩
  · exact ⟨fun hc => store_stores h rfl hc (by simp) rfl (fun _ _ => rfl) ha hq,
      fun hc => store_stores h rfl hc (by simp) rfl (fun _ _ => rfl) ha hq⟩
  · obtain ⟨t, ht, hr⟩ := counter_writes h hc
    refine ⟨t, ht, fun r hne => by simp [hr, hne], fun hsd => ?_⟩
    have hv : t.sreg n.val sd = counterOf ((s.localOf n.val).atIssue w) k := by rw [hr, if_pos ⟨rfl, hsd⟩]
    refine ⟨?_, ?_, ?_, ?_, ?_⟩ <;> rintro rfl <;> rw [hv] <;> simp only [counterOf, atIssue_seq, atIssue_env] <;> rfl
  · refine ⟨_, exec_of_issues_c h rfl hc, fun k hk => ?_, fun i hout hnot => ?_, fun r => ?_⟩
    · rw [issued_patLoad h hc, if_pos ⟨by omega, by omega⟩, Nat.add_sub_cancel_left]
    · rw [issued_patLoad h hc, if_neg (by omega), mapGet_advanceAll_other fun e => hnot (mem_wordNames_of_acts e)]
      rfl
    · rw [issued_sreg h, afterC_unmarked _ _ (by simp [hc]), hc, Local.applyC, (patLoad_seq _ _ _ _).2]
      simp only [Local.seqr, atIssue_seq]
      rfl

/-- Settles O10: a mark that counts is taken before its word's other slots act, and the progress of the units leaves it. -/
theorem marksAndSegments : Obligations.MarksAndSegments := by
  unfold Obligations.MarksAndSegments
  refine ⟨fun n s w h hc hm => ?_, fun n s w h => ⟨fun hc hm => ?_, fun hc => ?_, fun hc => ?_⟩⟩
  · obtain ⟨⟨hlap, hold, hnew, hdue⟩, hrec, hzero⟩ :=
      markedBy_lapMark (l := (s.localOf n.val).atIssue w) (w := (s.localOf n.val).acts w) hc (by simpa using hm)
    have hseq := issueWord_seq (s.localOf n.val) w h.ready
    rw [afterC_lapMark hc] at hseq
    refine ⟨_, exec_of_issues_c h rfl hc, ?_⟩
    simp only [State.sreg, State.patRecord, State.issued_core, (issueWord_step h.ready).1, hrec]
    rw [hseq]
    simp only [hlap, hold, hnew, hdue, atIssue_seq]
    refine ⟨rfl, rfl, rfl, trivial, rfl, fun hrep => ?_⟩
    obtain ⟨hregs, hpats⟩ := hzero (by rw [atIssue_env]; exact hrep)
    rw [hregs, hpats]
    exact ⟨fun r => by simp [regGet, mapGet], fun i => rfl⟩
  · refine ⟨_, exec_of_issues_c h rfl hc, ?_⟩
    obtain ⟨hrec, hcount⟩ := issueWord_step h.ready
    obtain ⟨mrec, mcount⟩ :=
      markedBy_stepMark (l := (s.localOf n.val).atIssue w) (w := (s.localOf n.val).acts w) hc (by simpa using hm)
    obtain ⟨hnop, -, -⟩ := (legalSlots h.word).alone (.inr hc)
    have hactsm : ((s.localOf n.val).acts w).m = .nop := by
      unfold Local.acts issuing
      dsimp only
      split
      · rfl
      · exact hnop
    rw [State.issued_core, hrec, hcount, mrec, stepRecordOf_atIssue, Local.slotM, hactsm, Local.applyM, if_pos rfl, Local.slotC,
      (applyC_core _ _ _).2]
    exact ⟨rfl, mcount⟩
  · have legal := (legalSlots h.word).c
    rw [hc] at legal
    refine ⟨by simpa [legalC] using legal, _, exec_of_issues_c h rfl hc, ?_⟩
    rw [State.issued_core, issueWord_seq _ _ h.ready, afterC_unmarked _ _ (by simp [hc]), hc]
    simp only [Local.applyC, Local.seqr, atIssue_seq]
    exact ⟨trivial, rfl⟩
  · have legal := (legalSlots h.word).c
    rw [hc] at legal
    simp only [legalC, Bool.and_eq_true] at legal
    refine ⟨legal.1, _, exec_of_issues_c h rfl hc, ?_⟩
    rw [State.issued_core, issueWord_seq _ _ h.ready, afterC_unmarked _ _ (by simp [hc]), hc]
    rfl

end Sys2Proof.Proofs
end

section
/-!
PROOF. The statement about illegal words: a core that a roster fault has stopped keeps its sequencer, and a word upset in the cache is found
poisoned.
-/

namespace Sys2Proof.Machine

/-! ### A stopped core -/

theorem cross_core (l : Local) (port : Nat) (lines : List Nat) :
    (l.cross port lines).core = { l.core with scr := (l.cross port lines).core.scr } := by
  unfold Local.cross
  split <;> rfl

theorem crossAll_core (l : Local) (ps : List (Nat × Pattern)) :
    (l.crossAll ps).core = { l.core with scr := (l.crossAll ps).core.scr } := by
  unfold Local.crossAll
  induction ps generalizing l with
  | nil => rfl
  | cons p r ih => rw [List.foldl_cons, ih, cross_core]

/-- What is left of a core where only array, attention state and scratchpad state change. -/
def OutKeeps (l m : Local) : Prop :=
  m.core = { l.core with arr := m.core.arr, att := m.core.att, scr := m.core.scr }

theorem OutKeeps.trans {l m k : Local} (h : OutKeeps l m) (g : OutKeeps m k) : OutKeeps l k := by
  unfold OutKeeps at *
  rw [g, h]

theorem attUpd_outKeeps (l : Local) (f : AttState → AttState) : OutKeeps l (l.attUpd f) := rfl
theorem countNumeric_outKeeps (l : Local) (clamps nans : Nat) : OutKeeps l (l.countNumeric clamps nans) := rfl
theorem crossAll_outKeeps (l : Local) (ps : List (Nat × Pattern)) : OutKeeps l (l.crossAll ps) := by
  rw [OutKeeps, crossAll_core]
theorem writeRuns_outKeeps (l : Local) (starts : List Int) (runs : List (List Byte)) : OutKeeps l (l.writeRuns starts runs) := by
  rw [OutKeeps, (writeRuns_writes l starts runs).core]

/-- An ATT_OUT changes of its core the attention state, the numeric counters and the scratchpad's state. -/
theorem runAttOut_outKeeps (l : Local) (x : Pattern) (y : Option Pattern) : OutKeeps l (l.runAttOut x y) := by
  unfold Local.runAttOut
  split
  · rfl
  · dsimp only
    refine OutKeeps.trans ?_ (attUpd_outKeeps _ _)
    split
    · exact attUpd_outKeeps l _
    · refine (OutKeeps.trans ?_ (attUpd_outKeeps _ _)).trans (countNumeric_outKeeps _ _ _)
      cases y with
      | none => exact (crossAll_outKeeps l _).trans (writeRuns_outKeeps _ _ _)
      | some p => exact ((crossAll_outKeeps l _).trans (writeRuns_outKeeps _ _ _)).trans (writeRuns_outKeeps _ _ _)

/-- A step of the ATTENTION queue leaves the sequencer of a core that a roster fault has stopped. -/
theorem attStep_seq_of_stopped {l : Local} (h : l.core.seq.stoppedByFault = true) : l.attStep.core.seq = l.core.seq := by
  by_cases hout : ∃ sy x y, l.core.regions.attention = .on ∧ l.core.att.queue.head? = some (.out sy x y)
  · obtain ⟨sy, x, y, hon, hq⟩ := hout
    obtain ⟨rest, hq⟩ := List.head?_eq_some_iff.mp hq
    have : l.attStep = (l.runAttOut x y).attUpd attPop := by
      unfold Local.attStep
      rw [hon, hq]
    rw [this, Local.attUpd]
    dsimp only
    rw [runAttOut_outKeeps l x y]
  · exact (attStep_attStep l fun hon sy x y hq => hout ⟨sy, x, y, hon, hq⟩).reads.stopped h

/-- What the units' progress leaves of a core that a roster fault has stopped. -/
theorem pump_seq_of_stopped {l : Local} (h : l.core.seq.stoppedByFault = true) : l.pump.core.seq = l.core.seq := by
  have key : l.progress.core.seq = l.core.seq := by
    refine progress_rel (R := fun a b => a.core.seq.stoppedByFault = true → b.core.seq = a.core.seq) (fun _ _ => rfl) ?trans
      (fun _ _ => rfl) ?move ?arr (fun x hx => attStep_seq_of_stopped hx) ?pre l h
    case trans => exact fun x y z hxy hyz hx => (hyz (by rw [hxy hx]; exact hx)).trans (hxy hx)
    case move => exact fun x _ => by rw [(movePump_only x).2.2.2]
    case arr => exact fun x hx => (arrayStep_arrStep x).reads.stopped hx
    case pre => exact fun x hx => (preload_attStep x).reads.stopped hx
  rw [pump_eq]
  dsimp only
  rw [settleRegions_seq, key]

/-! ### The cache -/

/-- A block written at its number is found first by its tag, where it was found there before. -/
theorem find?_mapPut_block {m : List (Nat × CacheBlock)} {tag k : Nat} {b b' : CacheBlock}
    (h : m.find? (fun e => e.2.tag == tag) = some (k, b)) (htag : b'.tag = b.tag) :
    (mapPut m k b').find? (fun e => e.2.tag == tag) = some (k, b') := by
  have hb : b.tag = tag := by simpa using List.find?_some h
  have hb' : (b'.tag == tag) = true := by simp [htag, hb]
  induction m with
  | nil => cases h
  | cons e r ih =>
    simp only [mapPut]
    split
    · simp [hb']
    · split
      · simp [hb']
      · next hlt hne =>
        have he : (e.2.tag == tag) = false := by
          by_contra hcon
          rw [List.find?_cons_of_pos (by simpa using hcon)] at h
          exact hne (by rw [Option.some.inj h])
        rw [List.find?_cons_of_neg (by simp [he])] at h ⊢
        exact ih h

theorem lookup_word {s : Sequencer} {w : RosterWord} (h : lookup s = .word w) :
    ∃ k b, blockOf s (tagOf s.position.toNat) = some (k, b) ∧ b.filling = false ∧ s.position.toNat % 256 < b.words.length := by
  unfold lookup at h
  dsimp only at h
  split at h
  · cases h
  · next k b hb =>
    split at h
    · cases h
    · next hf =>
      split at h
      · cases h
      · split at h
        · next hw => exact ⟨k, b, hb, by simpa using hf, (List.getElem?_eq_some_iff.mp hw).1⟩
        · cases h

/-- The word that the cache's code finds upset reads as a poisoned one from then on (R86). -/
theorem lookup_cacheUpset {s : Sequencer} {w : RosterWord} (h : lookup s = .word w) : lookup (cacheUpset s) = .poisoned := by
  obtain ⟨k, b, hb, hf, hlen⟩ := lookup_word h
  have hs : cacheUpset s = { s with cache := mapPut s.cache k { b with poisoned := s.position.toNat % 256 :: b.poisoned } } := by
    simp [cacheUpset, hb, hf, hlen]
  have hblock : blockOf (cacheUpset s) (tagOf s.position.toNat)
      = some (k, { b with poisoned := s.position.toNat % 256 :: b.poisoned }) := by
    rw [hs]
    exact find?_mapPut_block hb rfl
  have hpos : (cacheUpset s).position = s.position := by rw [hs]
  simp [lookup, hpos, hblock, hf]

theorem cacheUpset_only (s : Sequencer) : cacheUpset s = { s with cache := (cacheUpset s).cache } := by
  unfold cacheUpset
  dsimp only
  repeat' (first | rfl | split)

/-! ### The stop -/

/-- The sequencer of a running core that a roster fault stops. -/
def Sequencer.faulted (s : Sequencer) (slot kind : Nat) (word : BitVec 28) : Sequencer :=
  { s with fault := ⟨true, BitVec.ofNat 2 slot, BitVec.ofNat 8 kind, word⟩, run := .stopped, stoppedByFault := true }

theorem faultStop_of_running {l : Local} (h : l.core.seq.stoppedByFault = false) (kind slot : Nat) (word : BitVec 28) :
    l.faultStop kind slot word =
      { l with
        core := { l.core with seq := l.core.seq.faulted slot kind word, arr := forceFlush l.core.arr },
        reports := l.reports ++ [⟨0x10, BitVec.ofNat 8 l.env.panel, l.location, BitVec.ofNat 48 (l.env.n + word.toNat * 2 ^ 20),
          BitVec.ofNat 16 (kind * 256 + slot)⟩] } := by
  rw [Local.faultStop, rosterFault_of_running h]
  rfl

theorem faultStop_pump_seq {l : Local} (h : l.core.seq.stoppedByFault = false) (kind slot : Nat) (word : BitVec 28) :
    (l.faultStop kind slot word).pump.core.seq = l.core.seq.faulted slot kind word := by
  have hs := faultStop_of_running h kind slot word
  rw [pump_seq_of_stopped (by rw [hs]; rfl), hs]

/-- With empty queues, the progress of a core that stops reports nothing more. -/
theorem faultStop_pump_reports {l : Local} (h : l.core.seq.stoppedByFault = false) (hm : l.core.moveQ = []) (hq : QuietUnits l.core)
    (kind slot : Nat) (word : BitVec 28) :
    (l.faultStop kind slot word).pump.reports = l.reports ++
      [⟨0x10, BitVec.ofNat 8 l.env.panel, l.location, BitVec.ofNat 48 (l.env.n + word.toNat * 2 ^ 20), BitVec.ofNat 16 (kind * 256 + slot)⟩]
    ∧ (l.faultStop kind slot word).pump.clashes = l.clashes := by
  have hs := faultStop_of_running h kind slot word
  have hflush := forceFlush_nothing hq.array hq.gather
  have quiet : QuietUnits (l.faultStop kind slot word).core := by
    rw [hs]
    dsimp only
    rw [hflush]
    exact ⟨hq.array, hq.gather, hq.attention⟩
  have hm' : (l.faultStop kind slot word).core.moveQ = [] := by
    rw [hs]
    exact hm
  rw [pump_eq, progress_of_quiet quiet, movePump_of_empty hm', hs]
  exact ⟨rfl, rfl⟩

/-- The log of a module changes with a report by the log, the time and the log's settings alone. -/
theorem State.file_log_putCore (s : State) (n : Nat) (c : Core) (m : List Host.Cell) (r : Report) :
    (({ s.setCore n c with mem := m } : State).file r).log = (s.file r).log := by
  unfold State.file
  dsimp only
  split <;> split <;> first | rfl | contradiction

theorem putLocal_log_of_one {s : State} {n : Nat} {l : Local} {r : Report} (hc : l.clashes = 0) (hr : l.reports = [r]) :
    (s.putLocal n l).log = (s.file r).log := by
  unfold State.putLocal
  dsimp only
  rw [hc, hr, if_pos rfl]
  exact s.file_log_putCore n l.core l.mem r

/-- What the stop of a core makes of the module, where the core has found its next word out of order. -/
theorem illegalWord_stops {s : State} {n : CoreId} {l : Local} {slot kind : Nat} (hstop : (s.core n.val).seq.stoppedByFault = false)
    (henv : l.env = s.coreEnv n.val) (hreports : l.reports = []) (hclashes : l.clashes = 0)
    (hseq : l.core.seq = { (s.core n.val).seq with cache := l.core.seq.cache })
    (hcore : l.core = { s.core n.val with seq := l.core.seq }) :
    let t := s.putLocal n.val (l.faultStop kind slot (s.core n.val).seq.position).pump
    (t.core n.val).seq.fault = ⟨true, BitVec.ofNat 2 slot, BitVec.ofNat 8 kind, (s.core n.val).seq.position⟩ ∧
    (t.core n.val).seq.run = .stopped ∧ (t.core n.val).seq.position = (s.core n.val).seq.position ∧
    (t.core n.val).seq.regs = (s.core n.val).seq.regs ∧ (t.core n.val).seq.wordsIssued = (s.core n.val).seq.wordsIssued ∧
    ((s.core n.val).moveQ = [] → (s.core n.val).arr.queue = [] → (s.core n.val).arr.gather = [] → (s.core n.val).att.queue = [] →
      t.log = (s.file (mkReport 0x10 (n.val / 64) (s.entry n.val).phys (n.val + (s.core n.val).seq.position.toNat * 2 ^ 20)
        (kind * 256 + slot))).log) := by
  have hs : l.core.seq.stoppedByFault = false := by rw [hseq]; exact hstop
  dsimp only
  rw [putLocal_core, if_pos rfl, faultStop_pump_seq hs, hseq]
  refine ⟨rfl, rfl, rfl, rfl, rfl, fun hm hq hg ht => ?_⟩
  have quiet : QuietUnits l.core := by
    rw [hcore]
    exact ⟨hq, hg, ht⟩
  obtain ⟨hr, hc⟩ := faultStop_pump_reports hs (by rw [hcore]; exact hm) quiet kind slot (s.core n.val).seq.position
  rw [hreports, List.nil_append] at hr
  rw [putLocal_log_of_one (hc.trans hclashes) hr, henv, Local.location, henv]
  rfl

end Sys2Proof.Machine

namespace Sys2Proof.Proofs

open Sys2Proof Sys2Proof.Machine

/-- Settles O11: the fault stops the core with its record, and a stopped core's units leave the sequencer as it stands. -/
theorem illegalWordStops : Obligations.IllegalWordStops := by
  unfold Obligations.IllegalWordStops
  intro n s w hduty hup hruns hstop hword
  have hexec (cacheError : Bool) : exec (.illegalWord ⟨n, cacheError⟩) s
      = .next (s.putLocal n.val ((s.localOf n.val).illegalWord cacheError)) := by
    simp only [exec, execIllegalWord]
    rw [if_neg hduty, State.onCore_up _ _ _ hup]
  have hrun : mayIssue (s.localOf n.val).core = true := hruns
  refine ⟨fun slot hslot => ⟨_, hexec false, ?_⟩, ⟨_, hexec true, ?_⟩⟩
  · have : (s.localOf n.val).illegalWord false = ((s.localOf n.val).faultStop 5 slot (s.core n.val).seq.position).pump := by
      have hlookup : lookup (s.localOf n.val).core.seq = .word w := hword
      simp only [Local.illegalWord, hrun, if_true, Bool.false_eq_true, if_false, hlookup, hslot]
      rfl
    rw [this]
    exact illegalWord_stops hstop rfl rfl rfl rfl rfl
  · have : (s.localOf n.val).illegalWord true
        = (((s.localOf n.val).seqr cacheUpset).faultStop 6 0 (s.core n.val).seq.position).pump := by
      have hlookup : lookup ((s.localOf n.val).seqr cacheUpset).core.seq = .poisoned := lookup_cacheUpset hword
      simp only [Local.illegalWord, hrun, if_true, hlookup]
      rfl
    rw [this]
    exact illegalWord_stops hstop rfl rfl rfl (cacheUpset_only _) rfl

end Sys2Proof.Proofs
end

section
/-!
PROOF. The M slot: the operation that enters the MOVE queue, its judgement and its units; then the statements about move operations, credit
operations and region requests.
-/

namespace Sys2Proof.Machine

/-! ### The M slot as it acts -/

theorem privateM_atIssue (l : Local) (w : Slots) (m : MOp) : privateM (l.atIssue w) m = privateM l m := by
  simp [privateM]

theorem privateA_atIssue (l : Local) (w : Slots) (a : AOp) : privateA (l.atIssue w) a = privateA l a := by
  simp [privateA]

theorem unmappedM_atIssue (l : Local) (w : Slots) (m : MOp) : unmappedM (l.atIssue w) m = unmappedM l m := by
  cases m <;> simp [unmappedM, farRuns, runInRegion, regionFirst, regionEnd]

theorem presents_atIssue (l : Local) (w : Slots) (m : MOp) : presents (l.atIssue w) m = presents l m := by
  cases m <;> simp [presents, farUnits, farRuns]

theorem moveScalar_atIssue (l : Local) (w : Slots) (m : MOp) : moveScalar (l.atIssue w) m = moveScalar l m := by
  cases m <;> simp [moveScalar]

/-- Where no slot raises a fault, every slot of the word acts. -/
theorem acts_of_noSlotFault {s : State} {n : Nat} {w : Slots} (h : noSlotFault s n w) : (s.localOf n).acts w = w := by
  obtain ⟨hm, ha, hu⟩ := h
  simp [Local.acts, issuing, privateM_atIssue, privateA_atIssue, unmappedM_atIssue, hm, ha, hu]

/-- An M slot that presents no requests to a ring always acts. -/
theorem acts_m_of_noRing (l : Local) {w : Slots} (h : presentsRing w.m = false) : (l.acts w).m = w.m := by
  have hu : unmappedM (l.atIssue w) w.m = false := by
    cases hm : w.m <;> rw [hm] at h <;> first | rfl | exact absurd h.symm Bool.false_ne_true
  simp [Local.acts, issuing, privateM, h, hu]

theorem markedBy_log {l : Local} {w : Slots} (h : l.core.step.log = []) : (l.markedBy w).core.step.log = [] := by
  have hm (k : Core) (hk : k.step.log = []) (c : COp) : (takeMark l c k).step.log = [] := by
    by_cases hn : markIsNop k = true
    · simpa [takeMark, hn] using hk
    · cases c <;> simp [takeMark, hn, hk, beginStep]
  unfold Local.markedBy
  dsimp only
  split
  · split
    · exact hm _ h _
    · exact hm _ h _
  · exact h

theorem slotC_step_log {l : Local} {w : Slots} (h : l.core.step.log = []) : (l.slotC w).core.step.log = [] := by
  rw [Local.slotC, (applyC_core _ _ _).2]
  exact markedBy_log h

theorem slotC_moveQ (l : Local) (w : Slots) : (l.slotC w).core.moveQ = l.core.moveQ := by
  rw [Local.slotC, (applyC_core _ _ _).2, markedBy_core]

theorem slotC_regions (l : Local) (w : Slots) : (l.slotC w).core.regions = l.core.regions := by
  rw [Local.slotC, (applyC_core _ _ _).2, markedBy_core]

theorem applyM_regions (l v : Local) (m : MOp) : (l.applyM v m).core.regions = requestRegions l.core.regions m := by
  unfold Local.applyM
  split
  · next h => rw [h]; rfl
  · dsimp only
    repeat' (first | rfl | split)

/-- The operation as the MOVE queue takes it, in a step that is not executed again. -/
theorem applyM_moveQ {l v : Local} {m : MOp} (hm : m ≠ .nop) (hlog : l.core.step.log = []) :
    (l.applyM v m).core.moveQ = l.core.moveQ ++ [captureMove v m l.core.seq.lap l.core.step.opCount] := by
  unfold Local.applyM
  rw [if_neg hm, hlog]
  rfl

theorem acted_moveQ (l : Local) (w : Slots) : (l.acted w).core.moveQ = ((l.atIssue w).slotM (l.acts w)).core.moveQ := by
  rw [(acted_notes l w).core, actWord_eq, advance_only, applyOffs_only, Local.slotV, applyV_only, Local.slotA, applyA_only]

theorem acted_regions (l : Local) (w : Slots) : (l.acted w).core.regions = requestRegions l.core.regions (l.acts w).m := by
  rw [(acted_notes l w).core, actWord_eq, advance_only, applyOffs_only, Local.slotV, applyV_only, Local.slotA, applyA_only, Local.slotM]
  dsimp only
  rw [applyM_regions, slotC_regions, atIssue_regions]

/-! ### The MOVE queue through the progress of the units -/

/-- The core as its MOVE queue makes progress: a core that has stopped has flushed its gather queue. -/
def Local.flushed (l : Local) : Local := if l.core.seq.run = .stopped then l.arrUpd forceFlush else l

theorem flushed_only (l : Local) : l.flushed = { l with core := { l.core with arr := l.flushed.core.arr } } := by
  unfold Local.flushed
  split <;> rfl

theorem progress_unit (l : Local) : UnitKeeps l.flushed.movePump l.progress :=
  Local.preload_unit (iterate_unit _ Local.attStep_unit (iterate_unit _ Local.arrayStep_unit (.refl _) 16) 8)

theorem settleRegions_moveQ (c : Core) : (settleRegions c).moveQ = c.moveQ := by
  unfold settleRegions
  rw [abandonOpen_core]
  rfl

theorem pump_moveQ (l : Local) : l.pump.core.moveQ = l.flushed.movePump.core.moveQ := by
  rw [pump_eq]
  dsimp only
  rw [settleRegions_moveQ, (progress_unit l).moveQ]

/-- An operation at the end of the MOVE queue that has not completed, whatever its judgement, stays there with what it captured. -/
theorem pump_moveQ_last {l : Local} {q : List MoveOp} {o : MoveOp} (hq : l.core.moveQ = q ++ [o])
    (h : ∀ (j : Local) (b : List MoveOp), moveDone l.core.regions (judgeOp j b o).2 = false) :
    ∃ j b, l.pump.core.moveQ.getLast? = some (judgeOp j b o).2 := by
  have hf := flushed_only l
  obtain ⟨j, b, hlast⟩ := movePump_last l.flushed q o (by rw [hf]; exact hq) (by rw [hf]; exact h)
  exact ⟨j, b, by rw [pump_moveQ, hlast]⟩

/-! ### Units that an operation presents -/

theorem patRunBytes_pos (r : PatternRecord) : 0 < patRunBytes (decodePattern r) := by
  have hw : 2 ≤ fmtWidth (patFormat (decodePattern r)) := by
    cases patFormat (decodePattern r) <;> decide
  have hn : 1 ≤ (decodePattern r).n0 := by simp [decodePattern]
  have hprod : 2 ≤ (decodePattern r).n0 * fmtWidth (patFormat (decodePattern r)) := le_trans hw (Nat.le_mul_of_pos_left _ hn)
  unfold patRunBytes runBytes elemBytes
  omega

theorem patRuns_ne_nil (r : PatternRecord) : patRuns (decodePattern r) ≠ [] := by
  have first {k : Nat} : (0 : Int) ∈ ((List.range (k + 1)) : List Int) := by simpa using ⟨0, Nat.zero_le k, rfl⟩
  exact List.ne_nil_of_mem (List.mem_flatMap.mpr ⟨0, first, List.mem_flatMap.mpr ⟨0, first, List.mem_map.mpr ⟨0, first, rfl⟩⟩⟩)

theorem patRunCount_pos (r : PatternRecord) : 0 < patRunCount (decodePattern r) := by
  simp only [patRunCount, decodePattern]
  positivity

theorem unitsOfRange_ne_nil (cl : List Nat) (addr : Nat) {len : Nat} (off : Nat) (h : 0 < len) : unitsOfRange cl addr len off ≠ [] := by
  simp only [unitsOfRange, ne_eq, List.map_eq_nil_iff, List.range_eq_nil]
  omega

theorem farUnits_ne_nil (l : Local) (sa : RegId) (i : BitVec 8) : farUnits l sa (l.pat i) ≠ [] := by
  have hruns : farRuns l sa (l.pat i) ≠ [] := fun h => patRuns_ne_nil (l.record i) (List.map_eq_nil_iff.mp h)
  obtain ⟨a, r, har⟩ := List.exists_cons_of_ne_nil hruns
  simp only [farUnits, har, List.mapIdx_cons, List.flatten_cons, ne_eq, List.append_eq_nil_iff, not_and]
  exact fun h => absurd h (unitsOfRange_ne_nil _ _ _ (patRunBytes_pos _))

theorem writeMessages_ne_nil (t w0 : Nat) (r : PatternRecord) : writeMessages t w0 (decodePattern r) ≠ [] := by
  have hb := patRunBytes_pos r
  have hc := patRunCount_pos r
  simp only [writeMessages, ne_eq, List.flatMap_eq_nil_iff, List.map_eq_nil_iff, not_forall]
  refine ⟨0, List.mem_range.mpr hc, ?_⟩
  rw [List.range_eq_nil]
  omega

/-- An operation that is no credit operation has completed only once its units have. -/
theorem moveDone_of_units {r : Regions} {o : MoveOp} (hcredit : creditOf o = none) (hring : presentsRing o.op = true) (hu : o.units ≠ []) :
    moveDone r o = false := by
  cases ho : o.op <;> simp_all [moveDone, creditOf, presentsRing]

/-- A CREDIT_TAKE has no answer before one comes, whatever its judgement. -/
theorem judgeOp_take_resp (l : Local) (b : List MoveOp) {o : MoveOp} (h : isTake o.op = true) : (judgeOp l b o).2.resp = o.resp := by
  have hr : isRemote o.op = false := by cases ho : o.op <;> simp_all [isTake, isRemote]
  unfold judgeOp
  dsimp only
  split
  · rfl
  · rw [hr, h]
    simp only [Bool.false_eq_true, if_false, if_true]
    split
    · rfl
    · split <;> rfl

/-! ### Entering the queue -/

section
variable {s : State} {n : CoreId} {w : Slots} {i : Instr}

theorem exec_of_issues_m (h : Issues s n.val w) {m : MOp} (row : wordRow i = some (n, .m m)) (hm : w.m = m) :
    exec i s = .next (s.issued n.val w) :=
  exec_of_issues row (by simp [Slots.holds, hm]) h

/-- The lap and the place in its step with which the word's M slot is captured. -/
theorem acted_moveQ_captured (fault : noSlotFault s n.val w) (log : (s.core n.val).step.log = []) (hm : w.m ≠ .nop) :
    ∃ lap index, ((s.localOf n.val).acted w).core.moveQ =
      (s.core n.val).moveQ ++ [captureMove ((s.localOf n.val).atIssue w) w.m lap index] := by
  refine ⟨(((s.localOf n.val).atIssue w).slotC w).core.seq.lap, (((s.localOf n.val).atIssue w).slotC w).core.step.opCount, ?_⟩
  rw [acted_moveQ, acts_of_noSlotFault fault, Local.slotM, applyM_moveQ hm (slotC_step_log (by rw [atIssue_step]; exact log)), slotC_moveQ,
    atIssue_moveQ]
  rfl

theorem captureMove_atIssue (l : Local) (m : MOp) (lap : BitVec 32) (index : Nat) :
    captureMove (l.atIssue w) m lap index = captureMove l m lap index := by
  simp only [captureMove, presents_atIssue, moveScalar_atIssue, atIssue_seq]
  rw [show (l.atIssue w).pat = l.pat from funext fun i => atIssue_pat l w i]

/-- The move operation of a word that issues stands at the end of the queue with what it captured, where it cannot complete at once. -/
theorem move_queued (h : Issues s n.val w) (fault : noSlotFault s n.val w) (log : (s.core n.val).step.log = []) {m : MOp}
    (row : wordRow i = some (n, .m m)) (hw : w.m = m) (hne : m ≠ .nop)
    (stays : ∀ r lap index j b, moveDone r (judgeOp j b (captureMove (s.localOf n.val) m lap index)).2 = false) :
    ∃ t o, exec i s = .next t ∧ (t.core n.val).moveQ.getLast? = some o ∧ o.op = w.m ∧ o.sVal = moveScalar (s.localOf n.val) m ∧
      o.patS = (namesM m).head?.map (s.localOf n.val).pat ∧ o.patF = ((namesM m).drop 1).head?.map (s.localOf n.val).pat ∧
      o.word = (s.core n.val).seq.position ∧ o.started = false := by
  subst hw
  obtain ⟨lap, index, hq⟩ := acted_moveQ_captured fault log hne
  rw [captureMove_atIssue] at hq
  obtain ⟨j, b, hlast⟩ := pump_moveQ_last hq fun j b => stays _ lap index j b
  refine ⟨_, _, exec_of_issues_m h row rfl, by rw [State.issued_core, issueWord_eq h.ready, hlast], ?_⟩
  rw [judgeOp_op]
  exact ⟨rfl, rfl, rfl, rfl, rfl, rfl⟩

/-- An operation on memory, a Cuff or a ring waits for its units. -/
theorem stays_of_units {l : Local} {m : MOp} (hcredit : ∀ lap index, creditOf (captureMove l m lap index) = none)
    (hring : presentsRing m = true) (hu : (presents l m).1 ≠ []) (r : Regions) (lap : BitVec 32) (index : Nat) (j : Local) (b : List MoveOp) :
    moveDone r (judgeOp j b (captureMove l m lap index)).2 = false := by
  rw [judgeOp_other _ _ _ (hcredit lap index)]
  exact moveDone_of_units (hcredit lap index) hring hu

end

end Sys2Proof.Machine

namespace Sys2Proof.Proofs

open Sys2Proof Sys2Proof.Machine

/-- Settles O12: the operation is captured before the word and cannot complete before its units or its answer. -/
theorem moveOpsEnterQueue : Obligations.MoveOpsEnterQueue := by
  unfold Obligations.MoveOpsEnterQueue
  intro n s w tl sy sa ps pf win cls block h fault log
  have far (i : BitVec 8) := farUnits_ne_nil (s.localOf n.val) sa i
  refine ⟨fun hw => move_queued h fault log rfl hw nofun (stays_of_units (fun _ _ => rfl) rfl ?_),
    fun hw => move_queued h fault log rfl hw nofun (stays_of_units (fun _ _ => rfl) rfl ?_),
    fun hw => move_queued h fault log rfl hw nofun (stays_of_units (fun _ _ => rfl) rfl ?_),
    fun hw => move_queued h fault log rfl hw nofun (stays_of_units (fun _ _ => rfl) rfl (by simp [presents])),
    fun hw => move_queued h fault log rfl hw nofun (stays_of_units (fun _ _ => rfl) rfl (by simp [presents])),
    fun hw => move_queued h fault log rfl hw nofun (stays_of_units (fun _ _ => rfl) rfl (by simp [presents])),
    fun hw => move_queued h fault log rfl hw nofun ?_,
    fun hw => ⟨move_queued h fault log rfl hw nofun (stays_of_units (fun _ _ => rfl) rfl ?_), ?_⟩⟩
  · simpa [presents] using far pf
  · simpa [presents] using far pf
  · simpa [presents] using far pf
  · intro r lap index j b
    have hresp := judgeOp_take_resp j b (o := captureMove (s.localOf n.val) (.creditTake tl sy sa win) lap index) rfl
    rw [moveDone.eq_def, judgeOp_op]
    exact congrArg Option.isSome hresp
  · exact unitsOfRange_ne_nil _ _ _ (by decide)
  · refine ⟨_, exec_of_issues_m h rfl hw, ?_⟩
    rw [State.issued_core, issueWord_seq _ _ h.ready, acts_of_noSlotFault fault, Local.slotM, hw]
    have hlog : (((s.localOf n.val).atIssue w).slotC w).core.step.log = [] := slotC_step_log (by rw [atIssue_step]; exact log)
    simp only [Local.applyM, hlog]
    exact mapGet_mapPut_same _ _ _ _ |>.trans (by simp [captureMove, moveScalar, State.localOf_s])

end Sys2Proof.Proofs
end

section
/-!
PROOF. Credit operations judged alone in the MOVE queue, the credit state that nothing else of a word touches, and region requests: what is
asked for stays asked for, and a switch-off waits in its queues until it takes effect.
-/

namespace Sys2Proof.Machine

/-! ### The credit state -/

/-- The part of a scratchpad's state that credit operations read and write. -/
def ScratchState.credits (s : ScratchState) : List (Nat × BitVec 8) × List (Nat × WindowHolder) × List (Nat × Nat × BitVec 8) × BitVec 8 :=
  (s.windowsNow, s.holders, s.granted, s.misuse)

/-- The step changes no credit state. -/
structure CreditKeeps (l m : Local) : Prop where
  env : m.env = l.env
  credits : m.core.scr.credits = l.core.scr.credits

theorem CreditKeeps.refl (l : Local) : CreditKeeps l l := ⟨rfl, rfl⟩

theorem CreditKeeps.trans {l m k : Local} (h : CreditKeeps l m) (g : CreditKeeps m k) : CreditKeeps l k :=
  ⟨g.env.trans h.env, g.credits.trans h.credits⟩

theorem ReadKeeps.creditKeeps {l m : Local} (h : ReadKeeps l m) : CreditKeeps l m := ⟨h.env, by rw [h.core]; rfl⟩

theorem WriteKeeps.creditKeeps {l m : Local} (h : WriteKeeps l m) : CreditKeeps l m := ⟨h.env, by rw [h.core]; rfl⟩

theorem heldWindow_congr {l m : Local} (h : CreditKeeps l m) : heldWindow m = heldWindow l := by
  obtain ⟨henv, hcred⟩ := h
  simp only [ScratchState.credits, Prod.mk.injEq] at hcred
  obtain ⟨hw, hh, hg, -⟩ := hcred
  funext t w
  simp only [heldWindow, windowNow, holderOf, henv, hw, hh, hg]
  congr

theorem markBank_credits (c : Core) : (markBank c).scr.credits = c.scr.credits := by
  unfold markBank
  split
  · cases worstBank c with
    | none => rfl
    | some b => rfl
  · rfl

theorem takeMark_credits (l : Local) (c : COp) (k : Core) : (takeMark l c k).scr.credits = k.scr.credits := by
  by_cases h : markIsNop k = true
  · simp [takeMark, h]
  · have hf : markIsNop k = false := by simpa using h
    cases c with
    | lapMark =>
      have hs : (takeMark l .lapMark k).scr = (applyControls l.env.expert k).scr := by
        rw [takeMark_lapMark l k hf]
        split <;> rfl
      rw [hs]
      exact markBank_credits _
    | stepMark => rw [takeMark_stepMark l k hf]; rfl
    | _ => simp [takeMark]

theorem markedBy_creditKeeps (l : Local) (w : Slots) : CreditKeeps l (l.markedBy w) := by
  refine ⟨markedBy_env l w, ?_⟩
  have k := takeMark_credits l w.c l.core
  unfold Local.markedBy
  dsimp only
  split
  · split
    · exact k
    · exact k
  · rfl

theorem applyC_creditKeeps (l v : Local) (c : COp) : CreditKeeps l (l.applyC v c) := by
  have read (port : Nat) (lines : List Nat) (off len : Nat) := ((cross_reads l port lines).trans (readScr_reads _ port off len)).creditKeeps
  cases c with
  | ldw sd sa imm | ldd sd sa imm => exact ⟨(read _ _ _ _).env, (read _ _ _ _).credits⟩
  | patLoad sa first number => exact ⟨(read _ _ _ _).env, (read _ _ _ _).credits⟩
  | stw sd sa imm | std sd sa imm =>
    exact ⟨(cross_reads l _ _).creditKeeps.env, (cross_reads l _ _).creditKeeps.credits⟩
  | _ => exact ⟨rfl, rfl⟩

theorem acted_creditKeeps (l : Local) (w : Slots) : CreditKeeps l (l.acted w) := by
  have hc : CreditKeeps (l.atIssue w) ((l.atIssue w).slotC (l.acts w)) :=
    (markedBy_creditKeeps _ _).trans (applyC_creditKeeps _ _ _)
  refine ⟨?_, ?_⟩
  · rw [(acted_notes l w).env, actWord_env, atIssue_env]
  · rw [(acted_notes l w).core, actWord_eq, advance_only, applyOffs_only, Local.slotV, applyV_only, Local.slotA, applyA_only, Local.slotM,
      applyM_only]
    exact hc.credits.trans (by rw [atIssue_scr])

theorem flushed_creditKeeps (l : Local) : CreditKeeps l l.flushed := by
  rw [flushed_only]
  exact ⟨rfl, rfl⟩

theorem ArrStep.creditKeeps {l m : Local} (h : ArrStep l m) : CreditKeeps l m := ⟨h.reads.creditKeeps.env, h.reads.creditKeeps.credits⟩

theorem AttStep.creditKeeps {l m : Local} (h : AttStep l m) : CreditKeeps l m := ⟨h.reads.creditKeeps.env, h.reads.creditKeeps.credits⟩

theorem runAttOut_creditKeeps (l : Local) (x : Pattern) (y : Option Pattern) : CreditKeeps l (l.runAttOut x y) := by
  have upd (m : Local) (f : AttState → AttState) : CreditKeeps m (m.attUpd f) := ⟨rfl, rfl⟩
  have count (m : Local) (a b : Nat) : CreditKeeps m (m.countNumeric a b) := ⟨rfl, rfl⟩
  unfold Local.runAttOut
  split
  · exact .refl l
  · dsimp only
    refine CreditKeeps.trans ?_ (upd _ _)
    split
    · exact upd l _
    · refine (CreditKeeps.trans ?_ (upd _ _)).trans (count _ _ _)
      cases y with
      | none => exact (crossAll_reads l _).creditKeeps.trans (writeRuns_writes _ _ _).creditKeeps
      | some p =>
        exact ((crossAll_reads l _).creditKeeps.trans (writeRuns_writes _ _ _).creditKeeps).trans (writeRuns_writes _ _ _).creditKeeps

/-- The head of the ATTENTION queue is an ATT_OUT of a region that is on, or the step writes nothing. -/
theorem attStep_cases (l : Local) :
    (∃ sy x y rest, l.core.regions.attention = .on ∧ l.core.att.queue = .out sy x y :: rest ∧
      l.attStep = (l.runAttOut x y).attUpd attPop) ∨ AttStep l l.attStep := by
  by_cases hout : ∃ sy x y, l.core.regions.attention = .on ∧ l.core.att.queue.head? = some (.out sy x y)
  · obtain ⟨sy, x, y, hon, hq⟩ := hout
    obtain ⟨rest, hq⟩ := List.head?_eq_some_iff.mp hq
    refine .inl ⟨sy, x, y, rest, hon, hq, ?_⟩
    unfold Local.attStep
    rw [hon, hq]
  · exact .inr (attStep_attStep l fun hon sy x y hq => hout ⟨sy, x, y, hon, hq⟩)

theorem attStep_creditKeeps (l : Local) : CreditKeeps l l.attStep := by
  rcases attStep_cases l with ⟨sy, x, y, rest, -, -, h⟩ | h
  · rw [h]
    exact (runAttOut_creditKeeps l x y).trans ⟨rfl, rfl⟩
  · exact h.creditKeeps

/-- What the units do once the MOVE queue has made its progress touches no credit state. -/
theorem pump_credits (l : Local) : l.pump.core.scr.credits = l.flushed.movePump.core.scr.credits := by
  have h : CreditKeeps l.flushed.movePump l.progress :=
    ((iterate_rel .refl (fun _ _ _ => .trans) (fun x => (arrayStep_arrStep x).creditKeeps) 16 _).trans
      (iterate_rel .refl (fun _ _ _ => .trans) attStep_creditKeeps 8 _)).trans (preload_attStep _).creditKeeps
  rw [← h.credits, pump_eq]
  dsimp only [settleRegions]
  rw [abandonOpen_core]
  rfl

/-! ### One credit operation alone in the queue -/

/-- A queue of one operation: its judgement, and its place while it has not completed. -/
theorem movePump_alone {l : Local} {o : MoveOp} (hq : l.core.moveQ = [o]) :
    l.movePump.core.moveQ = [(judgeOp l [] o).2].dropWhile (moveDone l.core.regions) ∧ l.movePump.core.scr = (judgeOp l [] o).1.core.scr := by
  have k := judgeOp_keeps_core l [] o
  have hr : (judgeOp l [] o).1.core.regions = l.core.regions := by rw [k.core]
  unfold Local.movePump Local.movUpd
  dsimp only
  rw [hq]
  exact ⟨by simp only [judgeAll, hr, List.nil_append], rfl⟩

theorem judgeOp_remote_good {l : Local} {o : MoveOp} {t w : Nat} {cfg : BitVec 8} (hc : creditOf o = some (t, w)) (hj : o.judged = false)
    (hr : isRemote o.op = true) (hold : heldWindow l t w = some cfg) (hg : writesGranted cfg o.units = true) :
    judgeOp l [] o = (l, { o with judged := true }) := by
  simp [judgeOp, hc, hj, hr, hold, hg, waitsFor]

theorem judgeOp_remote_misuse {l : Local} {o : MoveOp} {t w : Nat} (hc : creditOf o = some (t, w)) (hj : o.judged = false)
    (hr : isRemote o.op = true) (hold : heldWindow l t w = none) :
    judgeOp l [] o = (l.misuse t w 1, { o with judged := true, units := [], transit := [] }) := by
  simp [judgeOp, hc, hj, hr, hold, waitsFor]

theorem judgeOp_give_good {l : Local} {o : MoveOp} {t w : Nat} {cfg : BitVec 8} (hc : creditOf o = some (t, w)) (hj : o.judged = false)
    (hg : isGive o.op = true) (hold : heldWindow l t w = some cfg) :
    judgeOp l [] o = (l.scrUpd fun s => { s with granted := s.granted.filter fun e => !(e.1 == t && e.2.1 == w) },
      { o with judged := true }) := by
  have hr : isRemote o.op = false ∧ isTake o.op = false := by cases ho : o.op <;> simp_all [isGive, isRemote, isTake]
  simp [judgeOp, hc, hj, hr, hold, waitsFor]

theorem judgeOp_give_misuse {l : Local} {o : MoveOp} {t w : Nat} (hc : creditOf o = some (t, w)) (hj : o.judged = false)
    (hg : isGive o.op = true) (hold : heldWindow l t w = none) :
    judgeOp l [] o = (l.misuse t w 5, { o with judged := true, resp := some false }) := by
  have hr : isRemote o.op = false ∧ isTake o.op = false := by cases ho : o.op <;> simp_all [isGive, isRemote, isTake]
  simp [judgeOp, hc, hj, hr, hold, waitsFor]

section
variable {s : State} {n : CoreId} {w : Slots} {i : Instr}

/-- A word whose move operation finds the MOVE queue empty: what the core holds then is what the judgement of that operation leaves. -/
theorem exec_alone (h : Issues s n.val w) (fault : noSlotFault s n.val w) (log : (s.core n.val).step.log = [])
    (empty : (s.core n.val).moveQ = []) {m : MOp} (row : wordRow i = some (n, .m m)) (hw : w.m = m) (hne : m ≠ .nop) :
    ∃ l o lap index, CreditKeeps (s.localOf n.val) l ∧ o = captureMove (s.localOf n.val) m lap index ∧
      exec i s = .next (s.issued n.val w) ∧
      ((s.issued n.val w).core n.val).moveQ = [(judgeOp l [] o).2].dropWhile (moveDone l.core.regions) ∧
      ((s.issued n.val w).core n.val).scr.credits = (judgeOp l [] o).1.core.scr.credits := by
  subst hw
  obtain ⟨lap, index, hq⟩ := acted_moveQ_captured fault log hne
  rw [captureMove_atIssue, empty, List.nil_append] at hq
  have hf : ((s.localOf n.val).acted w).flushed.core.moveQ = [captureMove (s.localOf n.val) w.m lap index] := by
    rw [flushed_only]
    exact hq
  obtain ⟨hmove, hscr⟩ := movePump_alone hf
  refine ⟨((s.localOf n.val).acted w).flushed, _, lap, index, (acted_creditKeeps _ _).trans (flushed_creditKeeps _), rfl,
    exec_of_issues_m h row rfl, ?_, ?_⟩
  · rw [State.issued_core, issueWord_eq h.ready, pump_moveQ, hmove]
  · rw [State.issued_core, issueWord_eq h.ready, pump_credits, hscr]

end

end Sys2Proof.Machine

namespace Sys2Proof.Proofs

open Sys2Proof Sys2Proof.Machine

/-- Settles O13: with the queue empty before it, the operation is judged with the credit state that the core held before the word. -/
theorem creditOpsAreJudged : Obligations.CreditOpsAreJudged := by
  unfold Obligations.CreditOpsAreJudged
  intro n s w tl sy sa ps win cfg h fault log empty
  have counted {c d : Core} (h : c.scr.credits = d.scr.credits) : c.scr.misuse = d.scr.misuse := congrArg (·.2.2.2) h
  refine ⟨fun hw => ?_, fun hw => ?_⟩
  · obtain ⟨l, o, lap, index, hl, ho, he, hq, hs⟩ := exec_alone (i := .moveRemote n tl sy sa ps win) h fault log empty rfl hw nofun
    have hc : creditOf o = some ((remoteTarget (s.sreg n.val sa).toNat).1, win.toNat) := by subst ho; rfl
    have hop : o.op = .moveRemote tl sy sa ps win := by subst ho; rfl
    have hj : o.judged = false := by subst ho; rfl
    have hu : o.units = (presents (s.localOf n.val) w.m).1 := by subst ho; rw [hw]; rfl
    rw [← heldWindow_congr hl] 
    refine ⟨fun hold hg => ?_, fun hold => ?_⟩
    · rw [judgeOp_remote_good hc hj (by rw [hop]; rfl) hold (by rw [hu]; exact hg)] at hq
      have hne : o.units ≠ [] := by subst ho; exact writeMessages_ne_nil _ _ _
      refine ⟨_, { o with judged := true }, he, ?_, by rw [hop, hw], rfl, hu⟩
      rw [hq, List.dropWhile_cons_of_neg]
      simp [moveDone, hop, hne]
    · rw [judgeOp_remote_misuse hc hj (by rw [hop]; rfl) hold] at hq hs
      refine ⟨_, he, ?_, (counted hs).trans (congrArg (satAdd · 1) (counted hl.credits))⟩
      rw [hq, List.dropWhile_cons_of_pos]
      · rfl
      · simp [moveDone, hop, countsDone]
  · obtain ⟨l, o, lap, index, hl, ho, he, hq, hs⟩ := exec_alone (i := .creditGive n tl sy sa win) h fault log empty rfl hw nofun
    have hc : creditOf o = some ((field (s.sreg n.val sa) 0 9).toNat, win.toNat) := by subst ho; rfl
    have hop : o.op = .creditGive tl sy sa win := by subst ho; rfl
    have hj : o.judged = false := by subst ho; rfl
    have hresp : o.resp = none := by subst ho; rfl
    rw [← heldWindow_congr hl] 
    refine ⟨fun hold => ?_, fun hold => ?_⟩
    · rw [judgeOp_give_good hc hj (by rw [hop]; rfl) hold] at hq hs
      refine ⟨_, { o with judged := true }, he, ?_, by rw [hop, hw], rfl, hresp, fun c hmem => ?_⟩
      · rw [hq, List.dropWhile_cons_of_neg]
        simp [moveDone, hop, hresp]
      · rw [show ((s.issued n.val w).core n.val).scr.granted = _ from congrArg (·.2.2.1) hs] at hmem
        simp [ScratchState.credits, Local.scrUpd] at hmem
    · rw [judgeOp_give_misuse hc hj (by rw [hop]; rfl) hold] at hq hs
      refine ⟨_, he, ?_, (counted hs).trans (congrArg (satAdd · 1) (counted hl.credits))⟩
      rw [hq, List.dropWhile_cons_of_pos]
      · rfl
      · simp [moveDone, hop]

end Sys2Proof.Proofs
end

section
/-!
PROOF. The queues of the array and of the other units from a word's issue to the end of the units' progress: switch-offs keep their place, a
queue without waiting gathers loses loads from its head alone; then the statements about region requests and about array operations.
-/

namespace Sys2Proof.Machine

/-! ### Flushes -/

theorem mem_putFlush {q : List ArrOp} {b : List GatherEntry} {o : ArrOp} (h : o ∈ q) : o ∈ putFlush q b := by
  rw [← List.takeWhile_append_dropWhile (p := fun o => !behindGather o) (l := q), List.mem_append] at h
  simp only [putFlush, List.mem_append, List.mem_cons]
  exact h.imp_right .inr

theorem flushGather_kept (a : ArrayState) (c : FlushCause) :
    (∀ o ∈ a.queue, o ∈ (flushGather a c).queue) ∧ (flushGather a c).current = a.current := by
  unfold flushGather
  split
  · exact ⟨fun _ h => h, rfl⟩
  · exact ⟨fun _ h => mem_putFlush h, rfl⟩

theorem forceFlush_kept (a : ArrayState) : (∀ o ∈ a.queue, o ∈ (forceFlush a).queue) ∧ (forceFlush a).current = a.current := by
  obtain ⟨hq, hc⟩ := flushGather_kept a .forced
  unfold forceFlush
  dsimp only
  split
  · exact ⟨fun o h => List.mem_append_left _ (hq o h), hc⟩
  · exact ⟨hq, hc⟩

theorem addGather_current (a : ArrayState) (e : GatherEntry) (beats : Nat) : (addGather a e beats).current = a.current := by
  have h : (if 64 < gatherCount a + e.rows then flushGather a .forced else a).current = a.current := by
    split
    · exact (flushGather_kept a _).2
    · rfl
  unfold addGather
  generalize (if 64 < gatherCount a + e.rows then flushGather a .forced else a) = s1 at h ⊢
  dsimp only
  split
  · rw [(flushGather_kept _ _).2]
    exact h
  · exact h

/-! ### Switch-offs keep their place -/

/-- Switch-offs that stand in the queues go on standing there, and the record of the current load stays. -/
structure OffsKeep (l m : Local) : Prop where
  regions : m.core.regions = l.core.regions
  current : m.core.arr.current = l.core.arr.current
  arrOff : .off ∈ l.core.arr.queue → .off ∈ m.core.arr.queue
  gatherOff : .gatherOff ∈ l.core.arr.queue → .gatherOff ∈ m.core.arr.queue
  attOff : .off ∈ l.core.att.queue → .off ∈ m.core.att.queue
  vecOff : .off ∈ l.core.vec.queue → .off ∈ m.core.vec.queue

theorem OffsKeep.refl (l : Local) : OffsKeep l l := ⟨rfl, rfl, id, id, id, id⟩

theorem OffsKeep.trans {l m k : Local} (h : OffsKeep l m) (g : OffsKeep m k) : OffsKeep l k :=
  ⟨g.regions.trans h.regions, g.current.trans h.current, g.arrOff ∘ h.arrOff, g.gatherOff ∘ h.gatherOff, g.attOff ∘ h.attOff, g.vecOff ∘ h.vecOff⟩

theorem flush_offsKeep (l : Local) : OffsKeep l (l.arrUpd forceFlush) :=
  ⟨rfl, (forceFlush_kept _).2, (forceFlush_kept _).1 _, (forceFlush_kept _).1 _, id, id⟩

theorem movePump_offsKeep (l : Local) : OffsKeep l l.movePump := by
  have h := (movePump_only l).2.2.2
  constructor <;> rw [h] <;> exact id

/-- The head of the ARRAY queue that a step takes is no switch-off. -/
theorem arrayStep_offs (l : Local) : l.arrayStep.core.arr.current = l.core.arr.current ∧
    ∀ o, (o = .off ∨ o = .gatherOff) → o ∈ l.core.arr.queue → o ∈ l.arrayStep.core.arr.queue := by
  have tail {o : ArrOp} (p : ArrOp) {r : List ArrOp} (ho : o = .off ∨ o = .gatherOff) (hp : p ≠ .off ∧ p ≠ .gatherOff) (h : o ∈ p :: r) : o ∈ r := by
    rcases List.mem_cons.mp h with rfl | h
    · rcases ho with rfl | rfl
      · exact absurd rfl hp.1
      · exact absurd rfl hp.2
    · exact h
  unfold Local.arrayStep
  dsimp only
  split
  · next sy x packed r hq =>
    split
    · have k := runWload_arrStep (l.arrUpd fun s => { s with queue := s.queue.drop 1 }) sy x packed
      refine ⟨?_, fun o ho h => ?_⟩
      · unfold Local.runWload
        rw [Local.arrUpd, ((cross_reads _ _ _).trans (readRuns_reads _ _ _ _)).arr]
        rfl
      · unfold Local.runWload
        rw [Local.arrUpd, ((cross_reads _ _ _).trans (readRuns_reads _ _ _ _)).arr]
        rw [hq] at h
        simpa [Local.arrUpd, hq] using tail (.wload sy x packed) ho ⟨nofun, nofun⟩ h
    · exact ⟨rfl, fun _ _ h => h⟩
  · next e r hq =>
    split
    · refine ⟨addGather_current _ _ _, fun o ho h => ?_⟩
      rw [hq] at h
      simpa [Local.arrUpd, atHead, hq] using .inr (tail (.gather e) ho ⟨nofun, nofun⟩ h)
    · exact ⟨rfl, fun _ _ h => h⟩
  · next g r hq =>
    refine ⟨rfl, fun o ho h => ?_⟩
    rw [hq] at h
    simpa [Local.arrUpd, hq] using tail (.gcfg g) ho ⟨nofun, nofun⟩ h
  · next r hq =>
    refine ⟨(flushGather_kept _ _).2, fun o ho h => ?_⟩
    rw [hq] at h
    simpa [Local.arrUpd, atHead, hq] using .inr (tail .force ho ⟨nofun, nofun⟩ h)
  · exact ⟨rfl, fun _ _ h => h⟩

theorem arrayStep_offsKeep (l : Local) : OffsKeep l l.arrayStep := by
  have k := (arrayStep_arrStep l).reads
  obtain ⟨hc, ho⟩ := arrayStep_offs l
  exact ⟨k.regions, hc, ho _ (.inl rfl), ho _ (.inr rfl), by rw [k.att]; exact id, by rw [k.vec]; exact id⟩

theorem attStep_of_off {l : Local} (h : l.core.att.queue.head? = some .off) : l.attStep = l := by
  obtain ⟨r, hq⟩ := List.head?_eq_some_iff.mp h
  unfold Local.attStep
  rw [hq]
  cases l.core.regions.attention <;> rfl

/-- What a step of the ATTENTION queue leaves of the array: all but the numeric counters. -/
structure ArrayQueueKeeps (l m : Local) : Prop where
  regions : m.core.regions = l.core.regions
  vec : m.core.vec = l.core.vec
  queue : m.core.arr.queue = l.core.arr.queue
  gather : m.core.arr.gather = l.core.arr.gather
  gatherCfg : m.core.arr.gatherCfg = l.core.arr.gatherCfg
  current : m.core.arr.current = l.core.arr.current

theorem ArrayQueueKeeps.refl (l : Local) : ArrayQueueKeeps l l := ⟨rfl, rfl, rfl, rfl, rfl, rfl⟩

theorem ArrayQueueKeeps.trans {l m k : Local} (h : ArrayQueueKeeps l m) (g : ArrayQueueKeeps m k) : ArrayQueueKeeps l k :=
  ⟨g.regions.trans h.regions, g.vec.trans h.vec, g.queue.trans h.queue, g.gather.trans h.gather, g.gatherCfg.trans h.gatherCfg,
    g.current.trans h.current⟩

theorem AttStep.arrayQueue {l m : Local} (h : AttStep l m) : ArrayQueueKeeps l m :=
  ⟨h.reads.regions, h.reads.vec, congrArg ArrayState.queue h.reads.arr, congrArg ArrayState.gather h.reads.arr,
    congrArg ArrayState.gatherCfg h.reads.arr, congrArg ArrayState.current h.reads.arr⟩

theorem runAttOut_arrayQueue (l : Local) (x : Pattern) (y : Option Pattern) : ArrayQueueKeeps l (l.runAttOut x y) := by
  have upd (m : Local) (f : AttState → AttState) : ArrayQueueKeeps m (m.attUpd f) := ⟨rfl, rfl, rfl, rfl, rfl, rfl⟩
  have count (m : Local) (a b : Nat) : ArrayQueueKeeps m (m.countNumeric a b) := ⟨rfl, rfl, rfl, rfl, rfl, rfl⟩
  have read (m : Local) (ps : List (Nat × Pattern)) : ArrayQueueKeeps m (m.crossAll ps) := by
    have k := crossAll_core m ps
    constructor <;> rw [k]
  have write (m : Local) (starts : List Int) (runs : List (List Byte)) : ArrayQueueKeeps m (m.writeRuns starts runs) := by
    have k := (writeRuns_writes m starts runs).core
    constructor <;> rw [k]
  unfold Local.runAttOut
  split
  · exact .refl l
  · dsimp only
    refine ArrayQueueKeeps.trans ?_ (upd _ _)
    split
    · exact upd l _
    · refine (ArrayQueueKeeps.trans ?_ (upd _ _)).trans (count _ _ _)
      cases y with
      | none => exact (read l _).trans (write _ _ _)
      | some p => exact ((read l _).trans (write _ _ _)).trans (write _ _ _)

theorem attStep_arrayQueue (l : Local) : ArrayQueueKeeps l l.attStep := by
  rcases attStep_cases l with ⟨sy, x, y, rest, -, -, h⟩ | h
  · rw [h]
    exact (runAttOut_arrayQueue l x y).trans ⟨rfl, rfl, rfl, rfl, rfl, rfl⟩
  · exact h.arrayQueue

theorem attStep_offsKeep (l : Local) : OffsKeep l l.attStep := by
  have k := attStep_arrayQueue l
  refine ⟨k.regions, k.current, by rw [k.queue]; exact id, by rw [k.queue]; exact id, fun h => ?_, by rw [k.vec]; exact id⟩
  by_cases hh : l.core.att.queue.head? = some .off
  · rw [attStep_of_off hh]
    exact h
  · rcases attStep_queue l with hq | hq <;> rw [hq]
    · exact h
    · cases hl : l.core.att.queue with
      | nil => rw [hl] at h; cases h
      | cons p r =>
        rw [hl] at h hh
        rcases List.mem_cons.mp h with rfl | h
        · exact absurd rfl hh
        · exact h

theorem preload_offsKeep (l : Local) : OffsKeep l l.preload := by
  have k := (preload_attStep l).arrayQueue
  exact ⟨k.regions, k.current, by rw [k.queue]; exact id, by rw [k.queue]; exact id, by rw [preload_queue]; exact id, by rw [k.vec]; exact id⟩

theorem progress_offsKeep (l : Local) : OffsKeep l l.progress :=
  progress_rel .refl (fun _ _ _ => .trans) flush_offsKeep movePump_offsKeep arrayStep_offsKeep attStep_offsKeep preload_offsKeep l

/-! ### Switch-offs that take effect -/

theorem applyOff_regions (c : Core) : (applyOff c).regions = { switchOff c.regions (offReady c) with
    offRequested := c.regions.offRequested &&& offPending (applyOff c) } := rfl

theorem settleRegions_regions (c : Core) : ∃ new n, (settleRegions c).regions =
    { (applyOff c).regions with requested := c.regions.requested ||| new, autoWakes := n } := by
  unfold settleRegions autoWake
  dsimp only
  rw [abandonOpen_core, applyOff_regions]
  exact ⟨_, _, rfl⟩

theorem pump_requested (l : Local) : ∃ new, l.pump.core.regions.requested = l.core.regions.requested ||| new := by
  obtain ⟨new, n, h⟩ := settleRegions_regions l.progress.core
  refine ⟨new, ?_⟩
  rw [pump_eq]
  dsimp only
  rw [h, (progress_offsKeep l).regions]

/-! ### Masks of regions -/

theorem bit_or {w : Nat} (x y : BitVec w) (i : Nat) : bit (x ||| y) i = (bit x i || bit y i) := BitVec.getLsbD_or

theorem bit_ite {w : Nat} (p : Prop) [Decidable p] (x : BitVec w) (i : Nat) : bit (if p then x else 0) i = (decide p && bit x i) := by
  split
  · next h => simp [h]
  · next h => simp [h, bit]

theorem and_not_eq_zero {x y z : BitVec 4} (h : ∀ i < 4, bit x i = true → bit y i = true → bit z i = true) : x &&& y &&& ~~~z = 0 := by
  refine BitVec.eq_of_getLsbD_eq fun i hi => ?_
  have hz := h i hi
  simp only [bit] at hz
  cases hx : x.getLsbD i <;> cases hy : y.getLsbD i <;> simp_all

theorem bit_offPending (c : Core) :
    (bit (offPending c) 0 = c.arr.queue.contains .off) ∧ (bit (offPending c) 1 = c.att.queue.contains .off) ∧
    (bit (offPending c) 2 = c.vec.queue.contains .off) ∧ (bit (offPending c) 3 = c.arr.queue.contains .gatherOff) := by
  unfold offPending
  simp only [bit_or, bit_ite]
  refine ⟨?_, ?_, ?_, ?_⟩ <;> simp [bit]

theorem bit_offReady (c : Core) :
    (bit (offReady c) 0 = true → c.arr.queue.head? = some .off) ∧ (bit (offReady c) 1 = true → c.att.queue.head? = some .off) ∧
    (bit (offReady c) 2 = true → c.vec.queue.head? = some .off) ∧ (bit (offReady c) 3 = true → c.arr.queue.head? = some .gatherOff) := by
  unfold offReady
  simp only [bit_or, bit_ite]
  refine ⟨?_, ?_, ?_, ?_⟩ <;> simp +contextual [bit]

/-- Regions that a mask names as on or as ramping. -/
theorem bit_onMask (r : Regions) :
    (bit (onMask r ||| rampingMask r) 0 = true → r.array ≠ .off) ∧ (bit (onMask r ||| rampingMask r) 1 = true → r.attention ≠ .off) ∧
    (bit (onMask r ||| rampingMask r) 2 = true → r.vector ≠ .off) ∧ (bit (onMask r ||| rampingMask r) 3 = true → r.gather ≠ .off) := by
  unfold onMask rampingMask
  simp only [bit_or, bit_ite]
  refine ⟨?_, ?_, ?_, ?_⟩ <;> simp [bit] <;> rintro (h | h) <;> simp [h]

/-- The queues that switch-offs enter. -/
structure OffsWait (c : Core) (mask : BitVec 4) : Prop where
  array : bit mask 0 = true → .off ∈ c.arr.queue
  attention : bit mask 1 = true → .off ∈ c.att.queue
  vector : bit mask 2 = true → .off ∈ c.vec.queue
  gather : bit mask 3 = true → .gatherOff ∈ c.arr.queue

theorem OffsKeep.waits {l m : Local} (h : OffsKeep l m) {mask : BitVec 4} (w : OffsWait l.core mask) : OffsWait m.core mask :=
  ⟨h.arrOff ∘ w.array, h.attOff ∘ w.attention, h.vecOff ∘ w.vector, h.gatherOff ∘ w.gather⟩

theorem enterOff_waits (c : Core) (mask : BitVec 4) : OffsWait (enterOff c mask) mask := by
  unfold enterOff
  refine ⟨fun h => ?_, fun h => ?_, fun h => ?_, fun h => ?_⟩ <;> simp [h]

theorem enterOff_current (c : Core) {mask : BitVec 4} (h : bit mask 0 = true) : (enterOff c mask).arr.current = none := by
  simp [enterOff, h]

theorem mem_drop_one {α : Type} {q : List α} {a b : α} (h : a ∈ q) (hd : q.head? = some b) (hne : a ≠ b) : a ∈ q.drop 1 := by
  obtain ⟨r, rfl⟩ := List.head?_eq_some_iff.mp hd
  simpa [hne] using h

/-- Once switch-offs that are ready take effect, each region that one named is off, or its switch-off waits on. -/
theorem applyOff_settles {c : Core} {mask : BitVec 4} (w : OffsWait c mask) (asked : ∀ i < 4, bit mask i = true → bit c.regions.offRequested i = true) :
    mask &&& (onMask (applyOff c).regions ||| rampingMask (applyOff c).regions) &&& ~~~(applyOff c).regions.offRequested = 0 := by
  obtain ⟨p0, p1, p2, p3⟩ := bit_offPending (applyOff c)
  obtain ⟨r0, r1, r2, r3⟩ := bit_offReady c
  obtain ⟨o0, o1, o2, o3⟩ := bit_onMask (applyOff c).regions
  have waits (i : Nat) (hi : i < 4) (hm : bit mask i = true) (hp : bit (offPending (applyOff c)) i = true) :
      bit (applyOff c).regions.offRequested i = true := by
    rw [applyOff_regions]
    have := asked i hi hm
    simp only [bit] at this hp ⊢
    simp [this, hp]
  refine and_not_eq_zero fun i hi hm hon => waits i hi hm ?_
  match i, hi with
  | 0, _ =>
    have hr : bit (offReady c) 0 = false := by
      by_contra hr
      exact o0 hon (by simp [applyOff_regions, switchOff, show bit (offReady c) 0 = true by simpa using hr])
    rw [p0]
    simp only [applyOff, hr, Bool.false_or, Bool.false_eq_true, if_false]
    split
    · next h3 => simpa using mem_drop_one (w.array hm) (r3 h3) nofun
    · simpa using w.array hm
  | 1, _ =>
    have hr : bit (offReady c) 1 = false := by
      by_contra hr
      exact o1 hon (by simp [applyOff_regions, switchOff, show bit (offReady c) 1 = true by simpa using hr])
    rw [p1]
    simp only [applyOff, hr, Bool.false_eq_true, if_false]
    simpa using w.attention hm
  | 2, _ =>
    have hr : bit (offReady c) 2 = false := by
      by_contra hr
      exact o2 hon (by simp [applyOff_regions, switchOff, show bit (offReady c) 2 = true by simpa using hr])
    rw [p2]
    simp only [applyOff, hr, Bool.false_eq_true, if_false]
    simpa using w.vector hm
  | 3, _ =>
    have hr : bit (offReady c) 3 = false := by
      by_contra hr
      exact o3 hon (by simp [applyOff_regions, switchOff, show bit (offReady c) 3 = true by simpa using hr])
    rw [p3]
    simp only [applyOff, hr, Bool.or_false]
    cases h0 : bit (offReady c) 0 with
    | true => simpa [arrayOff] using mem_drop_one (w.gather hm) (r0 h0) nofun
    | false => simpa using w.gather hm

theorem applyOff_current (c : Core) : (applyOff c).arr.current = c.arr.current := by
  unfold applyOff
  dsimp only
  repeat' (first | rfl | split)

theorem pump_current (l : Local) : l.pump.core.arr.current = l.core.arr.current := by
  have h : (settleRegions l.progress.core).arr = (applyOff l.progress.core).arr := by
    unfold settleRegions
    rw [abandonOpen_core]
  rw [pump_eq]
  dsimp only
  rw [h, applyOff_current, (progress_offsKeep l).current]

/-! ### A word's region request -/

theorem offMask_regionOff {m : MOp} {sy : Bool} {mask : BitVec 4} (h : m = .regionOff sy mask) : offMask m = mask := by rw [h]; rfl

/-- A REGION_OFF that names a region stands in that region's queue as its word has acted, with the request noted. -/
theorem acted_regionOff {l : Local} {w : Slots} {sy : Bool} {mask : BitVec 4} (h : w.m = .regionOff sy mask) (hne : mask ≠ 0) :
    OffsWait (l.acted w).core mask ∧ (bit mask 0 = true → (l.acted w).core.arr.current = none) := by
  have hm : (l.acts w).m = .regionOff sy mask := by rw [acts_m_of_noRing l (by rw [h]; rfl), h]
  have hoff : offMask (l.acts w).m = mask := offMask_regionOff hm
  set x := ((l.atIssue w).slotV (l.acts w)) with hx
  have hcore : (l.acted w).core.arr = (enterOff x.core mask).arr ∨ (l.acted w).core.arr = forceFlush (enterOff x.core mask).arr ∨
      (l.acted w).core.arr = forceFlush (forceFlush (enterOff x.core mask).arr) := by
    have k := (acted_notes l w).arr
    rw [actWord_eq, advance_only, Local.applyOffs, hoff, if_neg hne] at k
    exact k
  have hatt : (l.acted w).core.att = (enterOff x.core mask).att := by
    rw [acted_att, Local.applyOffs, hoff, if_neg hne]
  have hvec : (l.acted w).core.vec = (enterOff x.core mask).vec := by
    rw [(acted_notes l w).core, actWord_eq, advance_only, Local.applyOffs, hoff, if_neg hne]
  have harr (o : ArrOp) (ho : o ∈ (enterOff x.core mask).arr.queue) : o ∈ (l.acted w).core.arr.queue := by
    rcases hcore with e | e | e <;> rw [e]
    · exact ho
    · exact (forceFlush_kept _).1 o ho
    · exact (forceFlush_kept _).1 o ((forceFlush_kept _).1 o ho)
  have k := enterOff_waits x.core mask
  refine ⟨⟨fun h => harr _ (k.array h), fun h => by rw [hatt]; exact k.attention h, fun h => by rw [hvec]; exact k.vector h,
    fun h => harr _ (k.gather h)⟩, fun h0 => ?_⟩
  rcases hcore with e | e | e <;> rw [e]
  · exact enterOff_current _ h0
  · rw [(forceFlush_kept _).2]
    exact enterOff_current _ h0
  · rw [(forceFlush_kept _).2, (forceFlush_kept _).2]
    exact enterOff_current _ h0

end Sys2Proof.Machine

namespace Sys2Proof.Proofs

open Sys2Proof Sys2Proof.Machine

/-- Settles O14: a request is only added to, and a switch-off leaves its queue only as it takes effect. -/
theorem regionRequests : Obligations.RegionRequests := by
  unfold Obligations.RegionRequests
  intro n s w sy mask h
  refine ⟨fun hw => ⟨_, exec_of_issues_m h (i := .regionOn n sy mask) rfl hw, ?_⟩,
    fun hw => ⟨_, exec_of_issues_m h (i := .regionOff n sy mask) rfl hw, ?_⟩⟩
  · have hm : ((s.localOf n.val).acts w).m = .regionOn sy mask := by rw [acts_m_of_noRing _ (by rw [hw]; rfl), hw]
    obtain ⟨new, hp⟩ := pump_requested ((s.localOf n.val).acted w)
    rw [State.issued_core, issueWord_eq h.ready, hp, acted_regions, hm]
    refine and_not_eq_zero fun i _ hx hy => ?_
    simp only [requestRegions, bit_or, Bool.or_eq_true]
    refine .inl (.inr ?_)
    simp only [bit, BitVec.getLsbD_and, Bool.and_eq_true]
    exact ⟨hx, hy⟩
  · have hm : ((s.localOf n.val).acts w).m = .regionOff sy mask := by rw [acts_m_of_noRing _ (by rw [hw]; rfl), hw]
    rw [State.issued_core, issueWord_eq h.ready]
    by_cases hne : mask = 0
    · subst hne
      exact ⟨by simp, fun h0 => absurd h0 (by simp)⟩
    · obtain ⟨hwait, hcur⟩ := acted_regionOff (l := s.localOf n.val) hw hne
      refine ⟨?_, fun h0 _ => (pump_current _).trans (hcur h0)⟩
      have k := progress_offsKeep ((s.localOf n.val).acted w)
      obtain ⟨new, c, hr⟩ := settleRegions_regions ((s.localOf n.val).acted w).progress.core
      rw [pump_eq]
      dsimp only
      rw [hr]
      refine applyOff_settles (k.waits hwait) fun i _ hi => ?_
      rw [k.regions, acted_regions, hm]
      simp only [requestRegions, bit_or, hi, Bool.or_true]

end Sys2Proof.Proofs
end

section
/-!
PROOF. The statement about array operations: a queue that holds no gather loses loads from its head alone, and a gather that waits for its
region, or behind a switch-off, keeps its place.
-/

namespace Sys2Proof.Machine

/-! ### Idle gathers -/

/-- No gather is held or waits: a flush has nothing to do. -/
structure NoGathers (a : ArrayState) : Prop where
  waits : gathersWait a = false
  held : a.gather = []

theorem NoGathers.forceFlush {a : ArrayState} (h : NoGathers a) : forceFlush a = a := by
  simp [Machine.forceFlush, flushGather, h.held, h.waits]

theorem gathersWait_append (a : ArrayState) (o : ArrOp) :
    gathersWait { a with queue := a.queue ++ [o] } = (gathersWait a || behindGather o) := by
  simp [gathersWait]

theorem putFlush_of_noGather {q : List ArrOp} (b : List GatherEntry) (h : q.any behindGather = false) : putFlush q b = q ++ [.flush b] := by
  have all : ∀ o ∈ q, (!behindGather o) = true := by simpa using h
  have ht : q.takeWhile (fun o => !behindGather o) = q := List.takeWhile_eq_self_iff.mpr all
  have hd : q.dropWhile (fun o => !behindGather o) = [] := List.dropWhile_eq_nil_iff.mpr all
  rw [putFlush, ht, hd]

/-- A forced flush of a queue in which no gather waits: the batch, where there is one, goes to the end. -/
theorem forceFlush_noGathers {a : ArrayState} (h : gathersWait a = false) : NoGathers (forceFlush a) ∧ (forceFlush a).gatherCfg = a.gatherCfg := by
  by_cases hg : a.gather = []
  · have := NoGathers.forceFlush ⟨h, hg⟩
    exact ⟨by rw [this]; exact ⟨h, hg⟩, by rw [this]⟩
  · have hw : gathersWait (flushGather a .forced) = false := by
      simp only [flushGather, hg, if_false, gathersWait, putFlush_of_noGather _ h, List.any_append, List.any_cons, List.any_nil, behindGather]
      simpa [gathersWait] using h
    have hf : forceFlush a = flushGather a .forced := by
      simp [forceFlush, hw]
    rw [hf]
    refine ⟨⟨hw, ?_⟩, ?_⟩ <;> simp [flushGather, hg]

theorem forceFlush_queue {a : ArrayState} (h : gathersWait a = false) :
    (forceFlush a).queue = a.queue ∨ (forceFlush a).queue = a.queue ++ [.flush a.gather] := by
  by_cases hg : a.gather = []
  · exact .inl (congrArg ArrayState.queue (NoGathers.forceFlush ⟨h, hg⟩))
  · right
    have hq : (flushGather a .forced).queue = a.queue ++ [.flush a.gather] := by
      simp only [flushGather, hg, if_false, putFlush_of_noGather _ h]
    have hw : gathersWait (flushGather a .forced) = false := by
      rw [gathersWait, hq, List.any_append]
      exact Bool.or_eq_false_iff.mpr ⟨h, rfl⟩
    simp [forceFlush, hw, hq]

/-! ### Steps of an ARRAY queue without gathers -/

/-- Only loads at the head of the ARRAY queue have been taken, where the array is on and no gather waits. -/
structure LoadsTaken (l m : Local) : Prop where
  regions : m.core.regions = l.core.regions
  current : m.core.arr.current = l.core.arr.current
  waits : gathersWait l.core.arr = false → gathersWait m.core.arr = false
  gather : gathersWait l.core.arr = false → m.core.arr.gather = l.core.arr.gather
  gatherCfg : gathersWait l.core.arr = false → m.core.arr.gatherCfg = l.core.arr.gatherCfg
  last : gathersWait l.core.arr = false → ∀ o, l.core.arr.queue.getLast? = some o →
    ((∀ sy x packed, o ≠ .wload sy x packed) ∨ l.core.regions.array ≠ .on) → m.core.arr.queue.getLast? = some o

theorem LoadsTaken.refl (l : Local) : LoadsTaken l l := ⟨rfl, rfl, id, fun _ => rfl, fun _ => rfl, fun _ _ h _ => h⟩

theorem LoadsTaken.trans {l m k : Local} (h : LoadsTaken l m) (g : LoadsTaken m k) : LoadsTaken l k where
  regions := g.regions.trans h.regions
  current := g.current.trans h.current
  waits hw := g.waits (h.waits hw)
  gather hw := (g.gather (h.waits hw)).trans (h.gather hw)
  gatherCfg hw := (g.gatherCfg (h.waits hw)).trans (h.gatherCfg hw)
  last hw o ho hl := g.last (h.waits hw) o (h.last hw o ho hl) (by rw [h.regions]; exact hl)

theorem ArrayQueueKeeps.loadsTaken {l m : Local} (h : ArrayQueueKeeps l m) : LoadsTaken l m where
  regions := h.regions
  current := h.current
  waits := by unfold gathersWait; rw [h.queue]; exact id
  gather _ := h.gather
  gatherCfg _ := h.gatherCfg
  last _ := by rw [h.queue]; exact fun _ ho _ => ho

theorem movePump_loadsTaken (l : Local) : LoadsTaken l l.movePump := by
  have h := (movePump_only l).2.2.2
  refine ArrayQueueKeeps.loadsTaken ?_
  constructor <;> rw [h]

theorem getLast?_tail {α : Type} {a o : α} {r : List α} (h : (a :: r).getLast? = some o) (hne : o ≠ a) : r.getLast? = some o := by
  cases r with
  | nil => exact absurd (Option.some.inj h).symm hne
  | cons b t => rwa [List.getLast?_cons_cons] at h

theorem runWload_queue (l : Local) (sy : Bool) (x : Pattern) (packed : Bool) :
    (l.runWload sy x packed).core.arr.queue = l.core.arr.queue ∧ (l.runWload sy x packed).core.arr.gather = l.core.arr.gather ∧
    (l.runWload sy x packed).core.arr.gatherCfg = l.core.arr.gatherCfg := by
  have k := (((cross_reads l 0 (patLines x)).trans (readRuns_reads _ 0
    (weightRunBytes (loadRecordOf x packed).format packed (loadRecordOf x packed).k) (patRuns x)))).arr
  unfold Local.runWload
  simp only [Local.arrUpd, k, and_self]

theorem arrayStep_loadsTaken (l : Local) : LoadsTaken l l.arrayStep := by
  have k := arrayStep_offsKeep l
  by_cases hw : gathersWait l.core.arr = false
  swap
  · exact ⟨k.regions, k.current, fun h => absurd h hw, fun h => absurd h hw, fun h => absurd h hw, fun h => absurd h hw⟩
  have same (h : l.arrayStep = l) : LoadsTaken l l.arrayStep := by
    rw [h]
    exact .refl l
  cases hq : l.core.arr.queue with
  | nil => exact same (arrayStep_of_empty hq)
  | cons o r =>
    cases o with
    | wload sy x packed =>
      by_cases hon : l.core.regions.array = .on
      · have hs : l.arrayStep = (l.arrUpd fun s => { s with queue := s.queue.drop 1 }).runWload sy x packed := by
          simp only [Local.arrayStep, hq, hon, if_true]
        obtain ⟨h1, h2, h3⟩ := runWload_queue (l.arrUpd fun s => { s with queue := s.queue.drop 1 }) sy x packed
        rw [← hs] at h1 h2 h3
        have hr : l.arrayStep.core.arr.queue = r := by rw [h1, Local.arrUpd, hq]; rfl
        refine ⟨k.regions, k.current, fun _ => ?_, fun _ => h2, fun _ => h3, fun _ o ho hl => ?_⟩
        · rw [gathersWait, hr]
          rw [gathersWait, hq, List.any_cons] at hw
          exact (Bool.or_eq_false_iff.mp hw).2
        · rw [hr]
          rw [hq] at ho
          refine getLast?_tail ho ?_
          rcases hl with hl | hl
          · exact hl _ _ _
          · exact absurd hon hl
      · exact same (by simp only [Local.arrayStep, hq, hon, if_false])
    | gather e => rw [gathersWait, hq] at hw; cases hw
    | gcfg g => rw [gathersWait, hq] at hw; cases hw
    | force => rw [gathersWait, hq] at hw; cases hw
    | pass sy x y acc => exact same (by simp only [Local.arrayStep, hq])
    | flush b => exact same (by simp only [Local.arrayStep, hq])
    | off => exact same (by simp only [Local.arrayStep, hq])
    | gatherOff => exact same (by simp only [Local.arrayStep, hq])

theorem progress_loadsTaken (l : Local) : LoadsTaken l.flushed l.progress :=
  (((movePump_loadsTaken _).trans (iterate_rel .refl (fun _ _ _ => .trans) arrayStep_loadsTaken 16 _)).trans
    (iterate_rel .refl (fun _ _ _ => .trans) (fun x => (attStep_arrayQueue x).loadsTaken) 8 _)).trans
    (preload_attStep _).arrayQueue.loadsTaken

theorem settleRegions_arr (c : Core) : (settleRegions c).arr = (applyOff c).arr := by
  unfold settleRegions
  rw [abandonOpen_core]

/-- A switch-off that takes effect leaves the gather queue, its settings, and the last operation of the ARRAY queue where that is none. -/
theorem applyOff_arr (c : Core) : (applyOff c).arr.gather = c.arr.gather ∧ (applyOff c).arr.gatherCfg = c.arr.gatherCfg ∧
    ∀ o, c.arr.queue.getLast? = some o → o ≠ .off → o ≠ .gatherOff → (applyOff c).arr.queue.getLast? = some o := by
  obtain ⟨r0, -, -, r3⟩ := bit_offReady c
  have dropped {o p : ArrOp} (ho : c.arr.queue.getLast? = some o) (hp : c.arr.queue.head? = some p) (hne : o ≠ p) :
      (c.arr.queue.drop 1).getLast? = some o := by
    obtain ⟨r, hr⟩ := List.head?_eq_some_iff.mp hp
    rw [hr] at ho ⊢
    exact getLast?_tail ho hne
  have harr : (applyOff c).arr = (fun a : ArrayState => if bit (offReady c) 0 then arrayOff a else a)
      (if bit (offReady c) 0 || bit (offReady c) 3 then { c.arr with queue := c.arr.queue.drop 1 } else c.arr) := rfl
  rw [harr]
  cases h0 : bit (offReady c) 0 with
  | true => exact ⟨rfl, rfl, fun o ho hne _ => dropped ho (r0 h0) hne⟩
  | false =>
    cases h3 : bit (offReady c) 3 with
    | true => exact ⟨rfl, rfl, fun o ho _ hne => dropped ho (r3 h3) hne⟩
    | false => exact ⟨rfl, rfl, fun o ho _ _ => ho⟩

/-- Where no gather waits as a core's units begin to make progress: what the pump leaves of the array's queues. -/
theorem pump_loadsTaken {l : Local} (h : gathersWait l.flushed.core.arr = false) :
    l.pump.core.arr.gather = l.flushed.core.arr.gather ∧ l.pump.core.arr.gatherCfg = l.flushed.core.arr.gatherCfg ∧
    ∀ o, l.flushed.core.arr.queue.getLast? = some o → ((∀ sy x packed, o ≠ .wload sy x packed) ∨ l.core.regions.array ≠ .on) →
      o ≠ .off → o ≠ .gatherOff → l.pump.core.arr.queue.getLast? = some o := by
  have k := progress_loadsTaken l
  obtain ⟨hg, hc, hl⟩ := applyOff_arr l.progress.core
  have harr : l.pump.core.arr = (applyOff l.progress.core).arr := by
    rw [pump_eq]
    exact settleRegions_arr _
  rw [harr]
  refine ⟨hg.trans (k.gather h), hc.trans (k.gatherCfg h), fun o ho hon => hl o (k.last h o ho ?_)⟩
  have hreg : l.flushed.core.regions = l.core.regions := by rw [flushed_only]
  rwa [hreg]

theorem flushed_arr (l : Local) : l.flushed.core.arr = if l.core.seq.run = .stopped then forceFlush l.core.arr else l.core.arr := by
  unfold Local.flushed
  split <;> rfl

/-! ### The A slot of a word -/

/-- The array as a word's A slot finds it: the record of the current load apart, as the word's reaching the issue logic left it. -/
theorem slotM_arr (l : Local) (w : Slots) :
    ((l.atIssue w).slotM (l.acts w)).core.arr =
      { (l.reach w).core.arr with current := ((l.atIssue w).slotM (l.acts w)).core.arr.current } := by
  rw [Local.slotM, applyM_only]
  dsimp only
  rw [Local.slotC, (applyC_core _ _ _).2, markedBy_core, atIssue_only]

theorem reach_arr (l : Local) (w : Slots) : (l.reach w).core.arr = if forcesFlush l.core w then forceFlush l.core.arr else l.core.arr := by
  unfold Local.reach
  split <;> rfl

/-- The array once a word without REGION_OFF has acted, a fault's or a clash's flush apart. -/
theorem acted_arr {l : Local} {w : Slots} (hoff : offMask w.m = 0) :
    let a := (((l.atIssue w).slotM (l.acts w)).applyA (l.atIssue w) (l.acts w).a).core.arr
    (l.acted w).core.arr = a ∨ (l.acted w).core.arr = forceFlush a ∨ (l.acted w).core.arr = forceFlush (forceFlush a) := by
  have hm : offMask (l.acts w).m = 0 := by
    simp only [Local.acts, issuing]
    split
    · rfl
    · exact hoff
  have k := (acted_notes l w).arr
  rw [actWord_eq, advance_only, applyOffs_none _ hm, Local.slotV, applyV_only] at k
  exact k

/-- Where the A slot leaves no gather, neither the notes of the word nor a stopped core's flush changes the array. -/
theorem flushed_of_noGathers {l : Local} {w : Slots} (hoff : offMask w.m = 0)
    (h : NoGathers (((l.atIssue w).slotM (l.acts w)).applyA (l.atIssue w) (l.acts w).a).core.arr) :
    (l.acted w).flushed.core.arr = (((l.atIssue w).slotM (l.acts w)).applyA (l.atIssue w) (l.acts w).a).core.arr := by
  have ha : (l.acted w).core.arr = (((l.atIssue w).slotM (l.acts w)).applyA (l.atIssue w) (l.acts w).a).core.arr := by
    rcases acted_arr (l := l) hoff with e | e | e <;> rw [e]
    · exact h.forceFlush
    · rw [h.forceFlush, h.forceFlush]
  rw [flushed_arr, ha]
  split
  · exact h.forceFlush
  · rfl

theorem requestRegions_states (r : Regions) (m : MOp) : (requestRegions r m).array = r.array ∧ (requestRegions r m).attention = r.attention ∧
    (requestRegions r m).vector = r.vector ∧ (requestRegions r m).gather = r.gather := by
  cases m <;> exact ⟨rfl, rfl, rfl, rfl⟩

/-- The array after a word of the array that leaves no gather: what its A slot left, but for loads taken. -/
theorem pump_of_noGathers {l : Local} {w : Slots} (hoff : offMask w.m = 0)
    (h : NoGathers (((l.atIssue w).slotM (l.acts w)).applyA (l.atIssue w) (l.acts w).a).core.arr) :
    let a := (((l.atIssue w).slotM (l.acts w)).applyA (l.atIssue w) (l.acts w).a).core.arr
    let p := (l.acted w).pump.core.arr
    p.current = a.current ∧ p.gather = [] ∧ p.gatherCfg = a.gatherCfg ∧
    ∀ o, a.queue.getLast? = some o → ((∀ sy x packed, o ≠ .wload sy x packed) ∨ l.core.regions.array ≠ .on) →
      o ≠ .off → o ≠ .gatherOff → p.queue.getLast? = some o := by
  have hf := flushed_of_noGathers hoff h
  obtain ⟨hg, hc, hl⟩ := pump_loadsTaken (l := l.acted w) (by rw [hf]; exact h.waits)
  have hcur : (l.acted w).flushed.core.arr.current = (l.acted w).core.arr.current := by
    rw [flushed_arr]
    split
    · exact (forceFlush_kept _).2
    · rfl
  have hreg : (l.acted w).core.regions.array = l.core.regions.array := by
    rw [acted_regions, (requestRegions_states _ _).1]
  rw [hf] at hg hc hl hcur
  exact ⟨(pump_current _).trans hcur.symm, hg.trans h.held, hc, fun o ho hon => hl o ho (by rwa [hreg])⟩

theorem exec_of_issues_a {s : State} {n : CoreId} {w : Slots} {i : Instr} (h : Issues s n.val w) {a : AOp}
    (row : wordRow i = some (n, .a a)) (ha : w.a = a) : exec i s = .next (s.issued n.val w) :=
  exec_of_issues row (by simp [Slots.holds, ha]) h

/-- An A slot acts where its word raises no fault; one of the array raises none. -/
theorem acts_a_of_array (l : Local) {w : Slots} (h : aUnit w.a = some .array) : (l.acts w).a = w.a := by
  have hp : privateA (l.atIssue w) w.a = false := by
    cases ha : w.a with
    | attWalk sy x => rw [ha] at h; cases h
    | _ => simp [privateA]
  simp [Local.acts, issuing, hp]

/-! ### A gather at issue -/

theorem rowsOf_atIssue (l : Local) (w : Slots) (x : BitVec 8) : rowsOf (l.atIssue w) x = rowsOf l x := by
  have hc : (l.atIssue w).core.arr.current = l.core.arr.current := by
    rw [atIssue_only]
    dsimp only
    rw [reach_arr]
    split
    · exact (forceFlush_kept _).2
    · rfl
  unfold rowsOf
  rw [hc, atIssue_pat]

/-- The array as the A slot finds it, where no gather waited before the word. -/
theorem slotM_arr_kept {l : Local} {w : Slots} (h : gathersWait l.core.arr = false) :
    let a := ((l.atIssue w).slotM (l.acts w)).core.arr
    gathersWait a = false ∧ (a.gather = [] ∨ a.gather = l.core.arr.gather) ∧ a.gatherCfg = l.core.arr.gatherCfg ∧
    ∀ o, o = .off ∨ o = .gatherOff → (o ∈ a.queue ↔ o ∈ l.core.arr.queue) := by
  rw [slotM_arr, reach_arr]
  split
  · obtain ⟨hn, hc⟩ := forceFlush_noGathers h
    refine ⟨hn.waits, .inl hn.held, hc, fun o ho => ?_⟩
    dsimp only
    rcases forceFlush_queue h with e | e <;> rw [e]
    rcases ho with rfl | rfl <;> simp
  · exact ⟨h, .inr rfl, rfl, fun _ _ => .rfl⟩

/-- Where the clash of a word does not stop its core and its slots raise no fault, nothing is flushed as the word is noted. -/
theorem acted_unfaulted {l : Local} {w : Slots} (fault : privateM l w.m = false ∧ privateA l w.a = false ∧ unmappedM l w.m = false)
    (clash : l.core.seq.clashFaultNow = false) :
    (l.acted w).core = ((l.atIssue w).actWord (l.acts w)).core := by
  obtain ⟨hm, ha, hu⟩ := fault
  have hv : (l.atIssue w).core.seq.clashFaultNow = false := by rw [atIssue_seq]; exact clash
  unfold Local.acted
  have hn : ((l.atIssue w).actWord (l.acts w)).noteFaults (l.atIssue w) w = (l.atIssue w).actWord (l.acts w) := by
    simp [Local.noteFaults, privateM_atIssue, privateA_atIssue, unmappedM_atIssue, hm, ha, hu]
  rw [hn]
  unfold Local.noteClash
  split
  · rfl
  · simp only [hv, Bool.false_eq_true, if_false]

/-- A C slot that reads no word in error leaves the run state, and so does a mark. -/
theorem slotC_run {l : Local} {w : Slots} (clean : l.core.scr.badParity = []) : (l.slotC w).core.seq.run = l.core.seq.run := by
  have mark (h : w.c = .lapMark ∨ w.c = .stepMark) : (l.slotC w).core.seq.run = l.core.seq.run := by
    have hs : l.slotC w = l.markedBy w := by
      rcases h with h | h <;> rw [Local.slotC, h] <;> rfl
    rw [hs, markedBy_seq]
  by_cases h1 : w.c = .lapMark
  · exact mark (.inl h1)
  by_cases h2 : w.c = .stepMark
  · exact mark (.inr h2)
  rw [Local.slotC, markedBy_unmarked l w (.inl ⟨h1, h2⟩)]
  generalize hm : (l.seqr fun s => { s with patterns := advanceAll s.patterns (wordNames w) }) = m
  have hb : m.core.scr.badParity = [] := by rw [← hm]; exact clean
  have hr : m.core.seq.run = l.core.seq.run := by rw [← hm]; rfl
  have read (port : Nat) (lines : List Nat) (off len : Nat) :
      ((m.cross port lines).readScr port off len).2.core.seq = m.core.seq := by
    rw [(((cross_reads m port lines).trans (readScr_reads _ port off len)).clean hb).2]
  rw [← hr]
  cases hc : w.c with
  | ldw sd sa imm | ldd sd sa imm => simp only [Local.applyC, Local.load, Local.setS, Local.seqr, read]
  | patLoad sa first number => simp only [Local.applyC, Local.patLoad, Local.seqr, read]
  | stw sd sa imm | std sd sa imm =>
    simp only [Local.applyC, Local.store, Local.writeScr]
    rw [cross_core]
  | _ => rfl

/-- A core that no fault stops goes on, or has ended with its word. -/
theorem acted_run {l : Local} {w : Slots} (fault : privateM l w.m = false ∧ privateA l w.a = false ∧ unmappedM l w.m = false)
    (clash : l.core.seq.clashFaultNow = false) (clean : l.core.scr.badParity = []) :
    (l.acted w).core.seq.run = if w.c = .endRoster then .ended else l.core.seq.run := by
  rw [acted_unfaulted fault clash, actWord_eq, advance_seq, slots_seq]
  dsimp only
  rw [slotC_run (w := l.acts w) (by rw [atIssue_scr]; exact clean), atIssue_seq]
  rfl

/-- The array as a word leaves it whose A slot is an ARR_GATHER, where no fault or clash flushes it. -/
theorem acted_arr_unfaulted {l : Local} {w : Slots} (fault : privateM l w.m = false ∧ privateA l w.a = false ∧ unmappedM l w.m = false)
    (clash : l.core.seq.clashFaultNow = false) (hoff : offMask w.m = 0) :
    (l.acted w).core.arr = (((l.atIssue w).slotM (l.acts w)).applyA (l.atIssue w) (l.acts w).a).core.arr := by
  have hm : offMask (l.acts w).m = 0 := by
    simp only [Local.acts, issuing]
    split
    · rfl
    · exact hoff
  rw [acted_unfaulted fault clash, actWord_eq, advance_only, applyOffs_none _ hm, Local.slotV, applyV_only]
  rfl

/-- An ARR_GATHER that fits, below the threshold, enters the gather queue. -/
theorem addGather_fits {a : ArrayState} {e : GatherEntry} {beats : Nat} (fits : gatherCount a + e.rows ≤ 64)
    (below : a.gather.length + 1 < a.gatherCfg.threshold) :
    addGather a e beats = { a with gather := a.gather ++ [e], gatherStart := if a.gather = [] then beats else a.gatherStart } := by
  have hfits : ¬64 < gatherCount a + e.rows := by omega
  have hbelow : ¬a.gatherCfg.threshold ≤ (a.gather ++ [e]).length := by simpa using below
  simp only [addGather, hfits, if_false, hbelow]

/-- A gather at the end of the ARRAY queue that cannot enter the gather queue as the units make progress. -/
structure GatherHeld (e : GatherEntry) (c : Core) : Prop where
  last : ∃ q, c.arr.queue = q ++ [.gather e] ∧ q.any behindGather = false ∧ (c.regions.gather ≠ .on ∨ .off ∈ q ∨ .gatherOff ∈ q)

theorem GatherHeld.congr {e : GatherEntry} {c d : Core} (h : GatherHeld e c) (hq : d.arr.queue = c.arr.queue) (hr : d.regions = c.regions) :
    GatherHeld e d := by
  obtain ⟨q, h1, h2, h3⟩ := h
  exact ⟨q, hq.trans h1, h2, by rw [hr]; exact h3⟩

theorem ArrayQueueKeeps.gatherHeld {l m : Local} (k : ArrayQueueKeeps l m) {e : GatherEntry} (h : GatherHeld e l.core) :
    GatherHeld e m.core := h.congr k.queue k.regions

/-- Only a load can leave the queue ahead of a gather that is held. -/
theorem arrayStep_gatherHeld {l : Local} {e : GatherEntry} (h : GatherHeld e l.core) : GatherHeld e l.arrayStep.core := by
  obtain ⟨q, hq, hb, hr⟩ := h
  have same (hs : l.arrayStep = l) : GatherHeld e l.arrayStep.core := by
    rw [hs]
    exact ⟨q, hq, hb, hr⟩
  cases q with
  | nil =>
    have hoff : l.core.regions.gather ≠ .on := by simpa using hr
    exact same (by simp only [Local.arrayStep, hq, List.nil_append, hoff, if_false])
  | cons o r =>
    rw [List.cons_append] at hq
    cases o with
    | wload sy x packed =>
      by_cases hon : l.core.regions.array = .on
      · have hs : l.arrayStep = (l.arrUpd fun s => { s with queue := s.queue.drop 1 }).runWload sy x packed := by
          simp only [Local.arrayStep, hq, hon, if_true]
        obtain ⟨h1, -, -⟩ := runWload_queue (l.arrUpd fun s => { s with queue := s.queue.drop 1 }) sy x packed
        rw [← hs] at h1
        refine ⟨r, by rw [h1, Local.arrUpd, hq]; rfl, ?_, ?_⟩
        · rw [List.any_cons] at hb
          exact (Bool.or_eq_false_iff.mp hb).2
        · rw [(arrayStep_offsKeep l).regions]
          simpa using hr
      · exact same (by simp only [Local.arrayStep, hq, hon, if_false])
    | gather e => cases hb
    | gcfg g => cases hb
    | force => cases hb
    | pass sy x y acc => exact same (by simp only [Local.arrayStep, hq])
    | flush b => exact same (by simp only [Local.arrayStep, hq])
    | off => exact same (by simp only [Local.arrayStep, hq])
    | gatherOff => exact same (by simp only [Local.arrayStep, hq])

theorem pump_gatherHeld {l : Local} {e : GatherEntry} (run : l.core.seq.run ≠ .stopped) (h : GatherHeld e l.core) :
    l.pump.core.arr.queue.getLast? = some (.gather e) := by
  have hf : l.flushed = l := by rw [Local.flushed, if_neg run]
  have keep {f : Local → Local} (hf : ∀ x, GatherHeld e x.core → GatherHeld e (f x).core) (n : Nat) (x : Local) :
      GatherHeld e x.core → GatherHeld e (iterate n f x).core :=
    iterate_rel (R := fun a b => GatherHeld e a.core → GatherHeld e b.core) (fun _ => id) (fun _ _ _ hxy hyz => hyz ∘ hxy) hf n x
  have hmove : GatherHeld e l.flushed.movePump.core := by
    rw [hf, (movePump_only l).2.2.2]
    exact h.congr rfl rfl
  have hp : GatherHeld e l.progress.core :=
    (preload_attStep _).arrayQueue.gatherHeld
      (keep (fun x => (attStep_arrayQueue x).gatherHeld) 8 _ (keep (fun x => arrayStep_gatherHeld) 16 _ hmove))
  obtain ⟨q, hq, -, -⟩ := hp
  rw [pump_eq]
  dsimp only
  rw [settleRegions_arr]
  exact (applyOff_arr _).2.2 _ (by rw [hq, List.getLast?_concat]) nofun nofun

end Sys2Proof.Machine

namespace Sys2Proof.Proofs

open Sys2Proof Sys2Proof.Machine

/-- Settles O15: each operation enters its queue as the A slot acts, and the units' progress takes nothing of it but a load that the array is
on for. -/
theorem arrayOpsEnterQueue : Obligations.ArrayOpsEnterQueue := by
  unfold Obligations.ArrayOpsEnterQueue
  intro n s w sy packed acc x y threshold timeout h pat arr hw hoff
  have pump (i : Instr) {a : AOp} (row : wordRow i = some (n, .a a)) (ha : w.a = a) :
      exec i s = .next (s.issued n.val w) ∧ ((s.issued n.val w).core n.val) = ((s.localOf n.val).acted w).pump.core := by
    refine ⟨exec_of_issues_a h row ha, ?_⟩
    rw [State.issued_core, issueWord_eq h.ready]
  have hpat (i : BitVec 8) : ((s.localOf n.val).atIssue w).pat i = pat i := atIssue_pat _ w i
  have flushes (hf : forcesFlush (s.localOf n.val).core w = true) : NoGathers (((s.localOf n.val).atIssue w).slotM ((s.localOf n.val).acts w)).core.arr := by
    obtain ⟨hn, -⟩ := forceFlush_noGathers (a := (s.localOf n.val).core.arr) hw
    rw [slotM_arr, reach_arr, if_pos hf]
    exact ⟨hn.waits, hn.held⟩
  refine ⟨fun ha => ?_, fun ha => ?_, fun ha => ?_, fun ha fault clash clean unmarked => ?_⟩
  · obtain ⟨he, ht⟩ := pump (.arrWload n sy x packed) rfl ha
    have hm := flushes (by simp [forcesFlush, ha])
    have hA : ((s.localOf n.val).acts w).a = .wload sy x packed := by rw [acts_a_of_array _ (by rw [ha]; rfl), ha]
    have k := pump_of_noGathers (l := s.localOf n.val) hoff (by
      rw [hA]
      exact ⟨(gathersWait_append _ _).trans (by rw [hm.waits]; rfl), hm.held⟩)
    rw [hA] at k
    obtain ⟨hcur, -, -, hlast⟩ := k
    refine ⟨_, he, by rw [ht, hcur, ← hpat]; rfl, fun hon => ?_⟩
    rw [ht, ← hpat]
    exact hlast _ List.getLast?_concat (.inr hon) nofun nofun
  · obtain ⟨he, ht⟩ := pump (.arrPass n sy x y acc) rfl ha
    have hm := flushes (by simp [forcesFlush, ha])
    have hA : ((s.localOf n.val).acts w).a = .pass sy x y acc := by rw [acts_a_of_array _ (by rw [ha]; rfl), ha]
    have k := pump_of_noGathers (l := s.localOf n.val) hoff (by
      rw [hA]
      exact ⟨(gathersWait_append _ _).trans (by rw [hm.waits]; rfl), hm.held⟩)
    rw [hA] at k
    obtain ⟨-, -, -, hlast⟩ := k
    refine ⟨_, he, ?_⟩
    rw [ht, ← hpat, ← hpat]
    exact hlast _ List.getLast?_concat (.inl nofun) nofun nofun
  · obtain ⟨he, ht⟩ := pump (.arrGcfg n threshold timeout) rfl ha
    have hm := flushes (by simp [forcesFlush, ha])
    have hA : ((s.localOf n.val).acts w).a = .gcfg threshold timeout := by rw [acts_a_of_array _ (by rw [ha]; rfl), ha]
    have hset : setGather (((s.localOf n.val).atIssue w).slotM ((s.localOf n.val).acts w)).core.arr threshold timeout =
        { (((s.localOf n.val).atIssue w).slotM ((s.localOf n.val).acts w)).core.arr with
          gatherCfg := ⟨threshold.toNat + 1, timeout.toNat⟩ } := by
      simp only [setGather, hm.forceFlush, hm.waits, Bool.false_eq_true, if_false]
    have k := pump_of_noGathers (l := s.localOf n.val) hoff (by
      rw [hA]
      dsimp only [Local.applyA, Local.arrUpd]
      rw [hset]
      exact ⟨hm.waits, hm.held⟩)
    rw [hA] at k
    dsimp only [Local.applyA, Local.arrUpd] at k
    rw [hset] at k
    obtain ⟨-, hg, hc, -⟩ := k
    exact ⟨_, he, by rw [ht, hg], by rw [ht, hc]⟩
  · obtain ⟨he, ht⟩ := pump (.arrGather n sy x y) rfl ha
    have hA : ((s.localOf n.val).acts w).a = .gather sy x y := by rw [acts_a_of_array _ (by rw [ha]; rfl), ha]
    have hrun : ((s.localOf n.val).acted w).core.seq.run ≠ .stopped := by
      have := h.runs
      simp only [mayIssue, Bool.and_eq_true, beq_iff_eq] at this
      rw [acted_run fault clash clean]
      split
      · nofun
      · rw [show (s.localOf n.val).core.seq.run = _ from this.1]
        nofun
    have hreg : (((s.localOf n.val).atIssue w).slotM ((s.localOf n.val).acts w)).core.regions.gather = (s.core n.val).regions.gather := by
      rw [Local.slotM, applyM_regions, (requestRegions_states _ _).2.2.2, slotC_regions, atIssue_regions]
      rfl
    have hact : ((s.localOf n.val).acted w).core.regions.gather = (s.core n.val).regions.gather := by
      rw [acted_regions, (requestRegions_states _ _).2.2.2]
      rfl
    obtain ⟨hwait, hheld, hcfg, hkept⟩ := slotM_arr_kept (l := s.localOf n.val) (w := w) hw
    have harr := acted_arr_unfaulted (l := s.localOf n.val) fault clash hoff
    rw [hA] at harr
    dsimp only [Local.applyA, Local.arrUpd] at harr
    rw [hreg, hpat, hpat, rowsOf_atIssue] at harr
    refine ⟨_, he, fun hon hno hng fits below => ?_, fun hheldback => ?_⟩
    · generalize (((s.localOf n.val).atIssue w).slotM ((s.localOf n.val).acts w)).core = c at harr hwait hheld hcfg hkept
      have hready : ((s.core n.val).regions.gather == .on && !c.arr.queue.contains .off && !c.arr.queue.contains .gatherOff) = true := by
        have h1 := mt (hkept _ (.inl rfl)).mp hno
        have h2 := mt (hkept _ (.inr rfl)).mp hng
        simp [hon, h1, h2]
      have hcount : gatherCount c.arr ≤ gatherCount arr ∧ c.arr.gather.length ≤ arr.gather.length := by
        rcases hheld with e | e <;> simp [gatherCount, e, arr, State.localOf]
      have hcfg' : c.arr.gatherCfg = arr.gatherCfg := hcfg
      rw [hready] at harr
      have hadd (e : GatherEntry) (b : Nat) (hr : gatherCount arr + e.rows ≤ 64) : issueGather c.arr true e b =
          { c.arr with gather := c.arr.gather ++ [e], gatherStart := if c.arr.gather = [] then b else c.arr.gatherStart } := by
        rw [issueGather, hwait]
        exact addGather_fits (by omega) (by rw [hcfg']; omega)
      rw [hadd _ _ fits] at harr
      obtain ⟨hg, -, -⟩ := pump_loadsTaken (l := (s.localOf n.val).acted w) (by rw [flushed_arr, if_neg hrun, harr]; exact hwait)
      rw [ht, hg, flushed_arr, if_neg hrun, harr]
      exact List.getLast?_concat
    · have hissue (a : ArrayState) (hq : ∀ o, o = .off ∨ o = .gatherOff → (o ∈ a.queue ↔ o ∈ arr.queue)) (e : GatherEntry) (b : Nat) :
          issueGather a ((s.core n.val).regions.gather == .on && !a.queue.contains .off && !a.queue.contains .gatherOff) e b =
            { a with queue := a.queue ++ [.gather e] } := by
        have hoff : ((s.core n.val).regions.gather == .on && !a.queue.contains .off && !a.queue.contains .gatherOff) = false := by
          rcases hheldback with h1 | h1 | h1
          · simp [h1]
          · simp [(hq _ (.inl rfl)).mpr h1]
          · simp [(hq _ (.inr rfl)).mpr h1]
        rw [hoff]
        rfl
      rw [hissue _ hkept] at harr
      rw [ht]
      refine pump_gatherHeld hrun ⟨_, congrArg ArrayState.queue harr, hwait, ?_⟩
      rw [hact]
      exact hheldback.imp_right (.imp (hkept _ (.inl rfl)).mpr (hkept _ (.inr rfl)).mpr)

end Sys2Proof.Proofs
end

section
/-!
PROOF. The statements about attention and vector operations: an operation that enters its queue stays at its end, since a region that is not
on takes nothing of the ATTENTION queue, and no progress of the units takes anything of the VECTOR queue but a switch-off.
-/

namespace Sys2Proof.Machine

/-! ### The ATTENTION queue of a region that is not on -/

theorem attStep_of_notOn {l : Local} (h : l.core.regions.attention ≠ .on) : l.attStep = l := by
  unfold Local.attStep
  cases hr : l.core.regions.attention with
  | on => exact absurd hr h
  | _ => rfl

theorem preload_of_notOn {l : Local} (h : l.core.regions.attention ≠ .on) : l.preload = l := by
  unfold Local.preload
  cases hr : l.core.regions.attention with
  | on => exact absurd hr h
  | _ => rfl

/-- Where the attention region is not on, the progress of the units leaves the attention state. -/
theorem progress_att_of_notOn {l : Local} (h : l.core.regions.attention ≠ .on) : l.progress.core.att = l.core.att := by
  have move : l.flushed.movePump.core.att = l.core.att ∧ l.flushed.movePump.core.regions = l.core.regions := by
    rw [(movePump_only _).2.2.2, flushed_only]
    exact ⟨rfl, rfl⟩
  have arr : ∀ x : Local, (iterate 16 Local.arrayStep x).core.att = x.core.att ∧
      (iterate 16 Local.arrayStep x).core.regions = x.core.regions :=
    iterate_rel (R := fun a b => b.core.att = a.core.att ∧ b.core.regions = a.core.regions) (fun _ => ⟨rfl, rfl⟩)
      (fun _ _ _ h g => ⟨g.1.trans h.1, g.2.trans h.2⟩) (fun x => ⟨(arrayStep_arrStep x).reads.att, (arrayStep_arrStep x).reads.regions⟩) 16
  obtain ⟨ha, hr⟩ := arr l.flushed.movePump
  have hon : (iterate 16 Local.arrayStep l.flushed.movePump).core.regions.attention ≠ .on := by
    rw [hr, move.2]
    exact h
  have hp : l.progress = iterate 16 Local.arrayStep l.flushed.movePump := by
    have e : l.progress = (iterate 8 Local.attStep (iterate 16 Local.arrayStep l.flushed.movePump)).preload := rfl
    rw [e, iterate_fixed (attStep_of_notOn hon), preload_of_notOn hon]
  rw [hp, ha, move.1]

/-- A switch-off of the attention region that takes effect leaves the issue state, and the last operation of the queue where that is none. -/
theorem applyOff_att (c : Core) : (applyOff c).att.issue = c.att.issue ∧ (applyOff c).att.issueRows = c.att.issueRows ∧
    ∀ o, c.att.queue.getLast? = some o → o ≠ .off → (applyOff c).att.queue.getLast? = some o := by
  obtain ⟨-, r1, -, -⟩ := bit_offReady c
  have hatt : (applyOff c).att = if bit (offReady c) 1 then { attClear c.att with queue := c.att.queue.drop 1 } else c.att := rfl
  rw [hatt]
  cases h1 : bit (offReady c) 1 with
  | false => exact ⟨rfl, rfl, fun o ho _ => ho⟩
  | true =>
    refine ⟨rfl, rfl, fun o ho hne => ?_⟩
    obtain ⟨r, hr⟩ := List.head?_eq_some_iff.mp (r1 h1)
    rw [hr] at ho
    have := getLast?_tail ho hne
    simpa [hr] using this

/-- An operation at the end of the ATTENTION queue of a region that is not on stays there, and the issue state stays. -/
theorem pump_att_of_notOn {l : Local} (h : l.core.regions.attention ≠ .on) {o : AttOp} (ho : l.core.att.queue.getLast? = some o)
    (hne : o ≠ .off) : l.pump.core.att.queue.getLast? = some o ∧ l.pump.core.att.issue = l.core.att.issue ∧
      l.pump.core.att.issueRows = l.core.att.issueRows := by
  have hp := progress_att_of_notOn h
  obtain ⟨hi, hr, hl⟩ := applyOff_att l.progress.core
  have hlast := hl o (by rw [hp]; exact ho) hne
  have hab : l.pump.core.att = (applyOff l.progress.core).att := by
    rw [pump_eq]
    dsimp only [settleRegions]
    rw [abandonOpen, if_neg]
    rintro ⟨-, hq⟩
    rw [hq] at hlast
    cases hlast
  rw [hab]
  exact ⟨hlast, by rw [hi, hp], by rw [hr, hp]⟩

/-- The attention state as a word without REGION_OFF leaves it. -/
theorem acted_att_of_stays {l : Local} {w : Slots} (hacts : l.acts w = w) (hoff : offMask w.m = 0) :
    (l.acted w).core.att = (((l.atIssue w).slotM w).applyA (l.atIssue w) w.a).core.att := by
  rw [acted_att, hacts, applyOffs_none _ hoff, Local.slotV, applyV_only]
  rfl

theorem slotM_att_queue (l : Local) (w : Slots) : ((l.atIssue w).slotM w).core.att.queue = l.core.att.queue := by
  rw [slotM_att, slotC_att, atIssue_att]

/-! ### The VECTOR queue -/

theorem progress_vec (l : Local) : l.progress.core.vec = l.core.vec := by
  rw [(progress_unit l).vec, (movePump_only _).2.2.2, flushed_only]

/-- An operation at the end of the VECTOR queue stays there as the units make progress. -/
theorem pump_vec_last {l : Local} {o : VecOp} (ho : l.core.vec.queue.getLast? = some o) (hne : o ≠ .off) :
    l.pump.core.vec.queue.getLast? = some o := by
  have hs : l.pump.core.vec = (applyOff l.progress.core).vec := by
    rw [pump_eq]
    dsimp only [settleRegions]
    rw [abandonOpen_core]
  obtain ⟨-, -, r2, -⟩ := bit_offReady l.progress.core
  have hvec : (applyOff l.progress.core).vec =
      if bit (offReady l.progress.core) 2 then { vecOff l.progress.core.vec with queue := l.progress.core.vec.queue.drop 1 }
      else l.progress.core.vec := rfl
  rw [hs, hvec]
  split
  · next h2 =>
    obtain ⟨r, hr⟩ := List.head?_eq_some_iff.mp (r2 h2)
    rw [progress_vec] at hr ⊢
    rw [hr] at ho
    simpa [hr] using getLast?_tail ho hne
  · rw [progress_vec]
    exact ho

/-- The vector state as a word without REGION_OFF leaves it. -/
theorem acted_vec_last {l : Local} {w : Slots} (hoff : offMask w.m = 0) (hv : w.v ≠ .nop) :
    (l.acted w).core.vec.queue.getLast? = some (.op w.v ((namesV w.v).head?.map l.pat) (vecScalar l w.v)) := by
  have hm : offMask (l.acts w).m = 0 := by
    simp only [Local.acts, issuing]
    split
    · rfl
    · exact hoff
  have hp : (l.atIssue w).pat = l.pat := funext fun i => atIssue_pat l w i
  have hs : vecScalar (l.atIssue w) w.v = vecScalar l w.v := by
    cases w.v <;> simp [vecScalar]
  rw [(acted_notes l w).core, actWord_eq, advance_only, applyOffs_none _ hm, Local.slotV, acts_v, Local.applyV, if_neg hv]
  simp only [Local.vecUpd, List.getLast?_concat, hp, hs]

theorem wordRow_v_ne_nop {i : Instr} {n : CoreId} {o : VOp} (h : wordRow i = some (n, .v o)) : o ≠ .nop := by
  rintro rfl
  cases i <;> cases h

theorem vectorRow_wordRow {i : Instr} {n : CoreId} {o : VOp} (h : vectorRow i = some (n, o)) : wordRow i = some (n, .v o) := by
  unfold vectorRow at h
  split at h
  · next n' o' he =>
    obtain ⟨rfl, rfl⟩ := Prod.mk.inj (Option.some.inj h)
    exact he
  · cases h

end Sys2Proof.Machine

namespace Sys2Proof.Proofs

open Sys2Proof Sys2Proof.Machine

/-- Settles O16: a region that is off or ramping takes nothing of its queue. -/
theorem attentionOpsEnterQueue : Obligations.AttentionOpsEnterQueue := by
  unfold Obligations.AttentionOpsEnterQueue
  intro n s w sy x y h fault hoff hon pat opt
  have hacts := acts_of_noSlotFault fault
  have hreg : ((s.localOf n.val).acted w).core.regions.attention ≠ .on := by
    rw [acted_regions, (requestRegions_states _ _).2.1]
    exact hon
  have hpat (i : BitVec 8) : ((s.localOf n.val).atIssue w).pat i = pat i := atIssue_pat _ w i
  have hopt (i : BitVec 8) : ((s.localOf n.val).atIssue w).pat? i = opt i := by simp only [Local.pat?, hpat, opt]
  have queued {i : Instr} {a : AOp} (row : wordRow i = some (n, .a a)) (ha : w.a = a) {q : List AttOp} {o : AttOp}
      (hq : ((((s.localOf n.val).atIssue w).slotM w).applyA ((s.localOf n.val).atIssue w) a).core.att.queue = q ++ [o]) (hne : o ≠ .off) :
      ∃ t, exec i s = .next t ∧ (t.core n.val).att.queue.getLast? = some o ∧
        (t.core n.val).att.issue = ((((s.localOf n.val).atIssue w).slotM w).applyA ((s.localOf n.val).atIssue w) a).core.att.issue ∧
        (t.core n.val).att.issueRows = ((((s.localOf n.val).atIssue w).slotM w).applyA ((s.localOf n.val).atIssue w) a).core.att.issueRows := by
    subst ha
    have hatt := acted_att_of_stays hacts hoff
    obtain ⟨h1, h2, h3⟩ := pump_att_of_notOn hreg (by rw [hatt, hq, List.getLast?_concat]) hne
    rw [hatt] at h2 h3
    refine ⟨_, exec_of_issues_a h row rfl, ?_⟩
    rw [State.issued_core, issueWord_eq h.ready]
    exact ⟨h1, h2, h3⟩
  refine ⟨fun ha => ?_, fun ha => ?_, fun ha => ?_, fun ha => ?_, fun ha => ?_⟩
  · obtain ⟨t, he, hq, hi, -⟩ := queued (i := .attMode n sy x) rfl ha rfl nofun
    exact ⟨t, _, he, hq, by rw [hpat], hi⟩
  · obtain ⟨t, he, hq, hi, hr⟩ := queued (i := .attQ n sy x y) rfl ha rfl nofun
    exact ⟨t, _, he, hq, by rw [hpat, hopt], hi, by rw [hr, ← hpat]; rfl⟩
  · obtain ⟨t, he, hq, -, -⟩ := queued (i := .attKv n sy x y) rfl ha rfl nofun
    exact ⟨t, _, he, hq, by rw [hpat, hpat], trivial⟩
  · obtain ⟨t, he, hq, -, -⟩ := queued (i := .attWalk n sy x) rfl ha rfl nofun
    exact ⟨t, _, he, hq, ⟨_, by rw [hpat, atIssue_seq]; rfl⟩, trivial⟩
  · obtain ⟨t, he, hq, hi, -⟩ := queued (i := .attOut n sy x y) rfl ha rfl nofun
    exact ⟨t, _, he, hq, by rw [hpat, hopt], hi⟩

/-- Settles O17: the operation is captured before the word and stands at the end of its queue as the units make progress. -/
theorem vectorOpsEnterQueue : Obligations.VectorOpsEnterQueue := by
  unfold Obligations.VectorOpsEnterQueue
  intro i n o s w row hv h hoff
  subst hv
  have hrow := vectorRow_wordRow row
  have hlast := acted_vec_last (l := s.localOf n.val) hoff (wordRow_v_ne_nop hrow)
  refine ⟨_, _, vecScalar (s.localOf n.val) w.v, exec_of_issues hrow (by simp [Slots.holds]) h, ?_, rfl, fun sy bf vd sa fn hs => ?_⟩
  · rw [State.issued_core, issueWord_eq h.ready]
    exact pump_vec_last hlast nofun
  · rw [hs]
    rfl

end Sys2Proof.Proofs
end

section
/-!
PROOF. The vector unit: an operation that dispatches writes its lanes to its register alone, a load and a store move whole runs; the progress
of the units that follows leaves the vector state.
-/

namespace Sys2Proof.Machine

/-! ### A unit's event and the progress that follows -/

/-- The core after a unit's event: its own, and the progress of the units that follows. -/
theorem onCore_unit {s : State} {n : Nat} (up : s.coreUp n = true) (f : Local → Local) :
    ((s.onCore n f).core n) = (f (s.localOf n)).core ∧ (s.onCore n f).mem = (f (s.localOf n)).mem := by
  rw [State.onCore_up _ _ _ up]
  exact ⟨by rw [putLocal_core, if_pos rfl], putLocal_mem _ _ _⟩

theorem pump_vec {l : Local} (h : l.core.vec.queue.head? ≠ some .off) : l.pump.core.vec = l.core.vec := by
  obtain ⟨-, -, -, -, -, -, hv⟩ := pump_core l
  exact hv h

theorem pump_regs (l : Local) : l.pump.core.seq.regs = l.core.seq.regs := by rw [(pump_core l).2.1]

/-! ### Vector registers -/

theorem vecGet_vecPut (s : VectorState) (vd r : RegId) (lanes : List Word) :
    vecGet (vecPut s vd lanes) r = if r = vd then lanes else vecGet s r := by
  unfold vecGet vecPut
  rw [mapGet_mapPut]
  simp only [BitVec.toNat_inj]

/-- The head of the VECTOR queue in dispatch: the queue goes on, the operation's effect, and the count. -/
theorem vecDispatch_op {l : Local} {o : VOp} {pat : Option Pattern} {scalar : DWord} {rest : List VecOp}
    (hq : l.core.vec.queue = .op o pat scalar :: rest) (hon : l.core.regions.vector = .on) :
    l.vecDispatch = ((({ l with core := { l.core with vec := { l.core.vec with queue := rest } } }).crossAll (vecPorts o pat)).runVec o pat
      scalar).vecUpd fun s => { s with ops := wrapAdd s.ops 1 } := by
  unfold Local.vecDispatch
  rw [hq, hon]

/-! ### Writes of runs -/

/-- The memory after a write of runs depends on the core's number and on memory alone. -/
theorem writeRuns_mem_congr {l m : Local} (henv : m.env = l.env) (hmem : m.mem = l.mem) (starts : List Int) (runs : List (List Byte)) :
    (m.writeRuns starts runs).mem = (l.writeRuns starts runs).mem := by
  induction starts generalizing l m runs with
  | nil => exact hmem
  | cons a r ih =>
    cases runs with
    | nil => exact hmem
    | cons b t =>
      exact ih (l := l.writeScr (4 * a.toNat) b) (m := m.writeScr (4 * a.toNat) b) henv (by simp only [Local.writeScr, henv, hmem]) t

/-- A byte outside the whole words of every run keeps its value. -/
theorem writeRuns_memGet (l : Local) (starts : List Int) (runs : List (List Byte)) (x : Nat)
    (h : ∀ w ∈ starts, ∀ b ∈ runs, x < scratchAddr l.env.n (4 * w.toNat) ∨
      scratchAddr l.env.n (4 * w.toNat) + (b.length + 3) / 4 * 4 ≤ x) :
    memGet (l.writeRuns starts runs).mem x = memGet l.mem x := by
  induction starts generalizing l runs with
  | nil => rfl
  | cons a r ih =>
    cases runs with
    | nil => rfl
    | cons b t =>
      have first := h a List.mem_cons_self b List.mem_cons_self
      rw [Local.writeRuns, ih (l.writeScr (4 * a.toNat) b) t fun w hw c hc => h w (List.mem_cons_of_mem _ hw) c (List.mem_cons_of_mem _ hc)]
      refine memGet_memWrite_out _ _ _ _ ?_
      rw [List.length_append, List.length_replicate]
      omega

/-- A store writes the encoded lanes to the runs of its pattern and leaves the vector and the attention state. -/
theorem runVst_writes (l : Local) (va : RegId) (p : Pattern) :
    let stored := (chunks p.n0 ((vecGet l.core.vec va).take (patElems p)).length ((vecGet l.core.vec va).take (patElems p))).map
      fun c => (encodeRun (patFormat p) c).bytes
    (l.runVst va p).mem = (l.writeRuns (patRuns p) stored).mem ∧ (l.runVst va p).core.vec = l.core.vec ∧
    (l.runVst va p).core.att = l.core.att := by
  have hw (runs : List (List Byte)) := (writeRuns_writes l (patRuns p) runs).core
  dsimp only [Local.runVst, Local.countNumeric]
  rw [List.map_map]
  exact ⟨rfl, by rw [hw], by rw [hw]⟩

theorem mem_of_noAttention {l : Local} (h : l.core.att.queue = []) : l.pump.mem = l.mem :=
  pump_mem_of_noOut fun _ _ _ hm => by rw [h] at hm; cases hm

theorem vecDispatch_clear {l : Local} {rest : List VecOp} (hq : l.core.vec.queue = .clear :: rest) (hon : l.core.regions.vector = .on) :
    l.vecDispatch = l.vecUpd fun s => vecClear { s with queue := rest } := by
  unfold Local.vecDispatch
  rw [hq, hon]

end Sys2Proof.Machine

namespace Sys2Proof.Proofs

open Sys2Proof Sys2Proof.Machine

/-- Settles O18: each operation writes one register, of what the registers held as it came to the head of its queue. -/
theorem vectorLaneResults : Obligations.VectorLaneResults := by
  unfold Obligations.VectorLaneResults
  intro n s o pat scalar rest up hq hon hoff g writes
  set l := s.localOf n.val with hl
  set m := ({ l with core := { l.core with vec := { l.core.vec with queue := rest } } } : Local).crossAll (vecPorts o pat) with hm
  have hmc := crossAll_core { l with core := { l.core with vec := { l.core.vec with queue := rest } } } (vecPorts o pat)
  rw [← hm] at hmc
  have hg (r : RegId) : vecGet m.core.vec r = g r := by rw [hmc]; rfl
  have hvec : m.core.vec = { l.core.vec with queue := rest } := by rw [hmc]
  have hregs : m.core.seq.regs = (s.core n.val).seq.regs := by rw [hmc]; rfl
  have hlevel : m.env.level = (s.coreEnv n.val).level := by rw [hm, (crossAll_reads _ _).env]; rfl
  have htable : m.core.vec.table = (s.core n.val).vec.table := by rw [hvec]; rfl
  have done {vd : RegId} {lanes : List Word} (hkv : (m.runVec o pat scalar).core.vec = vecPut m.core.vec vd lanes)
      (hkr : (m.runVec o pat scalar).core.seq = m.core.seq) : writes vd lanes := by
    obtain ⟨hc, -⟩ := onCore_unit (f := fun l => l.vecDispatch.pump) up
    have hd : l.vecDispatch = (m.runVec o pat scalar).vecUpd fun s => { s with ops := wrapAdd s.ops 1 } := vecDispatch_op hq hon
    have hv : l.vecDispatch.core.vec = { vecPut m.core.vec vd lanes with ops := wrapAdd (s.core n.val).vec.ops 1 } := by
      rw [hd, Local.vecUpd]
      dsimp only
      rw [hkv, hvec]
      rfl
    have hp := pump_vec (l := l.vecDispatch) (by rw [hv, hvec]; exact hoff)
    refine ⟨_, rfl, ?_, ?_, ?_, fun r => ?_⟩
    · rw [hc, ← hl, hp, hv, hvec]
      rfl
    · rw [hc, ← hl, hp, hv]
    · rw [hc, ← hl, pump_regs, hd]
      show (m.runVec o pat scalar).core.seq.regs = _
      rw [hkr, hregs]
    · rw [hc, ← hl, hp, hv, ← hg]
      exact vecGet_vecPut _ _ _ _
  refine ⟨?_, ?_, ?_, ?_, ?_, ?_, ?_, ?_, ?_⟩
  · rintro op sy bf vd va vb rfl
    exact done (by simp only [Local.runVec, Local.setLanes, Local.vecUpd, hg]) rfl
  · rintro sy bf vd va vb vc rfl
    exact done (by simp only [Local.runVec, Local.setLanes, Local.vecUpd, hg]) rfl
  · rintro sy bf vd va fn rfl
    exact done (by simp only [Local.runVec, Local.setLanes, Local.vecUpd, hg, hlevel]) rfl
  · rintro sy bf vd va fn rfl
    exact done (by simp only [Local.runVec, Local.setLanes, Local.vecUpd, hg, htable]) rfl
  · rintro sy bf vd va fn rfl
    exact done (by simp only [Local.runVec, Local.setLanes, Local.vecUpd, hg]; rfl) rfl
  · rintro sy bf vd va fn rfl
    exact done (by simp only [Local.runVec, Local.runVcvt, Local.vecUpd, Local.countNumeric, hg, List.map_map]; rfl) rfl
  · rintro sy bf vd va vb fn rfl
    exact done (by simp only [Local.runVec, Local.setLanes, Local.vecUpd, hg]) rfl
  · rintro sy bf vd va vb vc rfl
    exact done (by simp only [Local.runVec, Local.setLanes, Local.vecUpd, hg]; rfl) rfl
  · rintro sy bf vd sa fn rfl
    exact done (by simp only [Local.runVec, Local.setLanes, Local.vecUpd]; rfl) rfl

/-- Settles O19: a load reads whole runs, a store writes whole words of the runs, and nothing else follows while no ATT_OUT waits. -/
theorem vectorMemoryOps : Obligations.VectorMemoryOps := by
  unfold Obligations.VectorMemoryOps
  intro n s rest sy bf r i p scalar up hon hoff hatt v runs stored dispatches
  set l := s.localOf n.val with hl
  have scratch (m : Local) (henv : m.env = l.env) (hmem : m.mem = l.mem) (port : Nat) :
      (m.readRuns port (patRunBytes p) (patRuns p)).1 = runs := by
    rw [readRuns_bytes]
    exact List.map_congr_left fun w _ => Local.scr_congr henv hmem _ _
  have done {d : Local} (hd : l.vecDispatch = d) (hq : d.core.vec.queue = rest) (ha : d.core.att = l.core.att) :
      ∃ t, exec (.vectorDispatch n) s = .next t ∧ (t.core n.val).vec.queue = rest ∧ (t.core n.val).vec = d.core.vec ∧ t.mem = d.mem := by
    obtain ⟨hc, hm⟩ := onCore_unit (f := fun l => l.vecDispatch.pump) up
    rw [← hl, hd] at hc hm
    have hv := pump_vec (l := d) (by rw [hq]; exact hoff)
    exact ⟨_, rfl, by rw [hc, hv, hq], by rw [hc, hv], hm.trans (mem_of_noAttention (by rw [ha]; exact hatt))⟩
  have reads (o : VOp) : ReadKeeps { l with core := { l.core with vec := { l.core.vec with queue := rest } } }
      (({ l with core := { l.core with vec := { l.core.vec with queue := rest } } } : Local).crossAll (vecPorts o (some p))) :=
    crossAll_reads _ _
  refine ⟨fun hq => ?_, fun hq => ?_, fun hq => ?_, fun hq => ?_⟩
  · have k := reads (.vld sy bf r i)
    have h8 := k.trans (readRuns_reads _ 8 (patRunBytes p) (patRuns p))
    obtain ⟨t, he, htq, htv, htm⟩ := done (vecDispatch_op hq hon) (congrArg VectorState.queue h8.vec) h8.att
    refine ⟨t, he, htq, htm.trans h8.mem, fun x => ?_⟩
    rw [htv]
    simp only [Local.runVec, Local.runVld, Local.vecUpd, scratch _ k.env k.mem]
    refine (vecGet_vecPut _ r x _).trans ?_
    rw [h8.vec]
    rfl
  · have k := reads (.vst sy bf r i)
    set m := ({ l with core := { l.core with vec := { l.core.vec with queue := rest } } } : Local).crossAll (vecPorts (.vst sy bf r i) (some p)) with hm
    have hg : vecGet m.core.vec r = vecGet v r := by rw [k.vec]; rfl
    obtain ⟨hmem, hvec, hat⟩ := runVst_writes m r p
    rw [hg] at hmem
    have hstored : (m.writeRuns (patRuns p) stored).mem = (l.writeRuns (patRuns p) stored).mem := writeRuns_mem_congr (l := l) k.env k.mem _ _
    obtain ⟨t, he, htq, htv, htm⟩ := done (vecDispatch_op hq hon)
      ((congrArg VectorState.queue hvec).trans (congrArg VectorState.queue k.vec)) (hat.trans k.att)
    have htmem : t.mem = (l.writeRuns (patRuns p) stored).mem := htm.trans (hmem.trans hstored)
    refine ⟨t, he, htq, htmem, fun x => ?_, fun a ha => ?_⟩
    · rw [htv]
      show vecGet (m.runVst r p).core.vec x = _
      rw [hvec, k.vec]
      rfl
    · rw [htmem]
      exact writeRuns_memGet l _ _ a ha
  · have k := reads (.vtload sy bf i)
    have h8 := k.trans (readRuns_reads _ 8 (patRunBytes p) (patRuns p))
    obtain ⟨t, he, htq, htv, htm⟩ := done (vecDispatch_op hq hon) (congrArg VectorState.queue h8.vec) h8.att
    refine ⟨t, he, htq, htm.trans h8.mem, ?_⟩
    rw [htv]
    simp only [Local.runVec, Local.runVtload, Local.vecUpd, scratch _ k.env k.mem]
    refine ⟨trivial, fun x => ?_⟩
    rw [h8.vec]
    rfl
  · obtain ⟨t, he, htq, htv, htm⟩ := done (vecDispatch_clear hq hon) rfl rfl
    refine ⟨t, he, htq, htm, ?_⟩
    rw [htv]
    exact ⟨rfl, fun x => rfl⟩

end Sys2Proof.Proofs
end

section
/-!
PROOF. The stages of the matrix array: while a pass or a flush, or nothing, heads the ARRAY queue, the progress of the units leaves the array
but for its numeric counters.
-/

namespace Sys2Proof.Machine

/-! ### A steady ARRAY queue -/

/-- Nothing stands at the head of the ARRAY queue but a pass or a flush, which waits for its own row. -/
def SteadyQueue (q : List ArrOp) : Prop := ∀ o r, q = o :: r → occupies o = true

/-- The step changes of the array its numeric counters alone. -/
structure ArrayRests (l m : Local) : Prop where
  regions : m.core.regions = l.core.regions
  arr : m.core.arr = { l.core.arr with saturations := m.core.arr.saturations, nanBlocks := m.core.arr.nanBlocks }

theorem ArrayRests.refl (l : Local) : ArrayRests l l := ⟨rfl, rfl⟩

theorem ArrayRests.trans {l m k : Local} (h : ArrayRests l m) (g : ArrayRests m k) : ArrayRests l k :=
  ⟨g.regions.trans h.regions, by rw [g.arr, h.arr]⟩

theorem AttStep.arrayRests {l m : Local} (h : AttStep l m) : ArrayRests l m := ⟨h.reads.regions, by rw [h.reads.arr]⟩

theorem runAttOut_arrayRests (l : Local) (x : Pattern) (y : Option Pattern) : ArrayRests l (l.runAttOut x y) := by
  have upd (m : Local) (f : AttState → AttState) : ArrayRests m (m.attUpd f) := ⟨rfl, rfl⟩
  have count (m : Local) (a b : Nat) : ArrayRests m (m.countNumeric a b) := ⟨rfl, rfl⟩
  have read (m : Local) (ps : List (Nat × Pattern)) : ArrayRests m (m.crossAll ps) := by
    have k := crossAll_core m ps
    constructor <;> rw [k]
  have write (m : Local) (starts : List Int) (runs : List (List Byte)) : ArrayRests m (m.writeRuns starts runs) := by
    have k := (writeRuns_writes m starts runs).core
    constructor <;> rw [k]
  unfold Local.runAttOut
  split
  · exact .refl l
  · dsimp only
    refine ArrayRests.trans ?_ (upd _ _)
    split
    · exact upd l _
    · refine (ArrayRests.trans ?_ (upd _ _)).trans (count _ _ _)
      cases y with
      | none => exact (read l _).trans (write _ _ _)
      | some p => exact ((read l _).trans (write _ _ _)).trans (write _ _ _)

theorem attStep_arrayRests (l : Local) : ArrayRests l l.attStep := by
  rcases attStep_cases l with ⟨sy, x, y, rest, -, -, h⟩ | h
  · rw [h]
    exact (runAttOut_arrayRests l x y).trans ⟨rfl, rfl⟩
  · exact h.arrayRests

theorem arrayStep_of_steady {l : Local} (h : SteadyQueue l.core.arr.queue) : l.arrayStep = l := by
  cases hq : l.core.arr.queue with
  | nil => exact arrayStep_of_empty hq
  | cons o r =>
    have ho := h o r hq
    cases o with
    | pass sy x y acc => simp only [Local.arrayStep, hq]
    | flush b => simp only [Local.arrayStep, hq]
    | _ => cases ho

theorem progress_of_running {l : Local} (run : l.core.seq.run ≠ .stopped) : l.progress =
    (iterate 8 Local.attStep (iterate 16 Local.arrayStep l.movePump)).preload := by
  unfold Local.progress
  rw [if_neg run]

/-- Where no fault has stopped the core, progress leaves a steady array. -/
theorem progress_arrayRests {l : Local} (run : l.core.seq.run ≠ .stopped) (h : SteadyQueue l.core.arr.queue) : ArrayRests l l.progress := by
  have move : ArrayRests l l.movePump := by
    have k := (movePump_only l).2.2.2
    constructor <;> rw [k]
  have steady : SteadyQueue l.movePump.core.arr.queue := by
    rw [(movePump_only l).2.2.2]
    exact h
  rw [progress_of_running run, iterate_fixed (arrayStep_of_steady steady)]
  exact (move.trans (iterate_rel .refl (fun _ _ _ => .trans) attStep_arrayRests 8 _)).trans (preload_attStep _).arrayRests

/-- No switch-off of the array or of the gather region can be ready behind a pass or a flush. -/
theorem applyOff_arr_of_steady {c : Core} (h : SteadyQueue c.arr.queue) : (applyOff c).arr = c.arr := by
  obtain ⟨r0, -, -, r3⟩ := bit_offReady c
  have head {o : ArrOp} (ho : c.arr.queue.head? = some o) : occupies o = true := by
    obtain ⟨r, hr⟩ := List.head?_eq_some_iff.mp ho
    exact h o r hr
  have h0 : bit (offReady c) 0 = false := by
    by_contra hb
    exact Bool.false_ne_true (head (r0 (by simpa using hb)))
  have h3 : bit (offReady c) 3 = false := by
    by_contra hb
    exact Bool.false_ne_true (head (r3 (by simpa using hb)))
  have harr : (applyOff c).arr = (fun a : ArrayState => if bit (offReady c) 0 then arrayOff a else a)
      (if bit (offReady c) 0 || bit (offReady c) 3 then { c.arr with queue := c.arr.queue.drop 1 } else c.arr) := rfl
  rw [harr, h0, h3]
  rfl

theorem pump_arrayRests {l : Local} (run : l.core.seq.run ≠ .stopped) (h : SteadyQueue l.core.arr.queue) :
    l.pump.core.arr = { l.core.arr with saturations := l.progress.core.arr.saturations, nanBlocks := l.progress.core.arr.nanBlocks } := by
  have k := progress_arrayRests run h
  rw [pump_eq]
  dsimp only
  rw [settleRegions_arr, applyOff_arr_of_steady (by rw [k.arr]; exact h), k.arr]

/-! ### Fronts, passes and the timeout -/

theorem frontStart_placed {l : Local} {h : WeightLoad} {hs : List WeightLoad} (hr : l.core.arr.running = none) (hh : l.core.arr.halves = h :: hs)
    (hf : l.core.arr.front = false) :
    l.frontStart = l.arrUpd fun s => placeFront s h l.core.seq.beats (frontSegments l.core.ctrl.arrayExpertNow) := by
  unfold Local.frontStart
  rw [hr, hh, hf]
  rfl

/-- Once the front of the newest load has been asked for, it stands; the rest of the core is as it was. -/
theorem frontStart_only {l : Local} {h : WeightLoad} {hs : List WeightLoad} (hr : l.core.arr.running = none) (hh : l.core.arr.halves = h :: hs) :
    l.frontStart.core.arr.front = true ∧ l.frontStart.core = { l.core with arr := l.frontStart.core.arr } := by
  cases hf : l.core.arr.front with
  | true =>
    have hs : l.frontStart = l := by
      unfold Local.frontStart
      rw [hr, hh, hf]
      rfl
    rw [hs]
    exact ⟨hf, rfl⟩
  | false =>
    rw [frontStart_placed hr hh hf]
    exact ⟨rfl, rfl⟩

theorem readActivations_reads (l : Local) (xs : List Pattern) : ReadKeeps l (l.readActivations xs).2 := by
  induction xs generalizing l with
  | nil => exact .refl l
  | cons x r ih => exact (readRuns_reads l _ _ _).trans (ih _)

/-- The activation store is filled; where no word is in error, nothing else of the core changes but the ports' waits. -/
theorem fillActivations_only {l : Local} (clean : l.core.scr.badParity = []) (k : Nat) (o : ArrOp) :
    (l.fillActivations k o).core.seq = l.core.seq ∧
    (l.fillActivations k o).core.arr = { l.core.arr with activations := (l.fillActivations k o).core.arr.activations } := by
  unfold Local.fillActivations
  split
  · have hr := ((readActivations_reads l (opPatterns o)).clean clean).2
    dsimp only [Local.arrUpd]
    rw [hr]
    exact ⟨rfl, rfl⟩
  · exact ⟨rfl, rfl⟩

theorem passStart_eq {l : Local} {h : WeightLoad} {hs : List WeightLoad} {o : ArrOp} {rest : List ArrOp} (hr : l.core.arr.running = none)
    (hq : l.core.arr.queue = o :: rest) (hh : l.core.arr.halves = h :: hs) (ho : occupies o = true) :
    l.passStart = (l.frontStart.fillActivations h.load.k o).arrUpd fun s => { s with queue := rest, running := some (o, h) } := by
  unfold Local.passStart
  rw [hr, hq, hh]
  exact if_pos ho

theorem steady_append_flush {q : List ArrOp} (h : SteadyQueue q) (b : List GatherEntry) : SteadyQueue (q ++ [.flush b]) := by
  cases q with
  | nil =>
    intro o r hq
    obtain ⟨rfl, -⟩ := List.cons.inj hq
    rfl
  | cons p t =>
    intro o r hq
    obtain ⟨rfl, -⟩ := List.cons.inj hq
    exact h _ t rfl

theorem timeoutNow_of_ne {cfg : GatherCfg} (h : cfg.timeout ≠ 0) (expert : BitVec 32) :
    timeoutNow cfg expert = max cfg.timeout (field expert 16 8).toNat ∧ timeoutNow cfg expert ≠ 0 := by
  have e : timeoutNow cfg expert = max cfg.timeout (field expert 16 8).toNat := if_neg h
  exact ⟨e, by rw [e]; omega⟩

end Sys2Proof.Machine

namespace Sys2Proof.Proofs

open Sys2Proof Sys2Proof.Machine

/-- Settles O20: each stage changes the array alone, and the progress that follows leaves a steady array. -/
theorem arrayStages : Obligations.ArrayStages := by
  unfold Obligations.ArrayStages
  intro n s h hs o rest up run a steady
  have hrun : (s.core n.val).seq.run ≠ .stopped := by rw [run]; nofun
  refine ⟨fun hr hh hf hst => ?_, fun hr hh hq ho hst clean => ?_, fun hg ht hw hst => ?_⟩
  · obtain ⟨hc, -⟩ := onCore_unit (f := fun l => l.frontStart.pump) up
    have hfs := frontStart_placed (l := s.localOf n.val) hr hh hf
    have hp := pump_arrayRests (l := (s.localOf n.val).frontStart) (by rw [hfs]; exact hrun) (by rw [hfs]; exact hst)
    refine ⟨_, rfl, ?_⟩
    rw [hc, hp, hfs]
    exact ⟨rfl, rfl, rfl⟩
  · obtain ⟨hc, -⟩ := onCore_unit (f := fun l => l.passStart.pump) up
    have hps := passStart_eq (l := s.localOf n.val) hr hq hh ho
    obtain ⟨hfront, hcore⟩ := frontStart_only (l := s.localOf n.val) hr hh
    obtain ⟨hseq, harr⟩ := fillActivations_only (l := (s.localOf n.val).frontStart) (by rw [hcore]; exact clean) h.load.k o
    have hp := pump_arrayRests (l := (s.localOf n.val).passStart)
      (by rw [hps]; show (((s.localOf n.val).frontStart.fillActivations h.load.k o).core.seq.run ≠ .stopped); rw [hseq, hcore]; exact hrun)
      (by rw [hps]; exact hst)
    refine ⟨_, rfl, ?_⟩
    rw [hc, hp, hps]
    refine ⟨rfl, rfl, ?_⟩
    show ((s.localOf n.val).frontStart.fillActivations h.load.k o).core.arr.front = true
    rw [harr]
    exact hfront
  · obtain ⟨hc, -⟩ := onCore_unit (f := fun l => l.gatherTimeout.pump) up
    obtain ⟨htn, hne⟩ := timeoutNow_of_ne ht (s.core n.val).ctrl.arrayExpertNow
    have hgt : (s.localOf n.val).gatherTimeout = ((s.localOf n.val).seqr fun q => { q with beats := max q.beats (a.gatherStart + 16 *
        timeoutNow a.gatherCfg (s.core n.val).ctrl.arrayExpertNow) }).arrUpd fun a => flushGather a .timeout := by
      unfold Local.gatherTimeout
      refine if_neg ?_
      rintro (he | he)
      · exact hg (List.isEmpty_iff.mp he)
      · exact hne he
    have hfl : (flushGather a .timeout).queue = a.queue ++ [.flush a.gather] := by
      simp only [flushGather, hg, if_false, putFlush_of_noGather _ hw]
    have hp := pump_arrayRests (l := (s.localOf n.val).gatherTimeout) (by rw [hgt]; exact hrun)
      (by rw [hgt]; show SteadyQueue (flushGather a .timeout).queue; rw [hfl]; exact steady_append_flush hst _)
    refine ⟨_, rfl, ?_⟩
    rw [hc, hp, (pump_core _).2.1, hgt, ← htn]
    refine ⟨?_, rfl, hfl, ?_, ?_⟩
    · show (flushGather a .timeout).gather = []
      simp [flushGather, hg]
    · show (flushGather a .timeout).flushTimeout = _
      simp [flushGather, hg]
    · show (flushGather a .timeout).gatherRows = _
      simp [flushGather, hg]

end Sys2Proof.Proofs
end

section
/-!
PROOF. The end of an array pass and of a gather flush: the results are written to the runs of Y and nothing else; the array is free.
-/

namespace Sys2Proof.Machine

/-! ### The results of a load in memory -/

theorem map_mapIdx {α β γ : Type} (l : List α) (f : Nat → α → β) (g : β → γ) : (l.mapIdx f).map g = l.mapIdx fun i a => g (f i a) := by
  rw [List.mapIdx_eq_zipIdx_map, List.mapIdx_eq_zipIdx_map, List.map_map]
  rfl

/-- Memory `m` once the results of X against a load are written to Y by the core of `l`. -/
def loadResults (l : Local) (h : WeightLoad) (m : List Host.Cell) (x y : Pattern) (acc : Bool) (held : Option (List (List Byte))) :
    List Host.Cell :=
  let run (p : Pattern) : List (List Byte) := (patRuns p).map fun w => memRead m (scratchAddr l.env.n (4 * w.toNat)) (patRunBytes p)
  let rows := activationRows h.load.k ((held.getD (run x)).map (decodeRun (patFormat x) x.n0))
  let old := (run y).flatMap fun b => unpackCodes (fmtWidth (patFormat y)) y.n0 (leNat b)
  let codes := (rows.flatMap fun a => h.rows.map fun w => dotRow h.load.format h.load.k w a).mapIdx fun i r =>
    (resultCode (patFormat y) r.1 (if acc then some ((old[i]?).getD 0) else none)).1
  ({ l with mem := m }.writeRuns (patRuns y) (resultRuns y codes)).mem

theorem activationRuns_reads (l : Local) (x : Pattern) (held : Option (List (List Byte))) : ReadKeeps l (l.activationRuns x held).2 := by
  cases held with
  | some runs => exact .refl l
  | none => exact readRuns_reads l _ _ _

theorem activationRuns_bytes (l : Local) (x : Pattern) (held : Option (List (List Byte))) :
    (l.activationRuns x held).1 = held.getD ((patRuns x).map fun w => l.scr (4 * w.toNat) (patRunBytes x)) := by
  cases held with
  | some runs => rfl
  | none => exact readRuns_bytes l _ _ _

/-- What Y held before, and the core once it has been read where ACC = 1. -/
theorem readOld_reads (l : Local) (y : Pattern) (acc : Bool) : ReadKeeps l (if acc then l.readResults y else ([], l)).2 := by
  cases acc with
  | false => exact .refl l
  | true => exact readRuns_reads l _ _ _

theorem applyLoad_mem {l k : Local} (henv : k.env = l.env) (h : WeightLoad) (x y : Pattern) (acc : Bool) (held : Option (List (List Byte)))
    (times : Nat) : (k.applyLoad h x y acc held times).mem = loadResults l h k.mem x y acc held ∧
      (k.applyLoad h x y acc held times).env = k.env := by
  have ka := activationRuns_reads k x held
  have ko := readOld_reads (k.activationRuns x held).2 y acc
  have kk := ka.trans ko
  have hrows : (k.activationRuns x held).1 =
      held.getD ((patRuns x).map fun w => memRead k.mem (scratchAddr l.env.n (4 * w.toNat)) (patRunBytes x)) := by
    rw [activationRuns_bytes, ← henv]
    rfl
  have hold (i : Nat) : (if acc then some ((((if acc then (k.activationRuns x held).2.readResults y else ([], (k.activationRuns x held).2)).1)[i]?).getD 0)
      else none) = if acc then some (((((patRuns y).map fun w => memRead k.mem (scratchAddr l.env.n (4 * w.toNat)) (patRunBytes y)).flatMap
        fun b => unpackCodes (fmtWidth (patFormat y)) y.n0 (leNat b))[i]?).getD 0) else none := by
    cases acc with
    | false => rfl
    | true =>
      have hr : ((k.activationRuns x held).2.readResults y).1 = ((patRuns y).map fun w =>
          memRead k.mem (scratchAddr l.env.n (4 * w.toNat)) (patRunBytes y)).flatMap
            fun b => unpackCodes (fmtWidth (patFormat y)) y.n0 (leNat b) := by
        simp only [Local.readResults, readRuns_bytes]
        congr 1
        refine List.map_congr_left fun w _ => ?_
        rw [Local.scr, ka.mem, ka.env, henv]
      simp only [if_true, hr]
  refine ⟨?_, ?_⟩
  · unfold Local.applyLoad loadResults
    dsimp only [Local.arrUpd]
    rw [map_mapIdx]
    simp only [passResults, hrows, hold]
    exact writeRuns_mem_congr (l := { l with mem := k.mem }) (kk.env.trans henv) kk.mem _ _
  · unfold Local.applyLoad
    dsimp only [Local.arrUpd]
    rw [(writeRuns_writes _ _ _).env, kk.env]

theorem applyBatch_mem {l k : Local} (henv : k.env = l.env) (h : WeightLoad) (batch : List GatherEntry) (acts : List (List (List Byte)))
    (i times : Nat) : (k.applyBatch h batch (acts.drop i) times).mem =
      (batch.zipIdx i).foldl (fun m e => loadResults l h m e.1.x e.1.y false acts[e.2]?) k.mem := by
  induction batch generalizing k i with
  | nil => rfl
  | cons g r ih =>
    obtain ⟨hm, he⟩ := applyLoad_mem henv h g.x g.y false (acts.drop i).head? times
    rw [Local.applyBatch, List.drop_drop, ih (he.trans henv), hm, List.head?_drop, List.zipIdx_cons, List.foldl_cons]

/-! ### The array is free -/

/-- The operation that occupies the array and the count of passes stay. -/
structure PassesKeep (l m : Local) : Prop where
  running : m.core.arr.running = l.core.arr.running
  passes : m.core.arr.passes = l.core.arr.passes

theorem PassesKeep.refl (l : Local) : PassesKeep l l := ⟨rfl, rfl⟩

theorem PassesKeep.trans {l m k : Local} (h : PassesKeep l m) (g : PassesKeep m k) : PassesKeep l k :=
  ⟨g.running.trans h.running, g.passes.trans h.passes⟩

theorem ArrayRests.passes {l m : Local} (h : ArrayRests l m) : PassesKeep l m := by
  constructor <;> rw [h.arr]

theorem flushGather_passes (a : ArrayState) (c : FlushCause) :
    (flushGather a c).running = a.running ∧ (flushGather a c).passes = a.passes := by
  unfold flushGather
  split <;> exact ⟨rfl, rfl⟩

theorem forceFlush_passes (a : ArrayState) : (forceFlush a).running = a.running ∧ (forceFlush a).passes = a.passes := by
  unfold forceFlush
  dsimp only
  split <;> exact flushGather_passes a _

theorem addGather_passes (a : ArrayState) (e : GatherEntry) (beats : Nat) :
    (addGather a e beats).running = a.running ∧ (addGather a e beats).passes = a.passes := by
  have h : (if 64 < gatherCount a + e.rows then flushGather a .forced else a).running = a.running ∧
      (if 64 < gatherCount a + e.rows then flushGather a .forced else a).passes = a.passes := by
    split
    · exact flushGather_passes a _
    · exact ⟨rfl, rfl⟩
  unfold addGather
  generalize (if 64 < gatherCount a + e.rows then flushGather a .forced else a) = s1 at h ⊢
  dsimp only
  split
  · rw [(flushGather_passes _ _).1, (flushGather_passes _ _).2]
    exact h
  · exact h

theorem arrayStep_passes (l : Local) : PassesKeep l l.arrayStep := by
  unfold Local.arrayStep
  dsimp only
  split
  · split
    · next sy x packed _ _ _ =>
      have k := (((cross_reads (l.arrUpd fun s => { s with queue := s.queue.drop 1 }) 0 (patLines x)).trans (readRuns_reads _ 0
        (weightRunBytes (loadRecordOf x packed).format packed (loadRecordOf x packed).k) (patRuns x)))).arr
      unfold Local.runWload
      constructor <;> simp only [Local.arrUpd] at k ⊢ <;> rw [k]
    · exact .refl l
  · split
    · exact ⟨(addGather_passes _ _ _).1, (addGather_passes _ _ _).2⟩
    · exact .refl l
  · exact ⟨rfl, rfl⟩
  · exact ⟨(flushGather_passes _ _).1, (flushGather_passes _ _).2⟩
  · exact .refl l

theorem pump_passes (l : Local) : l.pump.core.arr.running = l.core.arr.running ∧ l.pump.core.arr.passes = l.core.arr.passes := by
  have move (x : Local) : PassesKeep x x.movePump := by
    have k := (movePump_only x).2.2.2
    constructor <;> rw [k]
  have k : PassesKeep l l.progress :=
    progress_rel .refl (fun _ _ _ => .trans) (fun x => ⟨(forceFlush_passes _).1, (forceFlush_passes _).2⟩) move arrayStep_passes
      (fun x => (attStep_arrayRests x).passes) (fun x => (preload_attStep x).arrayRests.passes) l
  have off : (applyOff l.progress.core).arr.running = l.progress.core.arr.running ∧
      (applyOff l.progress.core).arr.passes = l.progress.core.arr.passes := by
    unfold applyOff
    dsimp only
    repeat' (first | exact ⟨rfl, rfl⟩ | split)
  rw [pump_eq]
  dsimp only
  rw [settleRegions_arr, off.1, off.2]
  exact ⟨k.running, k.passes⟩

theorem applyLoad_arr (k : Local) (h : WeightLoad) (x y : Pattern) (acc : Bool) (held : Option (List (List Byte))) (times : Nat) :
    (k.applyLoad h x y acc held times).core.arr.passes = k.core.arr.passes ∧ (k.applyLoad h x y acc held times).core.att = k.core.att := by
  have kk := (activationRuns_reads k x held).trans (readOld_reads (k.activationRuns x held).2 y acc)
  unfold Local.applyLoad
  dsimp only [Local.arrUpd]
  rw [(writeRuns_writes _ _ _).core]
  exact ⟨congrArg ArrayState.passes kk.arr, kk.att⟩

theorem applyBatch_arr (k : Local) (h : WeightLoad) (batch : List GatherEntry) (held : List (List (List Byte))) (times : Nat) :
    (k.applyBatch h batch held times).core.arr.passes = k.core.arr.passes ∧ (k.applyBatch h batch held times).core.att = k.core.att := by
  induction batch generalizing k held with
  | nil => exact ⟨rfl, rfl⟩
  | cons g r ih =>
    obtain ⟨h1, h2⟩ := ih (k.applyLoad h g.x g.y false held.head? times) (held.drop 1)
    obtain ⟨a1, a2⟩ := applyLoad_arr k h g.x g.y false held.head? times
    exact ⟨h1.trans a1, h2.trans a2⟩

theorem countPass_passes (s : ArrayState) (h : WeightLoad) (rows : Nat) :
    (countPass s h rows).running = none ∧ (countPass s h rows).passes = wrapAdd s.passes 1 := by
  unfold countPass dealSegments
  exact ⟨rfl, rfl⟩

theorem passEnd_pass {l : Local} {sy acc : Bool} {x y : Pattern} {h : WeightLoad} (hr : l.core.arr.running = some (.pass sy x y acc, h)) :
    l.passEnd = ((l.crossAll (arrPorts (.pass sy x y acc))).applyLoad h x y acc l.core.arr.activations.head?
      (readings h.load (.pass sy x y acc))).arrUpd fun s => countPass s h (opRows h.load.k (.pass sy x y acc)) := by
  unfold Local.passEnd
  rw [hr]

theorem passEnd_flush {l : Local} {b : List GatherEntry} {h : WeightLoad} (hr : l.core.arr.running = some (.flush b, h)) :
    l.passEnd = ((l.crossAll (arrPorts (.flush b))).applyBatch h b l.core.arr.activations (readings h.load (.flush b))).arrUpd fun s =>
      countPass s h (opRows h.load.k (.flush b)) := by
  unfold Local.passEnd
  rw [hr]

end Sys2Proof.Machine

namespace Sys2Proof.Proofs

open Sys2Proof Sys2Proof.Machine

/-- Settles O21: the results go to the runs of Y in turn, and while no ATT_OUT waits nothing writes after them. -/
theorem arrayPassWritesResults : Obligations.ArrayPassWritesResults := by
  unfold Obligations.ArrayPassWritesResults
  intro n s h up hatt a run results ends
  have done {k : Local} {rows : Nat} (hd : (s.localOf n.val).passEnd = k.arrUpd fun s => countPass s h rows)
      (hp : k.core.arr.passes = a.passes) (ha : k.core.att = (s.core n.val).att) : ends k.mem := by
    obtain ⟨hc, hm⟩ := onCore_unit (f := fun l => l.passEnd.pump) up
    obtain ⟨p1, p2⟩ := pump_passes (s.localOf n.val).passEnd
    obtain ⟨c1, c2⟩ := countPass_passes k.core.arr h rows
    refine ⟨_, rfl, ?_, ?_, ?_⟩
    · rw [hc, p1, hd]
      exact c1
    · rw [hc, p2, hd]
      exact c2.trans (by rw [hp])
    · rw [hm, mem_of_noAttention (by rw [hd]; exact (congrArg AttState.queue ha).trans hatt), hd]
      rfl
  have ended {o : ArrOp} (hr : a.running = some (o, h)) : (s.localOf n.val).core.arr.running = some (o, h) := hr
  refine ⟨fun sy x y acc hr => ?_, fun b hr => ?_⟩
  · have k := crossAll_reads (s.localOf n.val) (arrPorts (.pass sy x y acc))
    have hd := passEnd_pass (ended hr)
    obtain ⟨a1, a2⟩ := applyLoad_arr ((s.localOf n.val).crossAll (arrPorts (.pass sy x y acc))) h x y acc
      a.activations.head? (readings h.load (.pass sy x y acc))
    have e := done hd (a1.trans (congrArg ArrayState.passes k.arr)) (a2.trans k.att)
    rwa [(applyLoad_mem k.env h x y acc _ _).1, k.mem] at e
  · have k := crossAll_reads (s.localOf n.val) (arrPorts (.flush b))
    have hd := passEnd_flush (ended hr)
    obtain ⟨a1, a2⟩ := applyBatch_arr ((s.localOf n.val).crossAll (arrPorts (.flush b))) h b a.activations (readings h.load (.flush b))
    have e := done hd (a1.trans (congrArg ArrayState.passes k.arr)) (a2.trans k.att)
    have hmem := applyBatch_mem (l := s.localOf n.val) k.env h b (s.localOf n.val).core.arr.activations 0 (readings h.load (.flush b))
    rw [List.drop_zero, k.mem] at hmem
    rw [hmem] at e
    exact e

end Sys2Proof.Proofs
end

section
/-!
PROOF. The attention stages: a clean word whose operation finds the ATTENTION queue empty, the operation at work on a region that is on, and
the score and value stages of an ATT_KV.
-/

namespace Sys2Proof.Machine

/-! ### A core that no error stops -/

theorem judgeOp_badParity (l : Local) (b : List MoveOp) (o : MoveOp) : (judgeOp l b o).1.core.scr.badParity = l.core.scr.badParity := by
  unfold judgeOp
  dsimp only
  repeat' (first | rfl | split)

theorem judgeAll_badParity (l : Local) (b q : List MoveOp) : (judgeAll l b q).1.core.scr.badParity = l.core.scr.badParity := by
  induction q generalizing l b with
  | nil => rfl
  | cons o r ih => exact (ih _ _).trans (judgeOp_badParity l b o)

theorem movePump_badParity (l : Local) : l.movePump.core.scr.badParity = l.core.scr.badParity := judgeAll_badParity l [] l.core.moveQ

/-- What the progress of the other units leaves of a core that has no word in error: all that the attention unit reads. -/
structure CleanKeeps (l m : Local) : Prop where
  env : m.env = l.env
  mem : m.mem = l.mem
  att : m.core.att = l.core.att
  regions : m.core.regions = l.core.regions
  seq : m.core.seq = l.core.seq
  step : m.core.step = l.core.step
  clean : m.core.scr.badParity = l.core.scr.badParity

theorem CleanKeeps.refl (l : Local) : CleanKeeps l l := ⟨rfl, rfl, rfl, rfl, rfl, rfl, rfl⟩

theorem CleanKeeps.trans {l m k : Local} (h : CleanKeeps l m) (g : CleanKeeps m k) : CleanKeeps l k :=
  ⟨g.env.trans h.env, g.mem.trans h.mem, g.att.trans h.att, g.regions.trans h.regions, g.seq.trans h.seq, g.step.trans h.step,
    g.clean.trans h.clean⟩

theorem movePump_cleanKeeps (l : Local) : CleanKeeps l l.movePump := by
  obtain ⟨he, hm, -, hc⟩ := movePump_only l
  refine ⟨he, hm, ?_, ?_, ?_, ?_, movePump_badParity l⟩ <;> rw [hc]

theorem arrayStep_cleanKeeps {l : Local} (clean : l.core.scr.badParity = []) : CleanKeeps l l.arrayStep := by
  have k := (arrayStep_arrStep l).reads
  have hc := (k.clean clean).2
  refine ⟨k.env, k.mem, k.att, k.regions, ?_, ?_, k.badParity⟩ <;> rw [hc]

/-- The core as its attention unit finds it. -/
def Local.beforeAttention (l : Local) : Local := iterate 16 Local.arrayStep l.movePump

theorem beforeAttention_keeps {l : Local} (clean : l.core.scr.badParity = []) : CleanKeeps l l.beforeAttention := by
  have steps (n : Nat) : ∀ x : Local, x.core.scr.badParity = [] → CleanKeeps x (iterate n Local.arrayStep x) := by
    induction n with
    | zero => exact fun x _ => .refl x
    | succ k ih =>
      intro x hx
      have h := arrayStep_cleanKeeps hx
      exact h.trans (ih _ (by rw [h.clean]; exact hx))
  have hm := movePump_cleanKeeps l
  exact hm.trans (steps 16 _ (by rw [hm.clean]; exact clean))

theorem settleRegions_att {c : Core} (head : c.att.queue.head? ≠ some .off) (open_ : c.seq.run = .stopped → c.att.queue ≠ []) :
    (settleRegions c).att = c.att := by
  obtain ⟨-, r1, -, -⟩ := bit_offReady c
  have h1 : bit (offReady c) 1 = false := by
    by_contra hb
    exact head (r1 (by simpa using hb))
  have hoff : (applyOff c).att = c.att := by
    have e : (applyOff c).att = if bit (offReady c) 1 then { attClear c.att with queue := c.att.queue.drop 1 } else c.att := rfl
    rw [e, h1]
    rfl
  have hab : abandonOpen (applyOff c) = applyOff c := by
    refine if_neg ?_
    rintro ⟨hr, hq⟩
    rw [hoff] at hq
    exact open_ hr hq
  unfold settleRegions
  rw [hab]
  exact hoff

/-- Where one step of the attention unit is all that it can make, the pump leaves what that step leaves. -/
theorem pump_attention {l y : Local} (run : l.core.seq.run ≠ .stopped) (hy : l.beforeAttention.attStep = y) (fixed : y.attStep = y)
    (pre : y.preload = y) (head : y.core.att.queue.head? ≠ some .off) (open_ : y.core.seq.run = .stopped → y.core.att.queue ≠ []) :
    l.pump.core.att = y.core.att ∧ l.pump.mem = y.mem := by
  have hp : l.progress = y := by
    rw [progress_of_running run, show iterate 16 Local.arrayStep l.movePump = l.beforeAttention from rfl, iterate, hy, iterate_fixed fixed, pre]
  rw [pump_eq]
  dsimp only
  rw [hp]
  exact ⟨settleRegions_att head open_, rfl⟩

/-- An operation that empties the queue is the last one for now. -/
theorem pump_attention_emptied {l y : Local} (run : l.core.seq.run ≠ .stopped) (hy : l.beforeAttention.attStep = y)
    (empty : y.core.att.queue = []) (yrun : y.core.seq.run ≠ .stopped) : l.pump.core.att = y.core.att ∧ l.pump.mem = y.mem :=
  pump_attention run hy (attStep_of_empty empty) (preload_of_empty empty) (by rw [empty]; nofun) fun h => absurd h yrun

/-! ### A clean word -/

theorem markBank_badParity (c : Core) : (markBank c).scr.badParity = c.scr.badParity := by
  unfold markBank
  split
  · cases worstBank c with
    | none => rfl
    | some b => rfl
  · rfl

theorem takeMark_kept (l : Local) (c : COp) (k : Core) :
    (takeMark l c k).scr.badParity = k.scr.badParity ∧ (takeMark l c k).step.parity = k.step.parity := by
  by_cases h : markIsNop k = true
  · simp [takeMark, h]
  · have hf : markIsNop k = false := by simpa using h
    cases c with
    | lapMark =>
      have hs : (takeMark l .lapMark k).scr = (applyControls l.env.expert k).scr ∧
          (takeMark l .lapMark k).step.parity = (applyControls l.env.expert k).step.parity := by
        rw [takeMark_lapMark l k hf]
        split <;> exact ⟨rfl, rfl⟩
      rw [hs.1, hs.2]
      refine ⟨markBank_badParity _, ?_⟩
      rw [applyControls, markBank_core]
    | stepMark => rw [takeMark_stepMark l k hf]; exact ⟨rfl, rfl⟩
    | _ => simp [takeMark]

theorem markedBy_kept (l : Local) (w : Slots) :
    (l.markedBy w).core.scr.badParity = l.core.scr.badParity ∧ (l.markedBy w).core.step.parity = l.core.step.parity := by
  have k := takeMark_kept l w.c l.core
  unfold Local.markedBy
  dsimp only
  split
  · split
    · exact k
    · exact k
  · exact ⟨rfl, rfl⟩

/-- The C slot of a core that has no word in error finds none. -/
theorem applyC_clean {l v : Local} (clean : l.core.scr.badParity = []) (c : COp) :
    (l.applyC v c).core.scr.badParity = [] ∧ (l.applyC v c).core.step = l.core.step := by
  have read (port : Nat) (lines : List Nat) (off len : Nat) :
      ((l.cross port lines).readScr port off len).2.core.scr.badParity = [] ∧
      ((l.cross port lines).readScr port off len).2.core.step = l.core.step := by
    have k := (cross_reads l port lines).trans (readScr_reads _ port off len)
    exact ⟨k.badParity.trans clean, by rw [(k.clean clean).2]⟩
  cases c with
  | ldw sd sa imm | ldd sd sa imm => exact read _ _ _ _
  | patLoad sa first number => exact read _ _ _ _
  | stw sd sa imm | std sd sa imm =>
    have k := cross_reads l 14
    refine ⟨?_, ?_⟩
    · simp only [Local.applyC, Local.store, Local.writeScr, (k _).badParity, clean, List.filter_nil]
    · simp only [Local.applyC, Local.store, Local.writeScr]
      rw [cross_core]
  | _ => exact ⟨clean, rfl⟩

/-- What a clean word leaves of its core for the attention unit. -/
structure ActedClean (l m : Local) (w : Slots) : Prop where
  env : m.env = l.env
  mem : m.mem = l.mem
  att : m.core.att = (((l.atIssue w).slotM w).applyA (l.atIssue w) w.a).core.att
  attention : m.core.regions.attention = l.core.regions.attention
  run : m.core.seq.run = .running
  parity : m.core.step.parity = false
  clean : m.core.scr.badParity = []

theorem acted_clean {s : State} {n : Nat} {w : Slots} (h : IssuesClean s n w) :
    ActedClean (s.localOf n) ((s.localOf n).acted w) w := by
  obtain ⟨issues, fault, stays, quiet, goes, bad, clash⟩ := h
  have hruns := issues.runs
  simp only [mayIssue, Bool.and_eq_true, beq_iff_eq, Bool.not_eq_true'] at hruns
  have hacts := acts_of_noSlotFault fault
  have hbad : ((s.localOf n).atIssue w).core.scr.badParity = [] := by rw [atIssue_scr]; exact bad
  obtain ⟨hm1, hm2⟩ := markedBy_kept ((s.localOf n).atIssue w) w
  obtain ⟨hc1, hc2⟩ := applyC_clean (v := (s.localOf n).atIssue w) (hm1.trans hbad) w.c
  have hstore (a len : Nat) (hlen : 0 < len) (hx : ∀ x, (decide (a ≤ x) && decide (x < a + len)) = false) : False := by
    have := hx a
    simp only [Nat.le_refl, decide_true, Bool.true_and, decide_eq_false_iff_not] at this
    omega
  refine ⟨?_, ?_, ?_, ?_, ?_, ?_, ?_⟩
  · rw [(acted_notes _ _).env, actWord_env, atIssue_env]
  · rw [acted_mem]
    refine (afterC_mem_other (fun sd sa imm hc => ?_) fun sd sa imm hc => ?_)
    · exact hstore _ 4 (by decide) fun x => by have := quiet x; rwa [State.storesAt, hc] at this
    · exact hstore _ 8 (by decide) fun x => by have := quiet x; rwa [State.storesAt, hc] at this
  · exact acted_att_of_stays hacts stays
  · rw [acted_regions, (requestRegions_states _ _).2.1]
  · rw [acted_run fault clash bad, if_neg goes]
    exact hruns.1
  · rw [acted_unfaulted fault clash, hacts, actWord_eq, advance_only, applyOffs_only, Local.slotV, applyV_only, Local.slotA, applyA_only,
      Local.slotM, applyM_only]
    exact (congrArg StepState.parity hc2).trans (hm2.trans (by rw [atIssue_step]; exact hruns.2))
  · rw [acted_unfaulted fault clash, hacts, actWord_eq, advance_only, applyOffs_only, Local.slotV, applyV_only, Local.slotA, applyA_only,
      Local.slotM, applyM_only]
    exact hc1

end Sys2Proof.Machine
end

section
/-!
PROOF. The statement about the attention stages: what each operation does at the head of the queue of a region that is on.
-/

namespace Sys2Proof.Machine

/-! ### Operations at the head of the queue -/

theorem attStep_mode {l : Local} {sy : Bool} {x : Pattern} {r : List AttOp} (on : l.core.regions.attention = .on)
    (hq : l.core.att.queue = .mode sy x :: r) : l.attStep = (l.runAttMode x).attUpd attPop := by
  unfold Local.attStep
  rw [on, hq]

theorem attStep_query {l : Local} {sy : Bool} {x : Pattern} {y : Option Pattern} {r : List AttOp} (on : l.core.regions.attention = .on)
    (hq : l.core.att.queue = .query sy x y :: r) (hn : l.core.att.next = none) :
    l.attStep = (l.loadQueries x y).attUpd fun s => attPop (openNext s) := by
  unfold Local.attStep
  rw [on, hq, hn]
  rfl

theorem attStep_out {l : Local} {sy : Bool} {x : Pattern} {y : Option Pattern} {r : List AttOp} (on : l.core.regions.attention = .on)
    (hq : l.core.att.queue = .out sy x y :: r) : l.attStep = (l.runAttOut x y).attUpd attPop := by
  unfold Local.attStep
  rw [on, hq]

theorem attStep_walk {l : Local} {sy : Bool} {x : Pattern} {lap : BitVec 2} {word : BitVec 28} {r : List AttOp}
    (on : l.core.regions.attention = .on) (hq : l.core.att.queue = .walk sy x lap word :: r) (hret : l.core.att.walkRetired = false)
    (hwind : windsDown l.core = false) :
    l.attStep = if l.core.att.walk.isNone then l.startWalk x lap word else l.deliverNext 10 := by
  unfold Local.attStep
  rw [on, hq]
  simp only [hret, hwind, Bool.false_and, Bool.false_eq_true, if_false]

theorem windsDown_of_running {c : Core} (run : c.seq.run = .running) (parity : c.step.parity = false) : windsDown c = false := by
  simp [windsDown, run, parity]

/-! ### Bytes of a pattern -/

/-- The bytes of a pattern's runs in a core's scratchpad. -/
def Local.patStream (l : Local) (p : Pattern) : List Byte := (patRuns p).flatMap fun w => l.scr (4 * w.toNat) (patRunBytes p)

theorem readRuns_stream (l : Local) (port : Nat) (p : Pattern) :
    (l.readRuns port (patRunBytes p) (patRuns p)).1.flatten = l.patStream p := by
  rw [readRuns_bytes, Local.patStream, List.flatMap_def]

theorem patStream_congr {l m : Local} (henv : m.env = l.env) (hmem : m.mem = l.mem) (p : Pattern) : m.patStream p = l.patStream p := by
  simp only [Local.patStream, Local.scr, henv, hmem]

theorem runAttMode_mode (l : Local) (x : Pattern) : (l.runAttMode x).core.att.mode = BitVec.ofNat 64 (leNat (l.patStream x)) := by
  have k := cross_reads l 4 (patLines x)
  unfold Local.runAttMode
  dsimp only [Local.attUpd]
  rw [readRuns_stream, patStream_congr k.env k.mem]

/-- What an ATT_Q loads into the free half of the query store. -/
structure LoadedQueries (l : Local) (x : Pattern) (y : Option Pattern) (o : Sequence) : Prop where
  rows : o.rows = patRunCount x
  state : o.state = List.replicate (patRunCount x) RowState.start
  qPos : o.qPos = (field (BitVec.ofNat 128 (leNat (((y.map l.patStream).getD (List.replicate 16 0)).take 16))) 0 32).toNat
  kvPos : o.kvPos = (field (BitVec.ofNat 128 (leNat (((y.map l.patStream).getD (List.replicate 16 0)).take 16))) 32 32).toNat
  queries : ∀ g, queryFormat l.core.att.mode = some (g, false) →
    o.queries = (patRuns x).map fun w => decodeRun (patFormat x) x.n0 (l.scr (4 * w.toNat) (patRunBytes x))

theorem loadQueries_next (l : Local) (x : Pattern) (y : Option Pattern) :
    ∃ o sat, (l.loadQueries x y).core.att = { l.core.att with next := some o, saturations := sat } ∧ LoadedQueries l x y o := by
  have ka := crossAll_reads l (attPorts (.query false x y))
  have kx := ka.trans (readRuns_reads _ 4 (patRunBytes x) (patRuns x))
  have hx : (((l.crossAll (attPorts (.query false x y))).readRuns 4 (patRunBytes x) (patRuns x)).1.map (decodeRun (patFormat x) x.n0)) =
      (patRuns x).map fun w => decodeRun (patFormat x) x.n0 (l.scr (4 * w.toNat) (patRunBytes x)) := by
    rw [readRuns_bytes, List.map_map]
    exact List.map_congr_left fun w _ => congrArg (decodeRun (patFormat x) x.n0) (Local.scr_congr ka.env ka.mem _ _)
  unfold Local.loadQueries
  cases y with
  | none =>
    refine ⟨_, _, (kx.attUpd_att _).trans rfl, rfl, rfl, ?_, ?_, fun g hg => ?_⟩
    · simp
    · simp
    · simp [hg, hx]
  | some p =>
    have ky := kx.trans (readRuns_reads _ 4 (patRunBytes p) (patRuns p))
    have hp := (readRuns_stream ((l.crossAll (attPorts (.query false x (some p)))).readRuns 4 (patRunBytes x) (patRuns x)).2 4 p).trans
      (patStream_congr kx.env kx.mem p)
    refine ⟨_, _, (ky.attUpd_att _).trans rfl, rfl, rfl, ?_, ?_, fun g hg => ?_⟩
    · simp only [hp]
      rfl
    · simp only [hp]
      rfl
    · simp [hg, hx]

/-! ### A walk begins -/

theorem recordError_congr {l m : Local} (henv : m.env = l.env) (hmode : m.core.att.mode = l.core.att.mode) (r : WalkRecord) :
    recordError m r = recordError l r := by
  simp only [recordError, henv, hmode]

theorem newRead_congr {l m : Local} (henv : m.env = l.env) (page : Option Candidate) (us : List MemUnit) :
    newRead m page us = newRead l page us := by
  simp only [newRead, henv]

/-- What an ATT_WALK that is accepted leaves: the walk with its record, asking for the header of its table, and the rest of its core. -/
structure WalkBegun (l m : Local) (record : WalkRecord) : Prop where
  walk : ∃ k, m.core.att.walk = some k ∧ k.phase = .header ∧ k.record = record ∧
    k.reads = [newRead l none (lineUnit l.env.capList record.table)]
  queue : m.core.att.queue = l.core.att.queue
  retired : m.core.att.walkRetired = l.core.att.walkRetired
  regions : m.core.regions = l.core.regions
  seq : m.core.seq = l.core.seq
  step : m.core.step = l.core.step

theorem startWalk_begun {l : Local} {x : Pattern} (lap : BitVec 2) (word : BitVec 28) {q : Sequence} (clean : l.core.scr.badParity = [])
    (hseq : l.core.att.seq = some q) (hq : q.error = false) (hrec : recordError l (parseWalkRecord (l.patStream x)) = false) :
    WalkBegun l (l.startWalk x lap word) (parseWalkRecord (l.patStream x)) := by
  have kc := cross_reads l 4 (patLines x)
  have k := kc.trans (readRuns_reads _ 4 (patRunBytes x) (patRuns x))
  have hbytes := (readRuns_stream (l.cross 4 (patLines x)) 4 x).trans (patStream_congr kc.env kc.mem x)
  have probes (m : Local) (hm : ReadKeeps l m) (r : WalkRecord) :
      ReadKeeps l (if retrieval m.core.att.mode then readProbes m r else ([], m)).2 := by
    split
    · exact hm.trans (readProbes_reads _ _)
    · exact hm
  have kp := probes _ k (parseWalkRecord (l.patStream x))
  have hcore := (kp.clean clean).2
  have hrec' : recordError ((l.cross 4 (patLines x)).readRuns 4 (patRunBytes x) (patRuns x)).2 (parseWalkRecord (l.patStream x)) = false :=
    (recordError_congr k.env (by rw [k.att]) _).trans hrec
  unfold Local.startWalk
  simp only [hbytes, k.att, hseq, hq, hrec', Bool.false_eq_true, if_false]
  rw [k.att] at kp hcore
  exact ⟨⟨_, rfl, rfl, rfl, rfl⟩, by dsimp only [Local.attUpd]; rw [kp.att], by dsimp only [Local.attUpd]; rw [kp.att],
    kp.regions, by dsimp only [Local.attUpd]; rw [hcore], by dsimp only [Local.attUpd]; rw [hcore]⟩

theorem deliverNext_of_header {l : Local} {k : Walk} (hw : l.core.att.walk = some k) (hk : k.phase = .header) (n : Nat) :
    l.deliverNext n = l := by
  cases n with
  | zero => rfl
  | succ n =>
    unfold Local.deliverNext
    simp only [hw, hk]

/-! ### ATT_OUT -/

/-- An ATT_OUT whose pattern fits the mode writes its rows to X and their statistics to Y. -/
theorem runAttOut_fits {l : Local} {x : Pattern} (y : Option Pattern) {q : Sequence} (hseq : l.core.att.seq = some q)
    (hf : patFormat x = outFormat l.core.att.mode) (hn : x.n0 = rowElems (outFormat l.core.att.mode) (headDim l.core.att.mode)) :
    let rows := q.state.map fun r => if q.error ∨ r.poisoned then nanRow (outFormat l.core.att.mode) (headDim l.core.att.mode)
      else (outRow (outFormat l.core.att.mode) (headDim l.core.att.mode) (rowOutput l.env.level (headDim l.core.att.mode) r)).bytes
    let k := l.writeRuns (patRuns x) rows
    (l.runAttOut x y).mem = ((y.map fun p => k.writeRuns (patRuns p)
      ((chunks p.n0 (2 * q.rows) (rowStats q.state q.error)).map wordsToBytes)).getD k).mem ∧
    (l.runAttOut x y).core.att.seq = none ∧ (l.runAttOut x y).core.seq = l.core.seq := by
  have hmis : (patFormat x != outFormat l.core.att.mode || x.n0 != rowElems (outFormat l.core.att.mode) (headDim l.core.att.mode)) = false := by
    simp [hf, hn]
  have kc := crossAll_reads l (attPorts (.out false x y))
  have hout := runAttOut_outKeeps l x y
  refine ⟨?_, ?_, by rw [hout]⟩
  · unfold Local.runAttOut
    rw [hseq]
    simp only [hmis, Bool.false_eq_true, if_false, List.map_map, Local.attUpd, Local.countNumeric]
    have hrows : (q.state.map ((fun e : StoreResult => e.bytes) ∘ fun r => if (q.error || r.poisoned) = true then
        StoreResult.mk (nanRow (outFormat l.core.att.mode) (headDim l.core.att.mode)) 0 0
        else outRow (outFormat l.core.att.mode) (headDim l.core.att.mode) (rowOutput l.env.level (headDim l.core.att.mode) r))) =
        q.state.map fun r => if q.error ∨ r.poisoned then nanRow (outFormat l.core.att.mode) (headDim l.core.att.mode)
          else (outRow (outFormat l.core.att.mode) (headDim l.core.att.mode) (rowOutput l.env.level (headDim l.core.att.mode) r)).bytes := by
      refine List.map_congr_left fun r _ => ?_
      simp only [Function.comp_apply, Bool.or_eq_true]
      split <;> rfl
    cases y with
    | none =>
      dsimp only
      rw [hrows]
      exact writeRuns_mem_congr kc.env kc.mem _ _
    | some p =>
      dsimp only
      rw [hrows]
      exact writeRuns_mem_congr (by rw [(writeRuns_writes _ _ _).env, (writeRuns_writes _ _ _).env, kc.env])
        (writeRuns_mem_congr kc.env kc.mem _ _) _ _
  · unfold Local.runAttOut
    rw [hseq]
    rfl

/-- One whose pattern does not fit puts its sequence in error, which is counted once, and writes nothing. -/
theorem runAttOut_mismatch {l : Local} {x : Pattern} (y : Option Pattern) {q : Sequence} (hseq : l.core.att.seq = some q)
    (h : patFormat x ≠ outFormat l.core.att.mode ∨ x.n0 ≠ rowElems (outFormat l.core.att.mode) (headDim l.core.att.mode)) :
    (l.runAttOut x y).mem = l.mem ∧ (l.runAttOut x y).core.att.seq = none ∧ (l.runAttOut x y).core.seq = l.core.seq ∧
    (l.runAttOut x y).core.att.modeErrors = if q.error then l.core.att.modeErrors else satAdd l.core.att.modeErrors 1 := by
  have hmis : (patFormat x != outFormat l.core.att.mode || x.n0 != rowElems (outFormat l.core.att.mode) (headDim l.core.att.mode)) = true := by
    rcases h with h | h <;> simp [h]
  have he : l.runAttOut x y = (l.attUpd seqError).attUpd fun s => { s with seq := none, keysTaken := 0 } := by
    unfold Local.runAttOut
    rw [hseq]
    simp only [hmis, if_true]
  rw [he]
  refine ⟨rfl, rfl, rfl, ?_⟩
  show (seqError l.core.att).modeErrors = _
  unfold seqError
  rw [hseq]
  dsimp only
  split <;> rfl

/-! ### The stages of an ATT_KV -/

/-- Up to 64 keys of an ATT_KV from key `i` on, as memory holds them. -/
def Local.keyTile (l : Local) (x y : Pattern) (i : Nat) : List KeyRow :=
  let run (p : Pattern) (w : Int) : RunData := decodeRun (patFormat p) p.n0 (l.scr (4 * w.toNat) (patRunBytes p))
  let part (p : Pattern) : List Int := ((patRuns p).drop i).take 64
  (List.zipWith (fun k v => (run x k, run y v)) (part x) (part y)).mapIdx fun j kv => ⟨l.core.att.nextKv + j, kv.1, kv.2⟩

theorem readKeys_tile (l : Local) (x y : Pattern) (i : Nat) :
    (l.readKeys x y i).1 = l.keyTile x y i ∧ ReadKeeps l (l.readKeys x y i).2 := by
  have kc := (cross_reads l 5 (runLines (((patRuns x).drop i).take 64) (patRunBytes x))).trans
    (cross_reads _ 6 (runLines (((patRuns y).drop i).take 64) (patRunBytes y)))
  have ka := kc.trans (readRuns_reads _ 5 (patRunBytes x) (((patRuns x).drop i).take 64))
  refine ⟨?_, ka.trans (readRuns_reads _ 6 _ _)⟩
  simp only [Local.readKeys, Local.keyTile, readRuns_bytes, List.zipWith_map, Local.scr, kc.env, kc.mem, ka.env, ka.mem]

theorem scoreStage_kv {l : Local} {sy : Bool} {x y : Pattern} {r : List AttOp} (on : l.core.regions.attention = .on)
    (hq : l.core.att.queue = .kv sy x y :: r) (room : l.core.att.staged.length < 2) (more : l.core.att.keysTaken < patRunCount x) :
    l.scoreStage = (l.readKeys x y l.core.att.keysTaken).2.attUpd fun s =>
      enterTile { s with keysTaken := s.keysTaken + (l.keyTile x y l.core.att.keysTaken).length,
                         nextKv := s.nextKv + (l.keyTile x y l.core.att.keysTaken).length } (l.keyTile x y l.core.att.keysTaken) := by
  unfold Local.scoreStage
  rw [on, hq]
  dsimp only
  rw [if_neg, (readKeys_tile _ _ _ _).1]
  simp only [Bool.or_eq_true, decide_eq_true_eq, not_or]
  omega

section
variable {l : Local} {sy : Bool} {x y : Pattern} {r : List AttOp} {q : Sequence} (on : l.core.regions.attention = .on)
  (hq : l.core.att.queue = .kv sy x y :: r) (room : l.core.att.staged.length < 2) (more : l.core.att.keysTaken < patRunCount x)
  (hseq : l.core.att.seq = some q) (herr : q.error = false)
include on hq room more hseq herr

theorem scoreStage_enters (h : ((l.keyTile x y l.core.att.keysTaken).any fun k => eligibleAny l.core.att.mode q k.pos) = true) :
    l.scoreStage.core.att = { l.core.att with
      keysTaken := l.core.att.keysTaken + (l.keyTile x y l.core.att.keysTaken).length,
      nextKv := l.core.att.nextKv + (l.keyTile x y l.core.att.keysTaken).length,
      staged := l.core.att.staged ++ [l.keyTile x y l.core.att.keysTaken] } := by
  rw [scoreStage_kv on hq room more, (readKeys_tile _ _ _ _).2.attUpd_att]
  unfold enterTile
  simp only [hseq, herr, h, Bool.false_eq_true, if_false, if_true]

theorem scoreStage_skips (h : ((l.keyTile x y l.core.att.keysTaken).any fun k => eligibleAny l.core.att.mode q k.pos) = false) :
    l.scoreStage.core.att = { l.core.att with
      keysTaken := l.core.att.keysTaken + (l.keyTile x y l.core.att.keysTaken).length,
      nextKv := l.core.att.nextKv + (l.keyTile x y l.core.att.keysTaken).length,
      skipped := wrapAdd l.core.att.skipped 1 } := by
  rw [scoreStage_kv on hq room more, (readKeys_tile _ _ _ _).2.attUpd_att]
  unfold enterTile
  simp only [hseq, herr, h, Bool.false_eq_true, if_false]

end

/-- The ATT_KV at the head of the queue leaves it once its keys have entered and no tile of it is left in the stages. -/
theorem attStep_kv {l : Local} {sy : Bool} {x y : Pattern} {r : List AttOp} {q : Sequence} (on : l.core.regions.attention = .on)
    (hq : l.core.att.queue = .kv sy x y :: r) (hseq : l.core.att.seq = some q) (herr : q.error = false)
    (hmis : kvMismatch l.env.level l.core.att.mode x y = false) :
    l.attStep = if patRunCount x ≤ l.core.att.keysTaken ∧ l.core.att.staged = [] then l.attUpd attPop else l := by
  have he : inError l.core.att = false := by rw [inError, hseq]; exact herr
  unfold Local.attStep
  rw [on, hq]
  simp only [he, hmis, Bool.false_eq_true, if_false]

theorem scoreStage_attStep (l : Local) : AttStep l l.scoreStage := by
  unfold Local.scoreStage
  split
  · exact .ite (.refl l) ((readKeys_tile _ _ _ _).2.attUpd _)
  · split
    · exact .ite (.refl l) (attUpd_attStep l _)
    · exact .refl l
  · exact .refl l

/-- The oldest staged tile of a correct sequence updates every row. -/
theorem valueStage_tile {l : Local} {t : List KeyRow} {r : List (List KeyRow)} {q : Sequence} (hst : l.core.att.staged = t :: r)
    (hseq : l.core.att.seq = some q) (herr : q.error = false) :
    l.valueStage = l.attUpd fun s =>
      { s with staged := r, seq := some { q with state := tileRows l.env.level l.core.att.mode q t },
               nanRows := satAdd s.nanRows (newlyPoisoned q.state (tileRows l.env.level l.core.att.mode q t)),
               tileCount := wrapAdd s.tileCount 1 } := by
  unfold Local.valueStage
  rw [hst, hseq]
  simp only [herr, Bool.false_eq_true, if_false]

/-- An ATT_KV at the head of the queue of the open sequence, or one that has left an emptied queue, as the units make progress from `l` on. -/
structure KvProgress (l : Local) (x y : Pattern) (m : Local) : Prop where
  env : m.env = l.env
  regions : m.core.regions = l.core.regions
  seq : m.core.att.seq = l.core.att.seq
  mode : m.core.att.mode = l.core.att.mode
  staged : m.core.att.staged = l.core.att.staged
  skipped : m.core.att.skipped = l.core.att.skipped
  tileCount : m.core.att.tileCount = l.core.att.tileCount
  nextKv : m.core.att.nextKv = l.core.att.nextKv
  queue : (m.core.att.queue = l.core.att.queue ∧ m.core.att.keysTaken = l.core.att.keysTaken) ∨
    (m.core.att.queue = l.core.att.queue.drop 1 ∧ patRunCount x ≤ l.core.att.keysTaken ∧ l.core.att.staged = [])
  clean : l.core.scr.badParity = [] → m.core.scr.badParity = [] ∧ m.core.seq = l.core.seq

/-- Progress of a step that leaves the attention state. -/
theorem KvProgress.step {l m k : Local} {x y : Pattern} (h : KvProgress l x y m) (henv : k.env = m.env) (hreg : k.core.regions = m.core.regions)
    (hatt : k.core.att = m.core.att) (hclean : m.core.scr.badParity = [] → k.core.scr.badParity = [] ∧ k.core.seq = m.core.seq) :
    KvProgress l x y k where
  env := henv.trans h.env
  regions := hreg.trans h.regions
  seq := by rw [hatt, h.seq]
  mode := by rw [hatt, h.mode]
  staged := by rw [hatt, h.staged]
  skipped := by rw [hatt, h.skipped]
  tileCount := by rw [hatt, h.tileCount]
  nextKv := by rw [hatt, h.nextKv]
  queue := by rw [hatt]; exact h.queue
  clean hb := by
    obtain ⟨h1, h2⟩ := h.clean hb
    obtain ⟨h3, h4⟩ := hclean h1
    exact ⟨h3, h4.trans h2⟩

/-- What a core holds with an ATT_KV at the head of its queue: the queue holds that alone, or the ATT_KV is not done. -/
structure KvHead (l : Local) (sy : Bool) (x y : Pattern) (rest : List AttOp) (q : Sequence) : Prop where
  on : l.core.regions.attention = .on
  queue : l.core.att.queue = .kv sy x y :: rest
  open_ : l.core.att.seq = some q
  correct : q.error = false
  fits : kvMismatch l.env.level l.core.att.mode x y = false
  stays : rest = [] ∨ ¬(patRunCount x ≤ l.core.att.keysTaken ∧ l.core.att.staged = [])

theorem KvHead.attStep {l m : Local} {sy : Bool} {x y : Pattern} {rest : List AttOp} {q : Sequence} (h : KvHead l sy x y rest q)
    (k : KvProgress l x y m) : KvProgress l x y m.attStep := by
  rcases k.queue with ⟨hq, hk⟩ | ⟨hq, hd⟩
  · rw [attStep_kv (by rw [k.regions]; exact h.on) (hq.trans h.queue) (k.seq.trans h.open_) h.correct
      (by rw [k.env, k.mode]; exact h.fits)]
    split
    · next hdone =>
      rw [hk, k.staged] at hdone
      refine { env := k.env, regions := k.regions, seq := k.seq, mode := k.mode, staged := k.staged, skipped := k.skipped,
               tileCount := k.tileCount, nextKv := k.nextKv, queue := .inr ⟨?_, hdone⟩, clean := k.clean }
      show m.core.att.queue.drop 1 = _
      rw [hq]
    · exact k
  · have hnil : l.core.att.queue.drop 1 = [] := by
      rcases h.stays with hr | hr
      · rw [h.queue, hr]
        rfl
      · exact absurd hd hr
    rw [attStep_of_empty (hq.trans hnil)]
    exact k

theorem KvHead.preload {l m : Local} {sy : Bool} {x y : Pattern} {rest : List AttOp} {q : Sequence} (_ : KvHead l sy x y rest q)
    (k : KvProgress l x y m) : KvProgress l x y m.preload := by
  unfold Local.preload
  split
  · next a b _ _ _ _ =>
    obtain ⟨o, sat, hload, -⟩ := loadQueries_next m a b
    have hr := (loadQueries_attStep m a b).reads
    refine { env := hr.env.trans k.env, regions := hr.regions.trans k.regions, seq := ?_, mode := ?_, staged := ?_, skipped := ?_,
             tileCount := ?_, nextKv := ?_, queue := ?_, clean := fun hb => ?_ }
    · rw [hload]; exact k.seq
    · rw [hload]; exact k.mode
    · rw [hload]; exact k.staged
    · rw [hload]; exact k.skipped
    · rw [hload]; exact k.tileCount
    · rw [hload]; exact k.nextKv
    · rw [hload]; exact k.queue
    · obtain ⟨h1, h2⟩ := k.clean hb
      exact ⟨hr.badParity.trans h1, by rw [(hr.clean h1).2]; exact h2⟩
  · exact k

theorem KvHead.progress {l : Local} {sy : Bool} {x y : Pattern} {rest : List AttOp} {q : Sequence} (h : KvHead l sy x y rest q) :
    KvProgress l x y l.progress := by
  refine progress_rel (R := fun a b => KvProgress l x y a → KvProgress l x y b) (fun _ => id) (fun _ _ _ hab hbc => hbc ∘ hab) (fun m k => ?flush)
    (fun m k => ?move) (fun m k => ?arr) (fun m k => h.attStep k) (fun m k => h.preload k) l ?start
  case flush => exact k.step rfl rfl rfl fun hb => ⟨hb, rfl⟩
  case move =>
    have g := movePump_cleanKeeps m
    exact k.step g.env g.regions g.att fun hb => ⟨g.clean.trans hb, g.seq⟩
  case arr =>
    have g := (arrayStep_arrStep m).reads
    exact k.step g.env g.regions g.att fun hb => ⟨g.badParity.trans hb, (arrayStep_cleanKeeps hb).seq⟩
  case start =>
    exact ⟨rfl, rfl, rfl, rfl, rfl, rfl, rfl, rfl, .inl ⟨rfl, rfl⟩, fun hb => ⟨hb, rfl⟩⟩

/-- What the pump leaves of the stages while an ATT_KV heads the queue. -/
theorem KvHead.pump {l : Local} {sy : Bool} {x y : Pattern} {rest : List AttOp} {q : Sequence} (h : KvHead l sy x y rest q) :
    let a := l.pump.core.att
    a.staged = l.core.att.staged ∧ a.skipped = l.core.att.skipped ∧ a.tileCount = l.core.att.tileCount ∧ a.nextKv = l.core.att.nextKv ∧
    (l.core.att.staged ≠ [] → a.keysTaken = l.core.att.keysTaken) ∧
    (l.core.scr.badParity = [] → l.core.seq.run ≠ .stopped → a.seq = l.core.att.seq) := by
  have k := h.progress
  have hhead : l.progress.core.att.queue.head? ≠ some .off := by
    rcases k.queue with ⟨hq, -⟩ | ⟨hq, hd⟩
    · rw [hq, h.queue]
      nofun
    · rw [hq, h.queue]
      rcases h.stays with hr | hr
      · rw [hr]
        nofun
      · exact absurd hd hr
  obtain ⟨-, r1, -, -⟩ := bit_offReady l.progress.core
  have h1 : bit (offReady l.progress.core) 1 = false := by
    by_contra hb
    exact hhead (r1 (by simpa using hb))
  have hoff : (applyOff l.progress.core).att = l.progress.core.att := by
    have e : (applyOff l.progress.core).att = if bit (offReady l.progress.core) 1 then
        { attClear l.progress.core.att with queue := l.progress.core.att.queue.drop 1 } else l.progress.core.att := rfl
    rw [e, h1]
    rfl
  have hrun : (applyOff l.progress.core).seq = l.progress.core.seq := rfl
  have hp : l.pump.core.att = (abandonOpen (applyOff l.progress.core)).att := rfl
  rw [hp]
  unfold abandonOpen
  split
  · next hst =>
    obtain ⟨hs, hq⟩ := hst
    rw [hoff] at hq ⊢
    refine ⟨k.staged, k.skipped, k.tileCount, k.nextKv, fun hne => ?_, fun hb hr => ?_⟩
    · rcases k.queue with ⟨-, hk⟩ | ⟨-, -, hd⟩
      · exact hk
      · exact absurd hd hne
    · rw [hrun, (k.clean hb).2] at hs
      exact absurd hs hr
  · rw [hoff]
    refine ⟨k.staged, k.skipped, k.tileCount, k.nextKv, fun hne => ?_, fun _ _ => k.seq⟩
    rcases k.queue with ⟨-, hk⟩ | ⟨-, -, hd⟩
    · exact hk
    · exact absurd hd hne

/-! ### A clean word's operation, alone in the queue -/

/-- The core as its attention unit finds it after a clean word whose operation found the queue empty. -/
structure AloneAtUnit (l b : Local) (o : AttOp) : Prop where
  env : b.env = l.env
  mem : b.mem = l.mem
  on : b.core.regions.attention = .on
  run : b.core.seq.run = .running
  parity : b.core.step.parity = false
  clean : b.core.scr.badParity = []
  att : ∃ issue rows, b.core.att = { l.core.att with queue := [o], issue := issue, issueRows := rows }

theorem AloneAtUnit.queue {l b : Local} {o : AttOp} (h : AloneAtUnit l b o) : b.core.att.queue = [o] := by
  obtain ⟨_, _, e⟩ := h.att
  rw [e]

/-- The operation that a word's A slot puts into the ATTENTION queue. -/
def attOpOf (v : Local) (lap : BitVec 2) : AOp → Option AttOp
  | .attMode sy x => some (.mode sy (v.pat x))
  | .attQ sy x y => some (.query sy (v.pat x) (v.pat? y))
  | .attKv sy x y => some (.kv sy (v.pat x) (v.pat y))
  | .attWalk sy x => some (.walk sy (v.pat x) lap v.core.seq.position)
  | .attOut sy x y => some (.out sy (v.pat x) (v.pat? y))
  | _ => none

theorem applyA_attOp {l v : Local} {op : AOp} {o : AttOp} (h : attOpOf v (field l.core.seq.lap 0 2) op = some o) :
    ∃ issue rows, (l.applyA v op).core.att = { l.core.att with queue := l.core.att.queue ++ [o], issue := issue, issueRows := rows } := by
  cases op with
  | attMode | attQ | attKv | attWalk | attOut =>
    obtain rfl := Option.some.inj h
    exact ⟨_, _, rfl⟩
  | _ => cases h

theorem attOpOf_atIssue (l : Local) (w : Slots) (lap : BitVec 2) (op : AOp) : attOpOf (l.atIssue w) lap op = attOpOf l lap op := by
  cases op <;> simp [attOpOf, Local.pat?]

theorem attOpOf_some {op : AOp} (h : aUnit op = some .attention) (v : Local) (lap : BitVec 2) : ∃ o, attOpOf v lap op = some o := by
  cases op with
  | attMode | attQ | attKv | attWalk | attOut => exact ⟨_, rfl⟩
  | _ => cases h

/-- A clean word whose operation finds the queue empty: the module after it is what the units' progress makes of the operation alone. -/
theorem exec_attention {s : State} {n : CoreId} {w : Slots} {i : Instr} {op : AOp} (h : IssuesClean s n.val w)
    (row : wordRow i = some (n, .a op)) (hw : w.a = op) (on : (s.core n.val).regions.attention = .on) (empty : (s.core n.val).att.queue = [])
    (unit : aUnit op = some .attention) :
    ∃ (m : Local) (lap : BitVec 2) (o : AttOp), exec i s = .next (s.issued n.val w) ∧ m.core.seq.run ≠ .stopped ∧ (s.issued n.val w).core n.val = m.pump.core ∧
      (s.issued n.val w).mem = m.pump.mem ∧ attOpOf (s.localOf n.val) lap op = some o ∧
      AloneAtUnit (s.localOf n.val) m.beforeAttention o := by
  subst hw
  have k := acted_clean h
  have kb := beforeAttention_keeps k.clean
  obtain ⟨o, ho⟩ := attOpOf_some unit ((s.localOf n.val).atIssue w) (field (((s.localOf n.val).atIssue w).slotM w).core.seq.lap 0 2)
  obtain ⟨issue, rows, hatt⟩ := applyA_attOp (l := ((s.localOf n.val).atIssue w).slotM w) ho
  rw [attOpOf_atIssue] at ho
  refine ⟨(s.localOf n.val).acted w, _, o, exec_of_issues_a h.issues row rfl, by rw [k.run]; nofun, ?_, ?_, ho, kb.env.trans k.env,
    kb.mem.trans k.mem, by rw [kb.regions, k.attention]; exact on, by rw [kb.seq]; exact k.run, by rw [kb.step]; exact k.parity,
    kb.clean.trans k.clean, issue, rows, ?_⟩
  · rw [State.issued_core, issueWord_eq h.issues.ready]
  · rw [State.issued_mem, issueWord_eq h.issues.ready]
  · rw [kb.att, k.att, hatt, slotM_att, slotC_att, atIssue_att]
    have : (s.localOf n.val).core.att.queue = [] := empty
    simp only [this, List.nil_append]

section
variable {s : State} {n : CoreId} {w : Slots} {sy : Bool} {xi yi : BitVec 8} (h : IssuesClean s n.val w)
  (on : (s.core n.val).regions.attention = .on) (empty : (s.core n.val).att.queue = [])
include h on empty

theorem issued_attMode (hw : w.a = .attMode sy xi) : ∃ t, exec (.attMode n sy xi) s = .next t ∧
    (t.core n.val).att.mode = BitVec.ofNat 64 (leNat ((s.localOf n.val).patStream ((s.localOf n.val).pat xi))) ∧
    (t.core n.val).att.queue = [] := by
  obtain ⟨m, lap, o, he, mrun, hc, -, ho, b⟩ := exec_attention (i := .attMode n sy xi) h rfl hw on empty rfl
  obtain rfl := Option.some.inj ho
  have k := (runAttMode_attStep m.beforeAttention ((s.localOf n.val).pat xi)).reads
  have hq : ((m.beforeAttention.runAttMode ((s.localOf n.val).pat xi)).attUpd attPop).core.att.queue = [] := by
    show (m.beforeAttention.runAttMode ((s.localOf n.val).pat xi)).core.att.queue.drop 1 = []
    rw [runAttMode_queue, b.queue]
    rfl
  have hrun : ((m.beforeAttention.runAttMode ((s.localOf n.val).pat xi)).attUpd attPop).core.seq.run = .running := by
    show (m.beforeAttention.runAttMode ((s.localOf n.val).pat xi)).core.seq.run = _
    rw [(k.clean b.clean).2]
    exact b.run
  obtain ⟨hatt, -⟩ := pump_attention_emptied mrun (attStep_mode b.on b.queue) hq (by rw [hrun]; nofun)
  refine ⟨_, he, ?_, ?_⟩
  · rw [hc, hatt]
    show (m.beforeAttention.runAttMode ((s.localOf n.val).pat xi)).core.att.mode = _
    rw [runAttMode_mode, patStream_congr b.env b.mem]
  · rw [hc, hatt]
    exact hq

theorem issued_attQ (hw : w.a = .attQ sy xi yi) (hnext : (s.core n.val).att.next = none) :
    ∃ t o, exec (.attQ n sy xi yi) s = .next t ∧ (t.core n.val).att.seq = some o ∧ (t.core n.val).att.queue = [] ∧
      (t.core n.val).att.nextKv = o.kvPos ∧
      LoadedQueries (s.localOf n.val) ((s.localOf n.val).pat xi) ((s.localOf n.val).pat? yi) o := by
  obtain ⟨m, lap, o, he, mrun, hc, -, ho, b⟩ := exec_attention (i := .attQ n sy xi yi) h rfl hw on empty rfl
  obtain rfl := Option.some.inj ho
  obtain ⟨issue, rows, batt⟩ := b.att
  obtain ⟨o, sat, hload, hl⟩ := loadQueries_next m.beforeAttention ((s.localOf n.val).pat xi) ((s.localOf n.val).pat? yi)
  rw [batt] at hload
  have k := (loadQueries_attStep m.beforeAttention ((s.localOf n.val).pat xi) ((s.localOf n.val).pat? yi)).reads
  have hq : ((m.beforeAttention.loadQueries ((s.localOf n.val).pat xi) ((s.localOf n.val).pat? yi)).attUpd
      fun s => attPop (openNext s)).core.att.queue = [] := by
    show (openNext (m.beforeAttention.loadQueries ((s.localOf n.val).pat xi) ((s.localOf n.val).pat? yi)).core.att).queue.drop 1 = []
    rw [openNext_queue, hload]
    rfl
  have hrun : ((m.beforeAttention.loadQueries ((s.localOf n.val).pat xi) ((s.localOf n.val).pat? yi)).attUpd
      fun s => attPop (openNext s)).core.seq.run = .running := by
    show (m.beforeAttention.loadQueries ((s.localOf n.val).pat xi) ((s.localOf n.val).pat? yi)).core.seq.run = _
    rw [(k.clean b.clean).2]
    exact b.run
  obtain ⟨hatt, -⟩ := pump_attention_emptied mrun (attStep_query b.on b.queue (by rw [batt]; exact hnext)) hq (by rw [hrun]; nofun)
  have hopen : m.pump.core.att = attPop (openNext (m.beforeAttention.loadQueries ((s.localOf n.val).pat xi) ((s.localOf n.val).pat? yi)).core.att) :=
    hatt
  rw [hload] at hopen
  have hstream (p : Pattern) : m.beforeAttention.patStream p = (s.localOf n.val).patStream p := patStream_congr b.env b.mem p
  refine ⟨_, o, he, by rw [hc, hopen]; rfl, by rw [hc, hatt]; exact hq, by rw [hc, hopen]; rfl, hl.rows, hl.state, ?_, ?_, fun g hg => ?_⟩
  · rw [hl.qPos, show m.beforeAttention.patStream = (s.localOf n.val).patStream from funext hstream]
  · rw [hl.kvPos, show m.beforeAttention.patStream = (s.localOf n.val).patStream from funext hstream]
  · rw [hl.queries g (by rw [batt]; exact hg)]
    exact List.map_congr_left fun w _ => congrArg _ (Local.scr_congr b.env b.mem _ _)

theorem issued_attWalk (hw : w.a = .attWalk sy xi) {q : Sequence} (hret : (s.core n.val).att.walkRetired = false)
    (hseq : (s.core n.val).att.seq = some q) (herr : q.error = false) (hwalk : (s.core n.val).att.walk = none)
    (hrec : recordError (s.localOf n.val) (parseWalkRecord ((s.localOf n.val).patStream ((s.localOf n.val).pat xi))) = false) :
    ∃ t k, exec (.attWalk n sy xi) s = .next t ∧ (t.core n.val).att.walk = some k ∧ k.phase = .header ∧
      k.record = parseWalkRecord ((s.localOf n.val).patStream ((s.localOf n.val).pat xi)) ∧
      k.reads = [newRead (s.localOf n.val) none (lineUnit (s.coreEnv n.val).capList k.record.table)] := by
  obtain ⟨m, lap, o, he, mrun, hc, -, ho, b⟩ := exec_attention (i := .attWalk n sy xi) h rfl hw on empty rfl
  obtain rfl := Option.some.inj ho
  obtain ⟨issue, rows, batt⟩ := b.att
  have hstream := patStream_congr b.env b.mem ((s.localOf n.val).pat xi)
  have g := startWalk_begun (l := m.beforeAttention) (x := (s.localOf n.val).pat xi) lap (s.localOf n.val).core.seq.position b.clean (q := q)
    (by rw [batt]; exact hseq) herr (by rw [hstream, recordError_congr b.env (by rw [batt])]; exact hrec)
  rw [hstream] at g
  set y := m.beforeAttention.startWalk ((s.localOf n.val).pat xi) lap (s.localOf n.val).core.seq.position with hy
  obtain ⟨k, hk, hphase, hrecord, hreads⟩ := g.walk
  have hstep : m.beforeAttention.attStep = y := by
    rw [attStep_walk b.on b.queue (by rw [batt]; exact hret) (windsDown_of_running b.run b.parity), if_pos]
    rw [batt]
    show (s.core n.val).att.walk.isNone = true
    rw [hwalk]
    rfl
  have hqueue := g.queue.trans b.queue
  have hfix : y.attStep = y := by
    rw [attStep_walk (by rw [g.regions]; exact b.on) hqueue (by rw [g.retired, batt]; exact hret)
      (windsDown_of_running (by rw [g.seq]; exact b.run) (by rw [g.step]; exact b.parity)), if_neg (by rw [hk]; nofun),
      deliverNext_of_header hk hphase]
  have hpre : y.preload = y := by
    unfold Local.preload
    rw [hqueue]
    cases y.core.regions.attention <;> cases y.core.att.seq <;> cases y.core.att.next <;> rfl
  obtain ⟨hatt, -⟩ := pump_attention mrun hstep hfix hpre (by rw [hqueue]; nofun) fun _ => by rw [hqueue]; nofun
  refine ⟨_, k, he, by rw [hc, hatt, hk], hphase, hrecord, ?_⟩
  rw [hreads, hrecord, newRead_congr b.env, b.env]
  rfl

theorem issued_attOut_fits (hw : w.a = .attOut sy xi yi) {q : Sequence} (hseq : (s.core n.val).att.seq = some q)
    (hf : patFormat ((s.localOf n.val).pat xi) = outFormat (s.core n.val).att.mode)
    (hn : ((s.localOf n.val).pat xi).n0 = rowElems (outFormat (s.core n.val).att.mode) (headDim (s.core n.val).att.mode)) :
    ∃ t, exec (.attOut n sy xi yi) s = .next t ∧ (t.core n.val).att.seq = none ∧
      t.mem = ((s.localOf n.val).runAttOut ((s.localOf n.val).pat xi) ((s.localOf n.val).pat? yi)).mem := by
  obtain ⟨m, lap, o, he, mrun, hc, hm, ho, b⟩ := exec_attention (i := .attOut n sy xi yi) h rfl hw on empty rfl
  obtain rfl := Option.some.inj ho
  obtain ⟨issue, rows, batt⟩ := b.att
  have hbseq : m.beforeAttention.core.att.seq = some q := by rw [batt]; exact hseq
  have hbmode : m.beforeAttention.core.att.mode = (s.localOf n.val).core.att.mode := by rw [batt]
  obtain ⟨hmem, hnone, hs⟩ := runAttOut_fits ((s.localOf n.val).pat? yi) hbseq (by rw [hbmode]; exact hf) (by rw [hbmode]; exact hn)
  obtain ⟨hmem', -, -⟩ := runAttOut_fits (l := s.localOf n.val) ((s.localOf n.val).pat? yi) hseq hf hn
  have hq : ((m.beforeAttention.runAttOut ((s.localOf n.val).pat xi) ((s.localOf n.val).pat? yi)).attUpd attPop).core.att.queue = [] := by
    show (m.beforeAttention.runAttOut ((s.localOf n.val).pat xi) ((s.localOf n.val).pat? yi)).core.att.queue.drop 1 = []
    rw [runAttOut_queue, b.queue]
    rfl
  obtain ⟨hatt, hpm⟩ := pump_attention_emptied mrun (attStep_out b.on b.queue) hq (by
    show (m.beforeAttention.runAttOut ((s.localOf n.val).pat xi) ((s.localOf n.val).pat? yi)).core.seq.run ≠ _
    rw [hs, b.run]
    nofun)
  refine ⟨_, he, by rw [hc, hatt]; exact hnone, ?_⟩
  rw [hm, hpm]
  show (m.beforeAttention.runAttOut ((s.localOf n.val).pat xi) ((s.localOf n.val).pat? yi)).mem = _
  rw [hmem, hmem', hbmode, b.env]
  cases (s.localOf n.val).pat? yi with
  | none => exact writeRuns_mem_congr b.env b.mem _ _
  | some p =>
    exact writeRuns_mem_congr (by rw [(writeRuns_writes _ _ _).env, (writeRuns_writes _ _ _).env, b.env])
      (writeRuns_mem_congr b.env b.mem _ _) _ _

theorem issued_attOut_mismatch (hw : w.a = .attOut sy xi yi) {q : Sequence} (hseq : (s.core n.val).att.seq = some q)
    (hmis : patFormat ((s.localOf n.val).pat xi) ≠ outFormat (s.core n.val).att.mode ∨
      ((s.localOf n.val).pat xi).n0 ≠ rowElems (outFormat (s.core n.val).att.mode) (headDim (s.core n.val).att.mode)) :
    ∃ t, exec (.attOut n sy xi yi) s = .next t ∧ (t.core n.val).att.seq = none ∧ t.mem = s.mem ∧
      (t.core n.val).att.modeErrors = if q.error then (s.core n.val).att.modeErrors else satAdd (s.core n.val).att.modeErrors 1 := by
  obtain ⟨m, lap, o, he, mrun, hc, hm, ho, b⟩ := exec_attention (i := .attOut n sy xi yi) h rfl hw on empty rfl
  obtain rfl := Option.some.inj ho
  obtain ⟨issue, rows, batt⟩ := b.att
  have hbmode : m.beforeAttention.core.att.mode = (s.localOf n.val).core.att.mode := by rw [batt]
  obtain ⟨hmem, hnone, hs, herr⟩ := runAttOut_mismatch (l := m.beforeAttention) (x := (s.localOf n.val).pat xi) ((s.localOf n.val).pat? yi)
    (q := q) (by rw [batt]; exact hseq) (by rw [hbmode]; exact hmis)
  have hq : ((m.beforeAttention.runAttOut ((s.localOf n.val).pat xi) ((s.localOf n.val).pat? yi)).attUpd attPop).core.att.queue = [] := by
    show (m.beforeAttention.runAttOut ((s.localOf n.val).pat xi) ((s.localOf n.val).pat? yi)).core.att.queue.drop 1 = []
    rw [runAttOut_queue, b.queue]
    rfl
  obtain ⟨hatt, hpm⟩ := pump_attention_emptied mrun (attStep_out b.on b.queue) hq (by
    show (m.beforeAttention.runAttOut ((s.localOf n.val).pat xi) ((s.localOf n.val).pat? yi)).core.seq.run ≠ _
    rw [hs, b.run]
    nofun)
  refine ⟨_, he, by rw [hc, hatt]; exact hnone, ?_, ?_⟩
  · rw [hm, hpm]
    exact hmem.trans b.mem
  · rw [hc, hatt]
    exact herr.trans (by rw [batt]; rfl)

end

end Sys2Proof.Machine

namespace Sys2Proof.Proofs

open Sys2Proof Sys2Proof.Machine

/-- Settles O22: a clean word leaves its operation alone in the queue, where the unit acts on it at once; a stage changes the tiles and the
row state alone. -/
theorem attentionStages : Obligations.AttentionStages := by
  unfold Obligations.AttentionStages
  intro n s sy x y rest q up on a level run part tile
  refine ⟨fun w xi yi h empty notRetired => ⟨issued_attMode h on empty, fun hw hnext => ?_,
    fun hw hseq herr hwalk hrec => issued_attWalk h on empty hw notRetired hseq herr hwalk hrec, fun hw hseq => ⟨fun hf hn => ?_, fun hmis =>
      issued_attOut_mismatch h on empty hw hseq hmis⟩⟩, fun hseq herr hmis => ?_⟩
  · obtain ⟨t, o, he, ht, hq, hkv, hl⟩ := issued_attQ h on empty hw hnext
    refine ⟨t, o, he, ht, hq, hl.rows, by rw [hl.rows]; exact hl.state, ?_, ?_, hkv, hl.queries⟩
    · rw [hl.qPos]
      unfold Local.pat?
      split <;> rfl
    · rw [hl.kvPos]
      unfold Local.pat?
      split <;> rfl
  · obtain ⟨t, he, ht, hm⟩ := issued_attOut_fits h on empty hw hseq hf hn
    refine ⟨t, he, ht, ?_⟩
    refine hm.trans ((runAttOut_fits (l := s.localOf n.val) (x := (s.localOf n.val).pat xi) _ hseq hf hn).1.trans ?_)
    unfold Local.pat?
    split <;> rfl
  · refine ⟨fun hq room more hel => ?_, fun hq room more hel => ?_, fun first later hst hq hrun clean => ?_⟩
    · obtain ⟨hc, -⟩ := onCore_unit (f := fun l => l.scoreStage.pump) up
      have hs := scoreStage_enters (l := s.localOf n.val) on hq room more hseq herr hel
      have ks := (scoreStage_attStep (s.localOf n.val)).reads
      have hne : a.staged ++ [tile] ≠ [] := by simp
      have g := KvHead.pump (l := (s.localOf n.val).scoreStage) (sy := sy) (x := x) (y := y) (rest := rest) (q := q)
        ⟨by rw [ks.regions]; exact on, by rw [hs]; exact hq, by rw [hs]; exact hseq, herr, by rw [ks.env, hs]; exact hmis,
          .inr fun hd => by rw [hs] at hd; exact hne hd.2⟩
      obtain ⟨g1, g2, -, g4, g5, -⟩ := g
      rw [hs] at g1 g2 g4 g5
      refine ⟨_, rfl, ?_, ?_, ?_, ?_⟩ <;> rw [hc]
      · exact g1
      · exact g5 hne
      · exact g4
      · exact g2
    · obtain ⟨hc, -⟩ := onCore_unit (f := fun l => l.scoreStage.pump) up
      have hs := scoreStage_skips (l := s.localOf n.val) on hq room more hseq herr hel
      have ks := (scoreStage_attStep (s.localOf n.val)).reads
      have g := KvHead.pump (l := (s.localOf n.val).scoreStage) (sy := sy) (x := x) (y := y) (rest := []) (q := q)
        ⟨by rw [ks.regions]; exact on, by rw [hs]; exact hq, by rw [hs]; exact hseq, herr, by rw [ks.env, hs]; exact hmis, .inl rfl⟩
      obtain ⟨g1, g2, -, -, -, -⟩ := g
      rw [hs] at g1 g2
      refine ⟨_, rfl, ?_, ?_⟩ <;> rw [hc]
      · exact g1
      · exact g2
    · obtain ⟨hc, -⟩ := onCore_unit (f := fun l => l.valueStage.pump) up
      have hs := valueStage_tile (l := s.localOf n.val) hst hseq herr
      have g := KvHead.pump (l := (s.localOf n.val).valueStage) (sy := sy) (x := x) (y := y) (rest := []) (q := { q with state := tileRows level a.mode q first })
        ⟨by rw [hs]; exact on, by rw [hs]; exact hq, by rw [hs]; rfl, herr, by rw [hs]; exact hmis, .inl rfl⟩
      obtain ⟨g1, -, g3, -, -, g6⟩ := g
      have g6' := g6 (by rw [hs]; exact clean) (by rw [hs]; exact hrun)
      rw [hs] at g1 g3 g6'
      refine ⟨_, rfl, ?_, ?_, ?_⟩ <;> rw [hc]
      · rw [hs]; exact g1
      · rw [hs]; exact g3
      · rw [hs, g6']; rfl

end Sys2Proof.Proofs
end

section
/-!
PROOF. Walks: the candidates of a page table (R185), the report of a walk that retires (R191, R195), and the core whose array
finds a parity error at the very command that merges or scores a walk.
-/

namespace Sys2Proof.Machine

/-! ## Candidates -/

theorem mem_cuffEntries {l : Local} {r : WalkRecord} {h : TableHeader} {i : Nat} :
    (∃ k, i ∈ cuffEntries l r h k) ↔ r.firstPage ≤ i ∧ i < r.firstPage + r.pageCount := by
  simp only [cuffEntries, List.mem_filter, List.mem_map, List.mem_range, beq_iff_eq]
  constructor
  · rintro ⟨_, ⟨j, hj, rfl⟩, _⟩
    omega
  · rintro ⟨h1, h2⟩
    exact ⟨_, ⟨i - r.firstPage, by omega, by omega⟩, rfl⟩

/-- A usable entry of which the open sequence sees a key (R185). -/
def entrySeen (m : DWord) (q : Sequence) (v : Nat) : Bool :=
  natField v 0 1 == 1 && decide (1 ≤ natField v 32 7) &&
    (List.range (natField v 32 7)).any fun k => eligibleAny m q (natField v 96 32 + k)

/-- The reserved fields of an entry are zero (Table 09-2). -/
def entryClean (v : Nat) : Bool := natField v 92 4 == 0 && natField v 39 11 == 0 && natField v 2 30 == 0

theorem entrySeen_iff {m : DWord} {q : Sequence} {v : Nat} : entrySeen m q v = true ↔
    (natField v 0 1 = 1 ∧ 1 ≤ natField v 32 7) ∧ ∃ k row, k < natField v 32 7 ∧ row < q.rows ∧
      eligible m q (natField v 96 32 + k) (rowPos m q row) = true := by
  simp only [entrySeen, eligibleAny, Bool.and_eq_true, beq_iff_eq, decide_eq_true_eq, List.any_eq_true, List.mem_range]
  exact ⟨fun ⟨u, k, hk, row, hr, e⟩ => ⟨u, k, row, hk, hr, e⟩, fun ⟨u, k, row, hk, hr, e⟩ => ⟨u, k, hk, row, hr, e⟩⟩

theorem entryClean_iff {v : Nat} :
    entryClean v = true ↔ natField v 2 30 = 0 ∧ natField v 39 11 = 0 ∧ natField v 92 4 = 0 := by
  simp only [entryClean, Bool.and_eq_true, beq_iff_eq]
  tauto

theorem isSome_ite {α : Type} (b : Bool) (a : α) : (if b then some a else none).isSome = b := by cases b <;> rfl

theorem filterEntry_isSome {l : Local} {q : Sequence} (hq : l.core.att.seq = some q) (r : WalkRecord) (i : Nat) (bytes : List Byte) :
    (filterEntry l r i bytes).1.isSome = (entrySeen l.core.att.mode q (leNat (bytes.take 16)) && entryClean (leNat (bytes.take 16))) := by
  simp only [filterEntry, hq]
  exact isSome_ite _ _

theorem filterEntry_bad {l : Local} {q : Sequence} (hq : l.core.att.seq = some q) (r : WalkRecord) (i : Nat) (bytes : List Byte) :
    (filterEntry l r i bytes).2 = (entrySeen l.core.att.mode q (leNat (bytes.take 16)) && !entryClean (leNat (bytes.take 16))) := by
  simp only [filterEntry, hq, entrySeen, entryClean]

/-- A candidate is no bad page, and what is no candidate counts as one where it failed on a reserved field only. -/
theorem noteEntry_badPages (c : Nat) (w : Walk) (e : Option Candidate × Bool) (summary : List Byte) (h : e.2 = true → e.1 = none) :
    (noteEntry c w e summary).badPages = w.badPages + (if e.2 then 1 else 0) := by
  obtain ⟨_ | k, _ | _⟩ := e
  · rfl
  · rfl
  · rfl
  · exact absurd (h rfl) nofun

/-! ## Reports -/

theorem walkReport_length (w : Walk) : (walkReport w).length = 64 := by
  simp only [walkReport, List.length_append, leBytes_length]

theorem walkRetire_done {l : Local} {w : Walk} (hw : l.core.att.walk = some w) (hd : w.phase = .done)
    (hr : w.record.reportWord + 16 ≤ scratchWords) : l.walkRetire.core.att = countWalk l.core.att w true ∧
      l.walkRetire.mem = memWrite l.mem (scratchAddr l.env.n (4 * w.record.reportWord)) (walkReport w) := by
  have k := cross_reads l 7 (linesOf w.record.reportWord 16)
  have hm := writeScr_words (l.cross 7 (linesOf w.record.reportWord 16)) (4 * w.record.reportWord)
    (bs := walkReport w) (by rw [walkReport_length])
  rw [k.env, k.mem] at hm
  simp only [Local.walkRetire, hw, hd, if_true, if_pos hr, Local.attUpd]
  exact ⟨congrArg (countWalk · w true) k.att, hm⟩

/-- No walk is under way: of `a` on, the walk at the head of the queue has retired and leaves it at most. -/
structure WalkIsOver (o : AttOp) (a b : AttState) : Prop where
  walk : b.walk = none
  walks : b.walks = a.walks
  queue : b.queue = [] ∨ b.queue = [o] ∧ b.walkRetired = true

theorem WalkIsOver.attStep {sy : Bool} {x : Pattern} {lap : BitVec 2} {word : BitVec 28} {a : AttState} {l : Local}
    (h : WalkIsOver (.walk sy x lap word) a l.core.att) : WalkIsOver (.walk sy x lap word) a l.attStep.core.att := by
  rcases h.queue with hq | ⟨hq, hr⟩
  · rw [attStep_of_empty hq]
    exact h
  · unfold Local.attStep
    split
    case h_5 =>
      simp only [hr, if_true]
      split
      · exact ⟨h.walk, h.walks, .inl (by simp [Local.attUpd, attPop, hq])⟩
      · exact h
    case h_6 => exact h
    all_goals
      next heq =>
      rw [hq] at heq
      exact absurd heq nofun

theorem preload_of_noQuery {l : Local} (h : nextQuery l.core.att.queue = none) : l.preload = l := by
  unfold Local.preload
  split
  · next heq =>
    rw [h] at heq
    exact absurd heq nofun
  · rfl

theorem WalkIsOver.progress {sy : Bool} {x : Pattern} {lap : BitVec 2} {word : BitVec 28} {a : AttState} {l : Local}
    (h : WalkIsOver (.walk sy x lap word) a l.core.att) : WalkIsOver (.walk sy x lap word) a l.progress.core.att := by
  refine progress_rel (R := fun k m => WalkIsOver _ a k.core.att → WalkIsOver _ a m.core.att) (fun _ h => h) (fun _ _ _ hxy hyz h => hyz (hxy h))
    (fun _ h => h) ?move ?arr (fun _ h => h.attStep) ?pre l h
  case move =>
    intro k hk
    rw [(movePump_only k).2.2.2]
    exact hk
  case arr =>
    intro k hk
    rw [(arrayStep_arrStep k).reads.att]
    exact hk
  case pre =>
    intro k hk
    rw [preload_of_noQuery]
    · exact hk
    · rcases hk.queue with hq | ⟨hq, -⟩ <;> rw [hq] <;> rfl

theorem settleRegions_walk (c : Core) (h : c.att.queue.head? ≠ some .off) :
    (settleRegions c).att.walk = c.att.walk ∧ (settleRegions c).att.walks = c.att.walks := by
  obtain ⟨-, r1, -, -⟩ := bit_offReady c
  have h1 : bit (offReady c) 1 = false := by
    by_contra hb
    exact h (r1 (by simpa using hb))
  have hoff : (applyOff c).att = c.att := by
    have e : (applyOff c).att = if bit (offReady c) 1 then { attClear c.att with queue := c.att.queue.drop 1 } else c.att := rfl
    rw [e, h1]
    rfl
  have hab : ∀ d : Core, (abandonOpen d).att.walk = d.att.walk ∧ (abandonOpen d).att.walks = d.att.walks := by
    intro d
    unfold abandonOpen
    split <;> exact ⟨rfl, rfl⟩
  exact ⟨(hab _).1.trans (by rw [hoff]), (hab _).2.trans (by rw [hoff])⟩

theorem WalkIsOver.pump {sy : Bool} {x : Pattern} {lap : BitVec 2} {word : BitVec 28} {l : Local}
    (h : WalkIsOver (.walk sy x lap word) l.core.att l.core.att) : l.pump.core.att.walk = none ∧ l.pump.core.att.walks = l.core.att.walks := by
  have hp := h.progress
  have head : l.progress.core.att.queue.head? ≠ some .off := by
    rcases hp.queue with hq | ⟨hq, -⟩ <;> rw [hq] <;> nofun
  obtain ⟨hw, hn⟩ := settleRegions_walk _ head
  rw [pump_eq]
  exact ⟨hw.trans hp.walk, hn.trans hp.walks⟩

/-! ## A core at rest -/

/-- The pump of a core without anything in a queue changes its regions at most. -/
theorem pump_of_idle {l : Local} (run : l.core.seq.run ≠ .stopped) (move : l.core.moveQ = []) (quiet : QuietUnits l.core)
    (vec : l.core.vec.queue = []) : ∃ g, l.pump = { l with core := { l.core with regions := g } } := by
  have none : offReady l.core = 0 := by
    simp [offReady, quiet.array, quiet.attention, vec]
  have hoff : ∃ g, applyOff l.core = { l.core with regions := g } := by
    unfold applyOff
    simp only [none]
    exact ⟨_, rfl⟩
  obtain ⟨g, hg⟩ := hoff
  have hab : abandonOpen (applyOff l.core) = applyOff l.core := by
    refine if_neg fun h => run ?_
    rw [hg] at h
    exact h.1
  rw [pump_eq, progress_of_quiet quiet, movePump_of_empty move]
  dsimp only
  rw [settleRegions, hab, hg]
  exact ⟨_, rfl⟩

end Sys2Proof.Machine

namespace Sys2Proof.Proofs

open Sys2Proof Sys2Proof.Machine

/-- Settles O24. -/
theorem candidateEntries : Obligations.CandidateEntries := by
  unfold Obligations.CandidateEntries
  intro l r h w i cSlots bytes summary q hq v usable clean seen
  have hseen : entrySeen l.core.att.mode q v = true ↔ usable ∧ seen := entrySeen_iff
  have hclean : entryClean v = true ↔ clean := entryClean_iff
  have hsome : _ = (_ && entryClean v) := filterEntry_isSome hq r i bytes
  have hbad : _ = (_ && !entryClean v) := filterEntry_bad hq r i bytes
  clear_value usable clean seen
  have two : (filterEntry l r i bytes).2 = true ↔ usable ∧ ¬clean ∧ seen := by
    rw [hbad, Bool.and_eq_true, Bool.not_eq_true', ← Bool.not_eq_true, hseen, hclean]
    tauto
  have counted := noteEntry_badPages cSlots w (filterEntry l r i bytes) summary fun hb => by
    rw [two] at hb
    rw [← Option.not_isSome_iff_eq_none, hsome, Bool.and_eq_true, hseen, hclean]
    tauto
  refine ⟨mem_cuffEntries, ?_, two, fun hb => ?_, fun hb => ?_⟩
  · rw [hsome, Bool.and_eq_true, hseen, hclean]
    tauto
  · rw [counted, if_pos (two.mpr hb)]
  · rw [counted, if_neg (mt two.mp hb), Nat.add_zero]

/-- Settles O26: the report of 64 bytes is all that is written, and the walk that has retired leaves the queue at most. -/
theorem walkRetiresWithReport : Obligations.WalkRetiresWithReport := by
  unfold Obligations.WalkRetiresWithReport
  intro n s w sy x lap word up hq hw hd hr
  obtain ⟨hc, hm⟩ := onCore_unit up fun l => l.walkRetire.pump
  obtain ⟨hatt, hmem⟩ := walkRetire_done (l := s.localOf n.val) hw hd hr
  have left : WalkIsOver (.walk sy x lap word) (s.localOf n.val).walkRetire.core.att (s.localOf n.val).walkRetire.core.att := by
    rw [hatt]
    exact ⟨rfl, rfl, .inr ⟨hq, rfl⟩⟩
  have hpump : (s.localOf n.val).walkRetire.pump.mem = (s.localOf n.val).walkRetire.mem := by
    refine pump_mem_of_noOut fun sy' x' y' hin => ?_
    rw [hatt, show (countWalk (s.localOf n.val).core.att w true).queue = [.walk sy x lap word] from hq] at hin
    simp at hin
  obtain ⟨pw, pn⟩ := left.pump
  have written : (s.onCore n.val fun l => l.walkRetire.pump).mem =
      memWrite s.mem (scratchAddr n.val (4 * w.record.reportWord)) (walkReport w) := hm.trans (hpump.trans hmem)
  refine ⟨_, rfl, by rw [hc, pw], by rw [hc, pn, hatt]; rfl, ?_, fun a ha => ?_⟩
  · rw [State.scratch, written, ← walkReport_length w, memRead_memWrite]
  · rw [written, memGet_memWrite_out]
    rw [walkReport_length]
    exact ha

/-- Settles O27: nothing is in a queue at the restart, so that the progress of the units changes no part of what was restored. -/
theorem stepStartsAgain : Obligations.StepStartsAgain := by
  unfold Obligations.StepStartsAgain
  intro n s r up parity run hset hrec
  obtain ⟨hc, hm⟩ := onCore_unit up fun l => l.reexecute.pump
  have hl : (s.localOf n.val).reexecute = { s.localOf n.val with core := restoreStep (s.core n.val) r } := by
    have e : (s.localOf n.val).core = s.core n.val := rfl
    simp only [Local.reexecute, e, parity, run, hset, hrec, beq_self_eq_true, Bool.and_self, if_true]
  have hs := hset
  simp only [settled, Bool.and_eq_true, List.isEmpty_iff, Option.isNone_iff_eq_none] at hs
  obtain ⟨⟨⟨⟨-, harr⟩, hrunning⟩, hvec⟩, -⟩ := hs
  obtain ⟨g, hg⟩ := pump_of_idle (l := (s.localOf n.val).reexecute) (by rw [hl]; exact fun h => by rw [show (restoreStep (s.core n.val) r).seq.run = (s.core n.val).seq.run from rfl, run] at h; cases h)
    (by rw [hl]; rfl) (by rw [hl]; exact ⟨harr, rfl, rfl⟩) (by rw [hl]; exact hvec)
  rw [hg, hl] at hc hm
  have hwalk : (walkAbandon (s.core n.val).att).walk = none := by
    unfold walkAbandon
    split
    · rfl
    · next h => exact h
  refine ⟨_, rfl, hm, ?_⟩
  rw [hc]
  exact ⟨rfl, rfl, rfl, rfl, rfl, rfl, run, rfl, rfl, hvec, rfl, harr, hrunning, rfl, rfl, rfl, rfl, rfl, rfl, rfl, rfl, rfl, rfl, rfl, rfl, rfl, hwalk,
    rfl, rfl, rfl, Bool.or_true _, rfl, rfl, rfl⟩

/-! ## A parity error in the array at the walk's own command

What a unit's event leaves is followed by the progress of every unit. Where an ARR_WLOAD then reads a scratchpad word with bad parity, the
core winds down, and the walk at the head of the ATTENTION queue is abandoned (R174, R195, R210) within the same command. -/

/-- A load of one row from scratchpad word 0. -/
def rowAtZero : Pattern := decodePattern (BitVec.ofNat 256 (2 ^ 192))

/-- A running core with a load in its ARRAY queue whose word has bad parity, and a walk at the head of its ATTENTION queue. -/
def parityCore (w : Walk) (turns : List WalkTurns) : Core :=
  { Core.reset with
    seq := { Sequencer.reset with run := .running },
    arr := { Core.reset.arr with queue := [.wload true rowAtZero false] },
    att := { Core.reset.att with queue := [.walk true rowAtZero 0 0], walk := some w, turns := turns },
    scr := { Core.reset.scr with badParity := [0] } }

/-- A started module with that core as its first. -/
def parityState (w : Walk) (turns : List WalkTurns) : State :=
  { State.reset with
    panels := [(0, { Panel.reset with powered := true })],
    power := { Power.reset with jIn := true, stage := true, step := 10, ready := true, everReady := true },
    cap := { CapTier.reset with list := (List.range 12).map (20 * ·), populatedMib := 1523712 },
    cores := [(0, parityCore w turns)] }

/-- The table of the walk below: forty pages with one centroid each. -/
def scoringTable : TableHeader :=
  { valOffset := 1, headDim := 4, vFormat := 0, kFormat := 0, cSlots := 1, version := 1, pageCount := 40, generation := 7, reservedZero := true }

/-- A walk of retrieval over forty pages of the capacity tier. -/
def scoringOf (phase : WalkPhase) : Walk :=
  { record := { table := capBase, reportWord := 0, probeWord := 0, probes := 1, lambda := 0, firstPage := 0, pageCount := 40, kTop := 2,
                sink := 1, recent := 0, turnsPocket := 0, turnsHub := 0, turnsScore := 0, reservedZero := true },
    header := some scoringTable,
    probes := [], phase := phase, status := .ok, startNs := 0, endNs := 0, genEnd := 0, next := 0, scores := [], lists := [],
    candidates := 0, forced := 0, unsummarised := 0, nanScores := 0, badPages := 0, kth := 0, selected := [], reads := [], delivered := 0,
    keysDelivered := 0 }

def scoringTurns : WalkTurns := ⟨0, (scoringOf .score).record, 0, 0, [], [(seamRing 0 1, 0)], [], [], false⟩

theorem merge_abandons_walk :
    (((parityState (scoringOf .merge) []).onCore 0 fun l => l.walkMerge.pump).core 0).att.walk.isNone = true := by
  decide +kernel

/-- Refutes O25: the load that follows the merge finds a parity error, and the walk is abandoned. -/
theorem not_walkSelectsBestPages : ¬ Obligations.WalkSelectsBestPages := by
  unfold Obligations.WalkSelectsBestPages
  intro h
  obtain ⟨t, w', ht, hw, -⟩ := h 0 (parityState (scoringOf .merge) []) (scoringOf .merge) true rowAtZero 0 0 []
    (by decide +kernel) rfl rfl rfl rfl rfl (by decide +kernel) List.nodup_nil
  have gone := merge_abandons_walk
  injection ht with ht
  rw [← ht] at hw
  exact absurd (hw.symm.trans (Option.isNone_iff_eq_none.mp gone)) nofun

theorem scoring_abandons_walk :
    (((parityState (scoringOf .score) [scoringTurns]).scoreCommand 0 1).core 0).att.walk.isNone = true := by
  decide +kernel

theorem scoring_has_units :
    (scoreUnits ((parityState (scoringOf .score) [scoringTurns]).localOf 0) (scoringOf .score) scoringTable 1).isEmpty = false := by
  decide +kernel

/-- Refutes O23, in its first part: the load that follows the scoring command finds a parity error, and the walk is abandoned. -/
theorem not_walkScoresAtCuff : ¬ Obligations.WalkScoresAtCuff := by
  unfold Obligations.WalkScoresAtCuff
  intro h
  have up : (parityState (scoringOf .score) [scoringTurns]).coreUp 0 = true := by decide +kernel
  obtain ⟨t, w', ht, hw, -⟩ := h.1 0 1 (parityState (scoringOf .score) [scoringTurns]) (scoringOf .score) scoringTable 0 scoringTurns [] true rowAtZero 0 0
    up (by decide +kernel) rfl rfl rfl rfl rfl rfl (List.isEmpty_eq_false_iff.mp scoring_has_units) (by decide +kernel) rfl (by decide +kernel) rfl
  have hn : exec (.walkScoreCommand 0 1) (parityState (scoringOf .score) [scoringTurns]) =
      .next ((parityState (scoringOf .score) [scoringTurns]).scoreCommand 0 1) := congrArg Host.Outcome.next (if_pos up)
  rw [hn] at ht
  injection ht with ht
  rw [← ht] at hw
  exact absurd (hw.symm.trans (Option.isNone_iff_eq_none.mp scoring_abandons_walk)) nofun

end Sys2Proof.Proofs
end

section
/-!
PROOF. Bank retirement (R212): what a marked bank's move to the spare leaves, and that nothing which follows the darkening of a physical core
touches the states of the physical cores.
-/

namespace Sys2Proof.Machine

/-! ## Chains of steps of the module -/

/-- What holds of each step of a fold over the module, and along chains of steps, holds of the whole. -/
theorem foldOver_rel {α : Type} {R : State → State → Prop} (refl : ∀ s, R s s) (trans : ∀ s t u, R s t → R t u → R s u)
    {f : State → α → State} (hf : ∀ s a, R s (f s a)) (as : List α) (s : State) : R s (foldOver as f s) := by
  induction as generalizing s with
  | nil => exact refl s
  | cons a r ih => exact trans _ _ _ (hf s a) (ih (f s a))

/-- `t` has the sparing map of `s`. -/
abbrev SameMap (s t : State) : Prop := t.map = s.map

theorem foldOver_map {α : Type} {f : State → α → State} (hf : ∀ s a, SameMap s (f s a)) (as : List α) (s : State) :
    SameMap s (foldOver as f s) :=
  foldOver_rel (R := SameMap) (fun _ => rfl) (fun _ _ _ h g => Eq.trans g h) hf as s

@[simp] theorem note_map (s : State) (a b c d e : Nat) : (s.note a b c d e).map = s.map := by rw [State.note_only]

@[simp] theorem fileAll_map (s : State) (rs : List Report) : (s.fileAll rs).map = s.map := by rw [State.fileAll_only]

@[simp] theorem onColumn_map (s : State) (col : Nat) (f : Column → ColSite → ColStep) : (s.onColumn col f).map = s.map := by
  simp [State.onColumn]

@[simp] theorem drainRing_map (s : State) (k : Nat) : (s.drainRing k).map = s.map := by
  unfold State.drainRing
  split <;> simp

@[simp] theorem noteFill_map (s : State) (n w last : Nat) : (s.noteFill n w last).map = s.map := by
  refine (foldOver_map (fun t u => ?_) _ _).trans (onColumn_map _ _ _)
  dsimp only [SameMap]
  split <;> simp

@[simp] theorem restartCore_map (s : State) (lap n : Nat) : (s.restartCore lap n).map = s.map := by
  unfold State.restartCore
  dsimp only
  split <;> simp

@[simp] theorem lapReplay_map (s : State) (cause : Nat) : (s.lapReplay cause).map = s.map := by
  unfold State.lapReplay
  split
  · rw [note_map, foldOver_map fun t n => restartCore_map t _ n]
    exact foldOver_map (fun t k => by simp [SameMap, State.updRing]) _ _
  · rfl

/-! ## Darkening -/

theorem settleColumns_phys (s : State) : s.settleColumns.map = s.map := by
  refine foldOver_map (fun t k => ?_) _ _
  dsimp only [SameMap]
  split
  · rfl
  · rfl

theorem makeAbsent_phys (s : State) (n : Nat) (un : List Nat) : (s.makeAbsent n un).map.phys = s.map.phys := by
  unfold State.makeAbsent
  rw [settleColumns_phys]
  rfl

theorem stopReplayable_map (s : State) (n : Nat) : (s.stopReplayable n).map = s.map := by
  unfold State.stopReplayable
  split
  · refine foldOver_map (fun t m => ?_) _ _
    rfl
  · rfl

theorem loseNumber_phys (s : State) (phys n cause outcome : Nat) (un : List Nat) :
    (s.loseNumber phys n cause outcome un).map.phys = s.map.phys := by
  unfold State.loseNumber State.darkRecord
  rw [stopReplayable_map, note_map, makeAbsent_phys]

theorem physState_congr {s t : State} (h : t.map.phys = s.map.phys) (k : Nat) : t.physState k = s.physState k := by
  rw [State.physState, h]
  rfl

theorem physState_setPhys (s : State) (k j : Nat) (p : PhysState) : (s.setPhys k p).physState j = if j = k then p else s.physState j :=
  mapGet_mapPut _ _ _ _ _

/-- A physical core that is active is dark once it has gone dark, whatever becomes of its number. -/
theorem goDark_dark {s : State} {phys : Nat} (h : s.physState phys = .active) (cause : Nat) (selfTest : Bool) :
    (s.goDark phys cause selfTest).1.physState phys = .dark := by
  have own : (s.setPhys phys .dark).physState phys = .dark := by rw [physState_setPhys, if_pos rfl]
  have lost (n outcome : Nat) (un : List Nat) {t : State} (ht : t.physState phys = .dark) :
      (t.loseNumber phys n cause outcome un).physState phys = .dark := by
    rw [physState_congr (loseNumber_phys t phys n cause outcome un), ht]
  unfold State.goDark
  simp only [h]
  split
  · exact own
  · split
    · exact lost _ _ _ own
    · next hx =>
      split
      · exact lost _ _ _ own
      · split
        · exact lost _ _ _ own
        · split
          · unfold State.darkRecord
            rw [physState_congr (congrArg CoreMap.phys (note_map _ _ _ _ _ _))]
            exact (physState_setPhys (s.setPhys phys .dark) (crossoverOf phys) phys .active).trans ((if_neg hx).trans own)
          · exact lost _ _ _ (by rw [physState_setPhys, if_neg hx, own])

theorem darken_dark {s : State} {phys : Nat} (h : s.physState phys = .active) (cause : Nat) (selfTest : Bool) :
    (s.darken phys cause selfTest).physState phys = .dark := by
  have hd : (s.darkenCore phys cause selfTest).1.physState phys = .dark := by
    rw [← goDark_dark h cause selfTest]
    refine physState_congr ?_ phys
    unfold State.darkenCore
    dsimp only
    split <;> rfl
  unfold State.darken
  dsimp only
  split
  · rw [physState_congr (congrArg CoreMap.phys (lapReplay_map _ _)), hd]
  · exact hd

/-! ## Banks -/

/-- A core whose mark is clear: a bank that is marked now is one over the limit. -/
theorem markBank_of_clear {c : Core} (h : c.scr.pendingBank = 0xFF) (none : worstBank (markBank c) = none) :
    (markBank c).scr.pendingBank = 0xFF := by
  unfold markBank at none ⊢
  split
  · next hb =>
    rw [if_pos hb] at none
    cases hw : worstBank c with
    | none => exact h
    | some b =>
      rw [hw] at none
      exact absurd (hw.symm.trans none) nofun
  · exact h

theorem markBank_spareFor (c : Core) : (markBank c).scr.spareFor = c.scr.spareFor := by
  unfold markBank
  split
  · split <;> rfl
  · rfl

end Sys2Proof.Machine

namespace Sys2Proof.Proofs

open Sys2Proof Sys2Proof.Machine

/-- Settles O28. -/
theorem bankRetires : Obligations.BankRetires := by
  unfold Obligations.BankRetires
  intro n selfTest s c pending idle there
  have guard : ¬ ((s.core n.val).scr.pendingBank = 0xFF ∨ s.set.running ∨ (s.entry n.val).state = .absent) := by
    simp [c, idle, there] at pending ⊢
    exact pending
  refine ⟨fun hsp => ⟨_, rfl, ?_⟩, fun hsp act => ⟨_, rfl, ?_⟩⟩
  · have hd : ((s.core n.val).scr.spareFor != 0xFF) = false := by simpa [c] using hsp
    have hcore : ((s.bankRetire n.val selfTest).core n.val) = markBank { s.core n.val with
        scr := { (s.core n.val).scr with pendingBank := 0xFF, darkPending := false, spareFor := (s.core n.val).scr.pendingBank } } := by
      unfold State.bankRetire
      simp only [guard, hd, if_false, Bool.false_eq_true]
      rw [State.note_only]
      exact (State.core_setCore_same _ _ _).trans (congrArg markBank (State.core_setCore_same _ _ _))
    refine ⟨?_, fun h => ?_, ?_⟩
    · rw [hcore, markBank_spareFor]
    · rw [hcore] at h ⊢
      exact markBank_of_clear rfl h
    · unfold State.bankRetire
      simp only [guard, hd, if_false, Bool.false_eq_true]
      rw [State.note_only]
      exact ⟨rfl, rfl, rfl⟩
  · have hd : ((s.core n.val).scr.spareFor != 0xFF) = true := by simpa [c] using hsp
    unfold State.bankRetire
    simp only [guard, hd, if_false, if_true]
    rw [darken_dark]
    · rfl
    · rw [State.note_only]
      exact act

end Sys2Proof.Proofs
end

section
/-!
PROOF. Reset values, fence markers, the loss of the reference and beat rates.
-/

namespace Sys2Proof.Machine

theorem modifyNth_eq {α : Type} (l : List α) (i : Nat) (f : α → α) : modifyNth l i f = l.modify i f := by
  induction l generalizing i with
  | nil => cases i <;> rfl
  | cons a r ih =>
    cases i with
    | zero => rfl
    | succ k => rw [modifyNth, ih, List.modify_succ_cons]

end Sys2Proof.Machine

namespace Sys2Proof.Proofs

open Sys2Proof Sys2Proof.Machine

/-- The registers of the statement, with the values of the spec's Reset columns. -/
def resetColumn : List (Nat × Word) :=
  [(0x20, 0), (0x210, 0x01020000), (0x220, 1), (0x224, 0x00640301), (0x228, 0x000F4240), (0x310, 1),
   (0x314, 0x308), (0x400, 0), (0x508, 0x100A), (0x514, 0x64), (0x640, 1), (0x1008, 6), (0x1018, 6), (0x01000000, 4),
   (0x01000010, 0x000A0A05), (0x01000014, 0x00141414), (0x02000004, 0x00027D0A), (0x04000090, 0x00100000), (0x040000C0, 1),
   (0x040000C4, 2), (0x040000F4, 0x201), (0x04000104, 0x201), (0x04000120, 1), (0x04000140, 3), (0x04000160, 0), (0x06000000, 3),
   (0x07000000, 0xC7), (0x07000004, 0x00406400), (0x09000004, 7), (0x09000008, 5)]

theorem reset_reads_resetColumn :
    (resetColumn.all fun e => (regAt e.1).any fun r => State.reset.regValue Latches.reset r == e.2) = true := by
  decide +kernel

/-- Settles O60. -/
theorem resetValues : Obligations.ResetValues := by
  unfold Obligations.ResetValues
  refine ⟨by decide +kernel, rfl, rfl, rfl, fun e he => ?_⟩
  have h := List.all_eq_true.mp reset_reads_resetColumn e he
  cases hr : regAt e.1 with
  | none => rw [hr] at h; exact absurd h nofun
  | some r =>
    rw [hr] at h
    exact ⟨r, rfl, eq_of_beq h⟩

/-- Settles O43. -/
theorem markersAndRates : Obligations.MarkersAndRates := by
  unfold Obligations.MarkersAndRates
  intro s
  refine ⟨fun p i w hi hw up => ⟨_, rfl, ?_⟩, ⟨_, rfl, ?_⟩, ?_⟩
  · have hf : (s.fenceMarker p.val).host.fences = s.host.fences.modify i fun w => w.mark p.val (s.walking p.val) := by
      simp only [State.fenceMarker, hi, up, if_true]
      exact modifyNth_eq _ _ _
    simp only [hf, List.getElem?_modify]
    refine ⟨by simp [hw], fun j hj => ?_⟩
    simp [Ne.symm hj]
  · rw [State.refLoss, State.note_only]
    exact ⟨rfl, rfl, rfl⟩
  · intro n beats pow fold ent q hnow b
    refine ⟨_, rfl, ?_⟩
    have go : ((s.panel (n.val / 64)).powered && s.power.fold != .folded && (s.entry n.val).state != .absent) = true := by
      simp [pow, fold, ent]
    rw [if_pos go, State.beatWindow, State.core_setCore_same]
    exact ⟨rfl, rfl, congrArg rateOf (if_pos hnow), rfl⟩

end Sys2Proof.Proofs
end

section
/-!
PROOF. Seam flits: what a module holds after one that passes and one that fails its checks, and where a NAK sends the sender back to (R282).
-/

namespace Sys2Proof.Machine

theorem SeamPort.mod_setMod (p : SeamPort) (k j : Nat) (m : SeamModule) : (p.setMod k m).mod j = if j = k then m else p.mod j :=
  mapGet_mapPut _ _ _ _ _

theorem flitKey_ne_reverse (f : SeamFlit) : flitKey f ≠ flitReverseKey f := by
  unfold flitKey flitReverseKey
  cases f.up <;> simp

/-- What a flit that leaves its sender changes of the module: nothing of what the receiver checks. -/
theorem SeamModule.send_checks (m : SeamModule) (x : Nat × List Byte) : (m.send x).expect = m.expect ∧ (m.send x).failures = m.failures := by
  unfold SeamModule.send
  split
  · exact ⟨rfl, rfl⟩
  · split <;> exact ⟨rfl, rfl⟩

theorem flitPasses_send (f : SeamFlit) (kind : Nat) (m : SeamModule) (x : Nat × List Byte) :
    flitPasses f kind (m.send x) = flitPasses f kind m := by
  unfold flitPasses
  rw [(m.send_checks x).1]

/-- The port after a flit that fails a check. -/
def SeamPort.refuse (p : SeamPort) (f : SeamFlit) (kind : Nat) : SeamPort :=
  let m := p.mod (flitKey f)
  let p1 := p.setMod (flitKey f) ((m.send (kind, f.fresh)).reject (m.sending == m.expect))
  p1.setMod (flitReverseKey f) { p1.mod (flitReverseKey f) with nak := true }

section
variable {f : SeamFlit} {s : State} (takes : s.takesFlits f = true)
include takes

/-- A flit that passes is taken, and its kind acts on the module's state with the receiver moved on. -/
theorem flit_taken {kind : Nat} (passes : flitPasses f kind ((s.seam f.port.val).mod (flitKey f)) = true) (act : State → State) :
    ∃ m : SeamModule, m.expect = ((s.seam f.port.val).mod (flitKey f)).expect + 1 ∧ m.failures = 0 ∧
      s.flit f kind act = act (s.setSeam f.port.val ((s.seam f.port.val).setMod (flitKey f) m)) := by
  refine ⟨(((s.seam f.port.val).mod (flitKey f)).send (kind, f.fresh)).accept, ?_, rfl, ?_⟩
  · exact congrArg (· + 1) (SeamModule.send_checks _ _).1
  · unfold State.flit
    rw [if_pos takes]
    exact if_pos ((flitPasses_send _ _ _ _).trans passes)

theorem flit_refused {kind : Nat} (fails : flitPasses f kind ((s.seam f.port.val).mod (flitKey f)) = false) (act : State → State) :
    s.flit f kind act = s.setSeam f.port.val ((s.seam f.port.val).refuse f kind) := by
  unfold State.flit
  rw [if_pos takes]
  exact if_neg (by rw [flitPasses_send, fails]; exact Bool.false_ne_true)

omit takes in
/-- A flit that fails a check changes its own module's count of failures, and owes the reverse link a NAK. -/
theorem refuse_port (p : SeamPort) (kind : Nat) : (p.refuse f kind).replays = p.replays ∧
    ((p.refuse f kind).mod (flitKey f)).expect = (p.mod (flitKey f)).expect ∧
    ((p.refuse f kind).mod (flitKey f)).failures = (if (p.mod (flitKey f)).sending = (p.mod (flitKey f)).expect
      then (p.mod (flitKey f)).failures + 1 else (p.mod (flitKey f)).failures) ∧
    ((p.refuse f kind).mod (flitReverseKey f)).nak = true := by
  obtain ⟨he, hf⟩ := (p.mod (flitKey f)).send_checks (kind, f.fresh)
  have own : (p.refuse f kind).mod (flitKey f) =
      ((p.mod (flitKey f)).send (kind, f.fresh)).reject ((p.mod (flitKey f)).sending == (p.mod (flitKey f)).expect) :=
    (SeamPort.mod_setMod _ _ _ _).trans ((if_neg (flitKey_ne_reverse f)).trans ((SeamPort.mod_setMod _ _ _ _).trans (if_pos rfl)))
  refine ⟨rfl, by rw [own, ← he]; rfl, ?_, ?_⟩
  · rw [own, SeamModule.reject]
    simp only [hf, beq_iff_eq]
  · exact congrArg SeamModule.nak ((SeamPort.mod_setMod _ _ _ _).trans (if_pos rfl))

end

/-- A NAK that names the flit before the one that the receiver waits for sends the sender back to that one. -/
theorem goBack_sending (m : SeamModule) (ack : BitVec 4) (kept : (m.next - m.expect).toNat ≤ m.buffer.length)
    (names : ack.toNat = (m.expect.toNat + 15) % 16) : (m.goBack ack).sending = m.expect := by
  have hn := m.next.isLt
  have he := m.expect.isLt
  have far : (m.next - m.expect).toNat % 16 = (m.next.toNat + 31 - ack.toNat) % 16 := by
    rw [BitVec.toNat_sub, names]
    omega
  have hr : (m.goBack ack).resend = (m.next - m.expect).toNat := by
    unfold SeamModule.goBack
    simp only [far, if_true]
    exact Nat.min_eq_right kept
  unfold SeamModule.sending
  rw [hr]
  show m.next - _ = _
  apply BitVec.eq_of_toNat_eq
  simp only [BitVec.toNat_sub, BitVec.toNat_ofNat]
  omega

end Sys2Proof.Machine

namespace Sys2Proof.Proofs

open Sys2Proof Sys2Proof.Machine

/-- Settles O40. -/
theorem seamFlits : Obligations.SeamFlits := by
  unfold Obligations.SeamFlits
  intro f s takes p m back after
  have kinds : ∀ i kind, (i, kind) ∈ [(Instr.data f, 0), (.idle f, 1), (.ack f, 2), (.nak f, 3), (.timeSync f, 4), (.train f, 5)] →
      ∃ act : State → State, exec i s = .next (s.flit f kind act) ∧
        ∀ t : State, (((act t).seam f.port.val).mod (flitKey f)).expect = ((t.seam f.port.val).mod (flitKey f)).expect ∧
          (((act t).seam f.port.val).mod (flitKey f)).failures = ((t.seam f.port.val).mod (flitKey f)).failures := by
    intro i kind hi
    simp only [List.mem_cons, List.not_mem_nil, or_false, Prod.mk.injEq] at hi
    rcases hi with ⟨rfl, rfl⟩ | ⟨rfl, rfl⟩ | ⟨rfl, rfl⟩ | ⟨rfl, rfl⟩ | ⟨rfl, rfl⟩ | ⟨rfl, rfl⟩
    · exact ⟨_, rfl, fun _ => ⟨rfl, rfl⟩⟩
    · exact ⟨_, rfl, fun _ => ⟨rfl, rfl⟩⟩
    · exact ⟨_, rfl, fun _ => ⟨rfl, rfl⟩⟩
    · refine ⟨_, rfl, fun t => ?_⟩
      have own : ((t.seamReplay f).seam f.port.val).mod (flitKey f) = (t.seam f.port.val).mod (flitKey f) := by
        unfold State.seamReplay State.updSeam
        rw [State.seam_setSeam_same]
        exact (SeamPort.mod_setMod _ _ _ _).trans (if_neg (flitKey_ne_reverse f))
      rw [own]
      exact ⟨rfl, rfl⟩
    · refine ⟨_, rfl, fun t => ?_⟩
      split <;> exact ⟨rfl, rfl⟩
    · exact ⟨_, rfl, fun _ => ⟨rfl, rfl⟩⟩
  refine ⟨fun i kind hi => ?_, fun passes => ?_, fun passes up => ?_⟩
  · obtain ⟨act, hex, hact⟩ := kinds i kind hi
    refine ⟨fun passes => ?_, fun fails => ?_⟩
    · obtain ⟨m', h1, h2, h3⟩ := flit_taken takes passes act
      refine ⟨_, hex, ?_⟩
      rw [h3]
      have hm : ((s.setSeam f.port.val ((s.seam f.port.val).setMod (flitKey f) m')).seam f.port.val).mod (flitKey f) = m' := by
        rw [State.seam_setSeam_same, SeamPort.mod_setMod, if_pos rfl]
      obtain ⟨a1, a2⟩ := hact (s.setSeam f.port.val ((s.seam f.port.val).setMod (flitKey f) m'))
      rw [hm] at a1 a2
      exact ⟨a1.trans h1, a2.trans h2⟩
    · obtain ⟨h2, h3, h4, h5⟩ := refuse_port (f := f) p kind
      refine ⟨_, hex, ?_⟩
      rw [flit_refused takes fails act]
      simp only [after, State.seam_setSeam_same]
      exact ⟨h3, h4, h5, h2, rfl⟩
  · obtain ⟨m', -, -, h3⟩ := flit_taken takes passes fun t => t.seamReplay f
    refine ⟨_, rfl, ?_⟩
    have hs : (s.flit f 3 fun t => t.seamReplay f).seam f.port.val =
        { (p.setMod (flitKey f) m').setMod (flitReverseKey f) (back.goBack f.ackSeq) with replays := satAdd p.replays 1 } := by
      rw [h3, State.seamReplay, State.updSeam, State.seam_setSeam_same, State.seam_setSeam_same, SeamPort.mod_setMod,
        if_neg (flitKey_ne_reverse f).symm]
      rfl
    rw [hs]
    have hb : SeamPort.mod { (p.setMod (flitKey f) m').setMod (flitReverseKey f) (back.goBack f.ackSeq) with replays := satAdd p.replays 1 }
        (flitReverseKey f) = back.goBack f.ackSeq := (SeamPort.mod_setMod _ _ _ _).trans (if_pos rfl)
    refine ⟨rfl, hb, fun kept names => ?_⟩
    rw [hb]
    exact goBack_sending back f.ackSeq kept names
  · obtain ⟨m', -, -, h3⟩ := flit_taken takes passes fun t => if f.up then t else t.syncPanel (f.port.val / 2)
    refine ⟨_, rfl, ?_⟩
    rw [h3, if_neg (by rw [up]; exact Bool.false_ne_true)]
    exact mapGet_mapPut_same _ _ _ _

end Sys2Proof.Proofs
end

section
/-!
PROOF. Seam ports that retire and Panels that are isolated (R283 to R285): the states of ports and Panels after each.
-/

namespace Sys2Proof.Machine

/-- `t` has the ports, the Panels, the memory and the sparing map of `s`. -/
structure SeamsKeep (s t : State) : Prop where
  seams : t.seams = s.seams
  panels : t.panels = s.panels
  mem : t.mem = s.mem
  map : t.map = s.map

theorem SeamsKeep.refl (s : State) : SeamsKeep s s := ⟨rfl, rfl, rfl, rfl⟩

theorem SeamsKeep.trans {s t u : State} (h : SeamsKeep s t) (g : SeamsKeep t u) : SeamsKeep s u :=
  ⟨g.seams.trans h.seams, g.panels.trans h.panels, g.mem.trans h.mem, g.map.trans h.map⟩

theorem SeamsKeep.after {s t u : State} (g : SeamsKeep t u) (h : SeamsKeep s t) : SeamsKeep s u := h.trans g

theorem SeamsKeep.seam {s t : State} (h : SeamsKeep s t) (n : Nat) : t.seam n = s.seam n := by rw [State.seam, h.seams]; rfl
theorem SeamsKeep.panel {s t : State} (h : SeamsKeep s t) (p : Nat) : t.panel p = s.panel p := by rw [State.panel, h.panels]; rfl

theorem foldOver_seams {α : Type} {f : State → α → State} (hf : ∀ s a, SeamsKeep s (f s a)) (as : List α) (s : State) :
    SeamsKeep s (foldOver as f s) :=
  foldOver_rel (R := SeamsKeep) .refl (fun _ _ _ => .trans) hf as s

theorem HostOnly.seams {s t : State} (h : HostOnly s t) : SeamsKeep s t := by
  rw [h.eq]
  exact ⟨rfl, rfl, rfl, rfl⟩

theorem note_seams (s : State) (a b c d e : Nat) : SeamsKeep s (s.note a b c d e) := by
  rw [State.note_only]
  exact ⟨rfl, rfl, rfl, rfl⟩

theorem settleColumns_seams (s : State) : SeamsKeep s s.settleColumns := by
  refine foldOver_seams (fun t k => ?_) _ _
  split
  · exact ⟨rfl, rfl, rfl, rfl⟩
  · exact .refl t

theorem bar4Refuse_seams (s : State) (r : Bar4Request) : SeamsKeep s (s.bar4Refuse r) := by
  unfold State.bar4Refuse
  split
  · exact .refl s
  · exact ⟨rfl, rfl, rfl, rfl⟩

theorem dropBar4_seams (s : State) (p : Nat) : SeamsKeep s (s.dropBar4 p) := by
  unfold State.dropBar4
  refine SeamsKeep.after (foldOver_seams (fun t x => ?_) _ _) ⟨rfl, rfl, rfl, rfl⟩
  cases x with
  | access r => exact bar4Refuse_seams t r
  | doorbell _ _ _ _ => exact .refl t

theorem dropWalks_seams (s : State) (p : Nat) : SeamsKeep s (s.dropWalks p) := by
  refine foldOver_seams (fun t n => ?_) _ _
  dsimp only
  split
  · exact ⟨rfl, rfl, rfl, rfl⟩
  · exact .refl t

theorem fencesDone_seams (fuel : Nat) (s : State) : SeamsKeep s (s.fencesDone fuel) := by
  induction fuel generalizing s with
  | zero => exact .refl s
  | succ k ih =>
    unfold State.fencesDone
    split
    · next hk _ =>
      cases hk
      split
      · dsimp only
        refine SeamsKeep.trans ?_ (ih _)
        split
        · exact SeamsKeep.after (State.complete_hostOnly (.refl _) _ _ _ _).seams ⟨rfl, rfl, rfl, rfl⟩
        · exact ⟨rfl, rfl, rfl, rfl⟩
      · exact .refl s
    · exact .refl s

theorem dropFences_seams (s : State) (p : Nat) : SeamsKeep s (s.dropFences p) := by
  unfold State.dropFences
  exact SeamsKeep.after (fencesDone_seams _ _) ⟨rfl, rfl, rfl, rfl⟩

/-! ## Isolation -/

theorem seam_updSeam (s : State) (n m : Nat) (f : SeamPort → SeamPort) :
    (s.updSeam n f).seam m = if m = n then f (s.seam n) else s.seam m := State.seam_setSeam _ _ _ _

theorem panel_updPanel (s : State) (p q : Nat) (f : Panel → Panel) :
    (s.updPanel p f).panel q = if q = p then f (s.panel p) else s.panel q := State.panel_setPanel _ _ _ _

theorem changed_seams (s : State) : SeamsKeep s s.changed := ⟨rfl, rfl, rfl, rfl⟩

theorem changedIf_seams (s : State) (b : Bool) : SeamsKeep s (s.changedIf b) := by
  unfold State.changedIf
  split <;> exact ⟨rfl, rfl, rfl, rfl⟩

/-- The ports of a list go down; every other port stays. -/
theorem portsDown_seam (ns : List Nat) (s : State) :
    let t := foldOver ns (fun t n => (t.updSeam n fun x => { x with state := .down }).changedIf ((t.seam n).state != .down)) s
    t.panels = s.panels ∧ ∀ m, t.seam m = if m ∈ ns then { s.seam m with state := .down } else s.seam m := by
  induction ns generalizing s with
  | nil => exact ⟨rfl, fun _ => rfl⟩
  | cons n r ih =>
    have k := changedIf_seams (s.updSeam n fun x => { x with state := .down }) ((s.seam n).state != .down)
    obtain ⟨hp, hs⟩ := ih ((s.updSeam n fun x => { x with state := .down }).changedIf ((s.seam n).state != .down))
    refine ⟨hp.trans k.panels, fun m => (hs m).trans ?_⟩
    rw [k.seam, seam_updSeam]
    by_cases hm : m = n
    · subst hm
      simp
    · simp [hm]

/-- A Panel's BAR4 requests, credit messages and walks end (R285). -/
def State.cutOff (s : State) (p : Nat) : State :=
  ({ s.dropBar4 p with credit := s.credit.filter fun m => !(m.target / 64 == p || m.other / 64 == p) } : State).dropWalks p

theorem cutOff_seams (s : State) (p : Nat) : SeamsKeep s (s.cutOff p) :=
  (dropWalks_seams _ p).after ((dropBar4_seams s p).trans ⟨rfl, rfl, rfl, rfl⟩)

/-- What the isolation of a Panel does once its ports are down. -/
def State.isolationEnd (s : State) (p cause : Nat) : State :=
  (((s.dropScrubParts (fun k => ringClass k == 2 && ringInst k / 64 == p) 2).dropFences p).note 0x41 grpYoke p 0 cause).settleColumns

theorem isolationEnd_seams (s : State) (p cause : Nat) : SeamsKeep s (s.isolationEnd p cause) :=
  (settleColumns_seams _).after ((note_seams _ _ _ _ _ _).after ((dropFences_seams _ _).after ⟨rfl, rfl, rfl, rfl⟩))

/-- A Panel leaves service. -/
def State.panelGone (s : State) (p : Nat) (lost : Bool) : State :=
  s.updPanel p fun x => { x with state := if lost then .lost else .isolated, isolations := satAdd x.isolations 1 }

/-- The ports of a list go down. -/
def State.portsDown (s : State) (ns : List Nat) : State :=
  foldOver ns (fun t n => (t.updSeam n fun x => { x with state := .down }).changedIf ((t.seam n).state != .down)) s

theorem isolate_of_present {s : State} {p : Nat} (h1 : (s.panel p).state ≠ .isolated) (h2 : (s.panel p).state ≠ .lost) (cause : Nat)
    (lost : Bool) : s.isolate p cause lost =
      (((s.cutOff p).panelGone p lost).portsDown (((s.cutOff p).panelGone p lost).livePorts p)).isolationEnd p cause := by
  unfold State.isolate
  simp only [h1, h2, or_self, if_false]
  rfl

theorem livePorts_congr {s t : State} (h : t.seams = s.seams) (p : Nat) : t.livePorts p = s.livePorts p := by
  unfold State.livePorts State.seam
  rw [h]

/-- A Panel that is neither isolated nor lost is so after its isolation, counted; its live ports are down, and the rest stays. -/
theorem isolate_present {s : State} {p : Nat} (h1 : (s.panel p).state ≠ .isolated) (h2 : (s.panel p).state ≠ .lost) (cause : Nat) (lost : Bool) :
    (∀ q, (s.isolate p cause lost).panel q = if q = p then
      { s.panel p with state := if lost then .lost else .isolated, isolations := satAdd (s.panel p).isolations 1 } else s.panel q) ∧
    ∀ m, (s.isolate p cause lost).seam m = if m ∈ s.livePorts p then { s.seam m with state := .down } else s.seam m := by
  have k1 := cutOff_seams s p
  have seams : ((s.cutOff p).panelGone p lost).seams = s.seams := by
    rw [State.panelGone, State.updPanel, State.setPanel_seams, k1.seams]
  have live := livePorts_congr seams p
  obtain ⟨hp, hs⟩   := portsDown_seam (s.livePorts p) ((s.cutOff p).panelGone p lost)
  have k2 := isolationEnd_seams (((s.cutOff p).panelGone p lost).portsDown (s.livePorts p)) p cause
  rw [isolate_of_present h1 h2, live]
  refine ⟨fun q => ?_, fun m => ?_⟩
  · have e : (((s.cutOff p).panelGone p lost).portsDown (s.livePorts p)).panel q = ((s.cutOff p).panelGone p lost).panel q :=
      congrArg (fun x => mapGet Panel.reset x q) hp
    rw [k2.panel, e, State.panelGone, panel_updPanel, k1.panel, k1.panel]
  · rw [k2.seam, State.portsDown, hs]
    have own : ((s.cutOff p).panelGone p lost).seam m = s.seam m := congrArg (fun x => mapGet SeamPort.reset x m) seams
    rw [own]

/-- The last port's loss: the Panel is lost, and a retired port stays as it is. -/
theorem isolate_lost (s : State) (p cause : Nat) : ((s.isolate p cause true).panel p).state = .lost ∧
    ∀ m, (s.seam m).state = .retired → (s.isolate p cause true).seam m = s.seam m := by
  by_cases h : (s.panel p).state = .isolated ∨ (s.panel p).state = .lost
  · have e : s.isolate p cause true = s.updPanel p fun x => { x with state := .lost } := by
      unfold State.isolate
      exact if_pos h
    rw [e, panel_updPanel, if_pos rfl]
    exact ⟨rfl, fun _ _ => rfl⟩
  · obtain ⟨hp, hs⟩ := isolate_present (fun e => h (.inl e)) (fun e => h (.inr e)) cause true
    rw [hp, if_pos rfl]
    refine ⟨rfl, fun m hm => ?_⟩
    rw [hs, if_neg]
    simp [State.livePorts, hm]

/-! ## Retirement -/

/-- A port that takes over stays what it is. -/
theorem takeOver_port (p gone : SeamPort) : (p.takeOver gone).state = p.state ∧ (p.takeOver gone).replays = p.replays := by
  unfold SeamPort.takeOver
  have step : ∀ (ks : List Nat) (q : SeamPort), (ks.foldl (fun q key =>
      let held := (gone.mod key).untaken
      if held.isEmpty then q else q.setMod key { q.mod key with held := (q.mod key).held ++ held }) q).state = q.state ∧
      (ks.foldl (fun q key =>
      let held := (gone.mod key).untaken
      if held.isEmpty then q else q.setMod key { q.mod key with held := (q.mod key).held ++ held }) q).replays = q.replays := by
    intro ks
    induction ks with
    | nil => exact fun q => ⟨rfl, rfl⟩
    | cons k r ih =>
      intro q
      obtain ⟨h1, h2⟩ := ih (if (gone.mod k).untaken.isEmpty then q else q.setMod k { q.mod k with held := (q.mod k).held ++ (gone.mod k).untaken })
      refine ⟨h1.trans ?_, h2.trans ?_⟩ <;> split <;> rfl
  exact step _ _

/-- The ports that take over from a retired one. -/
theorem takeOvers (ns : List Nat) (gone : SeamPort) (s : State) :
    let t := foldOver ns (fun t n => t.updSeam n fun x => x.takeOver gone) s
    t.panels = s.panels ∧ ∀ m, (m ∉ ns → t.seam m = s.seam m) ∧ (t.seam m).state = (s.seam m).state ∧
      (t.seam m).replays = (s.seam m).replays := by
  induction ns generalizing s with
  | nil => exact ⟨rfl, fun m => ⟨fun _ => rfl, rfl, rfl⟩⟩
  | cons n r ih =>
    obtain ⟨hp, hs⟩ := ih (s.updSeam n fun x => x.takeOver gone)
    refine ⟨hp, fun m => ?_⟩
    obtain ⟨h1, h2, h3⟩ := hs m
    obtain ⟨k2, k3⟩ := takeOver_port (s.seam n) gone
    rw [seam_updSeam] at h1 h2 h3
    refine ⟨fun hm => ?_, h2.trans ?_, h3.trans ?_⟩
    · rw [List.mem_cons, not_or] at hm
      exact (h1 hm.2).trans (if_neg hm.1)
    · split
      · next e => rw [e, k2]
      · rfl
    · split
      · next e => rw [e, k3]
      · rfl

theorem siblingPort_ne (port : Nat) : siblingPort port ≠ port := by
  unfold siblingPort
  split <;> omega

/-- The ports of a Panel are a port and its sibling. -/
theorem port_cases {port n : Nat} (h : n = 2 * (port / 2) ∨ n = 2 * (port / 2) + 1) : n = port ∨ n = siblingPort port := by
  unfold siblingPort
  split <;> omega

theorem mem_livePorts {s : State} {p n : Nat} : n ∈ s.livePorts p ↔ (n = 2 * p ∨ n = 2 * p + 1) ∧ (s.seam n).state ≠ .retired := by
  simp [State.livePorts]

/-- The port as it retires. -/
def retired (x : SeamPort) (module cause : Nat) : SeamPort :=
  { x with state := .retired, module := BitVec.ofNat 4 module, cause := BitVec.ofNat 2 cause, modules := [] }

/-- The module with a port retired, and what it held taken over. -/
def State.handOver (s : State) (port module cause : Nat) : State :=
  foldOver ((s.setSeam port (retired (s.seam port) module cause)).livePorts (port / 2))
    (fun t n => t.updSeam n fun x => x.takeOver (s.seam port)) (s.setSeam port (retired (s.seam port) module cause))

theorem handOver_panels (s : State) (port module cause : Nat) : (s.handOver port module cause).panels = s.panels :=
  (takeOvers _ _ _).1

theorem handOver_port (s : State) (port module cause : Nat) :
    (s.handOver port module cause).seam port = retired (s.seam port) module cause := by
  refine (((takeOvers _ _ _).2 port).1 ?_).trans (State.seam_setSeam_same _ _ _)
  rw [mem_livePorts, State.seam_setSeam_same]
  exact fun h => h.2 rfl

theorem handOver_other (s : State) (port module cause : Nat) {n : Nat} (h : n ≠ port) :
    ((s.handOver port module cause).seam n).state = (s.seam n).state ∧ ((s.handOver port module cause).seam n).replays = (s.seam n).replays := by
  have own : (s.setSeam port (retired (s.seam port) module cause)).seam n = s.seam n := (State.seam_setSeam _ _ _ _).trans (if_neg h)
  obtain ⟨-, h2, h3⟩ := (takeOvers ((s.setSeam port (retired (s.seam port) module cause)).livePorts (port / 2)) (s.seam port)
    (s.setSeam port (retired (s.seam port) module cause))).2 n
  rw [own] at h2 h3
  exact ⟨h2, h3⟩

theorem handOver_live (s : State) (port module cause : Nat) :
    (s.handOver port module cause).livePorts (port / 2) = [] ↔ (s.seam (siblingPort port)).state = .retired := by
  rw [List.eq_nil_iff_forall_not_mem]
  simp only [mem_livePorts, not_and_not_right]
  constructor
  · intro h
    rw [← (handOver_other s port module cause (siblingPort_ne port)).1]
    refine h _ ?_
    unfold siblingPort
    split <;> omega
  · intro h n hn
    rcases port_cases hn with rfl | rfl
    · rw [handOver_port]
      rfl
    · rw [(handOver_other s port module cause (siblingPort_ne port)).1, h]

/-- A port that was live retires: where its sibling is live, nothing else of the ports' states and of the Panels changes; else the Panel is
lost. -/
theorem retirePort_live {s : State} {port : Nat} (h : (s.seam port).state ≠ .retired) (module cause : Nat) :
    (s.retirePort port module cause).seam port = retired (s.seam port) module cause ∧
    ((s.seam (siblingPort port)).state ≠ .retired →
      ((s.retirePort port module cause).seam (siblingPort port)).state = (s.seam (siblingPort port)).state ∧
      ((s.retirePort port module cause).seam (siblingPort port)).replays = (s.seam (siblingPort port)).replays ∧
      (s.retirePort port module cause).panels = s.panels) ∧
    ((s.seam (siblingPort port)).state = .retired → ((s.retirePort port module cause).panel (port / 2)).state = .lost) := by
  have keeps : SeamsKeep (s.handOver port module cause)
      ((s.handOver port module cause).note 0x40 grpYoke port 0 (module * 256 + cause)).changed :=
    (note_seams _ _ _ _ _ _).trans (changed_seams _)
  have eq : s.retirePort port module cause =
      if (((s.handOver port module cause).note 0x40 grpYoke port 0 (module * 256 + cause)).changed.livePorts (port / 2)).isEmpty
      then ((s.handOver port module cause).note 0x40 grpYoke port 0 (module * 256 + cause)).changed.isolate (port / 2) (if cause = 2 then 2 else 4) true
      else ((s.handOver port module cause).note 0x40 grpYoke port 0 (module * 256 + cause)).changed := by
    unfold State.retirePort
    rw [if_neg h]
    rfl
  have empty : ((s.handOver port module cause).livePorts (port / 2)).isEmpty = true ↔ (s.seam (siblingPort port)).state = .retired := by
    rw [List.isEmpty_iff, handOver_live]
  rw [livePorts_congr keeps.seams] at eq
  generalize ((s.handOver port module cause).note 0x40 grpYoke port 0 (module * 256 + cause)).changed = t at keeps eq
  have own : t.seam port = retired (s.seam port) module cause := (keeps.seam port).trans (handOver_port _ _ _ _)
  obtain ⟨lost, stay⟩ := isolate_lost t (port / 2) (if cause = 2 then 2 else 4)
  refine ⟨?_, fun live => ?_, fun gone => ?_⟩
  · rw [eq]
    split
    · exact (stay port (by rw [own]; rfl)).trans own
    · exact own
  · rw [eq, if_neg (mt empty.mp live), keeps.seam, keeps.panels, handOver_panels]
    obtain ⟨h1, h2⟩ := handOver_other s port module cause (siblingPort_ne port)
    exact ⟨h1, h2, rfl⟩
  · rw [eq, if_pos (empty.mpr gone)]
    exact lost

end Sys2Proof.Machine

namespace Sys2Proof.Proofs

open Sys2Proof Sys2Proof.Machine

/-- Settles O41. -/
theorem portsRetire : Obligations.PortsRetire := by
  unfold Obligations.PortsRetire
  intro port module s live other retires
  have row {i : Instr} {cause : Nat} (hi : exec i s = .next (s.retirePort port.val module.val cause)) : retires i (BitVec.ofNat 2 cause) := by
    obtain ⟨own, stays, lost⟩ := retirePort_live live module.val cause
    refine ⟨_, hi, by rw [own]; rfl, by rw [own]; rfl, by rw [own]; rfl, fun h => ?_, lost⟩
    obtain ⟨h1, h2, h3⟩ := stays h
    exact ⟨h1, h2, fun p => congrArg (fun x => mapGet Panel.reset x p) h3⟩
  refine ⟨fun reached => ?_, row rfl, row rfl, fun p present => ⟨_, rfl, ?_⟩⟩
  · exact row (cause := 1) (congrArg Host.Outcome.next (if_pos reached))
  · obtain ⟨hp, hs⟩ := isolate_present (s := s) (p := p.val) (by rw [present]; nofun) (by rw [present]; nofun) 3 false
    refine ⟨by rw [hp, if_pos rfl]; rfl, by rw [hp, if_pos rfl], fun n hn hr => ?_, fun q hq => by rw [hp, if_neg hq]⟩
    rw [hs, if_pos (mem_livePorts.mpr ⟨by omega, hr⟩)]

end Sys2Proof.Proofs
end

section
/-!
PROOF. A Panel that rejoins (R286), by itself and at a request through YK_PANEL_REJOIN.
-/

namespace Sys2Proof.Machine

/-! ## Register writes -/

theorem countChanges_only (t s : State) (rs : List Reg) :
    t.countChanges s rs = { t with mgmt := { t.mgmt with gen := (t.countChanges s rs).mgmt.gen } } := by
  rfl

/-- An aligned write over an open path to a register that answers. -/
theorem setupWrite_register {s : State} {p : Path} {o : Nat} {r : Reg} (hopen : s.pathOpen p o = true) (hmsix : msixAccess o 4 = false)
    (ho : o % 4 = 0) (hr : regAt o = some r) (answers : s.regAnswers r = true) (v : Word) (e : WriteEnv) :
    s.setupWrite p o 4 (v.setWidth 64) e = s.putReg r o v e := by
  rw [State.setupWrite_of_open _ _ hopen (by rw [hmsix]; nofun)]
  have hv : (v.setWidth 64).setWidth 32 = v := by
    apply BitVec.eq_of_toNat_eq
    simp
  simp only [State.writeSetup, ho, hr, answers, if_true, hv, ne_eq, not_true_eq_false, or_self, if_false]

/-! ## Fresh cores -/

/-- A core that a rejoin has made afresh. -/
structure FreshCore (s : State) (n : Nat) : Prop where
  run : (s.core n).seq.run = .idle
  regs : (s.core n).seq.regs = []
  scratch : ∀ off, off < 6291456 → memGet s.mem (scratchAddr n off) = 0

/-- The cores of a list start afresh, where they are not absent; ports, Panels, map and time stay. -/
structure Refreshes (ns : List Nat) (s t : State) : Prop where
  seams : t.seams = s.seams
  panels : t.panels = s.panels
  map : t.map = s.map
  time : t.time = s.time
  set : t.set = s.set
  fresh : ∀ n, n ∈ ns ∨ FreshCore s n → (s.entry n).state ≠ .absent → FreshCore t n

theorem reinitCore_refreshes (s : State) (n : Nat) : Refreshes [n] s (s.reinitCore n) := by
  unfold State.reinitCore
  split
  · next h =>
    exact ⟨rfl, rfl, rfl, rfl, rfl, fun m hm ha => hm.elim (fun e => absurd h (by rwa [List.mem_singleton.mp e] at ha)) id⟩
  · refine ⟨rfl, rfl, rfl, rfl, rfl, fun m hm ha => ?_⟩
    have hc : ((s.setCore n (s.core n).reinit).fillScratch n).core m = if m = n then (s.core n).reinit else s.core m :=
      State.core_setCore _ _ _ _
    have hm' : ∀ a, memGet ((s.setCore n (s.core n).reinit).fillScratch n).mem a =
        if a < scratchAddr n 0 ∨ scratchAddr n 0 + 4 * scratchWords ≤ a then memGet s.mem a else 0 := fun a => memGet_memClear _ _ _ _
    by_cases e : m = n
    · subst e
      refine ⟨by rw [hc, if_pos rfl]; rfl, by rw [hc, if_pos rfl]; rfl, fun off ho => ?_⟩
      rw [hm', if_neg]
      simp only [scratchAddr, scratchWords]
      omega
    · obtain ⟨h1, h2, h3⟩ := hm.resolve_left (by simpa using e)
      refine ⟨by rw [hc, if_neg e, h1], by rw [hc, if_neg e, h2], fun off ho => ?_⟩
      rw [hm', h3 off ho]
      simp

theorem reinitCores_refreshes (ns : List Nat) (s : State) : Refreshes ns s (foldOver ns State.reinitCore s) := by
  induction ns generalizing s with
  | nil => exact ⟨rfl, rfl, rfl, rfl, rfl, fun n h _ => h.elim nofun id⟩
  | cons n r ih =>
    have a := reinitCore_refreshes s n
    have b := ih (s.reinitCore n)
    refine ⟨b.seams.trans a.seams, b.panels.trans a.panels, b.map.trans a.map, b.time.trans a.time, b.set.trans a.set, fun m hm ha => ?_⟩
    have ha' : ((s.reinitCore n).entry m).state ≠ .absent := by
      rw [State.entry, a.map]
      exact ha
    refine b.fresh m ?_ ha'
    rcases hm with hm | hm
    · rcases List.mem_cons.mp hm with e | hr
      · exact .inr (a.fresh m (.inl (by rw [e]; exact List.mem_singleton.mpr rfl)) ha)
      · exact .inl hr
    · exact .inr (a.fresh m (.inr hm) ha)

/-- What a map's values have in common with their images stays common at every key. -/
theorem mapGet_mapSnd {α β : Type} (d : α) (f : α → α) (g : α → β) (h : ∀ a, g (f a) = g a) (m : List (Nat × α)) (k : Nat) :
    g (mapGet d (m.map fun e => (e.1, f e.2)) k) = g (mapGet d m k) := by
  induction m with
  | nil => rfl
  | cons e r ih =>
    simp only [List.map_cons, mapGet]
    split
    · exact h e.2
    · exact ih

theorem returnWindows_seq (s : State) (p n : Nat) : ((s.returnWindows p).core n).seq = (s.core n).seq :=
  mapGet_mapSnd Core.reset (fun c => { c with scr := { c.scr with granted := c.scr.granted.filter fun g => g.1 / 64 != p } })
    Core.seq (fun _ => rfl) s.cores n

theorem FreshCore.returnWindows {s : State} {n : Nat} (h : FreshCore s n) (p : Nat) : FreshCore (s.returnWindows p) n :=
  ⟨by rw [returnWindows_seq, h.run], by rw [returnWindows_seq, h.regs], h.scratch⟩

/-! ## Training -/

theorem trainPort_of_active {s : State} {n : Nat} (h : (s.seam n).state = .active) (t : PortTraining) : s.trainPort n t = s := by
  unfold State.trainPort
  rw [h]
  rfl

/-- A port that is down trains. -/
theorem trainPort_trained {s : State} {n : Nat} (h : (s.seam n).state = .down) :
    s.trainPort n .trained = (s.setSeam n { s.seam n with state := .active, modules := [] }).changed := by
  unfold State.trainPort
  rw [if_pos h]
  rfl

/-- Ports that have trained train no more. -/
theorem trained_stay {s : State} {m n : Nat} (h0 : (s.seam m).state = .active) (h1 : (s.seam n).state = .active)
    (as : List (PortTraining × PortTraining)) : foldOver as (fun t a => (t.trainPort m a.1).trainPort n a.2) s = s := by
  induction as with
  | nil => rfl
  | cons a r ih =>
    unfold foldOver at ih ⊢
    rw [List.foldl_cons, trainPort_of_active h0, trainPort_of_active h1, ih]

/-- The module with both ports of a Panel trained. -/
def State.bothTrained (s : State) (p : Nat) : State := (s.trainPort (2 * p) .trained).trainPort (2 * p + 1) .trained

section
variable {s : State} {p : Nat} (h0 : (s.seam (2 * p)).state = .down) (h1 : (s.seam (2 * p + 1)).state = .down)
include h0 h1

theorem bothTrained_eq : ∃ g, s.bothTrained p = { s with seams := (s.bothTrained p).seams, mgmt := g } := by
  have h1' : ((s.trainPort (2 * p) .trained).seam (2 * p + 1)).state = .down := by
    rw [trainPort_trained h0]
    exact (congrArg SeamPort.state ((State.seam_setSeam _ _ _ _).trans (if_neg (by omega)))).trans h1
  rw [State.bothTrained, trainPort_trained h1', trainPort_trained h0]
  exact ⟨_, rfl⟩

theorem bothTrained_active :
    ((s.bothTrained p).seam (2 * p)).state = .active ∧ ((s.bothTrained p).seam (2 * p + 1)).state = .active := by
  have h1' : ((s.trainPort (2 * p) .trained).seam (2 * p + 1)).state = .down := by
    rw [trainPort_trained h0]
    exact (congrArg SeamPort.state ((State.seam_setSeam _ _ _ _).trans (if_neg (by omega)))).trans h1
  have first : ((s.trainPort (2 * p) .trained).seam (2 * p)).state = .active := by
    rw [trainPort_trained h0]
    exact congrArg SeamPort.state (State.seam_setSeam_same s (2 * p) _)
  rw [State.bothTrained, trainPort_trained h1']
  exact ⟨(congrArg SeamPort.state ((State.seam_setSeam (s.trainPort (2 * p) .trained) (2 * p + 1) (2 * p) _).trans (if_neg (by omega)))).trans first,
    congrArg SeamPort.state (State.seam_setSeam_same (s.trainPort (2 * p) .trained) (2 * p + 1) _)⟩

/-- Both ports of a Panel that are down train at the first attempt. -/
theorem trainPorts_both {attempts : List (PortTraining × PortTraining)} (ha : attempts.head? = some (.trained, .trained)) :
    s.trainPorts p attempts = (s.bothTrained p, [2 * p, 2 * p + 1]) := by
  obtain ⟨a0, a1⟩ := bothTrained_active h0 h1
  obtain ⟨rest, rfl⟩ := List.head?_eq_some_iff.mp ha
  have hk : ∃ k, s.rejoinAttempts = k + 1 := ⟨s.rejoinAttempts - 1, by have : 1 ≤ s.rejoinAttempts := Nat.le_max_left _ _; omega⟩
  obtain ⟨k, hk⟩ := hk
  have hf : foldOver (((.trained, .trained) :: rest).take s.rejoinAttempts) (fun t a => (t.trainPort (2 * p) a.1).trainPort (2 * p + 1) a.2) s
      = s.bothTrained p := by
    rw [hk, List.take_succ_cons]
    exact trained_stay a0 a1 _
  unfold State.trainPorts
  simp only [hf, a0, a1, List.filter_cons, List.filter_nil, beq_self_eq_true, if_true]

end

/-! ## The rejoin -/

/-- The module with a Panel that is to rejoin, its ports trained and its counter synchronised. -/
def State.joining (s : State) (p : Nat) : State :=
  let t := (s.updPanel p fun x => { x with state := .rejoining }).bothTrained p
  { t with time := { t.time with synced := mapPut t.time.synced p t.now } }

/-- That module with the Panel's cores afresh and its windows returned. -/
def State.rejoined (s : State) (p : Nat) : State :=
  (foldOver ((List.range 64).map (· + 64 * p)) State.reinitCore (s.joining p)).returnWindows p

theorem lapReplay_idle {s : State} (h : s.set.running = false) (cause : Nat) : s.lapReplay cause = s := by
  unfold State.lapReplay
  rw [if_neg]
  simp [State.canReplay, h]

theorem rejoinEnd_idle {s : State} (h : s.set.running = false) (p ports : Nat) (lost : Bool) :
    s.rejoinEnd p ports lost = (s.updPanel p fun x => { x with state := .present }).note 0x42 grpYoke p 0 ports := by
  have hh : s.haltInProgress = false := by simp [State.haltInProgress, h]
  have hl : (s.updPanel p fun x => { x with state := .present }).lapReplay 8 = s.updPanel p fun x => { x with state := .present } :=
    lapReplay_idle (s := s.updPanel p fun x => { x with state := .present }) h 8
  unfold State.rejoinEnd
  simp only [hh, hl, ite_self, Bool.false_eq_true, if_false]

section
variable {s : State} {p : PanelId} (h0 : (s.seam (2 * p.val)).state = .down)
  (h1 : (s.seam (2 * p.val + 1)).state = .down)
include h0 h1

theorem joining_parts : ((s.joining p.val).seam (2 * p.val)).state = .active ∧ ((s.joining p.val).seam (2 * p.val + 1)).state = .active ∧
    (s.joining p.val).set = s.set ∧ (s.joining p.val).map = s.map ∧ mapGet 0 (s.joining p.val).time.synced p.val = s.now := by
  have b := bothTrained_active (s := s.updPanel p.val fun x => { x with state := .rejoining }) h0 h1
  obtain ⟨g, hg⟩ := bothTrained_eq (s := s.updPanel p.val fun x => { x with state := .rejoining }) h0 h1
  refine ⟨b.1, b.2, ?_, ?_, ?_⟩
  · exact (congrArg State.set hg).trans rfl
  · exact (congrArg State.map hg).trans rfl
  · exact (mapGet_mapPut_same _ _ _ _).trans ((congrArg State.now hg).trans rfl)

theorem rejoined_parts : ((s.rejoined p.val).seam (2 * p.val)).state = .active ∧ ((s.rejoined p.val).seam (2 * p.val + 1)).state = .active ∧
    (s.rejoined p.val).set = s.set ∧ mapGet 0 (s.rejoined p.val).time.synced p.val = s.now ∧
    ∀ n, n / 64 = p.val → (s.entry n).state ≠ .absent → FreshCore (s.rejoined p.val) n := by
  obtain ⟨j0, j1, j2, j3, j4⟩ := joining_parts h0 h1
  have r := reinitCores_refreshes ((List.range 64).map (· + 64 * p.val)) (s.joining p.val)
  rw [State.rejoined]
  generalize foldOver ((List.range 64).map (· + 64 * p.val)) State.reinitCore (s.joining p.val) = t at r
  have seam : ∀ n, (t.returnWindows p.val).seam n = (s.joining p.val).seam n := fun n => congrArg (fun x => mapGet SeamPort.reset x n) r.seams
  refine ⟨by rw [seam, j0], by rw [seam, j1], r.set.trans j2, ?_, fun n hn ha => ?_⟩
  · exact (congrArg (fun t : TimeState => mapGet 0 t.synced p.val) r.time).trans j4
  · refine (r.fresh n (.inl ?_) ?_).returnWindows p.val
    · exact List.mem_map.mpr ⟨n - 64 * p.val, List.mem_range.mpr (by omega), by omega⟩
    · rw [State.entry, j3]
      exact ha

end

/-- A rejoin of a Panel whose ports train and whose level fits ends with the Panel present. -/
theorem rejoin_eq {s : State} {p : PanelId} (isolated : (s.panel p.val).state = .isolated) (pow : (s.panel p.val).powered = true)
    (idle : s.set.running = false) (h0 : (s.seam (2 * p.val)).state = .down) (h1 : (s.seam (2 * p.val + 1)).state = .down)
    {attempts : List (PortTraining × PortTraining)} (ha : attempts.head? = some (.trained, .trained)) :
    s.rejoin p attempts (s.panel p.val).feature [] =
      ((s.rejoined p.val).updPanel p.val fun x => { x with state := .present }).note 0x42 grpYoke p.val 0 2 := by
  have trained := trainPorts_both (s := s.updPanel p.val fun x => { x with state := .rejoining }) h0 h1 ha
  unfold State.rejoin
  simp only [isolated, pow, and_self, if_true, trained, List.isEmpty_cons, Bool.false_eq_true, if_false, ne_eq, not_true_eq_false,
    List.filter_nil]
  have quiet : (s.rejoined p.val).set.running = false := by rw [(rejoined_parts h0 h1).2.2.1, idle]
  show (s.rejoined p.val).rejoinEnd p.val 2 _ = _
  exact rejoinEnd_idle quiet _ _ _

end Sys2Proof.Machine

namespace Sys2Proof.Proofs

open Sys2Proof Sys2Proof.Machine

/-- Settles O42. -/
theorem panelRejoins : Obligations.PanelRejoins := by
  unfold Obligations.PanelRejoins
  intro p s path value env isolated pow idle h0 h1 ha level failed rejoins
  obtain ⟨r0, r1, -, r3, r4⟩ := rejoined_parts h0 h1
  have ends (attempts : List (PortTraining × PortTraining)) (h : attempts.head? = some (.trained, .trained)) :
      ∃ t, s.rejoin p attempts env.level [] = t ∧ (t.panel p.val).state = .present ∧ (t.seam (2 * p.val)).state = .active ∧
        (t.seam (2 * p.val + 1)).state = .active ∧ mapGet 0 t.time.synced p.val = s.now ∧
        ∀ n, n / 64 = p.val → (s.entry n).state ≠ .absent →
          (t.core n).seq.run = .idle ∧ (∀ r, t.sreg n r = 0) ∧ ∀ off, off < 6291456 → memGet t.mem (scratchAddr n off) = 0 := by
    refine ⟨_, rfl, ?_⟩
    rw [level, rejoin_eq isolated pow idle h0 h1 h, State.note_only]
    generalize s.rejoined p.val = u at r0 r1 r3 r4
    refine ⟨congrArg Panel.state (State.panel_setPanel_same u p.val _), r0, r1, r3, fun n hn hp => ?_⟩
    obtain ⟨f1, f2, f3⟩ := r4 n hn hp
    refine ⟨f1, fun r => ?_, f3⟩
    show regGet (u.core n).seq.regs r = 0
    rw [f2, regGet]
    exact ite_self _
  refine ⟨fun auto a b => ?_, fun hopen hreq hp => ?_⟩
  · obtain ⟨t, ht, h⟩ := ends (((.trained :: a : List PortTraining)).zip (.trained :: b)) rfl
    exact ⟨t, congrArg Host.Outcome.next ((if_pos auto).trans ht), h⟩
  · obtain ⟨t, ht, h⟩ := ends env.attempts ha
    have hv : (⟨(field value 0 3).toNat, (field value 0 3).isLt⟩ : PanelId) = p := Fin.ext hp
    have ask : s.writeReg .panelRejoin 0x328 value env = t := by
      rw [← ht]
      show s.askRejoin value env = _
      rw [State.askRejoin, if_pos hreq, hv, failed]
    refine ⟨_, congrArg Host.Outcome.next (setupWrite_register (r := .panelRejoin) hopen rfl rfl rfl rfl value env), ?_⟩
    rw [State.putReg, ask, countChanges_only]
    exact h

end Sys2Proof.Proofs
end

section
/-!
PROOF. Credit messages (R213 to R215): headers that no receiver discards, a CREDIT_TAKE's unit at its target, the answers, and the return of a
window.
-/

namespace Sys2Proof.Machine

/-! ## Headers -/

theorem creditReserved_high {i : Nat} (h : 100 ≤ i) : creditReserved.getLsbD i = false := by
  have hb : creditReserved.toNat < 2 ^ 100 := by decide
  exact Nat.testBit_eq_false_of_lt (hb.trans_le (Nat.pow_le_pow_right (by decide) h))

/-- The six bits of a GRANT's groups are no reserved ones. -/
theorem creditReserved_groups {i : Nat} (h1 : 90 ≤ i) (h2 : i < 96) : creditReserved.getLsbD i = false := by
  have key : ∀ j : Fin 6, creditReserved.getLsbD (90 + j.val) = false := by decide
  have := key ⟨i - 90, by omega⟩
  rwa [show 90 + (i - 90) = i by omega] at this

theorem creditHeader_low (kind : BitVec 4) (a b w : Nat) (lap : BitVec 2) {i : Nat} (h : i < 100) :
    (creditHeader kind a b w lap).getLsbD i = false := by
  unfold creditHeader
  rw [BitVec.getLsbD_append]
  simp [h]

theorem creditHeader_kind (kind : BitVec 4) (a b w : Nat) (lap : BitVec 2) {i : Nat} (h : i < 4) :
    (creditHeader kind a b w lap).getLsbD (124 + i) = kind.getLsbD i := by
  unfold creditHeader
  simp only [BitVec.getLsbD_append]
  rw [if_neg (by omega), if_neg (by omega), if_neg (by omega), if_neg (by omega), if_neg (by omega)]
  exact congrArg kind.getLsbD (by omega)

/-- A header with further fields below bit 100, none of them reserved, is kept by its receiver. -/
theorem creditDiscards_kept {kind : BitVec 4} (a b w : Nat) (lap : BitVec 2) {x : BitVec 128} (hk : kind ≠ 0 ∧ kind.toNat ≤ 5)
    (hx : ∀ i, x.getLsbD i = true → i < 100 ∧ creditReserved.getLsbD i = false) :
    creditDiscards (creditHeader kind a b w lap ||| x) = false := by
  have hfield : field (creditHeader kind a b w lap ||| x) 124 4 = kind := by
    apply BitVec.eq_of_getLsbD_eq
    intro i hi
    have hxi : x.getLsbD (124 + i) = false := by
      by_contra hb
      have := (hx _ (by simpa using hb)).1
      omega
    simp [field, hi, creditHeader_kind, hxi]
  have hres : (creditHeader kind a b w lap ||| x) &&& creditReserved = 0 := by
    apply BitVec.eq_of_getLsbD_eq
    intro i hi
    rw [BitVec.getLsbD_and, BitVec.getLsbD_or]
    by_cases h100 : i < 100
    · rw [creditHeader_low _ _ _ _ _ h100]
      cases hb : x.getLsbD i with
      | false => simp
      | true => simp [(hx i hb).2]
    · rw [creditReserved_high (by omega)]
      simp
  have h0 : (kind == 0) = false := beq_eq_false_iff_ne.mpr hk.1
  have h5 : decide (5 < kind.toNat) = false := decide_eq_false (by omega)
  simp only [creditDiscards, hfield, hres, h0, h5]
  rfl

theorem creditDiscards_header {kind : BitVec 4} (a b w : Nat) (lap : BitVec 2) (hk : kind ≠ 0 ∧ kind.toNat ≤ 5) :
    creditDiscards (creditHeader kind a b w lap) = false := by
  have h := creditDiscards_kept a b w lap (x := 0) hk (fun i hi => by simp at hi)
  simpa using h

/-- The groups' bits of a GRANT's header. -/
theorem groupBits {g : BitVec 8} {i : Nat} (h : ((field g 0 3 ++ field g 4 3).setWidth 128 <<< 90).getLsbD i = true) : 90 ≤ i ∧ i < 96 := by
  simp only [BitVec.getLsbD_shiftLeft, Bool.and_eq_true, decide_eq_true_eq, Bool.not_eq_true', decide_eq_false_iff_not,
    BitVec.getLsbD_setWidth] at h
  obtain ⟨⟨-, h1⟩, -, h2⟩ := h
  have := BitVec.lt_of_getLsbD h2
  omega

theorem answerHeader_kept (m : CreditMessage) : creditDiscards (answerHeader m) = false := by
  unfold answerHeader
  split
  · exact creditDiscards_kept _ _ _ _ (by decide) fun i hi => by
      obtain ⟨h1, h2⟩ := groupBits hi
      exact ⟨by omega, creditReserved_groups h1 h2⟩
  · exact creditDiscards_header _ _ _ _ (by decide)

/-- The window that a GRANT names: the groups of its configuration, valid. -/
theorem grantedWindow_grant (m : CreditMessage) : grantedWindow (grantHeader m) = 0x80 ||| (m.groups &&& 0x77) := by
  have low {i : Nat} (h1 : 90 ≤ i) (h2 : i < 96) :
      (grantHeader m).getLsbD i = (field m.groups 0 3 ++ field m.groups 4 3).getLsbD (i - 90) := by
    unfold grantHeader
    rw [BitVec.getLsbD_or, creditHeader_low _ _ _ _ _ (by omega)]
    simp only [BitVec.getLsbD_shiftLeft, BitVec.getLsbD_setWidth, Bool.false_or]
    rw [decide_eq_true (by omega), decide_eq_false (by omega), decide_eq_true (by omega)]
    simp
  have first : field (grantHeader m) 90 3 = field m.groups 4 3 := by
    apply BitVec.eq_of_getLsbD_eq
    intro i hi
    rw [field, BitVec.getLsbD_extractLsb', low (by omega) (by omega), BitVec.getLsbD_append, if_pos (by omega)]
    simp [hi]
  have count : field (grantHeader m) 93 3 = field m.groups 0 3 := by
    apply BitVec.eq_of_getLsbD_eq
    intro i hi
    rw [field, BitVec.getLsbD_extractLsb', low (by omega) (by omega), BitVec.getLsbD_append, if_neg (by omega),
      show 93 + i - 90 - 3 = i by omega]
    simp [hi]
  have layout : ∀ g : BitVec 8, (1#1 ++ field g 4 3 ++ 0#1 ++ field g 0 3 : BitVec 8) = 0x80 ||| (g &&& 0x77) := by decide
  rw [grantedWindow, first, count]
  exact layout m.groups

end Sys2Proof.Machine
end

section
/-!
PROOF. The slot in service of a ring: what the start of a slot, its end and the passing of the slots that end by themselves leave of the
module (R42, R46), and the credit messages that a credit ring serves (R213).
-/

namespace Sys2Proof.Machine

/-! ## Rings -/

theorem ringClass_ringKey (c : Nat) {i : Nat} (h : i < 65536) : ringClass (ringKey c i) = c := by
  unfold ringClass ringKey
  omega

theorem ringInst_ringKey (c : Nat) {i : Nat} (h : i < 65536) : ringInst (ringKey c i) = i := by
  unfold ringInst ringKey
  omega

/-- The step changes rings alone. -/
def RingsOnly (s t : State) : Prop := t = { s with rings := t.rings }

theorem RingsOnly.refl (s : State) : RingsOnly s s := rfl

theorem RingsOnly.trans {s t u : State} (h : RingsOnly s t) (g : RingsOnly t u) : RingsOnly s u := by
  unfold RingsOnly at *
  rw [g, h]

theorem RingsOnly.ite {s a b : State} {c : Prop} [Decidable c] (ha : RingsOnly s a) (hb : RingsOnly s b) : RingsOnly s (if c then a else b) := by
  split
  · exact ha
  · exact hb

/-- A ring with no memory, no Panel link and no channel behind it: a credit ring, a crossbar port, the Cuff bus or the management ring. -/
def plainRing (key : Nat) : Prop := ringClass key ≠ 2 ∧ ringClass key ≠ 4 ∧ ringClass key ≠ 5

section
variable {key : Nat} (plain : plainRing key)
include plain

theorem debtOf_plain (s : State) : s.debtOf key = 0 := by
  obtain ⟨h2, -, h5⟩ := plain
  unfold State.debtOf
  split
  · next h => exact absurd h h2
  · next h => exact absurd h h5
  · rfl

theorem beginSlot_plain (s : State) : RingsOnly s (s.beginSlot key) := by
  unfold State.beginSlot
  rw [debtOf_plain plain]
  exact .ite rfl rfl

theorem moveRing_plain (s : State) (r : Ring) : RingsOnly s (s.moveRing key r) := by
  obtain ⟨h2, h4, h5⟩ := plain
  unfold State.moveRing State.drainRing State.alternate
  simp only [h2, h4, h5, false_and, if_false]
  exact .ite rfl rfl

theorem payWaiting_plain (s : State) (owner : Nat) : RingsOnly s (s.payWaiting key owner) := by
  obtain ⟨h2, h4, h5⟩ := plain
  unfold State.payWaiting
  rw [debtOf_plain ⟨h2, h4, h5⟩]
  simp only [h5, beq_self_eq_true, Bool.or_true, if_true, false_and, if_false, ite_self]
  rfl

theorem settle_plain (fuel : Nat) (s : State) : RingsOnly s (s.settle fuel key) := by
  induction fuel generalizing s with
  | zero => exact .refl s
  | succ k ih =>
    unfold State.settle
    split
    · refine .ite ?_ (.refl s)
      dsimp only
      exact .ite (((beginSlot_plain plain s).trans (moveRing_plain plain _ _)).trans (ih _))
        ((beginSlot_plain plain s).trans (payWaiting_plain plain _ _))
    · exact .refl s

theorem settleRing_plain (s : State) : RingsOnly s (s.settleRing key) := settle_plain plain _ s

theorem useSlot_settleRing_plain (s : State) (units : Nat) (last : Bool) : RingsOnly s ((s.useSlot key units last).settleRing key) :=
  (moveRing_plain plain s _).trans (settleRing_plain plain _)

end

/-- A slot that its owner's request keeps open has begun: no slot is passed. -/
theorem settleRing_kept {s : State} {key : Nat} {slot : RingSlot} (hslot : s.slotOf key = some slot) (kind : slot.kind = .owner)
    (turn : s.ringTurn key = true) (present : (s.beginSlot key).requestPresent key slot.owner = true) (cls : ringClass key ≠ 6) :
    s.settleRing key = s.beginSlot key := by
  have stays : (s.beginSlot key).endsItself key slot.owner = false := by
    unfold State.endsItself
    simp [present, cls]
  unfold State.settleRing State.settle
  simp only [hslot, kind, turn, and_self, if_true, stays, Bool.false_eq_true, if_false]
  unfold State.payWaiting
  rw [if_pos present]

theorem payRefresh_rings (s : State) (key : Nat) : (s.payRefresh key).rings = s.rings := by
  unfold State.payRefresh
  split <;> rfl

/-- The start of an owner slot leaves the ring in its slot of its lap, with as many units used. -/
theorem beginSlot_ring (s : State) (key : Nat) : ((s.beginSlot key).ring key).lap = (s.ring key).lap ∧
    ((s.beginSlot key).ring key).used = (s.ring key).used ∧ (s.beginSlot key).slotOf key = s.slotOf key := by
  unfold State.beginSlot
  split
  · exact ⟨rfl, rfl, rfl⟩
  · unfold State.updRing State.slotOf
    have hr : (s.payRefresh key).ring key = s.ring key := congrArg (fun x => mapGet Ring.reset x key) (payRefresh_rings s key)
    split <;> rw [State.ring_setRing_same]
    · rw [hr]
      exact ⟨rfl, rfl, rfl⟩
    · exact ⟨rfl, rfl, rfl⟩

theorem RingsOnly.ringTurn {s t : State} (h : RingsOnly s t) (key : Nat) : t.ringTurn key = s.ringTurn key := by
  rw [h]
  rfl

/-! ## A unit of a CREDIT_TAKE -/

/-- A header that suffers nothing on its way. -/
theorem unharmed (h : BitVec 128) : h ^^^ 0 = h := by simp

theorem isTake_op {m : MOp} (h : isTake m = true) : ∃ tl sy sa w, m = .creditTake tl sy sa w := by
  cases m with
  | creditTake tl sy sa w => exact ⟨tl, sy, sa, w, rfl⟩
  | _ => exact absurd h Bool.false_ne_true

/-- The unit of a CREDIT_TAKE leaves its operation, and nothing else changes. -/
theorem moveServe_take {l : Local} {key i : Nat} {o : MoveOp} (hn : nextMove l.core.moveQ key = some (i, o)) (ht : isTake o.op = true) :
    ∃ f, l.moveServe key = l.setMove i f := by
  obtain ⟨tl, sy, sa, w, ho⟩ := isTake_op ht
  have hbad : l.pathBad o key = [] := by
    unfold Local.pathBad
    rw [ho]
    exact ite_self _
  unfold Local.moveServe
  simp only [hn, ho, isRemote, hbad, Bool.false_eq_true, if_false, List.isEmpty_nil, if_true]
  split
  · unfold Local.serveUnit
    rw [ho]
    exact ⟨_, rfl⟩
  · exact ⟨_, rfl⟩

/-- What a taker's unit at the target does: the message that answers it. -/
theorem takeServe_answer {s : State} {key i taker : Nat} {o : MoveOp} (hn : nextMove (s.core taker).moveQ key = some (i, o))
    (ht : isTake o.op = true) : ∃ q, s.putLocal taker ((s.localOf taker).moveServe key) = s.setCore taker { s.core taker with moveQ := q } := by
  obtain ⟨f, hf⟩ := moveServe_take (l := s.localOf taker) hn ht
  rw [hf]
  exact ⟨_, State.putLocal_quiet s taker _ rfl rfl⟩

theorem State.core_congr {s t : State} (h : t.cores = s.cores) (n : Nat) : t.core n = s.core n := by rw [State.core, h]; rfl

/-- A core whose MOVE queue alone has changed. -/
theorem setMoveQ_core (s : State) (n m : Nat) (q : List MoveOp) : ((s.setCore n { s.core n with moveQ := q }).core m).scr = (s.core m).scr ∧
    ((s.setCore n { s.core n with moveQ := q }).core m).seq = (s.core m).seq := by
  rw [State.core_setCore]
  split
  · next h => rw [h]; exact ⟨rfl, rfl⟩
  · exact ⟨rfl, rfl⟩

/-- The credit part of a module: credit messages and who holds the windows of a core. -/
theorem holder_congr {s t : State} {target : Nat} (h : (t.core target).scr = (s.core target).scr) (w : Nat) : t.holder target w = s.holder target w := by
  unfold State.holder
  rw [h]

theorem holder_setHolder (s : State) (target w k : Nat) (h : WindowHolder) :
    (s.setHolder target w h).holder target k = if k = w then h else s.holder target k := by
  unfold State.holder State.setHolder holderOf
  rw [State.core_setCore_same]
  exact mapGet_mapPut _ _ _ _ _

/-! ## Answers and returns -/

theorem judgeOp_judged (l : Local) (b : List MoveOp) {o : MoveOp} (h : o.judged = true) : judgeOp l b o = (l, o) := by
  unfold judgeOp
  dsimp only
  split
  · rfl
  · rw [if_pos h]

/-- A credit operation that stands answered and alone in the MOVE queue leaves it, and the credit state stays as it is. -/
theorem pump_answered {l : Local} {o : MoveOp} (hq : l.core.moveQ = [o]) (judged : o.judged = true) (done : moveDone l.core.regions o = true) :
    l.pump.core.moveQ = [] ∧ l.pump.core.scr.credits = l.core.scr.credits := by
  have hf := flushed_only l
  obtain ⟨h1, h2⟩ := movePump_alone (l := l.flushed) (o := o) (by rw [hf]; exact hq)
  rw [judgeOp_judged _ _ judged] at h1 h2
  have hr : l.flushed.core.regions = l.core.regions := by rw [hf]
  have hs : l.flushed.core.scr = l.core.scr := by rw [hf]
  refine ⟨?_, ?_⟩
  · rw [pump_moveQ, h1, hr, List.dropWhile_cons_of_pos done, List.dropWhile_nil]
  · rw [pump_credits, h2, hs]

theorem judgeOp_holders (l : Local) (b : List MoveOp) (o : MoveOp) : (judgeOp l b o).1.core.scr.holders = l.core.scr.holders := by
  unfold judgeOp
  dsimp only
  repeat' (first | rfl | split)

theorem judgeAll_holders (l : Local) (b q : List MoveOp) : (judgeAll l b q).1.core.scr.holders = l.core.scr.holders := by
  induction q generalizing l b with
  | nil => rfl
  | cons o r ih => exact (ih _ _).trans (judgeOp_holders l b o)

/-- No progress of a core's own units changes who holds its windows. -/
theorem pump_holders (l : Local) : l.pump.core.scr.holders = l.core.scr.holders := by
  have h := congrArg (fun x => x.2.1) (pump_credits l)
  refine h.trans ((judgeAll_holders _ _ _).trans ?_)
  rw [flushed_only]

theorem awaiting_alone {o : MoveOp} {target w : Nat} (h : awaiting [o] target w = some 0) :
    isTake o.op = true ∧ o.judged = true ∧ o.resp.isNone = true ∧ o.units.isEmpty = true ∧ creditOf o = some (target, w) := by
  unfold awaiting at h
  simp only [List.findIdx?_cons, List.findIdx?_nil, Option.map_none, ite_eq_left_iff, reduceCtorEq, imp_false, not_not, Bool.and_eq_true,
    beq_iff_eq] at h
  obtain ⟨⟨⟨⟨h1, h2⟩, h3⟩, h4⟩, h5⟩ := h
  exact ⟨h1, h2, h3, h4, h5⟩

section
variable {target taker w : Nat} {s : State} {o : MoveOp} {m : CreditMessage} {k : CreditKind} (hq : (s.core taker).moveQ = [o])
  (waits : awaiting [o] target w = some 0)
  (first : (s.credit.find? fun x => x.kind == k && x.target == target && x.other == taker && x.window == w) = some m)
include hq waits first

/-- The core to which an answer has come, before its units make progress. -/
def Local.answered (l : Local) (k : CreditKind) (m : CreditMessage) (target taker w : Nat) : Local :=
  let t := l.setMove 0 fun o => { o with resp := some (k == .grant) }
  if k = .grant then
    if target = taker then t
    else t.scrUpd fun x =>
      { x with granted := (x.granted.filter fun e => !(e.1 == target && e.2.1 == w)) ++ [(target, w, grantedWindow (answerHeader m))] }
  else t.misuse target w 6

theorem creditAnswer_eq : s.creditAnswer k target taker w 0 =
    { s with credit := s.credit.erase m }.putLocal taker ((s.localOf taker).answered k m target taker w).pump := by
  unfold State.creditAnswer
  simp only [first, unharmed, answerHeader_kept, hq, waits, Bool.false_eq_true, if_false]
  rfl

/-- An answer completes the CREDIT_TAKE, and changes the credit state as it says. -/
theorem creditAnswer_core : ((s.creditAnswer k target taker w 0).core taker).moveQ = [] ∧
    ((s.creditAnswer k target taker w 0).core taker).scr.credits = ((s.localOf taker).answered k m target taker w).core.scr.credits ∧
    (s.creditAnswer k target taker w 0).credit = s.credit.erase m := by
  obtain ⟨ht, hj, -, -, -⟩ := awaiting_alone waits
  have hmove : ((s.localOf taker).answered k m target taker w).core.moveQ = [{ o with resp := some (k == .grant) }] := by
    have e : (s.localOf taker).core.moveQ = [o] := hq
    unfold Local.answered Local.setMove Local.movUpd
    simp only [e]
    split
    · split <;> rfl
    · rfl
  obtain ⟨tl, sy, sa, x, ho⟩ := isTake_op ht
  obtain ⟨h1, h2⟩ := pump_answered hmove hj (by unfold moveDone; simp only [ho]; rfl)
  rw [creditAnswer_eq hq waits first]
  refine ⟨?_, ?_, ?_⟩
  · rw [putLocal_core, if_pos rfl, h1]
  · rw [putLocal_core, if_pos rfl, h2]
  · rw [putLocal_only]

end

end Sys2Proof.Machine

namespace Sys2Proof.Proofs

open Sys2Proof Sys2Proof.Machine

section
variable {target taker : CoreId} {s : State} {i : Nat} {o : MoveOp} {slot : RingSlot} {w : Nat}
  (turn : s.ringTurn (ringKey 1 target.val) = true) (free : s.coreHeld taker.val = false)
  (next : nextMove (s.core taker.val).moveQ (ringKey 1 target.val) = some (i, o)) (take : isTake o.op = true)
  (names : creditOf o = some (target.val, w)) (hslot : s.slotOf (ringKey 1 target.val) = some slot) (kind : slot.kind = .owner)
  (owner : slot.owner = taker.val) (lap : lapMatch o.lap (s.ring (ringKey 1 target.val)).lap = .equal)
include turn free next take names hslot kind owner lap

/-- The taker's unit in its slot is granted, refused, or waits with the slot. -/
theorem creditTake_served : ∃ s1 : State, RingsOnly s s1 ∧ s.creditTake target.val taker.val w 0 =
    match s1.takeServe (ringKey 1 target.val) target.val taker.val w with
    | some t => (t.useSlot (ringKey 1 target.val) 1 o.tl).settleRing (ringKey 1 target.val)
    | none => s1 := by
  have hcls : ringClass (ringKey 1 target.val) = 1 := ringClass_ringKey 1 (by omega)
  have plain : plainRing (ringKey 1 target.val) := by simp [plainRing, hcls]
  have begun := beginSlot_plain plain s
  have same : ∀ n, (s.beginSlot (ringKey 1 target.val)).core n = s.core n := State.core_congr (by rw [begun])
  have held : (s.beginSlot (ringKey 1 target.val)).coreHeld taker.val = false := by
    rw [← free, begun]
    rfl
  have present : (s.beginSlot (ringKey 1 target.val)).requestPresent (ringKey 1 target.val) slot.owner = true := by
    unfold State.requestPresent
    rw [owner, if_pos (by omega), held, same]
    dsimp only
    rw [next]
    rfl
  have hset := settleRing_kept hslot kind turn present (by rw [hcls]; decide)
  obtain ⟨hlap, -, hs⟩ := beginSlot_ring s (ringKey 1 target.val)
  have keep : creditDiscards (creditHeader kindTake taker.val target.val w o.lap ^^^ 0) = false := by
    rw [unharmed]
    exact creditDiscards_header _ _ _ _ (by decide)
  refine ⟨s.beginSlot (ringKey 1 target.val), begun, ?_⟩
  unfold State.creditTake
  simp only [hset, begun.ringTurn, turn, held, same, next, take, names, keep, hs, hslot, kind, owner, hlap, lap, Bool.not_true, Bool.or_self,
    Bool.false_eq_true, if_false, and_self, if_true, beq_self_eq_true]
  rfl

/-- The first part of O29: the answer to a CREDIT_TAKE by the state of its window. -/
theorem take_answered {h : Nat} :
    let cfg := windowNow (s.core target.val).scr w
    let t := s.creditTake target.val taker.val w 0
    let answers (k : CreditKind) (holder : WindowHolder) : Prop := t.holder target.val w = holder ∧
      t.credit = s.credit ++ [⟨k, target.val, taker.val, w, (s.core target.val).seq.lap.setWidth 2, cfg⟩]
    (bit cfg 7 = false → answers .refuse (s.holder target.val w)) ∧
    (bit cfg 7 = true → s.holder target.val w = .free → answers .grant (.core taker.val)) ∧
    (bit cfg 7 = true → s.holder target.val w = .core taker.val → answers .grant (.core taker.val)) ∧
    (bit cfg 7 = true → s.holder target.val w = .core h → h ≠ taker.val →
      t.holder target.val w = .core h ∧ t.credit = s.credit ∧ ∀ m, t.core m = s.core m) := by
  intro cfg t answers
  have hcls : ringClass (ringKey 1 target.val) = 1 := ringClass_ringKey 1 (by omega)
  have plain : plainRing (ringKey 1 target.val) := by simp [plainRing, hcls]
  obtain ⟨s1, h1, ht⟩ := creditTake_served turn free next take names hslot kind owner lap
  have same : ∀ n, s1.core n = s.core n := State.core_congr (by rw [h1])
  have hcredit : s1.credit = s.credit := by rw [h1]
  have hheld : s1.holder target.val w = s.holder target.val w := holder_congr (by rw [same]) w
  obtain ⟨q, hq⟩ := takeServe_answer (s := s1) (by rw [same]; exact next) take
  have served {u : State} (hu : s1.takeServe (ringKey 1 target.val) target.val taker.val w = some u) :
      (∀ n, t.core n = u.core n) ∧ t.credit = u.credit := by
    have e : t = (u.useSlot (ringKey 1 target.val) 1 o.tl).settleRing (ringKey 1 target.val) := by
      rw [hu] at ht
      exact ht
    have k := useSlot_settleRing_plain plain u 1 o.tl
    rw [← e] at k
    exact ⟨State.core_congr (by rw [k]), by rw [k]⟩
  have waits (hu : s1.takeServe (ringKey 1 target.val) target.val taker.val w = none) : t = s1 := by
    rw [hu] at ht
    exact ht
  have unit := setMoveQ_core s1 taker.val target.val q
  obtain ⟨uscr, useq⟩ := unit
  rw [same taker.val, same target.val] at uscr useq
  -- A message that follows the taker's unit, the window's holder as it stands then.
  have message (k : CreditKind) {u : State} (hu : u.credit = s.credit) (hseq : (u.core target.val).seq = (s.core target.val).seq)
      (hw : (u.core target.val).scr.windowsNow = (s.core target.val).scr.windowsNow)
      (hserve : s1.takeServe (ringKey 1 target.val) target.val taker.val w = some (u.sendCredit k target.val taker.val w)) :
      answers k (u.holder target.val w) := by
    obtain ⟨hc, hcr⟩ := served hserve
    refine ⟨holder_congr (s := u) (by rw [hc]; rfl) w, hcr.trans ?_⟩
    simp only [State.sendCredit, hu, hseq, windowNow, hw]
    rfl
  unfold State.takeServe at message waits
  simp only [same, hq, hheld] at message waits
  refine ⟨fun v => ?_, fun v hh => ?_, fun v hh => ?_, fun v hh hne => ?_⟩
  all_goals replace v : bit (windowNow (s.core target.val).scr w) 7 = _ := v
  · have m := message .refuse (u := s1.setCore taker.val { s.core taker.val with moveQ := q }) hcredit useq (by rw [uscr]) (if_pos (by rw [v]; rfl))
    rwa [holder_congr (s := s) uscr] at m
  · simp only [v, hh, Bool.not_true, Bool.false_eq_true, if_false] at message
    have m := message .grant (u := (s1.setCore taker.val { s.core taker.val with moveQ := q }).setHolder target.val w (.core taker.val)) hcredit
      (by rw [State.setHolder, State.core_setCore_same]; exact useq) (by rw [State.setHolder, State.core_setCore_same, uscr]) rfl
    rwa [holder_setHolder, if_pos rfl] at m
  · simp only [v, hh, Bool.not_true, Bool.false_eq_true, if_false, if_true] at message
    have m := message .grant (u := s1.setCore taker.val { s.core taker.val with moveQ := q }) hcredit useq (by rw [uscr]) rfl
    rwa [holder_congr (s := s) uscr, hh] at m
  · simp only [v, hh, hne, Bool.not_true, Bool.false_eq_true, if_false] at waits
    rw [waits trivial]
    exact ⟨hheld.trans hh, hcredit, same⟩

end

/-- The third part of O29: a CREDIT_GIVE that was judged good frees its window at the target. -/
theorem give_frees {target giver : CoreId} {window : BitVec 4} {s : State} {o : MoveOp} {rest : List MoveOp}
    (hq : (s.core giver.val).moveQ = o :: rest) (give : isGive o.op = true) (judged : o.judged = true) (resp : o.resp = none)
    (names : creditOf o = some (target.val, window.toNat)) (up : s.panelAnswers (target.val / 64) = true)
    (free : s.coreHeld giver.val = false) (holds : s.holder target.val window.toNat = .core giver.val) :
    (s.creditGive target.val giver.val window.toNat 0).holder target.val window.toNat = .free ∧
      ∀ k, k ≠ window.toNat → (s.creditGive target.val giver.val window.toNat 0).holder target.val k = s.holder target.val k := by
  have keep : ∀ lap, creditDiscards (creditHeader kindGive giver.val target.val window.toNat lap ^^^ 0) = false := fun lap => by
    rw [unharmed]
    exact creditDiscards_header _ _ _ _ (by decide)
  have found : ((s.localOf giver.val).core.moveQ.findIdx? fun o => isGive o.op && o.judged && o.resp.isNone &&
      creditOf o == some (target.val, window.toNat)) = some 0 := by
    have e : (s.localOf giver.val).core.moveQ = o :: rest := hq
    rw [e, List.findIdx?_cons]
    simp [give, judged, resp, names]
  have eq : ∃ l, l.core.scr.holders = ((s.setHolder target.val window.toNat .free).core giver.val).scr.holders ∧
      s.creditGive target.val giver.val window.toNat 0 = (s.setHolder target.val window.toNat .free).putLocal giver.val l := by
    refine ⟨(((s.setHolder target.val window.toNat .free).localOf giver.val).setMove 0 fun o => { o with resp := some true }).pump, ?_, ?_⟩
    · rw [pump_holders]
      rfl
    · unfold State.creditGive
      simp only [found, up, free, keep, holds, Bool.not_true, Bool.or_self, Bool.false_eq_true, if_false, if_true]
  obtain ⟨l, hl, ht⟩ := eq
  have holder : ∀ k, (s.creditGive target.val giver.val window.toNat 0).holder target.val k = (s.setHolder target.val window.toNat .free).holder target.val k := by
    intro k
    rw [ht]
    unfold State.holder holderOf
    rw [putLocal_core]
    split
    · next e => rw [hl, e]
    · rfl
  refine ⟨by rw [holder, holder_setHolder, if_pos rfl], fun k hk => by rw [holder, holder_setHolder, if_neg hk]⟩

/-- Settles O29. -/
theorem creditHandshake : Obligations.CreditHandshake := by
  unfold Obligations.CreditHandshake
  refine ⟨?_, ?_, ?_⟩
  · intro target taker window s i o slot h key w turn free next take names hslot kind owner lap cfg valid answers
    obtain ⟨h1, h2, h3, h4⟩ := take_answered (h := h) turn free next take names hslot kind owner lap
    exact ⟨fun v => ⟨_, rfl, h1 v⟩, fun v hh => ⟨_, rfl, h2 v hh⟩, fun v hh => ⟨_, rfl, h3 v hh⟩, fun v hh hne => ⟨_, rfl, h4 v hh hne⟩⟩
  · intro target taker window s o m hq waits hne w first
    have other : target.val ≠ taker.val := fun e => hne (Fin.ext e)
    refine ⟨fun hf => ?_, fun hf => ?_⟩
    · obtain ⟨h1, h2, h3⟩ := creditAnswer_core hq waits hf
      refine ⟨_, rfl, h1, ?_, h3⟩
      have hg := congrArg (fun x => x.2.2.1) h2
      have hk : m.kind = .grant := by
        have := List.find?_some hf
        simp only [Bool.and_eq_true, beq_iff_eq] at this
        exact this.1.1.1
      have ha : answerHeader m = grantHeader m := by
        unfold answerHeader
        rw [hk]
      rw [show ((s.creditAnswer .grant target.val taker.val window.toNat 0).core taker.val).scr.granted = _ from hg]
      simp only [ScratchState.credits, Local.answered, if_true, if_neg other, ha, grantedWindow_grant]
      exact List.mem_append_right _ (List.mem_singleton.mpr rfl)
    · obtain ⟨h1, h2, h3⟩ := creditAnswer_core hq waits hf
      exact ⟨_, rfl, h1, congrArg (fun x => x.2.2.2) h2, congrArg (fun x => x.2.2.1) h2, h3⟩
  · intro target giver window s o rest hq give judged resp names up free holds
    exact ⟨_, rfl, give_frees hq give judged resp names up free holds⟩

end Sys2Proof.Proofs
end

section
/-!
PROOF. WRITE messages (R214, R215): the header's place and size as the target reads them, and the bytes that the message stores.
-/

namespace Sys2Proof.Machine

/-- The fields of a WRITE's header below its lap: the words minus 1, and the first word. -/
theorem writeFields {words word : Nat} (hw : words < 65536) (ha : word < 2 ^ 21) :
    (BitVec.ofNat 128 (words * 2 ^ 48 + word)).toNat = words * 2 ^ 48 + word := by
  rw [BitVec.toNat_ofNat, Nat.mod_eq_of_lt]
  omega

theorem writeBits {words word i : Nat} (hw : words < 65536) (ha : word < 2 ^ 21)
    (h : (BitVec.ofNat 128 (words * 2 ^ 48 + word)).getLsbD i = true) : i < 21 ∨ 48 ≤ i ∧ i < 64 := by
  rw [BitVec.getLsbD, writeFields hw ha] at h
  by_contra hb
  have split : i < 48 ∧ 21 ≤ i ∨ 64 ≤ i := by omega
  rcases split with ⟨h1, h2⟩ | h1
  · rw [mul_comm, Nat.testBit_two_pow_mul_add _ (by omega : word < 2 ^ 48), if_pos h1] at h
    rw [Nat.testBit_eq_false_of_lt (ha.trans_le (Nat.pow_le_pow_right (by decide) h2))] at h
    exact absurd h nofun
  · rw [Nat.testBit_eq_false_of_lt (Nat.lt_of_lt_of_le (by omega : _ < 2 ^ 64) (Nat.pow_le_pow_right (by decide) h1))] at h
    exact absurd h nofun

theorem creditReserved_write {i : Nat} (h : i < 21 ∨ 48 ≤ i ∧ i < 64) : creditReserved.getLsbD i = false := by
  have low : ∀ j : Fin 21, creditReserved.getLsbD j.val = false := by decide
  have high : ∀ j : Fin 16, creditReserved.getLsbD (48 + j.val) = false := by decide
  rcases h with h | ⟨h1, h2⟩
  · exact low ⟨i, h⟩
  · have := high ⟨i - 48, by omega⟩
    rwa [show 48 + (i - 48) = i by omega] at this

/-- A field below the header's lap is that of the words and the place alone. -/
theorem writeHeader_field (a b w : Nat) (lap : BitVec 2) (words word lo n : Nat) (h : lo + n ≤ 100) :
    field (writeHeader a b w lap words word) lo n = field (BitVec.ofNat 128 ((words - 1) * 2 ^ 48 + word)) lo n := by
  apply BitVec.eq_of_getLsbD_eq
  intro i hi
  simp only [field, BitVec.getLsbD_extractLsb', writeHeader, BitVec.getLsbD_or]
  rw [creditHeader_low _ _ _ _ _ (by omega), Bool.false_or]

section
variable (a b w : Nat) (lap : BitVec 2) {words word : Nat} (h1 : 1 ≤ words) (h2 : words ≤ 1024) (h3 : word < 2 ^ 21)
include h1 h2 h3

theorem writeHeader_kept : creditDiscards (writeHeader a b w lap words word) = false :=
  creditDiscards_kept a b w lap (by decide) fun i hi => by
    have hb := writeBits (by omega) h3 hi
    exact ⟨by omega, creditReserved_write hb⟩

theorem writeHeader_place : (field (writeHeader a b w lap words word) 0 21).toNat = word ∧
    (field (writeHeader a b w lap words word) 48 16).toNat + 1 = words := by
  rw [writeHeader_field _ _ _ _ _ _ _ _ (by decide), writeHeader_field _ _ _ _ _ _ _ _ (by decide), field, field,
    BitVec.extractLsb'_toNat, BitVec.extractLsb'_toNat, writeFields (by omega) h3, Nat.shiftRight_eq_div_pow, Nat.shiftRight_eq_div_pow]
  omega

end

/-- Where every Panel answers, no operation loses anything toward one. -/
theorem dropIsolated_of_present {s : State} (h : ∀ p, p < 8 → s.panelAnswers p = true) (n : Nat) : s.dropIsolated n = s := by
  unfold State.dropIsolated
  refine if_neg ?_
  simp only [List.any_eq_true, List.mem_range, not_exists, not_and]
  intro p hp
  simp [h p hp]

theorem coreHeld_of_present {s : State} {n : Nat} (h : s.panelAnswers (n / 64) = true) (gate : (s.core n).supply.gateClosed = false) :
    s.coreHeld n = false := by
  simp [State.coreHeld, h, gate]

/-- A write to the scratchpad stores its bytes, and touches no byte beyond its last word. -/
theorem writeScr_stores (l : Local) (off : Nat) (bs : List Byte) :
    memRead (l.writeScr off bs).mem (scratchAddr l.env.n off) bs.length = bs ∧
    ∀ x, (x < scratchAddr l.env.n off ∨ scratchAddr l.env.n off + (bs.length + 3) / 4 * 4 ≤ x) → memGet (l.writeScr off bs).mem x = memGet l.mem x := by
  have hm : (l.writeScr off bs).mem = memWrite l.mem (scratchAddr l.env.n off) (bs ++ List.replicate ((4 - bs.length % 4) % 4) 0) := rfl
  have hl : (bs ++ List.replicate ((4 - bs.length % 4) % 4) (0 : Byte)).length = bs.length + (4 - bs.length % 4) % 4 := by simp
  rw [hm]
  refine ⟨?_, fun x hx => memGet_memWrite_out _ _ _ _ (by rw [hl]; omega)⟩
  have whole := memRead_memWrite l.mem (scratchAddr l.env.n off) (bs ++ List.replicate ((4 - bs.length % 4) % 4) 0)
  rw [hl, memRead_add] at whole
  exact (List.append_inj whole (memRead_length _ _ _)).1

end Sys2Proof.Machine

namespace Sys2Proof.Proofs

open Sys2Proof Sys2Proof.Machine

/-- Settles O30. -/
theorem writeStoresAtTarget : Obligations.WriteStoresAtTarget := by
  unfold Obligations.WriteStoresAtTarget
  intro target sender window s i o u up gate ready quiet h1 h2 h3 bytes a
  have held : s.coreHeld sender.val = false := coreHeld_of_present (up _ (by omega)) gate
  have keep := writeHeader_kept sender.val target.val window.toNat o.lap h1 h2 (show u.addr < 2 ^ 21 by omega)
  obtain ⟨place, size⟩ := writeHeader_place sender.val target.val window.toNat o.lap h1 h2 (show u.addr < 2 ^ 21 by omega)
  -- The sender's own progress writes nothing: nothing waits in its ATTENTION queue.
  have sent : (s.putLocal sender.val ((s.localOf sender.val).setMove i fun o => { o with units := o.units.drop 1 }).pump).mem = s.mem :=
    (putLocal_mem _ _ _).trans (mem_of_noAttention quiet)
  refine ⟨_, rfl, ?_⟩
  have stored : (s.creditWrite target.val sender.val window.toNat 0).mem =
      ((((s.putLocal sender.val ((s.localOf sender.val).setMove i fun o => { o with units := o.units.drop 1 }).pump).localOf target.val).cross 16
        (linesOf u.addr u.len)).writeScr (4 * u.addr) bytes).mem := by
    unfold State.creditWrite
    simp only [dropIsolated_of_present up, ready, held, unharmed, keep, place, size, up (target.val / 64) (by omega), Bool.false_eq_true,
      if_false, if_true]
    exact putLocal_mem _ _ _
  generalize s.putLocal sender.val ((s.localOf sender.val).setMove i fun o => { o with units := o.units.drop 1 }).pump = v at sent stored
  have k := cross_reads (v.localOf target.val) 16 (linesOf u.addr u.len)
  obtain ⟨w1, w2⟩ := writeScr_stores ((v.localOf target.val).cross 16 (linesOf u.addr u.len)) (4 * u.addr) bytes
  rw [k.env] at w1 w2
  show memRead (s.creditWrite target.val sender.val window.toNat 0).mem a bytes.length = bytes ∧ _
  rw [stored]
  exact ⟨w1, fun x hx => (w2 x hx).trans (by rw [k.mem]; exact congrArg (memGet · x) sent)⟩

end Sys2Proof.Proofs
end

section
/-!
PROOF. What passing slots leaves of the module, for a ring of any class, and the switch-on openings and ramps of a core's regions (R52, R91,
R325).
-/

namespace Sys2Proof.Machine

/-! ## Slots that end -/

/-- The step changes rings, Pocket columns, Cuffs, Seam ports, the capacity tier, the log, the generation count and the free values alone. -/
structure SettleKeeps (s t : State) : Prop where
  eq : t = { s with rings := t.rings, columns := t.columns, cuffs := t.cuffs, seams := t.seams, cap := t.cap, log := t.log, mgmt := t.mgmt,
                    freeTick := t.freeTick }

namespace SettleKeeps

theorem refl (s : State) : SettleKeeps s s := ⟨rfl⟩

theorem trans {s t u : State} (h : SettleKeeps s t) (g : SettleKeeps t u) : SettleKeeps s u := ⟨by rw [g.eq, h.eq]⟩

theorem ite {s a b : State} {c : Prop} [Decidable c] (ha : SettleKeeps s a) (hb : SettleKeeps s b) : SettleKeeps s (if c then a else b) := by
  split
  · exact ha
  · exact hb

theorem core {s t : State} (h : SettleKeeps s t) (n : Nat) : t.core n = s.core n := State.core_congr (by rw [h.eq]) n
theorem mem {s t : State} (h : SettleKeeps s t) : t.mem = s.mem := by rw [h.eq]

end SettleKeeps

theorem setRing_settle (s : State) (k : Nat) (r : Ring) : SettleKeeps s (s.setRing k r) := ⟨rfl⟩

theorem fileAll_settle (s : State) (rs : List Report) : SettleKeeps s (s.fileAll rs) := ⟨by rw [State.fileAll_only]⟩

theorem onColumn_settle (s : State) (col : Nat) (f : Column → ColSite → ColStep) : SettleKeeps s (s.onColumn col f) :=
  SettleKeeps.trans (t := s.setColumn col (f (s.column col) (s.colSite col)).1) ⟨rfl⟩ (fileAll_settle _ _)

theorem updChan_settle (s : State) (k slot : Nat) (f : Channel → Channel) : SettleKeeps s (s.updChan k slot f) := ⟨rfl⟩

theorem cuffNote_settle (s : State) (k cls loc detail aux : Nat) : SettleKeeps s (s.cuffNote k cls loc detail aux) := by
  unfold State.cuffNote State.note
  exact ⟨by rw [State.file_only]⟩

theorem seqBoundary_settle (s : State) (k slot : Nat) : SettleKeeps s (s.seqBoundary k slot) := by
  unfold State.seqBoundary
  split
  · refine .ite (.refl s) ?_
    split
    · exact .ite ⟨rfl⟩ (.refl s)
    · refine .ite (.refl s) (.ite ⟨rfl⟩ ?_)
      unfold State.spareKeeps
      exact (SettleKeeps.trans ⟨rfl⟩ (cuffNote_settle _ _ _ _ _ _)).trans ⟨rfl⟩
    · refine .ite ?_ (.refl s)
      unfold State.switchBack
      dsimp only
      exact (SettleKeeps.trans ⟨rfl⟩ (cuffNote_settle _ _ _ _ _ _)).trans ⟨rfl⟩
    · exact .refl s
  · exact .refl s

theorem drainRing_settle (s : State) (key : Nat) : SettleKeeps s (s.drainRing key) := by
  unfold State.drainRing
  exact .ite (onColumn_settle _ _ _) (.refl s)

theorem alternate_settle (s : State) (key : Nat) : SettleKeeps s (s.alternate key) := by
  unfold State.alternate
  exact .ite ⟨rfl⟩ (.refl s)

theorem moveRing_settle (s : State) (key : Nat) (r : Ring) : SettleKeeps s (s.moveRing key r) := by
  unfold State.moveRing
  refine .ite ?_ ⟨rfl⟩
  have h := ((drainRing_settle s key).trans (alternate_settle _ key)).trans (setRing_settle _ key r)
  exact .ite (h.trans (seqBoundary_settle _ _ _)) h

theorem payRefresh_settle (s : State) (key : Nat) : SettleKeeps s (s.payRefresh key) := by
  unfold State.payRefresh
  split <;> exact ⟨rfl⟩

theorem beginSlot_settle (s : State) (key : Nat) : SettleKeeps s (s.beginSlot key) := by
  unfold State.beginSlot
  exact .ite (.refl s) (.ite ((payRefresh_settle s key).trans ⟨rfl⟩) ⟨rfl⟩)

theorem payWaiting_settle (s : State) (key owner : Nat) : SettleKeeps s (s.payWaiting key owner) := by
  have paid : SettleKeeps s (if (s.ring key).paid || s.debtOf key == 0 then s
      else (s.payRefresh key).updRing key fun r => { r with paid := true }) :=
    .ite (.refl s) ((payRefresh_settle s key).trans ⟨rfl⟩)
  unfold State.payWaiting
  exact .ite (.refl s) (.ite (paid.trans ⟨rfl⟩) paid)

theorem settle_settle (fuel : Nat) (s : State) (key : Nat) : SettleKeeps s (s.settle fuel key) := by
  induction fuel generalizing s with
  | zero => exact .refl s
  | succ k ih =>
    unfold State.settle
    split
    · refine .ite ?_ (.refl s)
      exact .ite (((beginSlot_settle s key).trans (moveRing_settle _ key _)).trans (ih _))
        ((beginSlot_settle s key).trans (payWaiting_settle _ key _))
    · exact .refl s

theorem settleRing_settle (s : State) (key : Nat) : SettleKeeps s (s.settleRing key) := settle_settle _ s key

theorem useSlot_settle (s : State) (key units : Nat) (last : Bool) : SettleKeeps s (s.useSlot key units last) := moveRing_settle _ _ _

theorem endOpening_settle (s : State) (key : Nat) (k : SlotKind) (used : Bool) : SettleKeeps s (s.endOpening key k used) :=
  (moveRing_settle _ _ _).trans (settleRing_settle _ _)

/-! ## The rings' own data -/

theorem onColumn_rings (s : State) (col : Nat) (f : Column → ColSite → ColStep) : (s.onColumn col f).rings = s.rings := by
  unfold State.onColumn
  rw [State.fileAll_only]
  rfl

theorem drainRing_rings (s : State) (key : Nat) : (s.drainRing key).rings = s.rings := by
  unfold State.drainRing
  split
  · exact onColumn_rings _ _ _
  · rfl

theorem alternate_rings (s : State) (key : Nat) : (s.alternate key).rings = s.rings := by
  unfold State.alternate
  dsimp only
  generalize (if (s.seam (ringInst key / 2)).state = .retired then siblingPort (ringInst key / 2) else ringInst key / 2) = live
  split <;> rfl

theorem cuffNote_rings (s : State) (k cls loc detail aux : Nat) : (s.cuffNote k cls loc detail aux).rings = s.rings := by
  unfold State.cuffNote
  rw [State.note_only]

theorem seqBoundary_rings (s : State) (k slot : Nat) : (s.seqBoundary k slot).rings = s.rings := by
  unfold State.seqBoundary
  split
  · split
    · rfl
    · split
      · split <;> rfl
      · split
        · rfl
        · split
          · rfl
          · exact (cuffNote_rings _ _ _ _ _ _).trans rfl
      · split
        · exact (cuffNote_rings _ _ _ _ _ _).trans rfl
        · rfl
      · rfl
  · rfl

theorem moveRing_rings (s : State) (key : Nat) (r : Ring) : (s.moveRing key r).rings = mapPut s.rings key r := by
  have h : (((s.drainRing key).alternate key).setRing key r).rings = mapPut s.rings key r :=
    congrArg (mapPut · key r) ((alternate_rings _ _).trans (drainRing_rings _ _))
  unfold State.moveRing
  dsimp only
  split
  · split
    · exact (seqBoundary_rings _ _ _).trans h
    · exact h
  · rfl

theorem State.ring_congr {s t : State} (h : t.rings = s.rings) (k : Nat) : t.ring k = s.ring k := by rw [State.ring, h]; rfl

theorem moveRing_ring (s : State) (key k : Nat) (r : Ring) : (s.moveRing key r).ring k = if k = key then r else s.ring k := by
  rw [State.ring, moveRing_rings]
  exact mapGet_mapPut _ _ _ _ _

/-- The openings that a ring counts: as before, but for the refreshes that are forced at the start of an owner slot (R56). -/
structure CountsKeep (r r' : Ring) : Prop where
  idle : r'.idleCounts = r.idleCounts
  used : ∀ k, k ≠ 2 → mapGet 0 r'.usedCounts k = mapGet 0 r.usedCounts k

theorem CountsKeep.refl (r : Ring) : CountsKeep r r := ⟨rfl, fun _ _ => rfl⟩

theorem CountsKeep.trans {a b c : Ring} (h : CountsKeep a b) (g : CountsKeep b c) : CountsKeep a c :=
  ⟨g.idle.trans h.idle, fun k hk => (g.used k hk).trans (h.used k hk)⟩

theorem endSlot_counts (r : Ring) (key now : Nat) : CountsKeep r (r.endSlot key now) := by
  unfold Ring.endSlot
  split <;> exact ⟨rfl, fun _ _ => rfl⟩

theorem useUnits_counts (r : Ring) (key now units : Nat) (last : Bool) : CountsKeep r (r.useUnits key now units last) := by
  unfold Ring.useUnits
  split
  · split
    · exact endSlot_counts _ _ _
    · exact ⟨rfl, fun _ _ => rfl⟩
  · exact .refl r

theorem beginSlot_counts (s : State) (key : Nat) : CountsKeep (s.ring key) ((s.beginSlot key).ring key) := by
  have hr := State.ring_congr (payRefresh_rings s key) key
  unfold State.beginSlot
  split
  · exact .refl _
  · split
    · rw [State.updRing, State.ring_setRing_same, hr]
      exact ⟨rfl, fun k hk => (mapGet_mapPut _ _ _ _ _).trans (if_neg hk)⟩
    · rw [State.updRing, State.ring_setRing_same]
      exact ⟨rfl, fun _ _ => rfl⟩

theorem payWaiting_counts (s : State) (key owner : Nat) : CountsKeep (s.ring key) ((s.payWaiting key owner).ring key) := by
  have hr := State.ring_congr (payRefresh_rings s key) key
  have paid : CountsKeep (s.ring key) ((if (s.ring key).paid || s.debtOf key == 0 then s
      else (s.payRefresh key).updRing key fun r => { r with paid := true }).ring key) := by
    split
    · exact .refl _
    · rw [State.updRing, State.ring_setRing_same, hr]
      exact ⟨rfl, fun _ _ => rfl⟩
  unfold State.payWaiting
  split
  · exact .refl _
  · dsimp only
    split
    · rw [State.updRing, State.ring_setRing_same]
      exact paid.trans ⟨rfl, fun _ _ => rfl⟩
    · exact paid

theorem settle_counts (fuel : Nat) (s : State) (key : Nat) : CountsKeep (s.ring key) ((s.settle fuel key).ring key) := by
  induction fuel generalizing s with
  | zero => exact .refl _
  | succ k ih =>
    unfold State.settle
    split
    · split
      · dsimp only
        split
        · refine CountsKeep.trans ?_ (ih _)
          rw [State.endTurn, State.useSlot, moveRing_ring, if_pos rfl]
          exact (beginSlot_counts s key).trans (useUnits_counts _ _ _ _ _)
        · exact (beginSlot_counts s key).trans (payWaiting_counts _ _ _)
      · exact .refl _
    · exact .refl _

/-- An opening that ends is counted, used or idle. -/
theorem endOpening_counts (s : State) (key : Nat) (k : SlotKind) :
    (mapGet 0 ((s.endOpening key k false).ring key).idleCounts (kindCode k) = wrapAdd (mapGet 0 (s.ring key).idleCounts (kindCode k)) 1) ∧
    (kindCode k ≠ 2 →
      mapGet 0 ((s.endOpening key k true).ring key).usedCounts (kindCode k) = wrapAdd (mapGet 0 (s.ring key).usedCounts (kindCode k)) 1) := by
  have moved (b : Bool) : (s.moveRing key ((s.ring key).endOpening key s.now k b)).ring key = (s.ring key).endOpening key s.now k b := by
    rw [moveRing_ring, if_pos rfl]
  have settled (b : Bool) := settle_counts ((((s.moveRing key ((s.ring key).endOpening key s.now k b)).ring key).slots key).length + 1)
    (s.moveRing key ((s.ring key).endOpening key s.now k b)) key
  have ended (b : Bool) := endSlot_counts ((s.ring key).countOpening k b) key s.now
  refine ⟨?_, fun hk => ?_⟩
  · rw [State.endOpening, State.settleRing, (settled false).idle, moved false]
    exact (congrArg (mapGet 0 · (kindCode k)) (ended false).idle).trans (mapGet_mapPut_same _ _ _ _)
  · rw [State.endOpening, State.settleRing, (settled true).used _ hk, moved true]
    exact ((ended true).used _ hk).trans (mapGet_mapPut_same _ _ _ _)

/-! ## Openings -/

theorem openingAt_slot {s : State} {key : Nat} {k : SlotKind} {slot : RingSlot} (h : s.openingAt key k = some slot) :
    s.ringTurn key = true ∧ s.slotOf key = some slot ∧ slot.kind = k := by
  unfold State.openingAt at h
  split at h
  · next turn =>
    cases hs : s.slotOf key with
    | none => rw [hs] at h; exact absurd h nofun
    | some x =>
      rw [hs, Option.bind_some] at h
      split at h
      · next hk =>
        cases h
        exact ⟨turn, rfl, hk⟩
      · exact absurd h nofun
  · exact absurd h nofun

/-- A ring that stands at a slot which is no owner's passes none. -/
theorem settleRing_of_opening {s : State} {key : Nat} (h : ∀ x, s.slotOf key = some x → x.kind ≠ .owner) : s.settleRing key = s := by
  unfold State.settleRing State.settle
  split
  · next slot hs => exact if_neg fun hk => h slot hs hk.1
  · rfl

theorem settleRing_openingAt {s : State} {key : Nat} {k : SlotKind} {slot : RingSlot} (h : s.openingAt key k = some slot) (hk : k ≠ .owner) :
    s.settleRing key = s :=
  settleRing_of_opening fun x hx => by
    obtain ⟨-, hs, hk'⟩ := openingAt_slot h
    rw [hs] at hx
    cases hx
    rwa [hk']

/-! ## Switch-on openings -/

theorem mem_setBits {w : Nat} {v : BitVec w} {i : Nat} : i ∈ setBits v ↔ v.getLsbD i = true := by
  simp only [setBits, List.mem_filter, List.mem_range, and_iff_right_iff_imp]
  exact BitVec.lt_of_getLsbD

/-- The lowest set bit of a value stands first. -/
theorem setBits_head {w : Nat} {v : BitVec w} {i : Nat} (h : v.getLsbD i = true) (low : ∀ j, j < i → v.getLsbD j = false) :
    ∃ r, setBits v = i :: r := by
  have hi := BitVec.lt_of_getLsbD h
  obtain ⟨k, rfl⟩ : ∃ k, w = i + (1 + k) := ⟨w - i - 1, by omega⟩
  have none : (List.range i).filter (fun j => v.getLsbD j) = [] := List.filter_eq_nil_iff.mpr fun j hj => by simp [low j (List.mem_range.mp hj)]
  refine ⟨((List.range k).map fun j => i + (1 + j)).filter (fun j => v.getLsbD j), ?_⟩
  unfold setBits
  rw [List.range_add, List.filter_append, none, List.range_add, List.map_append, List.filter_append, List.map_map]
  simp [h, Function.comp_def]

theorem bit_putBit_false {w : Nat} (v : BitVec w) (i j : Nat) :
    bit (putBit v i false) j = (bit v j && decide (j ≠ i)) := by
  by_cases hj : j < w
  · simp only [bit, putBit, Bool.false_eq_true, if_false, BitVec.getLsbD_and, BitVec.getLsbD_not, BitVec.getLsbD_ofNat, Nat.testBit_two_pow, hj,
      decide_true, Bool.true_and, ne_eq, decide_not]
    rw [decide_eq_decide.mpr (eq_comm (a := i))]
  · simp [bit, BitVec.getLsbD_of_ge _ _ (Nat.le_of_not_lt hj)]

/-! ## The end of a ramp -/

/-- No switch-off enters a queue. -/
structure OffsOld (l m : Local) : Prop where
  arr : ∀ o, o = .off ∨ o = .gatherOff → o ∈ m.core.arr.queue → o ∈ l.core.arr.queue
  att : .off ∈ m.core.att.queue → .off ∈ l.core.att.queue
  vec : .off ∈ m.core.vec.queue → .off ∈ l.core.vec.queue

theorem OffsOld.refl (l : Local) : OffsOld l l := ⟨fun _ _ => id, id, id⟩

theorem OffsOld.trans {l m k : Local} (h : OffsOld l m) (g : OffsOld m k) : OffsOld l k :=
  ⟨fun o ho => h.arr o ho ∘ g.arr o ho, h.att ∘ g.att, h.vec ∘ g.vec⟩

theorem mem_of_putFlush {q : List ArrOp} {b : List GatherEntry} {o : ArrOp} (ho : o = .off ∨ o = .gatherOff) (h : o ∈ putFlush q b) : o ∈ q := by
  have hne : o ≠ .flush b := by rcases ho with rfl | rfl <;> exact nofun
  simp only [putFlush, List.mem_append, List.mem_cons, hne, false_or] at h
  rwa [← List.mem_append, List.takeWhile_append_dropWhile] at h

theorem flushGather_old {a : ArrayState} {c : FlushCause} {o : ArrOp} (ho : o = .off ∨ o = .gatherOff) (h : o ∈ (flushGather a c).queue) :
    o ∈ a.queue := by
  unfold flushGather at h
  split at h
  · exact h
  · exact mem_of_putFlush ho h

theorem forceFlush_old {a : ArrayState} {o : ArrOp} (ho : o = .off ∨ o = .gatherOff) (h : o ∈ (forceFlush a).queue) : o ∈ a.queue := by
  unfold forceFlush at h
  dsimp only at h
  split at h
  · rcases List.mem_append.mp h with h | h
    · exact flushGather_old ho h
    · rw [List.mem_singleton] at h
      rcases ho with rfl | rfl <;> exact absurd h nofun
  · exact flushGather_old ho h

theorem addGather_old {a : ArrayState} {e : GatherEntry} {beats : Nat} {o : ArrOp} (ho : o = .off ∨ o = .gatherOff)
    (h : o ∈ (addGather a e beats).queue) : o ∈ a.queue := by
  have first (h : o ∈ (if 64 < gatherCount a + e.rows then flushGather a .forced else a).queue) : o ∈ a.queue := by
    split at h
    · exact flushGather_old ho h
    · exact h
  unfold addGather at h
  generalize (if 64 < gatherCount a + e.rows then flushGather a .forced else a) = s1 at h first
  dsimp only at h
  split at h
  · have h' := flushGather_old ho h
    exact first h'
  · exact first h

/-- What a step of the ARRAY queue's head leaves in the queue, but for what a flush adds. -/
theorem atHead_old {a : ArrayState} {f : ArrayState → ArrayState} {o : ArrOp} (hf : ∀ b : ArrayState, b.queue = [] → o ∉ (f b).queue)
    (h : o ∈ (atHead a f).queue) : o ∈ a.queue := by
  rcases List.mem_append.mp h with h | h
  · exact absurd h (hf _ rfl)
  · exact List.mem_of_mem_drop h

theorem arrayStep_old (l : Local) : OffsOld l l.arrayStep := by
  have k := (arrayStep_arrStep l).reads
  refine ⟨fun o ho h => ?_, by rw [k.att]; exact id, by rw [k.vec]; exact id⟩
  unfold Local.arrayStep at h
  dsimp only at h
  split at h
  · split at h
    · unfold Local.runWload at h
      rw [Local.arrUpd, ((cross_reads _ _ _).trans (readRuns_reads _ _ _ _)).arr] at h
      exact List.mem_of_mem_drop h
    · exact h
  · split at h
    · exact atHead_old (fun b hb hm => by simpa [hb] using addGather_old ho hm) h
    · exact h
  · exact List.mem_of_mem_drop h
  · exact atHead_old (fun b hb hm => by simpa [hb] using flushGather_old ho hm) h
  · exact h

theorem attStep_old (l : Local) : OffsOld l l.attStep := by
  have k := attStep_arrayQueue l
  refine ⟨fun o _ => by rw [k.queue]; exact id, fun h => ?_, by rw [k.vec]; exact id⟩
  rcases attStep_queue l with hq | hq <;> rw [hq] at h
  · exact h
  · exact List.mem_of_mem_drop h

theorem progress_old (l : Local) : OffsOld l l.progress := by
  refine progress_rel .refl (fun _ _ _ => .trans) (fun x => ⟨fun _ ho => forceFlush_old ho, id, id⟩) (fun x => ?_) arrayStep_old attStep_old (fun x => ?_) l
  · have h := (movePump_only x).2.2.2
    constructor <;> rw [h] <;> intros <;> assumption
  · have k := (preload_attStep x).arrayQueue
    exact ⟨fun o _ => by rw [k.queue]; exact id, by rw [preload_queue]; exact id, by rw [k.vec]; exact id⟩

/-- No switch-off stands in a queue. -/
def NoOffs (c : Core) : Prop := (∀ o, o = .off ∨ o = .gatherOff → o ∉ c.arr.queue) ∧ .off ∉ c.att.queue ∧ .off ∉ c.vec.queue

theorem noOffs_of_pending {c : Core} (h : offPending c = 0) : NoOffs c := by
  obtain ⟨ha, ht, hv, hg⟩ := bit_offPending c
  rw [h] at ha ht hv hg
  have zero (i : Nat) : bit (0 : BitVec 4) i = false := BitVec.getLsbD_zero
  rw [zero] at ha ht hv hg
  refine ⟨fun o ho hm => ?_, fun hm => ?_, fun hm => ?_⟩
  · rcases ho with rfl | rfl
    · simp [hm] at ha
    · simp [hm] at hg
  · simp [hm] at ht
  · simp [hm] at hv

theorem offReady_zero {c : Core} (h : NoOffs c) : offReady c = 0 := by
  obtain ⟨ha, ht, hv⟩ := h
  have head {α : Type} [DecidableEq α] {q : List α} {a : α} (h : a ∉ q) : (q.head? == some a) = false := by
    cases q with
    | nil => rfl
    | cons b r => simp [Ne.symm (List.ne_of_not_mem_cons h)]
  unfold offReady
  simp [head (ha .off (.inl rfl)), head (ha .gatherOff (.inr rfl)), head ht, head hv]

theorem switchOff_zero (r : Regions) : switchOff r 0 = r := by simp [switchOff, bit]

/-- The units' progress keeps the regions as they stand where no switch-off waits, but for the switch-ons that it asks for. -/
theorem pump_regions {l : Local} (h : NoOffs l.core) : ∃ (requested offRequested : BitVec 4) (n : BitVec 16), l.pump.core.regions =
    { l.core.regions with requested := requested, offRequested := offRequested, autoWakes := n } := by
  have old := progress_old l
  have still : NoOffs l.progress.core := ⟨fun o ho hm => h.1 o ho (old.arr o ho hm), fun hm => h.2.1 (old.att hm), fun hm => h.2.2 (old.vec hm)⟩
  obtain ⟨new, n, hr⟩ := settleRegions_regions l.progress.core
  refine ⟨l.core.regions.requested ||| new, l.core.regions.offRequested &&& offPending (applyOff l.progress.core), n, ?_⟩
  rw [pump_eq]
  dsimp only
  rw [hr, applyOff_regions, offReady_zero still, switchOff_zero, (progress_offsKeep l).regions]

theorem rampEnd_noOffs {l : Local} (h : NoOffs l.core) : NoOffs l.rampEnd.core := by
  refine ⟨h.1, ?_, ?_⟩
  · unfold Local.rampEnd switchedOn
    dsimp only
    split <;> exact h.2.1
  · unfold Local.rampEnd switchedOn
    dsimp only
    split <;> exact h.2.2

theorem endRamp_regions (r : Regions) :
    (endRamp r).array = (if r.array = .ramping then .on else r.array) ∧
    (endRamp r).attention = (if r.array ≠ .ramping ∧ r.attention = .ramping then .on else r.attention) ∧
    (endRamp r).vector = (if r.array ≠ .ramping ∧ r.attention ≠ .ramping ∧ r.vector = .ramping then .on else r.vector) ∧
    (endRamp r).gather =
      (if r.array ≠ .ramping ∧ r.attention ≠ .ramping ∧ r.vector ≠ .ramping ∧ r.gather = .ramping then .on else r.gather) := by
  unfold endRamp
  split
  · next h => simp [h]
  · next ha =>
    split
    · next ht => simp [ha, ht]
    · next ht =>
      split
      · next hv => simp [ha, ht, hv]
      · next hv => split <;> simp [*]

end Sys2Proof.Machine

namespace Sys2Proof.Proofs

open Sys2Proof Sys2Proof.Machine

/-- Settles O34: a ring that stands at an opening passes no slot first; no switch-off enters a queue by the units' own progress. -/
theorem regionRamps : Obligations.RegionRamps := by
  unfold Obligations.RegionRamps
  refine ⟨fun n s slot i ho => ?_, fun n s up hp => ?_⟩
  · have settled := settleRing_openingAt ho nofun
    intro r
    refine ⟨fun _ hi low => ?_, fun none => ?_⟩
    · obtain ⟨rest, hb⟩ := setBits_head hi low
      have hs : s.switchOnOpening n.val = (s.updRegions n.val fun r => startRamp r i).endOpening (ringKey 2 n.val) .switchOn true := by
        unfold State.switchOnOpening
        dsimp only
        rw [settled, ho]
        dsimp only
        rw [hb]
      have hc : (s.switchOnOpening n.val).core n.val = { s.core n.val with regions := startRamp r i } := by
        rw [hs, (endOpening_settle _ _ _ _).core]
        exact State.core_setCore_same _ _ _
      have gone (j : Nat) : bit (startRamp r i).requested j = (bit r.requested j && decide (j ≠ i)) := bit_putBit_false _ _ _
      refine ⟨_, rfl, ?_, fun j hj => ?_, ?_, ?_, ?_, ?_⟩ <;> rw [hc]
      · simp [gone]
      · simp [gone, hj]
      all_goals rfl
    · have hs : s.switchOnOpening n.val = s.endOpening (ringKey 2 n.val) .switchOn false := by
        have hb : setBits (startable (s.core n.val).regions) = [] := by rw [none]; decide
        unfold State.switchOnOpening
        dsimp only
        rw [settled, ho]
        dsimp only
        rw [hb]
      refine ⟨_, rfl, ?_, ?_⟩ <;> rw [hs]
      · rw [(endOpening_settle _ _ _ _).core]
      · exact (endOpening_counts _ _ _).1
  · intro r
    obtain ⟨hc, -⟩ := onCore_unit (f := fun l => l.rampEnd.pump) up
    obtain ⟨requested, offs, m, hr⟩ := pump_regions (rampEnd_noOffs (l := s.localOf n.val) (noOffs_of_pending hp))
    obtain ⟨ha, ht, hv, hg⟩ := endRamp_regions r
    refine ⟨_, rfl, ?_, ?_, ?_, ?_⟩ <;> rw [hc, hr]
    · exact ha
    · exact ht
    · exact hv
    · exact hg

end Sys2Proof.Proofs
end

section
/-!
PROOF. Refreshes that fall due and those that refresh openings and owner slots pay (R53, R225, R227, R256).
-/

namespace Sys2Proof.Machine

/-! ## A column's merge buffer -/

/-- What leaves the merge buffer changes of a column its words, its banks' power, and what reads and writes count. -/
structure EvictKeeps (c c' : Column) : Prop where
  eq : c' = { c with merge := c'.merge, banksOff := c'.banksOff, wakes := c'.wakes, faults := c'.faults, capture := c'.capture,
                     corrected := c'.corrected, uncorrectable := c'.uncorrectable, lastWord := c'.lastWord,
                     lastSyndrome := c'.lastSyndrome, merged := c'.merged, rmw := c'.rmw }

namespace EvictKeeps

theorem refl (c : Column) : EvictKeeps c c := ⟨rfl⟩

theorem trans {a b c : Column} (h : EvictKeeps a b) (g : EvictKeeps b c) : EvictKeeps a c := ⟨by rw [g.eq, h.eq]⟩

theorem debt {c c' : Column} (h : EvictKeeps c c') : c'.debt = c.debt := by rw [h.eq]
theorem counts {c c' : Column} (h : EvictKeeps c c') : c'.counts = c.counts := by rw [h.eq]
theorem ctrl {c c' : Column} (h : EvictKeeps c c') : c'.ctrl = c.ctrl := by rw [h.eq]
theorem ctrlNow {c c' : Column} (h : EvictKeeps c c') : c'.ctrlNow = c.ctrlNow := by rw [h.eq]

end EvictKeeps

theorem Column.wake_evicts (c : Column) (u : Nat) : EvictKeeps c (c.wake u) := by
  unfold Column.wake
  split <;> exact ⟨rfl⟩

theorem Column.setFault_evicts (c : Column) (u : Nat) (f : WordFault) : EvictKeeps c (c.setFault u f) := by
  unfold Column.setFault
  split <;> exact ⟨rfl⟩

theorem Column.captureRow_evicts (c : Column) (u : Nat) : EvictKeeps c (c.captureRow u) := by
  unfold Column.captureRow
  dsimp only
  split <;> exact ⟨rfl⟩

theorem Column.noteRead_evicts (c : Column) (s : ColSite) (u reader : Nat) : EvictKeeps c (c.noteRead s u reader).1 := by
  unfold Column.noteRead
  split
  · exact .refl _
  · exact (c.captureRow_evicts u).trans ⟨rfl⟩
  · exact (c.captureRow_evicts u).trans ⟨rfl⟩

theorem Column.evict_evicts (c : Column) (s : ColSite) (u : Nat) (mask : BitVec 64) : EvictKeeps c (c.evict s u mask).1 := by
  have woken := c.wake_evicts u
  unfold Column.evict
  dsimp only
  split
  · exact (woken.trans (Column.setFault_evicts _ _ _)).trans ⟨rfl⟩
  · have read := woken.trans (Column.noteRead_evicts _ s u 4)
    split
    · exact (read.trans (Column.setFault_evicts _ _ _)).trans ⟨rfl⟩
    · exact (read.trans (Column.setFault_evicts _ _ _)).trans ⟨rfl⟩

theorem evictAll_evicts (c : Column) (s : ColSite) (es : List (Nat × BitVec 64)) : EvictKeeps c (evictAll c s es).1 := by
  induction es generalizing c with
  | nil => exact .refl _
  | cons e r ih => exact (c.evict_evicts s e.1 e.2).trans (ih _)

theorem Column.drain_evicts (c : Column) (s : ColSite) : EvictKeeps c (c.drain s).1 := by
  unfold Column.drain
  exact EvictKeeps.trans ⟨rfl⟩ (evictAll_evicts _ _ _)

/-! ## A ring's debt -/

theorem State.debtOf_congr {s t : State} (hm : t.map = s.map) (hc : t.columns = s.columns) (hf : t.cuffs = s.cuffs) (key : Nat) :
    t.debtOf key = s.debtOf key := by
  unfold State.debtOf State.ringColumn State.columnOf State.entry State.column State.chan State.cuff
  rw [hm, hc, hf]

theorem State.debtOf_column {s : State} {key : Nat} (h : ringClass key = 2) : s.debtOf key = (s.column (s.ringColumn key)).debt := by
  unfold State.debtOf
  rw [h]
  rfl

theorem State.debtOf_channel {s : State} {key : Nat} (h : ringClass key = 5) :
    s.debtOf key = (s.chan (ringInst key / 20) (ringInst key % 20)).debt := by
  unfold State.debtOf
  rw [h]
  rfl

theorem State.chan_updChan (s : State) (k slot : Nat) (f : Channel → Channel) :
    (s.updChan k slot f).chan k slot = if slot < (s.cuff k).channels.length then f (s.chan k slot) else s.chan k slot := by
  unfold State.updChan State.updCuff State.chan Cuff.updChan
  rw [State.cuff_setCuff_same]
  dsimp only
  rw [modifyNth_eq, List.getElem?_modify_eq]
  split
  · next h => rw [List.getElem?_eq_getElem h]; rfl
  · next h => rw [List.getElem?_eq_none (Nat.le_of_not_lt h)]; rfl

/-- No retraining sequence runs in the Cuff of a channel's ring. -/
def Calm (key : Nat) (s : State) : Prop := ringClass key = 5 → (s.cuff (ringInst key / 20)).seq = none

/-- The step starts no retraining sequence and adds nothing to the debt of the ring. -/
def DebtFalls (key : Nat) (s t : State) : Prop := Calm key s → Calm key t ∧ t.debtOf key ≤ s.debtOf key

theorem DebtFalls.refl (key : Nat) (s : State) : DebtFalls key s s := fun h => ⟨h, Nat.le_refl _⟩

theorem DebtFalls.trans {key : Nat} {s t u : State} (h : DebtFalls key s t) (g : DebtFalls key t u) : DebtFalls key s u := fun calm => by
  obtain ⟨ht, h1⟩ := h calm
  obtain ⟨hu, h2⟩ := g ht
  exact ⟨hu, h2.trans h1⟩

theorem DebtFalls.ofRings {key : Nat} {s t : State} (h : t = { s with rings := t.rings }) : DebtFalls key s t := fun calm => by
  have hc : t.cuffs = s.cuffs := by rw [h]
  refine ⟨fun k => ?_, (State.debtOf_congr (by rw [h]) (by rw [h]) hc key).le⟩
  rw [State.cuff, hc]
  exact calm k

theorem updRing_falls (key : Nat) (s : State) (f : Ring → Ring) : DebtFalls key s (s.updRing key f) := .ofRings rfl

/-- One refresh paid, for a column or for a channel. -/
theorem State.pay_debt (s : State) (key : Nat) (g : Column → Nat) (p : Channel → Nat) :
    (ringClass key = 2 → (s.setColumn (s.ringColumn key) ((s.column (s.ringColumn key)).pay (g (s.column (s.ringColumn key))))).debtOf key =
      s.debtOf key - 1) ∧
    (ringClass key = 5 → (s.updChan (ringInst key / 20) (ringInst key % 20) fun c => c.pay (p c)).debtOf key = s.debtOf key - 1) := by
  refine ⟨fun h => ?_, fun h => ?_⟩
  · rw [State.debtOf_column h, State.debtOf_column h]
    show ((s.setColumn (s.ringColumn key) _).column (s.ringColumn key)).debt = _
    rw [State.column_setColumn_same]
    rfl
  · rw [State.debtOf_channel h, State.debtOf_channel h, State.chan_updChan]
    split
    · rfl
    · next hl =>
      have : s.chan (ringInst key / 20) (ringInst key % 20) = Channel.reset (ringInst key % 20) := by
        rw [State.chan, List.getElem?_eq_none (Nat.le_of_not_lt hl)]
        rfl
      rw [this]
      rfl

theorem updChan_calm {key : Nat} {s : State} (k slot : Nat) (f : Channel → Channel) (h : Calm key s) : Calm key (s.updChan k slot f) := fun hk => by
  unfold State.updChan State.updCuff
  by_cases hc : ringInst key / 20 = k
  · rw [← hc, State.cuff_setCuff_same]
    exact h hk
  · rw [State.cuff_setCuff, if_neg hc]
    exact h hk

theorem payRefresh_falls (key : Nat) (s : State) : DebtFalls key s (s.payRefresh key) := fun calm => by
  obtain ⟨col, chan⟩ := s.pay_debt key (fun c => leastIndex c.counts) (fun c => leastIndex c.pairCounts)
  unfold State.payRefresh
  split
  · next h => exact ⟨calm, (col h).le.trans (Nat.sub_le _ _)⟩
  · next h => exact ⟨updChan_calm _ _ _ calm, (chan h).le.trans (Nat.sub_le _ _)⟩
  · exact ⟨calm, Nat.le_refl _⟩

/-- A ring that moves on, with no retraining sequence in its Cuff, leaves every channel, and the refreshes of its column. -/
theorem moveRing_debt {key : Nat} {s : State} (r : Ring) (calm : Calm key s) :
    Calm key (s.moveRing key r) ∧ (s.moveRing key r).debtOf key = s.debtOf key := by
  have drained : Calm key (s.drainRing key) ∧ (s.drainRing key).debtOf key = s.debtOf key := by
    unfold State.drainRing
    split
    · next h =>
      refine ⟨fun k => absurd (h.symm.trans k) (by decide), ?_⟩
      have hcol : (s.onColumn (s.ringColumn key) Column.drain).ringColumn key = s.ringColumn key := by
        unfold State.onColumn State.ringColumn State.columnOf State.entry
        rw [State.fileAll_only]
        rfl
      rw [State.debtOf_column h, State.debtOf_column h, hcol]
      unfold State.onColumn State.column
      rw [State.fileAll_only]
      show ((s.setColumn _ _).column _).debt = _
      rw [State.column_setColumn_same]
      exact (Column.drain_evicts _ _).debt
    · exact ⟨calm, rfl⟩
  have only (x : State) : Calm key x → Calm key ((x.alternate key).setRing key r) ∧ ((x.alternate key).setRing key r).debtOf key = x.debtOf key := by
    intro hx
    unfold State.alternate
    dsimp only
    generalize (if (x.seam (ringInst key / 2)).state = .retired then siblingPort (ringInst key / 2) else ringInst key / 2) = live
    split <;> exact ⟨hx, rfl⟩
  obtain ⟨c1, d1⟩ := drained
  obtain ⟨c2, d2⟩ := only _ c1
  unfold State.moveRing
  dsimp only
  split
  · split
    · next h5 =>
      have still : (((s.drainRing key).alternate key).setRing key r).seqBoundary (ringInst key / 20) (ringInst key % 20) =
          ((s.drainRing key).alternate key).setRing key r := by
        unfold State.seqBoundary
        rw [c2 h5]
      rw [still]
      exact ⟨c2, d2.trans d1⟩
    · exact ⟨c2, d2.trans d1⟩
  · exact ⟨calm, rfl⟩

theorem moveRing_falls (key : Nat) (s : State) (r : Ring) : DebtFalls key s (s.moveRing key r) := fun calm => by
  obtain ⟨hc, hd⟩ := moveRing_debt r calm
  exact ⟨hc, hd.le⟩

theorem beginSlot_falls (key : Nat) (s : State) : DebtFalls key s (s.beginSlot key) := by
  unfold State.beginSlot
  split
  · exact .refl _ _
  · split
    · exact (payRefresh_falls key s).trans (updRing_falls _ _ _)
    · exact updRing_falls _ _ _

theorem payWaiting_falls (key owner : Nat) (s : State) : DebtFalls key s (s.payWaiting key owner) := by
  have paid : DebtFalls key s (if (s.ring key).paid || s.debtOf key == 0 then s
      else (s.payRefresh key).updRing key fun r => { r with paid := true }) := by
    split
    · exact .refl _ _
    · exact (payRefresh_falls key s).trans (updRing_falls _ _ _)
  unfold State.payWaiting
  split
  · exact .refl _ _
  · dsimp only
    by_cases h : ringClass key = 5 ∧ (!(s.ring key).copied) = true ∧ (s.copying (ringInst key / 20) (ringInst key % 20)).isSome = true
    · intro calm
      obtain ⟨h5, -, hcopy⟩ := h
      rw [State.copying, calm h5] at hcopy
      exact absurd hcopy nofun
    · rw [if_neg h]
      exact paid

theorem settle_falls (key fuel : Nat) (s : State) : DebtFalls key s (s.settle fuel key) := by
  induction fuel generalizing s with
  | zero => exact .refl _ _
  | succ k ih =>
    unfold State.settle
    split
    · split
      · dsimp only
        split
        · exact ((beginSlot_falls key s).trans (moveRing_falls key _ _)).trans (ih _)
        · exact (beginSlot_falls key s).trans (payWaiting_falls key _ _)
      · exact .refl _ _
    · exact .refl _ _

theorem endOpening_falls (key : Nat) (s : State) (k : SlotKind) (used : Bool) : DebtFalls key s (s.endOpening key k used) :=
  (moveRing_falls key s _).trans (settle_falls key _ _)

/-- The slot that a ring comes to. -/
theorem endSlot_current {r : Ring} {key : Nat} (now : Nat) (h : r.opensNext key) : ∀ x, (r.endSlot key now).current key = some x → x.kind ≠ .owner := by
  intro x hx
  unfold Ring.endSlot at hx
  split at hx
  · have hx' : (if r.atEnd = true then none else (r.slots key)[r.slot + 1]?) = some x := hx
    split at hx'
    · exact absurd hx' nofun
    · exact h x hx'
  · exact absurd hx nofun

/-- A ring that an opening follows stops there. -/
theorem endOpening_opensNext {s : State} {key : Nat} (k : SlotKind) (used : Bool) (h : (s.ring key).opensNext key) :
    s.endOpening key k used = s.moveRing key ((s.ring key).endOpening key s.now k used) := by
  refine settleRing_of_opening fun x hx => ?_
  rw [State.slotOf, moveRing_ring, if_pos rfl] at hx
  refine endSlot_current (r := (s.ring key).countOpening k used) s.now ?_ x hx
  unfold Ring.countOpening
  dsimp only
  split <;> exact h

theorem endOpening_used (r : Ring) (key now : Nat) (k : SlotKind) :
    mapGet 0 (r.endOpening key now k true).usedCounts (kindCode k) = wrapAdd (mapGet 0 r.usedCounts (kindCode k)) 1 := by
  unfold Ring.endOpening Ring.endSlot
  split <;> exact mapGet_mapPut_same _ _ _ _

/-! ## Refreshes that fall due -/

theorem Column.payAll_debt (c : Column) : c.payAll.debt = 0 := by
  have h (n : Nat) : ((List.range n).foldl (fun (a : Column) _ => a.pay a.nextGroup) c).debt = c.debt - n := by
    induction n with
    | zero => rfl
    | succ n ih =>
      rw [List.range_succ, List.foldl_append]
      show _ - 1 = _
      rw [ih]
      omega
  rw [Column.payAll, h]
  omega

theorem payDue_of_opening {s : State} {key : Nat} (h : ∀ x, s.slotOf key = some x → x.kind ≠ .owner) : s.payDue key = s := by
  unfold State.payDue
  split
  · next slot hs => exact if_neg fun hk => h slot hs hk.1
  · rfl

end Sys2Proof.Machine

namespace Sys2Proof.Proofs

open Sys2Proof Sys2Proof.Machine

/-- Settles O33: paid refreshes leave the debt of their own resource alone, and a ring that stands at an opening pays nothing by itself. -/
theorem refreshDebt : Obligations.RefreshDebt := by
  unfold Obligations.RefreshDebt
  refine ⟨fun cls inst s slot => ?_, fun col k slot n s => ?_⟩
  · intro key hcls hi calm' ho
    have hkey : ringClass key = cls := ringClass_ringKey cls hi
    have hinst : ringInst key = inst := ringInst_ringKey cls hi
    have settled := settleRing_openingAt ho nofun
    have calm : Calm key s := fun h => by
      rw [hinst]
      exact calm' (hkey.symm.trans h)
    refine ⟨fun debt => ?_, fun none => ?_⟩
    · obtain ⟨paid, hs, calmP, dP, ringsP⟩ : ∃ paid, s.refreshOpening cls inst = paid.endOpening key .refresh true ∧ Calm key paid ∧
          paid.debtOf key = s.debtOf key - 1 ∧ paid.rings = s.rings := by
        obtain ⟨colDebt, chanDebt⟩ := s.pay_debt key (fun c => refreshTarget c.counts slot.owner) (fun c => refreshTarget c.pairCounts slot.owner)
        unfold State.refreshOpening
        rw [show ringKey cls inst = key from rfl]
        dsimp only
        rw [settled, ho]
        dsimp only
        rw [if_neg (by omega)]
        rcases hcls with rfl | rfl
        · exact ⟨_, rfl, calm, colDebt hkey, rfl⟩
        · rw [hinst] at chanDebt
          exact ⟨_, rfl, updChan_calm _ _ _ calm, chanDebt hkey, rfl⟩
      obtain ⟨-, falls⟩ := endOpening_falls key paid .refresh true calmP
      refine ⟨_, rfl, ?_, fun next => ?_⟩ <;> rw [hs]
      · omega
      · rw [← State.ring_congr ringsP] at next ⊢
        rw [endOpening_opensNext _ _ next, moveRing_ring, if_pos rfl, (moveRing_debt _ calmP).2]
        exact ⟨by omega, endOpening_used _ _ _ _⟩
    · have hs : s.refreshOpening cls inst = s.endOpening key .refresh false := by
        unfold State.refreshOpening
        rw [show ringKey cls inst = key from rfl]
        dsimp only
        rw [settled, ho]
        dsimp only
        rw [if_pos none]
      obtain ⟨-, falls⟩ := endOpening_falls key s .refresh false calm
      refine ⟨_, rfl, ?_, ?_⟩ <;> rw [hs]
      · omega
      · exact (endOpening_counts _ _ _).1
  · intro key
    refine ⟨fun powered => ⟨fun selfs => ?_, fun served owner ho => ?_⟩, fun hs hl mapped runs ho => ?_⟩
    · have ht : s.pocketDue col.val = s.setColumn col.val ({ s.column col.val with debt := (s.column col.val).debt + 1 } : Column).payAll := by
        unfold State.pocketDue
        simp [powered, selfs]
      refine ⟨s.pocketDue col.val, rfl, ?_, fun none => ?_⟩ <;> rw [ht, State.column_setColumn_same]
      · exact Column.payAll_debt _
      · rw [none]
        rfl
    · have ht : s.pocketDue col.val = s.setColumn col.val { s.column col.val with debt := (s.column col.val).debt + 1 } := by
        unfold State.pocketDue
        simp only [powered, served, owner, Bool.not_true, Bool.false_eq_true, if_false]
        rw [settleRing_of_opening ho]
        exact payDue_of_opening ho
      refine ⟨s.pocketDue col.val, rfl, ?_, ?_⟩ <;> rw [ht, State.column_setColumn_same]
    · have ht : s.cuffDue k.val slot.val = s.updChan k.val slot.val Channel.refreshDue := by
        unfold State.cuffDue
        dsimp only
        rw [if_neg (by omega), if_neg (by simp [mapped, key, runs]), settleRing_of_opening ho]
        exact payDue_of_opening ho
      refine ⟨s.cuffDue k.val slot.val, rfl, ?_⟩
      rw [ht, State.chan_updChan, if_pos hl]
      rfl

end Sys2Proof.Proofs
end

section
/-!
PROOF. Scrub openings, and the error log's openings (R229, R364, R369 to R371). What a scrub step does to a column or to a channel's units
changes Cuffs, columns, the capacity tier, the log and the generation count alone, as a slot that ends does.
-/

namespace Sys2Proof.Machine

/-! ## The capacity tier's accesses -/

theorem updCuff_settle (s : State) (k : Nat) (f : Cuff → Cuff) : SettleKeeps s (s.updCuff k f) := ⟨rfl⟩

theorem setFault_settle (s : State) (a : Nat) (f : CapFault) : SettleKeeps s (s.setFault a f) := ⟨rfl⟩

theorem clearFault_settle (s : State) (a : Nat) : SettleKeeps s (s.clearFault a) := ⟨rfl⟩

theorem transferred_settle (s : State) (a : Nat) : SettleKeeps s (s.transferred a) := by
  unfold State.transferred
  split
  · exact .refl s
  · exact .ite ⟨rfl⟩ ⟨rfl⟩

theorem capFound_settle (s : State) (a : Nat) (f : CapFault) : SettleKeeps s (s.capFound a f) := by
  have noted (x : State) (k n cls b aux : Nat) (h : SettleKeeps s x) : SettleKeeps s (x.cuffNote k cls n b aux) := h.trans (cuffNote_settle _ _ _ _ _ _)
  unfold State.capFound
  exact .ite (noted _ _ _ _ _ _ ⟨rfl⟩) (.ite (noted _ _ _ _ _ _ ⟨rfl⟩) ⟨rfl⟩)

theorem capRead_settle (s : State) (a : Nat) : SettleKeeps s (s.capRead a) := by
  unfold State.capRead
  refine .ite ((updChan_settle s _ _ _).trans (cuffNote_settle _ _ _ _ _ _)) ?_
  split
  · exact transferred_settle s a
  · exact (transferred_settle s a).trans (capFound_settle _ _ _)

theorem markRow_settle (s : State) (a : Nat) : SettleKeeps s (s.markRow a) := by
  unfold State.markRow
  dsimp only
  split
  · exact .ite ⟨rfl⟩ (.refl s)
  · exact .refl s

theorem retrainTrigger_settle (s : State) (k slot : Nat) (drift : Bool) : SettleKeeps s (s.retrainTrigger k slot drift) := by
  unfold State.retrainTrigger
  exact .ite ⟨rfl⟩ (.refl s)

/-! ## A scrub step -/

theorem capVerifyFails_settle (s : State) (a : Nat) (syn : BitVec 16) (n : ScrubCounts) : SettleKeeps s (s.capVerifyFails a syn n).1 :=
  ((updChan_settle s _ _ _).trans (cuffNote_settle _ _ _ _ _ _)).trans (retrainTrigger_settle _ _ _ _)

theorem capScrubUnit_settle (s : State) (a : Nat) (n : ScrubCounts) : SettleKeeps s (s.capScrubUnit a n).1 := by
  have read := capRead_settle s a
  have again (bad : Bool) : SettleKeeps s ((if bad then (s.capRead a).setFault a .poison else (s.capRead a).clearFault a).markRow a) :=
    (SettleKeeps.ite (read.trans (setFault_settle _ _ _)) (read.trans (clearFault_settle _ _))).trans (markRow_settle _ _)
  unfold State.capScrubUnit
  dsimp only
  split
  · exact (read.trans ⟨rfl⟩).trans (capVerifyFails_settle _ _ _ _)
  · split
    · exact read
    · split
      · exact (again _).trans (capVerifyFails_settle _ _ _ _)
      · exact again _

theorem capScrubRow_settle (s : State) (inst row : Nat) (n : ScrubCounts) : SettleKeeps s (s.capScrubRow inst row n).1 := by
  have fold (l : List Nat) (f : Nat → Nat) (a : State × ScrubCounts) (h : SettleKeeps s a.1) :
      SettleKeeps s (l.foldl (fun (a : State × ScrubCounts) c => a.1.capScrubUnit (f c) a.2) a).1 := by
    induction l generalizing a with
    | nil => exact h
    | cons c r ih => exact ih _ (h.trans (capScrubUnit_settle _ _ _))
  exact fold _ _ (s, n) (.refl s)

theorem changedBy_settle (s : State) (k : Nat) : SettleKeeps s (s.changedBy k) := ⟨rfl⟩

theorem setColumn_settle (s : State) (k : Nat) (c : Column) : SettleKeeps s (s.setColumn k c) := ⟨rfl⟩

/-- The state and the counts after a step of a pass on a ring. -/
def State.scrubStep (s : State) (cls inst key step : Nat) : State × ScrubCounts :=
  if cls = 2 then
    let k := s.ringColumn key
    let r := (s.column k).scrubWords 32 (s.colSite k) (32 * step) ScrubCounts.zero
    let s1 := (s.setColumn k r.1.1).fileAll r.1.2
    (s1.changedBy (r.1.1.changes (s.column k)), r.2)
  else s.capScrubRow inst step ScrubCounts.zero

theorem scrubStep_settle (s : State) (cls inst key step : Nat) : SettleKeeps s (s.scrubStep cls inst key step).1 := by
  unfold State.scrubStep
  split
  · exact ((setColumn_settle s _ _).trans (fileAll_settle _ _)).trans (changedBy_settle _ _)
  · exact capScrubRow_settle _ _ _ _

theorem SettleKeeps.scrubs {s t : State} (h : SettleKeeps s t) : t.scrubs = s.scrubs := by rw [h.eq]
theorem SettleKeeps.out {s t : State} (h : SettleKeeps s t) : t.out = s.out := by rw [h.eq]

/-- A scrub opening for which no mirror copies. -/
theorem scrubOpening_at {s : State} {cls inst : Nat} {slot : RingSlot} (h : s.openingAt (ringKey cls inst) .scrub = some slot)
    (hc : cls = 5 → s.copying (inst / 20) (inst % 20) = none) :
    s.scrubOpening cls inst = match s.passOf (ringKey cls inst) with
      | none => s.endOpening (ringKey cls inst) .scrub false
      | some (i, p) =>
        let a := s.scrubStep cls inst (ringKey cls inst) (((p.parts.find? fun x => x.ring == ringKey cls inst).map (·.next)).getD 0)
        ({ a.1 with scrubs := modifyNth a.1.scrubs i fun p => p.add (ringKey cls inst) s.now a.2 } : State).endOpening
          (ringKey cls inst) .scrub true := by
  have copies : (if cls = 5 then s.copying (inst / 20) (inst % 20) else none) = none := by
    split
    · next h5 => exact hc h5
    · rfl
  unfold State.scrubOpening
  dsimp only
  rw [settleRing_openingAt h nofun, h, copies]
  rfl

theorem passOf_some {s : State} {key i : Nat} {p : ScrubPass} (h : s.passOf key = some (i, p)) : s.scrubs[i]? = some p := by
  unfold State.passOf at h
  obtain ⟨e, he, hip⟩ := Option.map_eq_some_iff.mp h
  have hm := List.mem_of_find?_eq_some he
  rw [List.mem_zipIdx_iff_getElem?] at hm
  cases hip
  exact hm

/-! ## The log's openings -/

theorem payRefresh_log (s : State) (key : Nat) : (s.payRefresh key).log = s.log := by
  unfold State.payRefresh
  split <;> rfl

theorem beginSlot_log (s : State) (key : Nat) : (s.beginSlot key).log = s.log := by
  unfold State.beginSlot
  split
  · rfl
  · split
    · exact payRefresh_log s key
    · rfl

theorem payWaiting_log (s : State) (key owner : Nat) : (s.payWaiting key owner).log = s.log := by
  have paid : (if (s.ring key).paid || s.debtOf key == 0 then s
      else (s.payRefresh key).updRing key fun r => { r with paid := true }).log = s.log := by
    split
    · rfl
    · exact payRefresh_log s key
  unfold State.payWaiting
  split
  · rfl
  · dsimp only
    generalize (if (s.ring key).paid || s.debtOf key == 0 then s
      else (s.payRefresh key).updRing key fun r => { r with paid := true }) = x at paid ⊢
    split <;> exact paid

/-- A ring that orders no memory files nothing as it moves on. -/
theorem moveRing_log {key : Nat} (s : State) (r : Ring) (h2 : ringClass key ≠ 2) (h5 : ringClass key ≠ 5) : (s.moveRing key r).log = s.log := by
  have turned (x : State) : (x.alternate key).log = x.log := by
    unfold State.alternate
    dsimp only
    generalize (if (x.seam (ringInst key / 2)).state = .retired then siblingPort (ringInst key / 2) else ringInst key / 2) = live
    split <;> rfl
  have drained : s.drainRing key = s := if_neg h2
  unfold State.moveRing
  dsimp only
  rw [drained, if_neg h5]
  split
  · exact turned s
  · rfl

theorem settle_log {key : Nat} (fuel : Nat) (s : State) (h2 : ringClass key ≠ 2) (h5 : ringClass key ≠ 5) : (s.settle fuel key).log = s.log := by
  induction fuel generalizing s with
  | zero => rfl
  | succ k ih =>
    unfold State.settle
    split
    · split
      · dsimp only
        split
        · exact (ih _).trans ((moveRing_log _ _ h2 h5).trans (beginSlot_log s key))
        · exact (payWaiting_log _ _ _).trans (beginSlot_log s key)
      · rfl
    · rfl

theorem endOpening_log {key : Nat} (s : State) (k : SlotKind) (used : Bool) (h2 : ringClass key ≠ 2) (h5 : ringClass key ≠ 5) :
    (s.endOpening key k used).log = s.log :=
  (settle_log _ _ h2 h5).trans (moveRing_log s _ h2 h5)

theorem moveRecords_writes (s : State) (g units : Nat) : (s.moveRecords g units).1.log.writes =
    s.log.writes ++ (s.logSource g).queue.take (min units (min (logReady g (s.logSource g)) (512 - s.log.writes.length))) := by
  unfold State.moveRecords
  dsimp only
  split
  · next h =>
    rw [h]
    exact (List.append_nil _).symm
  · rfl

theorem recordBytes_length (r : ErrRecord) (phase : Bool) : (recordBytes r phase).length = 32 := by
  simp [recordBytes, leBytes_length]

/-- Bytes written to a memory, read back at any address. -/
theorem memGet_memWrite_at (m : List Host.Cell) (a x : Nat) (bs : List Byte) :
    memGet (memWrite m a bs) x = if a ≤ x ∧ x < a + bs.length then bs.getD (x - a) 0 else memGet m x := by
  split
  · next h =>
    obtain ⟨i, rfl⟩ := Nat.exists_eq_add_of_le h.1
    have hi : i < bs.length := by omega
    rw [memGet_memWrite_in _ _ _ _ hi, Nat.add_sub_cancel_left, List.getD_eq_getElem?_getD, List.getElem?_eq_getElem hi]
    rfl
  · next h => exact memGet_memWrite_out _ _ _ _ (by omega)

/-- The state once the one record that waits has gone to the host. -/
theorem writeLog_one {s : State} {r : ErrRecord} {k : Nat} (hw : s.log.writes = [r]) (on : s.log.enabled = true) (room : s.log.hasSpace = true) :
    let l := s.log
    let t := (s.writeLog (k + 2)).1
    t.log.writes = [] ∧ t.log.tail = (l.tail + 1) % l.size ∧ t.log.phase = (if l.tail + 1 = l.size then !l.phase else l.phase) ∧
      t.out.hostMem = memWrite s.out.hostMem (l.base.toNat + 32 * l.tail) (recordBytes r l.phase) ∧
      (logSignals l r = true → msixMasked s.host 64 = false → t.out.msix = 64 :: s.out.msix) := by
  have step : ∃ x : State, x.log.writes = [] ∧ x.log.tail = (s.log.tail + 1) % s.log.size ∧
      x.log.phase = (if s.log.tail + 1 = s.log.size then !s.log.phase else s.log.phase) ∧ x.host = s.host ∧
      x.out.hostMem = memWrite s.out.hostMem (s.log.base.toNat + 32 * s.log.tail) (recordBytes r s.log.phase) ∧ x.out.msix = s.out.msix ∧
      (s.writeLog (k + 2)).1 = ((if logSignals s.log r then x.signal 64 else x).writeLog (k + 1)).1 := by
    have on' : ¬(!s.log.enabled) = true := by simp [on]
    have room' : ¬(!s.log.hasSpace) = true := by simp [room]
    rw [State.writeLog.eq_1 _ _ _ _ hw, if_neg on', if_neg room']
    refine ⟨_, ?_, ?_, ?_, ?_, ?_, ?_, rfl⟩
    all_goals rfl
  obtain ⟨x, xw, xt, xp, xh, xm, xx, h⟩ := step
  have last (y : State) (hy : y.log.writes = []) : (y.writeLog (k + 1)).1 = y := by
    rw [State.writeLog.eq_2]
    intro _ r rest _ hr
    rw [hy] at hr
    cases hr
  intro l t
  have ht : t = if logSignals s.log r then x.signal 64 else x := by
    refine h.trans (last _ ?_)
    split
    · rw [State.signal_only]
      exact xw
    · exact xw
  rw [ht]
  cases hs : logSignals s.log r with
  | false => exact ⟨xw, xt, xp, xm, nofun⟩
  | true =>
    rw [if_pos rfl]
    refine ⟨?_, ?_, ?_, ?_, fun _ clear => ?_⟩
    · rw [State.signal_only]; exact xw
    · rw [State.signal_only]; exact xt
    · rw [State.signal_only]; exact xp
    · rw [State.signal_only]; exact xm
    · unfold State.signal
      rw [xh, clear]
      exact congrArg (64 :: ·) xx

/-- A log that is off or full takes nothing. -/
theorem writeLog_none {s : State} (fuel : Nat) (h : s.log.enabled = false ∨ s.log.hasSpace = false) :
    (s.writeLog fuel).1.log.writes = s.log.writes ∧ (s.writeLog fuel).1.log.tail = s.log.tail ∧ (s.writeLog fuel).1.out = s.out := by
  unfold State.writeLog
  split
  · next r rest hw =>
    dsimp only
    split
    · exact ⟨rfl, rfl, rfl⟩
    · next on =>
      have full : s.log.hasSpace = false := h.resolve_left fun h => on (by rw [h]; rfl)
      rw [full]
      exact ⟨rfl, rfl, rfl⟩
  · exact ⟨rfl, rfl, rfl⟩

end Sys2Proof.Machine

namespace Sys2Proof.Proofs

open Sys2Proof Sys2Proof.Machine

/-- Settles O35: no slot passes before or after an opening that touches the passes or the log's queue. -/
theorem scrubAndLogOpenings : Obligations.ScrubAndLogOpenings := by
  unfold Obligations.ScrubAndLogOpenings
  intro cls inst i s slot p key g src l
  refine ⟨fun ho hc => ⟨fun hp hcls => ?_, fun none => ?_⟩, fun ho => ?_⟩
  · have hs := scrubOpening_at ho hc
    rw [show ringKey cls inst = key from rfl, hp] at hs
    have kept := (scrubStep_settle s cls inst key (((p.parts.find? fun x => x.ring == key).map (·.next)).getD 0)).scrubs
    refine ⟨_, p.add key s.now (s.scrubStep cls inst key (((p.parts.find? fun x => x.ring == key).map (·.next)).getD 0)).2, rfl, ?_, rfl, rfl⟩
    rw [hs, (endOpening_settle _ _ _ _).scrubs]
    dsimp only
    rw [kept, modifyNth_eq, List.getElem?_modify_eq, passOf_some hp]
    rfl
  · have hs := scrubOpening_at ho hc
    rw [show ringKey cls inst = key from rfl, none] at hs
    refine ⟨_, rfl, ?_, ?_⟩ <;> rw [hs]
    · exact (endOpening_settle _ _ _ _).scrubs
    · exact (endOpening_counts _ _ _).1
  · have settled := settleRing_openingAt ho nofun
    refine ⟨fun h7 => ?_, fun h4 odd hg crossed => ?_, fun h3 h28 units => ?_⟩
    · subst h7
      have hcls : 7 ≤ ringClass key := by simp only [key, ringKey, ringClass]; omega
      refine ⟨_, rfl, ?_⟩
      unfold State.logOpening
      rw [show ringKey 7 inst = key from rfl]
      dsimp only
      rw [settled, ho]
      dsimp only
      rw [if_pos rfl, endOpening_log _ _ _ (by omega) (by omega)]
      exact moveRecords_writes _ _ _
    · subst h4
      have hcls : ringClass key = 4 := ringClass_ringKey 4 (by omega)
      have hs : ∃ u, s.logOpening 4 inst = (if min (2 * slot.units) (src.queue.length - src.crossed) = 0 then s
          else s.setLogSource g { src with crossed := src.crossed + min (2 * slot.units) (src.queue.length - src.crossed) }).endOpening key .log u := by
        unfold State.logOpening
        rw [show ringKey 4 inst = key from rfl]
        dsimp only
        rw [settled, ho]
        dsimp only
        rw [if_neg (by omega), if_neg (by omega), if_pos rfl]
        exact ⟨_, rfl⟩
      obtain ⟨u, hs⟩ := hs
      have hl : (s.logOpening 4 inst).logSource g = { src with crossed := src.crossed + min (2 * slot.units) (src.queue.length - src.crossed) } := by
        rw [hs, State.logSource, endOpening_log _ _ _ (by omega) (by omega)]
        split
        · next none =>
          rw [none]
          rfl
        · exact mapGet_mapPut_same _ _ _ _
      refine ⟨_, rfl, ?_, ?_⟩ <;> rw [hl]
      dsimp only
      omega
    · subst h3 h28
      have hcls : ringClass key = 3 := ringClass_ringKey 3 (by omega)
      have hs : ∃ u, s.logOpening 3 28 = (s.writeLog (2 * slot.units)).1.endOpening key .log u := by
        unfold State.logOpening
        rw [show ringKey 3 28 = key from rfl]
        dsimp only
        rw [settled, ho]
        exact ⟨_, rfl⟩
      obtain ⟨u, hs⟩ := hs
      have log := endOpening_log (key := key) (s.writeLog (2 * slot.units)).1 .log u (by omega) (by omega)
      have out := (endOpening_settle (s.writeLog (2 * slot.units)).1 key .log u).out
      refine ⟨fun r hw on room => ?_, fun shut => ?_⟩
      · obtain ⟨n, hn⟩ : ∃ n, 2 * slot.units = n + 2 := ⟨2 * slot.units - 2, by omega⟩
        obtain ⟨tw, tt, tp, tm, tx⟩ := writeLog_one (k := n) hw on room
        rw [← hn] at tw tt tp tm tx
        refine ⟨_, rfl, ?_, ?_, ?_, fun x => ?_, ?_⟩ <;> rw [hs]
        · rw [log, tw]
        · rw [log, tt]
        · rw [log, tp]
        · rw [out, tm, memGet_memWrite_at, recordBytes_length]
        · rw [out]
          exact tx
      · obtain ⟨tw, tt, tm⟩ := writeLog_none (s := s) (2 * slot.units) shut
        refine ⟨_, rfl, ?_, ?_, ?_⟩ <;> rw [hs]
        · rw [log, tw]
        · rw [log, tt]
        · rw [out, tm]

end Sys2Proof.Proofs
end

section
/-!
PROOF. Ring boundaries and stalls (R43, R55, R64, R240).
-/

namespace Sys2Proof.Machine

/-! ## What passing slots leaves of the rings -/

/-- What a ring keeps within a lap. -/
structure SameLap (r r' : Ring) : Prop where
  lap : r'.lap = r.lap
  laps : r'.laps = r.laps
  toOpen : r'.toOpen = r.toOpen
  use : r'.use = r.use

theorem SameLap.refl (r : Ring) : SameLap r r := ⟨rfl, rfl, rfl, rfl⟩

theorem SameLap.trans {a b c : Ring} (h : SameLap a b) (g : SameLap b c) : SameLap a c :=
  ⟨g.lap.trans h.lap, g.laps.trans h.laps, g.toOpen.trans h.toOpen, g.use.trans h.use⟩

/-- The step changes no other ring, and the ring's place in its lap alone. -/
structure WithinLap (key : Nat) (s t : State) : Prop where
  ring : SameLap (s.ring key) (t.ring key)
  others : ∀ k, k ≠ key → t.ring k = s.ring k

theorem WithinLap.refl (key : Nat) (s : State) : WithinLap key s s := ⟨.refl _, fun _ _ => rfl⟩

theorem WithinLap.trans {key : Nat} {s t u : State} (h : WithinLap key s t) (g : WithinLap key t u) : WithinLap key s u :=
  ⟨h.ring.trans g.ring, fun k hk => (g.others k hk).trans (h.others k hk)⟩

theorem WithinLap.ofRings {key : Nat} {s t : State} (h : t.rings = s.rings) : WithinLap key s t :=
  ⟨by rw [State.ring_congr h]; exact .refl _, fun k _ => State.ring_congr h k⟩

theorem updRing_within (key : Nat) (s : State) (f : Ring → Ring) (h : ∀ r, SameLap r (f r)) : WithinLap key s (s.updRing key f) :=
  ⟨by rw [State.updRing, State.ring_setRing_same]; exact h _, fun k hk => by rw [State.updRing, State.ring_setRing, if_neg hk]⟩

theorem endSlot_sameLap (r : Ring) (key now : Nat) : SameLap r (r.endSlot key now) := by
  unfold Ring.endSlot
  split <;> exact ⟨rfl, rfl, rfl, rfl⟩

theorem useUnits_sameLap (r : Ring) (key now units : Nat) (last : Bool) : SameLap r (r.useUnits key now units last) := by
  unfold Ring.useUnits
  split
  · split
    · exact endSlot_sameLap _ _ _
    · exact ⟨rfl, rfl, rfl, rfl⟩
  · exact .refl r

theorem useSlot_within (key : Nat) (s : State) (units : Nat) (last : Bool) : WithinLap key s (s.useSlot key units last) :=
  ⟨by rw [State.useSlot, moveRing_ring, if_pos rfl]; exact useUnits_sameLap _ _ _ _ _,
    fun k hk => by rw [State.useSlot, moveRing_ring, if_neg hk]⟩

theorem beginSlot_within (key : Nat) (s : State) : WithinLap key s (s.beginSlot key) := by
  have paid : WithinLap key s (s.payRefresh key) := .ofRings (payRefresh_rings s key)
  unfold State.beginSlot
  split
  · exact .refl _ _
  · split
    · exact paid.trans (updRing_within key _ _ fun _ => ⟨rfl, rfl, rfl, rfl⟩)
    · exact updRing_within key _ _ fun _ => ⟨rfl, rfl, rfl, rfl⟩

theorem payWaiting_within (key owner : Nat) (s : State) : WithinLap key s (s.payWaiting key owner) := by
  have paid : WithinLap key s (if (s.ring key).paid || s.debtOf key == 0 then s
      else (s.payRefresh key).updRing key fun r => { r with paid := true }) := by
    split
    · exact .refl _ _
    · exact WithinLap.trans (.ofRings (payRefresh_rings s key)) (updRing_within key _ _ fun _ => ⟨rfl, rfl, rfl, rfl⟩)
  unfold State.payWaiting
  split
  · exact .refl _ _
  · dsimp only
    generalize (if (s.ring key).paid || s.debtOf key == 0 then s
      else (s.payRefresh key).updRing key fun r => { r with paid := true }) = x at paid ⊢
    split
    · exact (paid.trans (.ofRings (t := x.copyUnits (ringInst key / 20) 1) rfl)).trans (updRing_within key (x.copyUnits (ringInst key / 20) 1) (fun r => { r with copied := true })
        fun _ => ⟨rfl, rfl, rfl, rfl⟩)
    · exact paid

theorem settle_within (key fuel : Nat) (s : State) : WithinLap key s (s.settle fuel key) := by
  induction fuel generalizing s with
  | zero => exact .refl _ _
  | succ k ih =>
    unfold State.settle
    split
    · split
      · dsimp only
        split
        · exact ((beginSlot_within key s).trans (useSlot_within key _ _ _)).trans (ih _)
        · exact (beginSlot_within key s).trans (payWaiting_within key _ _)
      · exact .refl _ _
    · exact .refl _ _

/-! ## What passing slots leaves of the columns -/

/-- No column's control in effect, and none that waits, changes. -/
def SameCtrl (s t : State) : Prop := ∀ k, (t.column k).ctrl = (s.column k).ctrl ∧ (t.column k).ctrlNow = (s.column k).ctrlNow

theorem SameCtrl.refl (s : State) : SameCtrl s s := fun _ => ⟨rfl, rfl⟩

theorem SameCtrl.trans {s t u : State} (h : SameCtrl s t) (g : SameCtrl t u) : SameCtrl s u := fun k => by
  obtain ⟨h1, h2⟩ := h k
  obtain ⟨g1, g2⟩ := g k
  exact ⟨g1.trans h1, g2.trans h2⟩

theorem SameCtrl.ofColumns {s t : State} (h : t.columns = s.columns) : SameCtrl s t := fun k => by
  unfold State.column
  rw [h]
  exact ⟨rfl, rfl⟩

theorem setColumn_ctrl {s : State} (col : Nat) {c : Column} (h : c.ctrl = (s.column col).ctrl ∧ c.ctrlNow = (s.column col).ctrlNow) :
    SameCtrl s (s.setColumn col c) := fun k => by
  rw [State.column_setColumn]
  split
  · next hk =>
    rw [hk]
    exact h
  · exact ⟨rfl, rfl⟩

theorem payRefresh_ctrl (s : State) (key : Nat) : SameCtrl s (s.payRefresh key) := by
  unfold State.payRefresh
  split
  · exact setColumn_ctrl _ ⟨rfl, rfl⟩
  · exact .ofColumns rfl
  · exact .refl s

theorem fileAll_columns (s : State) (rs : List Report) : (s.fileAll rs).columns = s.columns := by rw [State.fileAll_only]

theorem seqBoundary_columns (s : State) (k slot : Nat) : (s.seqBoundary k slot).columns = s.columns := by
  have noted (x : State) (k n cls b aux : Nat) : (x.cuffNote k cls n b aux).columns = x.columns := by
    unfold State.cuffNote
    rw [State.note_only]
  unfold State.seqBoundary
  split
  · split
    · rfl
    · split
      · split <;> rfl
      · split
        · rfl
        · split
          · rfl
          · exact (noted _ _ _ _ _ _).trans rfl
      · split
        · exact (noted _ _ _ _ _ _).trans rfl
        · rfl
      · rfl
  · rfl

theorem moveRing_ctrl (s : State) (key : Nat) (r : Ring) : SameCtrl s (s.moveRing key r) := by
  have drained : SameCtrl s (s.drainRing key) := by
    unfold State.drainRing
    split
    · have kept := Column.drain_evicts (s.column (s.ringColumn key)) (s.colSite (s.ringColumn key))
      exact SameCtrl.trans (setColumn_ctrl _ ⟨kept.ctrl, kept.ctrlNow⟩) (.ofColumns (fileAll_columns _ _))
    · exact .refl s
  have turned (x : State) : SameCtrl x (x.alternate key) := by
    unfold State.alternate
    dsimp only
    generalize (if (x.seam (ringInst key / 2)).state = .retired then siblingPort (ringInst key / 2) else ringInst key / 2) = live
    split
    · exact .ofColumns rfl
    · exact .refl x
  have moved := (drained.trans (turned _)).trans (SameCtrl.ofColumns (t := ((s.drainRing key).alternate key).setRing key r) rfl)
  unfold State.moveRing
  dsimp only
  split
  · split
    · exact moved.trans (.ofColumns (seqBoundary_columns _ _ _))
    · exact moved
  · exact .ofColumns rfl

theorem beginSlot_ctrl (s : State) (key : Nat) : SameCtrl s (s.beginSlot key) := by
  unfold State.beginSlot
  split
  · exact .refl s
  · split
    · exact (payRefresh_ctrl s key).trans (.ofColumns rfl)
    · exact .ofColumns rfl

theorem payWaiting_ctrl (s : State) (key owner : Nat) : SameCtrl s (s.payWaiting key owner) := by
  have paid : SameCtrl s (if (s.ring key).paid || s.debtOf key == 0 then s
      else (s.payRefresh key).updRing key fun r => { r with paid := true }) := by
    split
    · exact .refl s
    · exact (payRefresh_ctrl s key).trans (.ofColumns rfl)
  unfold State.payWaiting
  split
  · exact .refl s
  · dsimp only
    generalize (if (s.ring key).paid || s.debtOf key == 0 then s
      else (s.payRefresh key).updRing key fun r => { r with paid := true }) = x at paid ⊢
    split
    · exact paid.trans (.ofColumns rfl)
    · exact paid

theorem settle_ctrl (fuel : Nat) (s : State) (key : Nat) : SameCtrl s (s.settle fuel key) := by
  induction fuel generalizing s with
  | zero => exact .refl s
  | succ k ih =>
    unfold State.settle
    split
    · split
      · dsimp only
        split
        · exact ((beginSlot_ctrl s key).trans (moveRing_ctrl _ key _)).trans (ih _)
        · exact (beginSlot_ctrl s key).trans (payWaiting_ctrl _ _ _)
      · exact .refl s
    · exact .refl s

/-! ## The boundary -/

theorem atBoundary_within (key : Nat) (s : State) : WithinLap key s (s.atBoundary key) := by
  have first : WithinLap key s (s.updRing key fun r => { r with coolNow := s.coolExpert }) := updRing_within key s _ fun _ => ⟨rfl, rfl, rfl, rfl⟩
  unfold State.atBoundary
  dsimp only
  generalize (s.updRing key fun r => { r with coolNow := s.coolExpert }) = x at first ⊢
  split
  · split <;> exact first.trans (.ofRings rfl)
  · exact first

/-- At the boundary of a Pocket ring its column's control takes effect. -/
theorem atBoundary_column {key : Nat} {s : State} (h : ringClass key = 2) :
    ((s.atBoundary key).column (s.ringColumn key)).ctrlNow = (s.column (s.ringColumn key)).ctrl := by
  unfold State.atBoundary
  dsimp only
  rw [if_pos h]
  split
  · exact congrArg Column.ctrlNow (State.column_setColumn_same _ _ _)
  · exact congrArg Column.ctrlNow (State.column_setColumn_same _ _ _)

/-- A report's place in the log does not depend on the rings. -/
theorem file_log_setRing (s : State) (key : Nat) (r : Ring) (x : Report) : ((s.setRing key r).file x).log = (s.file x).log := by
  unfold State.file
  dsimp only
  rw [show (s.setRing key r).logSource x.source.toNat = s.logSource x.source.toNat from rfl, show (s.setRing key r).now = s.now from rfl,
    show (s.setRing key r).coalesceNs = s.coalesceNs from rfl]
  split <;> rfl

end Sys2Proof.Machine

namespace Sys2Proof.Proofs

open Sys2Proof Sys2Proof.Machine

/-- Settles O36: a ring at its boundary passes no slot first; the slots that it passes behind it leave its lap and its image. -/
theorem ringLapsAndStalls : Obligations.RingLapsAndStalls := by
  unfold Obligations.RingLapsAndStalls
  refine ⟨fun cls inst s => ?_, fun cls inst s slot => ?_⟩
  · intro key r hi runs free atEnd
    have settled : s.settleRing key = s := settleRing_of_opening fun x hx => by
      rw [State.slotOf, Ring.current, if_pos (show (s.ring key).atEnd = true from atEnd)] at hx
      exact absurd hx nofun
    have ht : s.ringBoundary cls inst =
        ((s.setRing key ({ r with hot := false }.wrap s.now (s.nextImage r))).atBoundary key).settleRing key := by
      unfold State.ringBoundary
      rw [show ringKey cls inst = key from rfl]
      dsimp only
      rw [settled, if_pos (by simp [runs, free, show (s.ring key).atEnd = true from atEnd])]
    generalize hw : ({ r with hot := false } : Ring).wrap s.now (s.nextImage r) = w at ht
    have later := (atBoundary_within key (s.setRing key w)).trans (settle_within key
      (((((s.setRing key w).atBoundary key).ring key).slots key).length + 1) ((s.setRing key w).atBoundary key))
    have hr := later.ring
    rw [State.ring_setRing_same] at hr
    refine ⟨_, rfl, ?_, ?_, ?_, ?_, fun k hk => ?_, fun h2 => ?_⟩ <;> rw [ht]
    · exact hr.lap.trans (by rw [← hw]; rfl)
    · exact hr.laps.trans (by rw [← hw]; rfl)
    · exact hr.toOpen.trans (by rw [← hw]; rfl)
    · exact hr.use.trans (by rw [← hw]; rfl)
    · exact (later.others k hk).trans (by rw [State.ring_setRing, if_neg hk])
    · have hcls : ringClass key = 2 := (ringClass_ringKey cls hi).trans h2
      have hcol : (s.setRing key w).ringColumn key = s.columnOf inst := congrArg s.columnOf (ringInst_ringKey cls hi)
      have now := atBoundary_column (s := s.setRing key w) hcls
      rw [hcol] at now
      exact (settle_ctrl _ _ key _).2.trans now
  · intro key u r turn hs hk
    have ht : s.turnStall cls inst = if r.stalled = false then
        ((u.reach (r.waitSince + u.stallNs + 1)).setRing key { r with stalled := true }).note 0x11 (ringGroup key slot.owner) inst slot.owner
          (cls * 256 + u.stallCause slot.owner) else u := by
      unfold State.turnStall
      rw [show ringKey cls inst = key from rfl]
      dsimp only
      rw [show s.settleRing key = u from rfl, hs]
      dsimp only
      rcases turn with turn | ⟨runs, held⟩
      · simp [hk, show u.ring key = r from rfl, turn]
      · simp [hk, show u.ring key = r from rfl, runs, held]
    have kept : SettleKeeps s u := settleRing_settle s key
    have hnow : u.now = s.now := by
      show u.time.now = s.time.now
      rw [kept.eq]
    have hstall : u.stallNs = s.stallNs := by
      show max 10000 u.yoke.turnStall.toNat = max 10000 s.yoke.turnStall.toNat
      rw [kept.eq]
    refine ⟨fun fresh => ?_, fun stalled => ?_⟩
    · rw [if_pos fresh] at ht
      refine ⟨_, rfl, ?_, ?_, fun m => ?_, ?_⟩ <;> rw [ht]
      · unfold State.note
        rw [State.file_only]
        exact State.ring_setRing_same _ _ _
      · unfold State.note
        rw [State.file_only]
        show max u.now _ = _
        rw [hnow, hstall]
      · unfold State.note
        rw [State.file_only]
        exact kept.core m
      · rw [← hstall]
        exact file_log_setRing _ _ _ _
    · rw [if_neg (by rw [stalled]; nofun)] at ht
      exact congrArg Host.Outcome.next ht

end Sys2Proof.Proofs
end

section
/-!
PROOF. How a Cuff's link, its channels and its packages degrade (R252 to R255, R265).
-/

namespace Sys2Proof.Machine

/-! ## A Cuff's channels -/

@[simp] theorem State.cuff_updCuff (s : State) (k : Nat) (f : Cuff → Cuff) : (s.updCuff k f).cuff k = f (s.cuff k) := State.cuff_setCuff_same _ _ _

theorem State.cuff_congr {s t : State} (h : t.cuffs = s.cuffs) (k : Nat) : t.cuff k = s.cuff k := by
  unfold State.cuff
  rw [h]

theorem State.chan_congr {s t : State} {k : Nat} (h : (t.cuff k).channels = (s.cuff k).channels) (n : Nat) : t.chan k n = s.chan k n := by
  unfold State.chan
  rw [h]

theorem State.chan_updChan_other (s : State) (k : Nat) {slot n : Nat} (f : Channel → Channel) (h : n ≠ slot) :
    (s.updChan k slot f).chan k n = s.chan k n := by
  unfold State.updChan State.chan
  rw [State.cuff_updCuff, Cuff.updChan]
  dsimp only
  rw [modifyNth_eq, List.getElem?_modify_ne _ _ (Ne.symm h)]

theorem State.channels_updChan (s : State) (k slot : Nat) (f : Channel → Channel) :
    ((s.updChan k slot f).cuff k).channels.length = (s.cuff k).channels.length := by
  unfold State.updChan
  rw [State.cuff_updCuff, Cuff.updChan]
  dsimp only
  rw [modifyNth_eq, List.length_modify]

theorem cuffNote_cuff (s : State) (k cls loc detail aux j : Nat) : (s.cuffNote k cls loc detail aux).cuff j = s.cuff j :=
  State.cuff_congr (by unfold State.cuffNote; rw [State.note_only]) j

/-! ## Channels that stop answering -/

/-- What the death of a channel leaves of the Cuff: its width, and every channel but that one. -/
theorem channelDies_cuff (s : State) (k slot : Nat) :
    ((s.channelDies k slot).cuff k).width = (s.cuff k).width ∧
    ((s.channelDies k slot).cuff k).channels.length = (s.cuff k).channels.length ∧
    (∀ n, n ≠ slot → (s.channelDies k slot).chan k n = s.chan k n) ∧
    (slot < 16 → slot < (s.cuff k).channels.length → (s.chan k slot).state ≠ .mappedOut → ((s.channelDies k slot).chan k slot).state = .dead) := by
  unfold State.channelDies
  dsimp only
  split
  · next h =>
    refine ⟨rfl, rfl, fun _ _ => rfl, fun h16 _ mapped => ?_⟩
    rcases h with h | h | h
    · exact h
    · exact absurd h mapped
    · omega
  · generalize hx : s.updChan k slot (fun c => { c with state := .dead }) = x
    have kept (y : State) : (((x.updCuff k fun c => { c with seq := if c.seq.any fun q => q.slot == slot then none else c.seq }).cuffNote
        k 0x36 slot 0 0).changed.cuff k) = { x.cuff k with seq := if (x.cuff k).seq.any fun q => q.slot == slot then none else (x.cuff k).seq } :=
      (cuffNote_cuff _ _ _ _ _ _ _).trans (State.cuff_updCuff _ _ _)
    have chans (n : Nat) : (((x.updCuff k fun c => { c with seq := if c.seq.any fun q => q.slot == slot then none else c.seq }).cuffNote
        k 0x36 slot 0 0).changed).chan k n = x.chan k n := State.chan_congr (by rw [kept x]) n
    refine ⟨?_, ?_, fun n hn => ?_, fun _ hl _ => ?_⟩
    · rw [kept x, ← hx, State.updChan, State.cuff_updCuff]
      rfl
    · rw [kept x, ← hx]
      exact s.channels_updChan _ _ _
    · rw [chans, ← hx]
      exact s.chan_updChan_other _ _ hn
    · rw [chans, ← hx, State.chan_updChan, if_pos hl]

/-- Every channel of a Cuff stops answering. -/
theorem channelsDie_cuff (s : State) (k : Nat) {m : Nat} (hm : m ≤ 16) :
    let t := foldOver (List.range m) (fun t n => t.channelDies k n) s
    (t.cuff k).width = (s.cuff k).width ∧ (t.cuff k).channels.length = (s.cuff k).channels.length ∧
    (∀ n, m ≤ n → t.chan k n = s.chan k n) ∧
    (∀ n, n < m → n < (s.cuff k).channels.length → (s.chan k n).state ≠ .mappedOut → (t.chan k n).state = .dead) := by
  induction m with
  | zero => exact ⟨rfl, rfl, fun _ _ => rfl, fun _ h => absurd h (Nat.not_lt_zero _)⟩
  | succ m ih =>
    obtain ⟨hw, hl, above, below⟩ := ih (by omega)
    intro t
    have ht : t = (foldOver (List.range m) (fun t n => t.channelDies k n) s).channelDies k m := by
      simp only [t, foldOver, List.range_succ, List.foldl_append, List.foldl_cons, List.foldl_nil]
    rw [ht]
    obtain ⟨w', l', others, dies⟩ := channelDies_cuff (foldOver (List.range m) (fun t n => t.channelDies k n) s) k m
    refine ⟨w'.trans hw, l'.trans hl, fun n hn => (others n (by omega)).trans (above n (by omega)), fun n hn hln mapped => ?_⟩
    by_cases hnm : n = m
    · subst hnm
      exact dies (by omega) (hl ▸ hln) (by rw [above n (Nat.le_refl _)]; exact mapped)
    · rw [others n hnm]
      exact below n (by omega) hln mapped

/-! ## What is left of a command at a Cuff that has gone -/

theorem putLocal_cuffs (s : State) (n : Nat) (l : Local) : (s.putLocal n l).cuffs = s.cuffs := by
  unfold State.putLocal
  rw [State.fileAll_only]
  split <;> rfl

theorem nearDone_cuffs (s : State) (core k : Nat) : (s.nearDone core k).cuffs = s.cuffs := by
  unfold State.nearDone
  dsimp only
  split
  · exact putLocal_cuffs _ _ _
  · rfl

theorem nearEnds_cuff (s : State) (k : Nat) (c : NearCommand) (lost : Bool) :
    (s.nearEnds k c lost).cuff k = { s.cuff k with running := none } := State.cuff_updCuff _ _ _

/-- The command that a Cuff gives up leaves its width, and of its channels all but the work in their slots. -/
theorem nearGone_cuff (s : State) (k : Nat) :
    ((s.nearGone k).cuff k).width = (s.cuff k).width ∧ (∀ n, ((s.nearGone k).chan k n).state = (s.chan k n).state) ∧
    ((s.cuff k).width ≠ 0 → s.nearGone k = s) := by
  unfold State.nearGone
  split
  · next run hr =>
    split
    · next gone =>
      have kept := State.cuff_congr (nearDone_cuffs (s.nearAbandon k) run.command.core k) k
      refine ⟨?_, fun n => ?_, fun h => absurd (by simpa [State.cuffGone] using gone) h⟩
      · rw [kept]
        unfold State.nearAbandon
        rw [hr]
        dsimp only
        rw [State.cuff_updCuff, nearEnds_cuff]
      · rw [State.chan_congr (congrArg Cuff.channels kept)]
        unfold State.nearAbandon
        rw [hr]
        unfold State.chan
        dsimp only
        rw [State.cuff_updCuff, nearEnds_cuff]
        dsimp only
        rw [List.getElem?_map]
        cases (s.cuff k).channels[n]? <;> rfl
    · exact ⟨rfl, fun _ => rfl, fun _ => rfl⟩
  · exact ⟨rfl, fun _ => rfl, fun _ => rfl⟩

/-! ## Temperature -/

theorem packageMult_rises (row : Fin 7) (m : BitVec 2) : (tempRow row.val).2.toNat ≤ (packageMult m (tempRow row.val).1).toNat := by
  revert row m
  decide

/-- The samples that a package's reading gives the channel rings leave the Cuffs. -/
theorem coolChannels_cuffs (s : State) (k pkg t : Nat) : (s.coolChannels k pkg t).cuffs = s.cuffs := by
  unfold State.coolChannels
  refine foldOver_rel (R := fun a b : State => b.cuffs = a.cuffs) (fun _ => rfl) (fun _ _ _ h g => Eq.trans g h) (fun u n => ?_) _ s
  split <;> rfl

theorem packageTemp_cuff (s : State) (k pkg : Nat) (row : Option Nat) :
    (s.packageTemp k pkg row).cuff k = { s.cuff k with packages := modifyNth (s.cuff k).packages pkg fun p => p.sense row } := by
  have notes (l : List Nat) (x : State) :
      (foldOver l (fun t n => if (s.chan k n).servedBy pkg then t.cuffNote k 0x37 n 0 106 else t) x).cuffs = x.cuffs := by
    refine foldOver_rel (R := fun a b : State => b.cuffs = a.cuffs) (fun _ => rfl) (fun _ _ _ h g => Eq.trans g h) (fun u n => ?_) _ x
    split
    · unfold State.cuffNote
      rw [State.note_only]
    · rfl
  unfold State.packageTemp
  dsimp only
  split
  · rw [State.cuff_congr (notes _ _), State.cuff_updCuff]
  · exact State.cuff_updCuff _ _ _

end Sys2Proof.Machine

namespace Sys2Proof.Proofs

open Sys2Proof Sys2Proof.Machine

/-- Settles O37: each row of the Cuffs changes its own Cuff by one update. -/
theorem cuffDegrades : Obligations.CuffDegrades := by
  unfold Obligations.CuffDegrades
  refine ⟨fun k s flit bytes crc low high slot => ?_, fun k pkg s p hp => ?_⟩
  · intro c sent
    refine ⟨fun there => ⟨fun some len good => ?_, fun some bad => ?_, fun full pass => ?_, fun full fails => ?_⟩, fun hl alive mapped => ?_⟩
    · have ht : s.linkFlit k.val flit (linkFlitGood bytes crc) =
          s.updCuff k.val fun c => { c with linkSeq := c.linkSeq + 1, replays := 0, retry := sent.drop 1 } := by
        have hg : linkFlitGood bytes crc = true := by simp [linkFlitGood, linkFlitBytes, len, good]
        unfold State.linkFlit
        rw [there, hg, if_neg nofun]
        exact (if_neg (show ¬sent.isEmpty = true by simpa using some)).trans (if_pos rfl)
      exact ⟨_, rfl, (congrArg (State.cuff · k.val) ht).trans (State.cuff_updCuff _ _ _)⟩
    · have ht : s.linkFlit k.val flit (linkFlitGood bytes crc) =
          s.updCuff k.val fun c => { c with linkRetries := satAdd c.linkRetries 1, replays := c.replays + 1, retry := sent } := by
        have hg : linkFlitGood bytes crc = false := by
          rcases bad with bad | bad <;> simp [linkFlitGood, linkFlitBytes, bad]
        unfold State.linkFlit
        rw [there, hg, if_neg nofun]
        exact (if_neg (show ¬sent.isEmpty = true by simpa using some)).trans (if_neg nofun)
      exact ⟨_, rfl, (congrArg (State.cuff · k.val) ht).trans (State.cuff_updCuff _ _ _)⟩
    · have half : (s.laneTest k.val low high).cuff k.val = { c with width := 1, replays := 0 } := by
        unfold State.laneTest State.changedIf
        rw [if_neg (by simpa using full), if_pos pass]
        split
        · exact (cuffNote_cuff _ _ _ _ _ _ _).trans (State.cuff_updCuff _ _ _)
        · exact (cuffNote_cuff _ _ _ _ _ _ _).trans (State.cuff_updCuff _ _ _)
      have still : (s.laneTest k.val low high).nearGone k.val = s.laneTest k.val low high :=
        (nearGone_cuff _ _).2.2 (by rw [half]; exact (by decide : (1 : BitVec 2) ≠ 0))
      refine ⟨(s.laneTest k.val low high).nearGone k.val, ?_, ?_, ?_, ?_⟩
      · show execLinkLaneTest k low high s = _
        rw [execLinkLaneTest, there]
        rfl
      all_goals rw [still, half]
    · obtain ⟨x, hx, lane⟩ : ∃ x : State, x.cuff k.val = { c with width := 0, replays := 0 } ∧
          s.laneTest k.val low high = foldOver (List.range 16) (fun t n => t.channelDies k.val n) x := by
        unfold State.laneTest
        rw [if_neg (by simpa using full), if_neg (by simpa using fails)]
        refine ⟨_, ?_, rfl⟩
        unfold State.changedIf
        split
        · exact (cuffNote_cuff _ _ _ _ _ _ _).trans (State.cuff_updCuff _ _ _)
        · exact (cuffNote_cuff _ _ _ _ _ _ _).trans (State.cuff_updCuff _ _ _)
      obtain ⟨hw, -, -, dead⟩ := channelsDie_cuff x k.val (Nat.le_refl 16)
      obtain ⟨gw, gs, -⟩ := nearGone_cuff (s.laneTest k.val low high) k.val
      refine ⟨(s.laneTest k.val low high).nearGone k.val, ?_, ?_, fun n h16 hn mapped => ?_⟩
      · show execLinkLaneTest k low high s = _
        rw [execLinkLaneTest, there]
        rfl
      · rw [State.cuffGone, gw, lane, hw, hx]
        rfl
      · rw [gs, lane]
        have same : x.chan k.val n = s.chan k.val n := State.chan_congr (by rw [hx]) n
        exact dead n h16 (by rw [hx]; exact hn) (by rw [same]; exact mapped)
    · obtain ⟨-, -, others, dies⟩ := channelDies_cuff s k.val slot.val
      refine ⟨_, rfl, dies slot.isLt hl mapped, ?_, others⟩
      unfold State.channelDies
      rw [if_neg (by simp [alive, mapped, slot.isLt])]
      show wrapAdd (State.cuffNote _ _ _ _ _ _).mgmt.gen 1 = _
      unfold State.cuffNote
      rw [State.note_only]
      rfl
  · intro takes
    have taken (reading : TempField) : ∃ t, exec (.packageTempRead k pkg reading) s = .next t ∧
        t.cuff k.val = { s.cuff k.val with packages := modifyNth (s.cuff k.val).packages pkg.val fun p => p.sense (reading.map (·.val)) } := by
      cases reading with
      | none => exact ⟨_, rfl, packageTemp_cuff _ _ _ _⟩
      | some i => exact ⟨_, rfl, (State.cuff_congr (coolChannels_cuffs _ _ _ _) _).trans (packageTemp_cuff _ _ _ _)⟩
    have takes_of (reading : TempField) (q : Package → Prop) (hq : q (p.sense (reading.map (·.val)))) : takes reading q := by
      obtain ⟨t, ht, hc⟩ := taken reading
      refine ⟨t, _, ht, ?_, hq, by rw [hc], fun i hi => ?_⟩
      · rw [hc]
        dsimp only
        rw [modifyNth_eq, List.getElem?_modify_eq, hp]
        rfl
      · rw [hc]
        dsimp only
        rw [modifyNth_eq, List.getElem?_modify_ne _ _ (Ne.symm hi)]
    refine ⟨fun row works => takes_of _ _ ⟨works, rfl, ?_⟩, fun row failed => takes_of _ _ ?_, takes_of _ _ ⟨rfl, rfl⟩⟩
    · have hm : (p.sense (some row.val)).mult = packageMult p.mult (tempRow row.val).1 := by simp [Package.sense, works]
      exact (packageMult_rises row p.mult).trans_eq (congrArg BitVec.toNat hm.symm)
    · simp [Package.sense, failed]

end Sys2Proof.Proofs
end

section
/-!
PROOF. How channels retrain (R261 to R264): triggers and requests, the mirror, the switch, the return and the failure.
-/

namespace Sys2Proof.Machine

theorem mem_insertBy {α : Type} {before : α → α → Bool} (x : α) (l : List α) : x ∈ insertBy before x l := by
  induction l with
  | nil => exact List.mem_singleton_self x
  | cons y r ih =>
    unfold insertBy
    split
    · exact List.mem_cons_self
    · exact List.mem_cons_of_mem _ ih

/-- A channel that waits for retraining; the other channels' state stays. -/
theorem retrainWait_cuff (s : State) (k slot : Nat) :
    slot ∈ ((s.retrainWait k slot).cuff k).waiting ∧ ((s.retrainWait k slot).cuff k).channels = (s.cuff k).channels := by
  unfold State.retrainWait
  rw [State.cuff_updCuff]
  split
  · next h => exact ⟨by simpa using h, rfl⟩
  · exact ⟨mem_insertBy _ _, rfl⟩

/-- The register CF_RETRAIN of a Cuff. -/
theorem regAt_cfRetrain (k : CuffId) : regAt (cfBase k.val + 0x18) = some (.cf k.val .retrain) := by
  revert k
  decide

theorem cfRetrain_aligned (k : CuffId) : (cfBase k.val + 0x18) % 4 = 0 ∧ msixAccess (cfBase k.val + 0x18) 4 = false := by
  revert k
  decide

theorem cuffNote_gen (s : State) (k cls loc detail aux : Nat) : (s.cuffNote k cls loc detail aux).mgmt = s.mgmt := by
  unfold State.cuffNote
  rw [State.note_only]

/-- What an update of the Cuff that keeps the channels, or one of its channels, leaves behind a record and a counted change. -/
theorem noted_cuff (x : State) (k cls loc detail aux : Nat) :
    ((x.cuffNote k cls loc detail aux).changed.cuff k = x.cuff k) ∧ ((x.cuffNote k cls loc detail aux).changed.mgmt.gen = wrapAdd x.mgmt.gen 1) :=
  ⟨cuffNote_cuff _ _ _ _ _ _ _, by show wrapAdd (x.cuffNote k cls loc detail aux).mgmt.gen 1 = _; rw [cuffNote_gen]⟩

theorem State.cuff_updChan (s : State) (k slot : Nat) (f : Channel → Channel) : (s.updChan k slot f).cuff k = (s.cuff k).updChan slot f :=
  State.cuff_updCuff _ _ _

theorem State.chan_updCuff {s : State} {k : Nat} {f : Cuff → Cuff} (h : (f (s.cuff k)).channels = (s.cuff k).channels) (n : Nat) :
    (s.updCuff k f).chan k n = s.chan k n :=
  State.chan_congr ((congrArg Cuff.channels (State.cuff_updCuff s k f)).trans h) n

/-! ## The start of a sequence -/

/-- The first waiting sequence begins, with a spare or without one. -/
theorem retrainStart_begins {s : State} {k slot : Nat} {rest : List Nat} (passes : Bool) (idle : (s.cuff k).seq = none)
    (hw : (s.cuff k).waiting = slot :: rest) (hl : slot < (s.cuff k).channels.length) (can : chanRetrains (s.chan k slot) = true) :
    let t := s.retrainStart k passes
    (t.cuff k).waiting = rest ∧ t.mgmt.gen = wrapAdd s.mgmt.gen 1 ∧
    (∀ i more, (s.cuff k).freeSpares = i :: more → (t.chan k slot).state = .mirroring ∧
      (t.cuff k).seq = some ⟨slot, i, (s.chan k slot).pkg, (s.chan k slot).ch, passes, chanRows * rowUnits, [], 0, []⟩) ∧
    ((s.cuff k).freeSpares = [] → (t.chan k slot).state = .failing ∧ (t.cuff k).seq = none) := by
  intro t
  generalize hs0 : s.updCuff k (fun c => { c with waiting := rest }) = s0
  have c0 : s0.cuff k = { s.cuff k with waiting := rest } := by rw [← hs0, State.cuff_updCuff]
  have chan0 : s0.chan k slot = s.chan k slot := State.chan_congr (by rw [c0]) slot
  have free0 : (s0.cuff k).freeSpares = (s.cuff k).freeSpares := by rw [c0]; rfl
  have gen0 : s0.mgmt.gen = s.mgmt.gen := by rw [← hs0]; rfl
  have hl0 : slot < (s0.cuff k).channels.length := by rw [c0]; exact hl
  have put (f : Channel → Channel) : ((s0.updChan k slot f).cuff k).seq = none ∧ ((s0.updChan k slot f).cuff k).waiting = rest ∧
      (s0.updChan k slot f).chan k slot = f (s.chan k slot) := by
    refine ⟨?_, ?_, ?_⟩
    · rw [State.cuff_updChan, c0]
      exact idle
    · rw [State.cuff_updChan, c0]
      rfl
    · rw [State.chan_updChan, if_pos hl0, chan0]
  have begins : t = match (s0.cuff k).freeSpares with
      | [] => ((s0.updChan k slot fun c => { c with state := .failing }).cuffNote k 0x35 slot 0 0).changed
      | i :: _ => (((s0.updChan k slot fun c => { c with state := .mirroring }).updCuff k fun c =>
          { c with seq := some ⟨slot, i, (s0.chan k slot).pkg, (s0.chan k slot).ch, passes, chanRows * rowUnits, [], 0, []⟩ }).cuffNote
          k 0x33 slot (16 + i) 1).changed := by
    show s.retrainStart k passes = _
    unfold State.retrainStart
    rw [idle, hw]
    dsimp only
    rw [hs0, chan0, can]
    rfl
  cases hf : (s.cuff k).freeSpares with
  | nil =>
    rw [free0, hf] at begins
    dsimp only at begins
    obtain ⟨hc, hg⟩ := noted_cuff (s0.updChan k slot fun c => { c with state := .failing }) k 0x35 slot 0 0
    obtain ⟨pseq, pwait, pchan⟩ := put fun c => { c with state := .failing }
    rw [← begins] at hc hg
    refine ⟨?_, hg.trans (congrArg (wrapAdd · 1) gen0), nofun, fun _ => ⟨?_, ?_⟩⟩
    · rw [hc, pwait]
    · rw [State.chan_congr (congrArg Cuff.channels hc), pchan]
    · rw [hc, pseq]
  | cons i more =>
    rw [free0, hf] at begins
    dsimp only at begins
    rw [chan0] at begins
    generalize hq : (⟨slot, i, (s.chan k slot).pkg, (s.chan k slot).ch, passes, chanRows * rowUnits, [], 0, []⟩ : Retrain) = q at begins
    obtain ⟨hc, hg⟩ := noted_cuff ((s0.updChan k slot fun c => { c with state := .mirroring }).updCuff k fun c => { c with seq := some q })
      k 0x33 slot (16 + i) 1
    obtain ⟨pseq, pwait, pchan⟩ := put fun c => { c with state := .mirroring }
    rw [← begins] at hc hg
    refine ⟨?_, hg.trans (congrArg (wrapAdd · 1) gen0), fun j more' hj => ?_, nofun⟩
    · rw [hc, State.cuff_updCuff, ← pwait]
    · cases hj
      refine ⟨?_, ?_⟩
      · rw [State.chan_congr (congrArg Cuff.channels hc), State.chan_updCuff rfl, pchan]
      · rw [hc, State.cuff_updCuff, hq]

/-! ## What a boundary brings a sequence to -/

/-- The channel in the slot of a sequence once the spare serves it. -/
def State.switchedChannel (s : State) (k : Nat) (q : Retrain) (c : Channel) : Channel :=
  let sp := ((s.cuff k).spares[q.spare]?).getD ⟨0, []⟩
  { c with state := .switched, pkg := 4, ch := BitVec.ofNat 2 q.spare, debt := sp.debt, pairCounts := sp.pairCounts,
           holdUntil := s.now + s.free.toNat % 40001, displaced := some ⟨0, payPairs c.debt c.pairCounts⟩ }

theorem switchOver_channels (s : State) (k : Nat) (q : Retrain) :
    ((s.switchOver k q).cuff k).channels = ((s.updChan k q.slot (s.switchedChannel k q)).cuff k).channels := by
  have h := State.cuff_updCuff (s.drew.drew.updChan k q.slot (s.switchedChannel k q)) k fun c =>
    { c with seq := some { q with left := 0, dirty := [], ends := s.now + s.free.toNat % 40001 + s.drew.free.toNat % 25000001,
                                  aside := s.hardOf k q.slot } }
  have chans := congrArg Cuff.channels h
  exact chans

/-- The switch onto the spare. -/
theorem switchOver_switches {s : State} {k : Nat} {q : Retrain} (hl : q.slot < (s.cuff k).channels.length) :
    let d := (s.switchOver k q).chan k q.slot
    d.state = .switched ∧ d.pkg = 4 ∧ d.ch = BitVec.ofNat 2 q.spare ∧ d.holdUntil = s.now + s.free.toNat % 40001 ∧
      (s.switchOver k q).mgmt.gen = wrapAdd s.mgmt.gen 1 := by
  dsimp only
  rw [State.chan_congr (switchOver_channels s k q), State.chan_updChan, if_pos hl]
  exact ⟨rfl, rfl, rfl, rfl, rfl⟩

theorem spareKeeps_spares {s : State} {k : Nat} {q : Retrain} (hl : q.slot < (s.cuff k).channels.length) :
    ((s.spareKeeps k q).chan k q.slot).state = .spared ∧ ((s.spareKeeps k q).cuff k).seq = none := by
  unfold State.spareKeeps
  dsimp only
  generalize hx : (s.updCuff k fun c => { c with seq := none, sparesBad := c.sparesBad ++ if q.pkg = 4 then [q.ch.toNat] else [] }) = x
  have cx : (x.cuff k).channels = (s.cuff k).channels ∧ (x.cuff k).seq = none := by
    rw [← hx, State.cuff_updCuff]
    exact ⟨rfl, rfl⟩
  obtain ⟨hc, -⟩ := noted_cuff (x.updChan k q.slot fun c => { c with state := .spared }) k 0x34 q.slot (16 + q.spare) 0
  refine ⟨?_, ?_⟩
  · rw [State.chan_congr (congrArg Cuff.channels hc), State.chan_updChan, if_pos (by rw [cx.1]; exact hl)]
  · rw [hc, State.cuff_updChan]
    exact cx.2

/-- The switch back to the original channel. -/
theorem switchBack_switches {s : State} {k : Nat} {q : Retrain} (hl : q.slot < (s.cuff k).channels.length) :
    let d := (s.switchBack k q).chan k q.slot
    d.state = .active ∧ d.pkg = q.pkg ∧ d.ch = q.ch ∧ d.retrains = satAdd (s.chan k q.slot).retrains 1 ∧
      ((s.switchBack k q).cuff k).seq = none := by
  unfold State.switchBack
  dsimp only
  generalize hx : (s.drew.updCuff k fun c =>
    { c with seq := none, spares := modifyNth c.spares q.spare fun _ => ⟨0, payPairs (s.chan k q.slot).debt (s.chan k q.slot).pairCounts⟩ }) = x
  have cx : (x.cuff k).channels = (s.cuff k).channels ∧ (x.cuff k).seq = none := by
    rw [← hx, State.cuff_updCuff]
    exact ⟨rfl, rfl⟩
  have chan : x.chan k q.slot = s.chan k q.slot := State.chan_congr cx.1 _
  generalize hf : (fun c : Channel =>
    { c with state := .active, pkg := q.pkg, ch := q.ch, debt := ((s.chan k q.slot).displaced.getD ⟨0, (s.chan k q.slot).pairCounts⟩).debt,
             pairCounts := ((s.chan k q.slot).displaced.getD ⟨0, (s.chan k q.slot).pairCounts⟩).pairCounts,
             holdUntil := s.now + s.free.toNat % 40001, displaced := none, retrains := satAdd c.retrains 1 }) = f
  obtain ⟨hc, -⟩ := noted_cuff { x.updChan k q.slot f with cap := { (x.updChan k q.slot f).cap with
    hard := (x.updChan k q.slot f).cap.hard ++ q.aside.map Prod.fst,
    faults := q.aside.foldl (fun (l : List (Nat × CapFault)) e => if mapHas l e.1 then l else mapPut l e.1 e.2) (x.updChan k q.slot f).cap.faults } }
    k 0x33 q.slot (16 + q.spare) 6
  have hd := (State.chan_congr (congrArg Cuff.channels hc) q.slot).trans
    ((State.chan_updChan x k q.slot f).trans (if_pos (by rw [cx.1]; exact hl)))
  rw [chan] at hd
  refine ⟨?_, ?_, ?_, ?_, ?_⟩
  · rw [hd, ← hf]
  · rw [hd, ← hf]
  · rw [hd, ← hf]
  · rw [hd, ← hf]
  · rw [hc]
    show ((x.updChan k q.slot f).cuff k).seq = none
    rw [State.cuff_updChan]
    exact cx.2

/-- The return of a channel that passed step 4 begins. -/
theorem returning_begins {s : State} {k : Nat} {q : Retrain} (hl : q.slot < (s.cuff k).channels.length) :
    let t := ((s.updChan k q.slot fun c => { c with state := .returning }).updCuff k fun c =>
      { c with seq := some { q with left := rowUnits * q.dirty.length } }).changed
    (t.chan k q.slot).state = .returning ∧ (t.cuff k).seq = some { q with left := 32 * q.dirty.length } := by
  intro t
  have hc : t.cuff k = { (s.updChan k q.slot fun c => { c with state := .returning }).cuff k with
      seq := some { q with left := rowUnits * q.dirty.length } } :=
    State.cuff_updCuff (s.updChan k q.slot fun c => { c with state := .returning }) k fun c =>
      { c with seq := some { q with left := rowUnits * q.dirty.length } }
  have chans : (t.cuff k).channels = ((s.updChan k q.slot fun c => { c with state := .returning }).cuff k).channels := by rw [hc]
  refine ⟨?_, congrArg Cuff.seq hc⟩
  rw [State.chan_congr chans, State.chan_updChan, if_pos hl]

end Sys2Proof.Machine

namespace Sys2Proof.Proofs

open Sys2Proof Sys2Proof.Machine

/-- Settles O38: one lemma for each phase of a sequence. -/
theorem channelsRetrain : Obligations.ChannelsRetrain := by
  unfold Obligations.ChannelsRetrain
  intro k s
  refine ⟨fun slot drift hl => ?_, fun path value hopen there asks can => ?_, fun slot rest passes idle hw hl can => ?_, fun q hq hl => ?_⟩
  · intro asks
    have ht : s.retrainTrigger k.val slot.val drift = if asks = true then
        (s.updChan k.val slot.val fun c => { c with errors := [] }).retrainWait k.val slot.val else s := rfl
    refine ⟨fun h => ?_, fun h => ?_⟩
    · obtain ⟨waits, chans⟩ := retrainWait_cuff (s.updChan k.val slot.val fun c => { c with errors := [] }) k.val slot.val
      rw [if_pos h] at ht
      refine ⟨s.retrainTrigger k.val slot.val drift, rfl, ?_, ?_⟩ <;> rw [ht]
      · exact waits
      · rw [State.chan_congr chans, State.chan_updChan, if_pos hl]
    · exact congrArg Host.Outcome.next (ht.trans (if_neg (by rw [h]; nofun)))
  · obtain ⟨aligned, plain⟩ := cfRetrain_aligned k
    have answers : s.regAnswers (.cf k.val .retrain) = true := by
      show (!s.cuffGone k.val) = true
      rw [there]
      rfl
    have ht : s.setRegister path (cfBase k.val + 0x18) value =
        (s.retrainWait k.val (field value 0 4).toNat).countChanges s (s.watched (.cf k.val .retrain)) := by
      refine (setupWrite_register hopen plain aligned (regAt_cfRetrain k) answers value envNone).trans (congrArg (State.countChanges · s _) ?_)
      show s.requestRetrain k.val value = _
      unfold State.requestRetrain
      exact if_pos (by rw [asks, can]; rfl)
    refine ⟨s.setRegister path (cfBase k.val + 0x18) value, rfl, ?_⟩
    rw [ht, countChanges_only]
    exact retrainWait_cuff s k.val _
  · obtain ⟨waits, gen, spare, full⟩ := retrainStart_begins passes idle hw hl can
    refine ⟨_, rfl, waits, gen, fun i more hf => ?_, full⟩
    obtain ⟨mirrors, hq⟩ := spare i more hf
    exact ⟨mirrors, _, hq, rfl, rfl, rfl, rfl, rfl, rfl⟩
  · intro t c d
    have other : ¬q.slot ≠ q.slot := not_not.mpr rfl
    refine ⟨fun hc left => ?_, fun hc ends passes => ?_, fun hc ends fails => ?_, fun hc left => ?_⟩
    · have ht : t = s.switchOver k.val q := by
        show s.seqBoundary k.val q.slot = _
        unfold State.seqBoundary
        rw [hq]
        dsimp only
        rw [if_neg other, show (s.chan k.val q.slot).state = .mirroring from hc]
        exact if_pos left
      obtain ⟨h1, h2, h3, h4, h5⟩ := switchOver_switches (k := k.val) hl
      simp only [d, ht]
      exact ⟨h1, h2, h3, by omega, h5⟩
    · have ht : t = ((s.updChan k.val q.slot fun c => { c with state := .returning }).updCuff k.val fun c =>
          { c with seq := some { q with left := rowUnits * q.dirty.length } }).changed := by
        show s.seqBoundary k.val q.slot = _
        unfold State.seqBoundary
        rw [hq]
        dsimp only
        rw [if_neg other, show (s.chan k.val q.slot).state = .switched from hc]
        exact (if_neg (Nat.not_lt.mpr ends)).trans (if_pos passes)
      simp only [d, ht]
      exact returning_begins hl
    · have ht : t = s.spareKeeps k.val q := by
        show s.seqBoundary k.val q.slot = _
        unfold State.seqBoundary
        rw [hq]
        dsimp only
        rw [if_neg other, show (s.chan k.val q.slot).state = .switched from hc]
        exact (if_neg (Nat.not_lt.mpr ends)).trans (if_neg (by rw [fails]; nofun))
      simp only [d, ht]
      exact spareKeeps_spares hl
    · have ht : t = s.switchBack k.val q := by
        show s.seqBoundary k.val q.slot = _
        unfold State.seqBoundary
        rw [hq]
        dsimp only
        rw [if_neg other, show (s.chan k.val q.slot).state = .returning from hc]
        exact if_pos left
      simp only [d, ht]
      exact switchBack_switches hl

end Sys2Proof.Proofs
end

section
/-!
PROOF. Reads of setup registers through a path's latches (R4, R40, R328, R375, R386).
-/

namespace Sys2Proof.Machine

/-! ## Bytes of words -/

theorem leNat_lt (bs : List Byte) : leNat bs < 256 ^ bs.length := by
  induction bs with
  | nil => exact Nat.one_pos
  | cons b r ih =>
    have := b.isLt
    rw [leNat, List.length_cons, Nat.pow_succ]
    omega

/-- Bytes that make a number are its little-endian bytes. -/
theorem leBytes_leNat (bs : List Byte) : leBytes bs.length (leNat bs) = bs := by
  induction bs with
  | nil => rfl
  | cons b r ih =>
    have hb := b.isLt
    have rest : (b.toNat + 256 * leNat r) / 256 = leNat r := by omega
    rw [List.length_cons, leBytes, leNat, rest, ih]
    congr 1
    apply BitVec.eq_of_toNat_eq
    rw [BitVec.toNat_ofNat]
    omega

theorem leBytes_word (w : Word) : leBytes 4 (w.toNat % 2 ^ 32) = leBytes 4 w.toNat := by rw [Nat.mod_eq_of_lt w.isLt]

/-- Four bytes of a list as a word of its bytes. -/
theorem leBytes_wordOfBytes (l : List Byte) (i : Nat) (h : 4 * i + 4 ≤ l.length) :
    leBytes 4 (wordOfBytes (fun j => (l[j]?).getD 0) i).toNat = (l.drop (4 * i)).take 4 := by
  have bytes : (l.drop (4 * i)).take 4 = [(l[4 * i]?).getD 0, (l[4 * i + 1]?).getD 0, (l[4 * i + 2]?).getD 0, (l[4 * i + 3]?).getD 0] := by
    have at' (j : Nat) (hj : j < 4) : (l[4 * i + j]?).getD 0 = l[4 * i + j] := by rw [List.getElem?_eq_getElem (by omega)]; rfl
    refine List.ext_getElem (by simp; omega) fun j h1 h2 => ?_
    rw [List.getElem_take, List.getElem_drop]
    match j, h2 with
    | 0, _ => exact (at' 0 (by omega)).symm
    | 1, _ => exact (at' 1 (by omega)).symm
    | 2, _ => exact (at' 2 (by omega)).symm
    | 3, _ => exact (at' 3 (by omega)).symm
  have word (bs : List Byte) (hl : bs.length = 4) : leBytes 4 (BitVec.ofNat 32 (leNat bs)).toNat = bs := by
    have hlt := leNat_lt bs
    rw [hl] at hlt
    have hlt' : leNat bs < 2 ^ 32 := by omega
    rw [BitVec.toNat_ofNat, Nat.mod_eq_of_lt hlt', ← hl]
    exact leBytes_leNat bs
  rw [bytes]
  exact word _ rfl

/-! ## Offsets of registers -/

theorem msix_of_register {o width : Nat} {r : Reg} (h : regAt o = some r) : msixAccess o width = false := by
  by_contra hm
  have hm : msixAccess o width = true := by simpa using hm
  unfold msixAccess at hm
  simp only [Bool.and_eq_true, Bool.or_eq_true, decide_eq_true_eq] at hm
  obtain ⟨-, hm⟩ := hm
  have none : regAt o = none := by
    unfold regAt
    rw [if_neg (by omega), if_neg (by omega), if_neg (by omega), if_neg (by omega), if_neg (by omega), if_neg (by omega), if_neg (by omega),
      if_pos (by omega)]
  rw [none] at h
  cases h

/-- The register at an offset of a core's block. -/
theorem regAt_co (n : CoreId) {o : Nat} (ho : o < 0x10000) : regAt (coBase n.val + o) = (coRegAt o).map (.co n.val) := by
  have hn := n.isLt
  have inner : (coBase n.val + o) % 0x10000 = o := by unfold coBase; omega
  have outer : (coBase n.val + o - 0x04000000) / 0x10000 = n.val := by unfold coBase; omega
  unfold regAt
  rw [inner, outer]
  unfold coBase
  rw [if_neg (by omega), if_neg (by omega), if_neg (by omega), if_neg (by omega), if_pos (by omega)]

/-! ## Reads -/

theorem readSetup_register {s : State} {p : Path} {o : Nat} {r : Reg} (clean : s.mgmt.scanned = false) (ho : o % 4 = 0) (hr : regAt o = some r)
    (answers : s.regAnswers r = true) :
    s.readSetup p o 4 = (s.setLatches p (s.latchFor (s.latches p) r), leBytes 4 (s.regValue (s.latches p) r).toNat) := by
  unfold State.readSetup
  rw [if_neg (by omega), hr]
  dsimp only
  rw [if_pos answers, if_neg (by rw [clean]; nofun)]
  rfl

/-- An aligned read over an open path of a register that answers. -/
theorem setupRead_register {s : State} {p : Path} {o : Nat} {r : Reg} (clean : s.mgmt.scanned = false) (hopen : s.pathOpen p o = true)
    (ho : o % 4 = 0) (hr : regAt o = some r) (answers : s.regAnswers r = true) :
    s.setupRead p o 4 =
      (s.setLatches p (s.latchFor (s.latches p) r)).answer (.setup o (leBytes 4 (s.regValue (s.latches p) r).toNat)) := by
  rw [State.setupRead_of_open hopen (by rw [msix_of_register hr]; nofun), readSetup_register clean ho hr answers]

/-- What a path's latches leave: the time, and the other path's latches. -/
theorem setLatches_kept (s : State) (p : Path) (l : Latches) :
    s.setLatches p l = { s with time := (s.setLatches p l).time } ∧ (s.setLatches p l).now = s.now ∧ (s.setLatches p l).latches p = l ∧
      ∀ x, x ≠ p → (s.setLatches p l).latches x = s.latches x := by
  cases p with
  | pcie => exact ⟨rfl, rfl, rfl, fun x hx => by cases x with | pcie => exact absurd rfl hx | collar => rfl⟩
  | collar => exact ⟨rfl, rfl, rfl, fun x hx => by cases x with | pcie => rfl | collar => exact absurd rfl hx⟩

end Sys2Proof.Machine

namespace Sys2Proof.Proofs

open Sys2Proof Sys2Proof.Machine

/-- Settles O59: every read of a register that answers goes through one lemma about its path's latches. -/
theorem registerReads : Obligations.RegisterReads := by
  unfold Obligations.RegisterReads
  intro path n off r s clean c low reads
  have read {i : Instr} {o : Nat} {x : Reg} {bytes : List Byte} {q : Latches → Prop} (hi : exec i s = .next (s.setupRead path o 4))
      (hopen : s.pathOpen path o = true) (ho : o % 4 = 0) (hr : regAt o = some x) (answers : s.regAnswers x = true)
      (hb : leBytes 4 (s.regValue (s.latches path) x).toNat = bytes) (hq : q (s.latchFor (s.latches path) x)) : reads i o bytes q := by
    obtain ⟨frame, now, own, other⟩ := setLatches_kept s path (s.latchFor (s.latches path) x)
    refine ⟨_, hi.trans (congrArg Host.Outcome.next (setupRead_register clean hopen ho hr answers)), ?_, ?_, now, ?_, other⟩
    · rw [frame]
      rfl
    · rw [hb, frame]
      rfl
    · exact own.symm ▸ hq
  refine ⟨fun hopen ho hr answers => read (q := fun _ => True) rfl hopen ho hr answers rfl trivial, fun hopen => ?_, fun hopen => ?_, fun there present =>
    ⟨fun hopen => ?_, fun hopen => ?_⟩, fun hopen len => ?_, fun up powered ho hr answers => ?_, fun up dark => ?_⟩
  · exact read (i := .ykTimebaseLo path) (x := .timebaseLo)
      (q := fun l => l = { s.latches path with timebase := BitVec.ofNat 32 (s.now / 2 ^ 32) }) rfl hopen rfl rfl rfl (congrArg (leBytes 4) (BitVec.toNat_ofNat _ _)) rfl
  · exact read (i := .setupRegisterRead path 0x44 4) (x := .timebaseHi) (q := fun l => l = s.latches path) rfl hopen rfl rfl rfl rfl rfl
  · have answers : s.regAnswers (.co n.val .beatCountLo) = true := by simp [State.regAnswers, there, present]
    refine read (i := .coBeatCountLo path n) (x := .co n.val .beatCountLo)
      (q := fun l => mapGet 0 l.beats n.val = BitVec.ofNat 32 (c.seq.beats / 2 ^ 32)) rfl hopen (by unfold coBase; omega) (regAt_co n (by omega)) answers
      (congrArg (leBytes 4) (BitVec.toNat_ofNat _ _)) (mapGet_mapPut_same _ _ _ _)
  · have answers : s.regAnswers (.co n.val .minVoltNsLo) = true := by simp [State.regAnswers, there, present]
    refine read (i := .coMinVoltNsLo path n) (x := .co n.val .minVoltNsLo)
      (q := fun l => mapGet 0 l.minVolt n.val = BitVec.ofNat 32 (c.supply.minTime.toNat / 2 ^ 32)) rfl hopen (by unfold coBase; omega) (regAt_co n (by omega)) answers
      (congrArg (leBytes 4) (BitVec.toNat_setWidth _ _)) ((mapGet_mapPut_same _ _ _ _).trans ?_)
    apply BitVec.eq_of_toNat_eq
    simp [field, Nat.shiftRight_eq_div_pow, c]
  · refine read (i := .ykFprint0 path) (x := .fprint 0) (q := fun l => l.fprint.length = 15 ∧
      ∀ i, i < 15 → leBytes 4 ((l.fprint[i]?).getD 0).toNat = (s.mgmt.digest.drop (4 * (i + 1))).take 4) rfl hopen rfl rfl rfl (leBytes_wordOfBytes _ 0 (by omega)) ⟨by simp [State.latchFor], fun i hi => ?_⟩
    simp only [State.latchFor, List.getElem?_map, List.getElem?_range hi, Option.map_some, Option.getD_some]
    exact leBytes_wordOfBytes _ _ (by omega)
  · have ht : s.commandRead off.toNat = (s.setLatches .collar (s.latchFor (s.latches .collar) r)).answer
        (.command 1 true (leBytes 4 (s.regValue (s.latches .collar) r).toNat)) := by
      unfold State.commandRead
      rw [up, powered, readSetup_register clean ho hr answers]
      rfl
    obtain ⟨frame, -⟩ := setLatches_kept s .collar (s.latchFor (s.latches .collar) r)
    refine ⟨_, congrArg Host.Outcome.next ht, ?_, ?_⟩
    · rw [frame]
      rfl
    · rw [frame]
      rfl
  · have ht : s.commandRead off.toNat = s.answer (.unavailable 1) := by
      unfold State.commandRead
      rw [up, dark]
      rfl
    exact ⟨_, congrArg Host.Outcome.next ht, rfl, rfl⟩

end Sys2Proof.Proofs
end

section
/-!
PROOF. A lap replay (R66): every ring at slot 0 of the replay's lap, every core of the replay at its mark for it; and the substitution of a dark
core of the set that a replay follows (R362).
-/

namespace Sys2Proof.Machine

/-! ## The rings -/

/-- The step leaves the cores, the rings, the set, the host and the credit messages. -/
structure CoresStay (s t : State) : Prop where
  cores : t.cores = s.cores
  rings : t.rings = s.rings
  credit : t.credit = s.credit

theorem CoresStay.refl (s : State) : CoresStay s s := ⟨rfl, rfl, rfl⟩

theorem CoresStay.trans {s t u : State} (h : CoresStay s t) (g : CoresStay t u) : CoresStay s u :=
  ⟨g.cores.trans h.cores, g.rings.trans h.rings, g.credit.trans h.credit⟩

theorem onColumn_stay (s : State) (col : Nat) (f : Column → ColSite → ColStep) : CoresStay s (s.onColumn col f) := by
  unfold State.onColumn
  refine ⟨?_, ?_, ?_⟩ <;> rw [State.fileAll_only] <;> rfl

theorem drainRing_stay (s : State) (key : Nat) : CoresStay s (s.drainRing key) := by
  unfold State.drainRing
  split
  · exact onColumn_stay _ _ _
  · exact .refl s

theorem noteFill_stay (s : State) (n w last : Nat) : CoresStay s (s.noteFill n w last) := by
  unfold State.noteFill
  refine (onColumn_stay _ _ _).trans (foldOver_rel CoresStay.refl (fun _ _ _ => CoresStay.trans) (fun t u => ?_) _ _)
  split
  · exact onColumn_stay _ _ _
  · exact .refl t

/-- A ring at slot 0 of the replay's lap. -/
def AtStart (lap : Nat) (r : Ring) : Prop := r.lap = lap ∧ r.slot = 0 ∧ r.atEnd = false

/-- The rings of a list start at slot 0 of the replay's lap; cores and credit messages stay. -/
theorem replayRings (lap : Nat) (ks : List Nat) (s : State) :
    let t := foldOver ks (fun t k => (t.drainRing k).updRing k fun r => r.replay lap t.now) s
    t.cores = s.cores ∧ t.credit = s.credit ∧ ∀ k, k ∈ ks ∨ AtStart lap (s.ring k) → AtStart lap (t.ring k) := by
  induction ks generalizing s with
  | nil => exact ⟨rfl, rfl, fun k h => h.elim nofun id⟩
  | cons key r ih =>
    have first := drainRing_stay s key
    obtain ⟨hc, hm, hr⟩ := ih ((s.drainRing key).updRing key fun r => r.replay lap s.now)
    refine ⟨hc.trans first.cores, hm.trans first.credit, fun k hk => hr k ?_⟩
    rw [State.updRing, State.ring_setRing]
    by_cases e : k = key
    · rw [if_pos e]
      exact .inr ⟨rfl, rfl, rfl⟩
    · rw [if_neg e, State.ring_congr first.rings]
      exact hk.imp_left fun h => (List.mem_cons.mp h).resolve_left e

/-! ## The cores -/

/-- A core at its mark for the replay's lap, with nothing of what it did before. -/
structure AtMark (lap : Nat) (c : Core) : Prop where
  run : c.seq.run = .running
  lapNow : c.seq.lap = BitVec.ofNat 32 lap
  position : c.seq.position.toNat = restartWord c.seq lap
  moveQ : c.moveQ = []
  regs : c.seq.regs = []

theorem restart_word (c : Core) (lap : Nat) (cache : List (Nat × CacheBlock)) : restartWord (c.restart lap cache).seq lap = restartWord c.seq lap := rfl

theorem restart_atMark (c : Core) (lap : Nat) (cache : List (Nat × CacheBlock)) : AtMark lap (c.restart lap cache) := ⟨rfl, rfl, rfl, rfl, rfl⟩

/-- What restarting cores leaves: the rings, the credit messages, and where each core restarts. -/
structure Restarts (lap : Nat) (ns : List Nat) (s t : State) : Prop where
  rings : t.rings = s.rings
  credit : t.credit = s.credit
  word : ∀ m, restartWord (t.core m).seq lap = restartWord (s.core m).seq lap
  marked : ∀ m, m ∈ ns ∨ AtMark lap (s.core m) → AtMark lap (t.core m)

theorem restartCore_restarts (s : State) (lap n : Nat) : Restarts lap [n] s (s.restartCore lap n) := by
  have put (t : State) (cache : List (Nat × CacheBlock)) (h : CoresStay s t) : Restarts lap [n] s (t.setCore n ((s.core n).restart lap cache)) := by
    have hc (m : Nat) : t.core m = s.core m := State.core_congr h.cores m
    refine ⟨h.rings, h.credit, fun m => ?_, fun m hm => ?_⟩ <;> rw [State.core_setCore]
    · split
      · next e => rw [e, restart_word]
      · rw [hc]
    · split
      · exact restart_atMark _ _ _
      · next e =>
        rw [hc]
        exact hm.resolve_left (by simpa using e)
  unfold State.restartCore
  dsimp only
  split
  · exact put _ _ (noteFill_stay _ _ _ _)
  · exact put _ _ (.refl s)

theorem restartCores_restart (lap : Nat) (ns : List Nat) (s : State) : Restarts lap ns s (foldOver ns (fun t n => t.restartCore lap n) s) := by
  induction ns generalizing s with
  | nil => exact ⟨rfl, rfl, fun _ => rfl, fun m h => h.elim nofun id⟩
  | cons n r ih =>
    have a := restartCore_restarts s lap n
    have b := ih (s.restartCore lap n)
    refine ⟨b.rings.trans a.rings, b.credit.trans a.credit, fun m => (b.word m).trans (a.word m), fun m hm => b.marked m ?_⟩
    rcases hm with hm | hm
    · rcases List.mem_cons.mp hm with e | hr
      · exact .inr (a.marked m (.inl (by rw [e]; exact List.mem_singleton.mpr rfl)))
      · exact .inl hr
    · exact .inr (a.marked m (.inr hm))

/-! ## The replay -/

/-- A replay from the lowest lap of the rings in service. -/
theorem lapReplay_replays {s : State} (can : s.canReplay = true) (served : (s.rings.any fun e => e.2.use != .opened) = true) (cause : Nat) :
    let t := s.lapReplay cause
    t.credit = [] ∧ (∀ k ∈ allRings, AtStart s.minLap (t.ring k)) ∧
      ∀ m ∈ s.replayCores, AtMark s.minLap (t.core m) ∧ restartWord (t.core m).seq s.minLap = restartWord (s.core m).seq s.minLap := by
  intro t
  generalize hs1 : ({ s with credit := [] } : State).noNear = s1
  have c1 : s1.cores = s.cores := by rw [← hs1]; rfl
  have m1 : s1.credit = [] := by rw [← hs1]; rfl
  generalize hs2 : foldOver allRings (fun t k => (t.drainRing k).updRing k fun r => r.replay s.minLap t.now) s1 = s2
  obtain ⟨c2, m2, r2⟩ := replayRings s.minLap allRings s1
  rw [hs2] at c2 m2 r2
  obtain ⟨r3, m3, w3, k3⟩ := restartCores_restart s.minLap s.replayCores s2
  have ht : t = (foldOver s.replayCores (fun t n => t.restartCore s.minLap n) s2).note 0x12 grpYoke 0xFFF s.minLap cause := by
    show s.lapReplay cause = _
    unfold State.lapReplay
    rw [if_pos can, served, if_pos rfl]
    dsimp only
    rw [hs1, hs2]
  have hcore (m : Nat) : t.core m = (foldOver s.replayCores (fun t n => t.restartCore s.minLap n) s2).core m :=
    State.core_congr (by rw [ht, State.note_only]) m
  refine ⟨?_, fun k hk => ?_, fun m hm => ⟨?_, ?_⟩⟩
  · rw [ht, State.note_only]
    exact m3.trans (m2.trans m1)
  · have hr : t.ring k = s2.ring k := State.ring_congr (by rw [ht, State.note_only]; exact r3) k
    rw [hr]
    exact r2 k (.inl hk)
  · rw [hcore]
    exact k3 m (.inl hm)
  · rw [hcore, w3, State.core_congr (c2.trans c1)]

/-! ## The substitution -/

/-- A core of the set goes dark and its crossover core takes the number: what the step leaves until the replay that follows. -/
theorem darkenCore_substitutes {s : State} {n phys : Nat} (active : s.physState phys = .active) (owner : s.logicalOf phys = some n)
    (hx : phys ≠ crossoverOf phys) (idle : s.physState (crossoverOf phys) = .inactive) (cause : Nat) :
    let a := s.darkenCore phys cause true
    a.2 = s.set.cores.contains n ∧ a.1.set = s.set ∧ a.1.rings = s.rings ∧ a.1.host = s.host ∧ a.1.panels = s.panels ∧
      (a.1.entry n).state = .crossover ∧ (∀ m, m ≠ n → a.1.entry m = s.entry m) ∧ a.1.physState (crossoverOf phys) = .active ∧
      (∀ m, m ≠ n → a.1.core m = s.core m) ∧ a.1.core n = (s.core n).substitute (s.spareOf (crossoverOf phys)) := by
  intro a
  obtain ⟨x, hx'⟩ : ∃ x, x = crossoverOf phys := ⟨_, rfl⟩
  obtain ⟨gen, ha⟩ : ∃ gen, a = ({ (((((s.setPhys phys .dark).setPhys x .active).setEntry n ⟨.crossover, (s.entry n).column, x % 68⟩).setCore n
      ((s.core n).substitute (s.spareOf x))).fillScratch n).darkRecord phys n cause 0 with mgmt := gen }, s.set.cores.contains n) := by
    have gone : s.goDark phys cause true = ((((((s.setPhys phys .dark).setPhys x .active).setEntry n
        ⟨.crossover, (s.entry n).column, x % 68⟩).setCore n ((s.core n).substitute (s.spareOf x))).fillScratch n).darkRecord phys n cause 0,
        s.set.cores.contains n) := by
      unfold State.goDark
      rw [active]
      dsimp only
      rw [owner]
      dsimp only
      rw [if_neg hx, if_neg (by rw [idle]; decide), if_neg (by rw [idle]; decide), if_pos rfl, ← hx']
      rfl
    show ∃ gen, s.darkenCore phys cause true = _
    unfold State.darkenCore
    rw [owner, gone]
    exact ⟨_, rfl⟩
  rw [ha]
  unfold State.darkRecord
  rw [State.note_only]
  refine ⟨rfl, rfl, rfl, rfl, rfl, ?_, fun m hm => ?_, ?_, fun m hm => ?_, ?_⟩
  · exact congrArg MapEntry.state (mapGet_mapPut_same _ _ _ _)
  · show mapGet (entryDefault m) (mapPut s.map.entries n _) m = _
    rw [mapGet_mapPut, if_neg hm]
    rfl
  · rw [← hx']
    exact (physState_setPhys (s.setPhys phys .dark) x x .active).trans (if_pos rfl)
  · exact (State.core_setCore _ _ _ _).trans (if_neg hm)
  · rw [← hx']
    exact mapGet_mapPut_same _ _ _ _

end Sys2Proof.Machine
end

section
/-!
PROOF. Writes of setup registers (R7, R9, R59, R67, R216, R291, R301, R361, R362, R370, R375, R382), and the replay that a darkened core of the
set brings (R66).
-/

namespace Sys2Proof.Machine

/-! ## One lemma for every register -/

/-- A write of a register that answers, through the row of its own. -/
theorem setRegister_register {s : State} {p : Path} {o : Nat} {r : Reg} (hopen : s.pathOpen p o = true) (ho : o % 4 = 0)
    (hr : regAt o = some r) (answers : s.regAnswers r = true) (v : Word) :
    s.setRegister p o v = (s.writeReg r o v envNone).countChanges s (s.watched r) :=
  setupWrite_register hopen (msix_of_register hr) ho hr answers v envNone

/-- A write of a core's register. -/
theorem setRegister_co {s : State} {p : Path} {n : CoreId} {o : Nat} {r : CoReg} (hopen : s.pathOpen p (coBase n.val + o) = true)
    (there : (s.entry n.val).state ≠ .absent) (present : s.panelAnswers (n.val / 64) = true) (ho : o < 0x10000 ∧ o % 4 = 0)
    (hr : coRegAt o = some r) (v : Word) :
    s.setRegister p (coBase n.val + o) v = (s.writeCo n.val r (coBase n.val + o) v).countChanges s (s.watched (.co n.val r)) :=
  setRegister_register hopen (by unfold coBase; omega) ((regAt_co n ho.1).trans (congrArg (Option.map _) hr))
    (by simp [State.regAnswers, there, present]) v

theorem wrapAdd_zero {w : Nat} (v : BitVec w) : wrapAdd v 0 = v := by simp [wrapAdd]

/-- A write that is discarded files its record; where the registers that it could change keep their values, it does nothing else. -/
theorem discard_logged (s : State) (o : Nat) (rs : List Reg)
    (same : ∀ r ∈ rs, s.regValue Latches.reset r = (s.discard o).regValue Latches.reset r) :
    (s.discard o).countChanges s rs = { s with log := ((s.discard o).countChanges s rs).log } := by
  have none : changedValues s (s.discard o) rs = 0 := by
    unfold changedValues
    rw [List.filter_eq_nil_iff.mpr fun r hr => by simp [same r hr]]
    rfl
  unfold State.countChanges
  rw [none, wrapAdd_zero]
  unfold State.discard State.setupError
  rw [State.note_only]

/-! ## Ring registers -/

theorem regAt_sqCtrl (q : RingQ) : regAt (0x1008 + 0x20 * q.val) = some (.sqCtrl q.val) := by
  revert q
  decide

theorem regAt_cqCtrl (q : RingQ) : regAt (0x1018 + 0x20 * q.val) = some (.cqCtrl q.val) := by
  revert q
  decide

theorem regAt_creditWin (w : Fin 16) : coRegAt (0x160 + 4 * w.val) = some (.creditWin w.val) := by
  revert w
  decide

/-- A submission ring that a write enables starts empty at entry 0. -/
theorem Sq.write_enables {q : Sq} {v : Word} (on : bit v 31 = true) (off : q.enable = false) :
    q.write v = { q with cq := field v 16 6, log2 := field v 0 5, enable := true, disabling := false, head := 0, tail := 0, state := .running } := by
  unfold Sq.write
  rw [on, off]
  cases bit v 30 <;> rfl

/-- A write that resumes a ring which has stopped, with its fields as they stand. -/
theorem Sq.write_resumes {q : Sq} {v : Word} (on : bit v 31 = true) (en : q.enable = true) (resume : bit v 30 = true)
    (hcq : field v 16 6 = q.cq) (hlog : field v 0 5 = q.log2) (stopped : q.state = .stopped ∨ q.state = .error) :
    q.write v = { q with state := .running } := by
  unfold Sq.write
  rw [on, resume, hcq, hlog, en]
  dsimp only
  rcases stopped with h | h
  · rw [h]
    rfl
  · rw [h]
    rfl

/-- A completion ring that a write enables starts at entry 0 with phase 1. -/
theorem Cq.write_enables {c : Cq} {v : Word} (on : bit v 31 = true) (off : c.enable = false) :
    c.write v = { c with irqEnable := bit v 30, vector := field v 16 6, log2 := field v 0 5, enable := true, tail := 0, phase := true, head := 0 } := by
  unfold Cq.write
  rw [on, off]
  rfl

/-- A completion ring that holds no entry back is not full. -/
theorem flushCq_empty {s : State} {q k : Nat} (h : (s.cq q).held = []) :
    s.flushCq (k + 1) q = s.setCq q { s.cq q with full := false } := by
  unfold State.flushCq
  dsimp only
  rw [h]

/-- The log ring that is enabled starts at entry 0; the records that this files leave that. -/
theorem startLog_starts (s : State) : s.startLog.log.ctrl = s.log.ctrl ∧ s.startLog.log.tail = 0 ∧ s.startLog.log.phase = true := by
  have filed (x : State) (a b c d e : Nat) : (x.note a b c d e).log.ctrl = x.log.ctrl ∧ (x.note a b c d e).log.tail = x.log.tail ∧
      (x.note a b c d e).log.phase = x.log.phase := by
    unfold State.note State.file
    dsimp only
    split <;> exact ⟨rfl, rfl, rfl⟩
  have restart (x : State) : x.noteRestart.log.ctrl = x.log.ctrl ∧ x.noteRestart.log.tail = x.log.tail ∧ x.noteRestart.log.phase = x.log.phase := by
    unfold State.noteRestart
    split
    · split
      · exact filed _ _ _ _ _ _
      · exact ⟨rfl, rfl, rfl⟩
    · exact ⟨rfl, rfl, rfl⟩
  have retired (x : State) : x.noteRetired.log.ctrl = x.log.ctrl ∧ x.noteRetired.log.tail = x.log.tail ∧ x.noteRetired.log.phase = x.log.phase := by
    unfold State.noteRetired
    split
    · exact ⟨rfl, rfl, rfl⟩
    · refine foldOver_rel (R := fun a b : State => b.log.ctrl = a.log.ctrl ∧ b.log.tail = a.log.tail ∧ b.log.phase = a.log.phase)
        (fun _ => ⟨rfl, rfl, rfl⟩) (fun _ _ _ h g => ⟨g.1.trans h.1, g.2.1.trans h.2.1, g.2.2.trans h.2.2⟩) (fun t e => ?_) _ _
      exact foldOver_rel (R := fun a b : State => b.log.ctrl = a.log.ctrl ∧ b.log.tail = a.log.tail ∧ b.log.phase = a.log.phase)
        (fun _ => ⟨rfl, rfl, rfl⟩) (fun _ _ _ h g => ⟨g.1.trans h.1, g.2.1.trans h.2.1, g.2.2.trans h.2.2⟩) (fun u p => filed _ _ _ _ _ _) _ _
  unfold State.startLog
  dsimp only
  obtain ⟨a1, a2, a3⟩ := restart ({ s with log := { ({ s.log with tail := 0, phase := true } : LogState) with
    full := !({ s.log with tail := 0, phase := true } : LogState).hasSpace } } : State).noteRetired
  obtain ⟨b1, b2, b3⟩ := retired { s with log := { ({ s.log with tail := 0, phase := true } : LogState) with
    full := !({ s.log with tail := 0, phase := true } : LogState).hasSpace } }
  exact ⟨a1.trans b1, a2.trans b2, a3.trans b3⟩

theorem settleColumns_mem (s : State) : s.settleColumns.mem = s.mem ∧ s.settleColumns.yoke = s.yoke := by
  unfold State.settleColumns
  refine foldOver_rel (R := fun a b : State => b.mem = a.mem ∧ b.yoke = a.yoke) (fun _ => ⟨rfl, rfl⟩)
    (fun _ _ _ h g => ⟨g.1.trans h.1, g.2.trans h.2⟩) (fun t k => ?_) _ s
  split <;> exact ⟨rfl, rfl⟩

/-- YK_EXPERT_ENABLE written. -/
theorem writeExpert_enables (s : State) (v : Word) : (s.writeExpert v).yoke.expertEnable = v &&& 0xFF ∧ (s.writeExpert v).mem = s.mem := by
  have settled (x : State) (h : x.yoke.expertEnable = v &&& 0xFF ∧ x.mem = s.mem) :
      x.settleColumns.yoke.expertEnable = v &&& 0xFF ∧ x.settleColumns.mem = s.mem := by
    obtain ⟨hm, hy⟩ := settleColumns_mem x
    exact ⟨by rw [hy, h.1], hm.trans h.2⟩
  unfold State.writeExpert
  dsimp only
  split
  · split <;> exact ⟨rfl, rfl⟩
  · refine settled _ ?_
    split <;> exact ⟨rfl, rfl⟩

/-! ## The replay after a substitution -/

/-- The set can replay behind the substitution that its core's darkening brings. -/
theorem substituted_replays {s t : State} {n : Nat} {spare : BitVec 8} (set : t.set = s.set) (host : t.host = s.host)
    (entry : (t.entry n).state = .crossover) (entries : ∀ m, m ≠ n → t.entry m = s.entry m) (cores : ∀ m, m ≠ n → t.core m = s.core m)
    (core : t.core n = (s.core n).substitute spare) (can : s.canReplay = true) : t.canReplay = true := by
  have halts : t.haltInProgress = s.haltInProgress := by
    unfold State.haltInProgress State.haltWaits State.allDescs
    rw [set, host]
  unfold State.canReplay at can ⊢
  rw [set, halts]
  simp only [Bool.and_eq_true, List.all_eq_true] at can ⊢
  refine ⟨can.1, fun m hm => ?_⟩
  by_cases e : m = n
  · subst e
    rw [entry, core]
    exact ⟨(can.2 m hm).1, rfl⟩
  · rw [entries m e, cores m e]
    exact can.2 m hm

end Sys2Proof.Machine

namespace Sys2Proof.Proofs

open Sys2Proof Sys2Proof.Machine

/-- Settles O58: every write goes through one lemma about the registers, and the replay through those about its rings and cores. -/
theorem registerWrites : Obligations.RegisterWrites := by
  unfold Obligations.RegisterWrites
  intro path n q value s c co others logged
  have same {o : Nat} {r : CoReg} (h : co o) (ho : o < 0x10000 ∧ o % 4 = 0) (hr : coRegAt o = some r) :
      s.setRegister path (coBase n.val + o) value =
        (s.writeCo n.val r (coBase n.val + o) value).countChanges s (s.watched (.co n.val r)) := by
    obtain ⟨hopen, there, present⟩ := h
    exact setRegister_co hopen there present ho hr value
  have only (f : Core → Core) : others (s.updCore n.val f) ∧ (s.updCore n.val f).core n.val = f c :=
    ⟨fun m hm => (State.core_setCore _ _ _ _).trans (if_neg hm), State.core_setCore_same _ _ _⟩
  refine ⟨fun hopen => ?_, fun h => ?_, fun h => ?_, fun w h => ?_, fun hopen => ?_, fun env hopen asks hn there act => ?_, fun hopen lock => ?_,
    fun hopen fits => ⟨fun off on cq => ?_, fun en on resume hcq hlog stopped => ?_⟩, fun hopen fits off on none => ?_, fun hopen fits off on => ?_,
    fun hopen => ?_, fun env hopen => ?_, fun env up powered => ?_, fun off env up dark => ?_⟩
  · refine ⟨_, congrArg Host.Outcome.next (setRegister_register (r := .expertEnable) hopen rfl rfl rfl value), ?_⟩
    exact writeExpert_enables s value
  · refine ⟨_, congrArg Host.Outcome.next (same (o := 0x84) (r := .rosterFault) h ⟨by decide, by decide⟩ rfl), ?_⟩
    show others (s.clearFaulted n.val value) ∧ (s.clearFaulted n.val value).core n.val = _
    unfold State.clearFaulted
    split
    · exact only _
    · exact ⟨fun _ _ => rfl, rfl⟩
  · intro size
    have hw := same (o := 0x90) (r := .rosterRegion) h ⟨by decide, by decide⟩ rfl
    refine ⟨fun bad => ?_, fun pos fits => ?_⟩
    · have hd : s.writeCo n.val .rosterRegion (coBase n.val + 0x90) value = s.discard (coBase n.val + 0x90) := if_pos bad
      rw [hd] at hw
      refine ⟨_, congrArg Host.Outcome.next hw, discard_logged _ _ _ fun r hr => ?_⟩
      have hr' : r = .co n.val .rosterRegion := List.mem_singleton.mp hr
      rw [hr']
      unfold State.discard State.setupError
      rw [State.note_only]
      rfl
    · have hd : s.writeCo n.val .rosterRegion (coBase n.val + 0x90) value = s.updCore n.val fun c =>
          { c with seq := { c.seq with regionReg := value, regionNow := if s.set.running then c.seq.regionNow else value } } :=
        if_neg (by simp only [size] at pos fits; omega)
      rw [hd] at hw
      obtain ⟨ho, hc⟩ := only fun c => { c with seq := { c.seq with regionReg := value, regionNow := if s.set.running then c.seq.regionNow else value } }
      exact ⟨_, congrArg Host.Outcome.next hw, ho, congrArg (·.seq.regionReg) hc, congrArg (·.seq.regionNow) hc⟩
  · intro fits
    have hw := same h ⟨by omega, by omega⟩ (regAt_creditWin w)
    refine ⟨fun bad => ?_, fun good => ?_⟩
    · have hd : s.writeCo n.val (.creditWin w.val) (coBase n.val + (0x160 + 4 * w.val)) value = s.discard (coBase n.val + (0x160 + 4 * w.val)) :=
        if_pos (by simp only [fits] at bad; omega)
      rw [hd] at hw
      exact ⟨_, congrArg Host.Outcome.next hw, discard_logged _ _ _ nofun⟩
    · have hd : s.writeCo n.val (.creditWin w.val) (coBase n.val + (0x160 + 4 * w.val)) value = s.updCore n.val fun c =>
          { c with scr := { c.scr with windows := mapPut c.scr.windows w.val (field value 0 8 &&& 0xF7) } } :=
        if_neg (by simp only [fits] at good; omega)
      rw [hd] at hw
      obtain ⟨ho, hc⟩ := only fun c => { c with scr := { c.scr with windows := mapPut c.scr.windows w.val (field value 0 8 &&& 0xF7) } }
      refine ⟨_, congrArg Host.Outcome.next hw, ho, ?_, congrArg (·.scr.windowsNow) hc⟩
      exact (congrArg (fun c : Core => mapGet 0 c.scr.windows w.val) hc).trans (mapGet_mapPut_same _ _ _ _)
  · exact ⟨_, congrArg Host.Outcome.next (setRegister_register (r := .dmaStatus) hopen rfl rfl rfl value), rfl, rfl⟩
  · have hw : s.setupWrite path 0x520 4 (value.setWidth 64) env = (s.darken (s.physOf n.val) 5 env.selfTest).countChanges s [] := by
      refine (setupWrite_register (r := .coreDarken) hopen rfl rfl rfl rfl value env).trans (congrArg (State.countChanges · s []) ?_)
      show s.askDarken value env.selfTest = _
      unfold State.askDarken
      rw [hn]
      exact if_pos (by simp [asks, there])
    refine ⟨_, congrArg Host.Outcome.next hw, ?_, ?_⟩
    · exact congrArg physDark (darken_dark act 5 env.selfTest)
    · intro x owner hx idle pass mine can served
      obtain ⟨replays, hset, hrings, hhost, hpanels, hentry, hentries, hphys, hcores, hcore⟩ := darkenCore_substitutes act owner hx idle 5
      generalize ha : s.darkenCore (s.physOf n.val) 5 true = a at replays hset hrings hhost hpanels hentry hentries hphys hcores hcore
      have hd : s.darken (s.physOf n.val) 5 env.selfTest = a.1.lapReplay 5 := by
        unfold State.darken
        rw [pass, ha]
        exact if_pos (by rw [replays]; simpa using mine)
      have can' := substituted_replays hset hhost hentry hentries hcores hcore can
      have minLap : a.1.minLap = s.minLap := by unfold State.minLap; rw [hrings]
      have replayed : ∀ m, m ∈ s.replayCores → m ∈ a.1.replayCores := by
        intro m hm
        have answers : a.1.panelAnswers (m / 64) = s.panelAnswers (m / 64) := by unfold State.panelAnswers State.panel; rw [hpanels]
        unfold State.replayCores at hm ⊢
        rw [List.mem_filter] at hm ⊢
        rw [hset, answers]
        refine ⟨hm.1, ?_⟩
        by_cases e : m = n.val
        · subst e
          rw [hentry]
          simpa using (by simpa using hm.2 : _ ∧ _).1
        · rw [hentries m e]
          exact hm.2
      obtain ⟨credit, rings, cores⟩ := lapReplay_replays can' (by rw [hrings]; exact served) 5
      rw [minLap] at rings cores
      show ((s.darken (s.physOf n.val) 5 env.selfTest).entry n.val).state = _ ∧ (s.darken (s.physOf n.val) 5 env.selfTest).physState x = _ ∧
        (s.darken (s.physOf n.val) 5 env.selfTest).credit = [] ∧ (∀ k ∈ allRings, ((s.darken (s.physOf n.val) 5 env.selfTest).ring k).lap = _ ∧
        ((s.darken (s.physOf n.val) 5 env.selfTest).ring k).slot = 0 ∧ ((s.darken (s.physOf n.val) 5 env.selfTest).ring k).atEnd = false) ∧
        ∀ m ∈ s.replayCores, ((s.darken (s.physOf n.val) 5 env.selfTest).core m).seq.run = _ ∧
          ((s.darken (s.physOf n.val) 5 env.selfTest).core m).seq.lap = _ ∧
          ((s.darken (s.physOf n.val) 5 env.selfTest).core m).seq.position.toNat = _ ∧
          ((s.darken (s.physOf n.val) 5 env.selfTest).core m).moveQ = [] ∧
          ∀ r, regGet ((s.darken (s.physOf n.val) 5 env.selfTest).core m).seq.regs r = 0
      rw [hd]
      refine ⟨?_, ?_, credit, rings, fun m hm => ?_⟩
      · unfold State.entry
        rw [lapReplay_map]
        exact hentry
      · exact (physState_congr (congrArg CoreMap.phys (lapReplay_map _ _)) _).trans hphys
      · obtain ⟨mark, word⟩ := cores m (replayed m hm)
        have word' : restartWord (a.1.core m).seq s.minLap = restartWord (s.core m).seq s.minLap := by
          by_cases e : m = n.val
          · rw [e, hcore]
            rfl
          · rw [hcores m e]
        refine ⟨mark.run, mark.lapNow, mark.position.trans (word.trans word'), mark.moveQ, fun r => ?_⟩
        rw [mark.regs]
        unfold regGet
        split <;> rfl
  · refine ⟨_, congrArg Host.Outcome.next (setRegister_register (r := .clTagCtrl) hopen rfl rfl rfl value), ?_⟩
    have ht : s.writeReg .clTagCtrl 0x0900000C value envNone = s.lockTags := if_pos lock
    rw [ht]
    exact ⟨rfl, rfl⟩
  · have ht : s.writeReg (.sqCtrl q.val) (0x1008 + 0x20 * q.val) value envNone = s.setSq q.val ((s.sq q.val).write value) := by
      refine if_neg ?_
      simp only [fits, off, cq, Bool.not_true, Bool.false_or, Bool.false_and, Bool.and_false, Bool.false_eq_true, not_false_eq_true]
    have hen : (s.sq q.val).enable = false := by
      unfold Sq.acts at off
      exact (Bool.or_eq_false_iff.mp off).1
    refine ⟨_, congrArg Host.Outcome.next (setRegister_register (r := .sqCtrl q.val) hopen (by omega) (regAt_sqCtrl q) rfl value), ?_⟩
    rw [ht]
    exact (State.sq_setSq_same _ _ _).trans (Sq.write_enables on hen)
  · have ht : s.writeReg (.sqCtrl q.val) (0x1008 + 0x20 * q.val) value envNone = s.setSq q.val ((s.sq q.val).write value) := by
      refine if_neg ?_
      simp only [fits, hcq, hlog, en, beq_self_eq_true, Bool.not_true, Bool.false_or, Bool.and_false, Bool.and_self, Bool.false_and,
        Bool.false_eq_true, not_false_eq_true]
    refine ⟨_, congrArg Host.Outcome.next (setRegister_register (r := .sqCtrl q.val) hopen (by omega) (regAt_sqCtrl q) rfl value), ?_⟩
    rw [ht]
    exact (State.sq_setSq_same _ _ _).trans (Sq.write_resumes on en resume hcq hlog stopped)
  · have hw : (s.cq q.val).write value = { s.cq q.val with
        irqEnable := bit value 30, vector := field value 16 6, log2 := field value 0 5, enable := true, tail := 0, phase := true, head := 0 } :=
      Cq.write_enables on off
    have hc : ((s.cq q.val).write value).enable = true := by rw [hw]
    have ht : s.writeReg (.cqCtrl q.val) (0x1018 + 0x20 * q.val) value envNone =
        (s.setCq q.val ((s.cq q.val).write value)).flushCq ((s.cq q.val).held.length + 1) q.val := by
      show s.writeCq q.val (0x1018 + 0x20 * q.val) value = _
      unfold State.writeCq
      dsimp only
      rw [if_neg (by rw [fits, off]; nofun), if_pos hc]
    refine ⟨_, congrArg Host.Outcome.next (setRegister_register (r := .cqCtrl q.val) hopen (by omega) (regAt_cqCtrl q) rfl value), ?_⟩
    rw [ht]
    have held : ((s.setCq q.val ((s.cq q.val).write value)).cq q.val).held = [] := by
      rw [State.cq_setCq_same, hw]
      exact none
    rw [flushCq_empty held]
    refine (State.cq_setCq_same _ _ _).trans ?_
    rw [State.cq_setCq_same, hw]
  · have ht : s.writeReg .logCtrl 0x508 value envNone = ({ s with log := { s.log with ctrl := value &&& 0xC000FF1F } } : State).startLog := by
      show s.writeLogCtrl 0x508 value = _
      unfold State.writeLogCtrl
      dsimp only
      rw [if_neg (by rw [fits, off]; nofun), if_pos (by rw [on, off]; rfl)]
    refine ⟨_, congrArg Host.Outcome.next (setRegister_register (r := .logCtrl) hopen rfl rfl rfl value), ?_⟩
    rw [ht]
    exact startLog_starts _
  · exact ⟨_, congrArg Host.Outcome.next (setRegister_register (r := .logHead) hopen rfl rfl rfl value), rfl⟩
  · exact ⟨_, congrArg Host.Outcome.next (setupWrite_register (r := .coreMapIndex) hopen rfl rfl rfl rfl value env), rfl, rfl⟩
  · have ht : s.commandWrite 0x1000004 value env = (s.putReg .pwHostCap 0x1000004 value env).answer (.command 2 true []) := by
      unfold State.commandWrite
      rw [up, powered]
      have hv : (value.setWidth 64).setWidth 32 = value := by
        apply BitVec.eq_of_toNat_eq
        simp
      have hr : regAt 0x1000004 = some .pwHostCap := rfl
      unfold State.writeSetup
      rw [hr, hv]
      rfl
    exact ⟨_, congrArg Host.Outcome.next ht, rfl, rfl⟩
  · have ht : s.commandWrite off.toNat value env = s.answer (.unavailable 2) := by
      unfold State.commandWrite
      rw [up, dark]
      rfl
    exact ⟨_, congrArg Host.Outcome.next ht, rfl, rfl⟩

end Sys2Proof.Proofs
end

section
/-!
PROOF. Firmware images and attestation (R376 to R379, Table 18-4).
-/
namespace Sys2Proof.Machine

/-! ### Firmware banks -/

theorem State.fw_setFw_same (s : State) (c : Nat) (f : Firmware) : (s.setFw c f).fw c = f := mapGet_mapPut_same _ _ _ _

theorem State.fw_setFw_other (s : State) {c d : Nat} (f : Firmware) (h : d ≠ c) : (s.setFw c f).fw d = s.fw d :=
  mapGet_mapPut_other _ _ _ _ _ h

/-- An image that verifies stands in the bank that the update makes the active one; that bank is pending. -/
theorem Firmware.update_verified (f : Firmware) (i : FirmwareImage) :
    (f.update i true).pending = true ∧
      (if (f.update i true).activeB then (f.update i true).bankB else (f.update i true).bankA) = some ⟨i.version, i.svn, i.digest⟩ := by
  unfold Firmware.update Firmware.putBank
  cases f.inactiveB <;> exact ⟨rfl, rfl⟩

/-- An image that does not verify leaves the bank that it was written to without one. -/
theorem Firmware.update_refused (f : Firmware) (i : FirmwareImage) :
    (f.update i false).pending = false ∧ (if f.inactiveB then (f.update i false).bankB else (f.update i false).bankA) = none := by
  unfold Firmware.update Firmware.putBank
  cases f.inactiveB <;> exact ⟨rfl, rfl⟩

/-- An update leaves the running bank and the anti-rollback counter. -/
theorem Firmware.update_running (f : Firmware) (i : FirmwareImage) (ok : Bool) :
    (f.update i ok).running = f.running ∧ (f.update i ok).counter = f.counter := by
  unfold Firmware.update Firmware.putBank
  cases f.inactiveB <;> exact ⟨rfl, rfl⟩

/-! ### Attestation -/

/-- A request changes the connection of its responder and what is put out, and draws free values. -/
def Attested (s t : State) (a : Answer) : Prop :=
  t.out.answers = a :: s.out.answers ∧ t = { s with out := t.out, mgmt := t.mgmt, freeTick := t.freeTick } ∧
    t.mgmt = { s.mgmt with mctp := t.mgmt.mctp, doe := t.mgmt.doe }

/-- The connection of a responder that answers takes its new state, and the request its fields. -/
theorem spdm_attested {s : State} {tr : Transport} (h : s.responds tr = true) (c : Spdm) (req : Nat) (data : List Byte) :
    Attested s ((s.setSpdm tr c).spdm tr req data) (.spdm req true data) := by
  unfold State.spdm State.setSpdm
  rw [if_pos h]
  cases tr with
  | mctp => rw [if_pos (show ({ s with mgmt := { s.mgmt with mctp := c } } : State).responds .mctp = true from h)]; exact ⟨rfl, rfl, rfl⟩
  | doe => rw [if_pos (show ({ s with mgmt := { s.mgmt with doe := c } } : State).responds .doe = true from h)]; exact ⟨rfl, rfl, rfl⟩

/-- A request without a connection of its own is answered with its fields. -/
theorem spdm_answered {s : State} {tr : Transport} (h : s.responds tr = true) (req : Nat) (data : List Byte) :
    Attested s (s.spdm tr req data) (.spdm req true data) := by
  unfold State.spdm
  rw [if_pos h]
  exact ⟨rfl, rfl, rfl⟩

/-- A request on one of the two slots that hold chains: answered where its responder offers the slot, Busy where it does not. -/
theorem onSlot_answers {s x : State} {tr : Transport} (h : s.responds tr = true) {slot : Nat} (low : slot < 2)
    (hx : x = { s with freeTick := x.freeTick }) (req : Nat) (data : List Byte) :
    Attested s (x.onSlot tr req slot data) (if slot ∈ s.slotsOf tr then .spdm req true data else .busy req) := by
  obtain ⟨tick, rfl⟩ : ∃ n, x = { s with freeTick := n } := ⟨_, hx⟩
  have answers : ({ s with freeTick := tick } : State).responds tr = true := by cases tr <;> exact h
  have slots : ({ s with freeTick := tick } : State).slotsOf tr = s.slotsOf tr := by cases tr <;> rfl
  unfold State.onSlot
  rw [answers, slots, if_neg (by nofun), if_neg (by omega)]
  by_cases offers : slot ∈ s.slotsOf tr
  · rw [if_pos (List.contains_iff_mem.mpr offers), if_pos offers]
    exact ⟨rfl, rfl, rfl⟩
  · rw [if_neg (mt List.contains_iff_mem.mp offers), if_neg offers]
    exact ⟨rfl, rfl, rfl⟩

/-- One block of a request for measurements: the number of blocks, or one of the seven. -/
theorem measurements_block (s : State) {block : Nat} (h : block ≤ 7) :
    s.measurements block = some (if block = 0 then [7] else s.measurement block) := by
  unfold State.measurements
  rw [if_neg (by omega), if_pos h]
  exact (apply_ite some _ _ _).symm

end Sys2Proof.Machine

namespace Sys2Proof.Proofs
open Sys2Proof Sys2Proof.Machine

/-- Settles O55: an update writes one bank of one component, and each request is answered by the slots that its responder offers. -/
theorem firmwareAndAttestation : Obligations.FirmwareAndAttestation := by
  intro s
  refine ⟨fun image up low high => ?_, fun tr h => ?_⟩
  · let t := (s.setFw image.component ((s.fw image.component).update image (s.verifies image))).answer
      (.firmware image.component (s.verifies image))
    have same : t.fw image.component = (s.fw image.component).update image (s.verifies image) := State.fw_setFw_same _ _ _
    obtain ⟨running, counter⟩ := Firmware.update_running (s.fw image.component) image (s.verifies image)
    refine ⟨congrArg Host.Outcome.next (if_pos (by simp [up, low, high])), fun ok => ?_, fun bad => ?_,
      (congrArg Firmware.running same).trans running, (congrArg Firmware.counter same).trans counter,
      fun c hc => State.fw_setFw_other _ _ hc⟩
    · rw [ok] at same
      rw [same]
      exact Firmware.update_verified _ _
    · rw [bad] at same
      rw [same]
      exact Firmware.update_refused _ _
  · refine ⟨⟨_, rfl, spdm_attested h _ _ _⟩, ⟨_, rfl, spdm_answered h _ _⟩, ⟨_, rfl, spdm_attested h _ _ _⟩,
      ⟨_, rfl, spdm_answered h _ _⟩, fun slot nonce block => ⟨fun low offers => ?_, fun low offers => ?_⟩⟩
    · have answers (x : State) (hx : x = { s with freeTick := x.freeTick }) (req : Nat) (data : List Byte) :
          Attested s (x.onSlot tr req slot.val data) (.spdm req true data) := by
        have a := onSlot_answers h low hx req data
        rwa [if_pos offers] at a
      refine ⟨⟨_, rfl, answers s rfl _ _⟩, ⟨_, rfl, ?_⟩, fun one seven => ⟨_, rfl, ?_⟩⟩
      · have all : signedBytes slot.val nonce [] = BitVec.ofNat 8 slot.val :: nonce := by rw [signedBytes, List.append_nil]
        rw [all]
        exact answers s rfl _ _
      · rw [measurements_block s seven, if_neg (by omega)]
        exact answers (s.drewBytes 71) rfl _ _
    · have answers (x : State) (hx : x = { s with freeTick := x.freeTick }) (req : Nat) (data : List Byte) :
          Attested s (x.onSlot tr req slot.val data) (.busy req) := by
        have a := onSlot_answers h low hx req data
        rwa [if_neg offers] at a
      refine ⟨⟨_, rfl, answers s rfl _ _⟩, ⟨_, rfl, answers s rfl _ _⟩, fun seven => ⟨_, rfl, ?_⟩⟩
      rw [measurements_block s seven]
      exact answers (s.drewBytes 71) rfl _ _

end Sys2Proof.Proofs
end

section
/-!
PROOF. What the completion of descriptors leaves alone, and the commands of the Collar: holds of the log, the fingerprint, the tag area and
the test chain (R276, R367, R380, R382, R385 to R392).
-/
namespace Sys2Proof.Machine

/-! ### Completions and summaries -/

/-- A descriptor's completion or data: the host interface, host memory and interrupts, loaded marks, scrub passes and free values. -/
structure Posts (s t : State) : Prop where
  eq : t = { s with host := t.host, rings := t.rings, scrubs := t.scrubs, freeTick := t.freeTick,
                    out := { s.out with hostMem := t.out.hostMem, writes := t.out.writes, msix := t.out.msix } }

theorem Posts.refl (s : State) : Posts s s := ⟨rfl⟩

theorem Posts.trans {s t u : State} (h : Posts s t) (k : Posts t u) : Posts s u := ⟨by rw [k.eq, h.eq]⟩

theorem signal_posts (s : State) (v : Nat) : Posts s (s.signal v) := by
  unfold State.signal
  split <;> exact ⟨rfl⟩

theorem writeEntry_posts (s : State) (cq : Nat) (e : HeldEntry) : Posts s (s.writeEntry cq e) := by
  unfold State.writeEntry
  dsimp only
  split
  · split
    · exact (Posts.trans (t := State.setCq (s.hostWrite _ _ _) cq _) ⟨rfl⟩ (signal_posts _ _))
    · exact ⟨rfl⟩
  · exact ⟨rfl⟩

theorem complete_posts (s : State) (q : Nat) (d : Desc) (status specific : Nat) : Posts s (s.complete q d status specific) := by
  have posted : Posts s ((s.dropDesc q d).postEntry q d status specific) := by
    refine Posts.trans (t := s.dropDesc q d) ⟨rfl⟩ ?_
    unfold State.postEntry
    dsimp only
    split
    · exact writeEntry_posts _ _ _
    · exact ⟨rfl⟩
  unfold State.complete
  dsimp only
  split
  · exact posted.trans ⟨rfl⟩
  · exact posted

theorem endScrub_posts (s : State) (p : ScrubPass) (d : Desc) (code status : Nat) (wrote : HostWrite) :
    Posts s (s.endScrub p d code status wrote) := by
  unfold State.endScrub
  dsimp only
  refine Posts.trans ?_ (complete_posts _ _ _ _ _)
  unfold State.drewTimes
  split <;> exact ⟨rfl⟩

theorem abort_posts (s : State) (q : Nat) (d : Desc) : Posts s (s.abort q d) := by
  unfold State.abort
  split
  · exact endScrub_posts _ _ _ _ _ _
  · split
    · exact endScrub_posts _ _ _ _ _ _
    · exact complete_posts _ _ _ _ _

theorem Posts.fold {α : Type} (l : List α) (f : State → α → State) (h : ∀ t a, Posts t (f t a)) (s : State) : Posts s (foldOver l f s) :=
  foldOver_rel Posts.refl (fun _ _ _ => Posts.trans) h l s

theorem Posts.answers {s t : State} (h : Posts s t) : t.out.answers = s.out.answers := by rw [h.eq]

theorem Posts.set {s t : State} (h : Posts s t) : t.set = s.set := by rw [h.eq]

/-! ### A HALT's work with no set active -/

/-- A ring that was sent back is in its open image or heads for it. -/
theorem Ring.release_opens (r : Ring) : r.release.use = .opened ∨ r.release.toOpen = true := by
  unfold Ring.release
  split
  · exact .inl ‹_›
  · exact .inr rfl

/-- Every ring of the released state is in its open image or heads for it. -/
theorem releaseRings_opens (s : State) : ∀ e ∈ s.releaseRings.rings, e.2.use = .opened ∨ e.2.toOpen = true := by
  intro e he
  obtain ⟨r, -, rfl⟩ := List.mem_map.mp he
  exact Ring.release_opens _

/-- Panels that rejoin are admitted: their records alone change. -/
theorem admitPanels_only (s : State) : s.admitPanels = { s with panels := s.admitPanels.panels } := by
  unfold State.admitPanels
  refine foldOver_rel (R := fun a b => b = { a with panels := b.panels }) (fun _ => rfl) (fun a b c hab hbc => ?_) (fun a p => ?_) _ s
  · rw [hbc, hab]
  · split <;> rfl

/-- With no set active, a HALT aborts descriptors and sends every ring back. -/
theorem haltBody_idle {s : State} (idle : s.set.running = false) : ∃ x, Posts s x ∧ s.haltBody = x.releaseRings.admitPanels := by
  unfold State.haltBody
  dsimp only
  rw [idle, if_neg Bool.false_ne_true]
  refine ⟨_, ?_, rfl⟩
  refine Posts.trans ?_ (Posts.fold _ _ (fun t (e : Nat × Desc) => abort_posts t e.1 e.2) _)
  exact ⟨rfl⟩

/-- The rings as a HALT leaves them. -/
theorem admitPanels_opens (x : State) : ∀ e ∈ x.releaseRings.admitPanels.rings, e.2.use = .opened ∨ e.2.toOpen = true := by
  rw [admitPanels_only]
  exact releaseRings_opens x

/-! ### The end of a coalescing hold (R367) -/

/-- An entry is found by its class, location and detail where no two entries share them. -/
theorem find_entry {es : List LogEntry} {e : LogEntry} (mem : e ∈ es) (distinct : (es.map fun f => (f.cls, f.location, f.detail)).Nodup) :
    es.find? (fun f => f.cls.toNat == e.cls.toNat && f.location.toNat == e.location.toNat && f.detail == e.detail) = some e := by
  have unique : ∀ f ∈ es, (f.cls, f.location, f.detail) = (e.cls, e.location, e.detail) → f = e :=
    fun f hf h => List.inj_on_of_nodup_map distinct hf mem h
  cases found : es.find? (fun f => f.cls.toNat == e.cls.toNat && f.location.toNat == e.location.toNat && f.detail == e.detail) with
  | none =>
    have no := List.find?_eq_none.mp found e mem
    simp at no
  | some f =>
    have key := List.find?_some found
    rw [Bool.and_eq_true, Bool.and_eq_true, beq_iff_eq, beq_iff_eq, beq_iff_eq] at key
    obtain ⟨⟨cls, location⟩, detail⟩ := key
    rw [unique f (List.mem_of_find?_eq_some found)
      (by rw [BitVec.eq_of_toNat_eq cls, BitVec.eq_of_toNat_eq location, detail])]

/-- Where no record waits and none is lost, a queue is not refilled. -/
theorem refill_idle {g : LogSource} (fuel group : Nat) (settled : ∀ f ∈ g.entries, f.waits = false) (kept : ∀ l ∈ g.lost, l.2 = []) :
    g.refill fuel group = g := by
  cases fuel with
  | zero => rfl
  | succ k =>
    have none1 : g.entries.find? (·.waits) = none := List.find?_eq_none.mpr fun f hf => by rw [settled f hf]; nofun
    have none2 : (g.lost.find? fun e => !e.2.isEmpty) = none := List.find?_eq_none.mpr fun l hl => by rw [kept l hl]; nofun
    unfold LogSource.refill
    split
    · rfl
    · rw [none1]
      dsimp only
      rw [none2]

theorem logSource_setLogSource (s : State) (g : Nat) (x : LogSource) : (s.setLogSource g x).logSource g = x :=
  mapGet_mapPut_same _ _ _ _

/-- What the end of an entry's hold leaves of its source. -/
def LogSource.unheld (x : LogSource) (e : LogEntry) (holdEnd : Nat) : LogSource :=
  match e.pending with
  | some r => x.releaseEntry e r holdEnd
  | none => { x with entries := x.entries.erase e }

/-- The hold of an entry that does not wait ends at its time, and the source then refills its queue. -/
theorem holdEnd_found {s : State} {g : Nat} {e : LogEntry} (mem : e ∈ (s.logSource g).entries) (quiet : e.waits = false)
    (distinct : ((s.logSource g).entries.map fun f => (f.cls, f.location, f.detail)).Nodup) :
    s.holdEnd g e.cls.toNat e.location.toNat e.detail = (s.reach e.holdEnd).setLogSource g
      (((s.logSource g).unheld e ((s.reach e.holdEnd).now + s.coalesceNs)).refill 64 g) := by
  unfold State.holdEnd
  dsimp only
  rw [find_entry mem distinct]
  dsimp only
  rw [quiet]
  rfl

/-- Where its queue has a place, a source's entry is released into it and waits no more. -/
theorem releaseEntry_queues {x : LogSource} (e : LogEntry) (r : ErrRecord) (holdEnd : Nat) (place : x.queue.length < 16) :
    (x.releaseEntry e r holdEnd).queue = x.queue ++ [{ r with lost := x.flag.contains r.cls.toNat }] ∧
      (x.releaseEntry e r holdEnd).lost = x.lost ∧
      ∀ f ∈ (x.releaseEntry e r holdEnd).entries, f ∈ x.entries ∨ f.waits = false := by
  unfold LogSource.releaseEntry LogSource.push
  dsimp only
  rw [if_pos place]
  refine ⟨rfl, rfl, fun f hf => ?_⟩
  rcases List.mem_append.mp hf with old | new
  · exact .inl (List.mem_of_mem_filter old)
  · exact .inr (by rw [List.mem_singleton.mp new])

/-! ### Commands -/

/-- What a command that is accepted does, and its answer. -/
theorem command_done {s : State} (up : s.collarUp = true) (code : Nat) (f : State → State) {ok : Bool} (accepted : ok = true) :
    s.command code ok f = (f s).answer (.command code true []) := by
  unfold State.command
  rw [up, accepted]
  rfl

/-- A command that is refused changes nothing and is answered. -/
theorem command_refused {s : State} (up : s.collarUp = true) (code : Nat) (f : State → State) {ok : Bool} (no : ok = false) :
    s.command code ok f = s.answer (.command code false []) := by
  unfold State.command
  rw [up, no]
  rfl

/-- A command leaves the Collar's locks, its tag area and its test mode as they are, whatever it answers. -/
def LocksKept (s t : State) (a : Answer) : Prop :=
  t.out.answers = a :: s.out.answers ∧ t = { s with out := t.out, mgmt := t.mgmt } ∧ t.mgmt.tagBytes = s.mgmt.tagBytes ∧
    t.mgmt.tagLocked = s.mgmt.tagLocked ∧ t.mgmt.debugLocked = s.mgmt.debugLocked ∧ t.mgmt.testMode = s.mgmt.testMode

/-- TAG_UNLOCK without the strap is refused and reported. -/
theorem tagUnlock_refused {s : State} (up : s.collarUp = true) : LocksKept s (s.tagUnlock false) (.command 0x0B false []) := by
  have h : s.tagUnlock false = ((s.sampleStrap false).answer (.command 0x0B false [])).event .tagUnlockRefused 0 0 := by
    refine (if_pos (by rw [up]; rfl)).trans ?_
    exact congrArg (fun t : State => t.event .tagUnlockRefused 0 0) (command_refused (s := s.sampleStrap false) up _ _ rfl)
  unfold LocksKept
  rw [h, State.event_only]
  exact ⟨rfl, rfl, rfl, rfl, rfl, rfl⟩

/-- A test mode that is accepted: a HALT's work with no set active, and the mode. -/
theorem testMode_done {s : State} (up : s.collarUp = true) (idle : s.set.running = false) (unlocked : s.mgmt.debugLocked = false) :
    ∃ y : State, y.out.answers = s.out.answers ∧ y.set.running = false ∧ (∀ e ∈ y.rings, e.2.use = .opened ∨ e.2.toOpen = true) ∧
      exec (.testMode true) s = .next (({ y with mgmt := { y.mgmt with testMode := true } } : State).answer (.command 0x0E true [])) := by
  obtain ⟨x, posts, hx⟩ := haltBody_idle (s := s.sampleStrap true) idle
  refine ⟨(s.sampleStrap true).haltBody, ?_, ?_, ?_, ?_⟩
  · rw [hx, admitPanels_only]
    exact posts.answers
  · rw [hx, admitPanels_only]
    exact (congrArg ActiveSet.running posts.set).trans idle
  · rw [hx]
    exact admitPanels_opens x
  · exact congrArg Host.Outcome.next (command_done (s := s.sampleStrap true) up _ _ (by rw [idle, unlocked]; rfl))

/-! ### The fingerprint -/

/-- A record and its digest take effect and are counted; an event may be sent. -/
theorem keepDigest_keeps (s : State) (record digest : List Byte) (unstable : Bool) :
    let t := s.keepDigest record digest unstable
    t.mgmt.digest = digest ∧ t.mgmt.genDone = s.mgmt.gen ∧ t.mgmt.computations = wrapAdd s.mgmt.computations 1 ∧
      t.mem = s.mem ∧ t.power = s.power ∧ t.out.answers = s.out.answers := by
  unfold State.keepDigest
  dsimp only
  split
  · exact ⟨rfl, rfl, rfl, rfl, rfl, rfl⟩
  · rw [State.event_only]
    exact ⟨rfl, rfl, rfl, rfl, rfl, rfl⟩

theorem computeFingerprint_keeps (s : State) (unstable : Bool) :
    (s.computeFingerprint unstable).mgmt.digest = sha3 s.canonicalRecord ∧ (s.computeFingerprint unstable).mgmt.genDone = s.mgmt.gen ∧
      (s.computeFingerprint unstable).mgmt.computations = wrapAdd s.mgmt.computations 1 ∧ (s.computeFingerprint unstable).mem = s.mem ∧
      (s.computeFingerprint unstable).power = s.power ∧ (s.computeFingerprint unstable).out.answers = s.out.answers := by
  have whole : s.computeFingerprint unstable = s.keepDigest s.canonicalRecord (sha3 s.canonicalRecord) unstable := rfl
  rw [whole]
  exact keepDigest_keeps s _ _ unstable

/-! ### The test chain -/

theorem chainEffect_dramRepair {s : State} {k : PhysId} {w : DramRepair} (left : (s.column k.val).spareLeft w = true) :
    s.chainEffect (.dramRepair k w) = s.setColumn k.val { s.column k.val with repairs := (s.column k.val).repairs ++ [w] } :=
  if_pos left

theorem chainEffect_repairLogClear (s : State) (k : PhysId) (j : Fin 8) : s.chainEffect (.repairLogClear k j) =
    s.setColumn k.val { s.column k.val with logCleared := j.val :: (s.column k.val).logCleared.erase j.val } := rfl

/-- An access that the chain accepts takes effect, draws a free value and is answered with its result. -/
theorem chainAccess_accepted {s : State} {a : ChainAccess} (ok : s.chainAccepts a = true) :
    s.chainAccess a = (s.chainEffect a).drew.answer (.chain true (s.chainResult a)) := if_pos ok

theorem chainAccess_bypassed {s : State} {a : ChainAccess} (no : s.chainAccepts a = false) :
    s.chainAccess a = s.answer (.chain false .none) := if_neg (by rw [no]; nofun)

/-- With a set active, no instrument of a Cuff is reached. -/
theorem chainAccepts_cuff {s : State} {x : Fin 22} (hx : 10 ≤ x.val) (active : s.set.running = true) :
    s.chainAccepts (.readInstrument x) = false := by
  unfold State.chainAccepts
  dsimp only
  rw [active, decide_eq_false (by omega)]
  simp

/-- What an access of the chain answers and changes, with an answer of the command around it or without one. -/
theorem chainAccess_result {s t : State} {a : ChainAccess} (ok : s.chainAccepts a = true)
    (kept : t = { s.chainAccess a with out := t.out }) (answered : ∀ r ∈ (s.chainAccess a).out.answers, r ∈ t.out.answers) :
    .chain true (s.chainResult a) ∈ t.out.answers ∧ (a = .scan → t.mgmt.scanned = true) ∧
      (∀ k w, a = .dramRepair k w → (s.column k.val).spareLeft w = true →
        (t.column k.val).repairs = (s.column k.val).repairs ++ [w]) ∧
      (∀ k j, a = .repairLogClear k j → j.val ∈ (t.column k.val).logCleared) := by
  rw [chainAccess_accepted ok] at kept answered
  have columns : t.columns = (s.chainEffect a).columns := (congrArg State.columns kept).trans rfl
  have mgmt : t.mgmt = (s.chainEffect a).mgmt := (congrArg State.mgmt kept).trans rfl
  refine ⟨answered _ List.mem_cons_self, ?_, ?_, ?_⟩
  · rintro rfl
    rw [mgmt]
    rfl
  · rintro k w rfl left
    unfold State.column
    rw [columns, chainEffect_dramRepair left]
    exact congrArg Column.repairs (State.column_setColumn_same _ _ _)
  · rintro k j rfl
    unfold State.column
    rw [columns, chainEffect_repairLogClear]
    exact (congrArg Column.logCleared (State.column_setColumn_same s k.val _)).symm ▸ List.mem_cons_self

end Sys2Proof.Machine

namespace Sys2Proof.Proofs
open Sys2Proof Sys2Proof.Machine

/-- Settles O54: the end of a hold finds its entry, each command answers by its condition, and the chain's accesses by theirs. -/
theorem collarCommands : Obligations.CollarCommands := by
  intro s strap
  refine ⟨fun g e mem quiet distinct kept => ⟨fun idle => ?_, fun r pending place => ?_⟩,
    fun unstable => ⟨fun up auto news => ?_, fun up whole h o dark held => ?_, fun up yoke whole => ⟨?_, fun o => ?_⟩⟩,
    fun up => ⟨fun off bytes => ⟨fun opened may => ?_, fun no => ?_⟩, ?_, ?_, ?_, ?_, ?_, ?_, ?_⟩,
    fun a => ⟨fun up mine unlocked => ?_, fun ext => ?_⟩, ?_⟩
  · refine ⟨_, congrArg Host.Outcome.next (holdEnd_found mem (quiet e mem) distinct), ?_, ?_, rfl⟩ <;>
    · rw [logSource_setLogSource, LogSource.unheld, idle]
      dsimp only
      rw [refill_idle (g := { s.logSource g.val with entries := (s.logSource g.val).entries.erase e }) _ _
        (fun f hf => quiet f (List.mem_of_mem_erase hf)) kept]
  · refine ⟨_, congrArg Host.Outcome.next (holdEnd_found mem (quiet e mem) distinct), ?_, rfl⟩
    rw [logSource_setLogSource, LogSource.unheld, pending]
    dsimp only
    obtain ⟨queue, lost, waits⟩ := releaseEntry_queues e r ((s.reach e.holdEnd).now + s.coalesceNs) place
    rw [refill_idle _ _ (fun f hf => (waits f hf).elim (quiet f) id) (by rw [lost]; exact kept), queue]
  · obtain ⟨digest, gen, count, memory, -, -⟩ := computeFingerprint_keeps s unstable
    exact ⟨_, congrArg Host.Outcome.next (if_pos (by simp [up, auto, news])), digest, gen, count, memory⟩
  · have ht : s.fprintRead (some o) unstable = s.answer (.command 0x0C true ((h.record.drop o).take 240)) := by
      unfold State.fprintRead State.heldRecord
      rw [up, whole, dark, held]
      rfl
    exact ⟨_, congrArg Host.Outcome.next ht, rfl, rfl⟩
  · obtain ⟨digest, -, -, -, power, answers⟩ := computeFingerprint_keeps s unstable
    have ht : s.fprintRead none unstable = (s.computeFingerprint unstable).answer (.command 0x0C true (sha3 s.canonicalRecord)) := by
      unfold State.fprintRead
      rw [up, whole, yoke]
      have hd : (s.computeFingerprint unstable).heldDigest = sha3 s.canonicalRecord := by
        unfold State.heldDigest State.yokeUp
        rw [show (s.computeFingerprint unstable).power = s.power from power]
        exact (if_pos yoke).trans digest
      dsimp only [Bool.not_true, Bool.false_eq_true, if_false, if_true]
      rw [if_neg (by nofun), if_pos rfl, if_neg (by nofun), hd]
    exact ⟨_, congrArg Host.Outcome.next ht, congrArg (Answer.command 0x0C true (sha3 s.canonicalRecord) :: ·) answers⟩
  · have ht : s.fprintRead (some o) unstable = s.answer (.command 0x0C true ((s.canonicalRecord.drop o).take 240)) := by
      unfold State.fprintRead State.heldRecord
      rw [up, whole, yoke]
      rfl
    exact ⟨_, congrArg Host.Outcome.next ht, rfl, rfl⟩
  · exact ⟨_, congrArg Host.Outcome.next (command_done up _ _ (by rw [opened, may]; rfl)), rfl, memRead_memWrite _ _ _, rfl, rfl⟩
  · exact ⟨_, congrArg Host.Outcome.next (command_refused up _ _ (by rcases no with h | h <;> rw [h] <;> simp)), rfl, rfl, rfl, rfl,
      rfl, rfl⟩
  · exact ⟨_, congrArg Host.Outcome.next (command_done up _ _ rfl), rfl, rfl, rfl⟩
  · rintro rfl
    have ht := command_done (s := s.sampleStrap true) up 0x0B (fun t => { t with mgmt := { t.mgmt with tagLocked := false } }) rfl
    refine ⟨_, congrArg Host.Outcome.next ((if_neg (by simp)).trans ht), rfl, rfl, rfl⟩
  · rintro rfl
    exact ⟨_, rfl, tagUnlock_refused up⟩
  · rintro rfl idle unlocked
    obtain ⟨y, answers, running, opens, ht⟩ := testMode_done up idle unlocked
    exact ⟨_, ht, congrArg (Answer.command 0x0E true [] :: ·) answers, rfl, running, opens⟩
  · intro no
    have ht := command_refused (s := s.sampleStrap strap) up 0x0E
      (fun t => { t.haltBody with mgmt := { t.haltBody.mgmt with testMode := true } })
      (ok := strap && !s.set.running && !s.mgmt.debugLocked) (by rcases no with h | h | h <;> simp [h])
    exact ⟨_, congrArg Host.Outcome.next ht, rfl, rfl, rfl, rfl, rfl, rfl⟩
  · rintro rfl off
    have ht := command_done (s := s.sampleStrap true) up 0x0F (fun t => { t with mgmt := { t.mgmt with debugLocked := true } })
      (ok := true && !s.mgmt.testMode) (by rw [off]; rfl)
    exact ⟨_, congrArg Host.Outcome.next ht, rfl, rfl⟩
  · intro no
    have ht := command_refused (s := s.sampleStrap strap) up 0x0F (fun t => { t with mgmt := { t.mgmt with debugLocked := true } })
      (ok := strap && !s.mgmt.testMode) (by rcases no with h | h <;> simp [h])
    exact ⟨_, congrArg Host.Outcome.next ht, rfl, rfl, rfl, rfl, rfl, rfl⟩
  · have ht := command_done up 0x0D (fun t => t.chainAccess a) (ok := s.mgmt.chain != .external && !s.mgmt.debugLocked)
      (by simp [mine, unlocked])
    refine ⟨fun ok => ⟨_, congrArg Host.Outcome.next ht, chainAccess_result ok rfl fun r hr => List.mem_cons_of_mem _ hr⟩,
      fun no => ⟨_, congrArg Host.Outcome.next ht, ?_, ?_⟩, fun x hx high active => hx ▸ chainAccepts_cuff high active⟩ <;>
      rw [chainAccess_bypassed no]
    · exact List.mem_cons_of_mem _ List.mem_cons_self
    · rfl
  · have ht : (if s.mgmt.chain = .external then s.chainAccess a else s) = s.chainAccess a := if_pos ext
    refine ⟨fun ok => ⟨_, congrArg Host.Outcome.next ht, chainAccess_result ok rfl fun r hr => hr⟩,
      fun no => ⟨_, congrArg Host.Outcome.next (ht.trans (chainAccess_bypassed no)), List.mem_cons_self, rfl⟩,
      fun x hx high active => hx ▸ chainAccepts_cuff high active⟩
  · refine ⟨_, rfl, rfl, fun on free => ?_, fun off ext => ?_⟩
    · exact (if_pos on).trans (if_neg free)
    · exact (if_neg (by rw [off]; nofun)).trans (if_pos ext)

end Sys2Proof.Proofs
end

section
/-!
PROOF. Thermal sensing and cooling (R344 to R355).
-/
namespace Sys2Proof.Machine

/-! ### Sensors -/

/-- `t` has the sensors of `s` and reads the same of them. -/
structure SameSensors (s t : State) : Prop where
  sensors : t.thermal.sensors = s.thermal.sensors
  panels : t.panels = s.panels
  stage : t.power.stage = s.power.stage
  step : t.power.step = s.power.step
  standby : t.power.standby = s.power.standby

theorem SameSensors.of_power {s t : State} (sensors : t.thermal.sensors = s.thermal.sensors) (power : t.power = s.power)
    (panels : t.panels = s.panels) : SameSensors s t :=
  ⟨sensors, panels, by rw [power], by rw [power], by rw [power]⟩

section
variable {s t : State} (h : SameSensors s t)
include h

theorem SameSensors.sensor (k : Nat) : t.sensor k = s.sensor k := by
  unfold State.sensor
  rw [h.sensors]

theorem SameSensors.answers (p : Nat) : t.panelAnswers p = s.panelAnswers p := by
  unfold State.panelAnswers State.panel
  rw [h.panels]

theorem SameSensors.up : t.panelsUp = s.panelsUp := by
  unfold State.panelsUp
  rw [h.stage, h.step]

theorem SameSensors.sensorRead : t.sensorRead = s.sensorRead := by
  funext k
  unfold State.sensorRead
  simp only [h.answers, h.up, h.stage, h.standby]

theorem SameSensors.valid (k : Nat) : t.valid k = s.valid k := by
  unfold State.valid
  rw [h.sensor, h.sensorRead]

theorem SameSensors.sampled : t.sampled = s.sampled := by
  funext k
  unfold State.sampled
  rw [h.sensors, h.valid]

theorem SameSensors.hottest (p : Nat → Bool) : t.hottest p = s.hottest p := by
  unfold State.hottest
  rw [h.sensors, h.sensorRead]

theorem SameSensors.logicReading : t.logicReading = s.logicReading := by
  funext x
  unfold State.logicReading
  simp only [h.sampled, h.sensor, h.hottest]

theorem SameSensors.sampledCores : t.sampledCores = s.sampledCores := by
  unfold State.sampledCores
  rw [h.sensors, h.sensorRead]

theorem SameSensors.hotLogic (p : Nat) : t.hotLogic p = s.hotLogic p := by
  unfold State.hotLogic
  rw [h.sampledCores, h.logicReading, h.hottest]

theorem SameSensors.hotDram (p : Nat) : t.hotDram p = s.hotDram p := by
  unfold State.hotDram
  rw [h.hottest]

theorem SameSensors.inlet : t.inletDc = s.inletDc := by
  unfold State.inletDc
  rw [h.valid]

theorem SameSensors.flow : t.flowDl = s.flowDl := by
  unfold State.flowDl
  rw [h.valid]

theorem SameSensors.overs (logic dram : Int) : t.overs logic dram = s.overs logic dram := by
  have drop : t.limitDrop = s.limitDrop := by
    funext x
    unfold State.limitDrop
    simp only [h.sensor]
  have core : t.coreOver = s.coreOver := by
    funext l x
    unfold State.coreOver
    rw [h.logicReading, h.sampled, drop]
  unfold State.overs
  simp only [core, h.sampledCores, h.sensors, h.sensorRead, h.up, h.answers]

theorem SameSensors.above (logic dram : Int) : t.above logic dram = s.above logic dram := by
  unfold State.above
  rw [h.overs]

theorem SameSensors.firmwareTrip : t.firmwareTrip = s.firmwareTrip := by
  unfold State.firmwareTrip
  simp only [h.sensor, h.sampled]

theorem SameSensors.counted : t.countedPanels = s.countedPanels := by
  unfold State.countedPanels State.panel
  rw [h.panels]

end

/-! ### Clamps and limits -/

/-- Clamps and limits that act: the excursion, the cap and the clamp, the supplies and DUTY, and what is reported. -/
structure LimitsAct (s t : State) : Prop where
  eq : t = { s with
    thermal := { s.thermal with excursion := t.thermal.excursion, thermalW := t.thermal.thermalW, clamp := t.thermal.clamp },
    power := { s.power with supplyMv := t.power.supplyMv, yokeMv := t.power.yokeMv, cuffMv := t.power.cuffMv, duty := t.power.duty },
    log := t.log, mgmt := t.mgmt, out := t.out }

theorem LimitsAct.refl (s : State) : LimitsAct s s := ⟨rfl⟩

theorem LimitsAct.trans {s t u : State} (h : LimitsAct s t) (k : LimitsAct t u) : LimitsAct s u := ⟨by rw [k.eq, h.eq]⟩

theorem LimitsAct.note {s t : State} (h : LimitsAct s t) (a b c d e : Nat) : LimitsAct s (t.note a b c d e) :=
  h.trans ⟨by rw [State.note_only]⟩

theorem LimitsAct.event {s t : State} (h : LimitsAct s t) (a : EventName) (b c : Nat) : LimitsAct s (t.event a b c) :=
  h.trans ⟨by rw [State.event_only]⟩

/-- A clamp that comes on holds, lowers the supplies where it did not hold before, and leaves cap and excursion. -/
theorem clampOn_acts (s : State) (r : ClampRow) :
    LimitsAct s (s.clampOn r) ∧ (s.clampOn r).thermal.clamp.held r = true ∧
      (s.thermal.clamp.held r = false → (s.clampOn r).power.supplyMv = 550 ∧ (s.clampOn r).power.duty = 0) ∧
      (s.clampOn r).thermal.excursion = s.thermal.excursion ∧ (s.clampOn r).thermal.thermalW = s.thermal.thermalW := by
  unfold State.clampOn
  split
  · exact ⟨.refl s, ‹_›, fun no => absurd no (by simp [*]), rfl, rfl⟩
  · refine ⟨.event (.note (LimitsAct.trans (t := s.updClamp _) ⟨rfl⟩ ⟨rfl⟩) _ _ _ _ _) _ _ _, ?_⟩
    rw [State.event_only, State.note_only]
    exact ⟨by cases r <;> rfl, fun _ => ⟨rfl, rfl⟩, rfl, rfl⟩

/-- A clamp that is released no longer holds; cap and excursion stay. -/
theorem clampOff_acts (s : State) (r : ClampRow) :
    LimitsAct s (s.clampOff r) ∧ (s.clampOff r).thermal.clamp.held r = false ∧
      (s.clampOff r).thermal.excursion = s.thermal.excursion ∧ (s.clampOff r).thermal.thermalW = s.thermal.thermalW := by
  unfold State.clampOff
  split
  · refine ⟨.event (.note ⟨rfl⟩ _ _ _ _ _) _ _ _, ?_⟩
    rw [State.event_only, State.note_only]
    exact ⟨by cases r <;> rfl, rfl, rfl⟩
  · exact ⟨.refl s, Bool.eq_false_iff.mpr ‹_›, rfl, rfl⟩

theorem tempClears_acts (s : State) (clear : Bool) :
    LimitsAct s (s.tempClears clear) ∧ (s.tempClears clear).thermal.excursion = s.thermal.excursion := by
  unfold State.tempClears
  split
  · exact ⟨.refl s, rfl⟩
  · split
    · exact ⟨⟨rfl⟩, rfl⟩
    · split
      · exact ⟨⟨rfl⟩, rfl⟩
      · split
        · exact ⟨(clampOff_acts s .temp).1, (clampOff_acts s .temp).2.2.1⟩
        · exact ⟨.refl s, rfl⟩

/-- The clamp judged after a sample. -/
theorem judgeClamp_acts (s : State) : LimitsAct s s.judgeClamp ∧ s.judgeClamp.thermal.excursion = s.thermal.excursion := by
  unfold State.judgeClamp
  split
  · obtain ⟨acts, -, -, excursion, -⟩ := clampOn_acts s .temp
    exact ⟨acts, excursion⟩
  · exact tempClears_acts s _

/-- Readings above the clamp's limits hold the clamp. -/
theorem judgeClamp_clamps {s : State} (hot : s.above 105 100 = true) : s.judgeClamp.thermal.clamp.temp = true ∧
    (s.thermal.clamp.temp = false → s.judgeClamp.power.supplyMv = 550 ∧ s.judgeClamp.power.duty = 0) := by
  unfold State.judgeClamp
  rw [if_pos hot]
  obtain ⟨-, held, lowers, -, -⟩ := clampOn_acts s .temp
  exact ⟨held, lowers⟩

/-- The excursion judged after a sample leaves the clamp and the supplies. -/
theorem judgeExcursion_acts (s : State) (k : Nat) : LimitsAct s (s.judgeExcursion k) ∧
    (s.judgeExcursion k).thermal.clamp = s.thermal.clamp ∧ (s.judgeExcursion k).power = s.power := by
  unfold State.judgeExcursion
  split
  · split
    · exact ⟨.refl s, rfl, rfl⟩
    · refine ⟨.note ⟨rfl⟩ _ _ _ _ _, ?_⟩
      rw [State.note_only]
      exact ⟨rfl, rfl⟩
  · split <;> exact ⟨⟨rfl⟩, rfl, rfl⟩

/-- Readings above the limits are an excursion. -/
theorem judgeExcursion_starts {s : State} (k : Nat) (hot : s.above 100 95 = true) : (s.judgeExcursion k).thermal.excursion = true := by
  unfold State.judgeExcursion
  split
  · split
    · assumption
    · rw [State.note_only]
  · rename_i none
    unfold State.above at hot
    rw [none] at hot
    exact absurd hot (by decide)

/-- What the limits do where no firmware trip removes the enable. -/
theorem judgeLimits_acts {s : State} (k : Nat) (stays : s.firmwareTrip = false) : LimitsAct s (s.judgeLimits k) ∧
    (s.above 100 95 = true → (s.judgeLimits k).thermal.excursion = true) ∧
    (s.above 105 100 = true → (s.judgeLimits k).thermal.clamp.temp = true ∧
      (s.thermal.clamp.temp = false → (s.judgeLimits k).power.supplyMv = 550 ∧ (s.judgeLimits k).power.duty = 0)) := by
  obtain ⟨first, clamp, power⟩ := judgeExcursion_acts s k
  obtain ⟨second, excursion⟩ := judgeClamp_acts (s.judgeExcursion k)
  have same : SameSensors s (s.judgeExcursion k) := .of_power (by rw [first.eq]) power (by rw [first.eq])
  unfold State.judgeLimits
  rw [stays]
  refine ⟨first.trans second, fun hot => excursion.trans (judgeExcursion_starts k hot), fun hot => ?_⟩
  have c := judgeClamp_clamps ((same.above 105 100).trans hot)
  rwa [clamp] at c

/-- An event that was sent stays among those sent. -/
theorem event_keeps {e : Event} {s : State} (h : e ∈ s.out.events) (name : EventName) (source state : Nat) :
    e ∈ (s.event name source state).out.events := by
  unfold State.event
  dsimp only
  repeat' (first | exact h | exact List.mem_cons_of_mem _ h | split)

/-- The Collar's boot changes its step, its own state and the events sent, of which none is lost. -/
theorem bootCollar_only (s : State) : s.bootCollar =
      { s with power := { s.power with step := s.bootCollar.power.step }, mgmt := s.bootCollar.mgmt,
               out := { s.out with events := s.bootCollar.out.events } } ∧
    ∀ e ∈ s.out.events, e ∈ s.bootCollar.out.events := by
  unfold State.bootCollar
  split
  · unfold State.bootFw
    dsimp only
    split
    · exact ⟨rfl, fun e he => he⟩
    · exact ⟨by rw [State.event_only]; rfl, fun e he => event_keeps (s := s.setFw 1 (s.fw 1).boot) he _ _ _⟩
  · exact ⟨rfl, fun e he => he⟩

/-- What the removal of the enable leaves: no power stage, what was sent, and what the Collar keeps of the thermal control. -/
theorem removeEnable_keeps (s : State) (barred : Bool) :
    (s.removeEnable barred).power.stage = false ∧ (s.removeEnable barred).thermal = s.thermal.cold ∧
      ∀ e ∈ s.out.events, e ∈ (s.removeEnable barred).out.events := by
  unfold State.removeEnable State.coldReset
  obtain ⟨only, events⟩ := bootCollar_only
    (State.coldBase { s with power := { s.power with barred := s.power.barred || barred } })
  rw [only]
  exact ⟨rfl, rfl, fun e he => events e he⟩

/-! ### A sample -/

/-- What a sample notes before its limits are judged. -/
structure SampleNotes (s t : State) : Prop where
  eq : t = { s with thermal := { s.thermal with disagree := t.thermal.disagree, inletOut := t.thermal.inletOut }, log := t.log,
                    columns := t.columns, rings := t.rings, mgmt := t.mgmt, out := t.out }

theorem SampleNotes.refl (s : State) : SampleNotes s s := ⟨rfl⟩

theorem SampleNotes.trans {s t u : State} (h : SampleNotes s t) (k : SampleNotes t u) : SampleNotes s u := ⟨by rw [k.eq, h.eq]⟩

theorem SampleNotes.same {s t : State} (h : SampleNotes s t) : SameSensors s t :=
  .of_power (by rw [h.eq]) (by rw [h.eq]) (by rw [h.eq])

theorem disagree_notes (s : State) (k : Nat) (e : Nat × Nat) : SampleNotes s (s.disagree k e) := by
  unfold State.disagree
  split
  · split
    · dsimp only
      split
      · exact ⟨by rw [State.note_only]⟩
      · exact ⟨rfl⟩
    · exact .refl s
  · exact .refl s

theorem dramSample_notes (s : State) (k : Nat) (v : Int) (ok : Bool) : SampleNotes s (s.dramSample k v ok) := by
  unfold State.dramSample
  split
  · dsimp only
    split
    · split
      · exact ⟨rfl⟩
      · exact ⟨rfl⟩
    · exact ⟨rfl⟩
  · exact .refl s

theorem judgeInlet_notes (s : State) : SampleNotes s s.judgeInlet := by
  unfold State.judgeInlet
  dsimp only
  split
  · exact .refl s
  · exact ⟨by rw [State.event_only]⟩

/-- A state whose reading of sensor `k` is `v`. -/
def State.withReading (s : State) (k : Nat) (v : Int) : State :=
  { s with thermal := { s.thermal with sensors := mapPut s.thermal.sensors k ({ s.sensor k with value := v }.rated k v) } }

theorem rated_keeps (x : Sensor) (k : Nat) (v : Int) : (x.rated k v).value = x.value ∧ (x.rated k v).invalid = x.invalid := by
  unfold Sensor.rated
  dsimp only
  repeat' (first | exact ⟨rfl, rfl⟩ | split)

theorem withReading_sensor (s : State) (k : Nat) (v : Int) :
    ((s.withReading k v).sensor k).value = v ∧ (∀ j, ((s.withReading k v).sensor j).invalid = (s.sensor j).invalid) ∧
      ∀ j, j ≠ k → (s.withReading k v).sensor j = s.sensor j := by
  have own : (s.withReading k v).sensor k = ({ s.sensor k with value := v } : Sensor).rated k v := mapGet_mapPut_same _ _ _ _
  have other (j : Nat) (hj : j ≠ k) : (s.withReading k v).sensor j = s.sensor j := mapGet_mapPut_other _ _ _ _ _ hj
  obtain ⟨value, invalid⟩ := rated_keeps { s.sensor k with value := v } k v
  refine ⟨by rw [own, value], fun j => ?_, other⟩
  by_cases hj : j = k
  · rw [hj, own, invalid]
  · rw [other j hj]

theorem mapHas_mapPut_other {α : Type} (m : List (Nat × α)) {k j : Nat} (v : α) (h : j ≠ k) : mapHas (mapPut m k v) j = mapHas m j := by
  induction m with
  | nil => simp [mapPut, mapHas, Ne.symm h]
  | cons e r ih =>
    unfold mapPut
    split
    · simp [mapHas, Ne.symm h]
    · split
      · rename_i hk
        subst hk
        simp [mapHas, Ne.symm h]
      · unfold mapHas at ih ⊢
        rw [List.any_cons, List.any_cons, ih]

theorem mem_mapPut_self {α : Type} (m : List (Nat × α)) (k : Nat) (v : α) : (k, v) ∈ mapPut m k v := by
  induction m with
  | nil => exact List.mem_singleton.mpr rfl
  | cons e r ih =>
    unfold mapPut
    split
    · exact List.mem_cons_self
    · split
      · exact List.mem_cons_self
      · exact List.mem_cons_of_mem _ ih

/-- A reading below the shutdown's limit does not make firmware remove the enable. -/
theorem withReading_stays {s : State} {k : Nat} {v : Int} (cool : v < 108) (stays : s.firmwareTrip = false) :
    (s.withReading k v).firmwareTrip = false := by
  obtain ⟨value, invalid, other⟩ := withReading_sensor s k v
  unfold State.firmwareTrip at stays ⊢
  rw [List.any_eq_false] at stays ⊢
  intro d hd
  rw [invalid d]
  by_cases hk : logicKey (diodeCore d) 0 = k
  · have low : (((s.withReading k v).sampled (logicKey (diodeCore d) 0)).any fun v => decide (108 ≤ v)) = false := by
      unfold State.sampled State.valid
      rw [hk, value]
      split
      · split
        · rfl
        · exact decide_eq_false (by omega)
      · rfl
    rw [low, Bool.and_false]
    nofun
  · have same : (s.withReading k v).sampled (logicKey (diodeCore d) 0) = s.sampled (logicKey (diodeCore d) 0) := by
      unfold State.sampled State.valid
      rw [other _ hk]
      have has : mapHas (s.withReading k v).thermal.sensors (logicKey (diodeCore d) 0) = mapHas s.thermal.sensors (logicKey (diodeCore d) 0) :=
        mapHas_mapPut_other _ _ hk
      rw [has]
      rfl
    rw [same]
    exact stays d hd

/-- A Yoke sensor that reads above a limit is among those that stand above it. -/
theorem withReading_above {s : State} {k : Nat} {v logic : Int} (dram : Int) (yoke : isYoke k = true) (read : s.sensorRead k = true)
    (ok : (s.sensor k).invalid = false) (hot : logic < v) : (s.withReading k v).above logic dram = true := by
  obtain ⟨value, invalid⟩ := rated_keeps { s.sensor k with value := v } k v
  have listed := mem_mapPut_self s.thermal.sensors k (({ s.sensor k with value := v } : Sensor).rated k v)
  have readNow : (s.withReading k v).sensorRead k = true := read
  have listedHot : (k, v) ∈ (s.withReading k v).overs logic dram := by
    refine List.mem_append_right _ (List.mem_map.mpr ⟨_, List.mem_filter.mpr ⟨listed, ?_⟩, by rw [value]⟩)
    rw [invalid, value, show ({ s.sensor k with value := v } : Sensor).invalid = false from ok, readNow, yoke]
    simp [hot]
  unfold State.above
  cases h : (s.withReading k v).overs logic dram with
  | nil => rw [h] at listedHot; cases listedHot
  | cons => rfl

/-- A sample that is taken: the reading, what it notes, and the limits. -/
theorem tookSample_acts (s : State) (k : Nat) (v : Int) :
    ∃ x, SampleNotes (s.withReading k v) x ∧ s.tookSample k v = x.judgeLimits k := by
  refine ⟨_, ?_, rfl⟩
  have noted : SampleNotes (s.withReading k v)
      ((foldOver (hotSpots k) (fun t e => t.disagree k e) (s.withReading k v)).dramSample k v true) :=
    (foldOver_rel SampleNotes.refl (fun _ _ _ => SampleNotes.trans) (fun t e => disagree_notes t k e) _ _).trans (dramSample_notes _ _ _ _)
  split
  · exact noted.trans (judgeInlet_notes _)
  · exact noted

theorem lostSample_acts (s : State) (k : Nat) : ∃ x, SampleNotes (s.failSensor k) x ∧ s.lostSample k = x.judgeLimits k := by
  refine ⟨_, ?_, rfl⟩
  split
  · exact (dramSample_notes _ _ _ _).trans (judgeInlet_notes _)
  · exact dramSample_notes _ _ _ _

theorem failSensor_fails {s : State} {k : Nat} (ok : (s.sensor k).invalid = false) :
    ((s.failSensor k).sensor k).invalid = true ∧ (s.failSensor k).thermal.invalidCount = satAdd s.thermal.invalidCount 1 := by
  unfold State.failSensor
  dsimp only
  rw [ok, if_neg (by nofun), State.note_only]
  exact ⟨congrArg Sensor.invalid (mapGet_mapPut_same _ _ _ _), rfl⟩

/-! ### Flow -/

theorem flowClears_acts (s : State) (clear : Bool) : LimitsAct s (s.flowClears clear) := by
  unfold State.flowClears
  split
  · exact .refl s
  · split
    · exact ⟨rfl⟩
    · split
      · exact (clampOff_acts s .flow).1
      · exact ⟨rfl⟩

theorem flowClears_releases {s : State} (long : 2000 ≤ s.thermal.clamp.flowClear) : (s.flowClears true).thermal.clamp.flow = false := by
  unfold State.flowClears
  split
  · exact Bool.not_eq_true' _ ▸ ‹_›
  · rw [Bool.not_true, if_neg Bool.false_ne_true]
    exact (clampOff_acts s .flow).2.1

/-- A reading of the flow sensor, before the clamp is judged. -/
def State.withFlow (s : State) (flow : Nat) : State :=
  { s with thermal := { s.thermal with
    sensors := mapPut s.thermal.sensors flowKey { s.sensor flowKey with value := flow },
    lowFlow := if flow < s.stopFlow then s.thermal.lowFlow + 1 else 0 } }

theorem withFlow_sensor (s : State) (flow : Nat) : (s.withFlow flow).sensor flowKey = { s.sensor flowKey with value := flow } :=
  mapGet_mapPut_same _ _ _ _

theorem withFlow_flowDl {s : State} (on : s.power.standby = true) (ok : (s.sensor flowKey).invalid = false) (flow : Nat) :
    (s.withFlow flow).flowDl = flow := by
  have read : (s.withFlow flow).sensorRead flowKey = true := on
  unfold State.flowDl State.valid
  rw [withFlow_sensor, show ({ s.sensor flowKey with value := flow } : Sensor).invalid = false from ok, read]
  rfl

theorem judgeFlow_notes (s : State) : s.judgeFlow =
    { s with thermal := { s.thermal with flowOut := s.judgeFlow.thermal.flowOut }, mgmt := s.judgeFlow.mgmt, out := s.judgeFlow.out } := by
  unfold State.judgeFlow
  dsimp only
  split
  · rfl
  · rw [State.event_only]

/-- What a flow reading notes leaves the reading, the count of low readings, the clamp and Fold. -/
theorem withFlow_judged {s : State} (on : s.power.standby = true) (ok : (s.sensor flowKey).invalid = false) (flow : Nat) :
    let x := (s.withFlow flow).judgeFlow
    x.flowDl = flow ∧ (x.sensor flowKey).value = flow ∧ x.power = s.power ∧ x.thermal.clamp = s.thermal.clamp ∧
      x.thermal.lowFlow = if flow < s.stopFlow then s.thermal.lowFlow + 1 else 0 := by
  have notes := judgeFlow_notes (s.withFlow flow)
  have same : SameSensors (s.withFlow flow) (s.withFlow flow).judgeFlow :=
    .of_power (by rw [notes]) (by rw [notes]) (by rw [notes])
  refine ⟨by rw [same.flow, withFlow_flowDl on ok], by rw [same.sensor, withFlow_sensor], ?_, ?_, ?_⟩ <;> rw [notes] <;> rfl

/-- A flow reading at a module with standby power: the reading, what it notes, and the clamp judged on it. -/
theorem flowSample_acts {s : State} (on : s.power.standby = true) (ok : (s.sensor flowKey).invalid = false) (flow : Nat) :
    let x := (s.withFlow flow).judgeFlow
    let low := if flow < s.stopFlow then s.thermal.lowFlow + 1 else 0
    s.flowSample (some flow) = if 3 ≤ low ∧ x.power.fold ≠ .folded then x.clampOn .flow else x.flowClears (decide (60 ≤ x.flowDl)) := by
  have read : s.sensorRead flowKey = true := on
  have dl : ({ s with thermal := { s.thermal with
      sensors := mapPut s.thermal.sensors flowKey { s.sensor flowKey with value := flow } } } : State).flowDl = flow :=
    withFlow_flowDl on ok flow
  unfold State.flowSample State.flowRead
  rw [if_pos read]
  dsimp only
  rw [dl]
  rfl

theorem stopFlow_le (s : State) : s.stopFlow ≤ 30 := by
  unfold State.stopFlow clampNat
  omega

/-! ### The thermal cap -/

/-- The measurements of a cap's computation: θ of the Panels, their baselines and the warnings. -/
structure Measures (s t : State) : Prop where
  eq : t = { s with
    thermal := { s.thermal with thetaL := t.thermal.thetaL, thetaD := t.thermal.thetaD, baseL := t.thermal.baseL, baseD := t.thermal.baseD,
                                warn := t.thermal.warn },
    mgmt := t.mgmt, out := t.out }

theorem LimitsAct.same {s t : State} (h : LimitsAct s t) : SameSensors s t :=
  ⟨by rw [h.eq], by rw [h.eq], by rw [h.eq], by rw [h.eq], by rw [h.eq]⟩

theorem Measures.refl (s : State) : Measures s s := ⟨rfl⟩

theorem Measures.trans {s t u : State} (h : Measures s t) (k : Measures t u) : Measures s u := ⟨by rw [k.eq, h.eq]⟩

theorem Measures.same {s t : State} (h : Measures s t) : SameSensors s t :=
  .of_power (by rw [h.eq]) (by rw [h.eq]) (by rw [h.eq])

/-- θ of one Panel measured, with its baseline and its warning. -/
def State.measured (s : State) (p watts : Nat) : State := ((s.measure p watts).baseline p watts).warn p

theorem measure_measures (s : State) (p watts : Nat) : Measures s (s.measure p watts) := by
  unfold State.measure
  split <;> exact ⟨rfl⟩

/-- A baseline and a warning leave θ. -/
theorem warn_measures (s : State) (p watts : Nat) : Measures s ((s.baseline p watts).warn p) ∧
    ((s.baseline p watts).warn p).thermal.thetaL = s.thermal.thetaL ∧ ((s.baseline p watts).warn p).thermal.thetaD = s.thermal.thetaD := by
  have base : Measures s (s.baseline p watts) ∧ (s.baseline p watts).thermal.thetaL = s.thermal.thetaL ∧
      (s.baseline p watts).thermal.thetaD = s.thermal.thetaD := by
    unfold State.baseline
    dsimp only
    split <;> exact ⟨⟨rfl⟩, rfl, rfl⟩
  obtain ⟨measures, thetaL, thetaD⟩ := base
  generalize s.baseline p watts = x at measures thetaL thetaD ⊢
  rw [← thetaL, ← thetaD]
  suffices h : Measures x (x.warn p) ∧ (x.warn p).thermal.thetaL = x.thermal.thetaL ∧ (x.warn p).thermal.thetaD = x.thermal.thetaD from
    ⟨measures.trans h.1, h.2⟩
  unfold State.warn
  dsimp only
  repeat' (first | exact ⟨⟨rfl⟩, rfl, rfl⟩ | split)
  rw [State.event_only]
  exact ⟨⟨rfl⟩, rfl, rfl⟩

/-- θ of Panel `p` stands in `t` as the sensors of `s` give it for a power in `w`. -/
def ThetaOf (s : State) (w : Nat → Nat) (t : State) (p : Nat) : Prop :=
  s.panelAnswers p = true → 100 ≤ w p →
    mapGet ⟨0, 1⟩ t.thermal.thetaL p = ⟨s.hotLogic p * 10 - s.inletDc, w p⟩ ∧
    mapGet ⟨0, 1⟩ t.thermal.thetaD p = ⟨s.hotDram p * 10 - s.inletDc, w p⟩

theorem measured_theta {s t : State} (w : Nat → Nat) (h : Measures s t) (q : Nat) :
    Measures s (t.measured q (w q)) ∧ ThetaOf s w (t.measured q (w q)) q ∧
      ∀ p, ThetaOf s w t p → ThetaOf s w (t.measured q (w q)) p := by
  obtain ⟨measures, thetaL, thetaD⟩ := warn_measures (t.measure q (w q)) q (w q)
  have own : ThetaOf s w (t.measured q (w q)) q := by
    intro answers strong
    have same := h.same
    unfold State.measured
    rw [thetaL, thetaD]
    unfold State.measure
    rw [if_neg (by rw [same.answers, answers]; simp; omega), same.hotLogic, same.hotDram, same.inlet]
    exact ⟨mapGet_mapPut_same _ _ _ _, mapGet_mapPut_same _ _ _ _⟩
  refine ⟨(h.trans (measure_measures t q (w q))).trans measures, own, fun p hp => ?_⟩
  by_cases hq : p = q
  · exact hq ▸ own
  · intro answers strong
    obtain ⟨l, d⟩ := hp answers strong
    unfold State.measured
    rw [thetaL, thetaD]
    unfold State.measure
    split
    · exact ⟨l, d⟩
    · exact ⟨(mapGet_mapPut_other _ _ _ _ _ hq).trans l, (mapGet_mapPut_other _ _ _ _ _ hq).trans d⟩

/-- θ of every Panel measured in turn. -/
theorem measured_all (w : Nat → Nat) (ps : List Nat) {s t : State} (h : Measures s t) :
    Measures s (foldOver ps (fun t p => t.measured p (w p)) t) ∧
      ∀ p, p ∈ ps ∨ ThetaOf s w t p → ThetaOf s w (foldOver ps (fun t p => t.measured p (w p)) t) p := by
  induction ps generalizing t with
  | nil => exact ⟨h, fun p hp => hp.elim (fun no => nomatch no) id⟩
  | cons q r ih =>
    obtain ⟨measures, own, others⟩ := measured_theta w h q
    obtain ⟨all, each⟩ := ih measures
    refine ⟨all, fun p hp => each p ?_⟩
    rcases hp with hp | hp
    · rcases List.mem_cons.mp hp with rfl | hp
      · exact .inr own
      · exact .inl hp
    · exact .inr (others p hp)

/-- The value that a map lists for a key, where it lists it. -/
def mapFind (m : List (Nat × Ratio)) (k : Nat) : Option Ratio := if mapHas m k then some (mapGet ⟨0, 1⟩ m k) else none

theorem mapFind_cons (e : Nat × Ratio) (m : List (Nat × Ratio)) (k : Nat) : mapFind (e :: m) k = if e.1 = k then some e.2 else mapFind m k := by
  have get : mapGet ⟨0, 1⟩ (e :: m) k = if e.1 = k then e.2 else mapGet ⟨0, 1⟩ m k := rfl
  unfold mapFind mapHas
  rw [get, List.any_cons]
  by_cases h : e.1 = k
  · simp [h]
  · rw [if_neg h, if_neg h, decide_eq_false h, Bool.false_or]

/-- The caps that some Panels have, as a map. -/
def capsKept (g : Nat → Option Ratio) (ps : List Nat) : List (Nat × Ratio) :=
  (ps.map fun p => (p, g p)).filterMap fun e => e.2.map fun r => (e.1, r)

/-- Every Panel of the list has the cap that is kept, if any. -/
theorem mapFind_capsKept (g : Nat → Option Ratio) (ps : List Nat) (p : Nat) :
    mapFind (capsKept g ps) p = if p ∈ ps then g p else none := by
  induction ps with
  | nil => rfl
  | cons q r ih =>
    cases hq : g q with
    | none =>
      have step : capsKept g (q :: r) = capsKept g r := by simp [capsKept, hq]
      rw [step, ih]
      by_cases hp : p = q
      · subst hp
        simp [hq]
      · simp [hp]
    | some c =>
      have step : capsKept g (q :: r) = (q, c) :: capsKept g r := by simp [capsKept, hq]
      rw [step, mapFind_cons, ih]
      by_cases hp : q = p
      · subst hp
        simp [hq]
      · simp [hp, Ne.symm hp]

/-- The cap's computation: what it sets. -/
theorem computeCap_sets (s : State) (powers : List Nat) (watts : Nat) :
    let ps := s.countedPanels
    let t := s.computeCap powers watts
    t = { s with thermal := t.thermal } ∧ t.thermal.sensors = s.thermal.sensors ∧ t.thermal.thetaL = s.thermal.thetaL ∧
      t.thermal.thetaD = s.thermal.thetaD ∧ t.thermal.expertNow = s.thermal.expertNow ∧ t.thermal.excursion = s.thermal.excursion ∧
      t.thermal.capP = capsKept s.capOf ps ∧
      t.thermal.computedW = (smallestCap (ps.map fun p => (p, s.capOf p))).map
        (fun b => thermalCap ((watts : Int) - (ps.map fun p => (powers[p]?).getD 0).sum) ps.length b.2) ∧
      (s.thermal.excursion = false → t.thermal.thermalW = (t.thermal.computedW.map capField).getD 0xFFFF) := by
  unfold State.computeCap
  dsimp only
  cases h : s.thermal.excursion with
  | true => exact ⟨rfl, rfl, rfl, rfl, rfl, rfl, rfl, rfl, nofun⟩
  | false =>
    refine ⟨rfl, rfl, rfl, rfl, rfl, rfl, rfl, rfl, fun _ => ?_⟩
    unfold Thermal.uncapped
    rw [if_neg Bool.false_ne_true]
    dsimp only
    cases smallestCap _ <;> rfl

/-- cap_p of a Panel rests on its θ, its last cap, the margin and the sensors. -/
theorem capOf_congr {s t : State} {p : Nat} (same : SameSensors s t) (thetaL : t.thermal.thetaL = s.thermal.thetaL)
    (thetaD : t.thermal.thetaD = s.thermal.thetaD) (expert : t.thermal.expertNow = s.thermal.expertNow)
    (last : s.panelAnswers p = false → mapFind t.thermal.capP p = mapFind s.thermal.capP p) : t.capOf p = s.capOf p := by
  have margin : t.capMargin = s.capMargin := by
    unfold State.capMargin
    rw [expert]
  unfold State.capOf
  dsimp only
  rw [same.answers, margin, same.inlet, thetaL, thetaD]
  cases h : s.panelAnswers p with
  | true => rfl
  | false => exact last h

/-- A cap that is computed leaves what each counted Panel's cap rests on. -/
theorem computeCap_capOf {s : State} (powers : List Nat) (watts : Nat) {p : Nat} (hp : p ∈ s.countedPanels) :
    (s.computeCap powers watts).capOf p = s.capOf p := by
  obtain ⟨eq, sensors, thetaL, thetaD, expert, -, caps, -, -⟩ := computeCap_sets s powers watts
  have same : SameSensors s (s.computeCap powers watts) :=
    .of_power sensors (by rw [eq]) (by rw [eq])
  refine capOf_congr same thetaL thetaD expert fun isolated => ?_
  rw [caps, mapFind_capsKept, if_pos hp]
  unfold State.capOf
  rw [isolated]
  rfl

/-- The clamp judged on the computed cap, which holds below 600 W. -/
theorem judgeCap_acts (s : State) : LimitsAct s s.judgeCap ∧ s.judgeCap.thermal.thermalW = s.thermal.thermalW ∧
    ∀ c, s.thermal.computedW = some c → c < 600 → s.judgeCap.thermal.clamp.cap = true := by
  obtain ⟨on, held, -, -, onW⟩ := clampOn_acts s .cap
  obtain ⟨off, -, -, offW⟩ := clampOff_acts s .cap
  unfold State.judgeCap
  cases h : s.thermal.computedW with
  | none => exact ⟨off, offW, nofun⟩
  | some w =>
    dsimp only
    by_cases low : w < 600
    · rw [if_pos low]
      exact ⟨on, onW, fun _ _ _ => held⟩
    · rw [if_neg low]
      refine ⟨?_, ?_, fun c hc less => absurd (Option.some.inj hc ▸ less) low⟩ <;> split
      · exact off
      · exact .refl s
      · exact offW
      · rfl

/-- A cap's computation: TH_EXPERT takes effect, every counted Panel is measured, and the cap and its clamp follow. -/
theorem capCompute_acts (s : State) (powers : List Nat) (watts : Nat) :
    ∃ x : State, Measures { s with thermal := { s.thermal with expertNow := s.expert .th s.thermal.expert 0x00027D0A } } x ∧
      (∀ p ∈ s.countedPanels, ThetaOf s (fun p => (powers[p]?).getD 0) x p) ∧
      s.capCompute powers watts = (x.computeCap powers watts).judgeCap := by
  let s0 : State := { s with thermal := { s.thermal with expertNow := s.expert .th s.thermal.expert 0x00027D0A } }
  obtain ⟨measures, all⟩ := measured_all (fun p => (powers[p]?).getD 0) s0.countedPanels (Measures.refl s0)
  have same : SameSensors s s0 := .of_power rfl rfl rfl
  refine ⟨_, measures, fun p hp => ?_, rfl⟩
  have theta := all p (.inl (same.counted.symm ▸ hp))
  unfold ThetaOf at theta ⊢
  rwa [same.answers, same.hotLogic, same.hotDram, same.inlet] at theta

/-! ### Cycles -/

/-- Every Panel's count takes one sample. -/
theorem foldl_mapPut {α : Type} (d : α) (f : Nat → α → α) (l : List Nat) (distinct : l.Nodup) (m : List (Nat × α)) (p : Nat) :
    mapGet d (l.foldl (fun m p => mapPut m p (f p (mapGet d m p))) m) p = if p ∈ l then f p (mapGet d m p) else mapGet d m p := by
  induction l generalizing m with
  | nil => rfl
  | cons q r ih =>
    obtain ⟨fresh, rest⟩ := List.nodup_cons.mp distinct
    rw [List.foldl_cons, ih rest]
    by_cases hp : p = q
    · subst hp
      rw [if_neg fresh, if_pos List.mem_cons_self, mapGet_mapPut_same]
    · rw [mapGet_mapPut_other _ _ _ _ _ hp]
      simp [hp]

/-! ### The trip -/

/-- The thermal state that a comparator's trip leaves. -/
def Thermal.tripped (t : Thermal) (d peak collarMs : Nat) : Thermal :=
  let recent := (t.trips.filter fun m => decide (collarMs < m + 3600000)) ++ [collarMs]
  { t with latched := true, shutdowns := satAdd t.shutdowns 1, lastDiode := BitVec.ofNat 6 d, tripPeak := peak, trips := recent,
           held := t.held || decide (3 ≤ recent.length) }

theorem trip_acts {s : State} {d : Nat} (peak collarMs : Nat) (ready : s.thermal.latched = false) (ok : (s.sensor d).invalid = false) :
    (s.trip d peak collarMs).power.stage = false ∧ ⟨.thermalShutdown, d, 1⟩ ∈ (s.trip d peak collarMs).out.events ∧
      ((s.trip d peak collarMs).thermal = s.thermal.tripped d peak collarMs ∨
        (s.trip d peak collarMs).thermal = (s.thermal.tripped d peak collarMs).cold) := by
  have h : s.trip d peak collarMs =
      (let s1 := { s with thermal := s.thermal.tripped d peak collarMs }.event .thermalShutdown d 1
       let s2 := if (s.thermal.tripped d peak collarMs).held then s1.event .restartHeld 0 1 else s1
       if s2.power.stage then s2.removeEnable false else s2) :=
    if_neg (by rw [ready, ok]; nofun)
  rw [h]
  dsimp only
  generalize hx : (if (s.thermal.tripped d peak collarMs).held then _ else _ : State) = x
  have sent : (⟨.thermalShutdown, d, 1⟩ : Event) ∈
      (({ s with thermal := s.thermal.tripped d peak collarMs } : State).event .thermalShutdown d 1).out.events := List.mem_cons_self
  have noted : (⟨.thermalShutdown, d, 1⟩ : Event) ∈ x.out.events ∧ x.thermal = s.thermal.tripped d peak collarMs := by
    rw [← hx]
    split
    · exact ⟨event_keeps sent _ _ _, by rw [State.event_only]; rfl⟩
    · exact ⟨sent, rfl⟩
  obtain ⟨off, thermal, events⟩ := removeEnable_keeps x false
  split
  · exact ⟨off, events _ noted.1, .inr (by rw [thermal, noted.2])⟩
  · exact ⟨Bool.eq_false_iff.mpr ‹_›, noted.1, .inl noted.2⟩

end Sys2Proof.Machine

namespace Sys2Proof.Proofs
open Sys2Proof Sys2Proof.Machine

/-- Settles O53: a sample leads to the limits judged on it, a computation to its cap, a flow reading and a trip to theirs. -/
theorem thermalControl : Obligations.ThermalControl := by
  intro s k v collarMs
  refine ⟨fun exist read ok => ?_, fun watts => ⟨fun excursion hot => ?_, fun cool => ?_⟩, fun powers watts => ?_,
    fun flow on ok => ?_, fun diode peak ready ok => ?_, fun latched free met => ?_, fun up held => ?_, fun off => ?_, fun on => ?_⟩
  · have due : ¬((!sensorExists k || !s.sensorRead k || (s.sensor k).invalid) = true) := by
      rw [exist, read, ok]
      nofun
    have lose : s.sample k none = s.lostSample k := if_neg due
    obtain ⟨y, lost, hy⟩ := lostSample_acts s k
    obtain ⟨fails, count⟩ := failSensor_fails ok
    refine ⟨fun inRange cool stays => ?_, fun stays => ?_, fun trips => ?_⟩
    · obtain ⟨x, notes, hx⟩ := tookSample_acts s k v
      have same := notes.same
      obtain ⟨acts, excursion, clamps⟩ := judgeLimits_acts k (same.firmwareTrip.trans (withReading_stays cool stays))
      have above (logic dram : Int) (yoke : isYoke k = true) (hot : logic < v) : x.above logic dram = true :=
        (same.above _ _).trans (withReading_above _ yoke read ok hot)
      refine ⟨x.judgeLimits k, congrArg Host.Outcome.next (((if_neg due).trans (if_pos inRange)).trans hx), ?_,
        fun yoke hot => excursion (above _ _ yoke hot), fun yoke hot => ?_⟩
      · have sensors : (x.judgeLimits k).thermal.sensors = x.thermal.sensors := by rw [acts.eq]
        unfold State.sensor
        rw [sensors, same.sensors]
        exact (withReading_sensor s k v).1
      · have clamp : x.thermal.clamp = s.thermal.clamp := by rw [notes.eq]; rfl
        rw [← clamp]
        exact clamps (above _ _ yoke hot)
    · have same := lost.same
      obtain ⟨acts, -, -⟩ := judgeLimits_acts k (same.firmwareTrip.trans stays)
      have sensors : (y.judgeLimits k).thermal.sensors = y.thermal.sensors := by rw [acts.eq]
      refine ⟨y.judgeLimits k, congrArg Host.Outcome.next (lose.trans hy), ?_, ?_⟩
      · unfold State.sensor
        rw [sensors, same.sensors]
        exact fails
      · rw [acts.eq]
        show y.thermal.invalidCount = _
        rw [lost.eq]
        exact count
    · refine ⟨y.judgeLimits k, congrArg Host.Outcome.next (lose.trans hy), ?_⟩
      unfold State.judgeLimits
      rw [lost.same.firmwareTrip, trips, if_pos rfl]
      exact (removeEnable_keeps _ _).1
  · exact ⟨_, congrArg Host.Outcome.next (if_pos (by rw [excursion, hot]; rfl)), rfl, rfl⟩
  · exact congrArg Host.Outcome.next (if_neg (by rw [cool, Bool.and_false]; nofun))
  · obtain ⟨x, measures, theta, hx⟩ := capCompute_acts s powers watts
    obtain ⟨eq, -, thetaL, thetaD, -, excursion, -, computed, uncapped⟩ := computeCap_sets x powers watts
    obtain ⟨acts, cap, clamps⟩ := judgeCap_acts (x.computeCap powers watts)
    have counted : x.countedPanels = s.countedPanels := measures.same.counted
    have computedT : (x.computeCap powers watts).judgeCap.thermal.computedW = (x.computeCap powers watts).thermal.computedW := by
      rw [acts.eq]
    refine ⟨_, congrArg Host.Outcome.next hx, fun p hp answers strong => ?_, ?_, fun idle => ?_, fun c hc low => ?_⟩
    · rw [acts.eq]
      show mapGet _ (x.computeCap powers watts).thermal.thetaL p = _ ∧ mapGet _ (x.computeCap powers watts).thermal.thetaD p = _
      rw [thetaL, thetaD]
      exact theta p hp answers strong
    · rw [computedT, computed, counted]
      have caps : (s.countedPanels.map fun p => (p, (x.computeCap powers watts).judgeCap.capOf p)) =
          s.countedPanels.map fun p => (p, x.capOf p) := by
        refine List.map_congr_left fun p hp => congrArg (Prod.mk p) ?_
        have kept : (x.computeCap powers watts).judgeCap.capOf p = (x.computeCap powers watts).capOf p := by
          refine capOf_congr acts.same ?_ ?_ ?_ fun _ => ?_ <;> rw [acts.eq]
        rw [kept, computeCap_capOf powers watts (counted.symm ▸ hp)]
      rw [caps]
    · rw [cap, computedT]
      refine uncapped ?_
      rw [measures.eq]
      exact idle
    · exact clamps c (computedT ▸ hc) low
  · obtain ⟨dl, value, power, clamp, low⟩ := withFlow_judged on ok flow
    have ht := flowSample_acts on ok flow
    dsimp only at dl value power clamp low ht
    generalize (s.withFlow flow).judgeFlow = x at *
    have step : LimitsAct x (s.flowSample (some flow)) := by
      rw [ht]
      by_cases low3 : 3 ≤ (if flow < s.stopFlow then s.thermal.lowFlow + 1 else 0) ∧ x.power.fold ≠ .folded
      · rw [if_pos low3]
        exact (clampOn_acts x .flow).1
      · rw [if_neg low3]
        exact flowClears_acts x _
    have sensors : (s.flowSample (some flow)).thermal.sensors = x.thermal.sensors := by rw [step.eq]
    refine ⟨_, rfl, ?_, ?_, fun less twice awake => ?_, fun enough long => ?_⟩
    · unfold State.sensor at value ⊢
      rwa [sensors]
    · rw [step.eq]
      exact low
    · rw [ht, if_pos less, if_pos ⟨by omega, by rw [power]; exact awake⟩]
      exact (clampOn_acts x .flow).2.1
    · have high : ¬flow < s.stopFlow := by have := stopFlow_le s; omega
      rw [ht, if_neg high, if_neg (by omega), dl, decide_eq_true enough]
      exact flowClears_releases (by rw [clamp]; exact long)
  · obtain ⟨stage, sent, thermal⟩ := trip_acts peak.toNat collarMs ready ok
    refine ⟨_, rfl, stage, ?_, ?_, ?_, sent, fun twice => ?_⟩
    · rcases thermal with h | h <;> rw [h] <;> rfl
    · rcases thermal with h | h <;> rw [h] <;> rfl
    · rcases thermal with h | h <;> rw [h] <;> rfl
    · have held : (s.thermal.tripped diode.val peak.toNat collarMs).held = true := by
        unfold Thermal.tripped
        dsimp only
        rw [List.length_append, List.length_singleton, decide_eq_true (by omega), Bool.or_true]
      rcases thermal with h | h <;> rw [h] <;> exact held
  · exact ⟨_, congrArg Host.Outcome.next (if_pos ⟨latched, by rw [free]; rfl, met⟩), rfl, rfl⟩
  · exact ⟨_, congrArg Host.Outcome.next (command_done up _ _ held), rfl, rfl⟩
  · exact congrArg Host.Outcome.next (if_pos (by rw [off]; rfl))
  · have ht : s.cycleSample = _ := if_neg (by rw [on]; nofun)
    refine ⟨_, congrArg Host.Outcome.next ht, rfl, fun p hp => ?_, fun due => ?_⟩
    · have cycles : mapGet Cycles.reset ((List.range 8).foldl
          (fun m p => mapPut m p ((mapGet Cycles.reset m p).sample (s.hotLogic p))) s.thermal.cycles) p =
            (mapGet Cycles.reset s.thermal.cycles p).sample (s.hotLogic p) :=
        (foldl_mapPut Cycles.reset (fun p c => c.sample (s.hotLogic p)) _ List.nodup_range _ p).trans (if_pos (List.mem_range.mpr hp))
      dsimp only
      split <;> exact cycles
    · dsimp only
      rw [if_pos due]
      rfl

end Sys2Proof.Proofs
end

section
/-!
PROOF. Supply gates, regulator tiles, the power cap and bump groups (R322 to R332, R353).
-/
namespace Sys2Proof.Machine

/-! ### Gates -/

/-- The capture keeps the lower level and leaves the gate. -/
theorem capture_keeps (x : SupplyState) (mv now : Nat) (_ : mv < 1024) :
    (x.capture mv now).minMv.toNat = min x.minMv.toNat (mv / 5 * 5) ∧ (x.capture mv now).gateClosed = x.gateClosed ∧
      (x.capture mv now).gateEvents = x.gateEvents ∧ (x.capture mv now).gateSince = x.gateSince := by
  unfold SupplyState.capture
  dsimp only
  split
  · refine ⟨?_, rfl, rfl, rfl⟩
    show (BitVec.ofNat 10 _).toNat = _
    rw [BitVec.toNat_ofNat, Nat.mod_eq_of_lt (by omega)]
    omega
  · exact ⟨by omega, rfl, rfl, rfl⟩

/-- The gate at a reading: it closes below 500 mV, releases from 520 mV on, and leaves the lowest level. -/
theorem gate_judges (x : SupplyState) (mv now : Nat) : (x.gate mv now).minMv = x.minMv ∧
    (x.gateClosed = false → mv < 500 → (x.gate mv now).gateClosed = true ∧
      (x.gate mv now).gateEvents = satAdd x.gateEvents 1 ∧ (x.gate mv now).gateSince = now) ∧
    (x.gateClosed = false → 500 ≤ mv → (x.gate mv now).gateClosed = false) ∧
    (x.gateClosed = true → ((x.gate mv now).gateClosed = true ↔ mv < 520)) := by
  unfold SupplyState.gate
  cases h : x.gateClosed with
  | false =>
    by_cases low : mv < 500
    · rw [if_pos ⟨rfl, low⟩]
      exact ⟨rfl, fun _ _ => ⟨rfl, rfl, rfl⟩, fun _ high => absurd low (by omega), nofun⟩
    · rw [if_neg fun c => low c.2, if_neg fun c => nomatch c.1]
      exact ⟨rfl, fun _ less => absurd less low, fun _ _ => h, nofun⟩
  | true =>
    rw [if_neg fun c => nomatch c.1]
    by_cases high : 520 ≤ mv
    · rw [if_pos ⟨rfl, high⟩]
      exact ⟨rfl, nofun, nofun, fun _ => ⟨nofun, fun less => absurd high (by omega)⟩⟩
    · rw [if_neg fun c => high c.2]
      exact ⟨rfl, nofun, nofun, fun _ => ⟨fun _ => by omega, fun _ => h⟩⟩

/-! ### Tiles -/

theorem makeAbsent_tiles (s : State) (n : Nat) (un : List Nat) : (s.makeAbsent n un).map.tiles = s.map.tiles := by
  unfold State.makeAbsent
  rw [settleColumns_phys]
  rfl

theorem loseNumber_tiles (s : State) (phys n cause outcome : Nat) (un : List Nat) :
    (s.loseNumber phys n cause outcome un).map.tiles = s.map.tiles := by
  unfold State.loseNumber State.darkRecord
  rw [stopReplayable_map, note_map, makeAbsent_tiles]

/-- The failed tiles stay as they are where a physical core goes dark. -/
theorem goDark_tiles (s : State) (phys cause : Nat) (selfTest : Bool) : (s.goDark phys cause selfTest).1.map.tiles = s.map.tiles := by
  unfold State.goDark
  dsimp only
  split
  · rfl
  · rfl
  · unfold State.darkRecord
    rw [note_map]
    rfl
  · split
    · rfl
    · repeat' (first | exact loseNumber_tiles _ _ _ _ _ _ | split)
      unfold State.darkRecord
      rw [note_map]
      rfl

theorem darken_tiles (s : State) (phys cause : Nat) (selfTest : Bool) (x : Nat) : (s.darken phys cause selfTest).tilesOf x = s.tilesOf x := by
  have dark : (s.darkenCore phys cause selfTest).1.map.tiles = s.map.tiles := by
    refine Eq.trans ?_ (goDark_tiles s phys cause selfTest)
    unfold State.darkenCore
    dsimp only
    split <;> rfl
  unfold State.tilesOf State.darken
  dsimp only
  split
  · rw [lapReplay_map, dark]
  · rw [dark]

theorem bit_putBit_true {w : Nat} (v : BitVec w) (i j : Nat) (hj : j < w) : bit (putBit v i true) j = (bit v j || decide (j = i)) := by
  simp only [bit, putBit, if_true, BitVec.getLsbD_or, BitVec.getLsbD_ofNat, Nat.testBit_two_pow, hj, decide_true, Bool.true_and]
  rw [decide_eq_decide.mpr (eq_comm (a := i))]

/-- A condition that holds of one more item of a list without repeats selects one more. -/
theorem length_filter_or {l : List Nat} (distinct : l.Nodup) {i : Nat} (mem : i ∈ l) {p : Nat → Bool} (no : p i = false) :
    (l.filter fun j => p j || decide (j = i)).length = (l.filter p).length + 1 := by
  induction l with
  | nil => cases mem
  | cons a r ih =>
    obtain ⟨fresh, rest⟩ := List.nodup_cons.mp distinct
    by_cases h : a = i
    · subst h
      have same : (r.filter fun j => p j || decide (j = a)) = r.filter p :=
        List.filter_congr fun j hj => by rw [decide_eq_false (fun e : j = a => fresh (e ▸ hj)), Bool.or_false]
      rw [List.filter_cons_of_pos (by simp), List.filter_cons_of_neg (by rw [no]; nofun), same, List.length_cons]
    · have tail := ih rest ((List.mem_cons.mp mem).resolve_left (Ne.symm h))
      cases ha : p a <;> simp [ha, h, tail]

/-- One more failed tile adds one to their count. -/
theorem tileCount_putBit (b : BitVec 16) (i : Fin 16) (fresh : bit b i.val = false) : tileCount (putBit b i.val true) = tileCount b + 1 := by
  have same : setBits (putBit b i.val true) = (List.range 16).filter fun j => b.getLsbD j || decide (j = i.val) :=
    List.filter_congr fun j hj => bit_putBit_true b i.val j (List.mem_range.mp hj)
  unfold tileCount
  rw [same]
  exact length_filter_or List.nodup_range (List.mem_range.mpr i.isLt) fresh

/-- A tile that has not failed before fails: it is marked, and the fourth darkens its core. -/
theorem coreTile_fails {s : State} {x : Nat} {tile : Fin 16} (selfTest : Bool) (fresh : bit (s.tilesOf x) tile.val = false) :
    bit ((s.coreTile x tile.val selfTest).tilesOf x) tile.val = true ∧
      (tileCount (s.tilesOf x) = 3 → s.physState x = .active → (s.coreTile x tile.val selfTest).physState x = .dark) := by
  let b := putBit (s.tilesOf x) tile.val true
  have marked (t : State) (ht : t.map = { s.map with tiles := mapPut s.map.tiles x b }) :
      bit (t.tilesOf x) tile.val = true ∧ t.physState x = s.physState x := by
    have tiles : t.tilesOf x = b := by
      unfold State.tilesOf
      rw [ht]
      exact mapGet_mapPut_same _ _ _ _
    refine ⟨?_, physState_congr (by rw [ht]) x⟩
    rw [tiles, bit_putBit_true _ _ _ tile.isLt, decide_eq_true rfl, Bool.or_true]
  let s1 : State := { s with map := { s.map with tiles := mapPut s.map.tiles x b } }
  have noted : ((s1.note 0x17 (x / 68) (x % 68) tile.val (tileCount b)).changedIf (s.logicalOf x).isSome).map = s1.map := by
    unfold State.changedIf
    split
    · exact note_map _ _ _ _ _ _
    · exact note_map _ _ _ _ _ _
  obtain ⟨bits, phys⟩ := marked _ noted
  have h : s.coreTile x tile.val selfTest = _ := if_neg (by rw [fresh]; nofun)
  rw [h]
  dsimp only
  split
  · refine ⟨by rw [darken_tiles]; exact bits, fun _ active => darken_dark (phys.trans active) _ _⟩
  · refine ⟨bits, fun three _ => absurd ?_ ‹¬_›⟩
    rw [tileCount_putBit _ _ fresh, three]

/-- A tile beyond what its domain bears takes the module off for good. -/
theorem moduleFault_bars (s : State) (source : Nat) : (s.moduleFault source).power.stage = false ∧ (s.moduleFault source).power.barred = true := by
  unfold State.moduleFault State.removeEnable State.coldReset
  rw [(bootCollar_only _).1]
  exact ⟨rfl, Bool.or_true _⟩

/-! ### The power cap -/

theorem coreSetting_ge (s : State) : 550 ≤ s.coreSetting := by
  unfold State.coreSetting stepMv pointMv
  split
  · omega
  · split <;> omega

/-- A period's step and the settings that bound it: the clamp, a step down above the cap, a step up below the margin, or neither. -/
theorem capStepNow_bounded (x : State) (watts : Nat) :
    let p := x.power
    let t := (x.capStepNow watts).boundSupplies
    t.power.inputW = p.inputW ∧ t.power.inputV = p.inputV ∧
      (x.thermal.clamp.asked = true → t.power.supplyMv = 550 ∧ t.power.duty = 0) ∧
      (x.thermal.clamp.asked = false → x.capW < watts →
        (550 < p.supplyMv → t.power.supplyMv = min (max 550 (p.supplyMv - x.capStep)) x.coreSetting ∧ t.power.duty = p.duty) ∧
        (p.supplyMv ≤ 550 → t.power.supplyMv = min p.supplyMv x.coreSetting ∧ t.power.duty = p.duty - 1)) ∧
      (x.thermal.clamp.asked = false → watts * 100 < x.capW * (100 - x.raiseMargin) →
        (p.duty < 16 → t.power.duty = p.duty + 1) ∧
        (16 ≤ p.duty → t.power.supplyMv = min x.coreSetting (p.supplyMv + x.capStep) ∧ t.power.duty = p.duty)) ∧
      (x.thermal.clamp.asked = false → watts ≤ x.capW → x.capW * (100 - x.raiseMargin) ≤ watts * 100 →
        t.power.supplyMv = min p.supplyMv x.coreSetting ∧ t.power.duty = p.duty) := by
  have floor := coreSetting_ge x
  cases asked : x.thermal.clamp.asked with
  | true =>
    have h : x.capStepNow watts = x.applyClamp := if_pos asked
    dsimp only
    rw [h]
    exact ⟨rfl, rfl, fun _ => ⟨Nat.min_eq_left floor, rfl⟩, nofun, nofun, nofun⟩
  | false =>
    by_cases above : x.capW < watts
    · have h : x.capStepNow watts = { x with power := x.power.lower x.capStep } :=
        (if_neg (by rw [asked]; nofun)).trans (if_pos above)
      have high : ¬watts * 100 < x.capW * (100 - x.raiseMargin) := by
        have : x.capW * (100 - x.raiseMargin) ≤ x.capW * 100 := Nat.mul_le_mul_left _ (by omega)
        omega
      dsimp only
      rw [h]
      by_cases room : 550 < x.power.supplyMv
      · have l : x.power.lower x.capStep = _ := if_pos room
        rw [l]
        exact ⟨rfl, rfl, nofun, fun _ _ => ⟨fun _ => ⟨rfl, rfl⟩, fun low => absurd room (by omega)⟩, fun _ low => absurd low high,
          fun _ low => absurd above (by omega)⟩
      · have l : x.power.lower x.capStep = _ := if_neg room
        rw [l]
        exact ⟨rfl, rfl, nofun, fun _ _ => ⟨fun more => absurd more room, fun _ => ⟨rfl, rfl⟩⟩, fun _ low => absurd low high,
          fun _ low => absurd above (by omega)⟩
    · by_cases below : watts * 100 < x.capW * (100 - x.raiseMargin)
      · have h : x.capStepNow watts = { x with power := x.power.raise x.capStep x.coreSetting x.yokeSetting x.cuffSetting } :=
          (if_neg (by rw [asked]; nofun)).trans ((if_neg above).trans (if_pos below))
        dsimp only
        rw [h]
        by_cases less : x.power.duty < 16
        · have r : x.power.raise x.capStep x.coreSetting x.yokeSetting x.cuffSetting = _ := if_pos less
          rw [r]
          exact ⟨rfl, rfl, nofun, fun _ more => absurd more above, fun _ _ => ⟨fun _ => rfl, fun full => absurd less (by omega)⟩,
            fun _ _ more => absurd below (by omega)⟩
        · have r : x.power.raise x.capStep x.coreSetting x.yokeSetting x.cuffSetting = _ := if_neg less
          rw [r]
          exact ⟨rfl, rfl, nofun, fun _ more => absurd more above,
            fun _ _ => ⟨fun room => absurd room less, fun _ => ⟨Nat.min_eq_left (Nat.min_le_left _ _), rfl⟩⟩,
            fun _ _ more => absurd below (by omega)⟩
      · have h : x.capStepNow watts = x := (if_neg (by rw [asked]; nofun)).trans ((if_neg above).trans (if_neg below))
        dsimp only
        rw [h]
        exact ⟨rfl, rfl, nofun, fun _ more => absurd more above, fun _ low => absurd low below, fun _ _ _ => ⟨rfl, rfl⟩⟩

/-! ### Bump groups -/

/-- A group flagged by one drop: those flagged before and that one. -/
theorem flagBump_flags (s : State) (cal : List (Nat × Nat)) (drops : List BumpDrop) (d : BumpDrop) (g : Nat) :
    g ∈ (s.flagBump cal drops d).power.bumpFlagged ↔ g ∈ s.power.bumpFlagged ∨ d.group = g := by
  unfold State.flagBump
  split
  · rename_i has
    refine ⟨.inl, fun h => h.elim id fun e => e ▸ List.contains_iff_mem.mp has⟩
  · dsimp only
    rw [State.note_only]
    simp [eq_comm]

theorem flagBump_fold (cal : List (Nat × Nat)) (drops ds : List BumpDrop) (s : State) (g : Nat) :
    g ∈ (foldOver ds (fun t d => t.flagBump cal drops d) s).power.bumpFlagged ↔ g ∈ s.power.bumpFlagged ∨ ∃ d ∈ ds, d.group = g := by
  induction ds generalizing s with
  | nil => simp [foldOver]
  | cons d r ih =>
    refine (ih (s.flagBump cal drops d)).trans ?_
    rw [flagBump_flags]
    simp [or_assoc]

/-- Calibrated values of groups told apart: each has its own. -/
theorem calibrated_get (ds : List BumpDrop) (distinct : (ds.map (·.group)).Nodup) (m : List (Nat × Nat)) :
    (∀ d ∈ ds, mapGet 0 (ds.foldl (fun m d => mapPut m d.group d.mv) m) d.group = d.mv) ∧
      ∀ g, (∀ d ∈ ds, d.group ≠ g) → mapGet 0 (ds.foldl (fun m d => mapPut m d.group d.mv) m) g = mapGet 0 m g := by
  induction ds generalizing m with
  | nil => exact ⟨nofun, fun _ _ => rfl⟩
  | cons e r ih =>
    obtain ⟨fresh, rest⟩ := List.nodup_cons.mp distinct
    obtain ⟨own, others⟩ := ih rest (mapPut m e.group e.mv)
    refine ⟨fun d hd => ?_, fun g hg => ?_⟩
    · rcases List.mem_cons.mp hd with rfl | hd
      · refine (others d.group fun f hf same => fresh ?_).trans (mapGet_mapPut_same _ _ _ _)
        exact List.mem_map.mpr ⟨f, hf, same⟩
      · exact own d hd
    · refine (others g fun d hd => hg d (List.mem_cons_of_mem _ hd)).trans ?_
      exact mapGet_mapPut_other _ _ _ _ _ (hg e List.mem_cons_self).symm

end Sys2Proof.Machine

namespace Sys2Proof.Proofs
open Sys2Proof Sys2Proof.Machine

/-- Settles O52: gates, tiles, cap and bump groups each by the lemma about their step. -/
theorem powerControl : Obligations.PowerControl := by
  intro s n x tile selfTest path value
  refine ⟨fun mv up => ?_, fun up closed active => ?_, fun on powered fresh => ?_, fun on => ?_, fun watts volts on => ?_, fun drops on => ?_,
    fun scope drops up on => ?_, fun hopen there present restart => ?_⟩
  · obtain ⟨minMv, closes, opens, holds⟩ := gate_judges (s.core n.val).supply mv.toNat s.now
    obtain ⟨least, gate, events, since⟩ := capture_keeps ((s.core n.val).supply.gate mv.toNat s.now) mv.toNat s.now mv.isLt
    have ht : (if s.corePowered n.val then s.setCore n.val { s.core n.val with
        supply := ((s.core n.val).supply.gate mv.toNat s.now).capture mv.toNat s.now } else s) = s.setCore n.val { s.core n.val with
          supply := ((s.core n.val).supply.gate mv.toNat s.now).capture mv.toNat s.now } := if_pos up
    refine ⟨_, congrArg Host.Outcome.next ht, rfl, fun m hm => (State.core_setCore _ _ _ _).trans (if_neg hm), ?_⟩
    rw [State.core_setCore_same]
    dsimp only
    rw [gate, events, since, least, minMv]
    exact ⟨closes, opens, holds, rfl⟩
  · have dark := darken_dark (s := s.reach ((s.core n.val).supply.gateSince + 100001)) active 1 selfTest
    refine ⟨_, congrArg Host.Outcome.next (if_pos (by rw [up, closed]; rfl)), ?_⟩
    exact (congrArg physDark dark).trans rfl
  · obtain ⟨marked, fourth⟩ := coreTile_fails (x := x.val) selfTest fresh
    have ht : s.tileFail (.core x tile) selfTest = s.coreTile x.val tile.val selfTest := (if_neg (by rw [on]; nofun)).trans (if_pos powered)
    exact ⟨_, congrArg Host.Outcome.next ht, marked, fun three active => by rw [fourth three active]; rfl⟩
  · have ht : s.tileFail .yoke selfTest = _ := if_neg (by rw [on]; nofun)
    refine ⟨_, congrArg Host.Outcome.next ht, fun few => if_neg (by omega), fun many => ?_⟩
    dsimp only
    rw [if_pos (by omega)]
    exact moduleFault_bars _ _
  · let y := s.applyPowerExpert.takeSettings s
    obtain ⟨inputW, inputV, clamp, down, up, neither⟩ :=
      capStepNow_bounded { y with power := { y.power with inputW := watts, inputV := volts } } watts.toNat
    refine ⟨_, congrArg Host.Outcome.next (if_pos on), inputW, inputV, clamp, down, up, fun free low high => ?_⟩
    obtain ⟨supply, duty⟩ := neither free low high
    refine ⟨supply.trans ?_, duty⟩
    show min (s.applyPowerExpert.follow s.power.supplyMv s.coreSetting y.coreSetting) y.coreSetting = _
    unfold State.follow
    by_cases at_ : s.power.supplyMv = s.coreSetting
    · rw [if_pos at_, if_pos ⟨at_, by rw [show s.applyPowerExpert.thermal = s.thermal from rfl, free]; rfl⟩]
      exact Nat.min_self _
    · rw [if_neg at_, if_neg fun c => at_ c.1]
      exact Nat.min_eq_left (Nat.min_le_right _ _)
  · refine ⟨_, congrArg Host.Outcome.next (if_pos on), fun g => ?_⟩
    refine (flagBump_fold _ _ _ _ g).trans ?_
    refine or_congr Iff.rfl ⟨?_, ?_⟩
    · rintro ⟨d, hd, same⟩
      obtain ⟨mem, suspect⟩ := List.mem_filter.mp hd
      exact ⟨d, mem, same, suspect⟩
    · rintro ⟨d, mem, same, suspect⟩
      exact ⟨d, List.mem_filter.mpr ⟨mem, suspect⟩, same⟩
  · refine ⟨_, congrArg Host.Outcome.next (command_done up _ _ on), ?_⟩
    unfold State.recalibrate
    dsimp only
    cases bit scope 0 <;> cases bit scope 1
    · exact ⟨rfl, fun _ => rfl, nofun, nofun, fun _ => rfl⟩
    · exact ⟨rfl, fun _ => rfl, nofun, fun _ => ⟨rfl, rfl⟩, nofun⟩
    · exact ⟨rfl, nofun, fun _ distinct => (calibrated_get drops distinct _).1, nofun, fun _ => rfl⟩
    · exact ⟨rfl, nofun, fun _ distinct => (calibrated_get drops distinct _).1, fun _ => ⟨rfl, rfl⟩, nofun⟩
  · have ht : s.writeCo n.val .minVolt (coBase n.val + 0x1C0) value =
        s.updCore n.val fun c => { c with supply := { c.supply with minMv := 0x3FF } } := if_pos restart
    refine ⟨_, congrArg Host.Outcome.next (setRegister_co (o := 0x1C0) (r := .minVolt) hopen there present ⟨by decide, by decide⟩ rfl value), ?_⟩
    rw [ht]
    exact ⟨congrArg Core.supply (State.core_setCore_same _ _ _), fun m hm => (State.core_setCore _ _ _ _).trans (if_neg hm)⟩

end Sys2Proof.Proofs
end

section
/-!
PROOF. No write of a setup register brings a BAR4 request or a doorbell to the host queue engine (R299, R303).
-/
namespace Sys2Proof.Machine

/-- Where nothing had arrived at the host queue engine, nothing has arrived after. -/
structure AsksNone (s t : State) : Prop where
  keeps : s.host.requests = [] → t.host.requests = []

namespace AsksNone

theorem refl (s : State) : AsksNone s s := ⟨id⟩

theorem trans {s t u : State} (h : AsksNone s t) (g : AsksNone t u) : AsksNone s u := ⟨g.keeps ∘ h.keeps⟩

/-- The last step first, for steps whose start is known from it alone. -/
theorem after {s t u : State} (g : AsksNone t u) (h : AsksNone s t) : AsksNone s u := h.trans g

theorem of_requests {s t : State} (h : t.host.requests = s.host.requests) : AsksNone s t := ⟨h.trans⟩

theorem ite {s a b : State} {c : Prop} [Decidable c] (ha : AsksNone s a) (hb : AsksNone s b) : AsksNone s (if c then a else b) := by
  split
  · exact ha
  · exact hb

theorem fold {α : Type} {f : State → α → State} (h : ∀ t a, AsksNone t (f t a)) (l : List α) (s : State) : AsksNone s (foldOver l f s) :=
  foldOver_rel refl (fun _ _ _ => trans) h l s

end AsksNone

theorem SettleKeeps.asks {s t : State} (h : SettleKeeps s t) : AsksNone s t := .of_requests (by rw [h.eq])

theorem note_asks (s : State) (a b c d e : Nat) : AsksNone s (s.note a b c d e) := .of_requests (by rw [State.note_only])

/-! ### Completions -/

theorem signal_asks (s : State) (v : Nat) : AsksNone s (s.signal v) := by
  unfold State.signal
  exact .ite ⟨id⟩ ⟨id⟩

theorem writeEntry_asks (s : State) (cq : Nat) (e : HeldEntry) : AsksNone s (s.writeEntry cq e) := by
  unfold State.writeEntry
  dsimp only
  exact .ite (.ite (.after (signal_asks _ _) ⟨id⟩) ⟨id⟩) ⟨id⟩

theorem flushCq_asks (fuel : Nat) (s : State) (cq : Nat) : AsksNone s (s.flushCq fuel cq) := by
  induction fuel generalizing s with
  | zero => exact .refl s
  | succ k ih =>
    unfold State.flushCq
    dsimp only
    split
    · exact ⟨id⟩
    · refine .ite (.after (ih _) ?_) (.refl s)
      exact .after (writeEntry_asks _ _ _) ⟨id⟩

theorem complete_asks (s : State) (q : Nat) (d : Desc) (status specific : Nat) : AsksNone s (s.complete q d status specific) := by
  have posted : AsksNone s ((s.dropDesc q d).postEntry q d status specific) := by
    refine AsksNone.trans (t := s.dropDesc q d) ⟨id⟩ ?_
    unfold State.postEntry
    dsimp only
    split
    · exact writeEntry_asks _ _ _
    · exact ⟨id⟩
  unfold State.complete
  dsimp only
  exact .ite (posted.trans ⟨id⟩) posted

theorem fencesDone_asks (fuel : Nat) (s : State) : AsksNone s (s.fencesDone fuel) := by
  induction fuel generalizing s with
  | zero => exact ⟨id⟩
  | succ k ih =>
    unfold State.fencesDone
    split
    · next hk _ =>
      cases hk
      split
      · dsimp only
        refine AsksNone.trans ?_ (ih _)
        split
        · exact AsksNone.after (complete_asks _ _ _ _ _) ⟨id⟩
        · exact ⟨id⟩
      · exact ⟨id⟩
    · exact ⟨id⟩

/-! ### Isolation and training of Panels -/

theorem settleColumns_settle (s : State) : SettleKeeps s s.settleColumns :=
  foldOver_rel .refl (fun _ _ _ => .trans) (fun _ _ => .ite (setColumn_settle _ _ _) (.refl _)) _ s

theorem dropBar4_idle {s : State} (h : s.host.requests = []) (p : Nat) : s.dropBar4 p = s := by
  unfold State.dropBar4
  dsimp only
  rw [h]
  dsimp only [List.filter_nil, foldOver, List.foldl_nil]
  rw [← h]

theorem dropWalks_asks (s : State) (p : Nat) : AsksNone s (s.dropWalks p) := by
  unfold State.dropWalks
  refine .fold (fun t n => ?_) _ _
  dsimp only
  exact .ite ⟨id⟩ ⟨id⟩

theorem dropFences_asks (s : State) (p : Nat) : AsksNone s (s.dropFences p) := by
  unfold State.dropFences
  exact .after (fencesDone_asks _ _) ⟨id⟩

theorem changedIf_asks (s : State) (b : Bool) : AsksNone s (s.changedIf b) := by
  unfold State.changedIf
  exact .ite ⟨id⟩ ⟨id⟩

theorem cutOff_asks (s : State) (p : Nat) : AsksNone s (s.cutOff p) := by
  unfold State.cutOff
  refine .after (dropWalks_asks _ _) ⟨fun h => ?_⟩
  rw [dropBar4_idle h]
  exact h

theorem panelGone_asks (s : State) (p : Nat) (lost : Bool) : AsksNone s (s.panelGone p lost) := ⟨id⟩

theorem portsDown_asks (s : State) (ns : List Nat) : AsksNone s (s.portsDown ns) := by
  unfold State.portsDown
  refine .fold (fun t n => ?_) _ _
  exact .after (changedIf_asks _ _) ⟨id⟩

theorem isolationEnd_asks (s : State) (p cause : Nat) : AsksNone s (s.isolationEnd p cause) := by
  unfold State.isolationEnd
  refine .after (settleColumns_settle _).asks (.after (note_asks _ _ _ _ _ _) (.after (dropFences_asks _ _) ⟨id⟩))

theorem isolate_asks (s : State) (p cause : Nat) (lost : Bool) : AsksNone s (s.isolate p cause lost) := by
  by_cases gone : (s.panel p).state = .isolated ∨ (s.panel p).state = .lost
  · have h : s.isolate p cause lost = if lost then s.updPanel p fun x => { x with state := .lost } else s := if_pos gone
    rw [h]
    exact .ite ⟨id⟩ (.refl s)
  · obtain ⟨h1, h2⟩ := not_or.mp gone
    rw [isolate_of_present h1 h2]
    exact .after (isolationEnd_asks _ _ _) (.after (portsDown_asks _ _) ((cutOff_asks s p).trans (panelGone_asks _ _ _)))

theorem handOver_asks (s : State) (port module cause : Nat) : AsksNone s (s.handOver port module cause) := by
  unfold State.handOver
  refine .after (.fold (fun _ _ => ?_) _ _) ⟨id⟩
  exact ⟨id⟩

theorem retirePort_asks (s : State) (port module cause : Nat) : AsksNone s (s.retirePort port module cause) := by
  have noted : AsksNone s ((s.handOver port module cause).note 0x40 grpYoke port 0 (module * 256 + cause)).changed :=
    .after (t := (s.handOver port module cause).note _ _ _ _ _) ⟨id⟩ ((handOver_asks s port module cause).trans (note_asks _ _ _ _ _ _))
  unfold State.retirePort
  refine .ite (.refl s) ?_
  exact .ite (.after (isolate_asks _ _ _ _) noted) noted

theorem trainPort_asks (s : State) (port : Nat) (t : PortTraining) : AsksNone s (s.trainPort port t) := by
  unfold State.trainPort
  split
  · cases t with
    | trained => exact ⟨id⟩
    | failedLaneTest m => exact retirePort_asks _ _ _ _
    | notTrained => exact ⟨id⟩
  · exact ⟨id⟩

theorem trainPorts_asks (s : State) (p : Nat) (attempts : List (PortTraining × PortTraining)) : AsksNone s (s.trainPorts p attempts).1 :=
  .fold (fun _ _ => (trainPort_asks _ _ _).trans (trainPort_asks _ _ _)) _ s

/-! ### Darkening and replay -/

theorem loseNumber_asks (s : State) (phys n cause outcome : Nat) (un : List Nat) : AsksNone s (s.loseNumber phys n cause outcome un) := by
  unfold State.loseNumber State.stopReplayable State.darkRecord
  have gone : AsksNone s (s.makeAbsent n un) := by
    unfold State.makeAbsent
    exact .after (settleColumns_settle _).asks ⟨id⟩
  have noted := gone.trans (note_asks _ 0x16 (phys / 68) (phys % 68) (n + crossoverOf phys % 68 * 65536) (cause * 256 + outcome))
  refine .ite (noted.trans (.fold (fun _ _ => ?_) _ _)) noted
  exact ⟨id⟩

theorem darkenCore_asks (s : State) (phys cause : Nat) (selfTest : Bool) : AsksNone s (s.darkenCore phys cause selfTest).1 := by
  have dark : AsksNone s (s.goDark phys cause selfTest).1 := by
    unfold State.goDark
    dsimp only
    split
    · exact ⟨id⟩
    · exact ⟨id⟩
    · exact .after (note_asks _ _ _ _ _ _) ⟨id⟩
    · split
      · exact ⟨id⟩
      · repeat' (first | exact .after (loseNumber_asks _ _ _ _ _ _) ⟨id⟩ | split)
        exact .after (note_asks _ _ _ _ _ _) ⟨id⟩
  unfold State.darkenCore
  dsimp only
  split
  · exact dark.trans ⟨id⟩
  · exact dark

theorem noteFill_asks (s : State) (n w last : Nat) : AsksNone s (s.noteFill n w last) :=
  (onColumn_settle s _ _).asks.trans (.fold (fun _ _ => .ite (onColumn_settle _ _ _).asks ⟨id⟩) _ _)

theorem restartCore_asks (s : State) (lap n : Nat) : AsksNone s (s.restartCore lap n) := by
  unfold State.restartCore
  dsimp only
  exact .ite ((noteFill_asks _ _ _ _).trans ⟨id⟩) ⟨id⟩

theorem lapReplay_asks (s : State) (cause : Nat) : AsksNone s (s.lapReplay cause) := by
  unfold State.lapReplay
  dsimp only
  refine .ite ?_ ⟨id⟩
  refine .trans ?_ (note_asks _ _ _ _ _ _)
  refine .trans ?_ (.fold (fun _ _ => restartCore_asks _ _ _) _ _)
  refine .after (.fold (fun t k => ?_) _ _) ⟨id⟩
  exact (drainRing_settle t k).asks.trans ⟨id⟩

theorem darken_asks (s : State) (phys cause : Nat) (selfTest : Bool) : AsksNone s (s.darken phys cause selfTest) := by
  unfold State.darken
  dsimp only
  exact .ite ((darkenCore_asks _ _ _ _).trans (lapReplay_asks _ _)) (darkenCore_asks _ _ _ _)

/-! ### Rejoin, wake and Panel resets -/

theorem rejoinEnd_asks (s : State) (p ports : Nat) (lost : Bool) : AsksNone s (s.rejoinEnd p ports lost) := by
  unfold State.rejoinEnd
  dsimp only
  refine .ite ⟨id⟩ (.trans ?_ (note_asks _ _ _ _ _ _))
  exact .ite ⟨id⟩ (.after (lapReplay_asks _ _) ⟨id⟩)

theorem returnWindows_asks (s : State) (p : Nat) : AsksNone s (s.returnWindows p) := ⟨id⟩

theorem reinitCore_asks (s : State) (n : Nat) : AsksNone s (s.reinitCore n) := by
  unfold State.reinitCore
  exact .ite ⟨id⟩ ⟨id⟩

theorem rejoin_asks (s : State) (p : PanelId) (attempts : List (PortTraining × PortTraining)) (level : BitVec 2)
    (failed : List (CoreId × Bool)) : AsksNone s (s.rejoin p attempts level failed) := by
  unfold State.rejoin
  dsimp only
  refine .ite ?_ ⟨id⟩
  have trained : AsksNone s ((s.updPanel p.val fun x => { x with state := .rejoining }).trainPorts p.val attempts).1 :=
    .after (trainPorts_asks _ _ _) ⟨id⟩
  refine .ite (.ite trained (trained.trans (isolate_asks _ _ _ _))) (.ite ?_ ?_)
  · exact trained.trans (.after (note_asks _ _ _ _ _ _) ⟨id⟩)
  · refine .trans ?_ (rejoinEnd_asks _ _ _ _)
    refine .trans ?_ (.fold (fun _ _ => darkenCore_asks _ _ _ _) _ _)
    refine trained.trans (.after (returnWindows_asks _ _) ?_)
    exact .after (.fold reinitCore_asks _ _) ⟨id⟩

theorem resetCores_asks (s : State) (p : Nat) : AsksNone s (s.resetCores p) := by
  unfold State.resetCores
  refine .fold (fun t n => ?_) _ _
  exact .ite ⟨id⟩ ⟨id⟩

theorem panelReset_asks (s : State) (p : Nat) : AsksNone s (s.panelReset p) := by
  have reset := (isolate_asks s p 1 false).trans (resetCores_asks _ p)
  unfold State.panelReset
  generalize (s.isolate p 1 false).resetCores p = x at reset ⊢
  exact reset.trans ⟨id⟩

theorem panelCycle_asks (s : State) (p : Nat) : AsksNone s (s.panelCycle p) := by
  have reset := (isolate_asks s p 1 false).trans (resetCores_asks _ p)
  unfold State.panelCycle
  generalize (s.isolate p 1 false).resetCores p = x at reset ⊢
  exact reset.trans ⟨id⟩

theorem applyColumns_settle (s : State) : SettleKeeps s s.applyColumns :=
  foldOver_rel (R := SettleKeeps) .refl (fun _ _ _ => .trans) (fun _ _ => setColumn_settle _ _ _) _ s

theorem wake_asks (s : State) : AsksNone s s.wake := by
  unfold State.wake
  split
  · unfold State.wakeSteps
    dsimp only
    refine .trans ?_ (.fold panelCycle_asks _ _)
    exact .trans (t := s.wakeCores.applyColumns) (.after (applyColumns_settle _).asks ⟨id⟩) ⟨id⟩
  · exact ⟨id⟩
  · exact ⟨id⟩

/-! ### Registers -/

theorem discard_asks (s : State) (o : Nat) : AsksNone s (s.discard o) := note_asks _ _ _ _ _ _

theorem startLog_asks (s : State) : AsksNone s s.startLog := by
  have retired (x : State) : AsksNone x x.noteRetired := by
    unfold State.noteRetired
    exact .ite ⟨id⟩ (.after (.fold (fun _ _ => .fold (fun _ _ => note_asks _ _ _ _ _ _) _ _) _ _) ⟨id⟩)
  have restart (x : State) : AsksNone x x.noteRestart := by
    unfold State.noteRestart
    split
    · exact .ite (.after (note_asks _ _ _ _ _ _) ⟨id⟩) ⟨id⟩
    · exact ⟨id⟩
  exact .after ((retired _).trans (restart _)) ⟨id⟩

theorem writeCo_asks (s : State) (n : Nat) (r : CoReg) (o : Nat) (v : Word) : AsksNone s (s.writeCo n r o v) := by
  cases r with
  | rosterCtrl => exact .ite (a := s.updCore n _) ⟨id⟩ ⟨id⟩
  | rosterFault => exact .ite ⟨id⟩ ⟨id⟩
  | rosterRegion => exact .ite (discard_asks _ _) ⟨id⟩
  | creditWin w => exact .ite (discard_asks _ _) ⟨id⟩
  | minVolt => exact .ite ⟨id⟩ ⟨id⟩
  | _ => exact ⟨id⟩

theorem writePk_asks (s : State) (k : Nat) (r : PkReg) (v : Word) : AsksNone s (s.writePk k r v) := by
  cases r with
  | ctrl => exact .ite ⟨id⟩ ⟨id⟩
  | expert => exact .ite ⟨id⟩ ⟨id⟩
  | _ => exact ⟨id⟩

theorem writeCf_asks (s : State) (k : Nat) (r : CfReg) (v : Word) : AsksNone s (s.writeCf k r v) := by
  cases r with
  | retrain => exact .ite ⟨id⟩ ⟨id⟩
  | _ => exact ⟨id⟩

theorem writeExpert_asks (s : State) (v : Word) : AsksNone s (s.writeExpert v) := by
  unfold State.writeExpert
  dsimp only
  refine .ite ?_ (.after (settleColumns_settle _).asks ?_) <;> exact .ite ⟨id⟩ ⟨id⟩

theorem askRejoin_asks (s : State) (v : Word) (e : WriteEnv) : AsksNone s (s.askRejoin v e) := by
  unfold State.askRejoin
  exact .ite (rejoin_asks _ _ _ _ _) (.refl s)

theorem askDarken_asks (s : State) (v : Word) (selfTest : Bool) : AsksNone s (s.askDarken v selfTest) := by
  unfold State.askDarken
  exact .ite (darken_asks _ _ _ _) (.refl s)

theorem writeFold_asks (s : State) (v : Word) : AsksNone s (s.writeFold v) := by
  unfold State.writeFold
  exact .ite (wake_asks s) (.refl s)

theorem askReset_asks (s : State) (v : Word) : AsksNone s (s.askReset v) := by
  unfold State.askReset State.resetPanel
  exact .ite (.ite (panelReset_asks _ _) (.refl s)) (.refl s)

theorem askCycle_asks (s : State) (v : Word) : AsksNone s (s.askCycle v) := by
  unfold State.askCycle State.cyclePanel
  exact .ite (.ite (.refl s) (.ite (panelCycle_asks _ _) ⟨id⟩)) (.refl s)

theorem writeLogBase_asks (s : State) (o : Nat) (high : Bool) (v : Word) : AsksNone s (s.writeLogBase o high v) := by
  unfold State.writeLogBase
  exact .ite (discard_asks _ _) ⟨id⟩

theorem writeLogCtrl_asks (s : State) (o : Nat) (v : Word) : AsksNone s (s.writeLogCtrl o v) := by
  unfold State.writeLogCtrl
  dsimp only
  exact .ite (discard_asks _ _) (.ite (.after (startLog_asks _) ⟨id⟩) ⟨id⟩)

theorem writeSqBase_asks (s : State) (q o : Nat) (high : Bool) (v : Word) : AsksNone s (s.writeSqBase q o high v) := by
  unfold State.writeSqBase
  exact .ite (discard_asks _ _) ⟨id⟩

theorem writeCqBase_asks (s : State) (q o : Nat) (high : Bool) (v : Word) : AsksNone s (s.writeCqBase q o high v) := by
  unfold State.writeCqBase
  exact .ite (discard_asks _ _) ⟨id⟩

theorem writeSq_asks (s : State) (q o : Nat) (v : Word) : AsksNone s (s.writeSq q o v) := by
  unfold State.writeSq
  exact .ite (discard_asks _ _) ⟨id⟩

theorem writeCq_asks (s : State) (q o : Nat) (v : Word) : AsksNone s (s.writeCq q o v) := by
  unfold State.writeCq
  dsimp only
  exact .ite (discard_asks _ _) (.ite (.after (flushCq_asks _ _ _) ⟨id⟩) ⟨id⟩)

theorem writeService_asks (s : State) (v : Word) : AsksNone s (s.writeService v) := by
  unfold State.writeService
  exact .ite ⟨id⟩ ⟨id⟩

/-- A register's write brings no request. -/
theorem writeReg_asks (s : State) (r : Reg) (o : Nat) (v : Word) (e : WriteEnv) : AsksNone s (s.writeReg r o v e) := by
  cases r with
  | expertEnable => exact writeExpert_asks s v
  | panelRejoin => exact askRejoin_asks s v e
  | coreDarken => exact askDarken_asks s v _
  | logBaseLo => exact writeLogBase_asks s o _ v
  | logBaseHi => exact writeLogBase_asks s o _ v
  | logCtrl => exact writeLogCtrl_asks s o v
  | sqBaseLo q => exact writeSqBase_asks s q o _ v
  | sqBaseHi q => exact writeSqBase_asks s q o _ v
  | cqBaseLo q => exact writeCqBase_asks s q o _ v
  | cqBaseHi q => exact writeCqBase_asks s q o _ v
  | sqCtrl q => exact writeSq_asks s q o v
  | cqCtrl q => exact writeCq_asks s q o v
  | pwFold => exact writeFold_asks s v
  | pwReset => exact (askReset_asks s v).trans (askCycle_asks _ v)
  | co n c => exact writeCo_asks s n c o v
  | pk k c => exact writePk_asks s k c v
  | cf k c => exact writeCf_asks s k c v
  | clServiceCtrl => exact writeService_asks s v
  | clTagCtrl => exact .ite ⟨id⟩ ⟨id⟩
  | _ => exact ⟨id⟩

theorem writeSetup_asks (s : State) (o width : Nat) (v : DWord) (e : WriteEnv) : AsksNone s (s.writeSetup o width v e) := by
  unfold State.writeSetup
  split
  · exact note_asks _ _ _ _ _ _
  · split
    · exact .ite ((writeReg_asks _ _ _ _ _).trans ⟨id⟩) (note_asks _ _ _ _ _ _)
    · exact note_asks _ _ _ _ _ _

end Sys2Proof.Machine
end

section
/-!
PROOF. The host port: BAR4 accesses, their openings and their limit, configuration requests and the link (R22, R296, R299, R300, R337).
-/
namespace Sys2Proof.Machine

/-! ### The queue of arrivals -/

theorem updHost_same {s : State} {rs : List HostRequest} (h : s.host.requests = rs) :
    (s.updHost fun x => { x with requests := rs }) = s := by
  rw [← h]
  rfl

/-- A BAR4 access at the head of the queue leaves no doorbell that may act before it. -/
theorem doorbells_access {s : State} {r : Bar4Request} (h : s.host.requests = [.access r]) (fuel : Nat) : s.doorbells fuel = s := by
  cases fuel with
  | zero => rfl
  | succ k =>
    unfold State.doorbells
    rw [h]
    cases hd : r.data <;> simp [HostRequest.ordered, hd]

theorem doorbells_none {s : State} (h : s.host.requests = []) (fuel : Nat) : s.doorbells fuel = s := by
  cases fuel with
  | zero => rfl
  | succ k =>
    unfold State.doorbells
    rw [h]
    rfl

/-- With nothing waiting, an opening serves nothing. -/
theorem bar4Drain_none {s : State} (h : s.host.requests = []) (fuel key units : Nat) : s.bar4Drain fuel key units = (s, 0) := by
  cases fuel with
  | zero => rfl
  | succ k =>
    unfold State.bar4Drain
    rw [doorbells_none h]
    dsimp only
    rw [h]

/-- The one access that waits needs no ring: it acts as it is judged. -/
theorem bar4Drain_judged {s t : State} {r : Bar4Request} (h : s.host.requests = [.access r]) (k key units : Nat)
    (judged : (s.updHost fun x => { x with requests := [] }).bar4Judge r = some t) :
    s.bar4Drain (k + 1) key units = t.bar4Drain k key units := by
  rw [State.bar4Drain, doorbells_access h]
  dsimp only
  rw [h]
  dsimp only
  rw [judged]

/-- The one access that waits needs a ring, and no opening is at hand: it goes on waiting. -/
theorem bar4Drain_waits {s : State} {r : Bar4Request} (h : s.host.requests = [.access r]) (k key : Nat)
    (judged : (s.updHost fun x => { x with requests := [] }).bar4Judge r = none) : s.bar4Drain (k + 1) key 0 = (s, 0) := by
  rw [State.bar4Drain, doorbells_access h]
  dsimp only
  rw [h]
  dsimp only
  rw [judged]
  rfl

/-- The one access that waits is served whole in an opening. -/
theorem bar4Drain_served {s t : State} {r : Bar4Request} {n : Nat} (h : s.host.requests = [.access r]) (k key units : Nat) (some_ : units ≠ 0)
    (judged : (s.updHost fun x => { x with requests := [] }).bar4Judge r = none)
    (served : (s.updHost fun x => { x with requests := [] }).bar4Serve r key units = (t, none, n)) :
    s.bar4Drain (k + 1) key units = ((t.bar4Drain k key (units - n)).1, n + (t.bar4Drain k key (units - n)).2) := by
  rw [State.bar4Drain, doorbells_access h]
  dsimp only
  rw [h]
  dsimp only
  rw [judged]
  dsimp only
  rw [if_neg some_, served]

/-! ### An access on its arrival -/

/-- A request with the rings of its path. -/
def State.routed (s : State) (r : Bar4Request) : Bar4Request := { r with path := s.bar4Path r }

/-- The module with an access arrived where nothing waited. -/
def State.arrived (s : State) (r : Bar4Request) : State := s.updHost fun h => { h with requests := [.access (s.routed r)] }

theorem arrived_left {s : State} (idle : s.host.requests = []) (r : Bar4Request) :
    ((s.arrived r).updHost fun h => { h with requests := [] }) = s := updHost_same idle

/-- An access on its arrival, where the module serves it and nothing had arrived before. -/
theorem bar4Access_arrives {s : State} (r : Bar4Request) (started : 4 ≤ s.power.step) (ready : s.power.ready = true)
    (normal : s.mgmt.testMode = false) (awake : s.awake = true) (idle : s.host.requests = []) :
    s.bar4Access r false = ((s.arrived r).bar4Drain 2 0 0).1 := by
  have h : s.bar4Access r false =
      (s.updHost fun h => { h with requests := h.requests ++ [.access { r with path := s.bar4Path r }] }).bar4Settle := by
    unfold State.bar4Access
    rw [if_neg (by omega), ready, normal, awake]
    rfl
  have one : (s.updHost fun h => { h with requests := h.requests ++ [.access { r with path := s.bar4Path r }] }) = s.arrived r := by
    have queue : s.host.requests ++ [HostRequest.access (s.routed r)] = [.access (s.routed r)] := by rw [idle]; rfl
    show (s.updHost fun h => { h with requests := s.host.requests ++ [.access (s.routed r)] }) = s.arrived r
    rw [queue]
    rfl
  rw [h, one]
  rfl

section
variable {s : State} {r : Bar4Request} (started : 4 ≤ s.power.step) (ready : s.power.ready = true)
  (normal : s.mgmt.testMode = false) (awake : s.awake = true) (idle : s.host.requests = [])
include started ready normal awake idle

/-- It waits for no ring. -/
theorem bar4Access_judged {t : State} (judged : s.bar4Judge (s.routed r) = some t) (none_ : t.host.requests = []) :
    s.bar4Access r false = t := by
  rw [bar4Access_arrives r started ready normal awake idle,
    bar4Drain_judged (s := s.arrived r) (r := s.routed r) rfl 1 0 0 (by rw [arrived_left idle]; exact judged), bar4Drain_none none_]

/-- It waits for rings. -/
theorem bar4Access_waits (judged : s.bar4Judge (s.routed r) = none) : s.bar4Access r false = s.arrived r := by
  rw [bar4Access_arrives r started ready normal awake idle,
    bar4Drain_waits (s := s.arrived r) (r := s.routed r) rfl 1 0 (by rw [arrived_left idle]; exact judged)]

end

/-! ### The judgement of a request -/

section
variable {s : State} {r : Bar4Request} (due : r.data.isSome = true ∨ s.now < r.deadline)
include due

theorem bar4Judge_unmapped (hit : (r.places.any fun a => s.place .bar4 a == .unmapped) = true) :
    s.bar4Judge r = some (s.bar4Fails r 0x02 r.aux) := by
  unfold State.bar4Judge
  rw [if_neg ?_, if_pos hit]
  rcases due with h | h
  · rw [Option.isNone_eq_false_iff.mpr h]
    nofun
  · rw [decide_eq_false (by omega), Bool.and_false]
    nofun

/-- Mapped throughout: setup space acts, memory waits for rings. -/
theorem bar4Judge_mapped (miss : (r.places.any fun a => s.place .bar4 a == .unmapped) = false) :
    (s.place .bar4 r.addr = .setup → s.bar4Judge r = some (s.bar4Setup r)) ∧
      ∀ n, s.place .bar4 r.addr = .pocket n ∨ s.place .bar4 r.addr = .cap ∨ s.place .bar4 r.addr = .scratch n → s.bar4Judge r = none := by
  unfold State.bar4Judge
  rw [if_neg ?_, if_neg (by rw [miss]; nofun)]
  · refine ⟨fun h => by rw [h], fun n h => ?_⟩
    rcases h with h | h | h <;> rw [h]
  · rcases due with h | h
    · rw [Option.isNone_eq_false_iff.mpr h]
      nofun
    · rw [decide_eq_false (by omega), Bool.and_false]
      nofun

end

theorem bar4Fails_read {s : State} {r : Bar4Request} (read : r.data = none) (cls aux : Nat) :
    (s.bar4Fails r cls aux).out.answers = .bar4 r.addr (List.replicate r.len 0xFF) :: s.out.answers := by
  have refused : s.bar4Refuse r = s.answer (.bar4 r.addr (onesFor r.len)) := if_neg (by rw [read]; nofun)
  unfold State.bar4Fails State.hostNote
  rw [State.note_only, refused]
  rfl

theorem bar4Fails_keeps (s : State) (r : Bar4Request) (cls aux : Nat) :
    (s.bar4Fails r cls aux).mem = s.mem ∧ (s.bar4Fails r cls aux).host = s.host := by
  unfold State.bar4Fails State.hostNote State.bar4Refuse
  rw [State.note_only]
  split <;> exact ⟨rfl, rfl⟩

/-! ### One full unit in Pocket -/

/-- A 64-byte write to Pocket stores its bytes and leaves the rings and the host side. -/
theorem writeRange_pocket {s : State} {ag : Agent} {a n : Nat} {bs : List Byte} (place : s.place ag a = .pocket n) (full : bs.length = 64)
    (aligned : a % 64 = 0) :
    (s.writeRange ag a bs).1.mem = memWrite s.mem a bs ∧ (s.writeRange ag a bs).1.host = s.host ∧
      (s.writeRange ag a bs).1.rings = s.rings := by
  have cut : pieces (bs.length / 64 + 2) a bs.length = [(a, 64)] := by
    rw [full]
    simp [pieces, aligned]
  have pocket : s.writeUnit ag a bs = (s.writePocket ag n a bs, stOk) := by
    unfold State.writeUnit
    rw [place]
  have wrote : (s.writeRange ag a bs).1 = s.writePocket ag n a bs := by
    unfold State.writeRange
    rw [cut]
    simp only [writePieces]
    rw [List.take_of_length_le (by omega), pocket]
    rfl
  have whole : s.writePocket ag n a bs =
      { (s.onColumn (s.columnOf n) fun c x => c.write x (wordOf a) (a % 64) bs.length) with
        mem := memWrite (s.onColumn (s.columnOf n) fun c x => c.write x (wordOf a) (a % 64) bs.length).mem a bs } := by
    unfold State.writePocket
    dsimp only
    rw [if_pos (by rw [full]; rfl)]
  have kept := (onColumn_settle s (s.columnOf n) fun c x => c.write x (wordOf a) (a % 64) bs.length)
  rw [wrote, whole]
  refine ⟨by rw [kept.eq], by rw [kept.eq], ?_⟩
  show (s.onColumn _ _).rings = s.rings
  unfold State.onColumn
  dsimp only
  rw [State.fileAll_only]
  rfl

theorem dmaShares_idle {s : State} (idle : s.host.transfers = []) (key left : Nat) (es : List Nat) : s.dmaShares key left es = (s, 0) := by
  induction es with
  | nil => rfl
  | cons e r ih =>
    have share : s.hostShare key (0x200 + e) left = (s, 0) := by
      unfold State.hostShare State.hubPending
      rw [idle]
      simp [State.hubServes]
    unfold State.dmaShares
    rw [share]
    dsimp only
    rw [Nat.sub_zero, ih]
    rfl

/-- A host opening serves the one write that waits for its ring alone: 64 bytes to Pocket. -/
theorem hostOpening_writes {s : State} {cls inst n units : Nat} {slot : RingSlot} {r : Bar4Request} {bytes : List Byte}
    (at_ : s.openingAt (ringKey cls inst) .host = some slot) (waits : s.host.requests = [.access r])
    (path : r.path = [(ringKey cls inst, units)]) (pos : 0 < units) (room : units ≤ slot.units) (transfers : s.host.transfers = [])
    (partials : s.host.partials = []) (clashes : (s.ring (ringKey cls inst)).clashes = []) (fences : s.host.fences = [])
    (place : s.place .bar4 r.addr = .pocket n) (data : r.data = some bytes) (full : bytes.length = 64) (len : r.len = 64)
    (aligned : r.addr % 64 = 0) :
    (s.hostOpening cls inst).host.requests = [] ∧ (s.hostOpening cls inst).mem = memWrite s.mem r.addr bytes := by
  let key := ringKey cls inst
  let t := s.updHost fun h => { h with requests := [] }
  let w := (t.writeRange .bar4 r.addr bytes).1
  obtain ⟨mem, host, rings⟩ := writeRange_pocket (s := t) (ag := .bar4) place full aligned
  have miss : (r.places.any fun a => t.place .bar4 a == .unmapped) = false := by
    have one : r.places = [r.addr] := by simp [Bar4Request.places, len, pieces, aligned]
    have there : t.place .bar4 r.addr = .pocket n := place
    rw [one, List.any_cons, there]
    rfl
  have judged : t.bar4Judge r = none := (bar4Judge_mapped (s := t) (.inl (by rw [data]; rfl)) miss).2 n (.inl place)
  have served : t.bar4Serve r key slot.units = (w, none, units) := by
    unfold State.bar4Serve
    rw [path]
    dsimp only
    rw [if_neg (by simp [key]), if_neg (by omega)]
    have fetched : t.bar4Fetch { r with path := [] } = (t, { r with path := [] }) := if_neg (by rw [data]; nofun)
    have done_ : t.bar4Done { r with path := [] } = w := by
      unfold State.bar4Done
      dsimp only
      rw [data]
    rw [fetched, if_pos rfl, done_]
  have drained : s.bar4Drain 2 key slot.units = (w, units) := by
    rw [bar4Drain_served waits 1 key slot.units (by omega) judged served, bar4Drain_none (by rw [host]; rfl)]
    rfl
  have share : s.hostShare key 0x210 slot.units = (s, 0) := by
    unfold State.hostShare State.hubPending
    rw [transfers]
    simp [State.hubServes]
  have settled : s.settleTransfers.settleRing key = s := by
    unfold State.settleTransfers
    rw [transfers]
    exact settleRing_openingAt at_ (by decide)
  have dma (left : Nat) : w.dmaShares key left (List.range 8) = (w, 0) := dmaShares_idle (by rw [host]; exact transfers) _ _ _
  have none_ : (w.ring key).clashes = [] := by
    unfold State.ring
    rw [rings]
    exact clashes
  have opened : s.hostOpening cls inst =
      (((if cls ≠ 4 then w else if inst % 2 = 1 then w.fenceReports (inst / 4) else w.fenceSends (inst / 2)).endOpening key .host
        (units + 0 + 0 != 0)).endPartials).fencesDone 0 := by
    unfold State.hostOpening
    dsimp only
    rw [settled, at_]
    dsimp only
    rw [share]
    dsimp only
    rw [Nat.sub_zero, waits, fences]
    simp only [List.length_cons, List.length_nil, Nat.zero_add]
    rw [drained]
    dsimp only
    rw [dma]
    dsimp only
    rw [none_]
    simp only [State.clashShares]
    rfl
  have reported : ∀ x : State, (x = if cls ≠ 4 then w else if inst % 2 = 1 then w.fenceReports (inst / 4) else w.fenceSends (inst / 2)) →
      x.mem = w.mem ∧ x.host.requests = w.host.requests ∧ x.host.partials = w.host.partials := by
    rintro x rfl
    split
    · exact ⟨rfl, rfl, rfl⟩
    · split <;> exact ⟨rfl, rfl, rfl⟩
  rw [opened]
  generalize hx : (if cls ≠ 4 then w else if inst % 2 = 1 then w.fenceReports (inst / 4) else w.fenceSends (inst / 2)) = x
  obtain ⟨xmem, xrequests, xpartials⟩ := reported x hx.symm
  have kept := endOpening_settle x key .host (units + 0 + 0 != 0)
  have ended : (x.endOpening key .host (units + 0 + 0 != 0)).endPartials = x.endOpening key .host (units + 0 + 0 != 0) := by
    refine if_pos ?_
    rw [kept.eq]
    show x.host.partials.isEmpty = true
    rw [xpartials, host]
    exact List.isEmpty_iff.mpr partials
  rw [ended]
  show (x.endOpening key .host _).host.requests = [] ∧ (x.endOpening key .host _).mem = _
  rw [kept.eq]
  exact ⟨(xrequests.trans (congrArg HostIf.requests host)).trans rfl, xmem.trans mem⟩

/-- A read of setup space brings no request. -/
theorem readSetup_asks (s : State) (p : Path) (o width : Nat) : AsksNone s (s.readSetup p o width).1 := by
  unfold State.readSetup
  split
  · exact note_asks _ _ _ _ _ _
  · split
    · split
      · split
        · exact ⟨id⟩
        · unfold State.readReg State.setLatches
          dsimp only
          cases p <;> exact ⟨id⟩
      · exact note_asks _ _ _ _ _ _
    · exact note_asks _ _ _ _ _ _

theorem bar4Expire_asks (s : State) (r : Bar4Request) : AsksNone s (s.bar4Expire r) := by
  unfold State.bar4Expire State.bar4Refuse
  exact (note_asks _ _ _ _ _ _).after (.ite (.refl s) ⟨id⟩)

/-- The one read that waits is answered with all ones at its limit. -/
theorem bar4Timeout_answers {s : State} {r : Bar4Request} (waits : s.host.requests = [.access r]) (read : r.data = none) :
    s.bar4Timeout = (({ s with host := { s.host with requests := [] } } : State).reach r.deadline).bar4Expire r := by
  have oldest : s.waitingReads = [r] := by
    unfold State.waitingReads
    rw [waits]
    simp [read]
  have left : s.host.requests.erase (.access r) = [] := by rw [waits, List.erase_cons_head]
  have expired : ((({ s with host := { s.host with requests := [] } } : State).reach r.deadline).bar4Expire r).host.requests = [] :=
    (bar4Expire_asks _ r).keeps rfl
  unfold State.bar4Timeout
  rw [oldest]
  dsimp only
  have taken : (s.updHost fun h => { h with requests := h.requests.erase (.access r) }) =
      { s with host := { s.host with requests := [] } } := by
    unfold State.updHost
    dsimp only
    rw [left]
  rw [taken]
  unfold State.bar4Settle
  rw [bar4Drain_none expired]

/-- The link trains at a width, and is up at any but none. -/
theorem linkTraining_trains {s : State} (started : 4 ≤ s.power.step) (on : s.host.perst = false) (w rate : Nat) :
    (s.linkTraining w rate).host.linkWidth = w ∧ (s.linkTraining w rate).host.linkUp = (w != 0) := by
  have ht : s.linkTraining w rate = _ := if_pos ⟨started, by rw [on]; rfl⟩
  rw [ht]
  dsimp only
  split
  · rw [State.event_only]
    exact ⟨rfl, rfl⟩
  · exact ⟨rfl, rfl⟩

end Sys2Proof.Machine

namespace Sys2Proof.Proofs
open Sys2Proof Sys2Proof.Machine

/-- Settles O49: an access is judged on its arrival, served in an opening or answered at its limit. -/
theorem hostPortAnswers : Obligations.HostPortAnswers := by
  intro s started
  refine ⟨fun off len bytes env dark => ?_, fun off len n bytes env ready normal awake idle => ?_,
    fun cls inst n units slot r bytes at_ waits path pos room transfers partials clashes fences place data full len aligned => ?_,
    fun r waits read => ?_, fun path value hopen => ?_, fun off v => ⟨fun never w => ?_, fun once => ?_⟩, fun l16 l8 l4 rate on => ?_⟩
  · have refused (r : Bar4Request) : s.bar4Access r false = s.bar4Refuse r := by
      unfold State.bar4Access
      rw [if_neg (by omega), dark]
      rfl
    exact ⟨⟨_, congrArg Host.Outcome.next (refused _), rfl, rfl⟩, congrArg Host.Outcome.next (refused _)⟩
  · intro place mapped
    let read : Bar4Request := ⟨s.bar4Addr off, len, s.now + s.bar4Limit, none, envNone, [], none⟩
    let write : Bar4Request := ⟨s.bar4Addr off, bytes.length, s.now, some bytes, env, [], none⟩
    have soon : s.now < (s.routed read).deadline := by
      show s.now < s.now + s.bar4Limit
      unfold State.bar4Limit
      omega
    have hits (r : Bar4Request) (h : r.addr = s.bar4Addr off) :
        (r.places.any fun a => s.place .bar4 a == .unmapped) = !mapped r.len := by
      unfold Bar4Request.places
      simp only [mapped, h, List.any_map, List.not_all_eq_any_not]
      congr 1
      funext p
      simp [bne]
    refine ⟨fun miss => ?_, fun miss => ?_, fun all allW memory => ⟨?_, ?_⟩, fun all allW setup => ⟨?_, ?_⟩⟩
    · obtain ⟨mem, host⟩ := bar4Fails_keeps s (s.routed read) 0x02 (s.routed read).aux
      have h := bar4Access_judged (r := read) started ready normal awake idle
        (bar4Judge_unmapped (.inr soon) ((hits (s.routed read) rfl).trans (by rw [show (s.routed read).len = len from rfl, miss]; rfl)))
        (by rw [host, idle])
      exact ⟨_, congrArg Host.Outcome.next h, bar4Fails_read rfl _ _, mem, by rw [host, idle]⟩
    · obtain ⟨mem, host⟩ := bar4Fails_keeps s (s.routed write) 0x02 (s.routed write).aux
      have h := bar4Access_judged (r := write) started ready normal awake idle
        (bar4Judge_unmapped (.inl rfl) ((hits (s.routed write) rfl).trans (by rw [show (s.routed write).len = bytes.length from rfl, miss]; rfl)))
        (by rw [host, idle])
      exact ⟨_, congrArg Host.Outcome.next h, mem, by rw [host, idle]⟩
    · have judged := (bar4Judge_mapped (s := s) (r := s.routed read) (.inr soon)
        ((hits (s.routed read) rfl).trans (by rw [show (s.routed read).len = len from rfl, all]; rfl))).2 n memory
      exact ⟨_, _, congrArg Host.Outcome.next (bar4Access_waits started ready normal awake idle judged), rfl, rfl, rfl, rfl, rfl, rfl⟩
    · have judged := (bar4Judge_mapped (s := s) (r := s.routed write) (.inl rfl)
        ((hits (s.routed write) rfl).trans (by rw [show (s.routed write).len = bytes.length from rfl, allW]; rfl))).2 n memory
      exact ⟨_, _, congrArg Host.Outcome.next (bar4Access_waits started ready normal awake idle judged), rfl, rfl, rfl, rfl⟩
    · have judged := (bar4Judge_mapped (s := s) (r := s.routed write) (.inl rfl)
        ((hits (s.routed write) rfl).trans (by rw [show (s.routed write).len = bytes.length from rfl, allW]; rfl))).1 setup
      exact congrArg Host.Outcome.next (bar4Access_judged (r := write) started ready normal awake idle judged
        ((writeSetup_asks s _ _ _ _).keeps idle))
    · have judged := (bar4Judge_mapped (s := s) (r := s.routed read) (.inr soon)
        ((hits (s.routed read) rfl).trans (by rw [show (s.routed read).len = len from rfl, all]; rfl))).1 setup
      refine congrArg Host.Outcome.next (bar4Access_judged (r := read) started ready normal awake idle judged ?_)
      exact (readSetup_asks s .pcie _ _).keeps idle
  · obtain ⟨left, mem⟩ := hostOpening_writes at_ waits path pos room transfers partials clashes fences place data full len aligned
    refine ⟨_, rfl, left, ?_, fun a out => ?_⟩
    · rw [mem, ← full]
      exact memRead_memWrite _ _ _
    · rw [mem]
      exact memGet_memWrite_out _ _ _ _ (by omega)
  · refine ⟨_, congrArg Host.Outcome.next (bar4Timeout_answers waits read), ?_⟩
    have refused (x : State) : x.bar4Refuse r = x.answer (.bar4 r.addr (onesFor r.len)) := if_neg (by rw [read]; nofun)
    unfold State.bar4Expire
    rw [refused, State.note_only]
    exact ⟨rfl, rfl, rfl⟩
  · exact ⟨_, congrArg Host.Outcome.next (setRegister_register (r := .bar4Window) hopen rfl rfl rfl value), rfl⟩
  · have ht : s.configRequest off.toNat w = s.answer (.config off.toNat none) := by
      unfold State.configRequest
      rw [if_neg (by omega), never]
      rfl
    exact ⟨_, congrArg Host.Outcome.next ht, rfl⟩
  · have ht (w : Option Word) : s.configRequest off.toNat w = (match w with
        | some v => s.updHost fun h => { h with configWrites := (off.toNat, v) :: h.configWrites }
        | none => s.answer (.config off.toNat (some (configWord off.toNat s.host.configWrites)))) := by
      unfold State.configRequest
      rw [if_neg (by omega), once]
      rfl
    exact ⟨⟨_, congrArg Host.Outcome.next (ht none), rfl⟩, ⟨_, congrArg Host.Outcome.next (ht (some v)), rfl⟩⟩
  · obtain ⟨width, up⟩ := linkTraining_trains started on (trainedWidth l16 l8 l4) rate.val
    refine ⟨_, rfl, width, ?_⟩
    show (s.linkTraining (trainedWidth l16 l8 l4) rate.val).host.linkUp = true ↔ _
    rw [up]
    cases l16 <;> cases l8 <;> cases l4 <;> decide

end Sys2Proof.Proofs
end

section
/-!
PROOF. What each reset kind clears and keeps (R333 to R335, R375): the host's resets, the cold reset, and a Panel's.
-/

namespace Sys2Proof.Machine

/-! ### Host reset and function-level reset -/

/-- Rosters marked as not loaded stand in the list of bad ones, and nothing else changes. -/
theorem markRosters_bad (ns : List Nat) (s : State) :
    foldOver ns (fun t n => t.markRoster n true) s = { s with badRosters := (foldOver ns (fun t n => t.markRoster n true) s).badRosters } ∧
      ∀ n, n ∈ ns ∨ n ∈ s.badRosters → n ∈ (foldOver ns (fun t n => t.markRoster n true) s).badRosters := by
  induction ns generalizing s with
  | nil => exact ⟨rfl, fun n h => h.resolve_left nofun⟩
  | cons m r ih =>
    obtain ⟨only, bad⟩ := ih (s.markRoster m true)
    have kept (n : Nat) (h : n = m ∨ n ∈ s.badRosters) : n ∈ (s.markRoster m true).badRosters := by
      simp only [State.markRoster, if_true, List.mem_cons, List.mem_filter, bne_iff_ne]
      by_cases e : n = m
      · exact .inl e
      · exact .inr ⟨h.resolve_left e, e⟩
    refine ⟨only.trans rfl, fun n h => bad n ?_⟩
    simp only [List.mem_cons] at h
    rcases h with (e | h) | h
    · exact .inr (kept n (.inl e))
    · exact .inl h
    · exact .inr (kept n (.inr h))

theorem stopQuietly_stopped (s : State) : s.stopQuietly.set.running = false := by
  unfold State.stopQuietly
  split
  · rfl
  · next h => exact Bool.eq_false_of_not_eq_true h

/-- What a host reset and a function-level reset leave of the module. -/
structure HostSideReset (s t : State) (kind : Byte) : Prop where
  stopped : t.set.running = false
  queues : ∀ q, t.sq q = Sq.reset ∧ t.cq q = Cq.reset
  window : t.host.window = 0
  msix : t.host.msixTable = []
  kind : t.power.lastReset = kind
  rosters : ∀ tr ∈ s.host.transfers, tr.loads = true → tr.desc.get 176 9 ∈ t.badRosters
  idle : s.set.running = false → t.mem = s.mem ∧ t.cores = s.cores ∧ t.now = s.now

theorem hostResetBase_resets (s : State) (kind : Byte) : HostSideReset s (s.hostResetBase kind) kind ∧
    (s.set.running = false → (s.hostResetBase kind).host.linkUp = s.host.linkUp) := by
  obtain ⟨only, bad⟩ := markRosters_bad s.host.halfLoaded s.stopQuietly
  have stopped := stopQuietly_stopped s
  have quiet (h : s.set.running = false) : s.stopQuietly = s := if_neg (by rw [h]; nofun)
  unfold State.hostResetBase
  generalize foldOver s.host.halfLoaded (fun t n => t.markRoster n true) s.stopQuietly = x at only bad
  refine ⟨⟨?_, fun q => ⟨rfl, rfl⟩, rfl, rfl, rfl, fun tr there loads => bad _ (.inl ?_), fun h => ?_⟩, fun h => ?_⟩
  · exact (congrArg (fun y : State => y.set.running) only).trans stopped
  · exact List.mem_map.mpr ⟨tr, List.mem_filter.mpr ⟨there, loads⟩, rfl⟩
  · rw [quiet h] at only
    have kept : x.mem = s.mem ∧ x.cores = s.cores ∧ x.now = s.now := by
      rw [only]
      exact ⟨rfl, rfl, rfl⟩
    exact kept
  · rw [quiet h] at only
    have kept : x.host.linkUp = s.host.linkUp := by rw [only]
    exact kept

theorem hostReset_resets (s : State) (kind : HostResetKind) :
    HostSideReset s (s.hostReset kind) 2 ∧ (s.hostReset kind).host.linkUp = false := by
  obtain ⟨base, -⟩ := hostResetBase_resets s 2
  unfold State.hostReset
  generalize s.hostResetBase 2 = x at base
  exact ⟨⟨base.stopped, base.queues, base.window, base.msix, base.kind, base.rosters, base.idle⟩, rfl⟩

/-! ### Cold reset -/

/-- Nothing of the module is left but what flash, fuses and standby power keep. -/
structure ColdState (s t : State) : Prop where
  mem : ∀ a, memGet t.mem a = 0
  cores : ∀ n, t.core n = Core.reset
  rings : t.rings = State.reset.rings
  stopped : t.set.running = false
  stage : t.power.stage = false
  ready : t.power.ready = false
  tags : t.mgmt.tagBytes = s.mgmt.tagBytes
  tagLock : t.mgmt.tagLocked = s.mgmt.tagLocked
  debugLock : t.mgmt.debugLocked = s.mgmt.debugLocked

theorem coldBase_cold (s : State) : ColdState s s.coldBase := ⟨fun _ => rfl, fun _ => rfl, rfl, rfl, rfl, rfl, rfl, rfl, rfl⟩

/-- The boot of the Collar keeps tag area and locks. -/
theorem bootCollar_locks (s : State) : s.bootCollar.mgmt.tagBytes = s.mgmt.tagBytes ∧ s.bootCollar.mgmt.tagLocked = s.mgmt.tagLocked ∧
    s.bootCollar.mgmt.debugLocked = s.mgmt.debugLocked := by
  have booted : (s.bootFw 1).1.mgmt.tagBytes = s.mgmt.tagBytes ∧ (s.bootFw 1).1.mgmt.tagLocked = s.mgmt.tagLocked ∧
      (s.bootFw 1).1.mgmt.debugLocked = s.mgmt.debugLocked := by
    unfold State.bootFw
    dsimp only
    split
    · exact ⟨rfl, rfl, rfl⟩
    · rw [State.event_only]
      exact ⟨rfl, rfl, rfl⟩
  unfold State.bootCollar
  split
  · exact booted
  · exact ⟨rfl, rfl, rfl⟩

theorem coldReset_cold (s : State) : ColdState s s.coldReset ∧ s.coldReset.out.answers = s.out.answers := by
  obtain ⟨only, -⟩ := bootCollar_only s.coldBase
  obtain ⟨tags, tagLock, debugLock⟩ := bootCollar_locks s.coldBase
  have cold := coldBase_cold s
  have answers : s.coldBase.out.answers = s.out.answers := rfl
  unfold State.coldReset
  generalize s.coldBase = x at only tags tagLock debugLock cold answers
  refine ⟨⟨fun a => ?_, fun n => ?_, ?_, ?_, ?_, ?_, tags.trans cold.tags, tagLock.trans cold.tagLock, debugLock.trans cold.debugLock⟩, ?_⟩
  · exact (congrArg (fun y : State => memGet y.mem a) only).trans (cold.mem a)
  · exact (congrArg (fun y : State => y.core n) only).trans (cold.cores n)
  · exact (congrArg State.rings only).trans cold.rings
  · exact (congrArg (fun y : State => y.set.running) only).trans cold.stopped
  · exact (congrArg (fun y : State => y.power.stage) only).trans cold.stage
  · exact (congrArg (fun y : State => y.power.ready) only).trans cold.ready
  · exact (congrArg (fun y : State => y.out.answers) only).trans answers

/-! ### Panel reset and Panel power cycle -/

/-- The ports of a list go down, and nothing is stored. -/
theorem portsDown_kept (ns : List Nat) (s : State) : (s.portsDown ns).mem = s.mem ∧ (s.portsDown ns).map = s.map := by
  induction ns generalizing s with
  | nil => exact ⟨rfl, rfl⟩
  | cons n r ih =>
    have k := changedIf_seams (s.updSeam n fun x => { x with state := .down }) ((s.seam n).state != .down)
    obtain ⟨mem, map⟩ := ih ((s.updSeam n fun x => { x with state := .down }).changedIf ((s.seam n).state != .down))
    exact ⟨mem.trans k.mem, map.trans k.map⟩

theorem isolate_kept {s : State} {p : Nat} (h1 : (s.panel p).state ≠ .isolated) (h2 : (s.panel p).state ≠ .lost) (cause : Nat)
    (lost : Bool) : (s.isolate p cause lost).mem = s.mem ∧ (s.isolate p cause lost).map = s.map := by
  rw [isolate_of_present h1 h2]
  have k1 := cutOff_seams s p
  generalize s.cutOff p = x at k1
  obtain ⟨mem, map⟩ := portsDown_kept ((x.panelGone p lost).livePorts p) (x.panelGone p lost)
  have k2 := isolationEnd_seams ((x.panelGone p lost).portsDown ((x.panelGone p lost).livePorts p)) p cause
  exact ⟨k2.mem.trans (mem.trans k1.mem), k2.map.trans (map.trans k1.map)⟩

/-- A core that is idle with zero registers. -/
def Core.atRest (c : Core) : Prop := c.seq.run = .idle ∧ c.seq.regs = []

theorem panelReset_atRest (c : Core) : c.panelReset.atRest := ⟨rfl, rfl⟩

/-- The reset of a core of a Panel. -/
def State.resetCore (s : State) (n : Nat) : State := if (s.entry n).state = .absent then s else s.setCore n (s.core n).panelReset

/-- Cores of a list are reset, where they are not absent, and nothing else is. -/
structure CoresReset (ns : List Nat) (s t : State) : Prop where
  eq : t = { s with cores := t.cores }
  rest : ∀ n, n ∈ ns ∨ (s.core n).atRest → (s.entry n).state ≠ .absent → (t.core n).atRest

theorem resetCore_resets (s : State) (n : Nat) : CoresReset [n] s (s.resetCore n) := by
  unfold State.resetCore
  split
  · next h => exact ⟨rfl, fun m hm there => hm.elim (fun e => absurd h (by rwa [List.mem_singleton.mp e] at there)) id⟩
  · refine ⟨rfl, fun m hm _ => ?_⟩
    rw [State.core_setCore]
    split
    · exact panelReset_atRest _
    · next e => exact hm.resolve_left fun h => e (List.mem_singleton.mp h)

theorem CoresReset.entry {ns : List Nat} {s t : State} (h : CoresReset ns s t) (n : Nat) : t.entry n = s.entry n := by
  rw [h.eq]
  rfl

theorem resetAll_resets (ns : List Nat) (s : State) : CoresReset ns s (foldOver ns State.resetCore s) := by
  induction ns generalizing s with
  | nil => exact ⟨rfl, fun n h _ => h.resolve_left nofun⟩
  | cons n r ih =>
    have first := resetCore_resets s n
    have others := ih (s.resetCore n)
    have fold : foldOver (n :: r) State.resetCore s = foldOver r State.resetCore (s.resetCore n) := rfl
    rw [fold]
    generalize foldOver r State.resetCore (s.resetCore n) = t at others
    generalize s.resetCore n = y at *
    refine ⟨others.eq.trans (by rw [first.eq]), fun m hm there => others.rest m ?_ (by rwa [first.entry])⟩
    rcases hm with hm | hm
    · rcases List.mem_cons.mp hm with e | hr
      · exact .inr (first.rest m (.inl (List.mem_singleton.mpr e)) there)
      · exact .inl hr
    · exact .inr (first.rest m (.inr hm) there)

theorem resetCores_resets (s : State) (p : Nat) : CoresReset (panelCores p) s (s.resetCores p) := resetAll_resets _ s

/-- A Panel has been isolated and its cores reset. -/
structure PanelIsolates (s t : State) (p : Nat) : Prop where
  state : (t.panel p).state = .isolated
  isolations : (t.panel p).isolations = satAdd (s.panel p).isolations 1
  others : ∀ q, q ≠ p → t.panel q = s.panel q
  cores : ∀ n, n / 64 = p → (s.entry n).state ≠ .absent → (t.core n).atRest

theorem PanelIsolates.congr {s t u : State} {p : Nat} (h : PanelIsolates s t p) (panels : ∀ q, (u.panel q).state = (t.panel q).state ∧
    (u.panel q).isolations = (t.panel q).isolations) (others : ∀ q, q ≠ p → u.panel q = t.panel q) (cores : u.cores = t.cores) :
    PanelIsolates s u p where
  state := (panels p).1.trans h.state
  isolations := (panels p).2.trans h.isolations
  others q hq := (others q hq).trans (h.others q hq)
  cores n hn there := by
    rw [State.core_congr cores]
    exact h.cores n hn there

section
variable {s : State} {p : Nat} (present : (s.panel p).state = .present)
include present

theorem isolatedReset_isolates : PanelIsolates s ((s.isolate p 1 false).resetCores p) p ∧ ((s.isolate p 1 false).resetCores p).mem = s.mem := by
  have h1 : (s.panel p).state ≠ .isolated := by rw [present]; nofun
  have h2 : (s.panel p).state ≠ .lost := by rw [present]; nofun
  obtain ⟨panel, -⟩ := isolate_present h1 h2 1 false
  obtain ⟨mem, map⟩ := isolate_kept h1 h2 1 false
  have reset := resetCores_resets (s.isolate p 1 false) p
  generalize (s.isolate p 1 false).resetCores p = t at reset
  generalize s.isolate p 1 false = x at *
  have panels (q : Nat) : t.panel q = x.panel q := by rw [reset.eq]; rfl
  refine ⟨⟨?_, ?_, fun q hq => ?_, fun n hn there => reset.rest n (.inl ?_) ?_⟩, ?_⟩
  · rw [panels, panel, if_pos rfl]
    rfl
  · rw [panels, panel, if_pos rfl]
  · rw [panels, panel, if_neg hq]
  · exact List.mem_map.mpr ⟨n - 64 * p, List.mem_range.mpr (by omega), by omega⟩
  · rwa [State.entry, map]
  · rw [reset.eq]
    exact mem

theorem panelReset_isolates : PanelIsolates s (s.panelReset p) p ∧ (s.panelReset p).power.lastReset = 4 ∧ (s.panelReset p).mem = s.mem := by
  obtain ⟨isolates, mem⟩ := isolatedReset_isolates present
  unfold State.panelReset
  generalize (s.isolate p 1 false).resetCores p = x at *
  exact ⟨isolates.congr (fun _ => ⟨rfl, rfl⟩) (fun _ _ => rfl) rfl, rfl, mem⟩

theorem panelCycle_isolates : PanelIsolates s (s.panelCycle p) p ∧ (s.panelCycle p).power.lastReset = 5 ∧
    (s.panelCycle p).mem = memClear s.mem (64 * p * pocketSlotBytes) (64 * pocketSlotBytes) := by
  obtain ⟨isolates, mem⟩ := isolatedReset_isolates present
  unfold State.panelCycle
  generalize (s.isolate p 1 false).resetCores p = x at *
  refine ⟨isolates.congr (fun q => ?_) (fun q hq => ?_) rfl, rfl, congrArg (fun m => memClear m _ _) mem⟩
  · have updated : ∀ y : State, y.panels = x.panels → ((y.updPanel p fun z => { z with clashCount := 0 }).panel q).state = (x.panel q).state ∧
        ((y.updPanel p fun z => { z with clashCount := 0 }).panel q).isolations = (x.panel q).isolations := by
      intro y same
      have own (k : Nat) : y.panel k = x.panel k := congrArg (fun m => mapGet Panel.reset m k) same
      rw [panel_updPanel]
      split
      · next e => rw [e, own]; exact ⟨rfl, rfl⟩
      · rw [own]; exact ⟨rfl, rfl⟩
    exact updated _ rfl
  · have updated : ∀ y : State, y.panels = x.panels → (y.updPanel p fun z => { z with clashCount := 0 }).panel q = x.panel q := by
      intro y same
      rw [panel_updPanel, if_neg hq]
      exact congrArg (fun m => mapGet Panel.reset m q) same
    exact updated _ rfl

end

/-- The memory of a Panel's Pocket slots is zero, and no other byte changes. -/
theorem memGet_clearPanel (m : List Host.Cell) (p a : Nat) : memGet (memClear m (64 * p * pocketSlotBytes) (64 * pocketSlotBytes)) a =
    if 64 * p * pocketSlotBytes ≤ a ∧ a < 64 * (p + 1) * pocketSlotBytes then 0 else memGet m a := by
  rw [memGet_memClear]
  have last : 64 * p * pocketSlotBytes + 64 * pocketSlotBytes = 64 * (p + 1) * pocketSlotBytes := by ring
  rw [last]
  by_cases h : 64 * p * pocketSlotBytes ≤ a ∧ a < 64 * (p + 1) * pocketSlotBytes
  · rw [if_pos h, if_neg (by omega)]
    rfl
  · rw [if_neg h, if_pos (by omega)]

theorem regGet_nil (r : RegId) : regGet [] r = 0 := by
  unfold regGet
  split <;> rfl

end Sys2Proof.Machine

namespace Sys2Proof.Proofs
open Sys2Proof Sys2Proof.Machine

/-- Settles O50: each reset by what its own lemma says that it leaves. -/
theorem resetKinds : Obligations.ResetKinds := by
  intro s kind p path value
  dsimp only
  have zero {t : State} (h : PanelIsolates s t p.val) (n : Nat) (hn : n / 64 = p.val) (there : (s.entry n).state ≠ .absent) :
      (t.core n).seq.run = .idle ∧ ∀ r, t.sreg n r = 0 := by
    obtain ⟨run, regs⟩ := h.cores n hn there
    refine ⟨run, fun r => ?_⟩
    rw [State.sreg, regs]
    exact regGet_nil r
  have panel {t : State} (h : PanelIsolates s t p.val) : (t.panel p.val).state = .isolated ∧
      (t.panel p.val).isolations = satAdd (s.panel p.val).isolations 1 ∧ (∀ q, q ≠ p.val → t.panel q = s.panel q) ∧
      ∀ n, n / 64 = p.val → (s.entry n).state ≠ .absent → (t.core n).seq.run = .idle ∧ ∀ r, t.sreg n r = 0 :=
    ⟨h.state, h.isolations, h.others, zero h⟩
  refine ⟨?_, ?_, fun up free => ?_, fun up held => ?_, fun powered present => ?_⟩
  · obtain ⟨⟨stopped, queues, window, msix, cause, rosters, idle⟩, down⟩ := hostReset_resets s kind
    exact ⟨_, rfl, ⟨stopped, queues, window, msix, cause, rosters, idle⟩, down⟩
  · obtain ⟨⟨stopped, queues, window, msix, cause, rosters, idle⟩, link⟩ := hostResetBase_resets s 3
    exact ⟨_, rfl, ⟨stopped, queues, window, msix, cause, rosters, idle⟩, link⟩
  · obtain ⟨⟨mem, cores, rings, stopped, stage, ready, tags, tagLock, debugLock⟩, answers⟩ := coldReset_cold s
    refine ⟨_, congrArg Host.Outcome.next (command_done up 3 State.coldReset free), ?_⟩
    generalize s.coldReset = x at *
    exact ⟨mem, cores, rings, stopped, stage, ready, tags, tagLock, debugLock, congrArg (Answer.command 3 true [] :: ·) answers⟩
  · exact ⟨⟨_, congrArg Host.Outcome.next (command_refused up 3 _ held), rfl, rfl⟩,
      ⟨_, congrArg Host.Outcome.next (command_refused up 4 _ held), rfl, rfl⟩,
      ⟨_, congrArg Host.Outcome.next (command_refused up 5 _ held), rfl, rfl⟩⟩
  · obtain ⟨isolates, cause, mem⟩ := panelReset_isolates present
    have reset : s.resetPanel p.val = s.panelReset p.val := if_pos powered
    refine ⟨fun up free => ?_, fun hopen names asks only => ?_, fun running => ?_⟩
    · refine ⟨_, congrArg Host.Outcome.next ((command_done up 4 _ free).trans (congrArg (State.answer · _) reset)), ?_⟩
      generalize s.panelReset p.val = x at *
      exact ⟨panel (isolates.congr (fun _ => ⟨rfl, rfl⟩) (fun _ _ => rfl) rfl), cause, mem⟩
    · have written : s.writeReg .pwReset 0x01000024 value envNone = s.panelReset p.val := by
        have act : s.writeReg .pwReset 0x01000024 value envNone = (s.askReset value).askCycle value := rfl
        rw [act, State.askCycle, if_neg (by rw [only]; nofun), State.askReset, if_pos asks, names, reset]
      refine ⟨_, congrArg Host.Outcome.next ((setRegister_register (r := .pwReset) hopen rfl rfl rfl value).trans
        (congrArg (State.countChanges · s _) written)), ?_⟩
      generalize s.panelReset p.val = x at *
      rw [countChanges_only]
      exact ⟨panel (isolates.congr (fun _ => ⟨rfl, rfl⟩) (fun _ _ => rfl) rfl), cause, mem⟩
    · obtain ⟨cycled, cause5, cleared⟩ := panelCycle_isolates present
      have cycle : s.cyclePanel p.val = s.panelCycle p.val := by
        unfold State.cyclePanel
        rw [powered, running]
        rfl
      have bytes {t : State} (h : t.mem = memClear s.mem (64 * p.val * pocketSlotBytes) (64 * pocketSlotBytes)) (a : Nat) :
          memGet t.mem a = if 64 * p.val * pocketSlotBytes ≤ a ∧ a < 64 * (p.val + 1) * pocketSlotBytes then 0 else memGet s.mem a := by
        rw [h, memGet_clearPanel]
      refine ⟨fun up free => ?_, ?_, fun hopen names asks only => ?_⟩
      · refine ⟨_, congrArg Host.Outcome.next ((command_done up 5 _ free).trans (congrArg (State.answer · _) cycle)), ?_⟩
        generalize s.panelCycle p.val = x at *
        exact ⟨panel (cycled.congr (fun _ => ⟨rfl, rfl⟩) (fun _ _ => rfl) rfl), cause5, fun a _ => bytes cleared a⟩
      · exact ⟨_, congrArg Host.Outcome.next cycle, panel cycled, cause5, fun a _ => bytes cleared a⟩
      · have written : s.writeReg .pwReset 0x01000024 value envNone = s.panelCycle p.val := by
          have act : s.writeReg .pwReset 0x01000024 value envNone = (s.askReset value).askCycle value := rfl
          rw [act, State.askReset, if_neg (by rw [only]; nofun), State.askCycle, if_pos asks, names, cycle]
        refine ⟨_, congrArg Host.Outcome.next ((setRegister_register (r := .pwReset) hopen rfl rfl rfl value).trans
          (congrArg (State.countChanges · s _) written)), ?_⟩
        generalize s.panelCycle p.val = x at *
        rw [countChanges_only]
        exact ⟨panel (cycled.congr (fun _ => ⟨rfl, rfl⟩) (fun _ _ => rfl) rfl), cause5, fun a _ => bytes cleared a⟩

end Sys2Proof.Proofs
end

section
/-!
PROOF. Power that comes and goes (R320, R332, R333, R336, R340, R341): the supplies, start-up step by step to READY, the wake from Fold.
-/

namespace Sys2Proof.Machine

/-! ### What the steps of start-up leave alone -/

/-- `t` has the power state, the time, the Yoke's level and the firmware of `s`. -/
structure BootKeeps (s t : State) : Prop where
  power : t.power = s.power
  time : t.time = s.time
  level : t.yoke.level = s.yoke.level
  firmware : t.mgmt.firmware = s.mgmt.firmware

namespace BootKeeps

theorem refl (s : State) : BootKeeps s s := ⟨rfl, rfl, rfl, rfl⟩

theorem trans {s t u : State} (h : BootKeeps s t) (g : BootKeeps t u) : BootKeeps s u :=
  ⟨g.power.trans h.power, g.time.trans h.time, g.level.trans h.level, g.firmware.trans h.firmware⟩

/-- The last step first, for steps whose start is known from it alone. -/
theorem after {s t u : State} (g : BootKeeps t u) (h : BootKeeps s t) : BootKeeps s u := h.trans g

theorem ite {s a b : State} {c : Prop} [Decidable c] (ha : BootKeeps s a) (hb : BootKeeps s b) : BootKeeps s (if c then a else b) := by
  split
  · exact ha
  · exact hb

theorem fold {α : Type} {f : State → α → State} (h : ∀ t a, BootKeeps t (f t a)) (l : List α) (s : State) : BootKeeps s (foldOver l f s) :=
  foldOver_rel refl (fun _ _ _ => trans) h l s

end BootKeeps

theorem HostOnly.boot {s t : State} (h : HostOnly s t) : BootKeeps s t := by
  rw [h.eq]
  exact ⟨rfl, rfl, rfl, rfl⟩

theorem note_boot (s : State) (a b c d e : Nat) : BootKeeps s (s.note a b c d e) := by
  rw [State.note_only]
  exact ⟨rfl, rfl, rfl, rfl⟩

theorem event_boot (s : State) (n : EventName) (a b : Nat) : BootKeeps s (s.event n a b) := by
  rw [State.event_only]
  exact ⟨rfl, rfl, rfl, rfl⟩

theorem changedIf_boot (s : State) (b : Bool) : BootKeeps s (s.changedIf b) := by
  unfold State.changedIf
  exact .ite ⟨rfl, rfl, rfl, rfl⟩ ⟨rfl, rfl, rfl, rfl⟩

theorem changed_boot (s : State) : BootKeeps s s.changed := ⟨rfl, rfl, rfl, rfl⟩

theorem changedBy_boot (s : State) (k : Nat) : BootKeeps s (s.changedBy k) := ⟨rfl, rfl, rfl, rfl⟩

/-! ### Retired ports -/

theorem applyColumn_boot (s : State) (k : Nat) : BootKeeps s (s.applyColumn k) := ⟨rfl, rfl, rfl, rfl⟩

theorem settleColumns_boot (s : State) : BootKeeps s s.settleColumns :=
  foldOver_rel (R := BootKeeps) .refl (fun _ _ _ => .trans) (fun t k => .ite (applyColumn_boot t k) (.refl t)) _ s

theorem bar4Refuse_boot (s : State) (r : Bar4Request) : BootKeeps s (s.bar4Refuse r) := by
  unfold State.bar4Refuse
  exact .ite (.refl s) ⟨rfl, rfl, rfl, rfl⟩

theorem dropBar4_boot (s : State) (p : Nat) : BootKeeps s (s.dropBar4 p) := by
  unfold State.dropBar4
  refine .after (.fold (fun t x => ?_) _ _) ⟨rfl, rfl, rfl, rfl⟩
  cases x with
  | access r => exact bar4Refuse_boot t r
  | doorbell _ _ _ _ => exact .refl t

theorem dropWalks_boot (s : State) (p : Nat) : BootKeeps s (s.dropWalks p) := by
  refine .fold (fun t n => ?_) _ _
  dsimp only
  exact .ite ⟨rfl, rfl, rfl, rfl⟩ (.refl t)

theorem fencesDone_boot (fuel : Nat) (s : State) : BootKeeps s (s.fencesDone fuel) := by
  induction fuel generalizing s with
  | zero => exact .refl s
  | succ k ih =>
    unfold State.fencesDone
    split
    · next hk _ =>
      cases hk
      split
      · dsimp only
        refine BootKeeps.trans ?_ (ih _)
        split
        · exact .after (State.complete_hostOnly (.refl _) _ _ _ _).boot ⟨rfl, rfl, rfl, rfl⟩
        · exact ⟨rfl, rfl, rfl, rfl⟩
      · exact .refl s
    · exact .refl s

theorem dropFences_boot (s : State) (p : Nat) : BootKeeps s (s.dropFences p) := by
  unfold State.dropFences
  exact .after (fencesDone_boot _ _) ⟨rfl, rfl, rfl, rfl⟩

theorem cutOff_boot (s : State) (p : Nat) : BootKeeps s (s.cutOff p) := by
  unfold State.cutOff
  exact .after (dropWalks_boot _ _) ((dropBar4_boot s p).trans ⟨rfl, rfl, rfl, rfl⟩)

theorem portsDown_boot (s : State) (ns : List Nat) : BootKeeps s (s.portsDown ns) := by
  unfold State.portsDown
  refine .fold (fun t n => ?_) _ _
  exact .after (changedIf_boot _ _) ⟨rfl, rfl, rfl, rfl⟩

theorem panelGone_boot (s : State) (p : Nat) (lost : Bool) : BootKeeps s (s.panelGone p lost) := ⟨rfl, rfl, rfl, rfl⟩

theorem isolationEnd_boot (s : State) (p cause : Nat) : BootKeeps s (s.isolationEnd p cause) := by
  unfold State.isolationEnd
  exact .after (settleColumns_boot _) (.after (note_boot _ _ _ _ _ _) (.after (dropFences_boot _ _) ⟨rfl, rfl, rfl, rfl⟩))

theorem isolate_boot (s : State) (p cause : Nat) (lost : Bool) : BootKeeps s (s.isolate p cause lost) := by
  by_cases gone : (s.panel p).state = .isolated ∨ (s.panel p).state = .lost
  · have h : s.isolate p cause lost = if lost then s.updPanel p fun x => { x with state := .lost } else s := if_pos gone
    rw [h]
    exact .ite ⟨rfl, rfl, rfl, rfl⟩ (.refl s)
  · obtain ⟨h1, h2⟩ := not_or.mp gone
    rw [isolate_of_present h1 h2]
    exact .after (isolationEnd_boot _ _ _) (.after (portsDown_boot _ _) ((cutOff_boot s p).trans (panelGone_boot _ _ _)))

theorem handOver_boot (s : State) (port module cause : Nat) : BootKeeps s (s.handOver port module cause) := by
  unfold State.handOver
  refine .after (.fold (fun _ _ => ?_) _ _) ⟨rfl, rfl, rfl, rfl⟩
  exact ⟨rfl, rfl, rfl, rfl⟩

theorem retirePort_boot (s : State) (port module cause : Nat) : BootKeeps s (s.retirePort port module cause) := by
  have noted : BootKeeps s ((s.handOver port module cause).note 0x40 grpYoke port 0 (module * 256 + cause)).changed :=
    .after (changed_boot _)
      ((handOver_boot s port module cause).trans (note_boot _ _ _ _ _ _))
  unfold State.retirePort
  refine .ite (.refl s) ?_
  exact .ite (.after (isolate_boot _ _ _ _) noted) noted

/-! ### The parts of the steps -/

theorem startPanel_boot (s : State) (r : StartupReport) (p : Nat) : BootKeeps s (s.startPanel r p) := ⟨rfl, rfl, rfl, rfl⟩

theorem levelSet_kept (x s : State) (l : Nat) (own : BitVec 2) (rs : List Reg) :
    let y := ({ x with yoke := { x.yoke with level := l, yokeLevel := own } } : State).countChanges s rs
    y.power = x.power ∧ y.time = x.time ∧ y.yoke.level = l ∧ y.mgmt.firmware = x.mgmt.firmware := ⟨rfl, rfl, rfl, rfl⟩

theorem startPanels_boot (s : State) (r : StartupReport) : (s.startPanels r).power = s.power ∧ (s.startPanels r).time = s.time ∧
    (s.startPanels r).yoke.level = reportLevel r ∧ (s.startPanels r).mgmt.firmware = s.mgmt.firmware := by
  have panels := BootKeeps.fold (fun t p => startPanel_boot t r p) (List.range 8) s
  unfold State.startPanels
  dsimp only
  generalize foldOver (List.range 8) (fun t p => t.startPanel r p) s = x at panels
  have level := levelSet_kept x s (reportLevel r) r.yokeLevel [.featureLevel]
  generalize ({ x with yoke := { x.yoke with level := reportLevel r, yokeLevel := r.yokeLevel } } : State).countChanges s [.featureLevel] = y at *
  have ports := BootKeeps.fold (fun t (p : PortId × Fin 16) => retirePort_boot t p.1.val p.2.val 3) r.failedPorts y
  obtain ⟨power, time, set, firmware⟩ := level
  exact ⟨ports.power.trans (power.trans panels.power), ports.time.trans (time.trans panels.time), ports.level.trans set,
    ports.firmware.trans (firmware.trans panels.firmware)⟩

theorem startCuff_boot (s : State) (r : StartupReport) (k : Nat) : BootKeeps s (s.startCuff r k) := by
  unfold State.startCuff
  dsimp only
  exact .after (.fold (fun _ _ => .ite (note_boot _ _ _ _ _ _) (.refl _)) _ _) ⟨rfl, rfl, rfl, rfl⟩

theorem startCores_boot (s : State) (r : StartupReport) : BootKeeps s (s.startCores r) := by
  unfold State.startCores
  dsimp only
  refine .after (changedBy_boot _ _) (.after (.fold (fun t n => ?_) _ _) (.after (.fold (fun t k => ?_) _ _) ⟨rfl, rfl, rfl, rfl⟩))
  · unfold State.mapBank
    exact .ite (.refl t) ⟨rfl, rfl, rfl, rfl⟩
  · unfold State.tileRecords
    exact .fold (fun _ _ => note_boot _ _ _ _ _ _) _ _

theorem raiseCounter_power (s : State) (c : Nat) : (s.raiseCounter c).power = s.power ∧ (s.raiseCounter c).time = s.time ∧
    (s.raiseCounter c).yoke = s.yoke := by
  unfold State.raiseCounter
  dsimp only
  split
  · split <;> exact ⟨rfl, rfl, rfl⟩
  · exact ⟨rfl, rfl, rfl⟩

theorem keepDigest_boot (s : State) (record digest : List Byte) (unstable : Bool) : BootKeeps s (s.keepDigest record digest unstable) := by
  unfold State.keepDigest
  dsimp only
  exact .ite ⟨rfl, rfl, rfl, rfl⟩ (.after (event_boot _ _ _ _) ⟨rfl, rfl, rfl, rfl⟩)

/-! ### Booting -/

/-- The image that a component boots boots again. -/
theorem boot_boot (f : Firmware) : f.boot.boot.running = f.boot.running := by
  by_cases first : (f.image f.activeB).isSome = true
  · have h : f.boot = { f with running := some f.activeB, pending := false } := if_pos first
    rw [h]
    exact congrArg Firmware.running (if_pos first)
  · by_cases second : (f.image (!f.activeB)).isSome = true
    · have h : f.boot = { f with running := some (!f.activeB), activeB := !f.activeB, pending := false } :=
        (if_neg first).trans (if_pos second)
      rw [h]
      exact congrArg Firmware.running (if_pos second)
    · have h : f.boot = { f with running := none } := (if_neg first).trans (if_neg second)
      rw [h]
      exact congrArg Firmware.running ((if_neg first).trans (if_neg second))

/-- The components that start-up boots have an image that may run. -/
def State.bootable (s : State) : Prop := ∀ c, 2 ≤ c → c ≤ 5 → (s.fw c).boot.running ≠ none

theorem BootKeeps.bootable {s t : State} (h : BootKeeps s t) (ok : s.bootable) : t.bootable := by
  intro c lo hi
  rw [State.fw, h.firmware]
  exact ok c lo hi

/-- A component with an image that may run boots, and the others can. -/
theorem bootFw_boots {s : State} (ok : s.bootable) {c : Nat} (lo : 2 ≤ c) (hi : c ≤ 5) : (s.bootFw c).2 = true ∧ (s.bootFw c).1.bootable ∧
    (s.bootFw c).1.power = s.power ∧ (s.bootFw c).1.time = s.time ∧ (s.bootFw c).1.yoke = s.yoke := by
  have runs : (s.fw c).boot.running.isSome = true := Option.isSome_iff_ne_none.mpr (ok c lo hi)
  have ht : s.bootFw c = (s.setFw c (s.fw c).boot, true) := if_pos runs
  rw [ht]
  refine ⟨rfl, fun k klo khi => ?_, rfl, rfl, rfl⟩
  by_cases e : k = c
  · rw [e, State.fw_setFw_same, boot_boot]
    exact ok c lo hi
  · rw [State.fw_setFw_other _ _ e]
    exact ok k klo khi

/-! ### Start-up step by step -/

/-- Start-up has ended its step `k`, from the state `s` in which the power stage was enabled. -/
structure StartedTo (s : State) (r : StartupReport) (k : Nat) (t : State) : Prop where
  stage : t.power.stage = true
  failed : t.power.failed = s.power.failed
  step : t.power.step = k
  bootable : k < 10 → t.bootable
  clock : 4 ≤ k → t.time.locked = true ∧ t.now = 0
  level : 5 ≤ k → t.yoke.level = reportLevel r
  ready : 10 ≤ k → t.power.ready = true ∧ t.power.everReady = true

/-- A step of start-up as its record of progress sees it. -/
structure StartStepped (r : StartupReport) (k : Nat) (x : State) (y : State) : Prop where
  stage : y.power.stage = x.power.stage
  failed : y.power.failed = x.power.failed
  bootable : k < 10 → y.bootable
  clock : y.time.locked = true ∧ y.now = 0 ∨ k ≠ 4 ∧ y.time = x.time
  level : y.yoke.level = reportLevel r ∨ k ≠ 5 ∧ y.yoke.level = x.yoke.level
  ready : y.power.ready = true ∧ y.power.everReady = true ∨ k ≠ 10

theorem BootKeeps.stepped {x y : State} (h : BootKeeps x y) (ok : x.bootable) (r : StartupReport) {k : Nat} (h4 : k ≠ 4) (h5 : k ≠ 5)
    (h10 : k ≠ 10) : StartStepped r k x y :=
  ⟨by rw [h.power], by rw [h.power], fun _ => h.bootable ok, .inr ⟨h4, h.time⟩, .inr ⟨h5, h.level⟩, .inr h10⟩

/-- Step 4: the timebase starts, and the Yoke's two components boot. -/
theorem startYoke_steps {x : State} (ok : x.bootable) (r : StartupReport) :
    (x.startStep r 4).2 = true ∧ StartStepped r 4 x (x.startStep r 4).1 := by
  have ok0 : x.startYoke.bootable := ok
  obtain ⟨first, ok1, power1, time1, yoke1⟩ := bootFw_boots ok0 (c := 2) (by decide) (by decide)
  have clock : x.startYoke.time.locked = true ∧ x.startYoke.now = 0 := ⟨rfl, rfl⟩
  have yoke0 : x.startYoke.yoke = x.yoke := rfl
  have power0 : x.startYoke.power = x.power := rfl
  have ht : x.startStep r 4 = (((x.startYoke.bootFw 2).1.bootFw 3).1, (x.startYoke.bootFw 2).2 && ((x.startYoke.bootFw 2).1.bootFw 3).2) := rfl
  rw [ht]
  generalize x.startYoke = a at *
  generalize a.bootFw 2 = b at *
  obtain ⟨second, ok2, power2, time2, yoke2⟩ := bootFw_boots ok1 (c := 3) (by decide) (by decide)
  refine ⟨by rw [first, second]; rfl, by rw [power2, power1, power0], by rw [power2, power1, power0], fun _ => ok2, .inl ?_,
    .inr ⟨by decide, by rw [yoke2, yoke1, yoke0]⟩, .inr (by decide)⟩
  unfold State.now
  rw [time2, time1]
  exact clock

/-- Step 5: the Panels, the Seams and the level; the Panels' component boots. -/
theorem startPanels_steps {x : State} (ok : x.bootable) (r : StartupReport) :
    (x.startStep r 5).2 = true ∧ StartStepped r 5 x (x.startStep r 5).1 := by
  obtain ⟨power, time, level, firmware⟩ := startPanels_boot x r
  have ok0 : (x.startPanels r).bootable := fun c lo hi => by
    rw [State.fw, firmware]
    exact ok c lo hi
  have ht : x.startStep r 5 = (x.startPanels r).bootFw 5 := rfl
  rw [ht]
  generalize x.startPanels r = a at *
  obtain ⟨runs, ok1, power1, time1, yoke1⟩ := bootFw_boots ok0 (c := 5) (by decide) (by decide)
  exact ⟨runs, by rw [power1, power], by rw [power1, power], fun _ => ok1, .inr ⟨by decide, time1.trans time⟩,
    .inl ((congrArg YokeRegs.level yoke1).trans level), .inr (by decide)⟩

/-- Step 6: the Cuffs; their component boots. -/
theorem startCuffs_steps {x : State} (ok : x.bootable) (r : StartupReport) :
    (x.startStep r 6).2 = true ∧ StartStepped r 6 x (x.startStep r 6).1 := by
  have cuffs := BootKeeps.fold (fun t i => startCuff_boot t r i) (List.range 12) x
  have ht : x.startStep r 6 = (foldOver (List.range 12) (fun t i => t.startCuff r i) x).bootFw 4 := rfl
  rw [ht]
  generalize foldOver (List.range 12) (fun t i => t.startCuff r i) x = a at *
  obtain ⟨runs, ok1, power1, time1, yoke1⟩ := bootFw_boots (cuffs.bootable ok) (c := 4) (by decide) (by decide)
  exact ⟨runs, by rw [power1, cuffs.power], by rw [power1, cuffs.power], fun _ => ok1, .inr ⟨by decide, time1.trans cuffs.time⟩,
    .inr ⟨by decide, (congrArg YokeRegs.level yoke1).trans cuffs.level⟩, .inr (by decide)⟩

theorem fillTier_boot (s : State) : BootKeeps s s.fillTier := ⟨rfl, rfl, rfl, rfl⟩
theorem countChanges_boot (t s : State) (rs : List Reg) : BootKeeps t (t.countChanges s rs) := ⟨rfl, rfl, rfl, rfl⟩

theorem raiseCounters_kept (cs : List Nat) (s : State) : (foldOver cs State.raiseCounter s).power = s.power ∧
    (foldOver cs State.raiseCounter s).time = s.time ∧ (foldOver cs State.raiseCounter s).yoke = s.yoke := by
  induction cs generalizing s with
  | nil => exact ⟨rfl, rfl, rfl⟩
  | cons c r ih =>
    obtain ⟨p, t, y⟩ := raiseCounter_power s c
    obtain ⟨p', t', y'⟩ := ih (s.raiseCounter c)
    exact ⟨p'.trans p, t'.trans t, y'.trans y⟩

/-- Step 10: READY, the counters and the fingerprint. -/
theorem startReady_steps (x : State) (r : StartupReport) : (x.startStep r 10).2 = true ∧ StartStepped r 10 x (x.startStep r 10).1 := by
  let y : State := { x with power := { x.power with ready := true, everReady := true, durationMs := BitVec.ofNat 16 (min 1005 r.durationMs) } }
  have ht : x.startStep r 10 = ((foldOver [1, 2, 3, 4, 5] State.raiseCounter y).computeFingerprint false, true) := rfl
  obtain ⟨power, time, yoke⟩ := raiseCounters_kept [1, 2, 3, 4, 5] y
  have own : y.power.stage = x.power.stage ∧ y.power.failed = x.power.failed ∧ y.time = x.time ∧ y.yoke = x.yoke ∧
      y.power.ready = true ∧ y.power.everReady = true := ⟨rfl, rfl, rfl, rfl, rfl, rfl⟩
  rw [ht]
  generalize y = y at *
  obtain ⟨stage, failed, ytime, yyoke, ready, ever⟩ := own
  generalize foldOver [1, 2, 3, 4, 5] State.raiseCounter y = a at *
  have print := keepDigest_boot a a.canonicalRecord (sha3 a.canonicalRecord) false
  have whole : a.computeFingerprint false = a.keepDigest a.canonicalRecord (sha3 a.canonicalRecord) false := rfl
  dsimp only
  rw [whole]
  generalize a.keepDigest a.canonicalRecord (sha3 a.canonicalRecord) false = b at *
  exact ⟨rfl, by rw [print.power, power, stage], by rw [print.power, power, failed], fun h => absurd h (by decide),
    .inr ⟨by decide, by rw [print.time, time, ytime]⟩, .inr ⟨by decide, by rw [print.level, yoke, yyoke]⟩,
    .inl (by rw [print.power, power]; exact ⟨ready, ever⟩)⟩

theorem startStep_steps {x : State} (ok : x.bootable) (r : StartupReport) {k : Nat} (hi : k ≤ 10) :
    (x.startStep r k).2 = true ∧ StartStepped r k x (x.startStep r k).1 := by
  match k, hi with
  | 4, _ => exact startYoke_steps ok r
  | 5, _ => exact startPanels_steps ok r
  | 6, _ => exact startCuffs_steps ok r
  | 7, _ => exact ⟨rfl, (startCores_boot x r).stepped ok r (by decide) (by decide) (by decide)⟩
  | 8, _ => exact ⟨rfl, ((fillTier_boot x).trans (countChanges_boot _ x _)).stepped ok r (by decide) (by decide) (by decide)⟩
  | 10, _ => exact startReady_steps x r
  | 0, _ | 1, _ | 2, _ | 3, _ | 9, _ => exact ⟨rfl, (BootKeeps.refl x).stepped ok r (by decide) (by decide) (by decide)⟩

/-- One step more. -/
theorem StartedTo.next {s t : State} {r : StartupReport} {k : Nat} (h : StartedTo s r k t) (hi : k + 1 ≤ 10) :
    (t.startStep r (k + 1)).2 = true ∧
      StartedTo s r (k + 1) { (t.startStep r (k + 1)).1 with power := { (t.startStep r (k + 1)).1.power with step := k + 1 } } := by
  obtain ⟨runs, stepped⟩ := startStep_steps (h.bootable (by omega)) r hi
  generalize t.startStep r (k + 1) = a at *
  refine ⟨runs, ⟨stepped.stage.trans h.stage, stepped.failed.trans h.failed, rfl, stepped.bootable, fun lo => ?_, fun lo => ?_, fun lo => ?_⟩⟩
  · rcases stepped.clock with now | ⟨other, same⟩
    · exact now
    · have before := h.clock (by omega)
      unfold State.now at before ⊢
      dsimp only
      rw [same]
      exact before
  · rcases stepped.level with set | ⟨other, same⟩
    · exact set
    · exact same.trans (h.level (by omega))
  · exact stepped.ready.resolve_right (by omega)

/-- The steps from the one after `k` on end start-up. -/
theorem StartedTo.ends {s : State} {r : StartupReport} (whole : r.failedStep = none) (m : Nat) {k : Nat} {t : State} (h : StartedTo s r k t)
    (hm : k + m = 10) : StartedTo s r 10 (t.startSteps m r (k + 1)) := by
  induction m generalizing k t with
  | zero =>
    obtain rfl : k = 10 := hm
    exact h
  | succ m ih =>
    obtain ⟨runs, next⟩ := h.next (by omega)
    unfold State.startSteps
    rw [if_neg (by rw [whole]; nofun)]
    dsimp only
    rw [if_pos runs]
    exact ih next (by omega)

/-- A start-up whose conditions hold and whose steps all succeed ends with its last step. -/
theorem enableStage_starts {s : State} {r : StartupReport} (free : s.enableBarred = false) (conditions : s.startWaits = [])
    (tripped : r.failedComparators = []) (whole : r.failedStep = none) (ok : s.bootable) : StartedTo s r 10 (s.enableStage r) := by
  have ht : s.enableStage r = State.startSteps 8 { s with power := { s.power with stage := true, step := 2 },
                                                          thermal := s.thermal.freshCycles } r 3 := by
    unfold State.enableStage
    rw [if_neg (by rw [free]; nofun), conditions, tripped]
    rfl
  rw [ht]
  exact StartedTo.ends whole 8 (k := 2) ⟨rfl, rfl, rfl, fun _ => ok, by omega, by omega, by omega⟩ rfl

/-- Conditions that do not hold are reported, and power stays as it is. -/
theorem enableStage_waits {s : State} {r : StartupReport} (free : s.enableBarred = false) (h : s.startWaits ≠ [] ∨ r.failedComparators ≠ []) :
    (s.enableStage r).power = s.power ∧ (s.enableStage r).mem = s.mem := by
  have some_ : s.startWaits ++ (if r.failedComparators.isEmpty then [] else [4]) ≠ [] := by
    intro empty
    obtain ⟨waits, comparators⟩ := List.append_eq_nil_iff.mp empty
    rcases h with h | h
    · exact h waits
    · rw [if_neg (by simpa using h)] at comparators
      exact nomatch comparators
  unfold State.enableStage
  rw [if_neg (by rw [free]; nofun)]
  split
  · next empty => exact absurd empty some_
  · refine foldOver_rel (R := fun a b : State => b.power = a.power ∧ b.mem = a.mem) (fun _ => ⟨rfl, rfl⟩)
      (fun _ _ _ h g => ⟨g.1.trans h.1, g.2.trans h.2⟩) (fun t w => ?_) _ s
    rw [State.event_only]
    exact ⟨rfl, rfl⟩

/-! ### Off -/

/-- The removal of power leaves the module off with nothing in memory. -/
structure PoweredOff (s t : State) : Prop where
  stage : t.power.stage = false
  ready : t.power.ready = false
  mem : ∀ a, memGet t.mem a = 0
  cores : ∀ n, t.core n = Core.reset
  tags : t.mgmt.tagBytes = s.mgmt.tagBytes

theorem coldReset_off (s : State) : PoweredOff s s.coldReset :=
  have h := (coldReset_cold s).1
  ⟨h.stage, h.ready, h.mem, h.cores, h.tags⟩

/-- The inputs stay as they are through a cold reset. -/
theorem coldReset_inputs (s : State) : s.coldReset.power.jIn = s.power.jIn ∧ s.coldReset.power.standby = s.power.standby := by
  obtain ⟨only, -⟩ := bootCollar_only s.coldBase
  have base : s.coldBase.power.jIn = s.power.jIn ∧ s.coldBase.power.standby = s.power.standby := ⟨rfl, rfl⟩
  unfold State.coldReset
  generalize s.coldBase = x at *
  rw [only]
  exact base

/-! ### The wake -/

/-- A wake from Fold. -/
structure Wakes (s t : State) : Prop where
  fold : t.power.fold = .running
  duration : t.power.lastWakeUs.toNat ≤ 1500
  now : t.now = s.now
  supply : t.power.supplyMv = s.supplyAt s.coreSetting
  rings : ∀ e ∈ t.rings, e.2.use = .opened
  regs : ∀ n r, t.sreg n r = 0
  scratch : ∀ n off, n < 512 → off < 6291456 → memGet t.mem (scratchAddr n off) = 0
  memory : ∀ a, a < scratchBase → memGet t.mem a = memGet s.mem a

theorem wakeUs_le (v : DWord) : (wakeUs v).toNat ≤ 1500 := by
  have small : v.toNat % 1501 < 1501 := Nat.mod_lt _ (by decide)
  unfold wakeUs
  rw [BitVec.toNat_ofNat, Nat.mod_eq_of_lt (by omega)]
  omega

theorem atOpen_opened (r : Ring) (now : Nat) : (r.atOpen now).use = .opened := by
  unfold Ring.atOpen
  split
  · assumption
  · rfl

/-- What holds of every mapped value, and of the one that stands for keys not listed, holds of what a key finds. -/
theorem mapGet_map_of_all {α : Type} {P : α → Prop} {d : α} {f : α → α} (hd : P d) (hf : ∀ a, P (f a)) (m : List (Nat × α)) (k : Nat) :
    P (mapGet d (m.map fun e => (e.1, f e.2)) k) := by
  induction m with
  | nil => exact hd
  | cons e r ih =>
    simp only [List.map_cons, mapGet]
    split
    · exact hf e.2
    · exact ih

theorem wake_regs (c : Core) (expert : Bool) : (c.wake expert).seq.regs = [] := by
  unfold Core.wake applyControls
  rw [markBank_core]
  rfl

theorem wakeCores_regs (s : State) (n : Nat) : (s.wakeCores.core n).seq.regs = [] :=
  mapGet_map_of_all (P := fun c : Core => c.seq.regs = []) (f := fun c => c.wake (s.expertOn .co)) rfl (fun c => wake_regs c _) s.cores n

theorem wakeSteps_wakes {s : State} (quiet : s.power.deferred = []) : Wakes s s.wakeSteps := by
  have kept := applyColumns_settle s.wakeCores
  have regs := wakeCores_regs s
  have woken : s.wakeCores = { s with cores := s.wakeCores.cores } := rfl
  unfold State.wakeSteps
  rw [quiet]
  dsimp only [foldOver, List.foldl_nil]
  generalize s.wakeCores = y at *
  generalize y.applyColumns = x at *
  have mem : x.mem = s.mem := by rw [kept.eq, woken]
  have power : x.power = s.power := by rw [kept.eq, woken]
  have thermal : x.thermal = s.thermal := by rw [kept.eq, woken]
  have time : x.time = s.time := by rw [kept.eq, woken]
  have cores : x.cores = y.cores := by rw [kept.eq]
  refine ⟨rfl, wakeUs_le _, congrArg TimeState.now time, ?_, fun e he => ?_, fun n r => ?_, fun n off hn hoff => ?_, fun a ha => ?_⟩
  · have same : x.supplyAt x.coreSetting = s.supplyAt s.coreSetting := by
      unfold State.supplyAt State.coreSetting
      rw [power, thermal]
    exact same
  · obtain ⟨r, -, rfl⟩ := List.mem_map.mp he
    exact atOpen_opened _ _
  · have none_ : (x.core n).seq.regs = [] := by
      rw [State.core_congr cores]
      exact regs n
    have read : regGet (x.core n).seq.regs r = 0 := by rw [none_]; exact regGet_nil r
    exact read
  · have cleared : memGet (memClear x.mem scratchBase (512 * scratchStride)) (scratchAddr n off) = unlistedByte := by
      rw [memGet_memClear, if_neg]
      simp only [scratchAddr, scratchStride]
      omega
    exact cleared
  · have kept : memGet (memClear x.mem scratchBase (512 * scratchStride)) a = memGet s.mem a := by
      rw [memGet_memClear, if_pos (.inl ha), mem]
    exact kept

end Sys2Proof.Machine

namespace Sys2Proof.Proofs
open Sys2Proof Sys2Proof.Machine

/-- Settles O51: a removal of power is a cold reset; start-up goes by the record of its steps. -/
theorem powerComesAndGoes : Obligations.PowerComesAndGoes := by
  intro s report path value
  dsimp only
  have off {x t : State} (h : PoweredOff x t) (tags : x.mgmt.tagBytes = s.mgmt.tagBytes) : t.power.stage = false ∧ t.power.ready = false ∧
      (∀ a, memGet t.mem a = 0) ∧ (∀ n, t.core n = Core.reset) ∧ t.mgmt.tagBytes = s.mgmt.tagBytes :=
    ⟨h.stage, h.ready, h.mem, h.cores, h.tags.trans tags⟩
  have wakes {x t : State} (h : Wakes x t) (mem : x.mem = s.mem) (power : x.power = s.power) (thermal : x.thermal = s.thermal)
      (time : x.time = s.time) : t.power.fold = .running ∧ t.power.lastWakeUs.toNat ≤ 1500 ∧
      t.now = s.now ∧ t.power.supplyMv = s.supplyAt s.coreSetting ∧ (∀ e ∈ t.rings, e.2.use = .opened) ∧
      (∀ n r, t.sreg n r = 0) ∧ (∀ n off, n < 512 → off < 6291456 → memGet t.mem (scratchAddr n off) = 0) ∧
      ∀ a, a < scratchBase → memGet t.mem a = memGet s.mem a := by
    have supply : x.supplyAt x.coreSetting = s.supplyAt s.coreSetting := by
      unfold State.supplyAt State.coreSetting
      rw [power, thermal]
    exact ⟨h.fold, h.duration, h.now.trans (congrArg TimeState.now time), h.supply.trans supply, h.rings, h.regs, h.scratch,
      fun a ha => (h.memory a ha).trans (by rw [mem])⟩
  refine ⟨fun dark => ?_, fun dark => ?_, ?_, fun stage => ?_, ⟨_, rfl, rfl⟩, fun free waits => ?_, fun free conditions tripped whole ok => ?_,
    fun folded quiet => ?_, fun running up => ?_, fun entering up => ?_⟩
  · have ht : s.powerOn .j1 = State.coldReset { s with power := { s.power with jIn := true } } := if_neg (by rw [dark]; nofun)
    exact ⟨_, congrArg Host.Outcome.next ht, off (coldReset_off _) rfl, (coldReset_inputs _).1⟩
  · have ht : s.powerOn .standby = State.coldReset { s with power := { s.power with standby := true } } := if_neg (by rw [dark]; nofun)
    exact ⟨_, congrArg Host.Outcome.next ht, off (coldReset_off _) rfl, (coldReset_inputs _).2⟩
  · obtain ⟨mem, cores, -, -, stage, ready, tags, -, -⟩ := coldBase_cold s
    have step : s.coldBase.power.step = 0 := rfl
    refine ⟨s.loseStandby, rfl, ?_⟩
    unfold State.loseStandby
    generalize s.coldBase = x at *
    exact ⟨⟨stage, ready, mem, cores, tags⟩, rfl, step, rfl⟩
  · have ht : s.inputExcursion = (({ s with power := { s.power with jIn := false } } : State).event .inputFault 0 1).removeEnable false := if_pos stage
    refine ⟨_, congrArg Host.Outcome.next ht, ?_⟩
    rw [State.event_only]
    exact ⟨off (coldReset_off _) rfl, (coldReset_inputs _).1⟩
  · exact ⟨_, rfl, enableStage_waits free waits⟩
  · have h := enableStage_starts free conditions tripped whole ok
    obtain ⟨ready, ever⟩ := h.ready (by decide)
    obtain ⟨locked, now⟩ := h.clock (by decide)
    exact ⟨_, rfl, h.stage, ready, ever, h.step, h.failed, locked, now, h.level (by decide)⟩
  · have wake : s.wake = s.wakeSteps := by
      unfold State.wake
      rw [folded]
    have woken := wakeSteps_wakes quiet
    refine ⟨fun up => ?_, ?_, fun hopen asks => ?_⟩
    · refine ⟨_, congrArg Host.Outcome.next ((command_done up 7 State.wake (by rw [folded]; rfl)).trans
        (congrArg (State.answer · _) wake)), ?_⟩
      generalize s.wakeSteps = x at *
      exact wakes (x := s) ⟨woken.fold, woken.duration, woken.now, woken.supply, woken.rings, woken.regs, woken.scratch, woken.memory⟩
        rfl rfl rfl rfl
    · let y : State := { s with host := { s.host with perst := false } }
      have ht : y.wake = y.wakeSteps := by
        unfold State.wake
        have same : y.power.fold = .folded := folded
        rw [same]
      exact ⟨_, congrArg Host.Outcome.next ht, wakes (wakeSteps_wakes (s := y) quiet) rfl rfl rfl rfl⟩
    · have written : s.writeReg .pwFold 0x01000018 value envNone = s.wakeSteps := by
        have act : s.writeReg .pwFold 0x01000018 value envNone = s.writeFold value := rfl
        rw [act, State.writeFold, if_pos asks, wake]
      refine ⟨_, congrArg Host.Outcome.next ((setRegister_register (r := .pwFold) hopen rfl rfl rfl value).trans
        (congrArg (State.countChanges · s _) written)), ?_⟩
      generalize s.wakeSteps = x at *
      rw [countChanges_only]
      exact wakes (x := s) ⟨woken.fold, woken.duration, woken.now, woken.supply, woken.rings, woken.regs, woken.scratch, woken.memory⟩
        rfl rfl rfl rfl
  · exact ⟨_, congrArg Host.Outcome.next (command_refused up 7 State.wake (by rw [running]; rfl)), rfl, rfl⟩
  · have wake : s.wake = { s with power := { s.power with wakeAsked := true } } := by
      unfold State.wake
      rw [entering]
    exact ⟨_, congrArg Host.Outcome.next ((command_done up 7 State.wake (by rw [entering]; rfl)).trans (congrArg (State.answer · _) wake)),
      rfl, rfl⟩

end Sys2Proof.Proofs
end

section
/-!
PROOF. Completions (R313): the entry of a descriptor and what its completion leaves alone; doorbells, fetches, starts and coalesced
interrupts of the ring pairs (R301 to R306, R315).
-/

namespace Sys2Proof.Machine

/-! ### Completion entries -/

/-- What a completion changes of the host queue engine: the rings of a pair, what waits for a place, and the interrupts. -/
structure HostPosts (s t : State) : Prop where
  eq : t.host = { s.host with sqs := t.host.sqs, cqs := t.host.cqs, cqFullWaits := t.host.cqFullWaits, msixPending := t.host.msixPending }

theorem HostPosts.trans {s t u : State} (h : HostPosts s t) (g : HostPosts t u) : HostPosts s u := ⟨by rw [g.eq, h.eq]⟩

/-- The 16 bytes of entry `e` as the queue `c` writes it: with the phase of the pass. -/
def Cq.entryBytes (c : Cq) (e : HeldEntry) : List Byte := leBytes 16 (e.entry.toNat + if c.phase then 65536 else 0)

/-- Entry `e` has been written at the tail of completion queue `n`. -/
structure Enters (s : State) (n : Nat) (e : HeldEntry) (t : State) : Prop where
  mem : t.out.hostMem = memWrite s.out.hostMem ((s.cq n).base.toNat + 16 * (s.cq n).tail) ((s.cq n).entryBytes e)
  tail : (t.cq n).tail = ((s.cq n).tail + 1) % (s.cq n).size
  sqs : t.host.sqs = s.host.sqs
  posts : HostPosts s t

theorem Enters.signal {s t : State} {n : Nat} {e : HeldEntry} (h : Enters s n e t) (v : Nat) : Enters s n e (t.signal v) := by
  unfold State.signal
  split
  · exact ⟨h.mem, h.tail, h.sqs, h.posts.trans ⟨rfl⟩⟩
  · exact ⟨h.mem, h.tail, h.sqs, h.posts.trans ⟨rfl⟩⟩

/-- The entry's bytes go to host memory, and the queue moves on. -/
theorem written_enters (s : State) (n : Nat) (e : HeldEntry) (c : Cq) (tail : c.tail = ((s.cq n).tail + 1) % (s.cq n).size) :
    Enters s n e ((s.hostWrite ((s.cq n).base.toNat + 16 * (s.cq n).tail) ((s.cq n).entryBytes e) none).setCq n c) where
  mem := congrArg (memWrite _ _) (List.take_length)
  tail := by rw [State.cq_setCq_same, tail]
  sqs := rfl
  posts := ⟨rfl⟩

theorem writeEntry_enters (s : State) (n : Nat) (e : HeldEntry) : Enters s n e (s.writeEntry n e) := by
  have written := written_enters s n e
  unfold Cq.entryBytes at written
  unfold State.writeEntry
  dsimp only
  split
  · split
    · exact (written _ (by rfl)).signal _
    · exact written _ (by rfl)
  · exact written _ (by rfl)

/-- A completion entry has been posted for completion queue `n`: written, or held while the queue has no place. -/
structure PostsEntry (s : State) (n : Nat) (e : HeldEntry) (t : State) : Prop where
  enters : (s.cq n).held = [] → (s.cq n).hasSpace = true → Enters s n e t
  held : ¬((s.cq n).held = [] ∧ (s.cq n).hasSpace = true) → (t.cq n).held = (s.cq n).held ++ [e]
  sqs : t.host.sqs = s.host.sqs
  posts : HostPosts s t

theorem postEntry_posts (s : State) (q : Nat) (d : Desc) (status specific : Nat) :
    PostsEntry s (s.sq q).cq.toNat ⟨entryWord q d status specific, d.irq⟩ (s.postEntry q d status specific) := by
  have entered := writeEntry_enters s (s.sq q).cq.toNat ⟨entryWord q d status specific, d.irq⟩
  unfold State.postEntry
  dsimp only
  split
  · next free =>
    simp only [Bool.and_eq_true, List.isEmpty_iff] at free
    exact ⟨fun _ _ => entered, fun no => absurd free no, entered.sqs, entered.posts⟩
  · next full =>
    simp only [Bool.and_eq_true, List.isEmpty_iff] at full
    refine ⟨fun none_ space => absurd ⟨none_, space⟩ full, fun _ => ?_, rfl, ⟨rfl⟩⟩
    exact congrArg Cq.held (State.cq_setCq_same s _ _)

/-! ### Completed descriptors -/

/-- Ring `q` without the descriptor fetched in place `order`. -/
def Sq.without (r : Sq) (order : Nat) : Sq := ({ r with descs := r.descs.filter fun x => x.order != order } : Sq).settle

theorem without_descs (r : Sq) (order : Nat) : (r.without order).descs = r.descs.filter fun x => x.order != order := by
  unfold Sq.without Sq.settle
  split <;> rfl

theorem without_cq (r : Sq) (order : Nat) : (r.without order).cq = r.cq := by
  unfold Sq.without Sq.settle
  split <;> rfl

theorem find_without (r : Sq) (order : Nat) : ((r.without order).descs.find? fun d => d.order == order) = none := by
  rw [without_descs, List.find?_eq_none]
  intro d hd
  obtain ⟨-, other⟩ := List.mem_filter.mp hd
  simpa using other

theorem complete_host (s : State) (q : Nat) (d : Desc) (status specific : Nat) :
    (s.complete q d status specific).host = ((s.dropDesc q d).postEntry q d status specific).host ∧
      (s.complete q d status specific).out = ((s.dropDesc q d).postEntry q d status specific).out := by
  unfold State.complete
  dsimp only
  split <;> exact ⟨rfl, rfl⟩

theorem complete_sqs (s : State) (q : Nat) (d : Desc) (status specific : Nat) :
    (s.complete q d status specific).host.sqs = mapPut s.host.sqs q ((s.sq q).without d.order) := by
  rw [(complete_host s q d status specific).1, (postEntry_posts (s.dropDesc q d) q d status specific).sqs]
  rfl

theorem State.sq_congr {s t : State} (h : t.host.sqs = s.host.sqs) (k : Nat) : t.sq k = s.sq k := congrArg (fun m => mapGet Sq.reset m k) h
theorem State.cq_congr {s t : State} (h : t.host.cqs = s.host.cqs) (k : Nat) : t.cq k = s.cq k := congrArg (fun m => mapGet Cq.reset m k) h

theorem complete_sq (s : State) (q : Nat) (d : Desc) (status specific k : Nat) :
    (s.complete q d status specific).sq k = if k = q then (s.sq q).without d.order else s.sq k := by
  unfold State.sq
  rw [complete_sqs]
  exact mapGet_mapPut _ _ _ _ _

theorem complete_hostPosts (s : State) (q : Nat) (d : Desc) (status specific : Nat) : HostPosts s (s.complete q d status specific) := by
  have dropped : HostPosts s (s.dropDesc q d) := ⟨rfl⟩
  have posted := dropped.trans (postEntry_posts (s.dropDesc q d) q d status specific).posts
  constructor
  rw [(complete_host s q d status specific).1]
  exact posted.eq

/-- But for a LAUNCH, a completion changes the host side and what the device puts out alone. -/
theorem complete_only {s : State} {q : Nat} {d : Desc} (h : d.opcode ≠ opLaunch) (status specific : Nat) :
    s.complete q d status specific =
      { s with host := (s.complete q d status specific).host, out := (s.complete q d status specific).out } := by
  have posted : (s.complete q d status specific).rings = s.rings := by
    have ht : s.complete q d status specific = (s.dropDesc q d).postEntry q d status specific := if_neg h
    rw [ht]
    unfold State.postEntry State.writeEntry State.signal
    dsimp only
    repeat' (first | rfl | split)
  have host := (State.complete_hostOnly (.refl s) q d status specific).eq
  have set := (complete_posts s q d status specific).set
  rw [set, posted] at host
  exact host

/-- A descriptor that completes leaves its ring, and its entry is written or waits for a place. -/
theorem complete_completes (s : State) (q : Nat) (d : Desc) (status specific : Nat) :
    Completes s (s.complete q d status specific) q d status specific := by
  have posted := postEntry_posts (s.dropDesc q d) q d status specific
  obtain ⟨host, out⟩ := complete_host s q d status specific
  have number : ((s.dropDesc q d).sq q).cq = (s.sq q).cq := by
    have own : (s.dropDesc q d).sq q = (s.sq q).without d.order := State.sq_setSq_same _ _ _
    rw [own, without_cq]
  have cq (k : Nat) : (s.complete q d status specific).cq k = ((s.dropDesc q d).postEntry q d status specific).cq k :=
    State.cq_congr (congrArg HostIf.cqs host) k
  have old (k : Nat) : (s.dropDesc q d).cq k = s.cq k := rfl
  rw [number] at posted
  refine ⟨?_, fun no => ?_, fun ready => ?_, fun ready => ?_⟩
  · rw [State.descOf, complete_sq, if_pos rfl]
    exact find_without _ _
  · rw [cq, posted.held no, old]
  · have entered := posted.enters ready.1 ready.2
    rw [out, entered.mem]
    have length : ((s.cq (s.sq q).cq.toNat).entryBytes ⟨entryWord q d status specific, d.irq⟩).length = 16 := leBytes_length _ _
    have read := memRead_memWrite s.out.hostMem (s.entryAt q) ((s.cq (s.sq q).cq.toNat).entryBytes ⟨entryWord q d status specific, d.irq⟩)
    rw [length] at read
    exact read
  · rw [cq, (posted.enters ready.1 ready.2).tail, old]

/-- What a completion says holds between any states with the same queues and the same host memory. -/
theorem Completes.congr {s t s' t' : State} {q : Nat} {d : Desc} {status specific : Nat} (h : Completes s t q d status specific)
    (sqs : s'.host.sqs = s.host.sqs) (cqs : s'.host.cqs = s.host.cqs) (sqs' : t'.host.sqs = t.host.sqs) (cqs' : t'.host.cqs = t.host.cqs)
    (mem : t'.out.hostMem = t.out.hostMem) : Completes s' t' q d status specific := by
  have sq (k : Nat) : s'.sq k = s.sq k := State.sq_congr sqs k
  have cq (k : Nat) : s'.cq k = s.cq k := State.cq_congr cqs k
  have sq' (k : Nat) : t'.sq k = t.sq k := State.sq_congr sqs' k
  have cq' (k : Nat) : t'.cq k = t.cq k := State.cq_congr cqs' k
  obtain ⟨gone, held, entry, tail⟩ := h
  simp only [State.descOf, State.cqReady, State.entryAt] at gone held entry tail
  refine ⟨?_, ?_, ?_, ?_⟩
  · rw [State.descOf, sq']
    exact gone
  · rw [State.cqReady, sq, cq, cq']
    exact held
  · rw [State.cqReady, State.entryAt, sq, cq, mem]
    exact entry
  · rw [State.cqReady, sq, cq, cq']
    exact tail

/-! ### Doorbells -/

/-- A doorbell write with no request ahead of it, of a module that runs, acts at once. -/
theorem doorbell_acts {s : State} (started : 4 ≤ s.power.step) (running : s.power.fold = .running) (idle : s.host.requests = [])
    (q off width value : Nat) (kept : ∀ t, t = s.doorbellWrite q off width value → t.power = s.power ∧ t.host.requests = []) :
    s.doorbell q off width value = s.doorbellWrite q off width value := by
  have forgot : ((s.updHost fun h => { h with requests := h.requests ++ [.doorbell q off width value] }).updHost fun h =>
      { h with requests := h.requests.erase (.doorbell q off width value) }) = s := by
    unfold State.updHost
    dsimp only
    rw [idle, List.nil_append, List.erase_cons_head]
    rw [← idle]
  have arrived : (s.updHost fun h => { h with requests := h.requests ++ [.doorbell q off width value] }).host.requests =
      [.doorbell q off width value] := by
    show s.host.requests ++ _ = _
    rw [idle]
    rfl
  obtain ⟨power, none_⟩ := kept _ rfl
  unfold State.doorbell
  rw [if_neg (by omega)]
  dsimp only
  rw [arrived]
  unfold State.doorbells
  rw [arrived]
  dsimp only [List.length_singleton, List.find?_cons, HostRequest.ordered]
  rw [forgot, doorbells_none none_]
  unfold State.wake
  rw [power, running]

theorem flushCq_none {s : State} {q : Nat} (h : (s.cq q).held = []) (k : Nat) :
    s.flushCq (k + 1) q = s.setCq q { s.cq q with full := false } := by
  unfold State.flushCq
  dsimp only
  rw [h]

/-! ### Fetches -/

theorem fetch_acts {s : State} {q : Nat} (up : s.engineUp = true) (turn : s.nextVisit = some q)
    (free : s.host.requests.any HostRequest.ordered = false) (read : HostRead) :
    s.fetch q read =
      let s1 : State := { s with host := { s.host with nextRing := (q + 1) % 64 }, out := { s.out with fetchAt := (s.sq q).entryAt } }
      if goodFetch read then s1.fetched q read else s1.fetchFails q := by
  unfold State.fetch
  rw [if_pos]
  · rfl
  · rw [up, turn, free]
    simp

/-! ### Starts -/

/-- A descriptor that starts. -/
def Desc.begun (d : Desc) (no : Nat) : Desc := { d with started := true, startNo := no }

/-- The descriptor of a place among those of which one starts. -/
theorem find_begun {ds : List Desc} {d : Desc} (h : (ds.find? fun x => x.order == d.order) = some d) (no : Nat) :
    ((ds.map fun x => if x.order = d.order then x.begun no else x).find? fun x => x.order == d.order) = some (d.begun no) := by
  have order (x : Desc) : (if x.order = d.order then x.begun no else x).order = x.order := by split <;> rfl
  have same : ((fun x : Desc => x.order == d.order) ∘ fun x => if x.order = d.order then x.begun no else x) = fun x => x.order == d.order := by
    funext x
    simp only [Function.comp_apply, order]
  rw [List.find?_map, same, h]
  simp

theorem start_valid {s : State} {q : Nat} {d : Desc} (valid : d.valid = true) :
    (s.start q d).host.sqs = mapPut s.host.sqs q
        { s.sq q with descs := (s.sq q).descs.map fun x => if x.order = d.order then x.begun s.host.fetchOrder else x } ∧
      (d.opcode = opCopy → (s.start q d).host.busy = putBit s.host.busy d.copyEngine true) := by
  unfold State.start State.startEffect
  rw [if_neg (by rw [valid]; nofun)]
  dsimp only
  split
  · exact ⟨rfl, fun _ => rfl⟩
  · next other =>
    refine ⟨?_, fun h => absurd h other⟩
    split <;> rfl

end Sys2Proof.Machine

namespace Sys2Proof.Proofs
open Sys2Proof Sys2Proof.Machine

/-- Settles O44: doorbells, fetches, starts and timeouts, each by what its operation does when its conditions hold. -/
theorem ringsTakeDescriptors : Obligations.RingsTakeDescriptors := by
  intro q s
  dsimp only
  refine ⟨fun started running idle => ⟨fun value acts small => ?_, fun value width acts bad => ?_, fun value enable small none_ => ?_⟩,
    fun up turn free => ⟨fun read good full => ?_, fun read bad => ?_⟩, fun index d first own can => ⟨fun valid => ?_, fun invalid => ?_⟩,
    fun enable irq pending limit => ?_⟩
  · have ht : s.doorbellWrite q.val 0 4 value.toNat = s.setSq q.val { s.sq q.val with tail := value.toNat } := by
      unfold State.doorbellWrite State.ringDoorbell
      dsimp only
      rw [if_pos rfl, if_neg (by rw [acts]; nofun), if_neg (by omega)]
    refine ⟨_, congrArg Host.Outcome.next ((doorbell_acts started running idle q.val 0 4 value.toNat ?_).trans ht), ?_, fun k hk => ?_⟩
    · rintro t rfl
      rw [ht]
      exact ⟨rfl, idle⟩
    · exact State.sq_setSq_same _ _ _
    · rw [State.sq_setSq, if_neg hk]
  · have ht : s.doorbellWrite q.val 0 width value.toNat = s.badDoorbell q.val 0 := by
      unfold State.doorbellWrite State.ringDoorbell
      dsimp only
      rw [if_pos rfl, if_neg (by rw [acts]; nofun), if_pos bad]
    have noted : s.badDoorbell q.val 0 = { s with host := { s.host with doorbellErrors := satAdd s.host.doorbellErrors 1 },
                                                  log := (s.badDoorbell q.val 0).log } := by
      unfold State.badDoorbell
      rw [State.note_only]
      rfl
    refine ⟨_, congrArg Host.Outcome.next ((doorbell_acts started running idle q.val 0 width value.toNat ?_).trans (ht.trans noted)), rfl, rfl⟩
    rintro t rfl
    rw [ht, noted]
    exact ⟨rfl, idle⟩
  · let t : State := s.setCq q.val { s.cq q.val with head := value.toNat }
    have ht : s.doorbellWrite q.val 4 4 value.toNat = t.setCq q.val { t.cq q.val with full := false } := by
      unfold State.doorbellWrite State.ringDoorbell
      dsimp only
      rw [if_neg (by decide), if_pos rfl, if_neg (by rw [enable]; nofun), if_neg (by omega), congrArg List.length none_]
      exact flushCq_none (s := t) ((congrArg Cq.held (State.cq_setCq_same _ _ _)).trans none_) 0
    refine ⟨_, congrArg Host.Outcome.next ((doorbell_acts started running idle q.val 4 4 value.toNat ?_).trans ht), ?_⟩
    · rintro x rfl
      rw [ht]
      exact ⟨rfl, idle⟩
    · rw [State.cq_setCq_same, State.cq_setCq_same]
  · have ht := (fetch_acts up turn free read).trans (if_pos (by simp [goodFetch, good, full]))
    exact ⟨_, _, congrArg Host.Outcome.next ht, State.sq_setSq_same _ _ _, rfl, rfl, rfl, rfl, rfl, rfl⟩
  · have ht := (fetch_acts up turn free read).trans (if_neg (by rcases bad with h | h <;> simp [goodFetch, h]))
    refine ⟨_, congrArg Host.Outcome.next ht, ?_⟩
    unfold State.fetchFails
    rw [State.note_only]
    exact ⟨State.sq_setSq_same _ _ _, rfl⟩
  · obtain ⟨sqs, busy⟩ := start_valid (s := s) (q := q.val) valid
    have ht : exec (.descriptorStart q index) s = .next (s.start q.val d) := by
      have row : exec (.descriptorStart q index) s = execDescriptorStart q index s := rfl
      rw [row, execDescriptorStart, first]
      exact congrArg Host.Outcome.next (if_pos can)
    refine ⟨_, d.begun s.host.fetchOrder, ht, ?_, rfl, rfl, fun copy => ?_⟩
    · rw [State.descOf, State.sq, sqs, mapGet_mapPut_same]
      exact find_begun own _
    · have small : d.copyEngine < 8 := BitVec.isLt (field d.raw 256 3)
      rw [busy copy, bit_putBit_true _ _ _ small]
      simp
  · have ht : exec (.descriptorStart q index) s = .next (s.complete q.val d stInvalid 0) := by
      have row : exec (.descriptorStart q index) s = execDescriptorStart q index s := rfl
      have acts : s.start q.val d = s.complete q.val d stInvalid 0 := if_pos (by rw [invalid]; rfl)
      rw [row, execDescriptorStart, first]
      exact congrArg Host.Outcome.next ((if_pos can).trans acts)
    exact ⟨_, ht, complete_completes s q.val d _ _⟩
  · have ht : s.coalesceTimeout q.val =
        ((s.reach ((s.cq q.val).irqSince + (s.cq q.val).irqNs)).setCq q.val { s.cq q.val with irqPending := 0 }).signal (s.cq q.val).vector.toNat :=
      if_pos ⟨enable, irq, pending, limit⟩
    refine ⟨_, congrArg Host.Outcome.next ht, ?_⟩
    have signalled (t : State) (v : Nat) : (∀ k, (t.signal v).cq k = t.cq k) ∧ (t.signal v).now = t.now ∧
        (msixMasked t.host v = false → (t.signal v).out.msix = v :: t.out.msix) := by
      unfold State.signal
      split
      · next masked => exact ⟨fun _ => rfl, rfl, fun h => absurd masked (by rw [h]; nofun)⟩
      · exact ⟨fun _ => rfl, rfl, fun _ => rfl⟩
    obtain ⟨cq, now, msix⟩ := signalled ((s.reach ((s.cq q.val).irqSince + (s.cq q.val).irqNs)).setCq q.val { s.cq q.val with irqPending := 0 })
      (s.cq q.val).vector.toNat
    exact ⟨by rw [cq, State.cq_setCq_same], now, fun open_ => msix open_⟩

end Sys2Proof.Proofs
end

section
/-!
PROOF. What a started descriptor of each kind does, with its completion entry (R266, R311, R312, R316, R330, R338, R382, R386).
-/

namespace Sys2Proof.Machine

/-! ### Descriptors that a row finds -/

theorem isUp_onStarted {s : State} (up : s.isUp = true) {q : RingQ} {index : BitVec 16} {op : Nat} {d : Desc} (h : s.started q index op = some d)
    (f : Desc → State) : s.onStarted q index op f = f d := by
  unfold State.onStarted
  rw [if_pos up, h]

theorem isUp_onStartedThat {s : State} (up : s.isUp = true) {q : RingQ} {index : BitVec 16} {op : Nat} {p : Desc → Bool} {d : Desc}
    (h : s.startedThat q index op p = some d) (f : Desc → State) : s.onStartedThat q index op p f = f d := by
  unfold State.onStartedThat
  rw [if_pos up, h]

theorem started_opcode {s : State} {q : RingQ} {index : BitVec 16} {op : Nat} {d : Desc} (h : s.started q index op = some d) :
    d.opcode = op := by
  have found := List.find?_some h
  simp only [Bool.and_eq_true, beq_iff_eq] at found
  exact found.2

theorem startedThat_opcode {s : State} {q : RingQ} {index : BitVec 16} {op : Nat} {p : Desc → Bool} {d : Desc}
    (h : s.startedThat q index op p = some d) : d.opcode = op := by
  have found := List.find?_some h
  simp only [Bool.and_eq_true, beq_iff_eq] at found
  exact found.1.2

/-- A completion of another state with the same queues, of a descriptor of a ring with the same completion queue. -/
theorem complete_from {s x : State} (q : Nat) (d : Desc) (status specific : Nat) (number : (x.sq q).cq = (s.sq q).cq)
    (cqs : x.host.cqs = s.host.cqs) : Completes s (x.complete q d status specific) q d status specific := by
  obtain ⟨gone, held, entry, tail⟩ := complete_completes x q d status specific
  have cq (k : Nat) : x.cq k = s.cq k := State.cq_congr cqs k
  simp only [State.cqReady, State.entryAt, number, cq] at held entry tail
  exact ⟨gone, held, entry, tail⟩

/-- A descriptor's own status is the last thing that host memory takes. -/
theorem complete_hostMem (s : State) (q : Nat) (d : Desc) (status specific : Nat) :
    (s.complete q d status specific).out.hostMem = s.out.hostMem ∨
      ∃ bs, bs.length = 16 ∧ (s.complete q d status specific).out.hostMem = memWrite s.out.hostMem (s.entryAt q) bs := by
  rw [(complete_host s q d status specific).2]
  have number : ((s.dropDesc q d).sq q).cq = (s.sq q).cq := by
    have own : (s.dropDesc q d).sq q = (s.sq q).without d.order := State.sq_setSq_same _ _ _
    rw [own, without_cq]
  unfold State.postEntry
  dsimp only
  split
  · right
    have entered := (writeEntry_enters (s.dropDesc q d) ((s.dropDesc q d).sq q).cq.toNat ⟨entryWord q d status specific, d.irq⟩).mem
    rw [number] at entered ⊢
    exact ⟨_, leBytes_length _ _, entered⟩
  · exact .inl rfl

theorem memRead_congr {m m' : List Host.Cell} {a n : Nat} (h : ∀ x, a ≤ x → x < a + n → memGet m x = memGet m' x) :
    memRead m a n = memRead m' a n := by
  induction n generalizing a with
  | zero => rfl
  | succ n ih => rw [memRead, memRead, h a (le_refl a) (by omega), ih fun x lo hi => h x (by omega) (by omega)]

/-- A range of host memory that the entry does not meet stays as it is. -/
theorem complete_apart {s : State} {q : Nat} {a n : Nat} (apart : s.apartFromEntry q a n) (d : Desc) (status specific : Nat) :
    memRead (s.complete q d status specific).out.hostMem a n = memRead s.out.hostMem a n := by
  rcases complete_hostMem s q d status specific with h | ⟨bs, length, h⟩
  · rw [h]
  · rw [h]
    refine memRead_congr fun x lo hi => memGet_memWrite_out _ _ _ _ ?_
    rcases apart with before | after <;> omega

/-- The fields outside the host interface stay through a completion. -/
theorem complete_state (s : State) (q : Nat) (d : Desc) (status specific : Nat) :
    let t := s.complete q d status specific
    t.mem = s.mem ∧ t.power = s.power ∧ t.thermal = s.thermal ∧ t.cap = s.cap ∧ t.cuffs = s.cuffs ∧ t.mgmt = s.mgmt ∧ t.set = s.set ∧
      t.cores = s.cores ∧ t.time = s.time := by
  dsimp only
  rw [(complete_posts s q d status specific).eq]
  exact ⟨rfl, rfl, rfl, rfl, rfl, rfl, rfl, rfl, rfl⟩

theorem capW_congr {s t : State} (power : t.power = s.power) (thermal : t.thermal = s.thermal) : t.capW = s.capW := by
  unfold State.capW State.hostCapW State.thermalCapW
  rw [power, thermal]

/-! ### DRAIN -/

theorem stopRings_sq (s : State) (m : BitVec 64) (k : Nat) : (s.stopRings m).sq k = if bit m k then (s.sq k).stop else s.sq k := by
  have general (l : List (Nat × Sq)) : mapGet Sq.reset (l.map fun e => (e.1, if bit m e.1 then e.2.stop else e.2)) k =
      if bit m k then (mapGet Sq.reset l k).stop else mapGet Sq.reset l k := by
    induction l with
    | nil =>
      have reset : Sq.reset.stop = Sq.reset := rfl
      simp [mapGet, reset]
    | cons e r ih =>
      simp only [List.map_cons, mapGet]
      split
      · next h => rw [h]
      · exact ih
  exact general s.host.sqs

theorem stop_cq (r : Sq) : r.stop.cq = r.cq := by
  unfold Sq.stop
  split <;> rfl

theorem stop_state {r : Sq} (h : r.state ≠ .disabled) : r.stop.state = .stopped := by
  unfold Sq.stop
  rw [if_neg h]

/-! ### CAP_REMAP -/

/-- Cuffs of a list without repeats are updated once each. -/
theorem updCuffs_cuff (f : Cuff → Cuff) {ks : List Nat} (distinct : ks.Nodup) (s : State) (j : Nat) :
    (foldOver ks (fun t k => t.updCuff k f) s).cuff j = if j ∈ ks then f (s.cuff j) else s.cuff j := by
  induction ks generalizing s with
  | nil => rfl
  | cons k r ih =>
    obtain ⟨out, distinct⟩ := List.nodup_cons.mp distinct
    have rest := ih distinct (s.updCuff k f)
    have own : (s.updCuff k f).cuff j = if j = k then f (s.cuff k) else s.cuff j := State.cuff_setCuff _ _ _ _
    have fold : foldOver (k :: r) (fun t k => t.updCuff k f) s = foldOver r (fun t k => t.updCuff k f) (s.updCuff k f) := rfl
    rw [fold, rest, own]
    by_cases e : j = k
    · subst e
      simp [out]
    · simp [e]

/-- Cuff updates change Cuffs alone. -/
theorem updCuffs_only (f : Cuff → Cuff) (ks : List Nat) (s : State) :
    foldOver ks (fun t k => t.updCuff k f) s = { s with cuffs := (foldOver ks (fun t k => t.updCuff k f) s).cuffs } := by
  induction ks generalizing s with
  | nil => rfl
  | cons k r ih => exact (ih (s.updCuff k f)).trans rfl

/-- The channels of a Cuff with its lost ones mapped out. -/
def Cuff.mapOut (c : Cuff) : Cuff :=
  { c with channels := c.channels.map fun x => if chanLost x then { x with state := .mappedOut } else x }

/-- The rate and the code that a Cuff's control names take effect. -/
def Cuff.applyRate (c : Cuff) : Cuff := { c with rateNow := field c.ctrl 6 2, linkEccNow := bit c.ctrl 2 }

/-- Every lost channel of the tier is mapped out, the tier is built again and filled. -/
structure Remaps (s t : State) : Prop where
  host : t.host = s.host
  populated : t.cap.populatedMib = BitVec.ofNat 21 (t.cap.list.length * 7936)
  channels : ∀ k n, k < 12 → n < (s.cuff k).channels.length → chanLost (s.chan k n) = true → (t.chan k n).state = .mappedOut
  memory : ∀ a, memGet t.mem a = if capBase ≤ a ∧ a < scratchBase then 0 else memGet s.mem a

theorem fillTier_fills (s : State) : s.fillTier.host = s.host ∧ s.fillTier.cuffs = s.cuffs ∧
    s.fillTier.cap.populatedMib = BitVec.ofNat 21 (s.fillTier.cap.list.length * 7936) ∧
    s.fillTier.mem = memClear s.mem capBase (scratchBase - capBase) := ⟨rfl, rfl, rfl, rfl⟩

theorem memGet_clearTier (m : List Host.Cell) (a : Nat) :
    memGet (memClear m capBase (scratchBase - capBase)) a = if capBase ≤ a ∧ a < scratchBase then 0 else memGet m a := by
  have size : capBase + (scratchBase - capBase) = scratchBase := by decide
  rw [memGet_memClear, size]
  by_cases h : capBase ≤ a ∧ a < scratchBase
  · rw [if_pos h, if_neg (by omega)]
    rfl
  · rw [if_neg h, if_pos (by omega)]

theorem mapOut_chan {c : Cuff} {n : Nat} (there : n < c.channels.length) (lost : chanLost ((c.channels[n]?).getD (Channel.reset n)) = true) :
    ((c.mapOut.channels[n]?).getD (Channel.reset n)).state = .mappedOut := by
  rw [List.getElem?_eq_getElem there] at lost
  simp only [Option.getD_some] at lost
  simp only [Cuff.mapOut, List.getElem?_map, List.getElem?_eq_getElem there, Option.map_some, Option.getD_some, lost, if_true]

theorem capRemap_remaps (s : State) : Remaps s s.capRemap := by
  have mapped := updCuffs_cuff Cuff.mapOut (List.nodup_range (n := 12)) s
  have only := updCuffs_only Cuff.mapOut (List.range 12) s
  have whole : s.capRemap = (foldOver (List.range 12) (fun t k => t.updCuff k Cuff.mapOut) s).applyRates.fillTier.changedBy
      (s.pendingMapout + flag ((foldOver (List.range 12) (fun t k => t.updCuff k Cuff.mapOut) s).applyRates.fillTier.cap.populatedMib
        != s.cap.populatedMib)) := rfl
  rw [whole]
  generalize foldOver (List.range 12) (fun t k => t.updCuff k Cuff.mapOut) s = x at *
  have rated := updCuffs_cuff Cuff.applyRate (List.nodup_range (n := 12)) x
  have ratedOnly := updCuffs_only Cuff.applyRate (List.range 12) x
  have rates : x.applyRates.host = (foldOver (List.range 12) (fun t k => t.updCuff k Cuff.applyRate) x).host ∧
      x.applyRates.cuffs = (foldOver (List.range 12) (fun t k => t.updCuff k Cuff.applyRate) x).cuffs ∧
      x.applyRates.mem = (foldOver (List.range 12) (fun t k => t.updCuff k Cuff.applyRate) x).mem := ⟨rfl, rfl, rfl⟩
  generalize foldOver (List.range 12) (fun t k => t.updCuff k Cuff.applyRate) x = y at *
  generalize x.applyRates = z at *
  obtain ⟨host, cuffs, mem⟩ := rates
  obtain ⟨filledHost, filledCuffs, populated, filledMem⟩ := fillTier_fills z
  generalize z.fillTier = w at *
  refine ⟨?_, populated, fun k n hk hn lost => ?_, fun a => ?_⟩
  · exact filledHost.trans (host.trans (by rw [ratedOnly, only]))
  · have cuff : (w.changedBy (s.pendingMapout + flag (w.cap.populatedMib != s.cap.populatedMib))).cuff k = (s.cuff k).mapOut.applyRate := by
      have own : w.cuff k = y.cuff k := congrArg (fun m => mapGet Cuff.reset m k) (filledCuffs.trans cuffs)
      have kept : (w.changedBy (s.pendingMapout + flag (w.cap.populatedMib != s.cap.populatedMib))).cuff k = w.cuff k := rfl
      rw [kept, own, rated, mapped, if_pos (List.mem_range.mpr hk), if_pos (List.mem_range.mpr hk)]
    unfold State.chan at lost ⊢
    rw [cuff]
    exact mapOut_chan hn lost
  · have old : z.mem = s.mem := mem.trans (by rw [ratedOnly, only])
    have same : memGet w.mem a = if capBase ≤ a ∧ a < scratchBase then 0 else memGet s.mem a := by
      rw [filledMem, memGet_clearTier, old]
    exact same

/-! ### FOLD -/

/-- Without a retraining sequence there is none to end. -/
theorem endRetrains_idle {s : State} (idle : s.retraining = false) : s.endRetrains = s := by
  have none_ (k : Nat) : (s.cuff k).seq = none := by
    have general (l : List (Nat × Cuff)) (h : (l.any fun e => e.2.seq.isSome) = false) : (mapGet Cuff.reset l k).seq = none := by
      induction l with
      | nil => rfl
      | cons e r ih =>
        rw [List.any_cons, Bool.or_eq_false_iff] at h
        simp only [mapGet]
        split
        · simpa using h.1
        · exact ih h.2
    exact general s.cuffs idle
  unfold State.endRetrains
  refine foldOver_rel (R := fun a b => (∀ k, (a.cuff k).seq = none) → b = a) (fun _ _ => rfl)
    (fun a b c h g ha => (g (by rw [h ha]; exact ha)).trans (h ha)) (fun t k ht => ?_) _ s none_
  rw [ht k]

theorem folded_folds (s : State) : s.folded.host = s.host ∧ s.folded.mem = s.mem ∧ s.folded.power.fold = .folded ∧
    s.folded.power.folds = wrapAdd s.power.folds 1 ∧ s.folded.power.wakeAsked = s.power.wakeAsked := by
  have kept := applyColumns_settle s
  unfold State.folded
  generalize s.applyColumns = x at *
  rw [kept.eq]
  exact ⟨rfl, rfl, rfl, rfl, rfl⟩

theorem foldSteps_refused {s : State} {q : Nat} {d : Desc} (running : s.set.running = true) (other : s.power.foldBy ≠ some (q, d.order)) :
    s.foldSteps q d = s.complete q d stSetActive 0 := if_pos (by rw [running]; simpa using other)

theorem foldSteps_ends {s : State} {q : Nat} {d : Desc} (stopped : s.set.running = false) (alone : s.onlyStarted q d.order = true)
    (idle : s.retraining = false) (asleep : s.power.wakeAsked = false) : s.foldSteps q d = s.folded.complete q d stOk 0 := by
  have asked : (s.folded.complete q d stOk 0).power.wakeAsked = false := by
    obtain ⟨-, power, -⟩ := complete_state s.folded q d stOk 0
    rw [show (s.folded.complete q d stOk 0).power = s.folded.power from power, (folded_folds s).2.2.2.2, asleep]
  unfold State.foldSteps
  dsimp only
  rw [if_neg (by rw [stopped]; nofun), if_pos alone, endRetrains_idle idle, if_neg (by rw [idle]; nofun), if_neg (by rw [asked]; nofun)]

theorem foldSteps_enters {s : State} {q : Nat} {d : Desc} (stopped : s.set.running = false) (others : s.onlyStarted q d.order = false) :
    s.foldSteps q d = { s with power := { s.power with fold := .entering, foldBy := some (q, d.order) } } := by
  unfold State.foldSteps
  dsimp only
  rw [if_neg (by rw [stopped]; nofun), if_neg (by rw [others]; nofun)]

/-! ### CONFIG_FINGERPRINT -/

theorem sheet_length (value : Nat → Nat → DWord) : (sheet value).length = 25 := by simp [sheet]

theorem permute_length (rounds : Nat) (r : Byte) {s : List DWord} (h : s.length = 25) : (permute rounds r s).length = 25 := by
  induction rounds generalizing r s with
  | zero => exact h
  | succ k ih =>
    unfold permute
    refine ih _ ?_
    rw [modifyNth_eq, List.length_modify, mixRows, sheet_length]

theorem sha3Absorb_length {s : List DWord} (h : s.length = 25) (block : List Byte) : (sha3Absorb s block).length = 25 := by
  refine permute_length _ _ ?_
  rw [List.length_map, List.length_zipIdx, h]

theorem absorbAll_length (blocks : List (List Byte)) {s : List DWord} (h : s.length = 25) : (blocks.foldl sha3Absorb s).length = 25 := by
  induction blocks generalizing s with
  | nil => exact h
  | cons b r ih => exact ih (sha3Absorb_length h b)

/-- A digest has 64 bytes. -/
theorem sha3_length (m : List Byte) : (sha3 m).length = 64 := by
  have whole := absorbAll_length (chunks sha3Rate (sha3Pad m).length (sha3Pad m)) (s := List.replicate 25 0) (List.length_replicate)
  unfold sha3
  dsimp only
  generalize (chunks sha3Rate (sha3Pad m).length (sha3Pad m)).foldl sha3Absorb (List.replicate 25 0) = lanes at whole
  have each : (fun w : DWord => (leBytes 8 w.toNat).length) = fun _ => 8 := funext fun _ => leBytes_length _ _
  rw [List.length_flatMap, each, List.map_const', List.sum_replicate, List.length_take, whole]
  rfl

/-- A computation changes the Collar's record and the events sent alone. -/
theorem computeFingerprint_host (s : State) (unstable : Bool) : (s.computeFingerprint unstable).host = s.host ∧
    (s.computeFingerprint unstable).out.hostMem = s.out.hostMem := by
  have whole : s.computeFingerprint unstable = s.keepDigest s.canonicalRecord (sha3 s.canonicalRecord) unstable := rfl
  rw [whole]
  unfold State.keepDigest
  dsimp only
  split
  · exact ⟨rfl, rfl⟩
  · rw [State.event_only]
    exact ⟨rfl, rfl⟩

/-- Runs written to host memory change what the device puts out alone. -/
theorem hostWrites_only (s : State) (d : Desc) (ws : List (Nat × List Byte)) (wrote : HostWrite) :
    s.hostWrites d ws wrote = { s with out := (s.hostWrites d ws wrote).out } := by
  induction ws generalizing s wrote with
  | nil => rfl
  | cons w r ih => exact (ih (s.hostData d w.1 w.2 wrote) _).trans rfl

/-- With no write refused, a fingerprint is written and completes. -/
theorem fingerprint_done (s : State) (q : Nat) (d : Desc) (unstable : Bool) : ∃ x : State,
    s.fingerprint q d unstable none = x.complete q d stOk s.canonicalRecord.length ∧ x.host = s.host ∧ x.mem = s.mem ∧
      x.mgmt = (s.computeFingerprint unstable).mgmt ∧
      (d.get 128 64 = 0 → x.out.hostMem = memWrite s.out.hostMem (d.get 64 64) (sha3 s.canonicalRecord)) := by
  obtain ⟨digest, -, -, mem, -⟩ := computeFingerprint_keeps s unstable
  obtain ⟨host, hostMem⟩ := computeFingerprint_host s unstable
  unfold State.fingerprint
  generalize s.computeFingerprint unstable = y at *
  dsimp only
  have only := hostWrites_only y d (fingerprintWrites d y.mgmt.digest s.canonicalRecord) none
  refine ⟨y.hostWrites d (fingerprintWrites d y.mgmt.digest s.canonicalRecord) none, ?_, ?_, ?_, ?_, fun none_ => ?_⟩
  · rw [if_pos (by simp)]
  · rw [only]
    exact host
  · rw [only]
    exact mem
  · rw [only]
  · have one : fingerprintWrites d y.mgmt.digest s.canonicalRecord = [(d.get 64 64, y.mgmt.digest)] := by
      unfold fingerprintWrites
      rw [if_neg fun h => h.1 none_]
    have written : (y.hostWrites d [(d.get 64 64, y.mgmt.digest)] none).out.hostMem =
        memWrite y.out.hostMem (d.get 64 64) (y.mgmt.digest.take y.mgmt.digest.length) := rfl
    rw [one, written, List.take_length, digest, hostMem]

end Sys2Proof.Machine

namespace Sys2Proof.Proofs
open Sys2Proof Sys2Proof.Machine

/-- Settles O45: every kind of descriptor ends with one completion, after what its own operation does. -/
theorem descriptorsComplete : Obligations.DescriptorsComplete := by
  intro q index d s up
  dsimp only
  have ends {op : Nat} (code : d.opcode = op) (other : op ≠ opLaunch) (status : Nat) : Completes s (s.complete q.val d status 0) q.val d status 0 ∧
      s.complete q.val d status 0 = { s with host := (s.complete q.val d status 0).host, out := (s.complete q.val d status 0).out } :=
    ⟨complete_completes _ _ _ _ _, complete_only (by rw [code]; exact other) _ _⟩
  refine ⟨fun first => ?_, fun first => ?_, fun none_ => ?_, fun first => ?_, fun w first wait quiet => ?_, fun first running => ?_,
    fun first stopped busy => ?_, fun first stopped free idle => ?_, fun read first good full => ?_, fun first running other => ?_,
    fun first stopped alone idle asleep => ?_, fun first stopped others => ?_, fun unstable first => ?_⟩
  · exact ⟨_, congrArg Host.Outcome.next (isUp_onStarted up first _), ends (started_opcode first) (by decide) stOk⟩
  · exact ⟨_, congrArg Host.Outcome.next (isUp_onStartedThat up first _), ends (startedThat_opcode first) (by decide) stOk⟩
  · have nothing : s.startedThat q index opFence s.maskDone = none := by
      refine List.find?_eq_none.mpr fun e there match_ => ?_
      simp only [Bool.and_eq_true, beq_iff_eq] at match_
      obtain ⟨⟨⟨place, begun⟩, code⟩, quiet⟩ := match_
      rw [none_ e there place begun code] at quiet
      exact nomatch quiet
    refine congrArg Host.Outcome.next ?_
    unfold State.onStartedThat
    rw [if_pos up, nothing]
  · let x : State := { s with power := { s.power with hostCap := field d.raw 64 16 } }
    obtain ⟨-, power, thermal, -⟩ := complete_state x q.val d stOk x.capW
    refine ⟨x.complete q.val d stOk x.capW, congrArg Host.Outcome.next (isUp_onStarted up first _), ?_, ?_⟩
    · exact (congrArg Power.hostCap power).trans rfl
    · rw [capW_congr power thermal]
      exact complete_from q.val d _ _ rfl rfl
  · let x : State := (s.stopRings w.mask).updHost fun h => { h with drains := h.drains.erase w }
    have row : exec (.drain q index) s = .next (x.complete q.val d (if w.aborted then stAborted else stOk) 0) := by
      refine congrArg Host.Outcome.next ((isUp_onStarted up first _).trans ?_)
      rw [wait]
      exact if_pos quiet
    have sq (k : Nat) : x.sq k = if bit w.mask k then (s.sq k).stop else s.sq k := stopRings_sq s w.mask k
    have number : (x.sq q.val).cq = (s.sq q.val).cq := by
      rw [sq]
      split
      · exact stop_cq _
      · rfl
    refine ⟨_, row, complete_from q.val d _ _ number rfl, ?_, fun k hk named enabled => ?_⟩
    · rw [(complete_hostPosts x q.val d _ 0).eq]
      rfl
    · rw [complete_sq, if_neg hk, sq, if_pos named]
      exact stop_state enabled
  · refine ⟨_, congrArg Host.Outcome.next ((isUp_onStarted up first _).trans (if_pos running)), ends (started_opcode first) (by decide) stSetActive⟩
  · refine congrArg Host.Outcome.next ((isUp_onStarted up first _).trans ((if_neg (by rw [stopped]; nofun)).trans (if_pos ?_)))
    rcases busy with h | h <;> simp [h]
  · have row : exec (.capRemap q index) s = .next (s.capRemap.complete q.val d stOk s.capRemap.cap.populatedMib.toNat) :=
      congrArg Host.Outcome.next ((isUp_onStarted up first _).trans ((if_neg (by rw [stopped]; nofun)).trans (if_neg (by simp [free, idle]))))
    obtain ⟨host, populated, channels, memory⟩ := capRemap_remaps s
    generalize s.capRemap = x at *
    obtain ⟨mem, -, -, cap, cuffs, -⟩ := complete_state x q.val d stOk x.cap.populatedMib.toNat
    refine ⟨_, row, ?_, ?_, fun k n hk hn lost => ?_, fun a => ?_⟩
    · rw [cap]
      exact complete_from q.val d _ _ (by rw [State.sq_congr (congrArg HostIf.sqs host)]) (congrArg HostIf.cqs host)
    · rw [cap]
      exact populated
    · have same : (x.complete q.val d stOk x.cap.populatedMib.toNat).chan k n = x.chan k n := by
        unfold State.chan State.cuff
        rw [cuffs]
      rw [same]
      exact channels k n hk hn lost
    · rw [mem]
      exact memory a
  · have whole : hostBytes read (d.get 144 13) = (read.bytes.take (d.get 144 13), true) := by simp [hostBytes, good, full]
    by_cases shut : s.mgmt.tagLocked = true ∨ bit s.mgmt.serviceCtrl 1 = false
    · have acts : s.tagDescriptor q.val d read = s.complete q.val d stTagLocked 0 := by
        unfold State.tagDescriptor
        rw [whole]
        have barred : (s.mgmt.tagLocked || !bit s.mgmt.serviceCtrl 1) = true := by
          rcases shut with h | h
          · rw [h]
            rfl
          · rw [h]
            exact Bool.or_true _
        exact (if_neg nofun).trans (if_pos barred)
      refine ⟨_, congrArg Host.Outcome.next ((isUp_onStarted up first _).trans acts), ?_⟩
      rw [if_pos shut]
      exact ends (started_opcode first) (by decide) stTagLocked
    · have acts : s.tagDescriptor q.val d read = (s.putTags (d.get 128 12) (read.bytes.take (d.get 144 13))).complete q.val d stOk 0 := by
        unfold State.tagDescriptor
        rw [whole]
        obtain ⟨unlocked, enabled⟩ := not_or.mp shut
        rw [Bool.not_eq_false] at enabled
        rw [Bool.not_eq_true] at unlocked
        exact (if_neg nofun).trans (if_neg (by rw [unlocked, enabled]; nofun))
      refine ⟨_, congrArg Host.Outcome.next ((isUp_onStarted up first _).trans acts), ?_⟩
      rw [if_neg shut]
      obtain ⟨-, -, -, -, -, mgmt, -⟩ := complete_state (s.putTags (d.get 128 12) (read.bytes.take (d.get 144 13))) q.val d stOk 0
      rw [mgmt]
      have stored := memRead_memWrite s.mgmt.tagBytes (d.get 128 12) (read.bytes.take (d.get 144 13))
      rw [List.length_take, Nat.min_eq_left full] at stored
      exact ⟨complete_from q.val d _ _ rfl rfl, rfl, stored⟩
  · exact ⟨_, congrArg Host.Outcome.next ((isUp_onStarted up first _).trans (foldSteps_refused running other)),
      ends (started_opcode first) (by decide) stSetActive⟩
  · obtain ⟨host, memory, fold, folds, -⟩ := folded_folds s
    refine ⟨_, congrArg Host.Outcome.next ((isUp_onStarted up first _).trans (foldSteps_ends stopped alone idle asleep)), ?_⟩
    generalize s.folded = x at *
    obtain ⟨mem, power, -⟩ := complete_state x q.val d stOk 0
    refine ⟨complete_from q.val d _ _ (by rw [State.sq_congr (congrArg HostIf.sqs host)]) (congrArg HostIf.cqs host), ?_, ?_, ?_⟩
    · rw [power]
      exact fold
    · rw [power]
      exact folds
    · rw [mem]
      exact memory
  · exact ⟨_, congrArg Host.Outcome.next ((isUp_onStarted up first _).trans (foldSteps_enters stopped others)), rfl, rfl⟩
  · obtain ⟨digest, -, count, mem0, -⟩ := computeFingerprint_keeps s unstable
    obtain ⟨x, row, host, mem, mgmt, written⟩ := fingerprint_done s q.val d unstable
    obtain ⟨kept, -, -, -, -, own, -⟩ := complete_state x q.val d stOk s.canonicalRecord.length
    refine ⟨_, congrArg Host.Outcome.next ((isUp_onStarted up first _).trans row),
      complete_from q.val d _ _ (by rw [State.sq_congr (congrArg HostIf.sqs host)]) (congrArg HostIf.cqs host), ?_, ?_, ?_, fun none_ apart => ?_⟩
    · rw [own, mgmt]
      exact digest
    · rw [own, mgmt]
      exact count
    · rw [kept]
      exact mem
    · have apart' : x.apartFromEntry q.val (d.get 64 64) 64 := by
        unfold State.apartFromEntry State.entryAt at *
        rw [State.sq_congr (congrArg HostIf.sqs host), State.cq_congr (congrArg HostIf.cqs host)]
        exact apart
      have read := memRead_memWrite s.out.hostMem (d.get 64 64) (sha3 s.canonicalRecord)
      rw [sha3_length] at read
      rw [complete_apart apart', written none_]
      exact read

end Sys2Proof.Proofs
end

section
/-!
PROOF. Scrub passes, page release fences and HALT (R196, R228, R317).
-/

namespace Sys2Proof.Machine

/-! ### What a unit does at its memory -/

/-- The last step first, for steps whose start is known from it alone. -/
theorem SettleKeeps.after {s t u : State} (g : SettleKeeps t u) (h : SettleKeeps s t) : SettleKeeps s u := h.trans g

theorem remerge_settle (s : State) (a : Nat) (f : Option CapFault) : SettleKeeps s (s.remerge a f) := by
  unfold State.remerge
  exact .ite (setFault_settle _ _ _) (clearFault_settle _ _)

theorem discardUnit_settle (s : State) : SettleKeeps s s.discardUnit := ⟨rfl⟩

theorem capWrite_settle (s : State) (a len : Nat) : SettleKeeps s (s.capWrite a len) := by
  unfold State.capWrite
  refine .ite (discardUnit_settle s) (SettleKeeps.trans ?_ (markRow_settle _ _))
  exact .ite (clearFault_settle _ _) ((capRead_settle s a).trans (remerge_settle _ _ _))

theorem capAtomic_settle (s : State) (a wraps : Nat) : SettleKeeps s (s.capAtomic a wraps) := by
  unfold State.capAtomic
  refine .ite (discardUnit_settle s) (SettleKeeps.trans ?_ (markRow_settle _ _))
  exact ((capRead_settle s a).trans (updCuff_settle _ _ _)).trans (remerge_settle _ _ _)

/-- What a unit's access does to its column or channel touches neither memory nor any core. -/
theorem moveEffect_settle (s : State) (o : MoveOp) (u : MemUnit) (wraps : Nat) : SettleKeeps s (s.moveEffect o u wraps) := by
  unfold State.moveEffect
  dsimp only
  split
  · exact .ite (capRead_settle _ _) (onColumn_settle _ _ _)
  · exact onColumn_settle _ _ _
  · exact .ite (capWrite_settle _ _ _) (onColumn_settle _ _ _)
  · exact .ite (capAtomic_settle _ _ _) (.refl s)
  · exact onColumn_settle _ _ _
  · exact .refl s

/-! ### Cores that have stopped -/

/-- A core that has stopped with nothing left in its MOVE queue. -/
structure Core.Stopped (c : Core) : Prop where
  run : c.seq.run = .idle
  moves : c.moveQ = []

/-- Cores other than `n` that have stopped stay so, and the active set is the same. -/
structure OthersStay (n : Nat) (s t : State) : Prop where
  set : t.set = s.set
  stay : ∀ m, m ≠ n → (s.core m).Stopped → (t.core m).Stopped

namespace OthersStay

theorem refl (n : Nat) (s : State) : OthersStay n s s := ⟨rfl, fun _ _ => id⟩

theorem trans {n : Nat} {s t u : State} (h : OthersStay n s t) (g : OthersStay n t u) : OthersStay n s u :=
  ⟨g.set.trans h.set, fun m hm stopped => g.stay m hm (h.stay m hm stopped)⟩

/-- The last step first, for steps whose start is known from it alone. -/
theorem after {n : Nat} {s t u : State} (g : OthersStay n t u) (h : OthersStay n s t) : OthersStay n s u := h.trans g

theorem ite {n : Nat} {s a b : State} {c : Prop} [Decidable c] (ha : OthersStay n s a) (hb : OthersStay n s b) :
    OthersStay n s (if c then a else b) := by
  split
  · exact ha
  · exact hb

end OthersStay

theorem SettleKeeps.others {s t : State} (h : SettleKeeps s t) (n : Nat) : OthersStay n s t :=
  ⟨by rw [h.eq], fun m _ stopped => by rw [h.core m]; exact stopped⟩

theorem putLocal_others (s : State) (n : Nat) (l : Local) : OthersStay n s (s.putLocal n l) :=
  ⟨by rw [putLocal_only], fun m hm stopped => by rw [putLocal_core, if_neg hm]; exact stopped⟩

/-- A near-memory command that is complete at a Cuff ends for its own core alone. -/
theorem nearDone_others (s : State) (n k : Nat) : OthersStay n s (s.nearDone n k) := by
  unfold State.nearDone
  dsimp only
  split
  · exact putLocal_others s n _
  · exact .refl n s

theorem nearEnds_settle (s : State) (k : Nat) (c : NearCommand) (lost : Bool) : SettleKeeps s (s.nearEnds k c lost) := by
  unfold State.nearEnds
  exact SettleKeeps.trans (t := s.updNear k c _) ⟨rfl⟩ (updCuff_settle _ _ _)

theorem nearArrives_others (s : State) (n k : Nat) (o : MoveOp) : OthersStay n s (s.nearArrives n k o) := by
  unfold State.nearArrives
  split
  · dsimp only
    split
    · next gone =>
      unfold State.nearTake
      dsimp only
      rw [if_pos gone]
      exact (SettleKeeps.others ((nearEnds_settle _ _ _ _).after ⟨rfl⟩) n).trans (nearDone_others _ _ _)
    · exact (updCuff_settle _ _ _).others n
  · exact .refl n s

/-- A request that a core has presented concerns that core alone. -/
theorem moveTurn_others (s : State) (key n : Nat) : OthersStay n s (s.moveTurn key n false).1 := by
  unfold State.moveTurn
  dsimp only
  split
  · exact .refl n s
  · next i o _ =>
    rw [if_neg Bool.false_ne_true]
    dsimp only
    split
    · exact putLocal_others s n _
    · exact .refl n s
    · split
      · exact (putLocal_others s n _).trans (putLocal_others _ n _)
      · refine OthersStay.after (putLocal_others _ n _) ?_
        split
        · refine .ite (.after (nearArrives_others _ _ _ _) ?_) ?_
          · split
            · exact .after ((moveEffect_settle _ _ _ _).others n) (putLocal_others s n _)
            · exact putLocal_others s n _
          · split
            · exact .after ((moveEffect_settle _ _ _ _).others n) (putLocal_others s n _)
            · exact putLocal_others s n _
        · split
          · exact .after ((moveEffect_settle _ _ _ _).others n) (putLocal_others s n _)
          · exact putLocal_others s n _

theorem serveShown_others (s : State) (n : Nat) : OthersStay n s (s.serveShown n) :=
  foldOver_rel (R := OthersStay n) (.refl n) (fun _ _ _ => .trans) (fun t key => moveTurn_others t key n) _ s

theorem haltStop_stopped (l : Local) : l.haltStop.core.Stopped := ⟨rfl, rfl⟩

/-- Core `n` stops at a HALT. -/
def State.haltCore (s : State) (n : Nat) : State := (s.serveShown n).putLocal n ((s.serveShown n).localOf n).haltStop

/-- The cores of a list stop, the stopped ones stay so, and the active set is the same. -/
structure CoresStop (ns : List Nat) (s t : State) : Prop where
  set : t.set = s.set
  stopped : ∀ m, m ∈ ns ∨ (s.core m).Stopped → (t.core m).Stopped

theorem haltCore_stops (s : State) (n : Nat) : CoresStop [n] s (s.haltCore n) := by
  have others := (serveShown_others s n).trans (putLocal_others (s.serveShown n) n ((s.serveShown n).localOf n).haltStop)
  refine ⟨others.set, fun m hm => ?_⟩
  by_cases e : m = n
  · rw [e, State.haltCore, putLocal_core, if_pos rfl]
    exact haltStop_stopped _
  · exact others.stay m e (hm.resolve_left fun h => e (List.mem_singleton.mp h))

theorem haltCores_stop (ns : List Nat) (s : State) : CoresStop ns s (foldOver ns State.haltCore s) := by
  induction ns generalizing s with
  | nil => exact ⟨rfl, fun m h => h.resolve_left nofun⟩
  | cons n r ih =>
    have first := haltCore_stops s n
    have others := ih (s.haltCore n)
    refine ⟨others.set.trans first.set, fun m hm => others.stopped m ?_⟩
    rcases hm with hm | hm
    · rcases List.mem_cons.mp hm with e | hr
      · exact .inr (first.stopped m (.inl (List.mem_singleton.mpr e)))
      · exact .inl hr
    · exact .inr (first.stopped m (.inr hm))

theorem stopSet_stops (s : State) : CoresStop s.set.cores s s.stopSet :=
  have h := haltCores_stop s.set.cores s
  ⟨h.set, h.stopped⟩

/-! ### Descriptors that are gone -/

/-- A descriptor that is not waiting in `s` is not waiting in `t` either. -/
structure Sheds (s t : State) : Prop where
  gone : ∀ q order, s.descOf q order = none → t.descOf q order = none

namespace Sheds

theorem refl (s : State) : Sheds s s := ⟨fun _ _ => id⟩

theorem trans {s t u : State} (h : Sheds s t) (g : Sheds t u) : Sheds s u := ⟨fun q order => g.gone q order ∘ h.gone q order⟩

theorem of_sqs {s t : State} (h : t.host.sqs = s.host.sqs) : Sheds s t := ⟨fun q order none_ => by
  rw [State.descOf, State.sq_congr h]
  exact none_⟩

end Sheds

theorem complete_sheds (s : State) (q : Nat) (d : Desc) (status specific : Nat) : Sheds s (s.complete q d status specific) := by
  refine ⟨fun k order none_ => ?_⟩
  rw [State.descOf, complete_sq]
  split
  · next e =>
    rw [e] at none_
    rw [without_descs, List.find?_eq_none]
    intro x hx
    exact List.find?_eq_none.mp none_ x (List.mem_filter.mp hx).1
  · exact none_

theorem complete_gone (s : State) (q : Nat) (d : Desc) (status specific : Nat) :
    (s.complete q d status specific).descOf q d.order = none := (complete_completes s q d status specific).gone

/-- A pass that ends writes its summary, and its descriptor completes. -/
theorem endScrub_eq (s : State) (p : ScrubPass) (d : Desc) (code status : Nat) (wrote : HostWrite) : ∃ x : State,
    s.endScrub p d code status wrote = x.complete p.sq d (if wrote.isSome then stHostAccess else status) 0 ∧ x.host = s.host ∧
      x.scrubs = s.scrubs.erase p ∧
      x.out.hostMem = memWrite s.out.hostMem d.summaryAt ((p.summary code s.freeTick).take (wrote.getD (p.summary code s.freeTick).length)) := by
  have drew : ∀ y : State, (y.drewTimes p).host = y.host ∧ (y.drewTimes p).scrubs = y.scrubs ∧ (y.drewTimes p).out = y.out := by
    intro y
    unfold State.drewTimes
    split <;> exact ⟨rfl, rfl, rfl⟩
  obtain ⟨host, scrubs, out⟩ := drew (s.hostData d d.summaryAt (p.summary code s.freeTick) wrote)
  refine ⟨_, rfl, host, congrArg (List.erase · p) scrubs, ?_⟩
  exact congrArg Outputs.hostMem out

theorem endScrub_sheds (s : State) (p : ScrubPass) (d : Desc) (code status : Nat) (wrote : HostWrite) :
    Sheds s (s.endScrub p d code status wrote) ∧ (s.endScrub p d code status wrote).descOf p.sq d.order = none := by
  obtain ⟨x, ht, host, -⟩ := endScrub_eq s p d code status wrote
  rw [ht]
  exact ⟨(Sheds.of_sqs (congrArg HostIf.sqs host)).trans (complete_sheds _ _ _ _ _), complete_gone _ _ _ _ _⟩

theorem abort_sheds (s : State) (q : Nat) (d : Desc) : Sheds s (s.abort q d) ∧ (s.abort q d).descOf q d.order = none := by
  unfold State.abort
  split
  · next p found =>
    have own := List.find?_some found
    rw [Bool.and_eq_true, beq_iff_eq] at own
    have h := endScrub_sheds s p d 1 stAborted none
    rw [own.1] at h
    exact h
  · split
    · have h := endScrub_sheds s (ScrubPass.fresh q d.order []) d 1 stAborted none
      have own : (ScrubPass.fresh q d.order []).sq = q := rfl
      rw [own] at h
      exact h
    · exact ⟨complete_sheds _ _ _ _ _, complete_gone _ _ _ _ _⟩

/-- Every descriptor of a list is aborted. -/
theorem aborts_shed (es : List (Nat × Desc)) (s : State) : Sheds s (foldOver es (fun t e => t.abort e.1 e.2) s) ∧
    ∀ e ∈ es, (foldOver es (fun t e => t.abort e.1 e.2) s).descOf e.1 e.2.order = none := by
  induction es generalizing s with
  | nil => exact ⟨.refl s, fun _ h => absurd h List.not_mem_nil⟩
  | cons x r ih =>
    obtain ⟨sheds, gone⟩ := abort_sheds s x.1 x.2
    obtain ⟨rest, others⟩ := ih (s.abort x.1 x.2)
    refine ⟨sheds.trans rest, fun e he => ?_⟩
    rcases List.mem_cons.mp he with h | h
    · rw [h]
      exact rest.gone _ _ gone
    · exact others e h

theorem completes_shed (es : List (Nat × Desc)) (s : State) : Sheds s (foldOver es (fun t e => t.complete e.1 e.2 stOk 0) s) :=
  foldOver_rel .refl (fun _ _ _ => .trans) (fun t e => complete_sheds t e.1 e.2 stOk 0) es s

/-! ### The work of a HALT -/

/-- The end of a set completes its LAUNCH. -/
theorem endSet_sheds (s : State) (status : Nat) : Sheds s (s.endSet status) ∧ (s.endSet status).descOf s.set.sq s.set.order = none ∧
    (s.endSet status).set.running = false ∧ (s.endSet status).cores = s.cores := by
  unfold State.endSet
  dsimp only
  split
  · next d found =>
    have order := List.find?_some found
    rw [beq_iff_eq] at order
    have sheds := complete_sheds s s.set.sq d status s.launchTime
    have gone := complete_gone s s.set.sq d status s.launchTime
    have cores : (s.complete s.set.sq d status s.launchTime).cores = s.cores := (complete_state s _ d status _).2.2.2.2.2.2.2.1
    rw [order] at gone
    generalize s.complete s.set.sq d status s.launchTime = x at *
    exact ⟨sheds.trans (.of_sqs rfl), gone, rfl, cores⟩
  · next none_ => exact ⟨.of_sqs rfl, none_, rfl, rfl⟩

/-- The state in which a HALT begins to abort descriptors: the set has stopped and ended. -/
def State.haltSet (s : State) : State :=
  let s1 := s.updHost fun h => { h with drains := h.drains.map fun w => { w with aborted := true } }
  if s.set.running then s1.stopSet.endSet stAborted else s1

theorem haltSet_ends (s : State) : s.haltSet.set.running = false ∧
    (s.set.running = true → s.haltSet.descOf s.set.sq s.set.order = none ∧ ∀ n ∈ s.set.cores, (s.haltSet.core n).Stopped) := by
  have stops := stopSet_stops (s.updHost fun h => { h with drains := h.drains.map fun w => { w with aborted := true } })
  unfold State.haltSet
  dsimp only
  generalize hx : s.updHost (fun h => { h with drains := h.drains.map fun w => { w with aborted := true } }) = x at stops
  have set : x.set = s.set := by rw [← hx]; rfl
  split
  · obtain ⟨-, gone, stopped, cores⟩ := endSet_sheds x.stopSet stAborted
    rw [stops.set, set] at gone
    refine ⟨stopped, fun _ => ⟨gone, fun n hn => ?_⟩⟩
    rw [State.core_congr cores]
    exact stops.stopped n (.inl (by rw [set]; exact hn))
  · next idle =>
    rw [Bool.not_eq_true] at idle
    exact ⟨by rw [set, idle], fun h => absurd (h.symm.trans idle) nofun⟩

/-- What a HALT leaves before it completes. -/
structure Halts (s t : State) : Prop where
  stopped : t.set.running = false
  gone : ∀ e ∈ s.toAbort, t.descOf e.1 e.2.order = none
  cores : s.set.running = true → ∀ n ∈ s.set.cores, (t.core n).Stopped
  rings : ∀ e ∈ t.rings, e.2.use = .opened ∨ e.2.toOpen = true

theorem haltBody_halts (s : State) : Halts s s.haltBody := by
  obtain ⟨stopped, ended⟩ := haltSet_ends s
  unfold State.haltBody
  dsimp only
  generalize hrest : (s.toAbort.filter fun e => !((s.set.running && s.toAbort.any fun e => e.1 == s.set.sq && e.2.order == s.set.order) &&
    e.1 == s.set.sq && e.2.order == s.set.order)) = rest
  have start : (if s.set.running = true then
      (s.updHost fun h => { h with drains := h.drains.map fun w => { w with aborted := true } }).stopSet.endSet stAborted
    else s.updHost fun h => { h with drains := h.drains.map fun w => { w with aborted := true } }) = s.haltSet := rfl
  rw [start]
  obtain ⟨sheds, aborted⟩ := aborts_shed rest s.haltSet
  have posts := Posts.fold rest (fun t (e : Nat × Desc) => t.abort e.1 e.2) (fun t e => abort_posts t e.1 e.2) s.haltSet
  generalize foldOver rest (fun t e => t.abort e.1 e.2) s.haltSet = x at *
  have kept := admitPanels_only x.releaseRings
  refine ⟨?_, fun e he => ?_, fun running n hn => ?_, admitPanels_opens x⟩
  · rw [kept]
    exact (congrArg ActiveSet.running posts.set).trans stopped
  · have gone : x.descOf e.1 e.2.order = none := by
      by_cases own : s.set.running = true ∧ e.1 = s.set.sq ∧ e.2.order = s.set.order
      · obtain ⟨running, sq, order⟩ := own
        rw [sq, order]
        exact sheds.gone _ _ (ended running).1
      · refine aborted e ?_
        rw [← hrest]
        refine List.mem_filter.mpr ⟨he, ?_⟩
        by_contra no
        simp only [Bool.not_eq_true', Bool.and_eq_true, beq_iff_eq, Bool.not_eq_false] at no
        exact own ⟨no.1.1.1, no.1.2, no.2⟩
    rw [kept]
    exact gone
  · rw [kept]
    have core : x.core n = s.haltSet.core n := State.core_congr (by rw [posts.eq]) n
    have own : (x.core n).Stopped := by
      rw [core]
      exact (ended running).2 n hn
    exact own

/-- With nothing to abort and no set active, a HALT leaves the ring pairs as they are. -/
theorem haltBody_quiet {s : State} (none_ : s.toAbort = []) (idle : s.set.running = false) :
    s.haltBody.host.sqs = s.host.sqs ∧ s.haltBody.host.cqs = s.host.cqs := by
  unfold State.haltBody
  dsimp only
  rw [none_, idle, if_neg Bool.false_ne_true, admitPanels_only]
  exact ⟨rfl, rfl⟩

/-- A completion leaves rings in their open images, or on their way. -/
theorem complete_opens {s : State} (h : ∀ e ∈ s.rings, e.2.use = .opened ∨ e.2.toOpen = true) (q : Nat) (d : Desc) (status specific : Nat) :
    ∀ e ∈ (s.complete q d status specific).rings, e.2.use = .opened ∨ e.2.toOpen = true := by
  have posted : ((s.dropDesc q d).postEntry q d status specific).rings = s.rings := by
    unfold State.postEntry State.writeEntry State.signal
    dsimp only
    repeat' (first | rfl | split)
  unfold State.complete
  dsimp only
  split
  · intro e he
    obtain ⟨r, hr, rfl⟩ := List.mem_map.mp he
    rw [posted] at hr
    exact h r hr
  · rw [posted]
    exact h

theorem haltSteps_halts (s : State) (q : Nat) (d : Desc) (later : List (Nat × Desc)) : Halts s (s.haltSteps q d later) := by
  obtain ⟨stopped, gone, cores, rings⟩ := haltBody_halts s
  unfold State.haltSteps
  generalize s.haltBody = x at *
  have own := complete_posts x q d stOk s.toAbort.length
  have sheds := (complete_sheds x q d stOk s.toAbort.length).trans (completes_shed later (x.complete q d stOk s.toAbort.length))
  have posts := own.trans (Posts.fold later (fun t (e : Nat × Desc) => t.complete e.1 e.2 stOk 0) (fun t e => complete_posts t e.1 e.2 stOk 0)
    (x.complete q d stOk s.toAbort.length))
  refine ⟨?_, fun e he => sheds.gone _ _ (gone e he), fun running n hn => ?_, ?_⟩
  · rw [posts.set]
    exact stopped
  · rw [State.core_congr (by rw [posts.eq]) n]
    exact cores running n hn
  · exact foldOver_rel (R := fun a b : State => (∀ e ∈ a.rings, e.2.use = .opened ∨ e.2.toOpen = true) →
        ∀ e ∈ b.rings, e.2.use = .opened ∨ e.2.toOpen = true) (fun _ h => h) (fun _ _ _ h g => g ∘ h)
      (fun t e h => complete_opens h e.1 e.2 stOk 0) later _ (complete_opens rings q d stOk _)

/-! ### Scrub passes and fences -/

theorem summary_length (p : ScrubPass) (code free : Nat) : (p.summary code free).length = 64 := by
  unfold ScrubPass.summary
  simp only [List.length_append, List.length_cons, List.length_nil, List.length_replicate, leBytes_length]

/-- A fence that waits for some Panel is not done. -/
theorem fencesDone_waits {s : State} {w : FenceWait} {rest : List FenceWait} (h : s.host.fences = w :: rest) (waits : w.panels ≠ []) (k : Nat) :
    s.fencesDone (k + 1) = s := by
  unfold State.fencesDone
  rw [h]
  exact if_neg (by simpa using waits)

/-- The fence that a descriptor raises. -/
def State.fenceOf (s : State) (q : Nat) (d : Desc) : FenceWait :=
  ⟨q, d.order, (List.range 8).filter s.panelAnswers, [], [], [], 0, 0, d.fetchNs⟩

theorem raiseFence_alone {s : State} (none_ : s.host.fences = []) (q : Nat) (d : Desc) :
    s.raiseFence q d = ({ s with host := { s.host with fences := [s.fenceOf q d] } } : State).fencesDone 1 := by
  unfold State.raiseFence State.updHost
  dsimp only
  rw [none_]
  rfl

/-- The state as the first fence leaves the queue, every Panel of it having reported. -/
def State.fenceEnded (s : State) (w : FenceWait) (rest : List FenceWait) : State :=
  let ns := s.now - w.startNs
  { s with
    host := { s.host with fences := rest },
    yoke := { s.yoke with fenceIsolated := w.isolated, fenceLastNs := BitVec.ofNat 32 (min ns 0xFFFFFFFF) } }

/-- A fence with no Panel left to wait for completes its descriptor. -/
theorem fencesDone_done {s : State} {w : FenceWait} {rest : List FenceWait} {d : Desc} (h : s.host.fences = w :: rest) (none_ : w.panels = [])
    (own : (s.fenceEnded w rest).descOf w.sq w.order = some d) (k : Nat) : s.fencesDone (k + 1) =
      ((s.fenceEnded w rest).complete w.sq d stOk (fenceSpecific w.isolated w.walks (s.now - w.startNs))).fencesDone k := by
  unfold State.fenceEnded at own
  dsimp only at own
  conv_lhs => unfold State.fencesDone
  rw [h]
  dsimp only
  rw [none_, own]
  rfl

/-- A fence that no Panel answers completes at once. -/
theorem raiseFence_done {s : State} (none_ : s.host.fences = []) {q : Nat} {d : Desc} (own : s.descOf q d.order = some d)
    (dark : (List.range 8).filter s.panelAnswers = []) : ∃ x : State, s.raiseFence q d = x.complete q d stOk (fenceSpecific 0 0 (s.now - d.fetchNs)) ∧
      x.host.sqs = s.host.sqs ∧ x.host.cqs = s.host.cqs := by
  rw [raiseFence_alone none_]
  have done_ := fencesDone_done (s := { s with host := { s.host with fences := [s.fenceOf q d] } }) (w := s.fenceOf q d) (rest := []) (d := d)
    rfl dark own 0
  have ended (t : State) : t.fencesDone 0 = t := by
    unfold State.fencesDone
    rfl
  rw [ended] at done_
  exact ⟨_, done_, rfl, rfl⟩

end Sys2Proof.Machine

namespace Sys2Proof.Proofs
open Sys2Proof Sys2Proof.Machine

/-- Settles O46: a pass ends with its summary, a fence once no Panel is left to wait for; a HALT sheds what it aborts. -/
theorem scrubFenceAndHalt : Obligations.ScrubFenceAndHalt := by
  intro q index d s up
  dsimp only
  refine ⟨fun first => ?_, fun p found own apart => ?_, fun first none_ turn some_ => ?_, fun first none_ turn dark own => ?_,
    fun later first place => ?_⟩
  · have fresh : s.scrubbing q.val d = false := by
      have h := List.find?_some first
      simp only [Bool.and_eq_true, Bool.not_eq_true'] at h
      exact h.2
    have row (t : State) (ht : s.scrub q.val d = t) : exec (.scrub q index) s = .next t :=
      congrArg Host.Outcome.next ((isUp_onStartedThat up first _).trans ht)
    refine ⟨fun ok => ?_, fun bad => ?_⟩
    · have ht : s.scrub q.val d = s.beginScrub q.val d (s.scrubParts (d.get 64 48) (d.get 128 48)).1 :=
        (if_neg (by rw [fresh]; nofun)).trans (if_pos ok)
      exact ⟨_, _, row _ ht, rfl, rfl, rfl, rfl, rfl, rfl⟩
    · have ht : s.scrub q.val d = s.complete q.val d (s.scrubParts (d.get 64 48) (d.get 128 48)).2 0 :=
        (if_neg (by rw [fresh]; nofun)).trans (if_neg bad)
      refine ⟨_, row _ ht, complete_completes _ _ _ _ _, ?_⟩
      rw [(State.complete_hostOnly (.refl s) q.val d _ 0).eq]
  · obtain ⟨x, ht, host, scrubs, hostMem⟩ := endScrub_eq s p d p.status.toNat p.ends none
    have row : exec (.scrubPassEnd none) s = .next (x.complete p.sq d p.ends 0) := by
      have ends : s.scrubEnd none = s.endScrub p d p.status.toNat p.ends none := by
        unfold State.scrubEnd
        rw [found]
        dsimp only
        rw [own]
      exact congrArg Host.Outcome.next ((if_pos up).trans (ends.trans ht))
    have order := List.find?_some own
    have apart' : x.apartFromEntry p.sq d.summaryAt 64 := by
      unfold State.apartFromEntry State.entryAt at *
      rw [State.sq_congr (congrArg HostIf.sqs host), State.cq_congr (congrArg HostIf.cqs host)]
      exact apart
    refine ⟨_, row, complete_from p.sq d _ _ (by rw [State.sq_congr (congrArg HostIf.sqs host)]) (congrArg HostIf.cqs host), ?_, ?_⟩
    · rw [(State.complete_hostOnly (.refl x) p.sq d p.ends 0).eq]
      exact scrubs
    · have read := memRead_memWrite s.out.hostMem d.summaryAt (p.summary p.status.toNat s.freeTick)
      rw [summary_length] at read
      rw [complete_apart apart', hostMem, Option.getD_none, List.take_length]
      exact read
  · have ht : s.raiseFence q.val d = { s with host := { s.host with fences := [s.fenceOf q.val d] } } := by
      rw [raiseFence_alone none_]
      refine fencesDone_waits rfl ?_ 0
      obtain ⟨p, small, answers⟩ := some_
      exact List.ne_nil_of_mem (List.mem_filter.mpr ⟨List.mem_range.mpr small, answers⟩)
    refine ⟨_, s.fenceOf q.val d, congrArg Host.Outcome.next ((isUp_onStarted up first _).trans ((if_neg ?_).trans ht)), rfl, rfl, rfl, rfl,
      fun p => ?_⟩
    · rw [none_, turn]
      nofun
    · have member : p ∈ (s.fenceOf q.val d).panels ↔ p ∈ List.range 8 ∧ s.panelAnswers p = true := List.mem_filter
      rw [member, List.mem_range]
  · have empty : (List.range 8).filter s.panelAnswers = [] := by
      rw [List.filter_eq_nil_iff]
      intro p hp
      rw [dark p (List.mem_range.mp hp)]
      nofun
    obtain ⟨x, ht, sqs, cqs⟩ := raiseFence_done none_ own empty
    refine ⟨_, congrArg Host.Outcome.next ((isUp_onStarted up first _).trans ((if_neg ?_).trans ht)),
      complete_from q.val d _ _ (by rw [State.sq_congr sqs]) cqs⟩
    rw [none_, turn]
    nofun
  · have row : exec (.halt q index) s = .next (s.haltSteps q.val d later) := by
      have whole : exec (.halt q index) s = execHalt q index s := rfl
      rw [whole, execHalt, first]
      exact congrArg Host.Outcome.next (if_pos ⟨up, rfl, place⟩)
    obtain ⟨stopped, gone, cores, rings⟩ := haltSteps_halts s q.val d later
    refine ⟨_, row, stopped, gone, fun running n hn => ⟨(cores running n hn).run, (cores running n hn).moves⟩, rings, fun alone none_ idle => ?_⟩
    obtain ⟨sqs, cqs⟩ := haltBody_quiet none_ idle
    have ht : s.haltSteps q.val d later = s.haltBody.complete q.val d stOk 0 := by
      unfold State.haltSteps
      rw [alone, none_]
      rfl
    rw [ht]
    exact complete_from q.val d _ _ (by rw [State.sq_congr sqs]) cqs

end Sys2Proof.Proofs
end

section
/-!
PROOF. A LAUNCH (R41, R42, R309): the set that it starts, or the status with which it completes.
-/

namespace Sys2Proof.Machine

/-- What holds of every listed value, and of the one that stands for keys not listed, holds of what a key finds. -/
theorem mapGet_of_all {α : Type} {P : α → Prop} {d : α} (hd : P d) {m : List (Nat × α)} (h : ∀ e ∈ m, P e.2) (k : Nat) : P (mapGet d m k) := by
  induction m with
  | nil => exact hd
  | cons e r ih =>
    simp only [mapGet]
    split
    · exact h e List.mem_cons_self
    · exact ih fun x hx => h x (List.mem_cons_of_mem _ hx)

/-! ### Cores of a set that starts -/

/-- A core as a LAUNCH starts it. -/
structure Core.Launched (c : Core) : Prop where
  run : c.seq.run = .running
  lap : c.seq.lap = 0
  words : c.seq.wordsIssued = 0
  regs : c.seq.regs = []

/-- Every window is held by its own core, and no credit message is on its way. -/
structure CreditFree (s : State) : Prop where
  holders : ∀ n, (s.core n).scr.holders = []
  credit : s.credit = []

theorem launch_launched (c : Core) (entry count now : Nat) (cache cache' : List (Nat × CacheBlock)) :
    ({ c.launch entry count now cache with seq := { (c.launch entry count now cache).seq with cache := cache' } } : Core).Launched :=
  ⟨rfl, rfl, rfl, rfl⟩

theorem writePocket_stay (s : State) (ag : Agent) (n a : Nat) (bs : List Byte) : CoresStay s (s.writePocket ag n a bs) := by
  unfold State.writePocket
  dsimp only
  have written := onColumn_stay s (s.columnOf n) fun c x => c.write x (wordOf a) (a % 64) bs.length
  split
  · exact ⟨written.cores, written.rings, written.credit⟩
  · exact ⟨written.cores, written.rings, written.credit⟩

/-- The cores of a list are launched, and credits and rings stay. -/
structure CoresLaunch (ns : List Nat) (s t : State) : Prop where
  rings : t.rings = s.rings
  free : CreditFree s → CreditFree t
  launched : ∀ m, m ∈ ns ∨ (s.core m).Launched → (t.core m).Launched

/-- A core stored with its lap record written and its cache filled: the others stay. -/
theorem storedCore_launches {n : Nat} {c : Core} (launched : ∀ cache, ({ c with seq := { c.seq with cache := cache } } : Core).Launched)
    (holders : c.scr.holders = []) (s : State) (a w last : Nat) (bs : List Byte) (cache : List (Nat × CacheBlock)) :
    CoresLaunch [n] s ((((s.setCore n c).writePocket .hqe n a bs).noteFill n w last).setCore n
      { c with seq := { c.seq with cache := cache } }) := by
  have put := writePocket_stay (s.setCore n c) .hqe n a bs
  have fill := noteFill_stay ((s.setCore n c).writePocket .hqe n a bs) n w last
  have kept := put.trans fill
  generalize ((s.setCore n c).writePocket .hqe n a bs).noteFill n w last = z at *
  have core (m : Nat) : (z.setCore n { c with seq := { c.seq with cache := cache } }).core m =
      if m = n then { c with seq := { c.seq with cache := cache } } else s.core m := by
    rw [State.core_setCore, State.core_congr kept.cores, State.core_setCore]
    split <;> rfl
  refine ⟨kept.rings, fun free => ⟨fun m => ?_, kept.credit.trans free.credit⟩, fun m hm => ?_⟩
  · rw [core]
    split
    · exact holders
    · exact free.holders m
  · rw [core]
    split
    · exact launched cache
    · next e => exact hm.resolve_left fun h => e (List.mem_singleton.mp h)

theorem launch_holders (c : Core) (entry count now : Nat) (cache : List (Nat × CacheBlock)) :
    (c.launch entry count now cache).scr.holders = [] := rfl

theorem launchCore_launches (buildId : BitVec 32) (s : State) (n : Nat) : CoresLaunch [n] s (State.launchCore buildId s n) := by
  unfold State.launchCore
  dsimp only
  exact storedCore_launches (fun _ => launch_launched _ _ _ _ _ _) (launch_holders _ _ _ _ _) s _ _ _ _ _

theorem foldOver_cons {α : Type} (f : State → α → State) (a : α) (l : List α) (s : State) :
    foldOver (a :: l) f s = foldOver l f (f s a) := rfl

theorem launchCores_launch (buildId : BitVec 32) (ns : List Nat) (s : State) :
    CoresLaunch ns s (foldOver ns (State.launchCore buildId) s) := by
  induction ns generalizing s with
  | nil => exact ⟨rfl, id, fun m h => h.resolve_left List.not_mem_nil⟩
  | cons n r ih =>
    have first := launchCore_launches buildId s n
    have others := ih (State.launchCore buildId s n)
    rw [foldOver_cons]
    generalize State.launchCore buildId s n = x at *
    refine ⟨others.rings.trans first.rings, others.free ∘ first.free, fun m hm => others.launched m ?_⟩
    rcases hm with hm | hm
    · rcases List.mem_cons.mp hm with e | hr
      · exact .inr (first.launched m (.inl (List.mem_singleton.mpr e)))
      · exact .inl hr
    · exact .inr (first.launched m (.inr hm))

theorem launchWindows_free (s : State) : CreditFree s.launchWindows where
  holders n := mapGet_map_of_all (P := fun c : Core => c.scr.holders = [])
    (f := fun c => { c with scr := { c.scr with windowsNow := c.scr.windows, hostGroupsNow := c.scr.hostGroups, holders := [], granted := [] } })
    rfl (fun _ => rfl) s.cores n
  credit := rfl

/-! ### Rings of a set that starts -/

/-- A ring as a LAUNCH starts it. -/
def Ring.Launched (r : Ring) : Prop := r.lap = 0 ∧ r.use = if r.normalLoaded then .normal else .opened

/-- Sequencers, credits and the set stay. -/
structure SeqsStay (s t : State) : Prop where
  seq : ∀ n, (t.core n).seq = (s.core n).seq
  holders : ∀ n, (t.core n).scr.holders = (s.core n).scr.holders
  credit : t.credit = s.credit

theorem SeqsStay.refl (s : State) : SeqsStay s s := ⟨fun _ => rfl, fun _ => rfl, rfl⟩
theorem SeqsStay.trans {s t u : State} (h : SeqsStay s t) (g : SeqsStay t u) : SeqsStay s u :=
  ⟨fun n => (g.seq n).trans (h.seq n), fun n => (g.holders n).trans (h.holders n), g.credit.trans h.credit⟩
theorem SeqsStay.after {s t u : State} (g : SeqsStay t u) (h : SeqsStay s t) : SeqsStay s u := h.trans g

theorem SettleKeeps.seqs {s t : State} (h : SettleKeeps s t) : SeqsStay s t :=
  ⟨fun n => by rw [h.core], fun n => by rw [h.core], by rw [h.eq]⟩

theorem updRegions_seqs (s : State) (n : Nat) (f : Regions → Regions) : SeqsStay s (s.updRegions n f) := by
  refine ⟨fun m => ?_, fun m => ?_, rfl⟩
  · rw [State.updRegions, State.core_setCore]
    split
    · next e => rw [e]
    · rfl
  · rw [State.updRegions, State.core_setCore]
    split
    · next e => rw [e]
    · rfl

theorem atBoundary_seqs (s : State) (key : Nat) : SeqsStay s (s.atBoundary key) := by
  have cooled : SettleKeeps s (s.updRing key fun r => { r with coolNow := s.coolExpert }) := setRing_settle _ _ _
  unfold State.atBoundary
  dsimp only
  split
  · have applied := (cooled.trans (setColumn_settle _ _ _ : SettleKeeps _ (State.applyColumn _ (s.ringColumn key)))).seqs
    split
    · exact applied
    · exact applied.trans (updRegions_seqs _ _ _)
  · exact cooled.seqs

theorem atBoundary_rings (s : State) (key : Nat) :
    (s.atBoundary key).rings = mapPut s.rings key { s.ring key with coolNow := s.coolExpert } := by
  unfold State.atBoundary
  dsimp only
  split
  · split <;> rfl
  · rfl

theorem atBoundary_launched {s : State} (h : ∀ e ∈ s.rings, e.2.Launched) (key : Nat) : ∀ e ∈ (s.atBoundary key).rings, e.2.Launched := by
  have own : (s.ring key).Launched := mapGet_of_all (P := Ring.Launched) ⟨rfl, rfl⟩ h key
  intro e he
  rw [atBoundary_rings] at he
  rcases mem_mapPut _ _ _ _ he with new | old
  · rw [new]
    exact own
  · exact h e old

theorem Ring.launch_launched (r : Ring) (now : Nat) : (r.launch now).Launched := ⟨rfl, rfl⟩

theorem startRings_launch (s : State) :
    SeqsStay s (State.noNear { s with rings := s.rings.map fun e => (e.1, e.2.launch s.now) }) ∧
      ∀ e ∈ (State.noNear { s with rings := s.rings.map fun e => (e.1, e.2.launch s.now) }).rings, e.2.Launched := by
  refine ⟨⟨fun _ => rfl, fun _ => rfl, rfl⟩, fun e he => ?_⟩
  obtain ⟨r, -, rfl⟩ := List.mem_map.mp he
  exact Ring.launch_launched _ _

/-- Every ring starts at lap 0 of its normal image; sequencers and credits stay. -/
theorem launchRings_launch (s : State) : SeqsStay s s.launchRings ∧ ∀ e ∈ s.launchRings.rings, e.2.Launched := by
  have drained : SettleKeeps s (foldOver (s.rings.map (·.1)) State.drainRing s) :=
    foldOver_rel (R := SettleKeeps) .refl (fun _ _ _ => .trans) drainRing_settle _ s
  unfold State.launchRings
  dsimp only
  generalize foldOver (s.rings.map (·.1)) State.drainRing s = x at *
  obtain ⟨started, rings⟩ := startRings_launch x
  generalize State.noNear { x with rings := x.rings.map fun e => (e.1, e.2.launch x.now) } = y at *
  refine ⟨(drained.seqs.trans started).trans ?_, ?_⟩
  · exact foldOver_rel (R := SeqsStay) .refl (fun _ _ _ => .trans) atBoundary_seqs _ y
  · exact foldOver_rel (R := fun a b : State => (∀ e ∈ a.rings, e.2.Launched) → ∀ e ∈ b.rings, e.2.Launched) (fun _ h => h)
      (fun _ _ _ h g => g ∘ h) (fun t k h => atBoundary_launched h k) _ y rings

/-! ### The set -/

theorem signal_rings (s : State) (v : Nat) : (s.signal v).rings = s.rings ∧ (s.signal v).set = s.set := by
  rw [State.signal_only]
  exact ⟨rfl, rfl⟩

theorem writeEntry_rings (s : State) (n : Nat) (e : HeldEntry) : (s.writeEntry n e).rings = s.rings ∧ (s.writeEntry n e).set = s.set := by
  unfold State.writeEntry
  dsimp only
  split
  · split
    · exact signal_rings _ _
    · exact ⟨rfl, rfl⟩
  · exact ⟨rfl, rfl⟩

theorem postEntry_kept (s : State) (q : Nat) (d : Desc) (status specific : Nat) : let t := s.postEntry q d status specific
    t.set = s.set ∧ t.cores = s.cores ∧ t.credit = s.credit ∧ t.rings = s.rings := by
  have host := (State.postEntry_hostOnly (.refl s) q d status specific).eq
  have kept : (s.postEntry q d status specific).rings = s.rings ∧ (s.postEntry q d status specific).set = s.set := by
    unfold State.postEntry
    dsimp only
    split
    · exact writeEntry_rings _ _ _
    · exact ⟨rfl, rfl⟩
  exact ⟨kept.2, by rw [host], by rw [host], kept.1⟩

/-- A set as its LAUNCH starts it. -/
structure SetLaunches (buildId : BitVec 32) (cores : List Nat) (t : State) : Prop where
  running : t.set.running = true
  build : t.set.buildId = buildId
  members : t.set.cores = cores
  launched : ∀ n ∈ cores, (t.core n).Launched
  free : CreditFree t
  rings : ∀ e ∈ t.rings, e.2.Launched

theorem launchSet_launches (s : State) (q : Nat) (d : Desc) (buildId : BitVec 32) (cores : List Nat) :
    SetLaunches buildId cores (s.launchSet q d buildId cores) := by
  have windows := launchWindows_free s
  have launched := launchCores_launch buildId cores s.launchWindows
  unfold State.launchSet
  dsimp only
  generalize foldOver cores (State.launchCore buildId) s.launchWindows = x at *
  obtain ⟨seqs, rings⟩ := launchRings_launch x
  have free := launched.free windows
  let y : State := { x.launchRings with set := ⟨true, buildId, s.replayableSet, cores, s.now, q, d.order⟩ }
  have starts : SetLaunches buildId cores y := by
    refine ⟨rfl, rfl, rfl, fun n hn => ?_, ⟨fun n => (seqs.holders n).trans (free.holders n), seqs.credit.trans free.credit⟩, rings⟩
    obtain ⟨run, lap, words, regs⟩ := launched.launched n (.inl hn)
    have own : (y.core n).seq = (x.core n).seq := seqs.seq n
    exact ⟨by rw [own, run], by rw [own, lap], by rw [own, words], by rw [own, regs]⟩
  split
  · obtain ⟨set, own, credit, same⟩ := postEntry_kept y q d stStarted 0
    refine ⟨(congrArg ActiveSet.running set).trans starts.running, (congrArg ActiveSet.buildId set).trans starts.build,
      (congrArg ActiveSet.cores set).trans starts.members, fun n hn => ?_, ⟨fun n => ?_, credit.trans starts.free.credit⟩, fun e he => ?_⟩
    · have core := State.core_congr own n
      exact core ▸ starts.launched n hn
    · have core := State.core_congr own n
      exact core ▸ starts.free.holders n
    · exact starts.rings e (same ▸ he)
  · exact starts

/-! ### The checks -/

theorem readHeaders_settle (s : State) (cores : List Nat) : SettleKeeps s (s.readHeaders cores) :=
  foldOver_rel (R := SettleKeeps) .refl (fun _ _ _ => .trans) (fun _ _ => onColumn_settle _ _ _) cores s

/-- The state whose checks a LAUNCH makes. -/
def State.checked (s : State) : State := if s.set.running then s else s.applyRegions

theorem checked_keeps (s : State) : s.checked = { s with cores := s.checked.cores } := by
  unfold State.checked
  split <;> rfl

theorem launch_checks {s : State} {q : Nat} {d : Desc} {read : HostRead} (other : ¬(s.set.running = true ∧ s.set.sq = q ∧ s.set.order = d.order))
    (banks : s.bankWaits = false) (good : read.failed = false) (full : 64 ≤ read.bytes.length) :
    s.launch q d read = s.checked.launchAfter q d (maskCores (read.bytes.take 64)) := by
  have whole : hostBytes read 64 = (read.bytes.take 64, true) := by simp [hostBytes, good, full]
  unfold State.launch
  rw [whole]
  exact (if_neg other).trans ((if_neg (by rw [banks]; nofun)).trans (if_neg nofun))

theorem launchAfter_starts {s : State} {q : Nat} {d : Desc} {cores : List Nat} (ok : s.launchStatus (field d.raw 64 32) cores = 0) :
    s.launchAfter q d cores = (s.readHeaders cores).launchSet q d (field d.raw 64 32) cores := by
  have early : s.launchEarly cores = stOk := by
    by_contra bad
    unfold State.launchStatus at ok
    rw [if_pos bad] at ok
    exact bad ok
  unfold State.launchAfter
  dsimp only
  rw [ok, if_pos early]
  rfl

/-- A LAUNCH that fails a check completes, with no more than headers read. -/
theorem launchAfter_fails {s : State} {q : Nat} {d : Desc} {cores : List Nat} (bad : s.launchStatus (field d.raw 64 32) cores ≠ 0) :
    ∃ x, SettleKeeps s x ∧ s.launchAfter q d cores = x.complete q d (s.launchStatus (field d.raw 64 32) cores) 0 := by
  refine ⟨if s.launchEarly cores = stOk then s.readHeaders cores else s, .ite (readHeaders_settle _ _) (.refl s), ?_⟩
  unfold State.launchAfter
  exact if_neg bad

/-- The completion of a LAUNCH ends the loaded mark of every image. -/
theorem complete_unloads {d : Desc} (h : d.opcode = opLaunch) (s : State) (q status specific : Nat) :
    ∀ e ∈ (s.complete q d status specific).rings, e.2.normalLoaded = false ∧ e.2.coolLoaded = false := by
  have ht : s.complete q d status specific = ((s.dropDesc q d).postEntry q d status specific).unloadImages := if_pos h
  intro e he
  rw [ht] at he
  obtain ⟨r, -, rfl⟩ := List.mem_map.mp he
  exact ⟨rfl, rfl⟩

end Sys2Proof.Machine

namespace Sys2Proof.Proofs
open Sys2Proof Sys2Proof.Machine

/-- Settles O48: a LAUNCH is its checks, then the set that it starts or its completion. -/
theorem launchStartsSet : Obligations.LaunchStartsSet := by
  intro q index d s read up first other banks good full
  dsimp only
  have row : exec (.launch q index read) s = .next (s.checked.launchAfter q.val d (maskCores (read.bytes.take 64))) :=
    congrArg Host.Outcome.next ((isUp_onStarted up first _).trans (launch_checks other banks good full))
  have kept := checked_keeps s
  have same : (if s.set.running = true then s else s.applyRegions) = s.checked := rfl
  rw [same]
  generalize s.checked = x at *
  refine ⟨fun ok => ?_, fun bad => ?_⟩
  · obtain ⟨running, build, members, launched, free, rings⟩ :=
      launchSet_launches (x.readHeaders (maskCores (read.bytes.take 64))) q.val d (field d.raw 64 32) (maskCores (read.bytes.take 64))
    rw [launchAfter_starts ok] at row
    refine ⟨_, row, running, build, members, fun n hn => ?_, fun n w => ?_, free.credit, rings⟩
    · obtain ⟨run, lap, words, regs⟩ := launched n hn
      refine ⟨run, lap, words, fun r => ?_⟩
      rw [State.sreg, regs]
      exact regGet_nil r
    · rw [State.holder, holderOf, free.holders n]
      rfl
  · obtain ⟨y, settled, ht⟩ := launchAfter_fails (q := q.val) bad
    rw [ht] at row
    have host : y.host = s.host := by rw [settled.eq, kept]
    obtain ⟨mem, -, -, -, -, -, set, -⟩ := complete_state y q.val d (x.launchStatus (field d.raw 64 32) (maskCores (read.bytes.take 64))) 0
    refine ⟨_, row, complete_from q.val d _ _ (by rw [State.sq_congr (congrArg HostIf.sqs host)]) (congrArg HostIf.cqs host), ?_,
      complete_unloads (started_opcode first) _ _ _ _, ?_⟩
    · rw [set, settled.eq, kept]
    · rw [mem, settled.eq, kept]

end Sys2Proof.Proofs
end

section
/-!
PROOF. Transfers: a COPY and a roster's load begin, one unit served at a host opening of its Pocket ring, and the load of a ring image (R46,
R69, R289 to R291, R307, R308, Table 14-13).
-/
namespace Sys2Proof.Machine

/-! ### The units of a stage -/

/-- The pieces of a range lie in it one after another, fill it, and hold one to 64 bytes each. -/
theorem pieces_fill (fuel a len : Nat) (h : len = 0 ∨ len + a % 64 ≤ 64 * fuel) :
    ((pieces fuel a len).map (·.2)).sum = len ∧ ∀ p ∈ pieces fuel a len, a ≤ p.1 ∧ p.1 + p.2 ≤ a + len ∧ 0 < p.2 ∧ p.2 ≤ 64 := by
  induction fuel generalizing a len with
  | zero =>
    have none_ : len = 0 := by omega
    subst none_
    exact ⟨rfl, fun _ h => absurd h List.not_mem_nil⟩
  | succ k ih =>
    unfold pieces
    by_cases none_ : len = 0
    · rw [if_pos none_]
      exact ⟨none_.symm, fun _ h => absurd h List.not_mem_nil⟩
    rw [if_neg none_]
    have first : min len (64 - a % 64) ≤ len := by omega
    obtain ⟨sum, within⟩ := ih (a + min len (64 - a % 64)) (len - min len (64 - a % 64)) (by omega)
    refine ⟨?_, fun p hp => ?_⟩
    · rw [List.map_cons, List.sum_cons, sum]
      show min len (64 - a % 64) + _ = len
      omega
    · rcases List.mem_cons.mp hp with rfl | later
      · show a ≤ a ∧ a + min len (64 - a % 64) ≤ a + len ∧ 0 < min len (64 - a % 64) ∧ min len (64 - a % 64) ≤ 64
        omega
      · obtain ⟨low, high, some_, small⟩ := within p later
        omega

/-- The units of a range: their lengths add up to its length, each lies in the range at its offset, and holds
one to 64 bytes. -/
theorem hubUnits_fill (a off len : Nat) (route : Nat × Nat → List Nat) :
    ((hubUnits a off len route).map (·.len)).sum = len ∧
      ∀ u ∈ hubUnits a off len route, a ≤ u.addr ∧ u.addr + u.len ≤ a + len ∧ u.addr + off = a + u.off ∧ 0 < u.len ∧ u.len ≤ 64 ∧
        u.data = none ∧ u.route = route (u.addr, u.len) := by
  obtain ⟨sum, within⟩ := pieces_fill (len / 64 + 2) a len (by omega)
  unfold hubUnits
  refine ⟨?_, fun u hu => ?_⟩
  · rw [List.map_map]
    exact sum
  · obtain ⟨p, hp, rfl⟩ := List.mem_map.mp hu
    obtain ⟨low, high, some_, small⟩ := within p hp
    refine ⟨low, high, ?_, some_, small, rfl, rfl⟩
    show p.1 + off = a + (off + (p.1 - a))
    omega

/-- A range with bytes in it has units. -/
theorem hubUnits_some {a off len : Nat} (some_ : 0 < len) (route : Nat × Nat → List Nat) : (hubUnits a off len route).isEmpty = false := by
  rcases h : hubUnits a off len route with _ | ⟨u, r⟩
  · have sum := (hubUnits_fill a off len route).1
    rw [h] at sum
    exact absurd sum (by simpa using Nat.ne_of_lt some_)
  · rfl

/-! ### A transfer that has units left goes on waiting -/

theorem hubSettle_waits {s : State} {i : Nat} {t : Transfer} (there : s.host.transfers[i]? = some t) (judged : s.judgeTransfer t = t)
    (left : t.units.isEmpty = false) (k : Nat) : s.hubSettle (k + 1) i = s := by
  have same : s.host.transfers.set i t = s.host.transfers := by
    obtain ⟨h, rfl⟩ := List.getElem?_eq_some_iff.mp there
    exact List.set_getElem_self h
  unfold State.hubSettle
  rw [there]
  dsimp only
  rw [judged, left]
  show { s with host := { s.host with transfers := s.host.transfers.set i t } } = s
  rw [same]

/-- A transfer begins and waits for the rings of its units. -/
theorem beginTransfer_waits {s : State} {t : Transfer} (judged : ∀ x : State, x.map = s.map → x.panels = s.panels → x.cap = s.cap → x.judgeTransfer t = t)
    (left : t.units.isEmpty = false) :
    s.beginTransfer t = { s with host := { s.host with transfers := s.host.transfers ++ [t] } } := by
  refine hubSettle_waits (s := { s with host := { s.host with transfers := s.host.transfers ++ [t] } }) (i := s.host.transfers.length)
    (t := t) ?_ (judged _ rfl rfl rfl) left 3
  show (s.host.transfers ++ [t])[s.host.transfers.length]? = some t
  rw [List.getElem?_append_right (Nat.le_refl _), Nat.sub_self]
  rfl

/-- A transfer whose stage reaches host memory is served there. -/
theorem judgeTransfer_host {t : Transfer} (h : t.atHost = true) (s : State) : s.judgeTransfer t = t := if_pos h

/-- A transfer whose units all lie in Pocket memory, on routes that the map has kept, is served. -/
theorem judgeTransfer_pocket {s : State} {t : Transfer}
    (h : ∀ u ∈ t.units, ∃ n, s.place t.by u.addr = .pocket n ∧ ∀ k ∈ u.route, ringClass k = 2 → k = s.pocketRing n) : s.judgeTransfer t = t := by
  unfold State.judgeTransfer
  split
  · rfl
  have none_ : (t.units.find? fun u => (s.place t.by u.addr).status != stOk) = none := by
    rw [List.find?_eq_none]
    intro u hu
    obtain ⟨n, place, -⟩ := h u hu
    rw [place]
    exact Bool.false_ne_true
  rw [none_]
  have same : t.units.map (s.reroute t) = t.units := by
    conv_rhs => rw [← List.map_id t.units]
    refine List.map_congr_left fun u hu => ?_
    obtain ⟨n, place, route⟩ := h u hu
    unfold State.reroute
    rw [place]
    have kept : (u.route.map fun k => if ringClass k = 2 then s.pocketRing n else k) = u.route := by
      conv_rhs => rw [← List.map_id u.route]
      refine List.map_congr_left fun k hk => ?_
      split
      · exact (route k hk ‹_›).symm
      · rfl
    dsimp only
    rw [kept]
    rfl
  dsimp only
  rw [same]

theorem State.place_congr {s t : State} (map : t.map = s.map) (panels : t.panels = s.panels) (cap : t.cap = s.cap) (ag : Agent) (a : Nat) :
    t.place ag a = s.place ag a := by
  unfold State.place State.panelAnswers State.panel State.entry State.colUnreachable State.columnOf State.capBytes State.entry
  rw [map, panels, cap]

theorem State.pocketRing_congr {s t : State} (map : t.map = s.map) (n : Nat) : t.pocketRing n = s.pocketRing n := by
  unfold State.pocketRing State.logicalOf State.columnOf State.physOf State.entry
  rw [map]

end Sys2Proof.Machine
end

section
/-!
PROOF. Where COPY and LOAD_ROSTER start, and one unit served at a host opening of its Pocket ring (R46, R69, R289 to R291, R307, R308).
-/
namespace Sys2Proof.Machine

/-! ### COPY -/

/-- The transfer of a COPY with the reads of its first chunk. -/
def State.copyTransfer (s : State) (q : Nat) (d : Desc) (read : HostRead) : Transfer :=
  { d.transfer q false read none with units := s.readStage (d.transfer q false read none) }

theorem copy_begins {s : State} {q : Nat} {d : Desc} (code : d.opcode = opCopy) (still : s.moving q d = false) (host : d.srcHost = true)
    (some_ : 0 < d.copyLen) (read : HostRead) :
    s.copy q d read none = { s with host := { s.host with transfers := s.host.transfers ++ [s.copyTransfer q d read] } } := by
  have whole : s.copy q d read none = s.beginTransfer (s.copyTransfer q d read) := if_neg (by rw [still]; nofun)
  rw [whole]
  have notLoad : (s.copyTransfer q d read).loads = false := by
    show (d.opcode == opLoadRoster) = false
    rw [code]
    rfl
  refine beginTransfer_waits (fun x _ _ _ => judgeTransfer_host ?_ x) (hubUnits_some ?_ _)
  · unfold Transfer.atHost
    rw [notLoad]
    exact host
  · have size : (d.transfer q false read none).chunkEnd = min d.copyLen 65536 := by
      unfold Transfer.chunkEnd Transfer.total
      rw [show (d.transfer q false read none).loads = false from notLoad]
      show min d.copyLen (0 + 65536) = _
      rw [Nat.zero_add]
    rw [size]
    show 0 < min d.copyLen 65536 - 0
    omega

theorem copyTransfer_units {s : State} {q : Nat} {d : Desc} (code : d.opcode = opCopy) (host : d.srcHost = true) (read : HostRead) :
    ((s.copyTransfer q d read).units.map (·.len)).sum = min d.copyLen 65536 ∧
      ∀ u ∈ (s.copyTransfer q d read).units, u.route = [ringKey 3 29] ∧ u.data = none ∧ u.addr = d.copySrc + u.off ∧ u.len ≤ 64 := by
  have size : (d.transfer q false read none).chunkEnd - 0 = min d.copyLen 65536 := by
    have notLoad : (d.transfer q false read none).loads = false := by
      show (d.opcode == opLoadRoster) = false
      rw [code]
      rfl
    unfold Transfer.chunkEnd Transfer.total
    rw [notLoad]
    show min d.copyLen (0 + 65536) - 0 = _
    rw [Nat.zero_add, Nat.sub_zero]
  have units : (s.copyTransfer q d read).units = hubUnits (d.copySrc + 0) 0 (min d.copyLen 65536) fun p =>
      if d.srcHost then [ringKey 3 29] else s.readRings (d.transfer q false read none).by (s.place (d.transfer q false read none).by p.1) p.1 := by
    rw [← size]
    rfl
  obtain ⟨sum, each⟩ := hubUnits_fill (d.copySrc + 0) 0 (min d.copyLen 65536) fun p =>
      if d.srcHost then [ringKey 3 29] else s.readRings (d.transfer q false read none).by (s.place (d.transfer q false read none).by p.1) p.1
  rw [units]
  refine ⟨sum, fun u hu => ?_⟩
  obtain ⟨-, -, addr, -, small, data, route⟩ := each u hu
  refine ⟨?_, data, by omega, small⟩
  rw [route, host]
  rfl

/-! ### LOAD_ROSTER of a roster -/

/-- The transfer of a roster's load with the writes to its region. -/
def State.rosterTransfer (s : State) (q : Nat) (d : Desc) (n : Nat) (bytes : List Byte) : Transfer :=
  let t : Transfer := ⟨q, d, 0x210, false, s.regionAddr n + 64, bytes, true, none, 0, true, [], [], none⟩
  { t with units := s.writeStage t bytes }

/-- The addresses of a core's slot are its own, while it and its Panel answer. -/
theorem place_own {s : State} {n a : Nat} (small : n < 512) (there : (s.entry n).state ≠ .absent) (answers : s.panelAnswers (n / 64) = true)
    (low : n * pocketSlotBytes ≤ a) (high : a < n * pocketSlotBytes + pocketSlotBytes) (ag : Agent) : s.place ag a = .pocket n := by
  have slot : a / pocketSlotBytes = n := by
    rw [Nat.div_eq_iff (by decide)]
    have pos : 0 < pocketSlotBytes := by decide
    generalize pocketSlotBytes = b at low high pos ⊢
    omega
  have inside : a < 512 * pocketSlotBytes := by
    have := Nat.mul_le_mul_right pocketSlotBytes (show n + 1 ≤ 512 from small)
    rw [Nat.add_mul, Nat.one_mul] at this
    omega
  unfold State.place
  dsimp only
  rw [if_pos inside, slot, if_neg there, if_pos answers]

section
variable {s : State} {q n len : Nat} {d : Desc} {read : HostRead} (code : d.opcode = opLoadRoster) (small : n < 512)
  (there : (s.entry n).state ≠ .absent) (answers : s.panelAnswers (n / 64) = true) (full : len ≤ read.bytes.length)
  (room : 16 * regionFirst (s.core n).seq + 64 + len ≤ pocketSlotBytes)
include code small there answers full room

theorem rosterTransfer_units :
    ((s.rosterTransfer q d n (read.bytes.take len)).units.map (·.len)).sum = len ∧
      ∀ u ∈ (s.rosterTransfer q d n (read.bytes.take len)).units, u.addr = s.regionAddr n + 64 + u.off ∧
        s.regionAddr n + 64 ≤ u.addr ∧ u.addr + u.len ≤ s.regionAddr n + 64 + len ∧
        u.data = some (((read.bytes.take len).drop u.off).take u.len) ∧
        u.route = [ringKey 3 (s.seamPort n), seamRing (s.seamPort n) 0, s.pocketRing n] ∧ s.place .hqe u.addr = .pocket n := by
  let bytes := read.bytes.take len
  have length : bytes.length = len := by simp [bytes, full]
  let t : Transfer := ⟨q, d, 0x210, false, s.regionAddr n + 64, bytes, true, none, 0, true, [], [], none⟩
  have loads : t.loads = true := by
    show (d.opcode == opLoadRoster) = true
    rw [code]
    rfl
  have away : t.atHost = false := by
    unfold Transfer.atHost
    rw [loads]
    rfl
  let route (p : Nat × Nat) : List Nat :=
    if t.atHost then [ringKey 3 28] else s.writeRings (s.place t.by p.1) p.1 ++ s.mergeRings (s.place t.by p.1) p.1 p.2
  obtain ⟨sum, each⟩ := hubUnits_fill (s.regionAddr n + 64 + 0) 0 bytes.length route
  have units : (s.rosterTransfer q d n bytes).units = (hubUnits (s.regionAddr n + 64 + 0) 0 bytes.length route).map fun u =>
      { u with data := some ((bytes.drop (u.off - 0)).take u.len) } := rfl
  rw [units, List.map_map]
  refine ⟨length ▸ sum, fun u hu => ?_⟩
  obtain ⟨v, hv, rfl⟩ := List.mem_map.mp hu
  obtain ⟨low, high, addr, some_, -, -, path⟩ := each v hv
  have region : s.regionAddr n = n * pocketSlotBytes + 16 * regionFirst (s.core n).seq := rfl
  rw [length] at high
  have own (ag : Agent) : s.place ag v.addr = .pocket n :=
    place_own small there answers (by rw [region] at low; omega) (by rw [region] at high; omega) _
  refine ⟨by show v.addr = _ + v.off; omega, low, high, rfl, ?_, own .hqe⟩
  show v.route = _
  rw [path]
  show (if t.atHost then _ else s.writeRings (s.place t.by v.addr) v.addr ++ s.mergeRings (s.place t.by v.addr) v.addr v.len) = _
  rw [away, own]
  rfl

theorem loadRoster_begins (good : read.failed = false) (header : 16 ≤ len)
    (fits : rosterFits (s.core n).seq (parseHeader (read.bytes.take len)) len = true) :
    s.loadRoster q d n len read =
      { s with host := { s.host with transfers := s.host.transfers ++ [s.rosterTransfer q d n (read.bytes.take len)] } } := by
  have bytes : hostBytes read len = (read.bytes.take len, true) := by simp [hostBytes, good, full]
  have whole : s.loadRoster q d n len read = s.beginTransfer (s.rosterTransfer q d n (read.bytes.take len)) := by
    unfold State.loadRoster
    dsimp only
    rw [bytes]
    dsimp only
    rw [if_neg there, if_neg (by rw [fits]; simp only [Bool.not_true, Bool.false_eq_true, and_false, or_false]; omega)]
    rfl
  obtain ⟨sum, each⟩ := rosterTransfer_units (q := q) code small there answers full room
  rw [whole]
  have agent : (s.rosterTransfer q d n (read.bytes.take len)).by = .hqe := by
    refine if_pos ?_
    show (d.opcode == opLoadRoster) = true
    rw [code]
    rfl
  refine beginTransfer_waits (fun x map panels cap => judgeTransfer_pocket fun u hu => ⟨n, ?_, fun k hk two => ?_⟩) ?_
  · obtain ⟨-, -, -, -, -, place⟩ := each u hu
    rw [State.place_congr map panels cap, agent, place]
  · obtain ⟨-, -, -, -, route, -⟩ := each u hu
    rw [route] at hk
    rw [State.pocketRing_congr map]
    simp only [List.mem_cons, List.not_mem_nil, or_false] at hk
    rcases hk with rfl | rfl | rfl
    · exact absurd two (by unfold ringClass ringKey State.seamPort entryPort; omega)
    · exact absurd two (by unfold ringClass seamRing ringKey; omega)
    · rfl
  · rcases h : (s.rosterTransfer q d n (read.bytes.take len)).units with _ | ⟨u, r⟩
    · rw [h] at sum
      exact absurd sum (by simp only [List.map_nil, List.sum_nil]; omega)
    · rfl

end

end Sys2Proof.Machine
end

section
/-!
PROOF. One unit of a transfer served at a host opening of its Pocket ring, and what a COPY and a LOAD_ROSTER do (R46, R69, R289 to R291, R307,
R308, Table 14-13).
-/
namespace Sys2Proof.Machine

/-! ### LOAD_ROSTER of a ring image -/

theorem loadImage_stores {s : State} {len : Nat} {read : HostRead} (good : read.failed = false) (whole : len = read.bytes.length)
    (header : 16 ≤ len) :
    let p := parseImage (read.bytes.take len)
    len = 16 + 4 * p.count → imageValid p (s.ring (ringKey p.cls p.inst)) (s.imageRate p) (s.mappedRing p) = true → p.image.reqFl ≤ s.yoke.level →
      s.loadImage len read = (s.updRing (ringKey p.cls p.inst) fun r => r.store p.image, stOk) := by
  intro p count valid level
  have bytes : hostBytes read len = (read.bytes.take len, true) := by simp [hostBytes, good, whole]
  unfold State.loadImage
  rw [bytes]
  dsimp only
  rw [if_neg (by rintro (short | ⟨-, other⟩); exacts [by omega, other count]), if_neg (by nofun), if_neg (by rw [valid]; nofun),
    if_neg (Nat.not_lt.mpr level)]

/-- The image's variant is stored and marked as loaded. -/
theorem store_loaded (r : Ring) (i : RingImage) :
    if i.cool then (r.store i).cool = some i ∧ (r.store i).coolLoaded = true
    else (r.store i).normal = some i ∧ (r.store i).normalLoaded = true := by
  unfold Ring.store
  cases i.cool <;> exact ⟨rfl, rfl⟩

/-! ### An agent's units at an opening -/

/-- An agent without a unit that waits for the ring is served none. -/
theorem hostShare_idle {s : State} {owner : Nat} (none_ : ∀ t ∈ s.host.transfers, t.agent ≠ owner) (key left : Nat) :
    s.hostShare key owner left = (s, 0) := by
  have pending : s.hubPending key owner = 0 := by
    unfold State.hubPending
    rw [List.filter_eq_nil_iff.mpr fun t ht => by simpa using none_ t ht]
    rfl
  unfold State.hostShare
  rw [pending, Nat.min_zero]
  rfl

theorem dmaShares_without {s : State} (key left : Nat) {es : List Nat} (none_ : ∀ e ∈ es, ∀ t ∈ s.host.transfers, t.agent ≠ 0x200 + e) :
    s.dmaShares key left es = (s, 0) := by
  induction es with
  | nil => rfl
  | cons e r ih =>
    unfold State.dmaShares
    rw [hostShare_idle (none_ e List.mem_cons_self)]
    dsimp only
    rw [Nat.sub_zero, ih fun e he => none_ e (List.mem_cons_of_mem _ he)]
    rfl

section
variable {s : State} {tr : Transfer} {u : HubUnit} {key : Nat} (one : s.host.transfers = [tr]) (units : tr.units = [u])
  (head : u.route.head? = some key)
include one units head

/-- The one unit of the one transfer is served, and the transfer goes on. -/
theorem hubUnit_serves : s.hubUnit key tr.agent = (s.hubServe 0 tr u).hubSettle 4 0 := by
  have next : tr.next key = some u := by
    unfold Transfer.next
    rw [units]
    simp [head]
  have found : (s.host.transfers.zipIdx.find? fun e => e.1.agent == tr.agent && (e.1.next key).isSome) = some (tr, 0) := by
    rw [one]
    simp [next]
  unfold State.hubUnit
  rw [found]
  dsimp only
  rw [next]

theorem hostShare_serves {left : Nat} (room : 0 < left) : s.hostShare key tr.agent left = ((s.hubServe 0 tr u).hubSettle 4 0, 1) := by
  have pending : s.hubPending key tr.agent = 1 := by
    unfold State.hubPending
    rw [one]
    simp [units, head]
  unfold State.hostShare
  rw [pending, Nat.min_eq_right room]
  simp only [State.hubServes]
  rw [hubUnit_serves one units head]

/-- The engine of the one transfer is served in its turn, and no other. -/
theorem dmaShares_serves {e left : Nat} (room : 0 < left) (agent : tr.agent = 0x200 + e) {es : List Nat} (member : e ∈ es) (distinct : es.Nodup)
    (after : ∀ t ∈ ((s.hubServe 0 tr u).hubSettle 4 0).host.transfers, t.agent = tr.agent) :
    s.dmaShares key left es = ((s.hubServe 0 tr u).hubSettle 4 0, 1) := by
  induction es with
  | nil => exact absurd member List.not_mem_nil
  | cons x r ih =>
    obtain ⟨apart, rest⟩ := List.nodup_cons.mp distinct
    unfold State.dmaShares
    by_cases this : x = e
    · subst this
      have others : ∀ y ∈ r, ∀ t ∈ ((s.hubServe 0 tr u).hubSettle 4 0).host.transfers, t.agent ≠ 0x200 + y := by
        intro y hy t ht same
        rw [after t ht, agent] at same
        exact apart (by rw [show x = y by omega]; exact hy)
      rw [← agent, hostShare_serves one units head room]
      dsimp only
      rw [dmaShares_without _ _ others]
      rfl
    · rw [hostShare_idle (by rw [one]; intro t ht; rw [List.mem_singleton.mp ht, agent]; omega)]
      dsimp only
      rw [Nat.sub_zero, ih ((List.mem_cons.mp member).resolve_left fun h => this h.symm) rest]
      rfl

end

/-! ### The opening that serves the one unit of the one transfer -/

/-- A host opening of a Pocket ring, where one unit of the one transfer is all that waits. -/
theorem hostOpening_serves {s w : State} {inst : Nat} {slot : RingSlot} {tr : Transfer} {u : HubUnit}
    (at_ : s.openingAt (ringKey 2 inst) .host = some slot) (room : 0 < slot.units) (requests : s.host.requests = [])
    (fences : s.host.fences = []) (one : s.host.transfers = [tr]) (units : tr.units = [u]) (head : u.route.head? = some (ringKey 2 inst))
    (agent : if tr.loads then tr.agent = 0x210 else ∃ e, e < 8 ∧ tr.agent = 0x200 + e) (waits : s.judgeTransfer tr = tr)
    (served : (s.hubServe 0 tr u).hubSettle 4 0 = w) (after : ∀ t ∈ w.host.transfers, t.agent = tr.agent) (none_ : w.host.requests = [])
    (partials : w.host.partials = []) (clashes : (w.ring (ringKey 2 inst)).clashes = []) :
    s.hostOpening 2 inst = w.endOpening (ringKey 2 inst) .host true := by
  have settled : s.settleTransfers.settleRing (ringKey 2 inst) = s := by
    have still : s.settleTransfers = s := by
      unfold State.settleTransfers
      rw [one]
      exact hubSettle_waits (by rw [one]; rfl) waits (by rw [units]; rfl) 3
    rw [still]
    exact settleRing_openingAt at_ (by decide)
  have shares : ∃ a b : State, ∃ k l : Nat, s.hostShare (ringKey 2 inst) 0x210 slot.units = (a, k) ∧ a.host.requests = [] ∧
      a.dmaShares (ringKey 2 inst) (slot.units - (k + 0)) (List.range 8) = (w, l) ∧ k + l = 1 := by
    split at agent
    · refine ⟨w, w, 1, 0, ?_, none_, dmaShares_without _ _ fun e he t ht => ?_, rfl⟩
      · rw [← agent, hostShare_serves one units head room, served]
      · rw [after t ht, agent]
        have := List.mem_range.mp he
        omega
    · obtain ⟨e, small, engine⟩ := agent
      refine ⟨s, w, 0, 1, hostShare_idle ?_ _ _, requests, ?_, rfl⟩
      · rw [one]
        intro t ht
        rw [List.mem_singleton.mp ht, engine]
        omega
      · show s.dmaShares _ slot.units _ = _
        rw [dmaShares_serves one units head room engine (List.mem_range.mpr small) List.nodup_range (by rw [served]; exact after), served]
  obtain ⟨a, -, k, l, share, free, dma, total⟩ := shares
  have opened : s.hostOpening 2 inst = ((w.endOpening (ringKey 2 inst) .host (k + 0 + l + 0 != 0)).endPartials).fencesDone 0 := by
    unfold State.hostOpening
    dsimp only
    rw [settled, at_]
    dsimp only
    rw [share]
    dsimp only
    rw [bar4Drain_none free]
    dsimp only
    rw [dma]
    dsimp only
    rw [clashes, fences]
    simp only [State.clashShares]
    rfl
  have kept := endOpening_settle w (ringKey 2 inst) .host true
  have empty : (w.endOpening (ringKey 2 inst) .host true).endPartials = w.endOpening (ringKey 2 inst) .host true := by
    refine if_pos ?_
    rw [kept.eq]
    exact List.isEmpty_iff.mpr partials
  rw [opened, show (k + 0 + l + 0 != 0) = true by rw [show k + 0 + l + 0 = 1 by omega]; rfl, empty]
  rfl

end Sys2Proof.Machine
end

section
/-!
PROOF. What a COPY and a LOAD_ROSTER do, and the one unit that a host opening of its Pocket ring reads or writes (R46, R69, R289 to R291, R307,
R308, Table 14-13).
-/
namespace Sys2Proof.Machine

/-- An access of a column changes the columns and the log alone. -/
theorem onColumn_only (s : State) (col : Nat) (f : Column → ColSite → ColStep) :
    s.onColumn col f = { s with columns := (s.onColumn col f).columns, log := (s.onColumn col f).log } := by
  unfold State.onColumn
  dsimp only
  rw [State.fileAll_only]
  rfl

theorem complete_clashes (s : State) (q : Nat) (d : Desc) (status specific key : Nat) :
    ((s.complete q d status specific).ring key).clashes = (s.ring key).clashes := by
  obtain ⟨-, -, -, rings⟩ := postEntry_kept (s.dropDesc q d) q d status specific
  have posted : ((s.dropDesc q d).postEntry q d status specific).ring key = s.ring key := State.ring_congr rings key
  unfold State.complete
  dsimp only
  split
  · refine Eq.trans ?_ (congrArg Ring.clashes posted)
    exact mapGet_mapSnd _ (fun r : Ring => { r with normalLoaded := false, coolLoaded := false }) Ring.clashes (fun _ => rfl) _ _
  · rw [posted]

/-! ### The end of a transfer -/

/-- What the end of the one transfer leaves. -/
structure Ends (s t : State) : Prop where
  mem : t.mem = s.mem
  transfers : t.host.transfers = []
  requests : t.host.requests = s.host.requests
  partials : t.host.partials = s.host.partials
  clashes : ∀ key, (t.ring key).clashes = (s.ring key).clashes

theorem complete_ends {s : State} (transfers : s.host.transfers = []) (q : Nat) (d : Desc) (status specific : Nat) :
    Ends s (s.complete q d status specific) := by
  have posted := (complete_hostPosts s q d status specific).eq
  refine ⟨(complete_state s q d status specific).1, ?_, ?_, ?_, fun key => complete_clashes _ _ _ _ _ _⟩
  · rw [posted]
    exact transfers
  · rw [posted]
  · rw [posted]

section
variable {s : State} {t : Transfer} (one : s.host.transfers = [t])
include one

/-- The last unit of a COPY: its engine is free, and its descriptor completes. -/
theorem hubEnd_copy (copies : t.loads = false) (known : t.orphan = false) (count : Nat) :
    Ends s (s.hubEnd 0 t stOk count) ∧ (∀ r : State, r.host.sqs = s.host.sqs → r.host.cqs = s.host.cqs →
      Completes r (s.hubEnd 0 t stOk count) t.q t.desc 0 count) ∧ bit (s.hubEnd 0 t stOk count).host.busy (t.agent - 0x200) = false := by
  let x : State := { s with host := { s.host with transfers := [], busy := putBit s.host.busy (t.agent - 0x200) false } }
  have whole : s.hubEnd 0 t stOk count = x.complete t.q t.desc stOk count := by
    have gone : s.host.transfers.eraseIdx 0 = [] := by rw [one]; rfl
    unfold State.hubEnd
    dsimp only [State.updHost]
    rw [copies, known, gone]
    rfl
  have ended : Ends x (x.complete t.q t.desc stOk count) := complete_ends rfl _ _ _ _
  rw [whole]
  refine ⟨⟨ended.mem, ended.transfers, ended.requests, ended.partials, ended.clashes⟩, fun r sqs cqs => ?_, ?_⟩
  · exact complete_from _ _ _ _ (congrArg Sq.cq (State.sq_congr (s := r) (t := x) sqs.symm _)) cqs.symm
  · rw [(complete_hostPosts x t.q t.desc stOk count).eq]
    exact (bit_putBit_false _ _ _).trans (by simp)

/-- The last unit of a roster's load: its header is checked, and its descriptor completes. -/
theorem hubEnd_load (loads : t.loads = true) (count : Nat) :
    Ends s (s.hubEnd 0 t stOk count) ∧ (t.whole = true →
      (∀ r : State, r.host.sqs = s.host.sqs → r.host.cqs = s.host.cqs → Completes r (s.hubEnd 0 t stOk count) t.q t.desc
        (s.headerStatus (parseHeader t.read) (t.desc.get 176 9)) 0) ∧
      (s.headerStatus (parseHeader t.read) (t.desc.get 176 9) = 0 → t.desc.get 176 9 ∉ (s.hubEnd 0 t stOk count).badRosters)) := by
  let n := t.desc.get 176 9
  let x : State := { s with host := { s.host with transfers := [] } }
  have code : t.desc.opcode = opLoadRoster := by
    have h : (t.desc.opcode == opLoadRoster) = true := loads
    exact eq_of_beq h
  have other : t.desc.opcode ≠ opLaunch := by rw [code]; decide
  have whole : s.hubEnd 0 t stOk count = (x.rosterStored t stOk).1.complete t.q t.desc (x.rosterStored t stOk).2 0 := by
    have gone : s.host.transfers.eraseIdx 0 = [] := by rw [one]; rfl
    unfold State.hubEnd
    dsimp only [State.updHost]
    rw [loads, gone]
    rfl
  have stored : (x.rosterStored t stOk).1 = { x with badRosters := (x.rosterStored t stOk).1.badRosters } := by
    unfold State.rosterStored
    dsimp only
    rw [if_neg (by decide)]
    split
    · rfl
    · dsimp only
      split <;> rfl
  have ended : Ends (x.rosterStored t stOk).1 (s.hubEnd 0 t stOk count) := by
    rw [whole]
    refine complete_ends ?_ _ _ _ _
    rw [stored]
  refine ⟨⟨?_, ended.transfers, ?_, ?_, fun key => ?_⟩, fun full => ?_⟩
  · rw [ended.mem, stored]
  · rw [ended.requests, stored]
  · rw [ended.partials, stored]
  · rw [ended.clashes, stored]
    rfl
  have result : x.rosterStored t stOk = (if s.headerStatus (parseHeader t.read) n = stOk then x.markRoster n false else x,
      s.headerStatus (parseHeader t.read) n) := by
    unfold State.rosterStored
    dsimp only
    rw [if_neg (by decide), full]
    rfl
  refine ⟨fun r sqs cqs => ?_, fun ok => ?_⟩
  · rw [whole, stored, result]
    exact complete_from _ _ _ _ (congrArg Sq.cq (State.sq_congr (s := r) sqs.symm _)) cqs.symm
  · rw [whole, complete_only other, result]
    show n ∉ State.badRosters (if s.headerStatus (parseHeader t.read) n = stOk then x.markRoster n false else x)
    rw [if_pos (show s.headerStatus (parseHeader t.read) n = stOk from ok)]
    show n ∉ x.badRosters.filter (· != n)
    simp

end

/-! ### The one unit read, and the one unit written -/

section
variable {s : State} {tr : Transfer} {u : HubUnit} {n : Nat} (one : s.host.transfers = [tr]) (units : tr.units = [u])
  (partials : s.host.partials = []) (away : tr.atHost = false) (place : s.place tr.by u.addr = .pocket n)
include one units away place

/-- The one unit reads its bytes and goes on to its next ring. -/
theorem hubServe_reads {rest : List Nat} (reading : tr.writing = false) (fresh : u.data = none) (route : u.route.tail = rest) (further : rest ≠ [])
    (away_ : ∀ k ∈ rest, ringClass k ≠ 2) (readable : (s.column (s.columnOf n)).readable (wordOf u.addr) = true) :
    ∃ c : State, (s.hubServe 0 tr u).hubSettle 4 0 = c ∧ c.mem = s.mem ∧ c.rings = s.rings ∧ c.host = { s.host with
      transfers := [{ tr with units := [{ u with route := rest, data := some (memRead s.mem u.addr u.len) }] }] } := by
  let c := s.onColumn (s.columnOf n) fun c x => c.read x (wordOf u.addr) tr.by.reader
  let v : HubUnit := { u with route := rest, data := some (memRead s.mem u.addr u.len) }
  let t : Transfer := { tr with units := [v] }
  have only : c = { s with columns := c.columns, log := c.log } := onColumn_only _ _ _
  have read : s.hubRead tr u = ⟨c, stOk, memRead s.mem u.addr u.len⟩ := by
    unfold State.hubRead
    rw [if_neg (by rw [away]; nofun)]
    unfold State.readUnit
    rw [place]
    dsimp only
    rw [if_pos readable]
  have put : tr.put v = t := by
    show { tr with units := tr.units.map fun x => if x.off = v.off then v else x } = t
    have own : (tr.units.map fun x => if x.off = v.off then v else x) = [v] := by rw [units]; exact congrArg (· :: []) (if_pos rfl)
    rw [own]
  have served : s.hubServe 0 tr u = { c with host := { s.host with transfers := [t] } } := by
    have moved : c.host.transfers.set 0 t = [t] := by rw [only]; show s.host.transfers.set 0 t = [t]; rw [one]; rfl
    unfold State.hubServe
    dsimp only
    rw [reading, fresh, if_neg Bool.false_ne_true]
    dsimp only
    rw [read, route]
    dsimp only
    rw [if_neg (by decide), if_neg further]
    show c.setTransfer 0 (tr.put v) = _
    rw [put]
    show { c with host := { c.host with transfers := c.host.transfers.set 0 t } } = _
    rw [moved, only]
  have waits : State.judgeTransfer { c with host := { s.host with transfers := [t] } } t = t := by
    refine judgeTransfer_pocket fun x hx => ⟨n, ?_, fun k hk two => ?_⟩
    · rw [List.mem_singleton.mp hx, State.place_congr (s := s) (by rw [only]) (by rw [only]) (by rw [only])]
      exact place
    · rw [List.mem_singleton.mp hx] at hk
      exact absurd two (away_ k hk)
  refine ⟨_, rfl, ?_⟩
  rw [served, hubSettle_waits (t := t) rfl waits rfl 3, only]
  exact ⟨rfl, rfl, rfl⟩

include partials in
/-- The one unit writes its bytes, and its transfer ends. -/
theorem hubServe_writes {bs : List Byte} (writing : tr.writing = true) (data : u.data = some bs) (full : bs.length = 64)
    (route : u.route.tail = []) (good : tr.fail = none) (last : tr.total ≤ tr.chunkEnd) :
    ∃ c : State, (s.hubServe 0 tr u).hubSettle 4 0 = c.hubEnd 0 (tr.leave u) stOk tr.total ∧ c.mem = memWrite s.mem u.addr bs ∧
      c.rings = s.rings ∧ c.cores = s.cores ∧ c.yoke = s.yoke ∧ c.host = { s.host with transfers := [tr.leave u] } := by
  let c := s.onColumn (s.columnOf n) fun c x => c.write x (wordOf u.addr) (u.addr % 64) bs.length
  have only : c = { s with columns := c.columns, log := c.log } := onColumn_only _ _ _
  let x : State := { c with mem := memWrite s.mem u.addr bs, host := { s.host with transfers := [tr.leave u] } }
  have gone : (tr.leave u).units = [] := by
    show tr.units.filter (fun x => x.off != u.off) = []
    rw [units]
    simp
  have pocket : s.writePocket tr.by n u.addr bs = { c with mem := memWrite s.mem u.addr bs } := by
    unfold State.writePocket
    dsimp only
    rw [if_pos (by rw [full]; rfl)]
    show { c with mem := memWrite c.mem u.addr bs } = _
    rw [only]
  have write : s.hubWrite tr u bs = ({ c with mem := memWrite s.mem u.addr bs }, stOk, bs.length) := by
    unfold State.hubWrite
    rw [if_neg (by rw [away]; nofun)]
    unfold State.writeUnit
    rw [place]
    dsimp only
    rw [pocket]
    rfl
  have served : s.hubServe 0 tr u = x := by
    have moved : c.host.transfers.set 0 (tr.leave u) = [tr.leave u] := by
      rw [only]
      show s.host.transfers.set 0 _ = _
      rw [one]
      rfl
    unfold State.hubServe
    dsimp only
    rw [writing, if_pos rfl, route, if_pos rfl, data]
    show (State.setTransfer (s.hubWrite tr u bs).1 0 (if (s.hubWrite tr u bs).2.1 = stOk then tr.leave u else _)) = x
    rw [write]
    show { c with mem := memWrite s.mem u.addr bs, host := { c.host with transfers := c.host.transfers.set 0 (tr.leave u) } } = x
    rw [moved]
    show ({ c with mem := memWrite s.mem u.addr bs, host := { c.host with transfers := [tr.leave u] } } : State) = x
    have host : c.host = s.host := by rw [only]
    rw [host]
  have judged : x.judgeTransfer (tr.leave u) = tr.leave u := judgeTransfer_pocket (by rw [gone]; exact fun _ h => absurd h List.not_mem_nil)
  have ends : x.hubSettle 4 0 = x.hubEnd 0 (tr.leave u) stOk tr.total := by
    have quiet : (!(tr.leave u).units.isEmpty || x.host.partials.any fun w => !w.bar4 && w.owner == (tr.leave u).agent) = false := by
      rw [gone]
      show (false || s.host.partials.any _) = false
      rw [partials]
      rfl
    unfold State.hubSettle
    rw [show x.host.transfers[0]? = some (tr.leave u) from rfl]
    dsimp only
    rw [judged, quiet, show (tr.leave u).writing = true from writing, show (tr.leave u).fail = none from good]
    exact if_pos last
  refine ⟨x, by rw [served, ends], rfl, ?_, ?_, ?_, rfl⟩
  · show c.rings = s.rings
    rw [only]
  · show c.cores = s.cores
    rw [only]
  · show c.yoke = s.yoke
    rw [only]

end

end Sys2Proof.Machine

namespace Sys2Proof.Proofs
open Sys2Proof Sys2Proof.Machine

/-- Settles O47: a transfer begins with the units of its stage, and the opening that serves its last one ends it. -/
theorem dataReachesDevice : Obligations.DataReachesDevice := by
  intro q index d s read up
  dsimp only
  refine ⟨fun first host some_ => ?_, fun first turn still => ⟨fun running => ?_, fun idle roster there answers good full header fits room => ?_,
    fun idle image good whole header count opened valid level => ?_⟩, fun inst n slot tr u at_ room requests partials clashes fences one units
    known good away len aligned place key agent => ?_⟩
  · have code : d.opcode = opCopy := startedThat_opcode first
    have still : s.moving q.val d = false := by
      have found := List.find?_some first
      simp only [Bool.and_eq_true, Bool.not_eq_true'] at found
      exact found.2
    have known : ∃ x, s.started q index opCopy = some x := by
      have found := List.find?_some first
      simp only [Bool.and_eq_true] at found
      have some_ : (s.started q index opCopy).isSome = true :=
        List.find?_isSome.mpr ⟨d, List.mem_of_find?_eq_some first, by
          simp only [Bool.and_eq_true]
          exact found.1⟩
      exact Option.isSome_iff_exists.mp some_
    obtain ⟨x, known⟩ := known
    have row : exec (.copy q index read none) s = .next (s.copy q.val d read none) := by
      refine congrArg Host.Outcome.next ?_
      rw [known]
      exact isUp_onStartedThat up first _
    obtain ⟨sum, each⟩ := copyTransfer_units (s := s) (q := q.val) code host read
    exact ⟨_, row.trans (congrArg Host.Outcome.next (copy_begins code still host some_ read)), rfl, rfl, rfl, rfl, rfl, rfl, rfl, sum, each⟩
  · have row : exec (.loadRoster q index read) s = .next (s.complete q.val d stSetActive 0) := by
      refine congrArg Host.Outcome.next ((isUp_onStarted up first _).trans ?_)
      unfold State.load
      dsimp only
      rw [turn, still, running]
      rfl
    exact ⟨_, row, complete_completes _ _ _ _ _, (complete_state _ _ _ _ _).1⟩
  · have code : d.opcode = opLoadRoster := started_opcode first
    have small : d.get 176 9 < 512 := (field d.raw 176 9).isLt
    have row : exec (.loadRoster q index read) s = .next (s.loadRoster q.val d (d.get 176 9) (d.get 128 32) read) := by
      refine congrArg Host.Outcome.next ((isUp_onStarted up first _).trans ?_)
      unfold State.load
      dsimp only
      rw [turn, still, idle, roster]
      rfl
    obtain ⟨sum, each⟩ := rosterTransfer_units (q := q.val) code small there answers full room
    refine ⟨_, row.trans (congrArg Host.Outcome.next (loadRoster_begins code small there answers full room good header fits)),
      rfl, rfl, rfl, rfl, rfl, sum, fun u hu => ?_⟩
    obtain ⟨addr, -, -, data, route, -⟩ := each u hu
    exact ⟨addr, data, route⟩
  · have code : d.opcode = opLoadRoster := started_opcode first
    have bytes : read.bytes.take (d.get 128 32) = read.bytes := List.take_of_length_le (by omega)
    have ready : s.imageWaits read = false := by
      unfold State.imageWaits
      dsimp only
      rw [bytes] at opened
      rw [opened]
      rfl
    have stored := loadImage_stores good whole header count valid level
    have row : exec (.loadRoster q index read) s = .next ((s.loadImage (d.get 128 32) read).1.complete q.val d
        (s.loadImage (d.get 128 32) read).2 0) := by
      refine congrArg Host.Outcome.next ((isUp_onStarted up first _).trans ?_)
      unfold State.load
      dsimp only
      rw [turn, still, idle, image, ready]
      rfl
    refine ⟨_, row, ?_, ?_⟩
    · rw [stored]
      exact complete_from _ _ _ _ rfl rfl
    · rw [stored, complete_only (by rw [code]; decide)]
      let p := parseImage (read.bytes.take (d.get 128 32))
      have ring : (s.updRing (ringKey p.cls p.inst) fun r => r.store p.image).ring (ringKey p.cls p.inst) =
          (s.ring (ringKey p.cls p.inst)).store p.image := (State.ring_setRing _ _ _ _).trans (if_pos rfl)
      show if p.image.cool then ((s.updRing (ringKey p.cls p.inst) fun r => r.store p.image).ring (ringKey p.cls p.inst)).cool = _ ∧
          ((s.updRing (ringKey p.cls p.inst) fun r => r.store p.image).ring (ringKey p.cls p.inst)).coolLoaded = _
        else ((s.updRing (ringKey p.cls p.inst) fun r => r.store p.image).ring (ringKey p.cls p.inst)).normal = _ ∧
          ((s.updRing (ringKey p.cls p.inst) fun r => r.store p.image).ring (ringKey p.cls p.inst)).normalLoaded = _
      rw [ring]
      exact store_loaded _ _
  · have waits (route : ∀ k ∈ u.route, ringClass k = 2 → k = s.pocketRing n) : s.judgeTransfer tr = tr :=
      judgeTransfer_pocket fun x hx => by
        rw [units, List.mem_singleton] at hx
        subst hx
        exact ⟨n, place, route⟩
    refine ⟨fun port reading fresh route readable => ?_, fun bs writing data size route last => ?_⟩
    · have elsewhere : ∀ k ∈ [seamRing port 1, ringKey 3 29], ringClass k ≠ 2 := by
        intro k hk
        simp only [List.mem_cons, List.not_mem_nil, or_false] at hk
        rcases hk with rfl | rfl
        · unfold ringClass seamRing ringKey
          omega
        · decide
      obtain ⟨c, served, mem, rings, left⟩ := hubServe_reads one units away place reading fresh (congrArg List.tail route) (by nofun) elsewhere readable
      have still : s.judgeTransfer tr = tr := waits fun k hk two => by
        rw [route] at hk
        rcases List.mem_cons.mp hk with rfl | later
        · exact key
        · exact absurd two (elsewhere k later)
      have opening := hostOpening_serves (w := c) at_ room requests fences one units (by rw [route]; rfl) agent still served
        (by rw [left]; intro t ht; rw [List.mem_singleton.mp ht]) (by rw [left]; exact requests) (by rw [left]; exact partials)
        (by rw [State.ring_congr rings]; exact clashes)
      have kept := endOpening_settle c (ringKey 2 inst) .host true
      refine ⟨_, congrArg Host.Outcome.next opening, ?_, ?_⟩
      · rw [kept.eq, ← mem]
      · rw [kept.eq]
        show c.host.transfers = _
        rw [left, len]
        rfl
    · obtain ⟨c, served, mem, rings, cores, yoke, left⟩ :=
        hubServe_writes one units partials away place writing data size (congrArg List.tail route) good last
      have still : s.judgeTransfer tr = tr := waits fun k hk _ => by
        rw [route] at hk
        rw [List.mem_singleton.mp hk]
        exact key
      have queued : c.host.transfers = [tr.leave u] := by rw [left]
      have ended : Ends c (c.hubEnd 0 (tr.leave u) stOk tr.total) := by
        by_cases loads : tr.loads = true
        · exact (hubEnd_load queued loads _).1
        · exact (hubEnd_copy queued (Bool.eq_false_iff.mpr loads) known _).1
      have opening := hostOpening_serves at_ room requests fences one units (by rw [route]; rfl) agent still served
        (by rw [ended.transfers]; exact fun _ h => absurd h List.not_mem_nil) (by rw [ended.requests, left]; exact requests)
        (by rw [ended.partials, left]; exact partials) (by rw [ended.clashes, State.ring_congr rings]; exact clashes)
      have kept := endOpening_settle (c.hubEnd 0 (tr.leave u) stOk tr.total) (ringKey 2 inst) .host true
      generalize hw : c.hubEnd 0 (tr.leave u) stOk tr.total = w at *
      have stored : w.mem = memWrite s.mem u.addr bs := ended.mem.trans mem
      refine ⟨_, congrArg Host.Outcome.next opening, ?_, ?_, fun a out => ?_, fun copies _ => ?_, fun loads full => ?_⟩
      · rw [kept.eq]
        show memRead w.mem u.addr 64 = bs
        rw [stored, ← size]
        exact memRead_memWrite _ _ _
      · rw [kept.eq]
        exact ended.transfers
      · rw [kept.eq]
        show memGet w.mem a = _
        rw [stored]
        exact memGet_memWrite_out _ _ _ _ (by rw [size]; exact out)
      · obtain ⟨-, completes, free⟩ := hubEnd_copy queued copies known tr.total
        rw [hw] at completes free
        refine ⟨(completes s (by rw [left]) (by rw [left])).congr rfl rfl ?_ ?_ ?_, ?_⟩ <;> rw [kept.eq]
        exact free
      · obtain ⟨-, completes⟩ := hubEnd_load queued loads tr.total
        obtain ⟨completes, known⟩ := completes full
        rw [hw] at completes known
        have status : c.headerStatus (parseHeader (tr.leave u).read) ((tr.leave u).desc.get 176 9) =
            s.headerStatus (parseHeader tr.read) (tr.desc.get 176 9) := by
          unfold State.headerStatus State.core
          rw [cores, yoke]
          rfl
        rw [status] at completes known
        refine ⟨(completes s (by rw [left]) (by rw [left])).congr rfl rfl ?_ ?_ ?_, fun ok => ?_⟩ <;> rw [kept.eq]
        exact known ok

end Sys2Proof.Proofs
end

section
/-!
PROOF. A slot of the Cuff bus that ends with its last unit, while the ring heads back to its open image (R42, R272, R275).
-/
namespace Sys2Proof.Proofs
open Sys2Proof Sys2Proof.Machine

/-- A near-memory command of core 0 on one row, and a result of it. -/
def lastCommand : NearCommand := ⟨0, 0, 7, capBase, leBytes 64 (2 ^ 248 + 2 ^ 240 + 2 ^ 232)⟩
def lastResult : NearUnit := ⟨.result [0], ⟨ringKey 5 20, capBase + 4160, 64, 0, []⟩⟩

/-- The last unit that a command has for the Cuff bus, in the one slot that it counts there. -/
def lastBusUnit : TurnWork := ⟨0, 1, 0, 7, 1, 1, false⟩

/-- The Cuff bus in a slot of Cuff 1 of three units, on its way to its open image. -/
def closingBus : Ring :=
  { Ring.reset with normal := some ⟨0, 1, 1, true, false, [⟨.owner, 0x221, 3⟩, ⟨.host, 0, 2⟩]⟩, normalLoaded := true, use := .normal, toOpen := true }

/-- A started module whose Cuff 1 has that unit left. -/
def closingState : State :=
  { State.reset with
    power := { Power.reset with jIn := true, stage := true, step := 10, ready := true, everReady := true },
    cap := { CapTier.reset with populatedMib := 1523712 },
    cuffs := [(1, { State.reset.cuff 1 with running := some ⟨lastCommand, [lastResult]⟩, busTurns := [lastBusUnit] })],
    rings := [(ringKey 6 0, closingBus)] }

theorem closingState_ends : ((closingState.busTransfer 1 0).ring (ringKey 6 0)).used = 0 := by
  decide +kernel

/-- Refutes O39, in its last part: a unit sent while the ring heads back to its open image leaves its Cuff nothing to present, and the slot
ends by itself within the same command: no unit of it counts as used. -/
theorem not_nearMemoryCommands : ¬ Obligations.NearMemoryCommands := by
  unfold Obligations.NearMemoryCommands
  intro h
  obtain ⟨-, -, bus⟩ := h 1 closingState (by decide +kernel) (by decide +kernel) (by decide +kernel)
  obtain ⟨t, ht, -, used, -⟩ := bus ⟨.owner, 0x221, 3⟩ 0 lastBusUnit [] (by decide +kernel) rfl rfl rfl (by decide)
  have next : exec (.cuffBusTransfer 1 0) closingState = .next (closingState.busTransfer 1 0) := rfl
  rw [next] at ht
  injection ht with ht
  rw [← ht, closingState_ends] at used
  exact absurd used (by decide)

end Sys2Proof.Proofs
end

section
/-!
PROOF. One unit of an operation as the move engine serves it (R46, R76, R84, R273): what it stores, carries and keeps.
-/
namespace Sys2Proof.Machine

/-! ### The scratchpad's bytes in two views of one core -/

/-- Two views of a core of the same number whose memory and scratchpad parity agree. -/
structure SameBytes (l m : Local) : Prop where
  number : m.env.n = l.env.n
  mem : m.mem = l.mem
  parity : m.core.scr.badParity = l.core.scr.badParity

theorem ReadKeeps.sameBytes {l m : Local} (h : ReadKeeps l m) : SameBytes l m :=
  ⟨by rw [h.env], h.mem, by rw [h.core]⟩

theorem SameBytes.streamBytes {l m : Local} (h : SameBytes l m) (fuel : Nat) (p : Pattern) (off len : Nat) :
    m.streamBytes fuel p off len = l.streamBytes fuel p off len := by
  induction fuel generalizing off len with
  | zero => rfl
  | succ k ih =>
    unfold Local.streamBytes Local.scr
    simp only [ih, h.number, h.mem, h.parity]

/-- What is placed does not depend on whether it is marked as bad. -/
theorem placeBytes_mem {l m : Local} (number : m.env.n = l.env.n) (mem : m.mem = l.mem) (fuel : Nat) (p : Pattern) (off : Nat) (bytes : List Byte)
    (bad bad' : Bool) : (m.placeBytes fuel p off bytes bad).mem = (l.placeBytes fuel p off bytes bad').mem := by
  induction fuel generalizing l m off bytes with
  | zero => exact mem
  | succ k ih =>
    unfold Local.placeBytes
    dsimp only
    split
    · exact mem
    · refine ih ?_ ?_ _ _
      · exact number
      · show memWrite m.mem (scratchAddr m.env.n _) _ = memWrite l.mem (scratchAddr l.env.n _) _
        rw [number, mem]

theorem addElems_mem {l m : Local} (mem : m.mem = l.mem) (f : Format) (addr : Nat) (addends : List Nat) :
    (m.addElems f addr addends).mem = (l.addElems f addr addends).mem := by
  induction addends generalizing l m addr with
  | nil => exact mem
  | cons a r ih =>
    unfold Local.addElems
    dsimp only
    refine ih ?_ _
    show memWrite m.mem addr _ = memWrite l.mem addr _
    rw [mem]

/-! ### What the service of a unit leaves -/

/-- A view of a core whose registers, ATTENTION queue and surroundings are those of another. -/
structure UnitServed (l m : Local) : Prop where
  env : m.env = l.env
  regs : m.core.seq.regs = l.core.seq.regs
  att : m.core.att = l.core.att

namespace UnitServed

theorem refl (l : Local) : UnitServed l l := ⟨rfl, rfl, rfl⟩

theorem trans {l m k : Local} (h : UnitServed l m) (g : UnitServed m k) : UnitServed l k :=
  ⟨g.env.trans h.env, g.regs.trans h.regs, g.att.trans h.att⟩

/-- The last step first, for steps whose start is known from it alone. -/
theorem after {l m k : Local} (g : UnitServed m k) (h : UnitServed l m) : UnitServed l k := h.trans g

theorem reads {l m : Local} (h : ReadKeeps l m) : UnitServed l m := ⟨h.env, by rw [h.core], by rw [h.core]⟩

theorem setMove (l : Local) (i : Nat) (f : MoveOp → MoveOp) : UnitServed l (l.setMove i f) := ⟨rfl, rfl, rfl⟩

theorem placeBytes (fuel : Nat) (l : Local) (p : Pattern) (off : Nat) (bytes : List Byte) (bad : Bool) :
    UnitServed l (l.placeBytes fuel p off bytes bad) := by
  induction fuel generalizing l off bytes with
  | zero => exact refl l
  | succ k ih =>
    unfold Local.placeBytes
    dsimp only
    split
    · exact refl l
    · exact (ih _ _ _).after ⟨rfl, rfl, rfl⟩

theorem addElems (l : Local) (f : Format) (addr : Nat) (addends : List Nat) : UnitServed l (l.addElems f addr addends) := by
  induction addends generalizing l addr with
  | nil => exact refl l
  | cons a r ih =>
    unfold Local.addElems
    dsimp only
    exact (ih _ _).after ⟨rfl, rfl, rfl⟩

end UnitServed

/-- The MOVE queue after one of its operations has changed. -/
theorem setMove_moveQ (l : Local) (i : Nat) (f : MoveOp → MoveOp) : (l.setMove i f).core.moveQ = l.core.moveQ.modify i f := modifyNth_eq _ _ _

theorem placeBytes_moveQ (fuel : Nat) (l : Local) (p : Pattern) (off : Nat) (bytes : List Byte) (bad : Bool) :
    (l.placeBytes fuel p off bytes bad).core.moveQ = l.core.moveQ := by
  induction fuel generalizing l off bytes with
  | zero => rfl
  | succ k ih =>
    unfold Local.placeBytes
    dsimp only
    split
    · rfl
    · exact ih _ _ _

theorem addElems_moveQ (l : Local) (f : Format) (addr : Nat) (addends : List Nat) : (l.addElems f addr addends).core.moveQ = l.core.moveQ := by
  induction addends generalizing l addr with
  | nil => rfl
  | cons a r ih =>
    unfold Local.addElems
    dsimp only
    exact ih _ _

/-- An operation after a unit of it has been served: it goes on, and has not been halted. -/
def MoveOp.goesOn (o : Option MoveOp) : Prop := (o.map (·.halted)).getD false = false

/-- An operation whose unit carries its bytes on, with units left. -/
structure MoveOp.Carries (o x : MoveOp) (off : Nat) (bs : List Byte) : Prop where
  op : x.op = o.op
  word : x.word = o.word
  left : x.units ≠ []
  data : ∃ bad, (off, bs, bad) ∈ x.data

theorem replaceUnit_some {us : List MemUnit} {u : MemUnit} (h : u ∈ us) (v : MemUnit) : replaceUnit us u (some v) ≠ [] := by
  cases us with
  | nil => exact absurd h List.not_mem_nil
  | cons x r =>
    unfold replaceUnit
    split <;> nofun

theorem mem_data_of_find {o : MoveOp} {off : Nat} {e : Nat × List Byte × Bool} (h : (o.data.find? fun e => e.1 == off) = some e) :
    (off, e.2.1, e.2.2) ∈ o.data := by
  have same : e.1 = off := by simpa using List.find?_some h
  rw [← same]
  exact List.mem_of_find?_eq_some h

/-! ### The operation that a ring serves -/

theorem nextMove_at {q : List MoveOp} {ring i : Nat} {o : MoveOp} (h : nextMove q ring = some (i, o)) : q[i]? = some o := by
  obtain ⟨e, found, same⟩ := Option.map_eq_some_iff.mp h
  obtain ⟨rfl, rfl⟩ : e.2 = i ∧ e.1 = o := Prod.mk.inj same
  have member := List.mem_of_find?_eq_some found
  exact List.mem_zipIdx_iff_getElem?.mp member

section
variable {l : Local} {key i : Nat} {o : MoveOp} {u : MemUnit} (next : nextMove l.core.moveQ key = some (i, o)) (runs : o.halted = false)
  (first : (o.units.find? fun x => unitRing o.op x == key) = some u)
include next runs first

theorem moveServe_unit (own : isRemote o.op = false) : l.moveServe key = l.serveUnit i o u := by
  unfold Local.moveServe
  rw [next]
  dsimp only
  rw [own, runs, if_neg Bool.false_ne_true, if_neg Bool.false_ne_true, first]

end

/-! ### Stores -/

section
variable {l : Local} {i : Nat} {o : MoveOp} {u : MemUnit}

/-- The bytes that a store's unit carries, or takes as the first ring serves it. -/
def Local.unitBytes (l : Local) (o : MoveOp) (u : MemUnit) : List Byte :=
  ((o.data.find? fun e => e.1 == u.off).map (·.2.1)).getD (l.storeBytes o u).2.1

theorem unitBytes_carried {e : Nat × List Byte × Bool} (h : (o.data.find? fun e => e.1 == u.off) = some e) : l.unitBytes o u = e.2.1 := by
  unfold Local.unitBytes
  rw [h]
  rfl

theorem unitBytes_fresh (h : (o.data.find? fun e => e.1 == u.off) = none) : l.unitBytes o u = (l.storeBytes o u).2.1 := by
  unfold Local.unitBytes
  rw [h]
  rfl

theorem storeBytes_reads (l : Local) (o : MoveOp) (u : MemUnit) : ReadKeeps l (l.storeBytes o u).1 := by
  unfold Local.storeBytes
  split
  · exact cross_reads _ _ _
  · exact cross_reads _ _ _
  · exact .refl l

/-- A unit of a store that carries its bytes. -/
theorem serveStore_carried {e : Nat × List Byte × Bool} (found : (o.data.find? fun e => e.1 == u.off) = some e) :
    (u.route = [] → l.serveStore i o u = l.storeUnit i o u e.2.1) ∧
      ∀ k r, u.route = k :: r → l.serveStore i o u = l.setMove i (crossUnit u (some { u with route := r }) k) := by
  unfold Local.serveStore
  rw [found]
  refine ⟨fun route => ?_, fun k r route => ?_⟩ <;> (dsimp only; rw [route])

/-- A unit of a store that takes its bytes, and none of them in error. -/
theorem serveStore_fresh (found : (o.data.find? fun e => e.1 == u.off) = none) (right : (l.storeBytes o u).2.2 = []) :
    (u.route = [] → l.serveStore i o u = (l.storeBytes o u).1.storeUnit i o u (l.storeBytes o u).2.1) ∧
      ∀ k r, u.route = k :: r → l.serveStore i o u = (l.storeBytes o u).1.setMove i fun x =>
        crossUnit u (some { u with route := r }) k { x with data := x.data ++ [(u.off, (l.storeBytes o u).2.1, false)] } := by
  unfold Local.serveStore
  rw [found]
  dsimp only
  rw [right]
  refine ⟨fun route => ?_, fun k r route => ?_⟩ <;> (rw [route]; exact if_neg Bool.false_ne_true)

/-- A unit of a store whose bytes are right reaches its memory, or crosses a ring of its route with them. -/
theorem serveStore_takes (good : (o.data.find? fun e => e.1 == u.off).isSome = true ∨ (l.storeBytes o u).2.2 = []) (member : u ∈ o.units) :
    ∃ x, ReadKeeps l x ∧ (u.route = [] → l.serveStore i o u = x.storeUnit i o u (l.unitBytes o u)) ∧
      (u.route ≠ [] → ∃ f, l.serveStore i o u = x.setMove i f ∧ (f o).halted = o.halted ∧ o.Carries (f o) u.off (l.unitBytes o u)) := by
  cases found : o.data.find? fun e => e.1 == u.off with
  | none =>
    have right : (l.storeBytes o u).2.2 = [] := good.resolve_left (by rw [found]; exact Bool.false_ne_true)
    obtain ⟨ends, crosses⟩ := serveStore_fresh (i := i) found right
    rw [unitBytes_fresh found]
    refine ⟨_, storeBytes_reads l o u, ends, fun route => ?_⟩
    obtain ⟨k, r, route⟩ := List.exists_cons_of_ne_nil route
    exact ⟨_, crosses k r route, rfl, rfl, rfl, replaceUnit_some member _, false, List.mem_append_right _ (List.mem_singleton.mpr rfl)⟩
  | some e =>
    obtain ⟨ends, crosses⟩ := serveStore_carried (l := l) (i := i) found
    rw [unitBytes_carried found]
    refine ⟨l, .refl l, ends, fun route => ?_⟩
    obtain ⟨k, r, route⟩ := List.exists_cons_of_ne_nil route
    exact ⟨_, crosses k r route, rfl, rfl, rfl, replaceUnit_some member _, _, mem_data_of_find found⟩

theorem storeUnit_served (l : Local) (i : Nat) (o : MoveOp) (u : MemUnit) (bs : List Byte) :
    UnitServed l (l.storeUnit i o u bs) ∧ (l.storeUnit i o u bs).core.moveQ = l.core.moveQ.modify i (dropUnit u) := by
  unfold Local.storeUnit
  dsimp only
  split
  · rw [setMove_moveQ]
    split
    · exact ⟨.setMove _ _ _, rfl⟩
    · exact ⟨(UnitServed.addElems _ _ _ _).trans (.setMove _ _ _), by rw [addElems_moveQ]⟩
  · rw [setMove_moveQ]
    exact ⟨⟨rfl, rfl, rfl⟩, rfl⟩

end

/-! ### Loads -/

section
variable {l : Local} {i : Nat} {o : MoveOp} {u : MemUnit} {p : Pattern}

/-- The bytes that a unit of a MOVE_IN takes from its memory, or carries. -/
def Local.loadBytes (l : Local) (o : MoveOp) (u : MemUnit) : List Byte :=
  if u.ring ≠ 0 then memRead l.mem u.addr u.len
  else ((o.data.find? fun e => e.1 == u.off).map (·.2.1)).getD (memRead l.mem u.addr u.len)

/-- The bytes of a unit with the mark of those that could not be read. -/
def Local.loadRead (l : Local) (o : MoveOp) (u : MemUnit) : List Byte × Bool :=
  let read := (memRead l.mem u.addr u.len, unitBad l.env u.addr)
  if u.ring ≠ 0 then read else ((o.data.find? fun e => e.1 == u.off).map (·.2)).getD read

theorem loadRead_bytes : (l.loadRead o u).1 = l.loadBytes o u := by
  unfold Local.loadRead Local.loadBytes
  dsimp only
  split
  · rfl
  · cases o.data.find? fun e => e.1 == u.off <;> rfl

/-- The last ring of a load's unit: its bytes reach the scratchpad. -/
theorem serveLoad_places (last : u.readOn = none) : (l.serveLoad i o u p).mem = (l.placeBytes 65 p u.off (l.loadBytes o u) false).mem ∧
    UnitServed l (l.serveLoad i o u p) ∧
      ∃ f, (l.serveLoad i o u p).core.moveQ = l.core.moveQ.modify i f ∧ ∀ x, (f x).halted = x.halted := by
  have whole : l.serveLoad i o u p =
      let x := (l.cross 10 (unitLines p u.off u.len)).placeBytes 65 p u.off (l.loadRead o u).1 (l.loadRead o u).2
      if u.ring ≠ 0 then x.setMove i (dropUnit u) else x.setMove i fun o => dropUnit u { o with
        transit := mapPut o.transit u.readRing (mapGet 0 o.transit u.readRing - 1) } := by
    unfold Local.serveLoad
    rw [last]
    rfl
  have crossed := cross_reads l 10 (unitLines p u.off u.len)
  have mem : ((l.cross 10 (unitLines p u.off u.len)).placeBytes 65 p u.off (l.loadRead o u).1 (l.loadRead o u).2).mem =
      (l.placeBytes 65 p u.off (l.loadBytes o u) false).mem := by
    rw [← loadRead_bytes]
    exact placeBytes_mem (by rw [crossed.env]) crossed.mem _ _ _ _ _ _
  have moves : ((l.cross 10 (unitLines p u.off u.len)).placeBytes 65 p u.off (l.loadRead o u).1 (l.loadRead o u).2).core.moveQ = l.core.moveQ := by
    rw [placeBytes_moveQ, crossed.core]
  have served := (UnitServed.placeBytes 65 (l.cross 10 (unitLines p u.off u.len)) p u.off (l.loadRead o u).1 (l.loadRead o u).2).after (.reads crossed)
  rw [whole]
  generalize (l.cross 10 (unitLines p u.off u.len)).placeBytes 65 p u.off (l.loadRead o u).1 (l.loadRead o u).2 = x at mem moves served ⊢
  have changes (f : MoveOp → MoveOp) (kept : ∀ y, (f y).halted = y.halted) :
      (x.setMove i f).mem = (l.placeBytes 65 p u.off (l.loadBytes o u) false).mem ∧ UnitServed l (x.setMove i f) ∧
        ∃ f', (x.setMove i f).core.moveQ = l.core.moveQ.modify i f' ∧ ∀ y, (f' y).halted = y.halted :=
    ⟨mem, (UnitServed.setMove _ _ _).after served, f, by rw [setMove_moveQ, moves], kept⟩
  dsimp only
  split
  · exact changes _ fun _ => rfl
  · exact changes _ fun _ => rfl

/-- A ring before the last: the unit carries its bytes on. -/
theorem serveLoad_carries (further : u.readOn.isSome = true) (member : u ∈ o.units)
    (known : u.ring ≠ 0 ∨ ((o.data.find? fun e => e.1 == u.off).map (·.2.1)).isSome = true) :
    ∃ f, l.serveLoad i o u p = l.setMove i f ∧ (f o).halted = o.halted ∧ o.Carries (f o) u.off (l.loadBytes o u) := by
  obtain ⟨v, on⟩ := Option.isSome_iff_exists.mp further
  by_cases far : u.ring = 0
  · refine ⟨crossUnit u (some v) u.readRing, ?_, rfl, rfl, rfl, replaceUnit_some member v, ?_⟩
    · unfold Local.serveLoad
      rw [on]
      exact if_neg (by rw [far]; exact fun h => h rfl)
    · obtain ⟨bs, carried⟩ := Option.isSome_iff_exists.mp (known.resolve_left fun h => h far)
      obtain ⟨e, found, same⟩ := Option.map_eq_some_iff.mp carried
      have bytes : l.loadBytes o u = e.2.1 := by
        unfold Local.loadBytes
        rw [if_neg (by rw [far]; exact fun h => h rfl), found]
        rfl
      rw [bytes]
      exact ⟨_, mem_data_of_find found⟩
  · refine ⟨fun x => { x with started := true, units := replaceUnit x.units u (some v),
                              data := x.data ++ [(u.off, memRead l.mem u.addr u.len, unitBad l.env u.addr)] }, ?_, rfl, rfl, rfl,
      replaceUnit_some member v, unitBad l.env u.addr, ?_⟩
    · unfold Local.serveLoad
      rw [on]
      dsimp only
      rw [if_pos far, if_pos far]
    · unfold Local.loadBytes
      rw [if_pos far]
      exact List.mem_append_right _ (List.mem_singleton.mpr rfl)

end

/-! ### The MOVE queue through its progress -/

/-- An operation without a credit stays in the queue as it is judged. -/
theorem mem_judgeAll {o : MoveOp} (free : creditOf o = none) (l : Local) {before rest : List MoveOp} (h : o ∈ before ∨ o ∈ rest) :
    o ∈ (judgeAll l before rest).2 := by
  induction rest generalizing l before with
  | nil => exact h.resolve_right List.not_mem_nil
  | cons x r ih =>
    refine ih _ ?_
    rcases h with h | h
    · exact .inl (List.mem_append_left _ h)
    · rcases List.mem_cons.mp h with rfl | h
      · have same : judgeOp l before o = (l, o) := by
          unfold judgeOp
          dsimp only
          rw [free]
        rw [same]
        exact .inl (List.mem_append_right _ (List.mem_singleton.mpr rfl))
      · exact .inr h

/-- An operation without a credit that has not completed stays in the queue as the units make progress. -/
theorem mem_pump_moveQ {l : Local} {o : MoveOp} (member : o ∈ l.core.moveQ) (free : creditOf o = none)
    (left : ∀ r, moveDone r o = false) : o ∈ l.pump.core.moveQ := by
  rw [pump_moveQ]
  show o ∈ (judgeAll l.flushed [] l.flushed.core.moveQ).2.dropWhile _
  have judged : o ∈ (judgeAll l.flushed [] l.flushed.core.moveQ).2 := mem_judgeAll free _ (.inr (by rw [flushed_only]; exact member))
  generalize (judgeAll l.flushed [] l.flushed.core.moveQ).2 = q at judged ⊢
  generalize (judgeAll l.flushed [] l.flushed.core.moveQ).1.core.regions = r
  rw [← List.takeWhile_append_dropWhile (p := moveDone r) (l := q)] at judged
  refine (List.mem_append.mp judged).resolve_left fun early => ?_
  have done_ := List.mem_takeWhile_imp early
  rw [left] at done_
  exact Bool.false_ne_true done_

end Sys2Proof.Machine
end

section
/-!
PROOF. A core's request in its owner slot: what the ring serves of its move engine (R46, R48, R76, R84, R273).
-/
namespace Sys2Proof.Machine

/-! ### What a refresh before a slot leaves of the memories -/

section
variable {α β : Type} (g : Nat × α → List β)

/-- What lists of an entry give through a map in which one key has been put. -/
theorem mem_flatMap_mapPut {m : List (Nat × α)} {k : Nat} {v : α} {x : β} (h : x ∈ (mapPut m k v).flatMap g) : x ∈ g (k, v) ∨ x ∈ m.flatMap g := by
  induction m with
  | nil => exact .inl (by simpa [mapPut] using h)
  | cons e r ih =>
    unfold mapPut at h
    split at h
    · exact (List.mem_append.mp h).imp_right id
    · split at h
      · exact (List.mem_append.mp h).imp_right (List.mem_append_right _)
      · rcases List.mem_append.mp h with h | h
        · exact .inr (List.mem_append_left _ h)
        · exact (ih h).imp_right (List.mem_append_right _)

theorem mem_mapPut_flatMap {m : List (Nat × α)} {k : Nat} {v d : α} (same : g (k, v) = g (k, mapGet d m k)) {x : β} (h : x ∈ m.flatMap g) :
    x ∈ (mapPut m k v).flatMap g := by
  induction m with
  | nil => exact absurd h List.not_mem_nil
  | cons e r ih =>
    unfold mapPut
    split
    · exact List.mem_append_right _ h
    · split
      · next own =>
        obtain ⟨key, c⟩ := e
        have own : k = key := own
        subst own
        have found : mapGet d ((k, c) :: r) k = c := if_pos rfl
        rw [found] at same
        rcases List.mem_append.mp h with h | h
        · exact List.mem_append_left _ (by rw [same]; exact h)
        · exact List.mem_append_right _ h
      · next other =>
        have later : mapGet d (e :: r) k = mapGet d r k := if_neg fun h => other h.symm
        rw [later] at same
        rcases List.mem_append.mp h with h | h
        · exact List.mem_append_left _ h
        · exact List.mem_append_right _ (ih same h)

theorem mem_flatMap_of_get {m : List (Nat × α)} {k : Nat} {d : α} (none_ : g (k, d) = []) {x : β} (h : x ∈ g (k, mapGet d m k)) : x ∈ m.flatMap g := by
  induction m with
  | nil =>
    rw [show mapGet d [] k = d from rfl, none_] at h
    exact absurd h List.not_mem_nil
  | cons e r ih =>
    unfold mapGet at h
    split at h
    · next own =>
      rw [← own] at h
      exact List.mem_append_left _ h
    · exact List.mem_append_right _ (ih h)

/-- An entry changed in what does not matter. -/
theorem flatMap_mapPut {m : List (Nat × α)} {k : Nat} {v d : α} (none_ : g (k, d) = []) (same : g (k, v) = g (k, mapGet d m k)) (x : β) :
    x ∈ (mapPut m k v).flatMap g ↔ x ∈ m.flatMap g := by
  refine ⟨fun h => ?_, mem_mapPut_flatMap g same⟩
  rcases mem_flatMap_mapPut g h with h | h
  · rw [same] at h
    exact mem_flatMap_of_get g none_ h
  · exact h

end

/-- A core reads the same units as dead and as bad. -/
structure SameUnits (n : Nat) (s t : State) : Prop where
  dead : ∀ a, unitDead (t.coreEnv n) a = unitDead (s.coreEnv n) a
  bad : ∀ a, unitBad (t.coreEnv n) a = unitBad (s.coreEnv n) a

/-- The channels of one Cuff that do not answer. -/
def deadOf (e : Nat × Cuff) : List Nat :=
  (List.range 16).filterMap fun n =>
    if e.2.width == 0 || (e.2.channels[n]?).map (·.state) == some .dead then some (20 * e.1 + n) else none

theorem deadChannels_eq (s : State) : s.deadChannels = s.cuffs.flatMap deadOf := rfl

theorem sameUnits_of {n : Nat} {s t : State} (list : t.cap.list = s.cap.list) (units : t.badUnits n = s.badUnits n)
    (dead : ∀ x, x ∈ t.deadChannels ↔ x ∈ s.deadChannels) : SameUnits n s t := by
  have same (a : Nat) : unitDead (t.coreEnv n) a = unitDead (s.coreEnv n) a := by
    show (decide (capBase ≤ a) && t.deadChannels.contains (capInstance t.cap.list a)) =
      (decide (capBase ≤ a) && s.deadChannels.contains (capInstance s.cap.list a))
    rw [list]
    congr 1
    rw [Bool.eq_iff_iff, List.contains_iff_mem, List.contains_iff_mem]
    exact dead _
  refine ⟨same, fun a => ?_⟩
  unfold unitBad
  rw [same a]
  show ((t.badUnits n).contains _ || _) = ((s.badUnits n).contains _ || _)
  rw [units]

theorem State.capBadUnits_congr {s t : State} (cap : t.cap = s.cap) (ecc : ∀ k, (t.cuff k).linkEccNow = (s.cuff k).linkEccNow) :
    t.capBadUnits = s.capBadUnits := by
  have sees : t.capSees = s.capSees := by
    funext a
    unfold State.capSees State.capFaultAt State.linkErrorAt State.linkEcc
    rw [cap, ecc]
  unfold State.capBadUnits
  rw [sees, cap]

theorem State.badUnits_congr {s t : State} {n : Nat} (map : t.map = s.map) (cap : t.cap = s.cap)
    (faults : ∀ k, (t.column k).faults = (s.column k).faults ∧ (t.column k).readable = (s.column k).readable)
    (ecc : ∀ k, (t.cuff k).linkEccNow = (s.cuff k).linkEccNow) : t.badUnits n = s.badUnits n := by
  have column : t.columnOf n = s.columnOf n := by
    unfold State.columnOf State.entry
    rw [map]
  unfold State.badUnits
  rw [State.capBadUnits_congr cap ecc, column]
  dsimp only
  rw [(faults _).1, (faults _).2]

theorem deadOf_reset (k : Nat) : deadOf (k, Cuff.reset) = [] := rfl

/-- What leaves a channel's state leaves it among those that answer. -/
theorem deadOf_updChan (k slot : Nat) (c : Cuff) {f : Channel → Channel} (kept : ∀ x, (f x).state = x.state) :
    deadOf (k, c.updChan slot f) = deadOf (k, c) := by
  unfold deadOf Cuff.updChan
  refine congrArg (List.filterMap · _) (funext fun n => ?_)
  have state : ((modifyNth c.channels slot f)[n]?).map (·.state) = (c.channels[n]?).map (·.state) := by
    rw [modifyNth_eq, List.getElem?_modify]
    split
    · cases c.channels[n]? with
      | none => rfl
      | some x => exact congrArg some (kept x)
    · cases c.channels[n]? <;> rfl
  dsimp only
  rw [state]

/-- A refresh leaves what the core reads of its units. -/
theorem payRefresh_units (s : State) (key n : Nat) : SameUnits n s (s.payRefresh key) := by
  unfold State.payRefresh
  split
  · refine sameUnits_of rfl (State.badUnits_congr rfl rfl (fun k => ?_) fun _ => rfl) fun _ => Iff.rfl
    rw [State.column_setColumn]
    split
    · next own =>
      rw [own]
      exact ⟨rfl, rfl⟩
    · exact ⟨rfl, rfl⟩
  · refine sameUnits_of rfl (State.badUnits_congr rfl rfl (fun _ => ⟨rfl, rfl⟩) fun k => ?_) fun x => ?_
    · unfold State.updChan
      rw [State.updCuff, State.cuff_setCuff]
      split
      · next own =>
        rw [own]
        rfl
      · rfl
    · have kept (c : Channel) : (c.pay (leastIndex c.pairCounts)).state = c.state := rfl
      exact flatMap_mapPut (d := Cuff.reset) deadOf (deadOf_reset _) (deadOf_updChan _ _ _ kept) x
  · exact ⟨fun _ => rfl, fun _ => rfl⟩

theorem updRing_units (s : State) (key n : Nat) (f : Ring → Ring) : SameUnits n s (s.updRing key f) := ⟨fun _ => rfl, fun _ => rfl⟩

theorem beginSlot_units (s : State) (key n : Nat) : SameUnits n s (s.beginSlot key) := by
  have paid := payRefresh_units s key n
  unfold State.beginSlot
  split
  · exact ⟨fun _ => rfl, fun _ => rfl⟩
  · split
    · exact ⟨paid.dead, paid.bad⟩
    · exact updRing_units _ _ _ _

/-! ### The slot in which a core's request stands -/

section
variable {cls inst : Nat} {n : CoreId} {s : State} {slot : RingSlot} {i : Nat} {o : MoveOp}
  (low : 2 ≤ cls) (high : cls ≤ 5) (small : inst < 65536) (turn : s.ringTurn (ringKey cls inst) = true)
  (gate : (s.core n.val).supply.gateClosed = false) (present : ∀ p, p < 8 → s.panelAnswers p = true)
  (at_ : s.slotOf (ringKey cls inst) = some slot) (kind : slot.kind = .owner) (owner : slot.owner = n.val)
  (next : nextMove (s.core n.val).moveQ (ringKey cls inst) = some (i, o))
include low high small turn gate present at_ kind owner next

/-- A core's request in its owner slot takes the core's turn, once the slot has begun. -/
theorem ownerRequest_turn : s.ownerRequest cls inst n.val false = (s.beginSlot (ringKey cls inst)).ownerTurn (ringKey cls inst) n.val false := by
  have begun := beginSlot_settle s (ringKey cls inst)
  have number : n.val < 0x200 := n.isLt
  have answers (p : Nat) : (s.beginSlot (ringKey cls inst)).panelAnswers p = s.panelAnswers p := by
    unfold State.panelAnswers State.panel
    rw [begun.eq]
  have free : (s.beginSlot (ringKey cls inst)).coreHeld n.val = false :=
    coreHeld_of_present ((answers _).trans (present _ (by omega))) (by rw [begun.core]; exact gate)
  have asks : (s.beginSlot (ringKey cls inst)).requestPresent (ringKey cls inst) slot.owner = true := by
    unfold State.requestPresent
    rw [owner, if_pos number, free]
    dsimp only
    rw [begun.core, next]
    rfl
  have settled : s.settleRing (ringKey cls inst) = s.beginSlot (ringKey cls inst) :=
    settleRing_kept at_ kind turn asks (by rw [ringClass_ringKey _ small]; omega)
  obtain ⟨-, -, same⟩ := beginSlot_ring s (ringKey cls inst)
  unfold State.ownerRequest
  dsimp only
  rw [if_pos number, dropIsolated_of_present present, settled, turn, coreHeld_of_present (present _ (by omega)) gate, Bool.and_false, same, at_]
  rw [if_neg (by nofun)]
  exact if_pos ⟨kind, owner⟩

end

end Sys2Proof.Machine
end

section
/-!
PROOF. One unit of a core's move engine served in its slot, or its lap tag out of step (R46, R48, R76, R84, R273).
-/
namespace Sys2Proof.Machine

/-! ### A served unit -/

/-- Operations whose units reach memory, or a cache block. -/
def MOp.reachesMemory : MOp → Bool
  | .moveIn _ _ _ _ _ | .moveOut _ _ _ _ _ | .atomicAdd _ _ _ _ _ | .fetchRoster _ _ _ _ => true
  | _ => false

/-- The turn of such an operation: its unit is served, its memory notes it, and the core's units make progress. -/
theorem moveTurn_serves {s : State} {key n i : Nat} {o : MoveOp} (next : nextMove (s.core n).moveQ key = some (i, o))
    (equal : lapMatch o.lap (s.ring key).lap = .equal) (plain : o.op.reachesMemory = true)
    (runs : ((((s.localOf n).moveServe key).core.moveQ[i]?).map (·.halted)).getD false = false) :
    ∃ x a, SettleKeeps (s.putLocal n { (s.localOf n).moveServe key with wraps := 0 }) x ∧
      s.moveTurn key n true = (x.putLocal n (x.localOf n).pump, some a) := by
  have noted (v : Option MemUnit) (w : Nat) : SettleKeeps (s.putLocal n { (s.localOf n).moveServe key with wraps := 0 })
      (match v with
        | some u => (s.putLocal n { (s.localOf n).moveServe key with wraps := 0 }).moveEffect o u w
        | none => s.putLocal n { (s.localOf n).moveServe key with wraps := 0 }) := by
    cases v with
    | none => exact .refl _
    | some u => exact moveEffect_settle _ _ _ _
  unfold State.moveTurn
  dsimp only
  rw [next]
  dsimp only
  rw [if_pos rfl, equal]
  dsimp only
  rw [runs, Bool.and_false]
  generalize hop : o.op = op at plain
  cases op with
  | moveIn | moveOut | atomicAdd | fetchRoster =>
    dsimp only
    rw [if_neg Bool.false_ne_true]
    exact ⟨_, _, noted _ _, rfl⟩
  | _ => exact absurd plain Bool.false_ne_true

/-- A turn that has been served: what the slot's end leaves of it. -/
theorem ownerTurn_ends {s y : State} {key n units : Nat} {last : Bool} (number : n < 0x200) (turn : s.coreTurn key n false = (y, some (units, last))) :
    (s.ownerTurn key n false).mem = y.mem ∧ ((s.ownerTurn key n false).core n).seq = (y.core n).seq ∧
      ((s.ownerTurn key n false).core n).moveQ = (y.core n).moveQ := by
  have used := useSlot_settle y key units last
  have whole : s.ownerTurn key n false = ((y.useSlot key units last).unpresent key n).settleRing key := by
    unfold State.ownerTurn
    dsimp only
    rw [decide_eq_true number, if_pos rfl, turn]
    dsimp only
    rw [if_neg (by omega), if_neg (by decide), if_pos (by decide)]
  have ended := settleRing_settle ((y.useSlot key units last).unpresent key n) key
  generalize y.useSlot key units last = z at used whole ended
  rw [whole, ended.mem, ended.core]
  unfold State.unpresent
  dsimp only
  split
  · rw [State.core_setCore_same, used.core]
    exact ⟨used.mem, rfl, rfl⟩
  · rw [used.core]
    exact ⟨used.mem, rfl, rfl⟩

/-- A turn that waits or faults: the request has been presented. -/
theorem ownerTurn_waits {s y : State} {key n : Nat} (number : n < 0x200) (turn : s.coreTurn key n false = (y, none)) :
    s.ownerTurn key n false = y.present key n := by
  unfold State.ownerTurn
  dsimp only
  rw [decide_eq_true number, if_pos rfl, turn]
  rfl

theorem present_keeps (s : State) (key n : Nat) : (s.present key n).mem = s.mem ∧ ((s.present key n).core n).seq = (s.core n).seq ∧
    ((s.present key n).core n).moveQ = (s.core n).moveQ ∧ (s.present key n).log = s.log ∧ (s.present key n).rings = s.rings := by
  unfold State.present
  dsimp only
  split
  · rw [State.core_setCore_same]
    exact ⟨rfl, rfl, rfl, rfl, rfl⟩
  · exact ⟨rfl, rfl, rfl, rfl, rfl⟩

theorem coreTurn_moves {s : State} {key n : Nat} (none_ : (s.core n).seq.lapRecordDue = false) :
    s.coreTurn key n false = s.moveTurn key n true := by
  unfold State.coreTurn
  dsimp only
  rw [none_, if_neg (by rintro ⟨-, h, -⟩; exact Bool.false_ne_true h), if_neg Bool.false_ne_true]

/-- What a state keeps of a view of core `n` after its unit has been served. -/
structure TurnServed (n : Nat) (l : Local) (t : State) : Prop where
  mem : t.mem = l.mem
  regs : (t.core n).seq.regs = l.core.seq.regs
  cache : (t.core n).seq.cache = l.core.seq.cache
  moves : ∀ x ∈ l.core.moveQ, creditOf x = none → (∀ r, moveDone r x = false) → x ∈ (t.core n).moveQ

/-- The service of a unit reaches the module, with the slot's end behind it. -/
theorem ownerTurn_serves {s : State} {key n i : Nat} {o : MoveOp} (number : n < 0x200) (none_ : (s.core n).seq.lapRecordDue = false)
    (next : nextMove (s.core n).moveQ key = some (i, o)) (equal : lapMatch o.lap (s.ring key).lap = .equal) (plain : o.op.reachesMemory = true)
    (runs : ((((s.localOf n).moveServe key).core.moveQ[i]?).map (·.halted)).getD false = false)
    (quiet : ((s.localOf n).moveServe key).core.att.queue = []) : TurnServed n ((s.localOf n).moveServe key) (s.ownerTurn key n false) := by
  obtain ⟨x, ⟨units, last⟩, noted, turn⟩ := moveTurn_serves next equal plain runs
  obtain ⟨mem, seq, moves⟩ := ownerTurn_ends number ((coreTurn_moves none_).trans turn)
  generalize (s.localOf n).moveServe key = l at quiet noted ⊢
  have core : (x.localOf n).core = l.core := by
    show x.core n = _
    rw [noted.core, putLocal_core, if_pos rfl]
  have bytes : (x.localOf n).mem = l.mem := by
    show x.mem = _
    rw [noted.mem, putLocal_mem]
  have pumped := (pump_core (x.localOf n)).2.1
  rw [putLocal_core, if_pos rfl] at seq moves
  rw [putLocal_mem] at mem
  refine ⟨?_, ?_, ?_, fun y hy free left => ?_⟩
  · rw [mem, mem_of_noAttention (by rw [core]; exact quiet), bytes]
  · rw [seq, pumped, core]
  · rw [seq, pumped, core]
  · rw [moves]
    exact mem_pump_moveQ (by rw [core]; exact hy) free left

/-! ### A lap tag out of step -/

theorem moveTurn_ahead {s : State} {key n i : Nat} {o : MoveOp} (next : nextMove (s.core n).moveQ key = some (i, o))
    (ahead : lapMatch o.lap (s.ring key).lap = .ahead) : s.moveTurn key n true = (s, none) := by
  unfold State.moveTurn
  dsimp only
  rw [next]
  dsimp only
  rw [if_pos rfl, ahead]

theorem moveTurn_mismatch {s : State} {key n i : Nat} {o : MoveOp} (next : nextMove (s.core n).moveQ key = some (i, o))
    (behind : lapMatch o.lap (s.ring key).lap = .mismatch) :
    s.moveTurn key n true = (s.turnMismatch n 1 o.word fun l => l.setMove i fun o => { o with halted := true }, none) := by
  unfold State.moveTurn
  dsimp only
  rw [next]
  dsimp only
  rw [if_pos rfl, behind]

/-- A core whose lap tag is out of step stops with TURN_MISMATCH, and its memory stays. -/
theorem turnMismatch_stops {s : State} {n slot : Nat} {word : BitVec 28} {f : MoveOp → MoveOp} {i : Nat} (running : (s.core n).seq.stoppedByFault = false)
    (quiet : (s.core n).att.queue = []) :
    let t := s.turnMismatch n slot word fun l => l.setMove i f
    t.mem = s.mem ∧ (t.core n).seq = (s.core n).seq.faulted slot 2 word := by
  have seq : (((s.localOf n).setMove i f).faultStop 2 slot word).pump.core.seq = (s.core n).seq.faulted slot 2 word :=
    faultStop_pump_seq (l := (s.localOf n).setMove i f) running 2 slot word
  have stopped := faultStop_of_running (l := (s.localOf n).setMove i f) running 2 slot word
  dsimp only
  unfold State.turnMismatch
  rw [putLocal_mem, putLocal_core, if_pos rfl, seq, mem_of_noAttention (by rw [stopped]; exact quiet), stopped]
  exact ⟨rfl, rfl⟩

/-- A core whose ARRAY queue holds a flushed batch at most, with nothing in its gather and ATTENTION queues. -/
structure RestingUnits (c : Core) : Prop where
  array : c.arr.queue = [] ∨ ∃ b, c.arr.queue = [.flush b]
  gather : c.arr.gather = []
  attention : c.att.queue = []

theorem forceFlush_rests {a : ArrayState} (none_ : a.queue = []) :
    ((forceFlush a).queue = [] ∨ ∃ b, (forceFlush a).queue = [.flush b]) ∧ (forceFlush a).gather = [] := by
  by_cases empty : a.gather = []
  · rw [forceFlush_nothing none_ empty]
    exact ⟨.inl none_, empty⟩
  · have flushed : (flushGather a .forced).queue = [.flush a.gather] ∧ (flushGather a .forced).gather = [] := by
      unfold flushGather
      rw [if_neg empty, none_]
      exact ⟨rfl, rfl⟩
    have still : forceFlush a = flushGather a .forced := by
      unfold forceFlush gathersWait
      dsimp only
      rw [flushed.1]
      rfl
    rw [still]
    exact ⟨.inr ⟨_, flushed.1⟩, flushed.2⟩

theorem forceFlush_resting {a : ArrayState} (queue : a.queue = [] ∨ ∃ b, a.queue = [.flush b]) (gather : a.gather = []) : forceFlush a = a := by
  have same : flushGather a .forced = a := if_pos gather
  have quiet : gathersWait a = false := by
    unfold gathersWait
    rcases queue with h | ⟨b, h⟩ <;> rw [h] <;> rfl
  unfold forceFlush
  rw [same]
  dsimp only
  rw [quiet]
  rfl

/-- Where no queue but the MOVE queue makes progress by itself, it alone does. -/
theorem progress_of_resting {l : Local} (h : RestingUnits l.core) : l.progress = l.movePump := by
  have flushed : (if l.core.seq.run = .stopped then l.arrUpd forceFlush else l) = l := by
    split
    · rw [Local.arrUpd, forceFlush_resting h.array h.gather]
    · rfl
  obtain ⟨-, -, -, core⟩ := movePump_only l
  have array : l.movePump.arrayStep = l.movePump := by
    have queue : l.movePump.core.arr.queue = l.core.arr.queue := by rw [core]
    unfold Local.arrayStep
    dsimp only
    rw [queue]
    rcases h.array with h | ⟨b, h⟩ <;> rw [h]
  have att : l.movePump.core.att.queue = [] := by rw [core]; exact h.attention
  rw [Local.progress, flushed, iterate_fixed array, iterate_fixed (attStep_of_empty att), preload_of_empty att]

/-- An operation without a credit that stands alone is judged without a report. -/
theorem movePump_quiet {l : Local} {o : MoveOp} (alone : l.core.moveQ = [o]) (free : creditOf o = none) :
    l.movePump.reports = l.reports ∧ l.movePump.clashes = l.clashes := by
  have judged : judgeOp l [] o = (l, o) := by
    unfold judgeOp
    dsimp only
    rw [free]
  unfold Local.movePump
  dsimp only
  rw [alone]
  simp only [judgeAll]
  rw [judged]
  exact ⟨rfl, rfl⟩

/-- Where the operation is the core's last, its record is all that the log takes. -/
theorem turnMismatch_log {s : State} {n slot : Nat} {word : BitVec 28} {o : MoveOp} (running : (s.core n).seq.stoppedByFault = false)
    (quiet : (s.core n).att.queue = []) (alone : (s.core n).moveQ = [o]) (free : creditOf o = none) (arr : (s.core n).arr.queue = []) :
    (s.turnMismatch n slot word fun l => l.setMove 0 fun o => { o with halted := true }).log =
      (s.file (mkReport 0x10 (n / 64) (s.entry n).phys (n + word.toNat * 2 ^ 20) (2 * 256 + slot))).log := by
  let f : MoveOp → MoveOp := fun o => { o with halted := true }
  have stopped := faultStop_of_running (l := (s.localOf n).setMove 0 f) running 2 slot word
  have moves : (((s.localOf n).setMove 0 f).faultStop 2 slot word).core.moveQ = [f o] := by
    rw [stopped]
    show ((s.localOf n).setMove 0 f).core.moveQ = _
    rw [setMove_moveQ]
    show (s.core n).moveQ.modify 0 f = _
    rw [alone]
    rfl
  have resting : RestingUnits (((s.localOf n).setMove 0 f).faultStop 2 slot word).core := by
    rw [stopped]
    obtain ⟨queue, gather⟩ := forceFlush_rests (a := ((s.localOf n).setMove 0 f).core.arr) arr
    exact ⟨queue, gather, quiet⟩
  obtain ⟨reports, clashes⟩ := movePump_quiet moves free
  unfold State.turnMismatch
  refine (putLocal_log_of_one ?_ ?_).trans rfl
  · rw [pump_eq, progress_of_resting resting]
    exact clashes.trans (by rw [stopped]; rfl)
  · rw [pump_eq, progress_of_resting resting]
    exact reports.trans (by rw [stopped]; rfl)

end Sys2Proof.Machine
end

section
/-!
PROOF. What a core's unit stores, carries and brings, and its lap tag (R46, R48, R76, R84, R273).
-/
namespace Sys2Proof.Machine

/-! ### The state once the slot has begun -/

theorem beginSlot_only (s : State) (key : Nat) : s.beginSlot key =
    { s with rings := (s.beginSlot key).rings, columns := (s.beginSlot key).columns, cuffs := (s.beginSlot key).cuffs } := by
  have paid : s.payRefresh key = { s with columns := (s.payRefresh key).columns, cuffs := (s.payRefresh key).cuffs } := by
    unfold State.payRefresh
    split <;> rfl
  unfold State.beginSlot
  split
  · rfl
  · split
    · generalize s.payRefresh key = x at paid ⊢
      rw [paid]
      rfl
    · rfl

theorem beginSlot_file (s : State) (key : Nat) (r : Report) : ((s.beginSlot key).file r).log = (s.file r).log := by
  rw [beginSlot_only]
  unfold State.file
  dsimp only
  split <;> split <;> first | rfl | contradiction

theorem beginSlot_slot (s : State) (key : Nat) : ((s.beginSlot key).ring key).slot = (s.ring key).slot := by
  have paid : (s.payRefresh key).ring key = s.ring key := State.ring_congr (payRefresh_rings s key) key
  unfold State.beginSlot
  split
  · rfl
  · split
    · unfold State.updRing
      rw [State.ring_setRing_same, paid]
      rfl
    · unfold State.updRing
      rw [State.ring_setRing_same]

/-- The core sees its scratchpad and its memory as before. -/
theorem beginSlot_bytes (s : State) (key n : Nat) : SameBytes (s.localOf n) ((s.beginSlot key).localOf n) := by
  have begun := beginSlot_settle s key
  refine ⟨rfl, begun.mem, ?_⟩
  show ((s.beginSlot key).core n).scr.badParity = _
  rw [begun.core]
  rfl

/-! ### The operation's own case -/

/-- An operation of a queue that has changed in its place. -/
theorem modify_at {q : List MoveOp} {i : Nat} {o : MoveOp} (there : q[i]? = some o) (f : MoveOp → MoveOp) : (q.modify i f)[i]? = some (f o) := by
  rw [List.getElem?_modify_eq, there]
  rfl

/-- What has been asked of the view of a core whose unit has been served. -/
structure UnitEnds (l m : Local) (i : Nat) : Prop where
  served : UnitServed l m
  runs : ((m.core.moveQ[i]?).map (·.halted)).getD false = false

section
variable {l : Local} {i : Nat} {o : MoveOp} {u : MemUnit} (there : l.core.moveQ[i]? = some o) (runs : o.halted = false)
include there runs

theorem ends_of_modify {m : Local} (served : UnitServed l m) {f : MoveOp → MoveOp} (moves : m.core.moveQ = l.core.moveQ.modify i f)
    (kept : (f o).halted = o.halted) : UnitEnds l m i := by
  refine ⟨served, ?_⟩
  rw [moves, modify_at there]
  exact kept.trans runs

/-- A store's unit that crosses a ring of its route, or reaches its memory. -/
theorem serveStore_ends (good : (o.data.find? fun e => e.1 == u.off).isSome = true ∨ (l.storeBytes o u).2.2 = []) (member : u ∈ o.units) :
    UnitEnds l (l.serveStore i o u) i ∧
      (u.route ≠ [] → (l.serveStore i o u).mem = l.mem ∧ ∃ x ∈ (l.serveStore i o u).core.moveQ, o.Carries x u.off (l.unitBytes o u)) ∧
      (u.route = [] → ∃ y : Local, y.mem = l.mem ∧ y.env = l.env ∧ l.serveStore i o u = y.storeUnit i o u (l.unitBytes o u)) := by
  obtain ⟨y, reads, ends, crosses⟩ := serveStore_takes (l := l) (i := i) good member
  have still : y.core.moveQ = l.core.moveQ := by rw [reads.core]
  by_cases route : u.route = []
  · obtain ⟨served, moves⟩ := storeUnit_served y i o u (l.unitBytes o u)
    refine ⟨?_, fun h => absurd route h, fun _ => ⟨y, reads.mem, reads.env, ends route⟩⟩
    rw [ends route]
    exact ends_of_modify there runs (served.after (.reads reads)) (moves.trans (by rw [still])) rfl
  · obtain ⟨f, whole, kept, carries⟩ := crosses route
    have moves : (l.serveStore i o u).core.moveQ = l.core.moveQ.modify i f := by rw [whole, setMove_moveQ, still]
    refine ⟨ends_of_modify there runs ?_ moves kept, fun _ => ⟨by rw [whole]; exact reads.mem, f o, ?_, carries⟩, fun h => absurd h route⟩
    · rw [whole]
      exact (UnitServed.setMove _ _ _).after (.reads reads)
    · rw [moves]
      exact List.mem_of_getElem? (modify_at there f)

/-- A MOVE_IN's unit that carries its bytes on, or reaches the scratchpad. -/
theorem serveLoad_ends (p : Pattern) (member : u ∈ o.units) :
    (u.readOn = none → UnitEnds l (l.serveLoad i o u p) i ∧ (l.serveLoad i o u p).mem = (l.placeBytes 65 p u.off (l.loadBytes o u) false).mem) ∧
      (u.readOn.isSome = true → u.ring ≠ 0 ∨ ((o.data.find? fun e => e.1 == u.off).map (·.2.1)).isSome = true →
        UnitEnds l (l.serveLoad i o u p) i ∧ (l.serveLoad i o u p).mem = l.mem ∧
          ∃ x ∈ (l.serveLoad i o u p).core.moveQ, o.Carries x u.off (l.loadBytes o u)) := by
  refine ⟨fun last => ?_, fun further known => ?_⟩
  · obtain ⟨mem, served, f, moves, kept⟩ := serveLoad_places (l := l) (i := i) (o := o) (p := p) last
    exact ⟨ends_of_modify there runs served moves (kept o), mem⟩
  · obtain ⟨f, whole, kept, carries⟩ := serveLoad_carries (l := l) (i := i) (p := p) further member known
    have moves : (l.serveLoad i o u p).core.moveQ = l.core.moveQ.modify i f := by rw [whole, setMove_moveQ]
    refine ⟨ends_of_modify there runs ?_ moves kept, by rw [whole]; rfl, f o, ?_, carries⟩
    · rw [whole]
      exact .setMove _ _ _
    · rw [moves]
      exact List.mem_of_getElem? (modify_at there f)

end

/-- An operation with units left has not completed. -/
theorem moveDone_carries {o x : MoveOp} {off : Nat} {bs : List Byte} (h : o.Carries x off bs) (plain : o.op.reachesMemory = true) (r : Regions) :
    moveDone r x = false := by
  have empty : x.units.isEmpty = false := by
    rcases hu : x.units with _ | ⟨u, us⟩
    · exact absurd hu h.left
    · rfl
  unfold moveDone
  rw [h.op, empty]
  generalize o.op = m at plain
  cases m with
  | moveIn | moveOut | atomicAdd | fetchRoster => rfl
  | _ => exact absurd plain Bool.false_ne_true

theorem creditOf_carries {o x : MoveOp} (h : x.op = o.op) (plain : o.op.reachesMemory = true) : creditOf x = none := by
  unfold creditOf
  rw [h]
  generalize o.op = m at plain
  cases m with
  | moveIn | moveOut | atomicAdd | fetchRoster => rfl
  | _ => exact absurd plain Bool.false_ne_true

theorem storeBytes_moveOut {l : Local} {o : MoveOp} {u : MemUnit} {p : Pattern} {tl sy : Bool} {sa : RegId} {ps pt : BitVec 8}
    (op : o.op = .moveOut tl sy sa ps pt) (pat : o.patS = some p) : (l.storeBytes o u).2 = l.streamBytes 65 p u.off u.len := by
  have whole : l.storeBytes o u = (l.cross 11 (unitLines p u.off u.len), (l.cross 11 (unitLines p u.off u.len)).streamBytes 65 p u.off u.len) := by
    unfold Local.storeBytes
    rw [op, pat]
  rw [whole]
  exact (cross_reads l _ _).sameBytes.streamBytes _ _ _ _

theorem storeBytes_atomicAdd {l : Local} {o : MoveOp} {u : MemUnit} {p pf : Pattern} {tl sy : Bool} {sa : RegId} {ps pt : BitVec 8}
    (op : o.op = .atomicAdd tl sy sa ps pt) (pat : o.patS = some p) (far : o.patF = some pf) :
    (l.storeBytes o u).2 = l.streamBytes 65 p ((addRange pf u).1 * (addRange pf u).2.2) ((addRange pf u).2.1 * (addRange pf u).2.2) := by
  unfold Local.storeBytes
  rw [op, pat, far]
  exact (cross_reads l _ _).sameBytes.streamBytes _ _ _ _

/-- A MOVE_OUT's bytes at their memory. -/
theorem storeUnit_moveOut {l : Local} {i : Nat} {o : MoveOp} {u : MemUnit} {bs : List Byte} {tl sy : Bool} {sa : RegId} {ps pt : BitVec 8}
    (op : o.op = .moveOut tl sy sa ps pt) (alive : unitDead l.env u.addr = false) : (l.storeUnit i o u bs).mem = memWrite l.mem u.addr bs := by
  unfold Local.storeUnit
  rw [op]
  show (if unitDead l.env u.addr then l.mem else memWrite l.mem u.addr bs) = _
  rw [alive]
  rfl

/-- An ATOMIC_ADD's elements added to what stands at their memory. -/
theorem storeUnit_atomicAdd {l : Local} {i : Nat} {o : MoveOp} {u : MemUnit} {bs : List Byte} {pf : Pattern} {tl sy : Bool} {sa : RegId}
    {ps pt : BitVec 8} (op : o.op = .atomicAdd tl sy sa ps pt) (far : o.patF = some pf) (good : unitBad l.env u.addr = false) :
    (l.storeUnit i o u bs).mem = (l.addElems (patFormat pf) (u.addr + ((addRange pf u).1 * (addRange pf u).2.2 - u.off))
      ((chunks (addRange pf u).2.2 64 bs).map leNat)).mem := by
  unfold Local.storeUnit
  rw [op, far]
  dsimp only
  rw [good]
  rfl

/-- A FETCH_ROSTER's unit: the sequencer takes its words, and the unit leaves its operation. -/
theorem seqr_ends {l : Local} {i : Nat} {o : MoveOp} (u : MemUnit) (there : l.core.moveQ[i]? = some o) (runs : o.halted = false)
    {f : Sequencer → Sequencer} (kept : (f l.core.seq).regs = l.core.seq.regs) : UnitEnds l ((l.seqr f).setMove i (dropUnit u)) i :=
  ends_of_modify there runs ⟨rfl, kept, rfl⟩ (setMove_moveQ (l.seqr f) i (dropUnit u)) rfl

theorem fillBlock_regs (q : Sequencer) (k tag off : Nat) (bs : List Byte) (bad : Bool) : (fillBlock q k tag off bs bad).regs = q.regs := by
  unfold fillBlock
  split <;> rfl

/-! ### A unit in its slot, under its lap tag -/

/-- The bytes that the unit has carried so far. -/
def MoveOp.carried (o : MoveOp) (u : MemUnit) : Option (List Byte) := (o.data.find? fun e => e.1 == u.off).map (·.2.1)

theorem carried_isSome (o : MoveOp) (u : MemUnit) : (o.carried u).isSome = (o.data.find? fun e => e.1 == u.off).isSome := Option.isSome_map

/-- The core's request leads to a state of which `q` holds, and no register changes. -/
def State.Serves (s : State) (cls inst : Nat) (n : CoreId) (q : State → Prop) : Prop :=
  ∃ t, exec (.ownerRequest cls inst n.val false) s = .next t ∧ (t.core n.val).seq.regs = (s.core n.val).seq.regs ∧ q t

/-- A unit carries these bytes on, and memory stays. -/
def State.CarriesOn (s : State) (n : CoreId) (o : MoveOp) (u : MemUnit) (t : State) (bs : List Byte) : Prop :=
  t.mem = s.mem ∧ ∃ x ∈ (t.core n.val).moveQ, x.word = o.word ∧ x.op = o.op ∧ ∃ bad, (u.off, bs, bad) ∈ x.data

/-- Core `n` of `s` owns the slot at hand, which has begun in `b`; a unit of its oldest operation for the ring is next. -/
structure UnitTurn (cls inst : Nat) (n : CoreId) (s b : State) (i : Nat) (o : MoveOp) (u : MemUnit) : Prop where
  turned : exec (.ownerRequest cls inst n.val false) s = .next (b.ownerTurn (ringKey cls inst) n.val false)
  core : b.core n.val = s.core n.val
  same : SameBytes (s.localOf n.val) (b.localOf n.val)
  units : SameUnits n.val s b
  next : nextMove (b.core n.val).moveQ (ringKey cls inst) = some (i, o)
  runs : o.halted = false
  first : (o.units.find? fun x => unitRing o.op x == ringKey cls inst) = some u
  quiet : (b.core n.val).att.queue = []
  records : (b.core n.val).seq.lapRecordDue = false

section
variable {cls inst : Nat} {n : CoreId} {s b : State} {i : Nat} {o : MoveOp} {u : MemUnit} {p pf : Pattern} {tl sy : Bool} {sa : RegId}
  {ps pt : BitVec 8} {block : BitVec 4} (h : UnitTurn cls inst n s b i o u)
  (equal : lapMatch o.lap (b.ring (ringKey cls inst)).lap = .equal)
include h

theorem UnitTurn.there : (b.localOf n.val).core.moveQ[i]? = some o := nextMove_at h.next

theorem UnitTurn.member : u ∈ o.units := List.mem_of_find?_eq_some h.first

include equal in
/-- The module takes over the view of the core whose unit has been served. -/
theorem UnitTurn.serves (plain : o.op.reachesMemory = true) {m : Local} (unit : (b.localOf n.val).serveUnit i o u = m)
    (ends : UnitEnds (b.localOf n.val) m i) {q : State → Prop} (hq : ∀ t, TurnServed n.val m t → q t) : s.Serves cls inst n q := by
  have own : isRemote o.op = false := by
    generalize o.op = m at plain
    cases m with
    | moveRemote => exact absurd plain Bool.false_ne_true
    | _ => rfl
  have served : (b.localOf n.val).moveServe (ringKey cls inst) = m := (moveServe_unit h.next h.runs h.first own).trans unit
  have done_ : TurnServed n.val m (b.ownerTurn (ringKey cls inst) n.val false) := by
    rw [← served]
    refine ownerTurn_serves n.isLt h.records h.next equal plain (by rw [served]; exact ends.runs) ?_
    rw [served, ends.served.att]
    exact h.quiet
  refine ⟨_, h.turned, ?_, hq _ done_⟩
  rw [done_.regs, ends.served.regs]
  show (b.core n.val).seq.regs = _
  rw [h.core]

include equal in
theorem UnitTurn.carries (plain : o.op.reachesMemory = true) {m : Local} (unit : (b.localOf n.val).serveUnit i o u = m)
    (ends : UnitEnds (b.localOf n.val) m i) {bs : List Byte} (mem : m.mem = (b.localOf n.val).mem)
    (held : ∃ x ∈ m.core.moveQ, o.Carries x u.off bs) : s.Serves cls inst n (s.CarriesOn n o u · bs) := by
  obtain ⟨x, hx, keeps⟩ := held
  exact h.serves equal plain unit ends fun t g => ⟨g.mem.trans (mem.trans h.same.mem),
    x, g.moves x hx (creditOf_carries keeps.op plain) (moveDone_carries keeps plain), keeps.word, keeps.op, keeps.data⟩

theorem UnitTurn.unit_moveOut (op : o.op = .moveOut tl sy sa ps pt) (pat : o.patS = some p) :
    (b.localOf n.val).serveUnit i o u = (b.localOf n.val).serveStore i o u ∧
      ((b.localOf n.val).storeBytes o u).2 = (s.localOf n.val).streamBytes 65 p u.off u.len := by
  refine ⟨?_, (storeBytes_moveOut op pat).trans (h.same.streamBytes _ _ _ _)⟩
  unfold Local.serveUnit
  rw [op, pat]

include equal in
/-- A MOVE_OUT's unit on a ring of its route. -/
theorem UnitTurn.moveOut_carries (op : o.op = .moveOut tl sy sa ps pt) (pat : o.patS = some p)
    (good : (o.carried u).isSome = true ∨ ((s.localOf n.val).streamBytes 65 p u.off u.len).2 = []) (route : u.route ≠ []) :
    s.Serves cls inst n (s.CarriesOn n o u · ((o.carried u).getD ((s.localOf n.val).streamBytes 65 p u.off u.len).1)) := by
  obtain ⟨unit, taken⟩ := h.unit_moveOut op pat
  rw [← taken] at good ⊢
  rw [carried_isSome] at good
  obtain ⟨ends, held, -⟩ := serveStore_ends (u := u) h.there h.runs good h.member
  obtain ⟨mem, held⟩ := held route
  exact h.carries equal (by rw [op]; rfl) unit ends mem held

include equal in
/-- A MOVE_OUT's unit at its memory. -/
theorem UnitTurn.moveOut_stores (op : o.op = .moveOut tl sy sa ps pt) (pat : o.patS = some p)
    (good : (o.carried u).isSome = true ∨ ((s.localOf n.val).streamBytes 65 p u.off u.len).2 = []) (route : u.route = [])
    (alive : unitDead (s.coreEnv n.val) u.addr = false) : s.Serves cls inst n fun t =>
      t.mem = memWrite s.mem u.addr ((o.carried u).getD ((s.localOf n.val).streamBytes 65 p u.off u.len).1) := by
  obtain ⟨unit, taken⟩ := h.unit_moveOut op pat
  rw [← taken] at good ⊢
  rw [carried_isSome] at good
  obtain ⟨ends, -, reaches⟩ := serveStore_ends (u := u) h.there h.runs good h.member
  obtain ⟨y, mem, env, whole⟩ := reaches route
  refine h.serves equal (by rw [op]; rfl) unit ends fun t g => ?_
  rw [g.mem, whole, storeUnit_moveOut op (by rw [env]; exact (h.units.dead _).trans alive), mem.trans h.same.mem]
  rfl

include equal in
/-- An ATOMIC_ADD's unit at its memory. -/
theorem UnitTurn.atomicAdd_adds (op : o.op = .atomicAdd tl sy sa ps pt) (pat : o.patS = some p) (far : o.patF = some pf) (route : u.route = [])
    (fine : unitBad (s.coreEnv n.val) u.addr = false) :
    let a := addRange pf u
    let bytes := (s.localOf n.val).streamBytes 65 p (a.1 * a.2.2) (a.2.1 * a.2.2)
    (o.carried u).isSome = true ∨ bytes.2 = [] → s.Serves cls inst n fun t =>
      t.mem = ((s.localOf n.val).addElems (patFormat pf) (u.addr + (a.1 * a.2.2 - u.off))
        ((chunks a.2.2 64 ((o.carried u).getD bytes.1)).map leNat)).mem := by
  intro a bytes good
  have unit : (b.localOf n.val).serveUnit i o u = (b.localOf n.val).serveStore i o u := by
    unfold Local.serveUnit
    rw [op, pat, far]
  have taken : ((b.localOf n.val).storeBytes o u).2 = bytes := (storeBytes_atomicAdd op pat far).trans (h.same.streamBytes _ _ _ _)
  rw [← taken] at good ⊢
  rw [carried_isSome] at good
  obtain ⟨ends, -, reaches⟩ := serveStore_ends (u := u) h.there h.runs good h.member
  obtain ⟨y, mem, env, whole⟩ := reaches route
  refine h.serves equal (by rw [op]; rfl) unit ends fun t g => ?_
  rw [g.mem, whole, storeUnit_atomicAdd op far (by rw [env]; exact (h.units.bad _).trans fine)]
  exact addElems_mem (mem.trans h.same.mem) _ _ _

include equal in
/-- A MOVE_IN's unit: its bytes reach the scratchpad with its last ring, and are carried on before. -/
theorem UnitTurn.moveIn_brings (op : o.op = .moveIn tl sy sa ps pt) (pat : o.patS = some p) :
    let bs := if u.ring ≠ 0 then memRead s.mem u.addr u.len else (o.carried u).getD (memRead s.mem u.addr u.len)
    (u.readOn = none → s.Serves cls inst n fun t => t.mem = ((s.localOf n.val).placeBytes 65 p u.off bs false).mem) ∧
      (u.readOn.isSome = true → u.ring ≠ 0 ∨ (o.carried u).isSome = true → s.Serves cls inst n (s.CarriesOn n o u · bs)) := by
  intro bs
  have unit : (b.localOf n.val).serveUnit i o u = (b.localOf n.val).serveLoad i o u p := by
    unfold Local.serveUnit
    rw [op, pat]
  have plain : o.op.reachesMemory = true := by rw [op]; rfl
  have bytes : (b.localOf n.val).loadBytes o u = bs := by
    unfold Local.loadBytes
    rw [h.same.mem]
    rfl
  obtain ⟨places, brings⟩ := serveLoad_ends (u := u) h.there h.runs p h.member
  rw [bytes] at places brings
  refine ⟨fun last => ?_, fun further known => ?_⟩
  · obtain ⟨ends, mem⟩ := places last
    refine h.serves equal plain unit ends fun t g => ?_
    rw [g.mem, mem, placeBytes_mem (l := s.localOf n.val) (m := b.localOf n.val) rfl h.same.mem 65 p u.off bs false false]
  · obtain ⟨ends, mem, held⟩ := brings further known
    exact h.carries equal plain unit ends mem held

include equal in
/-- A FETCH_ROSTER's unit. -/
theorem UnitTurn.fetchRoster_fills (op : o.op = .fetchRoster tl sy sa block) : s.Serves cls inst n fun t => t.mem = s.mem ∧
    (t.core n.val).seq.cache = (fillBlock (s.core n.val).seq block.toNat o.sVal.toNat u.off (memRead s.mem u.addr 64)
      (unitBad (s.coreEnv n.val) u.addr)).cache := by
  have unit : (b.localOf n.val).serveUnit i o u = ((b.localOf n.val).seqr fun q => fillBlock q block.toNat o.sVal.toNat u.off
      (memRead (b.localOf n.val).mem u.addr 64) (unitBad (b.localOf n.val).env u.addr)).setMove i (dropUnit u) := by
    unfold Local.serveUnit
    rw [op]
  have ends := seqr_ends u h.there h.runs (f := fun q => fillBlock q block.toNat o.sVal.toNat u.off
    (memRead (b.localOf n.val).mem u.addr 64) (unitBad (b.localOf n.val).env u.addr)) (fillBlock_regs _ _ _ _ _ _)
  refine h.serves equal (by rw [op]; rfl) unit ends fun t g => ⟨g.mem.trans h.same.mem, g.cache.trans ?_⟩
  show (fillBlock (b.core n.val).seq block.toNat o.sVal.toNat u.off (memRead (b.localOf n.val).mem u.addr 64) (unitBad (b.coreEnv n.val) u.addr)).cache = _
  rw [h.core, h.same.mem, h.units.bad]
  rfl

end

end Sys2Proof.Machine

namespace Sys2Proof.Proofs
open Sys2Proof Sys2Proof.Machine

/-- Settles O31: the core's request takes its turn in the slot; what its unit does follows the operation. -/
theorem ownerServesUnits : Obligations.OwnerServesUnits := by
  intro cls inst n s slot i o u p pf tl sy sa ps pt block key low high small turn gate present at_ kind owner none_
    next runs first quiet l carried serves carries
  have begun := beginSlot_settle s key
  obtain ⟨lap, used, -⟩ := beginSlot_ring s key
  have core : (s.beginSlot key).core n.val = s.core n.val := begun.core n.val
  have unit : UnitTurn cls inst n s (s.beginSlot key) i o u :=
    ⟨congrArg Host.Outcome.next (ownerRequest_turn low high small turn gate present at_ kind owner next), core, beginSlot_bytes _ _ _,
      beginSlot_units _ _ _, by rw [core]; exact next, runs, first, by rw [core]; exact quiet, by rw [core]; exact none_⟩
  refine ⟨fun equal => ?_, fun behind running => ?_, fun ahead => ?_⟩
  · rw [← lap] at equal
    refine ⟨fun op pat => ⟨fun fresh right route => ?_, fun bs old route => ?_, fun route fresh right alive => ?_, fun bs route old alive => ?_⟩,
      fun op pat far route fine => unit.atomicAdd_adds equal op pat far route fine, fun op pat => unit.moveIn_brings equal op pat,
      fun op => unit.fetchRoster_fills equal op⟩
    · have h := unit.moveOut_carries equal op pat (.inr right) route
      rw [show o.carried u = none from fresh] at h
      exact h
    · have old : o.carried u = some bs := old
      have h := unit.moveOut_carries equal op pat (.inl (by rw [old]; rfl)) route
      rw [old] at h
      exact h
    · have h := unit.moveOut_stores equal op pat (.inr right) route alive
      rw [show o.carried u = none from fresh] at h
      exact h
    · have old : o.carried u = some bs := old
      have h := unit.moveOut_stores equal op pat (.inl (by rw [old]; rfl)) route alive
      rw [old] at h
      exact h
  · rw [← lap] at behind
    have waits := ownerTurn_waits n.isLt ((coreTurn_moves unit.records).trans (moveTurn_mismatch unit.next behind))
    obtain ⟨mem, seq, -, log, -⟩ := present_keeps ((s.beginSlot key).turnMismatch n.val 1 o.word fun l => l.setMove i fun o =>
      { o with halted := true }) key n.val
    obtain ⟨still, stops⟩ := turnMismatch_stops (s := s.beginSlot key) (n := n.val) (slot := 1) (word := o.word) (i := i)
      (f := fun o => { o with halted := true }) (by rw [core]; exact running) unit.quiet
    rw [← waits] at mem seq log
    rw [stops, core] at seq
    refine ⟨_, unit.turned, by rw [seq]; rfl, mem.trans (still.trans begun.mem), by rw [seq]; rfl, by rw [seq]; rfl, fun alone free arr => ?_⟩
    have zero : i = 0 := by
      have found := nextMove_at next
      rw [alone] at found
      simpa using (List.getElem?_eq_some_iff.mp found).1
    subst zero
    rw [log, turnMismatch_log (by rw [core]; exact running) unit.quiet (by rw [core]; exact alone) free (by rw [core]; exact arr), beginSlot_file]
    unfold State.entry
    rw [begun.eq]
  · rw [← lap] at ahead
    have waits := ownerTurn_waits n.isLt ((coreTurn_moves unit.records).trans (moveTurn_ahead unit.next ahead))
    obtain ⟨mem, seq, moves, -, rings⟩ := present_keeps (s.beginSlot key) key n.val
    rw [← waits] at mem seq moves rings
    rw [core] at seq moves
    exact ⟨_, unit.turned, by rw [seq], mem.trans begun.mem, by rw [State.ring_congr rings]; exact beginSlot_slot s key,
      by rw [State.ring_congr rings]; exact used, moves⟩

end Sys2Proof.Proofs
end

section
/-!
PROOF. Units of hub agents' transfers that rings carry on (R46, R52, R290).
-/
namespace Sys2Proof.Machine

/-! ### Units that wait for a ring -/

/-- A unit waits for a ring. -/
def HubUnit.waits (key : Nat) (u : HubUnit) : Bool := u.route.head? == some key

/-- The units of an owner's transfers that wait for a ring. -/
def pendingOf (key owner : Nat) (ts : List Transfer) : Nat :=
  ((ts.filter fun t => t.agent == owner).map fun t => t.units.countP (HubUnit.waits key)).sum

theorem hubPending_eq (s : State) (key owner : Nat) : s.hubPending key owner = pendingOf key owner s.host.transfers := rfl

theorem pendingOf_cons (key owner : Nat) (t : Transfer) (ts : List Transfer) :
    pendingOf key owner (t :: ts) = (if t.agent = owner then t.units.countP (HubUnit.waits key) else 0) + pendingOf key owner ts := by
  unfold pendingOf
  by_cases own : t.agent = owner
  · rw [List.filter_cons_of_pos (by simpa using own), if_pos own]
    rfl
  · rw [List.filter_cons_of_neg (by simpa using own), if_neg own, Nat.zero_add]

/-- A transfer with one unit fewer that waits counts for its own agent alone. -/
theorem pendingOf_set {key owner : Nat} {ts : List Transfer} {i : Nat} {t t' : Transfer} (there : ts[i]? = some t) (agent : t'.agent = t.agent)
    (fewer : t'.units.countP (HubUnit.waits key) + 1 = t.units.countP (HubUnit.waits key)) :
    (t.agent = owner → pendingOf key owner (ts.set i t') + 1 = pendingOf key owner ts) ∧
      (t.agent ≠ owner → pendingOf key owner (ts.set i t') = pendingOf key owner ts) := by
  induction ts generalizing i with
  | nil => exact absurd there (by simp)
  | cons x r ih =>
    cases i with
    | zero =>
      obtain rfl : x = t := by simpa using there
      rw [List.set_cons_zero, pendingOf_cons, pendingOf_cons, agent]
      refine ⟨fun own => ?_, fun other => ?_⟩
      · rw [if_pos own, if_pos own]
        omega
      · rw [if_neg other, if_neg other]
    | succ k =>
      obtain ⟨own, other⟩ := ih (i := k) (by simpa using there)
      rw [List.set_cons_succ, pendingOf_cons, pendingOf_cons]
      exact ⟨fun h => by rw [← own h]; omega, fun h => by rw [other h]⟩

/-- Of units with offsets of their own, one that waited and no longer does. -/
theorem countP_put {p : HubUnit → Bool} {us : List HubUnit} {u v : HubUnit} (distinct : (us.map (·.off)).Nodup) (member : u ∈ us) (off : v.off = u.off)
    (waited : p u = true) (gone : p v = false) : (us.map fun x => if x.off = v.off then v else x).countP p + 1 = us.countP p := by
  induction us with
  | nil => exact absurd member List.not_mem_nil
  | cons x r ih =>
    obtain ⟨apart, rest⟩ := List.nodup_cons.mp distinct
    have shared {y : HubUnit} (hy : y ∈ r) : y.off ≠ x.off := fun same => apart (List.mem_map.mpr ⟨y, hy, same⟩)
    rw [List.map_cons, List.countP_cons, List.countP_cons]
    rcases List.mem_cons.mp member with rfl | later
    · have same : r.map (fun x => if x.off = v.off then v else x) = r := by
        conv_rhs => rw [← List.map_id r]
        exact List.map_congr_left fun y hy => if_neg fun h => shared hy (h.trans off)
      rw [same, if_pos off.symm, waited, gone]
      rfl
    · have other : ¬x.off = v.off := fun h => shared later (h.trans off).symm
      rw [if_neg other, ← ih rest later]
      omega

/-! ### Transfers whose units at a ring only cross it -/

/-- A transfer has gone on as far as it can, and each of its units that wait for the ring has its bytes and goes on over other rings. -/
structure Transfer.Crosses (s : State) (key : Nat) (x : Transfer) : Prop where
  some_ : x.units ≠ []
  judged : s.judgeTransfer x = x
  distinct : (x.units.map (·.off)).Nodup
  further : ∀ u ∈ x.units, u.route.head? = some key → (u.data.isSome = true ∨ x.writing = true) ∧ u.route.tail ≠ [] ∧ u.route.tail.head? ≠ some key

/-- Every transfer of the module is of that kind, and no partial write waits. -/
structure HubCrosses (key : Nat) (s : State) : Prop where
  partials : s.host.partials = []
  transfers : ∀ x ∈ s.host.transfers, x.Crosses s key

theorem State.judgeTransfer_congr {s t : State} (map : t.map = s.map) (panels : t.panels = s.panels) (cap : t.cap = s.cap) (x : Transfer) :
    t.judgeTransfer x = s.judgeTransfer x := by
  unfold State.judgeTransfer State.reroute
  simp only [State.place_congr map panels cap, State.pocketRing_congr map]

theorem HubCrosses.congr {key : Nat} {s t : State} (h : HubCrosses key s) (host : t.host = s.host) (map : t.map = s.map) (panels : t.panels = s.panels)
    (cap : t.cap = s.cap) : HubCrosses key t := by
  refine ⟨by rw [host]; exact h.partials, fun x hx => ?_⟩
  rw [host] at hx
  obtain ⟨some_, judged, distinct, further⟩ := h.transfers x hx
  exact ⟨some_, by rw [State.judgeTransfer_congr map panels cap]; exact judged, distinct, further⟩

/-- A judged transfer is served where it is, on routes that the map has kept. -/
theorem judged_units {s : State} {x : Transfer} (h : s.judgeTransfer x = x) : x.atHost = true ∨
    ∀ u ∈ x.units, (s.place x.by u.addr).status = stOk ∧ s.reroute x u = u := by
  by_cases host : x.atHost = true
  · exact .inl host
  · unfold State.judgeTransfer at h
    rw [if_neg host] at h
    cases bad : x.units.find? fun u => (s.place x.by u.addr).status != stOk with
    | some u =>
      rw [bad] at h
      have left : u ∈ x.units.filter fun v => decide (v.off < u.off) := by
        have same : (x.failAt u.off (s.place x.by u.addr).status).units = x.units := congrArg Transfer.units h
        have member := List.mem_of_find?_eq_some bad
        rw [← same] at member
        exact member
      have early := (List.mem_filter.mp left).2
      exact absurd (of_decide_eq_true early) (Nat.lt_irrefl _)
    | none =>
      rw [bad] at h
      have same : x.units.map (s.reroute x) = x.units := congrArg Transfer.units h
      refine .inr fun u hu => ⟨?_, ?_⟩
      · have good := List.find?_eq_none.mp bad u hu
        simpa using good
      · obtain ⟨i, hi, rfl⟩ := List.mem_iff_getElem.mp hu
        have at_ := congrArg (fun l => l[i]?) same
        simpa [hi] using at_

theorem judgeTransfer_of_units {s : State} {x : Transfer} (h : x.atHost = true ∨
    ∀ u ∈ x.units, (s.place x.by u.addr).status = stOk ∧ s.reroute x u = u) : s.judgeTransfer x = x := by
  unfold State.judgeTransfer
  rcases h with host | each
  · exact if_pos host
  · split
    · rfl
    · have good : (x.units.find? fun u => (s.place x.by u.addr).status != stOk) = none :=
        List.find?_eq_none.mpr fun u hu => by rw [(each u hu).1]; exact Bool.false_ne_true
      have same : x.units.map (s.reroute x) = x.units := by
        conv_rhs => rw [← List.map_id x.units]
        exact List.map_congr_left fun u hu => (each u hu).2
      rw [good]
      dsimp only
      rw [same]

/-- A unit on the rest of its route is still on a route that the map has kept. -/
theorem reroute_tail {s : State} {x : Transfer} {u : HubUnit} (h : s.reroute x u = u) (data : Option (List Byte)) :
    s.reroute x { u with route := u.route.tail, data := data } = { u with route := u.route.tail, data := data } := by
  unfold State.reroute at h ⊢
  dsimp only
  split
  · next n place =>
    rw [place] at h
    have kept : u.route.map (fun k => if ringClass k = 2 then s.pocketRing n else k) = u.route := congrArg HubUnit.route h
    rw [List.map_tail, kept]
  · rfl

/-- The unit as the ring lets it go. -/
def HubUnit.crossed (u : HubUnit) : HubUnit := { u with route := u.route.tail }

theorem mem_put {t : Transfer} {u y : HubUnit} (h : y ∈ (t.put u.crossed).units) : y = u.crossed ∨ y ∈ t.units := by
  obtain ⟨x, hx, rfl⟩ := List.mem_map.mp (show y ∈ t.units.map fun x => if x.off = u.crossed.off then u.crossed else x from h)
  split
  · exact .inl rfl
  · exact .inr hx

/-- A transfer one of whose units has crossed the ring. -/
theorem put_crosses {s : State} {key : Nat} {t : Transfer} {u : HubUnit} (h : t.Crosses s key) (member : u ∈ t.units)
    (head : u.route.head? = some key) : (t.put u.crossed).Crosses s key ∧
      (t.put u.crossed).units.countP (HubUnit.waits key) + 1 = t.units.countP (HubUnit.waits key) := by
  obtain ⟨-, -, on⟩ := h.further u member head
  refine ⟨⟨?_, ?_, ?_, fun y hy first => ?_⟩, ?_⟩
  · exact fun none_ => h.some_ (List.map_eq_nil_iff.mp none_)
  · refine judgeTransfer_of_units ((judged_units h.judged).imp id fun each y hy => ?_)
    rcases mem_put hy with rfl | old
    · exact ⟨(each u member).1, reroute_tail (each u member).2 _⟩
    · exact each y old
  · have same : (t.put u.crossed).units.map (·.off) = t.units.map (·.off) := by
      show (t.units.map fun x => if x.off = u.crossed.off then u.crossed else x).map (·.off) = _
      rw [List.map_map]
      refine List.map_congr_left fun x _ => ?_
      show (if x.off = u.crossed.off then u.crossed else x).off = x.off
      split
      · exact Eq.symm ‹_›
      · rfl
    rw [same]
    exact h.distinct
  · rcases mem_put hy with rfl | old
    · exact absurd first on
    · exact h.further y old first
  · exact countP_put h.distinct member rfl (by simpa [HubUnit.waits] using head) (by simpa [HubUnit.waits, HubUnit.crossed] using on)

/-- A unit that only crosses the ring stays in its transfer. -/
theorem hubServe_crosses {t : Transfer} {u : HubUnit} (s : State) (i : Nat) (bytes : u.data.isSome = true ∨ t.writing = true)
    (further : u.route.tail ≠ []) : s.hubServe i t u = s.setTransfer i (t.put u.crossed) := by
  unfold State.hubServe HubUnit.crossed
  dsimp only
  by_cases writing : t.writing = true
  · rw [if_pos writing, if_neg further]
  · obtain ⟨bs, data⟩ := Option.isSome_iff_exists.mp (bytes.resolve_right writing)
    rw [if_neg writing, data]
    dsimp only
    rw [if_neg (by decide), if_neg further]

/-- A module with other transfers. -/
def State.withTransfers (s : State) (ts : List Transfer) : State := { s with host := { s.host with transfers := ts } }

theorem withTransfers_same (s : State) : s.withTransfers s.host.transfers = s := rfl

/-- What a number of units of an owner leaves at a ring: that many fewer of its units wait, and as many of any other's. -/
structure HubServed (key owner n : Nat) (s t : State) : Prop where
  only : t = s.withTransfers t.host.transfers
  crosses : HubCrosses key t
  own : t.hubPending key owner + n = s.hubPending key owner
  others : ∀ a, a ≠ owner → t.hubPending key a = s.hubPending key a

theorem HubServed.refl {key owner : Nat} {s : State} (h : HubCrosses key s) : HubServed key owner 0 s s := ⟨rfl, h, rfl, fun _ _ => rfl⟩

theorem HubServed.trans {key owner n m : Nat} {s t u : State} (h : HubServed key owner n s t) (g : HubServed key owner m t u) :
    HubServed key owner (n + m) s u :=
  ⟨by rw [g.only, h.only]; rfl, g.crosses, by rw [← h.own, ← g.own]; omega, fun a ha => (g.others a ha).trans (h.others a ha)⟩

/-- A unit of an owner that waits for the ring crosses it. -/
theorem hubUnit_served {key owner : Nat} {s : State} (h : HubCrosses key s) (some_ : 0 < s.hubPending key owner) :
    HubServed key owner 1 s (s.hubUnit key owner) := by
  have find : ∃ e, (s.host.transfers.zipIdx.find? fun e => e.1.agent == owner && (e.1.next key).isSome) = some e := by
    rw [← Option.isSome_iff_exists, List.find?_isSome]
    by_contra none_
    have zero : s.hubPending key owner = 0 := by
      rw [hubPending_eq]
      refine List.sum_eq_zero fun c hc => ?_
      obtain ⟨t, ht, rfl⟩ := List.mem_map.mp hc
      obtain ⟨ht, own⟩ := List.mem_filter.mp ht
      rw [List.countP_eq_zero]
      intro u hu waits
      obtain ⟨i, hi, rfl⟩ := List.mem_iff_getElem.mp ht
      refine none_ ⟨(s.host.transfers[i], i), List.mem_zipIdx_iff_getElem?.mpr (List.getElem?_eq_getElem hi), ?_⟩
      rw [Bool.and_eq_true]
      exact ⟨own, List.find?_isSome.mpr ⟨u, hu, waits⟩⟩
    omega
  obtain ⟨⟨t, i⟩, found⟩ := find
  have there : s.host.transfers[i]? = some t := List.mem_zipIdx_iff_getElem?.mp (List.mem_of_find?_eq_some found)
  have holds := List.find?_some found
  rw [Bool.and_eq_true, beq_iff_eq] at holds
  obtain ⟨agent, asks⟩ := holds
  have agent : t.agent = owner := agent
  obtain ⟨u, next⟩ := Option.isSome_iff_exists.mp asks
  have next : t.next key = some u := next
  have member : u ∈ t.units := List.mem_of_find?_eq_some next
  have head : u.route.head? = some key := by simpa using List.find?_some next
  have kind := h.transfers t (List.mem_of_getElem? there)
  obtain ⟨bytes, further, -⟩ := kind.further u member head
  obtain ⟨crosses, fewer⟩ := put_crosses kind member head
  let w := s.withTransfers (s.host.transfers.set i (t.put u.crossed))
  have short : i < s.host.transfers.length := (List.getElem?_eq_some_iff.mp there).1
  have whole : s.hubUnit key owner = w := by
    unfold State.hubUnit
    rw [found]
    dsimp only
    rw [next]
    dsimp only
    rw [hubServe_crosses s i bytes further]
    refine hubSettle_waits (s := w) (t := t.put u.crossed) ?_ crosses.judged (List.isEmpty_eq_false_iff.mpr crosses.some_) 3
    show (s.host.transfers.set i (t.put u.crossed))[i]? = _
    rw [List.getElem?_set_self short]
  obtain ⟨own, others⟩ := pendingOf_set (key := key) (owner := owner) (t' := t.put u.crossed) there rfl fewer
  rw [whole]
  refine ⟨rfl, ⟨h.partials, fun x hx => ?_⟩, own agent, fun a ha => ?_⟩
  · rcases List.mem_or_eq_of_mem_set hx with old | rfl
    · obtain ⟨a, b, c, d⟩ := h.transfers x old
      exact ⟨a, b, c, d⟩
    · obtain ⟨a, b, c, d⟩ := crosses
      exact ⟨a, b, c, d⟩
  · exact (pendingOf_set (key := key) (owner := a) (t' := t.put u.crossed) there rfl fewer).2 (by rw [agent]; exact ha.symm)

theorem hubServes_served {key owner n : Nat} {s : State} (h : HubCrosses key s) (enough : n ≤ s.hubPending key owner) :
    HubServed key owner n s (s.hubServes n key owner) := by
  induction n generalizing s with
  | zero => exact .refl h
  | succ k ih =>
    have first := hubUnit_served h (by omega : 0 < s.hubPending key owner)
    have own := first.own
    have rest := first.trans (ih first.crosses (by omega))
    rw [Nat.add_comm] at rest
    exact rest

end Sys2Proof.Machine
end

section
/-!
PROOF. Hub agents' owner slots and host openings (R46, R52, R290).
-/
namespace Sys2Proof.Machine

/-! ### Transfers that have gone on as far as they can -/

theorem HubCrosses.settles {key : Nat} {s : State} (h : HubCrosses key s) (i : Nat) : s.hubSettle 4 i = s := by
  cases there : s.host.transfers[i]? with
  | none =>
    unfold State.hubSettle
    rw [there]
  | some x =>
    have kind := h.transfers x (List.mem_of_getElem? there)
    exact hubSettle_waits there kind.judged (List.isEmpty_eq_false_iff.mpr kind.some_) 3

theorem HubCrosses.settleTransfers {key : Nat} {s : State} (h : HubCrosses key s) : s.settleTransfers = s := by
  unfold State.settleTransfers
  generalize (List.range s.host.transfers.length).reverse = is
  induction is with
  | nil => rfl
  | cons i r ih => rw [foldOver_cons, h.settles, ih]

theorem HubCrosses.endPartials {key : Nat} {s : State} (h : HubCrosses key s) : s.endPartials = s := if_pos (List.isEmpty_iff.mpr h.partials)

theorem hubPending_congr {s t : State} (h : t.host = s.host) (key owner : Nat) : t.hubPending key owner = s.hubPending key owner := by
  rw [hubPending_eq, hubPending_eq, h]

theorem SettleKeeps.host {s t : State} (h : SettleKeeps s t) : t.host = s.host := by rw [h.eq]

/-! ### The owner slot of a hub agent -/

theorem beginSlot_slots (s : State) (key : Nat) : ((s.beginSlot key).ring key).slots key = (s.ring key).slots key := by
  have paid : (s.payRefresh key).ring key = s.ring key := State.ring_congr (payRefresh_rings s key) key
  unfold State.beginSlot
  split
  · rfl
  · split
    · unfold State.updRing
      rw [State.ring_setRing_same, paid]
      rfl
    · unfold State.updRing
      rw [State.ring_setRing_same]
      rfl

theorem current_some {r : Ring} {key : Nat} {slot : RingSlot} (h : r.current key = some slot) :
    r.atEnd = false ∧ (r.slots key)[r.slot]? = some slot := by
  unfold Ring.current at h
  split at h
  · exact absurd h nofun
  · exact ⟨Bool.eq_false_iff.mpr ‹_›, h⟩

/-- A ring that stands at a slot which is no owner's passes none, in however many steps. -/
theorem settle_of_opening {s : State} {key : Nat} (h : ∀ x, s.slotOf key = some x → x.kind ≠ .owner) (fuel : Nat) : s.settle fuel key = s := by
  cases fuel with
  | zero => rfl
  | succ k =>
    unfold State.settle
    split
    · next slot at_ => exact if_neg fun own => h slot at_ own.1
    · rfl

/-- The open image of the Cuff bus has slots of Cuffs alone. -/
theorem openBus_owner {r : Ring} {key : Nat} {slot : RingSlot} (use : r.use = .opened) (bus : ringClass key = 6) (at_ : r.current key = some slot) :
    0x220 ≤ slot.owner := by
  unfold Ring.current Ring.slots openSlots at at_
  rw [use, bus] at at_
  split at at_
  · exact absurd at_ nofun
  · obtain ⟨k, -, rfl⟩ := List.mem_map.mp (List.mem_of_getElem? at_)
    exact Nat.le_add_right _ _

theorem hub_present {s : State} {key owner : Nat} (low : 0x200 ≤ owner) (high : owner < 0x220) :
    s.requestPresent key owner = decide (0 < s.hubPending key owner) := by
  unfold State.requestPresent
  rw [if_neg (by omega), if_pos high]

section
variable {s : State} {key : Nat} {slot : RingSlot} (at_ : s.slotOf key = some slot) (low : 0x200 ≤ slot.owner) (high : slot.owner < 0x220)
include at_ low high

/-- A ring waits at the slot of a hub agent one of whose units is pending. -/
theorem settleRing_hub (some_ : 0 < s.hubPending key slot.owner) :
    s.settleRing key = if slot.kind = .owner ∧ s.ringTurn key then s.beginSlot key else s := by
  have asks : (s.beginSlot key).requestPresent key slot.owner = true := by
    rw [hub_present low high, hubPending_congr (beginSlot_settle s key).host]
    exact decide_eq_true some_
  obtain ⟨-, -, same⟩ := beginSlot_ring s key
  have stays : (s.beginSlot key).endsItself key slot.owner = false := by
    have closed : (((s.beginSlot key).ring key).use == .opened && ringClass key == 6) = false := by
      rw [Bool.eq_false_iff]
      intro both
      rw [Bool.and_eq_true, beq_iff_eq, beq_iff_eq] at both
      have := openBus_owner both.1 both.2 (same.trans at_)
      omega
    unfold State.endsItself
    dsimp only
    rw [asks, closed]
    rfl
  have unpaid : (s.beginSlot key).payWaiting key slot.owner = s.beginSlot key := if_pos asks
  unfold State.settleRing State.settle
  rw [at_]
  dsimp only
  rw [stays, if_neg Bool.false_ne_true, unpaid]

/-- Such a ring stays in its slot, with as many units used. -/
theorem settleRing_hub_ring (some_ : 0 < s.hubPending key slot.owner) : ((s.settleRing key).ring key).slot = (s.ring key).slot ∧
    ((s.settleRing key).ring key).used = (s.ring key).used := by
  rw [settleRing_hub at_ low high some_]
  split
  · exact ⟨beginSlot_slot s key, (beginSlot_ring s key).2.1⟩
  · exact ⟨rfl, rfl⟩

omit at_ in
/-- The turn of a hub agent one of whose units is pending. -/
theorem hubTurn_serves (crosses : HubCrosses key s) (some_ : 0 < s.hubPending key slot.owner) :
    s.ownerTurn key slot.owner false = ((s.hubUnit key slot.owner).useSlot key 1 false).settleRing key := by
  have turn : s.hubTurn key slot.owner = (s.hubUnit key slot.owner, some (1, false)) := by
    unfold State.hubTurn
    dsimp only
    rw [crosses.settleTransfers, if_neg (by omega), (hubUnit_served crosses some_).crosses.endPartials]
  unfold State.ownerTurn
  dsimp only
  rw [decide_eq_false (by omega), if_neg Bool.false_ne_true, if_pos high, turn]
  dsimp only
  rw [if_neg (by omega)]
  rfl

end

section
variable {s : State} {cls inst : Nat} {slot : RingSlot} (turn : s.ringTurn (ringKey cls inst) = true)
  (at_ : s.slotOf (ringKey cls inst) = some slot) (kind : slot.kind = .owner) (low : 0x200 ≤ slot.owner) (high : slot.owner < 0x220)
include turn at_ kind low high

/-- The request of a hub agent in its slot serves one of its units. -/
theorem ownerRequest_hub (crosses : HubCrosses (ringKey cls inst) s) (some_ : 0 < s.hubPending (ringKey cls inst) slot.owner) :
    s.ownerRequest cls inst slot.owner false = ((((s.beginSlot (ringKey cls inst)).hubUnit (ringKey cls inst) slot.owner).useSlot
      (ringKey cls inst) 1 false).settleRing (ringKey cls inst)) := by
  obtain ⟨-, -, same⟩ := beginSlot_ring s (ringKey cls inst)
  have begun := beginSlot_settle s (ringKey cls inst)
  have only := beginSlot_only s (ringKey cls inst)
  unfold State.ownerRequest
  dsimp only
  rw [if_neg (show ¬slot.owner < 0x200 by omega), decide_eq_false (show ¬slot.owner < 0x200 by omega), turn,
    settleRing_hub at_ low high some_, if_pos (show slot.kind = .owner ∧ s.ringTurn (ringKey cls inst) = true from ⟨kind, turn⟩), same, at_]
  rw [if_neg (by nofun)]
  dsimp only
  rw [if_pos ⟨kind, rfl⟩]
  refine hubTurn_serves low high (crosses.congr begun.host ?_ ?_ ?_) ?_
  · rw [only]
  · rw [only]
  · rw [only]
  · rw [hubPending_congr begun.host]
    exact some_

/-- What such a request leaves. -/
theorem ownerRequest_hub_serves (crosses : HubCrosses (ringKey cls inst) s) (some_ : 0 < s.hubPending (ringKey cls inst) slot.owner) :
    let t := s.ownerRequest cls inst slot.owner false
    t.hubPending (ringKey cls inst) slot.owner + 1 = s.hubPending (ringKey cls inst) slot.owner ∧
      (1 < s.hubPending (ringKey cls inst) slot.owner → (s.ring (ringKey cls inst)).used + 1 < slot.units →
        (t.ring (ringKey cls inst)).slot = (s.ring (ringKey cls inst)).slot ∧
          (t.ring (ringKey cls inst)).used = (s.ring (ringKey cls inst)).used + 1) ∧
      t.mem = s.mem ∧ ∀ m, t.core m = s.core m := by
  intro t
  have whole : t = _ := ownerRequest_hub turn at_ kind low high crosses some_
  generalize ringKey cls inst = key at *
  obtain ⟨-, used, same⟩ := beginSlot_ring s key
  have stays := beginSlot_slot s key
  have begun := beginSlot_settle s key
  have only := beginSlot_only s key
  generalize s.beginSlot key = b at *
  have pending (a : Nat) : b.hubPending key a = s.hubPending key a := hubPending_congr begun.host key a
  have served := hubUnit_served (s := b) (crosses.congr begun.host (by rw [only]) (by rw [only]) (by rw [only])) (by rw [pending]; exact some_)
  generalize b.hubUnit key slot.owner = w at *
  have ring : w.ring key = b.ring key := by rw [served.only]; rfl
  have moved := useSlot_settle w key 1 false
  have ended := moved.trans (settleRing_settle (w.useSlot key 1 false) key)
  have own := served.own
  rw [pending] at own
  refine ⟨?_, fun more room => ?_, ?_, fun m => ?_⟩
  · rw [whole, hubPending_congr ended.host]
    exact own
  · have at_b : (b.ring key).current key = some slot := same.trans at_
    have here : (w.useSlot key 1 false).ring key = { b.ring key with used := (b.ring key).used + 1, stalled := false, waitSince := w.now } := by
      unfold State.useSlot
      rw [moveRing_ring, if_pos rfl, ring]
      unfold Ring.useUnits
      rw [at_b]
      dsimp only
      rw [if_neg (by rintro (last | full); exacts [Bool.false_ne_true last, by omega])]
    have there : (w.useSlot key 1 false).slotOf key = some slot := by
      unfold State.slotOf
      rw [here]
      exact at_b
    obtain ⟨slot_, used_⟩ := settleRing_hub_ring there low high (by rw [hubPending_congr moved.host]; omega)
    rw [whole, slot_, used_, here]
    exact ⟨stays, congrArg (· + 1) used⟩
  · rw [whole, ended.mem, served.only]
    exact begun.mem
  · rw [whole, ended.core, served.only]
    exact begun.core m

omit high in
/-- The slot of an engine with no transfer pending ends by itself, where an opening follows. -/
theorem ownerRequest_hub_ends (none_ : s.hubPending (ringKey cls inst) slot.owner = 0) (engine : slot.owner < 0x208)
    (free : bit s.host.busy (slot.owner - 0x200) = false) (opens : (s.ring (ringKey cls inst)).opensNext (ringKey cls inst)) :
    let t := s.ownerRequest cls inst slot.owner false
    (s.ring (ringKey cls inst)).wentOn (ringKey cls inst) (t.ring (ringKey cls inst)) ∧ ∀ m, t.core m = s.core m := by
  obtain ⟨-, -, same⟩ := beginSlot_ring s (ringKey cls inst)
  have slots := beginSlot_slots s (ringKey cls inst)
  have stays := beginSlot_slot s (ringKey cls inst)
  have begun := beginSlot_settle s (ringKey cls inst)
  have here := current_some (same.trans at_)
  have ends : (s.beginSlot (ringKey cls inst)).endsItself (ringKey cls inst) slot.owner = true := by
    unfold State.endsItself
    dsimp only
    rw [hub_present low (by omega), hubPending_congr begun.host, none_, begun.host, free, decide_eq_true low, decide_eq_true engine]
    simp
  have ring : ((s.beginSlot (ringKey cls inst)).endTurn (ringKey cls inst)).ring (ringKey cls inst) =
      ((s.beginSlot (ringKey cls inst)).ring (ringKey cls inst)).endSlot (ringKey cls inst) (s.beginSlot (ringKey cls inst)).now := by
    unfold State.endTurn State.useSlot
    rw [moveRing_ring, if_pos rfl]
    unfold Ring.useUnits
    rw [show ((s.beginSlot (ringKey cls inst)).ring (ringKey cls inst)).current (ringKey cls inst) = some slot from same.trans at_]
    exact if_pos (.inl rfl)
  have over_ : ∀ x, ((s.beginSlot (ringKey cls inst)).endTurn (ringKey cls inst)).slotOf (ringKey cls inst) = some x → x.kind ≠ .owner := by
    intro x hx
    unfold State.slotOf at hx
    rw [ring] at hx
    refine endSlot_current _ ?_ x hx
    unfold Ring.opensNext
    rw [slots, stays]
    exact opens
  have whole : s.ownerRequest cls inst slot.owner false = (s.beginSlot (ringKey cls inst)).endTurn (ringKey cls inst) := by
    have settled : s.settleRing (ringKey cls inst) = (s.beginSlot (ringKey cls inst)).endTurn (ringKey cls inst) := by
      unfold State.settleRing State.settle
      rw [at_]
      dsimp only
      rw [if_pos ⟨kind, turn⟩, if_pos ends, settle_of_opening over_]
    unfold State.ownerRequest
    dsimp only
    rw [if_neg (show ¬slot.owner < 0x200 by omega), decide_eq_false (show ¬slot.owner < 0x200 by omega), turn, settled]
    rw [if_neg (by nofun)]
    cases next : ((s.beginSlot (ringKey cls inst)).endTurn (ringKey cls inst)).slotOf (ringKey cls inst) with
    | none => rfl
    | some x =>
      dsimp only
      rw [if_neg fun own => over_ x next own.1]
      unfold State.otherRequest
      rw [if_neg (by omega), decide_eq_false (by omega)]
      rfl
  have moved := begun.trans (useSlot_settle (s.beginSlot (ringKey cls inst)) (ringKey cls inst) 0 true)
  refine ⟨?_, fun m => ?_⟩
  · rw [whole, ring]
    unfold Ring.wentOn Ring.endSlot
    rw [slots, stays]
    split
    · exact ⟨rfl, here.1⟩
    · rfl
  · rw [whole]
    exact moved.core m

end

/-! ### Shares of a host opening -/

/-- What the shares of some engines leave of an opening: each is served what its units ask, in what those before it have left. -/
structure SharesServed (key left : Nat) (es : List Nat) (s t : State) (n : Nat) : Prop where
  only : t = s.withTransfers t.host.transfers
  crosses : HubCrosses key t
  total : n = min left (es.map fun e => s.hubPending key (0x200 + e)).sum
  each : ∀ i e, es[i]? = some e → t.hubPending key (0x200 + e) =
    s.hubPending key (0x200 + e) - (left - ((es.take i).map fun j => s.hubPending key (0x200 + j)).sum)
  others : ∀ a, (∀ e ∈ es, a ≠ 0x200 + e) → t.hubPending key a = s.hubPending key a

theorem hostShare_served {key owner left : Nat} {s : State} (h : HubCrosses key s) :
    HubServed key owner (min left (s.hubPending key owner)) s (s.hostShare key owner left).1 :=
  hubServes_served h (Nat.min_le_right _ _)

theorem dmaShares_served {key left : Nat} {es : List Nat} (distinct : es.Nodup) {s : State} (h : HubCrosses key s) :
    SharesServed key left es s (s.dmaShares key left es).1 (s.dmaShares key left es).2 := by
  induction es generalizing s left with
  | nil => exact ⟨rfl, h, (Nat.min_zero _).symm, nofun, fun _ _ => rfl⟩
  | cons e r ih =>
    obtain ⟨apart, rest⟩ := List.nodup_cons.mp distinct
    have first := hostShare_served (owner := 0x200 + e) (left := left) h
    have count : (s.hostShare key (0x200 + e) left).2 = min left (s.hubPending key (0x200 + e)) := rfl
    unfold State.dmaShares
    dsimp only
    generalize s.hostShare key (0x200 + e) left = a at first count
    obtain ⟨x, n⟩ := a
    dsimp only at first count ⊢
    subst count
    have later := ih (left := left - min left (s.hubPending key (0x200 + e))) rest first.crosses
    have same {j : Nat} (hj : j ∈ r) : x.hubPending key (0x200 + j) = s.hubPending key (0x200 + j) :=
      first.others _ fun clash => apart (by rw [show e = j by omega]; exact hj)
    have sums {l : List Nat} (sub : ∀ j ∈ l, j ∈ r) : (l.map fun j => x.hubPending key (0x200 + j)).sum = (l.map fun j => s.hubPending key (0x200 + j)).sum :=
      congrArg List.sum (List.map_congr_left fun j hj => same (sub j hj))
    refine ⟨?_, later.crosses, ?_, fun i y hy => ?_, fun a ha => ?_⟩
    · rw [later.only, first.only]
      rfl
    · rw [later.total, sums fun _ => id, List.map_cons, List.sum_cons]
      omega
    · have own := first.own
      cases i with
      | zero =>
        obtain rfl : e = y := by simpa using hy
        rw [later.others _ fun j hj clash => apart (by rw [show e = j by omega]; exact hj)]
        show _ = _ - (left - 0)
        omega
      | succ k =>
        have hy : r[k]? = some y := by simpa using hy
        rw [later.each k y hy, same (List.mem_of_getElem? hy), sums fun j => List.mem_of_mem_take, List.take_succ_cons, List.map_cons, List.sum_cons]
        omega
    · rw [later.others a fun j hj => ha j (List.mem_cons_of_mem _ hj)]
      exact first.others a (ha e List.mem_cons_self)

/-- The units of the engines before engine `e`. -/
def State.dmaPending (s : State) (key e : Nat) : Nat := ((List.range e).map fun j => s.hubPending key (0x200 + j)).sum

/-- What the host queue engine's share and those of the hub DMA engines leave of an opening. -/
theorem hostShares_total {key units n : Nat} {s x y : State} (first : HubServed key 0x210 (min units (s.hubPending key 0x210)) s x)
    (second : SharesServed key (units - min units (s.hubPending key 0x210)) (List.range 8) x y n) :
    y.hubPending key 0x210 = s.hubPending key 0x210 - units ∧
      (∀ e, e < 8 → y.hubPending key (0x200 + e) = s.hubPending key (0x200 + e) - (units - (s.hubPending key 0x210 + s.dmaPending key e))) ∧
      min units (s.hubPending key 0x210) + n = min units (s.hubPending key 0x210 + s.dmaPending key 8) := by
  have engines {e : Nat} (small : e < 8) : x.hubPending key (0x200 + e) = s.hubPending key (0x200 + e) := first.others _ (by omega)
  have sums {e : Nat} (small : e ≤ 8) : ((List.range e).map fun j => x.hubPending key (0x200 + j)).sum = s.dmaPending key e :=
    congrArg List.sum (List.map_congr_left fun j hj => engines (by have := List.mem_range.mp hj; omega))
  have own := first.own
  have host := second.others 0x210 fun e he clash => by have := List.mem_range.mp he; omega
  have total := second.total
  rw [sums (Nat.le_refl 8)] at total
  refine ⟨by omega, fun e small => ?_, by omega⟩
  have each := second.each e e (List.getElem?_range small)
  rw [List.take_range, show min e 8 = e by omega, sums (by omega), engines small] at each
  omega

/-- Where no fence waits, none is sent and none is reported. -/
theorem map_fences_none {s : State} (h : s.host.fences = []) (f : FenceWait → FenceWait) :
    { s with host := { s.host with fences := s.host.fences.map f } } = s := by
  have same : s.host.fences.map f = s.host.fences := by
    rw [h]
    rfl
  rw [same]

/-- A host opening at which nothing waits but hub agents' units. -/
theorem hostOpening_served {s : State} {cls inst : Nat} {slot : RingSlot} (at_ : s.openingAt (ringKey cls inst) .host = some slot)
    (requests : s.host.requests = []) (clashes : (s.ring (ringKey cls inst)).clashes = []) (fences : s.host.fences = [])
    (crosses : HubCrosses (ringKey cls inst) s) :
    ∃ x y n, HubServed (ringKey cls inst) 0x210 (min slot.units (s.hubPending (ringKey cls inst) 0x210)) s x ∧
      SharesServed (ringKey cls inst) (slot.units - min slot.units (s.hubPending (ringKey cls inst) 0x210)) (List.range 8) x y n ∧
      s.hostOpening cls inst =
        y.endOpening (ringKey cls inst) .host (min slot.units (s.hubPending (ringKey cls inst) 0x210) + n != 0) := by
  have first := hostShare_served (owner := 0x210) (left := slot.units) crosses
  have count : (s.hostShare (ringKey cls inst) 0x210 slot.units).2 = min slot.units (s.hubPending (ringKey cls inst) 0x210) := rfl
  have opened : s.hostOpening cls inst = s.hostOpening cls inst := rfl
  conv_rhs at opened => unfold State.hostOpening
  dsimp only at opened
  rw [crosses.settleTransfers, settleRing_openingAt at_ (by decide), at_] at opened
  dsimp only at opened
  generalize s.hostShare (ringKey cls inst) 0x210 slot.units = a at first count opened
  obtain ⟨x, k⟩ := a
  dsimp only at first count opened
  subst count
  have free : x.host.requests = [] := by rw [first.only]; exact requests
  rw [bar4Drain_none free] at opened
  dsimp only at opened
  rw [Nat.add_zero] at opened
  have second := dmaShares_served (left := slot.units - min slot.units (s.hubPending (ringKey cls inst) 0x210)) (List.nodup_range (n := 8)) first.crosses
  generalize x.dmaShares (ringKey cls inst) (slot.units - min slot.units (s.hubPending (ringKey cls inst) 0x210)) (List.range 8) = b at second opened
  obtain ⟨y, n⟩ := b
  dsimp only at second opened
  have quiet : (y.ring (ringKey cls inst)).clashes = [] := by rw [second.only, first.only]; exact clashes
  have idle : y.host.fences = [] := by rw [second.only, first.only]; exact fences
  rw [quiet, fences] at opened
  have same : (if cls ≠ 4 then y else if inst % 2 = 1 then y.fenceReports (inst / 4) else y.fenceSends (inst / 2)) = y := by
    split
    · rfl
    · split
      · exact map_fences_none idle _
      · exact map_fences_none idle _
  simp only [State.clashShares, Nat.add_zero] at opened
  rw [same] at opened
  refine ⟨x, y, n, first, second, ?_⟩
  have kept := (endOpening_settle y (ringKey cls inst) .host (min slot.units (s.hubPending (ringKey cls inst) 0x210) + n != 0)).host
  rw [opened]
  generalize y.endOpening (ringKey cls inst) .host (min slot.units (s.hubPending (ringKey cls inst) 0x210) + n != 0) = z at kept ⊢
  have empty : z.endPartials = z := if_pos (by rw [kept]; exact List.isEmpty_iff.mpr second.crosses.partials)
  rw [empty]
  rfl

end Sys2Proof.Machine

namespace Sys2Proof.Proofs
open Sys2Proof Sys2Proof.Machine

/-- Settles O32: each unit at hand crosses the ring, and the agents take their shares in turn. -/
theorem hubAgentsAreServed : Obligations.HubAgentsAreServed := by
  intro cls inst s slot key r pending partials transfers
  have crosses : HubCrosses key s := ⟨partials, fun x hx => by
    obtain ⟨some_, judged, distinct, further⟩ := transfers x hx
    exact ⟨some_, judged, distinct, further⟩⟩
  constructor
  · rintro owner turn low high at_ kind rfl
    refine ⟨fun some_ => ?_, fun none_ engine free opens => ?_⟩
    · obtain ⟨own, ring, mem, cores⟩ := ownerRequest_hub_serves turn at_ kind low high crosses some_
      exact ⟨_, rfl, Nat.eq_sub_of_add_eq own, ring, mem, cores⟩
    · obtain ⟨on, cores⟩ := ownerRequest_hub_ends turn at_ kind low none_ engine free opens
      exact ⟨_, rfl, on, cores⟩
  · intro at_ requests clashes fences before
    obtain ⟨x, y, n, first, second, whole⟩ := hostOpening_served at_ requests clashes fences crosses
    obtain ⟨own, engines, total⟩ := hostShares_total first second
    have ring : y.ring key = r := by rw [second.only, first.only]; rfl
    obtain ⟨idle, used⟩ := endOpening_counts y key .host
    generalize min slot.units (s.hubPending (ringKey cls inst) 0x210) + n = m at whole total
    have kept := (endOpening_settle y key .host (m != 0)).host
    refine ⟨_, congrArg Host.Outcome.next whole, ?_, fun e small => ?_, fun some_ => ?_, fun none_ => ?_⟩
    · exact (hubPending_congr kept key _).trans own
    · exact (hubPending_congr kept key _).trans (engines e small)
    · have some_ : 0 < m := by rw [total]; exact some_
      rw [show (m != 0) = true from bne_iff_ne.mpr (Nat.ne_of_gt some_), ← ring]
      exact used (by decide)
    · have none_ : m = 0 := total.trans none_
      rw [none_, ← ring]
      exact idle

end Sys2Proof.Proofs
end
